-- ==== Sys2Proof/Word.lean ====
section
/-! DEFINITION. The widths of 00 section 5: bytes, 32-bit register words, 64-bit words, and the 256-byte line of
tile SRAM, registers V0-V31, messages and results (04 R97, 04 Table 04-4). Little-endian everywhere (Table 00-5). -/

namespace Sys2Proof

abbrev Byte := BitVec 8
abbrev Half := BitVec 16
abbrev Word := BitVec 32
abbrev Dword := BitVec 64

/-- A 256-byte line: a V register, an SRAM line, a message line (04 R97, R108). -/
abbrev Line := Vector Byte 256

/-- The 32 words of an MA register (04 Table 04-2, 05 R147). -/
abbrev Acc := Vector Word 32

def Line.zero : Line := Vector.replicate 256 0
def Acc.zero : Acc := Vector.replicate 32 0

/-- Byte `i` of a line, zero beyond the end. -/
def Line.byte (l : Line) (i : Nat) : Byte := l[i]?.getD 0

/-- `n` bytes from byte `i` on, little-endian, as a number (00 Table 00-5). -/
def Line.leNat (l : Line) (i : Nat) : Nat → Nat
  | 0 => 0
  | n + 1 => (l.byte i).toNat + 256 * Line.leNat l (i + 1) n

/-- Little-endian bytes as a number. -/
def leNat : List Byte → Nat
  | [] => 0
  | b :: bs => b.toNat + 256 * leNat bs

/-- The `n` little-endian bytes of a number. -/
def leBytes (n x : Nat) : List Byte :=
  (List.range n).map fun k => BitVec.ofNat 8 (x >>> (8 * k))

/-- A line whose first bytes are given and whose other bytes are zero. -/
def Line.ofBytes (bs : List Byte) : Line := Vector.ofFn fun i => bs[i.val]?.getD 0

def Line.bytes (l : Line) : List Byte := l.toList

/-- Bit `i` of a number. -/
def natBit (x i : Nat) : Bool := x.testBit i

/-- The field of `n` bits from bit `lo` up. -/
def natField (x lo n : Nat) : Nat := (x >>> lo) % 2 ^ n

end Sys2Proof
end

