-- ==== Sys2Proof/Syntax.lean ====
section
/-! DEFINITION. The commands of the block: the operand types and ONE inductive `Instr`, one constructor per row of
spec/opcode_table.json in the table's order. A tile operation carries the virtual tile that issues it, its predicate
register (05 R129) and the fields of its slot encoding; an event carries what its rule says comes from outside. -/

namespace Sys2Proof

/-! Names of things (03 R66, R81; 04 Table 04-2; 09; 13; 17; 19; 20). -/

/-- A virtual tile number, row × VC + column (03 R81); 320 at most. -/
abbrev TileId := Fin 320
abbrev VReg := Fin 32
abbrev AReg := Fin 16
abbrev KReg := Fin 8
abbrev PReg := Fin 8
abbrev MReg := Fin 8
abbrev PortId := Fin 8
abbrev LaneId := Fin 8
abbrev QuadId := Fin 4
abbrev Chan := Fin 4
abbrev QpId := Fin 32
abbrev SourceId := Fin 64
abbrev SlotId := Fin 16
/-- 0 VCORE, 1 VSRAM, 2 VRET, 3 VPHY (16 Table 16-8). -/
abbrev MonRail := Fin 4
/-- 0 VAUX, 1 VIO, 2 VPHY, 3 VSRAM, 4 VCORE (17 Table 17-4). -/
abbrev CpcRail := Fin 5
abbrev AxisId := Fin 20
abbrev DriveId := Fin 8
abbrev CamId := Fin 4
abbrev BusId := Fin 6
abbrev CageId := Fin 64
/-- A format code of 05 Table 05-3. -/
abbrev FmtCode := BitVec 4
/-- A physical chip number (02 R42). -/
abbrev ChipNo := BitVec 13

/-- The five slots of a bundle (04 Table 04-1). -/
inductive SlotName where
  | c | l | m | v | n
  deriving DecidableEq, Repr

/-- The fields Aa, OFF and INC of R144 (offset and increment in signed lines). -/
structure LineAddr where
  aa : AReg
  off : BitVec 14
  inc : BitVec 8
  deriving DecidableEq, Repr

/-- The fields Aa, SB, OFF and INC of R161. -/
structure BankAddr where
  aa : AReg
  sb : Fin 16
  off : BitVec 10
  inc : BitVec 8
  deriving DecidableEq, Repr

/-- The operand b of 05 section 4: A(Ab), or the sign-extended 30-bit IMM. -/
inductive BOperand where
  | reg (ab : AReg)
  | imm (v : BitVec 30)
  deriving DecidableEq, Repr

/-- The count of a LOOP: COUNT with SRC 0, A(a) with SRC 1 (05 Table 05-4). -/
inductive LoopCount where
  | count (v : BitVec 12)
  | areg (aa : AReg)
  deriving DecidableEq, Repr

/-- The source line of MSEND, FSEND, HWRITE and SREQ (05 R155, 06 R160). -/
inductive LineSrc where
  | vreg (v : VReg)
  | sram (a : LineAddr)
  deriving DecidableEq, Repr

/-- The destination of RECV (05 R156). -/
inductive LineDst where
  | vreg (v : VReg)
  | sram (a : LineAddr)
  deriving DecidableEq, Repr

/-- The class of a receive (04 R105). -/
inductive RecvClass where
  | mesh | wait
  deriving DecidableEq, Repr

/-- PART of FSEND and of a scheduled line (10 Table 10-1). -/
inductive Part where
  | only | first | middle | last
  deriving DecidableEq, Repr

/-- The two fault collectors: the chip's FC block and the tray's TF_ block (15 R411). -/
inductive CollectorId where
  | chip | tray
  deriving DecidableEq, Repr

/-- Where a host-injected frame comes from: a port's ingress, or the own host engine (10 R264). -/
inductive HostPath where
  | port (p : PortId)
  | own
  deriving DecidableEq, Repr

/-- What a DMA read completion brings (13 R368). -/
inductive ReadResult where
  | data (bytes : List Byte)
  | unsupported
  | aborted
  | poisoned
  deriving DecidableEq, Repr

/-- The access of a BAR4 window operation (13 R345). -/
inductive WinOp where
  | read (len : Nat)
  | write (bytes : List Byte)
  deriving DecidableEq, Repr

/-- The register spaces of the block: BAR0 of the SK2 (03 R83), the base-board register bus (18 R471), a CPC
(17 R470), BAR0 of function 0x0521 (18 Table 18-12). -/
inductive RegSpace where
  | chip
  | tray
  | cpc (slot : SlotId)
  | mailbox
  deriving DecidableEq, Repr

/-- The switched domains of 16 Table 16-1 that take part in power-on and power-off. -/
inductive Domain where
  | q (i : QuadId)
  | srch | faba | fabb | dbg
  deriving DecidableEq, Repr

/-- How a tray commit came about (17 R448). -/
inductive CommitCause where
  | loss | fastLoss | overVoltage
  deriving DecidableEq, Repr

/-- A slot's Power Controller Control field (18 R480). -/
inductive OnOff where
  | on | off
  deriving DecidableEq, Repr

/-- An indicator control field (02 R55). -/
inductive Indicator where
  | off | on | blink
  deriving DecidableEq, Repr

/-- A power order (18 Table 18-2). -/
inductive Order where
  | none | on | off
  deriving DecidableEq, Repr

/-- The two inlets of the TMC (18, The model). -/
inductive Inlet where
  | rack | host
  deriving DecidableEq, Repr

/-- The header of a TMP request as the TMC sees it (18 Table 18-1, Table 18-8 REQUESTER). -/
structure TmpHdr where
  inlet : Inlet
  seq : Word
  reqId : Word
  src : Word
  deriving DecidableEq, Repr

/-- The limits a PROFILE_LIMIT_WRITE may name (19 R499). -/
inductive LimitReg where
  | speed | accel | decel | jerk | profile
  deriving DecidableEq, Repr

/-- A module of 02 Table 02-1 that MODULE_INSERT and MODULE_REMOVE name: fans 0-5 and pumps 6-7 (19 Table 19-1). -/
abbrev ModuleId := DriveId

/-- The target of a two-wire register access (20 R524). -/
inductive TwoWireDev where
  | sk2 | cpc
  deriving DecidableEq, Repr

/-- The result of a base-board two-wire transaction (20 Table 20-8). -/
inductive TwiResult where
  | ok | addrNack | dataNack | pecErr | timeout | stuck
  deriving DecidableEq, Repr

/-- The media types the tray tells apart (20 R542). -/
inductive MediaType where
  | passiveCopper | activeCable | other
  deriving DecidableEq, Repr

/-- What a CMIS read of a cable module brings (20 R541). -/
structure Cmis where
  osfp : Bool
  media : MediaType
  lengthCm : Nat
  maxPowerMw : Nat
  powerClass : Nat
  vendor : List Byte
  part : List Byte
  serialNumber : List Byte
  deriving DecidableEq, Repr

/-- The commands: one constructor per row of spec/opcode_table.json. -/
inductive Instr where
  -- C slot (05 Table 05-5, 06 Table 06-2)
  | nop (tile : TileId) (slot : SlotName)
  | br (tile : TileId) (pred : PReg) (target : BitVec 16) (pop : BitVec 3)
  | loop (tile : TileId) (pred : PReg) (len : BitVec 8) (k : KReg) (n : LoopCount)
  | loopEnd (tile : TileId)
  | pand (tile : TileId) (pred : PReg) (d a b : PReg)
  | por (tile : TileId) (pred : PReg) (d a b : PReg)
  | pxor (tile : TileId) (pred : PReg) (d a b : PReg)
  | pandn (tile : TileId) (pred : PReg) (d a b : PReg)
  | endProgram (tile : TileId) (pred : PReg)
  | waitGtc (tile : TileId) (pred : PReg) (aa : AReg)
  | waitGtcEnd
  | ramp (tile : TileId) (pred : PReg) (qmask : BitVec 4) (level : BitVec 6) (lead : BitVec 10)
  -- L slot (05 Table 05-7)
  | ld (tile : TileId) (pred : PReg) (v : VReg) (a : LineAddr)
  | st (tile : TileId) (pred : PReg) (v : VReg) (a : LineAddr)
  | stm (tile : TileId) (pred : PReg) (v : VReg) (a : LineAddr) (am : AReg)
  | aadd (tile : TileId) (pred : PReg) (d a : AReg) (b : BOperand)
  | asub (tile : TileId) (pred : PReg) (d a : AReg) (b : BOperand)
  | amul (tile : TileId) (pred : PReg) (d a : AReg) (b : BOperand)
  | aand (tile : TileId) (pred : PReg) (d a : AReg) (b : BOperand)
  | aor (tile : TileId) (pred : PReg) (d a : AReg) (b : BOperand)
  | axor (tile : TileId) (pred : PReg) (d a : AReg) (b : BOperand)
  | ashl (tile : TileId) (pred : PReg) (d a : AReg) (b : BOperand)
  | ashr (tile : TileId) (pred : PReg) (d a : AReg) (b : BOperand)
  | asra (tile : TileId) (pred : PReg) (d a : AReg) (b : BOperand)
  | amin (tile : TileId) (pred : PReg) (d a : AReg) (b : BOperand)
  | amax (tile : TileId) (pred : PReg) (d a : AReg) (b : BOperand)
  | cmpeq (tile : TileId) (pred : PReg) (d : PReg) (a : AReg) (b : BOperand)
  | cmpne (tile : TileId) (pred : PReg) (d : PReg) (a : AReg) (b : BOperand)
  | cmplt (tile : TileId) (pred : PReg) (d : PReg) (a : AReg) (b : BOperand)
  | cmple (tile : TileId) (pred : PReg) (d : PReg) (a : AReg) (b : BOperand)
  | cmpltu (tile : TileId) (pred : PReg) (d : PReg) (a : AReg) (b : BOperand)
  | cmpleu (tile : TileId) (pred : PReg) (d : PReg) (a : AReg) (b : BOperand)
  | amovi (tile : TileId) (pred : PReg) (d : AReg) (imm : Word)
  | movka (tile : TileId) (pred : PReg) (d : AReg) (k : KReg)
  | aget (tile : TileId) (pred : PReg) (d : AReg) (vs : VReg) (w : BitVec 6)
  | ldb (tile : TileId) (pred : PReg) (v : VReg) (a : BankAddr)
  | stb (tile : TileId) (pred : PReg) (v : VReg) (a : BankAddr)
  -- M slot (05 Table 05-10, 06 Table 06-2)
  | wld (tile : TileId) (pred : PReg) (wb : Fin 2) (a : LineAddr) (fmt : FmtCode) (g : BitVec 4)
  | wldb (tile : TileId) (pred : PReg) (wb : Fin 2) (a : BankAddr) (fmt : FmtCode) (g : BitVec 4)
  | mmul (tile : TileId) (pred : PReg) (wb : Fin 2) (ma : MReg) (vs : VReg) (seg : BitVec 5) (fmt : FmtCode) (zero : Bool)
  | mamv (tile : TileId) (pred : PReg) (ma : MReg) (vd : VReg) (half : Fin 2)
  | mald (tile : TileId) (pred : PReg) (ma : MReg) (vs : VReg) (half : Fin 2)
  | maclr (tile : TileId) (pred : PReg) (ma : MReg)
  | mxwld (tile : TileId) (pred : PReg) (wb : Fin 2) (a : LineAddr) (fmt : FmtCode) (plane : BitVec 2)
  | mxscl (tile : TileId) (pred : PReg) (wb : Fin 2) (vs : VReg) (part : BitVec 3)
  | mxmul (tile : TileId) (pred : PReg) (wb : Fin 2) (ma : MReg) (vs : VReg) (seg : BitVec 2) (fmt : FmtCode) (zero : Bool)
  -- V slot (05 Table 05-12, 06 Table 06-2)
  | vadd (tile : TileId) (pred : PReg) (vd va vb : VReg) (fmt : FmtCode) (rnd : BitVec 2) (sat : Bool)
  | vsub (tile : TileId) (pred : PReg) (vd va vb : VReg) (fmt : FmtCode) (rnd : BitVec 2) (sat : Bool)
  | vmul (tile : TileId) (pred : PReg) (vd va vb : VReg) (fmt : FmtCode) (rnd : BitVec 2) (sat : Bool)
  | vfma (tile : TileId) (pred : PReg) (vd va vb vc : VReg) (fmt : FmtCode) (rnd : BitVec 2) (sat : Bool)
  | vmin (tile : TileId) (pred : PReg) (vd va vb : VReg) (fmt : FmtCode)
  | vmax (tile : TileId) (pred : PReg) (vd va vb : VReg) (fmt : FmtCode)
  | vabs (tile : TileId) (pred : PReg) (vd va : VReg) (fmt : FmtCode) (sat : Bool)
  | vneg (tile : TileId) (pred : PReg) (vd va : VReg) (fmt : FmtCode) (sat : Bool)
  | vand (tile : TileId) (pred : PReg) (vd va vb : VReg) (fmt : FmtCode)
  | vor (tile : TileId) (pred : PReg) (vd va vb : VReg) (fmt : FmtCode)
  | vxor (tile : TileId) (pred : PReg) (vd va vb : VReg) (fmt : FmtCode)
  | vshl (tile : TileId) (pred : PReg) (vd va vb : VReg) (fmt : FmtCode)
  | vshr (tile : TileId) (pred : PReg) (vd va vb : VReg) (fmt : FmtCode)
  | vsra (tile : TileId) (pred : PReg) (vd va vb : VReg) (fmt : FmtCode)
  | vcmpeq (tile : TileId) (pred : PReg) (vd va vb : VReg) (fmt : FmtCode)
  | vcmplt (tile : TileId) (pred : PReg) (vd va vb : VReg) (fmt : FmtCode)
  | vcmple (tile : TileId) (pred : PReg) (vd va vb : VReg) (fmt : FmtCode)
  | vsel (tile : TileId) (pred : PReg) (vd va vb vc : VReg) (fmt : FmtCode)
  | vcvt (tile : TileId) (pred : PReg) (vd va : VReg) (fmt fmt2 : FmtCode) (sp dp : BitVec 3) (rnd : BitVec 2)
  | vrsum (tile : TileId) (pred : PReg) (vd va : VReg) (fmt : FmtCode)
  | vrmax (tile : TileId) (pred : PReg) (vd va : VReg) (fmt : FmtCode)
  | vrmin (tile : TileId) (pred : PReg) (vd va : VReg) (fmt : FmtCode)
  | vrargmax (tile : TileId) (pred : PReg) (vd va : VReg) (fmt : FmtCode)
  | vany (tile : TileId) (pred : PReg) (d : PReg) (va : VReg)
  | vexp (tile : TileId) (pred : PReg) (vd va : VReg) (fmt : FmtCode)
  | vlog (tile : TileId) (pred : PReg) (vd va : VReg) (fmt : FmtCode)
  | vrcp (tile : TileId) (pred : PReg) (vd va : VReg) (fmt : FmtCode)
  | vrsq (tile : TileId) (pred : PReg) (vd va : VReg) (fmt : FmtCode)
  | vtanh (tile : TileId) (pred : PReg) (vd va : VReg) (fmt : FmtCode)
  | vsig (tile : TileId) (pred : PReg) (vd va : VReg) (fmt : FmtCode)
  | vmov (tile : TileId) (pred : PReg) (vd va : VReg)
  | vbca (tile : TileId) (pred : PReg) (vd : VReg) (aa : AReg) (fmt : FmtCode)
  | vimm (tile : TileId) (pred : PReg) (vd : VReg) (imm : BitVec 16) (fmt : FmtCode)
  | vpermb (tile : TileId) (pred : PReg) (vd va vc : VReg)
  | vmxq (tile : TileId) (pred : PReg) (vd va : VReg) (fmt fmt2 : FmtCode) (sp dp : BitVec 3) (rnd : BitVec 2)
  -- N slot (05 R155, R156; 06 R169-R176)
  | msend (tile : TileId) (pred : PReg) (src : LineSrc) (drow : Fin 16) (dcol : BitVec 5) (ch : Chan)
  | recv (tile : TileId) (pred : PReg) (cls : RecvClass) (ch : Chan) (dst : LineDst)
  | fsend (tile : TileId) (pred : PReg) (src : LineSrc) (part : Part) (port : PortId) (ac ar : AReg)
  | hwrite (tile : TileId) (pred : PReg) (src : LineSrc) (ah : AReg) (bcnt : Byte) (cmpl : Bool) (aq : AReg)
  | sreq (tile : TileId) (pred : PReg) (src : LineSrc) (ad : AReg) (rch : Chan)
  -- tile events (04)
  | resultLanding (tile : TileId)
  | waitReceiveCheck (tile : TileId) (pred : PReg) (ch : Chan)
  | holdRelease
  | meshLineArrival (tile : TileId)
  | scrubRead (tile : TileId)
  | scrubWriteback (tile : TileId)
  | scrubCoverageLow (tile : TileId) (sb : Fin 16)
  -- set-up registers (03)
  | columnMapWrite (reg : Fin 6) (value : Word)
  | traceEnable (value : Word)
  | traceDataRead
  | registerWrite (space : RegSpace) (offset : Nat) (size : Nat) (value : Word)
  | steepCommit
  | monCommit
  | gtcRead
  | lagRead
  | srchWorkRead
  | steepBalRead (q : QuadId)
  | bbTimeRead
  -- Vohel links (09)
  | egressArbitration (port : PortId)
  | frameReceive (port : PortId) (bytes : List Byte)
  | replayTimeout (port : PortId)
  | fabRetryRate (port : PortId)
  | portEnable (port : PortId) (enable : Bool)
  | retrain (port : PortId)
  | classWrite (port : PortId) (cls : BitVec 2)
  | partnerDetected (port : PortId)
  | detectTimeout (port : PortId)
  | lock (port : PortId) (locked : BitVec 8)
  | equalise (port : PortId) (good : BitVec 8)
  | align (port : PortId) (peerChip : ChipNo) (peerPort : PortId) (peerDsn : Dword) (peerFailed : BitVec 8)
  | measure (port : PortId) (delayNs : BitVec 8)
  | confirm (port : PortId)
  | trainPhaseTimeout (port : PortId)
  | laneFail (port : PortId) (lane : LaneId)
  | retrainPatternSeen (port : PortId)
  | retrainDone (port : PortId) (peerFailed : BitVec 8)
  | retrainTimeout (port : PortId)
  | downTimeout (port : PortId)
  | trayIndexWrite (value : Word)
  -- fabric messages (10, 11)
  | scheduledLineArrival (port : PortId)
  | arrivalGateRelease (port : PortId)
  | segmentIssue
  | rreq (path : HostPath)
  | wreq (path : HostPath)
  | wdata (path : HostPath)
  | rresp (path : HostPath)
  | wresp (path : HostPath)
  | transactionTimeout (tag : Fin 256)
  | wreqTimeout (src : ChipNo) (tag : Fin 256)
  | managementFrame (port : PortId) (send : Option (Dword × Line))
  | syncSend
  | syncFrame (port : PortId)
  | parentLoss
  | parentRelock
  | rootFailover
  | launchPour (port : PortId)
  | abortPour (port : PortId)
  | lagFrame (port : PortId)
  | programStart
  | runEnd
  | holdTimeout
  | forecastEffect (q : QuadId)
  -- search unit (12)
  | broad
  | ordered
  | memwrite
  | memread
  | searchBudgetEnd
  | searchResult
  | searchScrub
  -- host interface (13)
  | sqTail (qp : QpId) (value : Word)
  | cqHead (qp : QpId) (value : Word)
  | push (qp : QpId) (offset : Nat) (bytes : List Byte)
  | hostReadCompletion (qp : QpId) (result : ReadResult)
  | completionTimeout (qp : QpId)
  | nopDescriptor (qp : QpId)
  | write (qp : QpId)
  | read (qp : QpId)
  | input (qp : QpId)
  | launch (qp : QpId)
  | stop (qp : QpId)
  | globalWrite (qp : QpId)
  | globalRead (qp : QpId)
  | cancel (qp : QpId)
  | fence (qp : QpId)
  | search (qp : QpId)
  | timeQuery (qp : QpId)
  | hostWriteSend
  | completionPost (qp : QpId)
  | interruptTimer (qp : QpId)
  | qpEnable (qp : QpId)
  | qpDisable (qp : QpId)
  | qpDrainEnd (qp : QpId)
  | windowAccess (offset : BitVec 28) (op : WinOp)
  | functionLevelReset
  | d3hot
  | fundamentalReset
  | linkDown
  -- CRC engine (14)
  | crcStart
  | crcDone
  -- fault collection (15)
  | faultLatch (c : CollectorId)
  | nmiDelivery
  | nmiPop
  | escalationTimerExpiry (c : CollectorId) (src : SourceId)
  | autoClear (c : CollectorId) (src : SourceId)
  | fcAck (c : CollectorId) (hi : Bool) (mask : Word)
  | fcInject (c : CollectorId) (value : Word)
  | fcSrcCfgWrite (c : CollectorId) (src : SourceId) (value : Word)
  | cscWatchdog
  | clockLoss
  -- chip power (16)
  | domainRequest (value : Word)
  | domainPowerOnEnd (d : Domain)
  | domainPowerOffEnd (d : Domain)
  | lowIdleEntry
  | lowIdleExit
  | keepAliveRateReturn
  | park
  | retentionExit
  | retLost
  | opGo
  | opTransitionStart
  | opTransitionEnd (pllLocked : Bool) (vcoreInRange : Bool)
  | supplyWarning (rail : MonRail)
  | supplyRecovered (rail : MonRail)
  | supplyReset (rail : MonRail)
  | thermalScan (milliC : Vector Int 16)
  | aonReset
  -- tray power and cartridges (17, 02)
  | trayInputRise
  | inputWarning
  | commit (cause : CommitCause)
  | dwellEnd
  | qualificationRestart
  | inputQualified
  | powerUpStart (slot : SlotId)
  | railDwellEnd (slot : SlotId)
  | riseTimeout (slot : SlotId)
  | powerDownStart (slot : SlotId)
  | parkTimeout (slot : SlotId)
  | railOff (slot : SlotId)
  | dischargeTimeout (slot : SlotId)
  | stuck (slot : SlotId)
  | railLost (slot : SlotId) (rail : CpcRail)
  | inputLoss (slot : SlotId)
  | valveClosedRise (slot : SlotId)
  | cpcFaultClear (slot : SlotId)
  | cartridgeInsert (slot : SlotId)
  | cartridgeRemove (slot : SlotId)
  | bbuInsert (usableMwh : Nat) (chargePct : Nat)
  | bbuCharged (usableMwh : Nat)
  | bbuDepleted
  | bbuFault
  | bbuRemove
  | powerControllerControl (slot : SlotId) (v : OnOff)
  | powerIndicatorControl (slot : SlotId) (v : Indicator)
  | attentionIndicatorControl (slot : SlotId) (v : Indicator)
  | attentionButtonPressed (slot : SlotId) (ms : Nat)
  -- Tray Management Controller (18)
  | tmcRestart (h : TmpHdr) (bootCount : Word)
  | slotPower (h : TmpHdr) (mask : BitVec 16) (order : Order) (noNotice : Bool)
  | defer (h : TmpHdr) (notice : Byte)
  | deferDone (h : TmpHdr) (notice : Byte)
  | noticeExpiry
  | deferTimeout
  | coolDemand (h : TmpHdr) (flow : BitVec 16) (fan pump : Byte)
  | sensorRead (h : TmpHdr) (first : Nat) (count : Nat)
  | logRead (h : TmpHdr) (number : Word) (count : Nat)
  | faultAck (h : TmpHdr) (mask : Dword)
  | chipRead (h : TmpHdr) (slot : SlotId) (offset : BitVec 16) (count : Nat)
  | chipWrite (h : TmpHdr) (slot : SlotId) (offset : BitVec 16) (value : Word)
  | cableInfo (h : TmpHdr) (cage : Nat)
  | dhcpTimeout
  | sensorScan (criticalOnly : Bool) (readings : List (Fin 212 × Int))
  | logRecordWrite
  | watchdogService
  | watchdogExpiry
  | expiredClear
  | cardReset
  | baseBoardReset
  -- cooling actuation (19)
  | move (axis : AxisId)
  | axisStop (axis : AxisId)
  | resume (axis : AxisId)
  | home (axis : AxisId)
  | engage (axis : AxisId)
  | disengage (axis : AxisId)
  | profileLimitWrite (axis : AxisId) (reg : LimitReg) (value : Word)
  | moveEnd (axis : AxisId)
  | axisHalt (axis : AxisId) (pos : Nat)
  | homeFail (axis : AxisId)
  | closedSwitch (axis : AxisId) (pos : Int)
  | openSwitch (axis : AxisId) (pos : Nat)
  | closeOverrun (axis : AxisId)
  | railsOffRise (slot : SlotId)
  | camSample
  | camSwap (cam : CamId)
  | tmcReq (v : Bool)
  | driveOutOfRange (k : DriveId)
  | leak (bay : SlotId)
  | leakClear (mask : BitVec 16)
  | valvePolicyMove (slot : SlotId) (policy : BitVec 14)
  -- management buses (20)
  | twoWireRegisterWrite (slot : SlotId) (dev : TwoWireDev) (bytes : List Byte)
  | twoWireRegisterRead (slot : SlotId) (dev : TwoWireDev) (o0 o1 : Byte) (clocked : Nat)
  | managementWakeEnd
  | keepAliveReturn
  | twoWireTimeout
  | startTransaction (bus : BusId)
  | twoWireTransactionDone (bus : BusId) (result : TwiResult) (bytes : List Byte)
  | busStuck (bus : BusId)
  | recover (bus : BusId)
  | recoveryRetry (bus : BusId)
  | bufferConnect (slot : SlotId)
  | cmisRead (cage : CageId) (id : Option Cmis)
  -- further rows of the table, in its order
  | qualificationStart
  | inputWarningEnd
  | pcieLinkUp
  | moduleInsert (m : ModuleId)
  | moduleRemove (m : ModuleId)
  | tmcCardInsert
  | driveBackInRange (k : DriveId)
  | inletOverTemperature (high : Bool)
  | flowLow (low : Bool)
  | dhcpLease (address : Word)
  deriving DecidableEq, Repr

end Sys2Proof
end

