-- ==== Sys2Proof/Decode.lean ====
section
/-! DEFINITION. Two decoders. decodeTableWord is the command a word spells by the bits of spec/opcode_table.json: the table
gives no row any bits. decodeSlot is the 256-bit bundle of tile SRAM (04 R95; 05 R128 to R157; 06 R159): the operation that
each of its five slots holds, none where R130, R131 or R159 makes the bundle illegal. A field whose allowed values depend on
another operand or on the column map is tested by the operation's meaning. -/

namespace Sys2Proof

/-- No row of the table has bits, so no word spells a command. -/
def decodeTableWord (_nbits _w : Nat) : Option Instr := none

/-! Bundles (04 Table 04-1, 05 R128). -/

/-- First bit and width of a slot in its bundle (04 Table 04-1). -/
def SlotName.bits : SlotName → Nat × Nat
  | .c => (0, 32)
  | .l => (32, 48)
  | .m => (80, 48)
  | .v => (128, 64)
  | .n => (192, 64)

/-- The slots in the order in which a bundle's operations are taken (04 Table 04-13). -/
def SlotName.all : List SlotName := [.c, .l, .m, .v, .n]

/-- SLOT of 04 Table 04-13. -/
def SlotName.code : SlotName → Nat
  | .c => 0
  | .l => 1
  | .m => 2
  | .v => 3
  | .n => 4

/-- A slot's bits in a bundle. -/
def slotOf (bundle : Nat) (s : SlotName) : Nat := natField bundle s.bits.1 s.bits.2

/-- No bit of the word is set outside the header of `h` bits and the fields named (first bit, width): every other field is
reserved or must be zero (05 R131, R150). -/
def onlyFields (w h : Nat) (fields : List (Nat × Nat)) : Bool :=
  w == ((0, h) :: fields).foldl (fun (a : Nat) f => a + natField w f.1 f.2 <<< f.1) 0

/-- An operation whose other fields are zero. -/
def slotOp (w h : Nat) (fields : List (Nat × Nat)) (i : Instr) : Option Instr :=
  if onlyFields w h fields then some i else none

/-! Fields of a slot word, by their first bit. -/

def predAt (w lo : Nat) : PReg := Fin.ofNat 8 (w >>> lo)
def aregAt (w lo : Nat) : AReg := Fin.ofNat 16 (w >>> lo)
def vregAt (w lo : Nat) : VReg := Fin.ofNat 32 (w >>> lo)
def fmtAt (w lo : Nat) : FmtCode := BitVec.ofNat 4 (w >>> lo)

/-- Aa, OFF and INC of a line address (05 Tables 05-6, 05-8, 05-14). -/
def lineAt (w aa off inc : Nat) : LineAddr :=
  { aa := aregAt w aa, off := BitVec.ofNat 14 (w >>> off), inc := BitVec.ofNat 8 (w >>> inc) }

/-- Aa, SB, OFF and INC of a bank-relative address (06 Table 06-3). -/
def bankAt (w aa sb off inc : Nat) : BankAddr :=
  { aa := aregAt w aa, sb := Fin.ofNat 16 (w >>> sb), off := BitVec.ofNat 10 (w >>> off),
    inc := BitVec.ofNat 8 (w >>> inc) }

/-- C slot: header [2:0] PRED, [7:3] OP (05 Tables 05-1, 05-4, 05-5; 06 Tables 06-2, 06-3). -/
def decodeC (v : TileId) (w : Nat) : Option Instr :=
  let pred := predAt w 0
  let pds := [(8, 3), (11, 3), (14, 3)]
  match natField w 3 5 with
  | 0x00 => if w == 0 then some (.nop v .c) else none
  | 0x01 => slotOp w 8 [(8, 16), (24, 3)] (.br v pred (BitVec.ofNat 16 (w >>> 8)) (BitVec.ofNat 3 (w >>> 24)))
  | 0x02 =>
    let len : BitVec 8 := BitVec.ofNat 8 (w >>> 8)
    if natBit w 19 then
      slotOp w 8 [(8, 8), (16, 3), (19, 1), (20, 4)] (.loop v pred len (predAt w 16) (.areg (aregAt w 20)))
    else some (.loop v pred len (predAt w 16) (.count (BitVec.ofNat 12 (w >>> 20))))
  | 0x03 => slotOp w 8 pds (.pand v pred (predAt w 8) (predAt w 11) (predAt w 14))
  | 0x04 => slotOp w 8 pds (.por v pred (predAt w 8) (predAt w 11) (predAt w 14))
  | 0x05 => slotOp w 8 pds (.pxor v pred (predAt w 8) (predAt w 11) (predAt w 14))
  | 0x06 => slotOp w 8 pds (.pandn v pred (predAt w 8) (predAt w 11) (predAt w 14))
  | 0x07 => slotOp w 8 [] (.endProgram v pred)
  | 0x10 => slotOp w 8 [(8, 4)] (.waitGtc v pred (aregAt w 8))
  | 0x11 => slotOp w 8 [(8, 4), (12, 6), (18, 10)]
      (.ramp v pred (BitVec.ofNat 4 (w >>> 8)) (BitVec.ofNat 6 (w >>> 12)) (BitVec.ofNat 10 (w >>> 18)))
  | _ => none

/-- Operand b of the L slot: I in [17], Ab in [21:18], IMM in [47:18] (05 Table 05-6). -/
def bOperandAt (w : Nat) : BOperand :=
  if natBit w 17 then .imm (BitVec.ofNat 30 (w >>> 18)) else .reg (aregAt w 18)

/-- The fields of an A-register operation: Ad in [12:9], or PDd in [11:9] (05 Table 05-6). -/
def aluFields (w dest : Nat) : List (Nat × Nat) :=
  [(9, dest), (13, 4), (17, 1), if natBit w 17 then (18, 30) else (18, 4)]

/-- L slot: header [2:0] PRED, [8:3] OP (05 Tables 05-1, 05-6, 05-7; 06 Tables 06-2, 06-3). -/
def decodeL (v : TileId) (w : Nat) : Option Instr :=
  let pred := predAt w 0
  let mem := [(9, 5), (14, 4), (18, 14), (36, 8)]
  let bank := [(9, 5), (14, 4), (18, 4), (22, 10), (36, 8)]
  let b := bOperandAt w
  let alu := fun (f : TileId → PReg → AReg → AReg → BOperand → Instr) =>
    slotOp w 9 (aluFields w 4) (f v pred (aregAt w 9) (aregAt w 13) b)
  let cmp := fun (f : TileId → PReg → PReg → AReg → BOperand → Instr) =>
    slotOp w 9 (aluFields w 3) (f v pred (predAt w 9) (aregAt w 13) b)
  match natField w 3 6 with
  | 0x00 => if w == 0 then some (.nop v .l) else none
  | 0x01 => slotOp w 9 mem (.ld v pred (vregAt w 9) (lineAt w 14 18 36))
  | 0x02 => slotOp w 9 mem (.st v pred (vregAt w 9) (lineAt w 14 18 36))
  | 0x03 => slotOp w 9 ((32, 4) :: mem) (.stm v pred (vregAt w 9) (lineAt w 14 18 36) (aregAt w 32))
  | 0x08 => alu .aadd
  | 0x09 => alu .asub
  | 0x0A => alu .amul
  | 0x0B => alu .aand
  | 0x0C => alu .aor
  | 0x0D => alu .axor
  | 0x0E => alu .ashl
  | 0x0F => alu .ashr
  | 0x10 => alu .asra
  | 0x11 => alu .amin
  | 0x12 => alu .amax
  | 0x13 => cmp .cmpeq
  | 0x14 => cmp .cmpne
  | 0x15 => cmp .cmplt
  | 0x16 => cmp .cmple
  | 0x17 => cmp .cmpltu
  | 0x18 => cmp .cmpleu
  | 0x19 => slotOp w 9 [(9, 4), (13, 32)] (.amovi v pred (aregAt w 9) (BitVec.ofNat 32 (w >>> 13)))
  | 0x1A => slotOp w 9 [(9, 4), (13, 3)] (.movka v pred (aregAt w 9) (predAt w 13))
  | 0x1B => slotOp w 9 [(9, 4), (13, 5), (18, 6)] (.aget v pred (aregAt w 9) (vregAt w 13) (BitVec.ofNat 6 (w >>> 18)))
  | 0x20 => slotOp w 9 bank (.ldb v pred (vregAt w 9) (bankAt w 14 18 22 36))
  | 0x21 => slotOp w 9 bank (.stb v pred (vregAt w 9) (bankAt w 14 18 22 36))
  | _ => none

/-- M slot: header [2:0] PRED, [8:3] OP (05 Tables 05-1, 05-8, 05-10; 06 Tables 06-2, 06-3). -/
def decodeM (v : TileId) (w : Nat) : Option Instr :=
  let pred := predAt w 0
  let wb : Fin 2 := Fin.ofNat 2 (w >>> 9)
  let ma : MReg := predAt w 10
  let half : Fin 2 := Fin.ofNat 2 (w >>> 18)
  match natField w 3 6 with
  | 0x00 => if w == 0 then some (.nop v .m) else none
  | 0x01 => slotOp w 9 [(9, 1), (10, 4), (14, 14), (28, 4), (32, 4), (36, 8)]
      (.wld v pred wb (lineAt w 10 14 36) (fmtAt w 28) (BitVec.ofNat 4 (w >>> 32)))
  | 0x02 => slotOp w 9 [(9, 1), (10, 3), (13, 5), (18, 5), (23, 4), (27, 1)]
      (.mmul v pred wb ma (vregAt w 13) (BitVec.ofNat 5 (w >>> 18)) (fmtAt w 23) (natBit w 27))
  | 0x03 => slotOp w 9 [(10, 3), (13, 5), (18, 1)] (.mamv v pred ma (vregAt w 13) half)
  | 0x04 => slotOp w 9 [(10, 3), (13, 5), (18, 1)] (.mald v pred ma (vregAt w 13) half)
  | 0x05 => slotOp w 9 [(10, 3)] (.maclr v pred ma)
  | 0x20 => slotOp w 9 [(9, 1), (10, 4), (14, 4), (18, 10), (28, 4), (32, 4), (36, 8)]
      (.wldb v pred wb (bankAt w 10 14 18 36) (fmtAt w 28) (BitVec.ofNat 4 (w >>> 32)))
  | 0x21 => slotOp w 9 [(9, 1), (10, 4), (14, 14), (28, 4), (32, 2), (36, 8)]
      (.mxwld v pred wb (lineAt w 10 14 36) (fmtAt w 28) (BitVec.ofNat 2 (w >>> 32)))
  | 0x22 => slotOp w 9 [(9, 1), (10, 5), (15, 3)] (.mxscl v pred wb (vregAt w 10) (BitVec.ofNat 3 (w >>> 15)))
  | 0x23 => slotOp w 9 [(9, 1), (10, 3), (13, 5), (18, 2), (21, 4), (25, 1)]
      (.mxmul v pred wb ma (vregAt w 13) (BitVec.ofNat 2 (w >>> 18)) (fmtAt w 21) (natBit w 25))
  | _ => none

/-- V slot: header [2:0] PRED, [9:3] OP (05 Tables 05-1, 05-11, 05-12; 06 Tables 06-2, 06-3). A field that an operation's
row does not name must be zero (05 R136, R150, R152; 06 R167). -/
def decodeV (v : TileId) (w : Nat) : Option Instr :=
  let pred := predAt w 0
  let vd := vregAt w 10
  let va := vregAt w 15
  let vb := vregAt w 20
  let vc := vregAt w 25
  let fmt := fmtAt w 30
  let rnd : BitVec 2 := BitVec.ofNat 2 (w >>> 34)
  let sat := natBit w 36
  let fd := (10, 5)
  let fa := (15, 5)
  let fb := (20, 5)
  let fc := (25, 5)
  let ff := (30, 4)
  let fr := (34, 2)
  let fs := (36, 1)
  let two := fun (f : TileId → PReg → VReg → VReg → VReg → FmtCode → Instr) =>
    slotOp w 10 [fd, fa, fb, ff] (f v pred vd va vb fmt)
  let one := fun (f : TileId → PReg → VReg → VReg → FmtCode → Instr) =>
    slotOp w 10 [fd, fa, ff] (f v pred vd va fmt)
  let arith := fun (f : TileId → PReg → VReg → VReg → VReg → FmtCode → BitVec 2 → Bool → Instr) =>
    slotOp w 10 [fd, fa, fb, ff, fr, fs] (f v pred vd va vb fmt rnd sat)
  let conv := fun (f : TileId → PReg → VReg → VReg → FmtCode → FmtCode → BitVec 3 → BitVec 3 → BitVec 2 → Instr) =>
    slotOp w 10 [fd, fa, ff, fr, (37, 4), (41, 3), (44, 3)]
      (f v pred vd va fmt (fmtAt w 37) (BitVec.ofNat 3 (w >>> 41)) (BitVec.ofNat 3 (w >>> 44)) rnd)
  match natField w 3 7 with
  | 0x00 => if w == 0 then some (.nop v .v) else none
  | 0x01 => arith .vadd
  | 0x02 => arith .vsub
  | 0x03 => arith .vmul
  | 0x04 => slotOp w 10 [fd, fa, fb, fc, ff, fr, fs] (.vfma v pred vd va vb vc fmt rnd sat)
  | 0x05 => two .vmin
  | 0x06 => two .vmax
  | 0x07 => slotOp w 10 [fd, fa, ff, fs] (.vabs v pred vd va fmt sat)
  | 0x08 => slotOp w 10 [fd, fa, ff, fs] (.vneg v pred vd va fmt sat)
  | 0x10 => two .vand
  | 0x11 => two .vor
  | 0x12 => two .vxor
  | 0x13 => two .vshl
  | 0x14 => two .vshr
  | 0x15 => two .vsra
  | 0x18 => two .vcmpeq
  | 0x19 => two .vcmplt
  | 0x1A => two .vcmple
  | 0x1B => slotOp w 10 [fd, fa, fb, fc, ff] (.vsel v pred vd va vb vc fmt)
  | 0x20 => conv .vcvt
  | 0x28 => one .vrsum
  | 0x29 => one .vrmax
  | 0x2A => one .vrmin
  | 0x2B => one .vrargmax
  | 0x2C => slotOp w 10 [(10, 3), fa] (.vany v pred (predAt w 10) va)
  | 0x30 => one .vexp
  | 0x31 => one .vlog
  | 0x32 => one .vrcp
  | 0x33 => one .vrsq
  | 0x34 => one .vtanh
  | 0x35 => one .vsig
  | 0x38 => slotOp w 10 [fd, fa] (.vmov v pred vd va)
  | 0x39 => slotOp w 10 [fd, ff, (47, 4)] (.vbca v pred vd (aregAt w 47) fmt)
  | 0x3A => slotOp w 10 [fd, ff, (47, 16)] (.vimm v pred vd (BitVec.ofNat 16 (w >>> 47)) fmt)
  | 0x3B => slotOp w 10 [fd, fa, fc] (.vpermb v pred vd va vc)
  | 0x40 => conv .vmxq
  | _ => none

/-- The source line of a send: with SRC 0 the fields Aa, OFF and INC must be zero, with SRC 1 the field Vs (05 R155,
06 R160). The fields of the word that it may use, and the source. -/
def sourceAt (w inc : Nat) : List (Nat × Nat) × LineSrc :=
  if natBit w 9 then ([(9, 1), (15, 4), (19, 14), (inc, 8)], .sram (lineAt w 15 19 inc))
  else ([(10, 5)], .vreg (vregAt w 10))

/-- N slot: header [2:0] PRED, [8:3] OP (05 Tables 05-1, 05-14, R157; 06 Tables 06-2, 06-3). -/
def decodeN (v : TileId) (w : Nat) : Option Instr :=
  let pred := predAt w 0
  let src := sourceAt w 33
  match natField w 3 6 with
  | 0x00 => if w == 0 then some (.nop v .n) else none
  | 0x01 =>
    let s := sourceAt w 44
    slotOp w 9 (s.1 ++ [(33, 4), (37, 5), (42, 2)])
      (.msend v pred s.2 (aregAt w 33) (BitVec.ofNat 5 (w >>> 37)) (Fin.ofNat 4 (w >>> 42)))
  | 0x02 =>
    let cls : RecvClass := if natBit w 9 then .wait else .mesh
    let d : List (Nat × Nat) × LineDst :=
      if natBit w 12 then ([(18, 4), (22, 14), (36, 8)], .sram (lineAt w 18 22 36)) else ([(13, 5)], .vreg (vregAt w 13))
    slotOp w 9 (d.1 ++ [(9, 1), (10, 2), (12, 1)]) (.recv v pred cls (Fin.ofNat 4 (w >>> 10)) d.2)
  | 0x10 =>
    let part : Part := match natField w 41 2 with
      | 0 => .only
      | 1 => .first
      | 2 => .middle
      | _ => .last
    slotOp w 9 (src.1 ++ [(41, 2), (43, 3), (46, 4), (50, 4)])
      (.fsend v pred src.2 part (predAt w 43) (aregAt w 46) (aregAt w 50))
  | 0x11 => slotOp w 9 (src.1 ++ [(41, 4), (45, 8), (53, 1), (54, 4)])
      (.hwrite v pred src.2 (aregAt w 41) (BitVec.ofNat 8 (w >>> 45)) (natBit w 53) (aregAt w 54))
  | 0x12 => slotOp w 9 (src.1 ++ [(41, 4), (45, 2)]) (.sreq v pred src.2 (aregAt w 41) (Fin.ofNat 4 (w >>> 45)))
  | _ => none

/-- The operation of a slot that virtual tile v fetches; none where the slot holds a reserved opcode, an undefined opcode
of an addition range, or a bit that must be zero (05 R130, R131; 06 R159). -/
def decodeSlot (v : TileId) (s : SlotName) (w : Nat) : Option Instr :=
  match s with
  | .c => decodeC v w
  | .l => decodeL v w
  | .m => decodeM v w
  | .v => decodeV v w
  | .n => decodeN v w

/-- The operations of a bundle, by slot. -/
def decodeBundle (v : TileId) (bundle : Nat) : List (SlotName × Option Instr) :=
  SlotName.all.map fun s => (s, decodeSlot v s (slotOf bundle s))

end Sys2Proof
end

