-- ==== Sys2Proof/Config.lean ====
section
/-! DEFINITION. The constants the spec fixes for every part, and the free values: constants with no body, which no
proof can evaluate, for what the spec leaves open (log entries 9 to 14, 18, 27, 28, 41 and 104). -/

namespace Sys2Proof.Config

/-- The units of the model's wall clock `now` in one nanosecond: 1/15 ns, so that a core cycle is whole at every
operating point (0.8, 1 and 4/3 ns) and so is a GTC tick (0.8 ns). -/
def unitsPerNs : Nat := 15

/-- One GTC tick, 0.8 ns, in units of `now` (00 section 5). -/
def unitsPerTick : Nat := 12

def ns (n : Nat) : Nat := n * 15
def us (n : Nat) : Nat := n * 15000
def ms (n : Nat) : Nat := n * 15000000
def sec (n : Nat) : Nat := n * 15000000000

/-- The six transcendentals of 05 Table 05-13. -/
inductive Trans where
  | exp | log | rcp | rsq | tanh | sig
  deriving DecidableEq, Repr

/-- The choice among the results of a transcendental that 05 Table 05-13 allows: a fixed function of operation, format
code and operand (05 R154; log entry 10). -/
opaque transBits : Trans → Nat → Nat → Nat

/-- The sign of an MMUL or MXMUL sum that is exactly zero while its products are not all zeros of one sign, as a
function of the (input, weight) codes (07 R199 states none; log entry 11). -/
opaque zeroSumSign : List (Nat × Nat) → Bool

/-- A fresh bit, byte or number for each value of the state's counter `free`. -/
opaque freeBool : Nat → Bool
opaque freeByte : Nat → BitVec 8
opaque freeNat : Nat → Nat
opaque freeWord : Nat → BitVec 32

/-- The verdict of the collision checker inside the band that R327 and R328 leave open, as a function of what it
compares (the two bounds and the true distance in the units of 12; log entry 12). -/
opaque collisionInBand : List Int → Bool

/-- The number of voxel blocks that a capsule touches, where R334 leaves it to the unit (log entry 13). -/
opaque blocksTouched : List Int → Nat

/-- Samples and intermediate roundings of the time-scaling stage (12 R336; log entry 14). -/
opaque timeScale : List Int → Int

/-- Whether a value within 2⁻¹⁶ of a limit counts as within it in the choice of σ (12 R336; log entry 14). -/
opaque timeScaleWithin : List Int → Bool

/-- A field of a search result header that the spec states no value for, by draw and byte offset (12 Table 12-11; log
entry 27). -/
opaque searchField : Nat → Nat → Nat

/-- The TM16 card's firmware version (18 Table 18-3 PING; log entry 41). -/
opaque firmwareVersion : BitVec 32

/-- A trace record whose contents were lost with DBG, by core cycle count and index (03 R90; log entry 104). -/
opaque lostTrace : Nat → Nat → BitVec 64

/-- How far a following axis has come when its target changes, by time and axis (19 R499, R510; log entry 43). -/
opaque followPos : Nat → Nat → Nat

/-- The identity record of a board that is fitted, by place, time and byte (20 R536; log entry 114). -/
opaque recordByte : Nat → Nat → Nat → BitVec 8

/-- The 12 bytes of a record of the node store, by draw and node (12 Table 12-1; log entry 28). -/
opaque nodeByte : Nat → Nat → Nat → BitVec 8

end Sys2Proof.Config
end

