-- ==== Sys2Proof/Machine/Floats.lean ====
section
/-! DEFINITION. Number formats and arithmetic (07): the exact value of an element code, rounding under RND with the
random value of R194, BX12 blocks, and the exact sums of the matrix unit. -/

namespace Sys2Proof.Machine

/-- A decoded element (07 R181, R182): a finite value is (−1)^neg × m × 2^e. -/
inductive FVal where
  | nan
  | inf (neg : Bool)
  | fin (neg : Bool) (m : Nat) (e : Int)
  deriving DecidableEq, Repr

/-- The layout of a floating format (07 Tables 07-1 and 07-2). -/
structure FFmt where
  width : Nat
  mbits : Nat
  bias : Int
  /-- An all-ones exponent encodes infinity and NaN. -/
  ieee : Bool
  /-- The greatest finite code without its sign. -/
  maxFinite : Nat
  /-- The canonical NaN, if the format has one. -/
  nan : Option Nat
  deriving DecidableEq, Repr

def fBinary32 : FFmt := ⟨32, 23, 127, true, 0x7F7FFFFF, some 0x7FC00000⟩
def fBinary16 : FFmt := ⟨16, 10, 15, true, 0x7BFF, some 0x7E00⟩
def fBfloat16 : FFmt := ⟨16, 7, 127, true, 0x7F7F, some 0x7FC0⟩
def fE5M2 : FFmt := ⟨8, 2, 15, true, 0x7B, some 0x7E⟩
def fE4M3 : FFmt := ⟨8, 3, 7, false, 0x7E, some 0x7F⟩
def fE3M2 : FFmt := ⟨6, 2, 3, false, 0x1F, none⟩
def fE2M3 : FFmt := ⟨6, 3, 1, false, 0x1F, none⟩
def fE2M1 : FFmt := ⟨4, 1, 1, false, 0x7, none⟩

/-- What a format code names (05 Table 05-3). -/
inductive Fmt where
  | flt (f : FFmt)
  | int (w : Nat)
  | bx12
  deriving DecidableEq, Repr

def fmtOf (c : FmtCode) : Option Fmt :=
  match c.toNat with
  | 0 => some (.flt fBinary32)
  | 1 => some (.flt fBinary16)
  | 2 => some (.flt fBfloat16)
  | 3 => some (.flt fE5M2)
  | 4 => some (.flt fE4M3)
  | 5 => some (.flt fE3M2)
  | 6 => some (.flt fE2M3)
  | 7 => some (.flt fE2M1)
  | 8 => some (.int 32)
  | 9 => some (.int 16)
  | 10 => some (.int 8)
  | 11 => some (.int 4)
  | 12 => some .bx12
  | _ => none

/-- Width in bits of an element (05 Table 05-3; a BX12 element takes 16). -/
def Fmt.width : Fmt → Nat
  | .flt f => f.width
  | .int w => w
  | .bx12 => 16

def fmtWidth (c : FmtCode) : Nat := ((fmtOf c).map Fmt.width).getD 0

/-- The exact value of a code (07 R181, R182). -/
def FFmt.decode (f : FFmt) (code : Nat) : FVal :=
  let neg := code.testBit (f.width - 1)
  let mag := code % 2 ^ (f.width - 1)
  let e := mag >>> f.mbits
  let m := mag % 2 ^ f.mbits
  let ebits := f.width - 1 - f.mbits
  if f.ieee && e == 2 ^ ebits - 1 then (if m == 0 then .inf neg else .nan)
  else if !f.ieee && f.nan == some mag then .nan
  else if e == 0 then .fin neg m (1 - f.bias - f.mbits)
  else .fin neg (2 ^ f.mbits + m) ((e : Int) - f.bias - f.mbits)

/-- The sign bit of a format in place. -/
def FFmt.signBit (f : FFmt) (neg : Bool) : Nat := if neg then 2 ^ (f.width - 1) else 0

def FFmt.infCode (f : FFmt) (neg : Bool) : Nat :=
  f.signBit neg + (if f.ieee then (2 ^ (f.width - 1 - f.mbits) - 1) <<< f.mbits else f.maxFinite)

/-- The canonical NaN; 0 in a format without NaN (07 R197: R168 fixes those conversions before this is reached). -/
def FFmt.nanCode (f : FFmt) : Nat := f.nan.getD 0

/-- The rounding modes of R136, the stochastic one with its 16-bit random value. -/
inductive Rnd where
  | nearest
  | zero
  | stochastic (r : Nat)
  deriving DecidableEq, Repr

/-- Whether a magnitude n + rem / 2^sh (rem < 2^sh) rounds away from zero (07 R192, R193). -/
def roundsUp (rnd : Rnd) (n rem sh : Nat) : Bool :=
  match rnd with
  | .nearest => 2 ^ sh < 2 * rem || (2 ^ sh == 2 * rem && n % 2 == 1)
  | .zero => false
  | .stochastic r => 2 ^ 16 ≤ ((rem <<< 16) >>> sh) + r

/-- m × 2^e as a whole number of units of 2^q, rounded. -/
def roundTo (rnd : Rnd) (m : Nat) (e q : Int) : Nat :=
  if q ≤ e then m <<< (e - q).toNat
  else
    let sh := (q - e).toNat
    let n := m >>> sh
    if roundsUp rnd n (m % 2 ^ sh) sh then n + 1 else n

/-- A finite value rounded once into a format (07 R192, R196): the code. The significand is `n` units of 2^q, so
that the code without its sign is (q + mbits + bias − 1) × 2^mbits + n. -/
def FFmt.round (f : FFmt) (rnd : Rnd) (neg : Bool) (m : Nat) (e : Int) : Nat :=
  if m == 0 then f.signBit neg
  else
    let top : Int := (Nat.log2 m : Int) + e
    let q : Int := max top (1 - f.bias) - f.mbits
    let n := roundTo rnd m e q
    let code := ((q + f.mbits + f.bias - 1).toNat <<< f.mbits) + n
    if code ≤ f.maxFinite then f.signBit neg + code
    else match rnd with
      | .nearest => f.infCode neg
      | _ => f.signBit neg + f.maxFinite

/-- A value into a format: R192, R196 and R197. -/
def FFmt.encode (f : FFmt) (rnd : Rnd) : FVal → Nat
  | .nan => f.nanCode
  | .inf neg => f.infCode neg
  | .fin neg m e => f.round rnd neg m e

/-- The signed value of the low w bits. -/
def sInt (w x : Nat) : Int :=
  let y := x % 2 ^ w
  if y.testBit (w - 1) then (y : Int) - 2 ^ w else y

/-- The w-bit code of an integer, modulo 2^w. -/
def uInt (w : Nat) (x : Int) : Nat := (x % (2 ^ w : Int)).toNat

/-- The w-bit code of an integer, saturated to the signed range. -/
def satInt (w : Nat) (x : Int) : Nat :=
  uInt w (max (-(2 ^ (w - 1) : Int)) (min x (2 ^ (w - 1) - 1)))

def inIntRange (w : Nat) (x : Int) : Bool := -(2 ^ (w - 1) : Int) ≤ x && x ≤ 2 ^ (w - 1) - 1

def FVal.ofInt (x : Int) : FVal := .fin (x < 0) x.natAbs 0

/-- A finite magnitude with its sign, rounded to an integer under RND. -/
def roundInt (rnd : Rnd) (neg : Bool) (m : Nat) (e : Int) : Int :=
  let n : Int := roundTo rnd m e 0
  if neg then -n else n

/-- Signed mantissa. -/
def sMant (neg : Bool) (m : Nat) : Int := if neg then -(m : Int) else m

/-- Exact sum of two finite values; an exact zero of unlike signs is +0 (05 R150: IEEE 754; log entry 15). -/
def addFin (n1 : Bool) (m1 : Nat) (e1 : Int) (n2 : Bool) (m2 : Nat) (e2 : Int) : FVal :=
  if m1 == 0 && m2 == 0 then .fin (n1 && n2) 0 0
  else
    let e := min e1 e2
    let s := sMant n1 (m1 <<< (e1 - e).toNat) + sMant n2 (m2 <<< (e2 - e).toNat)
    .fin (s < 0) s.natAbs e

def FVal.add : FVal → FVal → FVal
  | .nan, _ => .nan
  | _, .nan => .nan
  | .inf a, .inf b => if a == b then .inf a else .nan
  | .inf a, .fin .. => .inf a
  | .fin .., .inf b => .inf b
  | .fin n1 m1 e1, .fin n2 m2 e2 => addFin n1 m1 e1 n2 m2 e2

def FVal.neg : FVal → FVal
  | .nan => .nan
  | .inf a => .inf !a
  | .fin n m e => .fin (!n) m e

def FVal.mul : FVal → FVal → FVal
  | .nan, _ => .nan
  | _, .nan => .nan
  | .inf a, .inf b => .inf (a != b)
  | .inf a, .fin n m _ => if m == 0 then .nan else .inf (a != n)
  | .fin n m _, .inf a => if m == 0 then .nan else .inf (a != n)
  | .fin n1 m1 e1, .fin n2 m2 e2 => .fin (n1 != n2) (m1 * m2) (e1 + e2)

def FVal.isNan : FVal → Bool
  | .nan => true
  | _ => false

/-- Numeric order, −0 = +0; false when either is NaN. -/
def FVal.lt : FVal → FVal → Bool
  | .nan, _ => false
  | _, .nan => false
  | .inf a, .inf b => a && !b
  | .inf a, .fin .. => a
  | .fin .., .inf b => !b
  | .fin n1 m1 e1, .fin n2 m2 e2 =>
    let e := min e1 e2
    sMant n1 (m1 <<< (e1 - e).toNat) < sMant n2 (m2 <<< (e2 - e).toNat)

def FVal.eqv (x y : FVal) : Bool := !x.isNan && !y.isNan && !x.lt y && !y.lt x

def FVal.isNeg : FVal → Bool
  | .nan => false
  | .inf n => n
  | .fin n _ _ => n

/-- The order of VMIN and VMAX: −0 < +0 (05 Table 05-12). -/
def FVal.ltZ (x y : FVal) : Bool := x.lt y || (x.eqv y && x.isNeg && !y.isNeg)

/-- floor(log2) of a nonzero finite magnitude. -/
def FVal.floorLog2 : FVal → Int
  | .fin _ m e => (Nat.log2 m : Int) + e
  | _ => 0

/-- The greatest floor(log2 magnitude) of the nonzero finite values, if there is one; floor and log2 are monotone, so
this is floor(log2 amax) of R168 and R189. -/
def maxLog2 (xs : List FVal) : Option Int :=
  xs.foldl (fun acc x =>
    match x with
    | .fin _ 0 _ => acc
    | .fin .. => some (match acc with | none => x.floorLog2 | some a => max a x.floorLog2)
    | _ => acc) none

def FVal.isFin : FVal → Bool
  | .fin .. => true
  | _ => false

/-! Stochastic rounding (07 R194). -/

def mix32 (x0 : Word) : Word :=
  let x1 := x0 ^^^ (x0 >>> 16)
  let x2 := x1 * 0x7FEB352D#32
  let x3 := x2 ^^^ (x2 >>> 15)
  let x4 := x3 * 0x846CA68B#32
  x4 ^^^ (x4 >>> 16)

/-- The 16-bit random value of destination element e of virtual tile p in bundle pcc. -/
def srValue (seed : Word) (pcc p e : Nat) : Nat :=
  let h := mix32 (seed ^^^ BitVec.ofNat 32 pcc)
  (mix32 (h ^^^ BitVec.ofNat 32 (p * 256 + e))).toNat % 2 ^ 16

/-- RND 0, 1 or 2 for destination element e (RND 3 is reserved and never reaches this). -/
def rndOf (rnd : BitVec 2) (seed : Word) (pcc p e : Nat) : Rnd :=
  match rnd.toNat with
  | 0 => .nearest
  | 1 => .zero
  | _ => .stochastic (srValue seed pcc p e)

/-! BX12 blocks (07 R187-R189): sixteen 16-bit words. -/

/-- The block exponent X from words 0 and 1. -/
def bxExp (w0 w1 : Nat) : Nat := natField w0 12 4 + 16 * natField w1 12 4

/-- Element of a block with exponent X and word w. -/
def bxDecode (x w : Nat) : FVal :=
  if x == 255 then .nan
  else
    let m := sInt 12 w
    .fin (m < 0) m.natAbs ((x : Int) - 137)

def bxDecodeBlock (ws : List Nat) : List FVal :=
  let x := bxExp (ws.getD 0 0) (ws.getD 1 0)
  ws.map (bxDecode x)

/-- Sixteen values into a block (R189), with the rounding of each element, and whether the block held a NaN or an
infinity (source 8). -/
def bxEncodeBlock (xs : List FVal) (rnd : Nat → Rnd) : List Nat × Bool :=
  if xs.all FVal.isFin then
    let x : Int := match maxLog2 xs with
      | none => 127
      | some l => max 0 (min 254 (l + 127))
    let m := xs.zipIdx.map fun (v, i) =>
      match v with
      | .fin neg mm e =>
        let r := roundInt (rnd i) neg mm (e + 137 - x)
        uInt 12 (max (-2048) (min 2047 r))
      | _ => 0
    (m.zipIdx.map fun (c, i) =>
      if i == 0 then c + (x.toNat % 16) <<< 12
      else if i == 1 then c + (x.toNat / 16) <<< 12
      else c, false)
  else
    ((List.range 16).map fun i => if i < 2 then 0xF000 else 0, true)

/-! Exact sums of the matrix unit (07 R199). -/

/-- The exact sum of a list of products, rounded once to binary32; `pairs` are the codes the zero-sign free value depends on. Of
a sum that is exactly zero R165 and R199 state no sign: it is that of the products where they all have one (DESIGN CHOICE, log
entry 11), elsewhere a free value. -/
def sumProducts (products : List FVal) (pairs : List (Nat × Nat)) (scale : Int) : Nat :=
  if products.any FVal.isNan then fBinary32.nanCode
  else
    let pos := products.any fun x => x == .inf false
    let neg := products.any fun x => x == .inf true
    if pos && neg then fBinary32.nanCode
    else if pos then fBinary32.infCode false
    else if neg then fBinary32.infCode true
    else
      let e := products.foldl (fun acc x => match x with | .fin _ _ e => min acc e | _ => acc) (0 : Int)
      let s := products.foldl (fun (acc : Int) x =>
        match x with | .fin n m ex => acc + sMant n (m <<< (ex - e).toNat) | _ => acc) 0
      if s == 0 then
        let sign :=
          if products.all FVal.isNeg then true
          else if products.all fun x => !x.isNeg then false
          else Config.zeroSumSign pairs
        fBinary32.signBit sign
      else fBinary32.round .nearest (s < 0) s.natAbs (e + scale)

/-- Binary32 addition under round to nearest even. -/
def addBinary32 (x y : Nat) : Nat :=
  fBinary32.encode .nearest ((fBinary32.decode x).add (fBinary32.decode y))

/-! Elements of lines (07 R185). -/

/-- Element i of width w of a list of bytes starting at byte `base`. -/
def elemAt (l : Line) (base w i : Nat) : Nat :=
  if w == 4 then natField (l.byte (base + i / 2)).toNat (4 * (i % 2)) 4
  else l.leNat (base + i * w / 8) (w / 8)

/-- Codes of width w as bytes. -/
def packElems (w : Nat) : List Nat → List Byte
  | [] => []
  | [x] => leBytes (max 1 (w / 8)) (x % 2 ^ w)
  | x :: y :: rest =>
    if w == 4 then BitVec.ofNat 8 (x % 16 + 16 * (y % 16)) :: packElems w rest
    else leBytes (w / 8) (x % 2 ^ w) ++ packElems w (y :: rest)

end Sys2Proof.Machine
end

