-- ==== Sys2Proof/Machine/StateTile.lean ====
section
/-! DEFINITION. The state of one tile (04 Table 04-2, R99, R108, R117; 05 R139, R140; 06 R170, R553), of the mesh
(08 R207-R209), of the column map and trace (03), and of the tile checks and scrubber registers (04 R127).
Each field's comment gives its name; its width; the rule that names it; its value at reset. -/

namespace Sys2Proof.Machine

/-- A weight buffer W0 or W1 (06 R553). -/
structure WBuf where
  /-- Element cells: 32 rows of 32 words; 1024 x 32 bits; 06 R553; reset 0. -/
  cells : Vector Acc 32
  /-- Column scales: 32 x 8 bits; 06 R164 R180; reset 0, 127 at program start. -/
  scales : Vector Byte 32
  /-- Format tag: a format code or unset; 05 R146 R158; reset unset. -/
  tag : Option FmtCode
  deriving DecidableEq, Repr

/-- Where a line of the send queue goes (05 R155; 06 R169, R172, R175). -/
inductive SendDst where
  | mesh (row : Fin 16) (col : BitVec 5) (ch : Chan)
  | port (p : PortId) (msg : Dword)
  | host (addr : Dword) (bcnt : Byte) (handle : Option (Word × Dword))
  | search (deadline : Word) (rch : Chan)
  deriving DecidableEq, Repr

/-- A line in a tile's send queue: the PCC value from which its line can leave (08 R207: t + s), and the core cycle count at
which it issued (13 R363). -/
structure SendLine where
  line : Line
  dst : SendDst
  leave : Nat
  issued : Nat
  deriving DecidableEq, Repr

/-- What a result in flight writes when it lands (04 R99, R101). -/
inductive Dest where
  /-- Pieces (first byte, bytes) of a V register. -/
  | v (r : VReg) (pieces : List (Nat × List Byte))
  | a (r : AReg) (x : Word)
  | k (r : KReg) (x : Word)
  | pd (r : PReg) (x : Bool)
  | ma (r : MReg) (x : Acc)
  /-- Whole rows from `row` on, with the format tag (05 R146). -/
  | wRows (wb : Fin 2) (row : Nat) (rows : List Acc) (fmt : FmtCode)
  /-- A plane, with the format tag (06 R163). -/
  | wPlane (wb : Fin 2) (plane : Fin 3) (line : Line) (fmt : FmtCode)
  | wScales (wb : Fin 2) (x : Vector Byte 32)
  /-- The words of a line of tile SRAM that the mask selects (04 R115). -/
  | sram (off : Nat) (line : Line) (mask : Word)
  | send (x : SendLine)
  deriving DecidableEq, Repr

/-- A result in flight: issued at PCC value `issued`, landed for bundles from PCC value `land` on (04 R99). -/
structure Flight where
  issued : Nat
  land : Nat
  dest : Dest
  deriving DecidableEq, Repr

/-- A taken transfer in flight (04 R102, 05 R139): it issued at PCC value `issued`. -/
structure Transfer where
  issued : Nat
  target : Nat
  pop : Nat
  deriving DecidableEq, Repr

/-- An active loop (05 R140). -/
structure ActiveLoop where
  k : KReg
  start : Nat
  last : Nat
  deriving DecidableEq, Repr

/-- The destination registers a bundle names (04 R122, 05 R132). -/
inductive RegName where
  | v (r : VReg) | a (r : AReg) | k (r : KReg) | pd (r : PReg) | w (r : Fin 2) | ma (r : MReg)
  deriving DecidableEq, Repr

/-- A pending RAMP forecast of a quadrant (06 R179, 16 R440): LEVEL, the PCC value at which it takes effect, and the
PCC value at which the RAMP issued. -/
structure Forecast where
  level : BitVec 6
  due : Nat
  issued : Nat
  deriving DecidableEq, Repr

/-- The first-event captures of tile checks and of uncorrectable errors: FC_TILE_CAPT_SRC, _PCC and _INFO, the cycle of the
capture, and FC_ECC_CAPT_ADDR and _WORDS (04 Tables 04-12 to 04-15). -/
structure Captures where
  source : BitVec 3
  tile : BitVec 9
  valid : Bool
  pcc : Word
  info : Word
  cycle : Nat
  eccOffset : BitVec 22
  eccTile : BitVec 9
  eccValid : Bool
  eccWords : Word
  deriving DecidableEq, Repr

/-- What the bundle that issues at PCC value `pcc` has done so far (04 R113, R122; log entry 47). -/
structure BundleUse where
  pcc : Nat
  named : List RegName
  /-- The slot that named each of them, for SLOT of 04 Table 04-14. -/
  namedBy : List (RegName × Nat)
  reads : List Nat
  writes : List Nat
  /-- Slots that hold an operation (03 Table 03-11, ISSUE). -/
  slots : List Nat
  /-- The bundle is illegal: it issues as five NOPs (04 R122). -/
  void : Bool
  /-- The active loops before the bundle, on which its loop test is made (05 R140). -/
  before : List ActiveLoop
  /-- The loop test is made (05 R140). -/
  tested : Bool
  /-- The loop that the bundle's LOOP starts (05 R140). -/
  begun : Option ActiveLoop
  /-- The bundle holds END (05 R142). -/
  ends : Bool
  /-- Forecasts that the bundle's RAMP has put, with those they replace (16 R440). -/
  ramps : List (QuadId × Forecast × Option Forecast)
  /-- Activity units of the bundle (16 R438). -/
  activity : Nat
  /-- Sources of the tile that the bundle has raised so far, which an illegal bundle takes back (04 R122). -/
  raised : List Nat
  /-- Corrected words that the bundle's reads have counted so far (04 R119). -/
  corrected : Nat
  /-- The captures as they stood before the bundle's operations, once one of them has changed a capture (04 R123, R119). -/
  captures : Option Captures
  /-- Sub-banks that external accesses have used in a core cycle: that cycle's count and the sub-bank (04 R116). -/
  ext : List (Nat × Nat)
  deriving DecidableEq, Repr

/-- A message a tile has open to a port: lines still due, the message field its lines carry but for PART, and whether its
lines are discarded because the route was refused (06 R170, 10 R253). -/
structure OpenMsg where
  due : Nat
  header : Dword
  discard : Bool
  deriving DecidableEq, Repr

/-- The scrubber of one tile (04 R117, R118). -/
structure Scrub where
  /-- Line pointer of each sub-bank: 16 x 10 bits; 04 R117 R126; reset 0. -/
  ptr : Vector (Fin 1024) 16
  /-- The sub-bank scrubbed last: 4 bits; 04 R117; reset 15 (DESIGN CHOICE, entry 6: the round robin begins at sub-bank 0). -/
  last : Fin 16
  /-- Core cycle count of the last scrub read; 04 R117; reset none. -/
  readAt : Option Nat
  /-- Lines corrected and not yet written back (sub-bank, line); 04 R117; reset none. -/
  pending : List (Fin 16 × Fin 1024)
  /-- Core cycle count of the last wrap of each sub-bank, or of the domain's power-on; 04 R118; reset 0. -/
  wrapAt : Vector Nat 16
  /-- Sub-banks that have wrapped in the current pass; 04 Table 04-10; reset none. -/
  wrapped : Vector Bool 16
  deriving DecidableEq, Repr

/-- One tile. -/
structure Tile where
  /-- V0-V31: 32 x 256 bytes; 04 R97 R125; reset 0. -/
  v : Vector Line 32
  /-- A0-A15: 16 x 32 bits; 04 R97 R125; reset 0. -/
  a : Vector Word 16
  /-- K0-K7: 8 x 32 bits; 04 R97 R125; reset 0. -/
  k : Vector Word 8
  /-- PD0-PD7: 8 x 1 bit; 04 R97 R98 R125; reset PD0 1, the others 0. -/
  pd : Vector Bool 8
  /-- W0, W1: two weight buffers; 04 R97, 06 R553; reset 0. -/
  w : Vector WBuf 2
  /-- MA0-MA7: 8 x 32 x 32 bits; 04 R97 R125; reset 0. -/
  ma : Vector Acc 8
  /-- Results in flight, in issue order; 04 R99 R101; reset none. -/
  flight : List Flight
  /-- Bundle address of the next bundle: 15 bits, and 32768 past the end; 04 R96, 05 R143; reset 0. -/
  addr : Nat
  /-- Taken transfers in flight; 04 R102, 05 R139; reset none. -/
  transfers : List Transfer
  /-- Active loops, innermost first; 05 R140 R158; reset none. -/
  loops : List ActiveLoop
  /-- The loop that repeats at the bundle of a PCC value: that value and the loop's start; 05 R139 R140; reset none. -/
  repeats : Option (Nat × Nat)
  /-- CH0-CH3: 4 x at most 16 lines, oldest first; 04 R108 R125; reset empty. -/
  ch : Vector (List Line) 4
  /-- Channels that have received a fabric line in this program: 4 x 1 bit; 04 R108 R109 (the jitter reserve of Table 04-4);
  reset 0. -/
  fabricCh : Vector Bool 4
  /-- Send queue: at most 8 lines, oldest first; 04 R108 R125; reset empty. -/
  sendq : List SendLine
  /-- PCC value of the cycle in which the send queue last passed a line to the mesh; 08 R208; reset none. -/
  sentAt : Option Nat
  /-- What the bundle that is issuing has named, claimed and done; 04 R113 R122, 05 R140; reset none. -/
  use : BundleUse
  /-- Open messages per port; 06 R170 R180; reset none. -/
  openMsg : Vector (Option OpenMsg) 8
  /-- The tile has executed END, or run off the end; 1 bit; 05 R142 R143; reset 0. -/
  ended : Bool
  /-- The tile was block-reset in this run; 1 bit; 04 R124; reset 0. -/
  blocked : Bool
  /-- The scrubber; 04 R117 R118. -/
  scrub : Scrub
  deriving DecidableEq, Repr

def WBuf.zero : WBuf := { cells := Vector.replicate 32 Acc.zero, scales := Vector.replicate 32 0, tag := none }

/-- A buffer at program start: scales 127, tag unset (05 R158, 06 R180). -/
def WBuf.start : WBuf := { WBuf.zero with scales := Vector.replicate 32 127 }

def BundleUse.none : BundleUse :=
  { pcc := 0, named := [], namedBy := [], reads := [], writes := [], slots := [], void := false, before := [], tested := false,
    begun := Option.none, ends := false, ramps := [], activity := 0, raised := [], corrected := 0, captures := Option.none, ext := [] }

def Scrub.reset : Scrub :=
  { ptr := Vector.replicate 16 0, last := 15, readAt := none, pending := [], wrapAt := Vector.replicate 16 0,
    wrapped := Vector.replicate 16 false }

/-- PD0 reads 1 and the others 0 (04 R125). -/
def Tile.predsReset : Vector Bool 8 := Vector.ofFn fun i => i.val == 0

/-- A tile as a reset of its quadrant domain leaves it (04 R126). -/
def Tile.reset : Tile :=
  { v := Vector.replicate 32 Line.zero, a := Vector.replicate 16 0, k := Vector.replicate 8 0,
    pd := Tile.predsReset, w := Vector.replicate 2 WBuf.zero, ma := Vector.replicate 8 Acc.zero,
    flight := [], addr := 0, transfers := [], loops := [], repeats := none, ch := Vector.replicate 4 [],
    fabricCh := Vector.replicate 4 false, sendq := [], sentAt := none, use := BundleUse.none, openMsg := Vector.replicate 8 none, ended := false,
    blocked := false, scrub := Scrub.reset }

/-- Where a line in the mesh goes: a channel of a virtual tile, or by the attach tile to an edge block (08 R207, R211). -/
inductive MeshDst where
  | tile (v : Nat) (ch : Chan)
  | port (p : PortId) (msg : Dword)
  | host (addr : Dword) (bcnt : Byte) (handle : Option (Word × Dword))
  | search (deadline : Word) (rch : Chan)
  deriving DecidableEq, Repr

/-- A line under way in the mesh. -/
structure MeshLine where
  dst : MeshDst
  /-- Virtual tile that sent it, or whose number an edge block's line ranks by (08 R209). -/
  src : Nat
  line : Line
  /-- PCC value from which a receive, or the edge block, can take it; with `edge` the core cycle count. -/
  arrive : Nat
  /-- A line whose crossing is counted in core cycles: one from an edge block, whose crossing a hold does not stop, or one
  under way out of run state: 1 bit (log entry 24). -/
  edge : Bool
  /-- The cycle, in the count of `arrive`, in which a line that an edge block hands to its attach tile enters the mesh; none
  once it has entered; 08 R209 R211. -/
  due : Option Nat
  /-- The line has come over the fabric, through a port's ingress: 1 bit (04 Table 04-4, jitter reserve). -/
  fabric : Bool
  /-- Core cycle count at which its operation issued (13 R363). -/
  issued : Nat
  deriving DecidableEq, Repr

/-- One direction of one mesh link, or a tile's input, by virtual column and row (08 R209). -/
inductive MeshLink where
  | east (row col : Nat) | west (row col : Nat) | south (row col : Nat) | north (row col : Nat)
  | input (row col : Nat)
  /-- The path of an edge block from its attach tile: ports 0-7, host 8, search 9. -/
  | exit (block : Nat)
  deriving DecidableEq, Repr

/-- The mesh: lines under way, and the link cycles that lines entered earlier have taken (08 R207-R209). -/
structure Mesh where
  /-- Lines under way, in the order in which they entered; 08 R207; reset none. -/
  lines : List MeshLine
  /-- Link cycles taken (link, PCC value); 08 R209; reset none. -/
  busy : List (MeshLink × Nat)
  /-- Link cycles taken by edge blocks' lines that cross in a hold (link, core cycle count); 08 R209; reset none. -/
  wall : List (MeshLink × Nat)
  deriving DecidableEq, Repr

/-- MAP: the column map, run state, discards, and trace (03 Table 03-12). -/
structure MapRegs where
  /-- MAP_GRADE.GRADE: 2 bits; 03 R69 Table 03-13; reset fused, 0 SK2-320 (DESIGN CHOICE, entry 3). -/
  grade : Fin 3
  /-- MAP_FUSED_DISABLE.DISABLED: 20 bits; 03 R69 Table 03-14; reset fused, 0 (DESIGN CHOICE, entry 3). -/
  disabled : BitVec 20
  /-- MAP_CTL.TARGET: 2 bits RWL; 03 R92 Table 03-15; reset the grade's native target. -/
  target : BitVec 2
  /-- MAP_VCOL0-4: 20 entries of 5 bits RWL; 03 R92 R93 Table 03-16; reset the usable columns in ascending order. -/
  vcol : Vector (BitVec 5) 20
  /-- MAP_STATUS.RUN: 1 bit; 03 R84 R92; reset 0. -/
  run : Bool
  /-- MAP_CFG_DISCARD.OFFSET: 16 bits; 03 R86 Table 03-18; reset 0. -/
  discOffset : BitVec 16
  /-- MAP_CFG_DISCARD.COUNT: 15 bits saturating; 03 R86 Table 03-18; reset 0. -/
  discCount : BitVec 15
  /-- MAP_CFG_DISCARD.VALID: 1 bit W1C; 03 R86 Table 03-18; reset 0. -/
  discValid : Bool
  /-- MAP_TRACE_CTL.ENABLE: 1 bit RWL; 03 R90 Table 03-19; reset 0. -/
  traceEnable : Bool
  /-- MAP_TRACE_CTL.TILE: 9 bits RWL; 03 Table 03-19; reset 0. -/
  traceTile : BitVec 9
  /-- MAP_TRACE_CTL.WRAP: 1 bit RWL; 03 Table 03-19; reset 0. -/
  traceWrap : Bool
  /-- Trace from this launch (ENABLE read at the launch): 1 bit; 03 Table 03-19; reset 0. -/
  tracing : Bool
  /-- MAP_TRACE_PTR.FULL: 1 bit; 03 R94 Table 03-20; reset 0. -/
  traceFull : Bool
  /-- MAP_TRACE_ADDR.INDEX: 12 bits; 03 R94 Table 03-20; reset 0. -/
  traceIndex : BitVec 12
  /-- The trace buffer, oldest record first, at most 4096 of 64 bits (COUNT is its length); 03 R90 Table 03-11; reset empty. -/
  trace : List Dword
  deriving DecidableEq, Repr

/-- The tile checks and scrubber registers at FC offsets 0x1800-0x1820 (04 Table 04-7). -/
structure TileChecks where
  /-- FC_STRAIN_CTL.ENABLE: 1 bit RWL; 04 R121 Table 04-8; reset 0. -/
  strain : Bool
  /-- FC_SCRUB_CTL.ENABLE: 1 bit; 04 Table 04-9; reset 1. -/
  scrubEnable : Bool
  /-- FC_SCRUB_CTL.GAP: 8 bits; 04 R117 Table 04-9; reset 16. -/
  gap : BitVec 8
  /-- FC_SCRUB_CTL.PERIOD: 16 bits; 04 R118 Table 04-9; reset 1024. -/
  period : BitVec 16
  /-- FC_SCRUB_STATUS.LOW_TILE: 9 bits; 04 R118 Table 04-10; reset 0. -/
  lowTile : BitVec 9
  /-- FC_SCRUB_STATUS.LOW_VALID: 1 bit W1C; 04 Table 04-10; reset 0. -/
  lowValid : Bool
  /-- FC_SCRUB_STATUS.LOW_SUBBANK: 4 bits; 04 Table 04-10; reset 0. -/
  lowSub : BitVec 4
  /-- FC_SCRUB_STATUS.PASSES: 16 bits saturating; 04 Table 04-10; reset 0. -/
  passes : BitVec 16
  /-- FC_ECC_CORR_COUNT.COUNT: 32 bits saturating; 04 R119 Table 04-11; reset 0. -/
  corrected : Word
  /-- FC_TILE_CAPT_SRC.SOURCE: 3 bits; 04 R123 Table 04-12; reset 0. -/
  captSource : BitVec 3
  /-- FC_TILE_CAPT_SRC.TILE: 9 bits; 04 R123 Table 04-12; reset 0. -/
  captTile : BitVec 9
  /-- FC_TILE_CAPT_SRC.VALID: 1 bit W1C; 04 R123 Table 04-12; reset 0. -/
  captValid : Bool
  /-- FC_TILE_CAPT_PCC.PCC: 32 bits; 04 R123 Table 04-12; reset 0. -/
  captPcc : Word
  /-- FC_TILE_CAPT_INFO: 32 bits; 04 R123 Table 04-14; reset 0. -/
  captInfo : Word
  /-- Core cycle count in which the capture was made (R123 compares events of one cycle); 04 R123; reset 0. -/
  captCycle : Nat
  /-- FC_ECC_CAPT_ADDR.OFFSET: 22 bits; 04 R119 Table 04-15; reset 0. -/
  eccOffset : BitVec 22
  /-- FC_ECC_CAPT_ADDR.TILE: 9 bits; 04 R119 Table 04-15; reset 0. -/
  eccTile : BitVec 9
  /-- FC_ECC_CAPT_ADDR.VALID: 1 bit W1C; 04 R119 Table 04-15; reset 0. -/
  eccValid : Bool
  /-- FC_ECC_CAPT_WORDS.WORDS: 32 bits; 04 R119 Table 04-15; reset 0. -/
  eccWords : Word
  deriving DecidableEq, Repr

/-- A hold request for a WAIT receive of one tile and channel that issues as bundle `bundle` (04 R105). -/
structure HoldReq where
  tile : Nat
  ch : Chan
  /-- PCC value of the receive. -/
  bundle : Nat
  /-- Core cycle count at which the bundle may issue, once the line is present (R105: a + 2). -/
  resume : Option Nat
  deriving DecidableEq, Repr

/-- A pending WAIT_GTC wait: it issued at PCC value `issued` with time count `t` (06 R177). -/
structure GtcWait where
  tile : Nat
  issued : Nat
  t : Word
  deriving DecidableEq, Repr

/-- The compute domains' shared state. -/
structure Compute where
  /-- The tiles, by PHYSICAL tile row x 20 + column (03 R66, R75). -/
  tiles : Vector Tile 320
  /-- PCC: 64 bits; 04 R103; reset 0. -/
  pcc : Nat
  /-- Core cycles since the core clock last started, in run state or not; 04 R117 R118 measure in them; reset 0. -/
  cycles : Nat
  /-- Bundle 0 has issued or its cycle has come in this run: 1 bit; 04 R103, 11 R297; reset 0. -/
  started : Bool
  /-- Hold requests of WAIT receives; 04 R105; reset none. -/
  holds : List HoldReq
  /-- WAIT_GTC waits; 06 R177 R180; reset none. -/
  waits : List GtcWait
  /-- The mesh; 08 R207-R209. -/
  mesh : Mesh
  deriving DecidableEq, Repr

def Mesh.empty : Mesh := { lines := [], busy := [], wall := [] }

def Compute.reset : Compute :=
  { tiles := Vector.replicate 320 Tile.reset, pcc := 0, cycles := 0, started := false, holds := [], waits := [],
    mesh := Mesh.empty }

/-- The default map of SK2-320 (03 R92). -/
def MapRegs.reset : MapRegs :=
  { grade := 0, disabled := 0, target := 0, vcol := Vector.ofFn fun i => BitVec.ofNat 5 i.val, run := false,
    discOffset := 0, discCount := 0, discValid := false, traceEnable := false, traceTile := 0,
    traceWrap := false, tracing := false, traceFull := false, traceIndex := 0, trace := [] }

def TileChecks.reset : TileChecks :=
  { strain := false, scrubEnable := true, gap := 16, period := 1024, lowTile := 0, lowValid := false, lowSub := 0,
    passes := 0, corrected := 0, captSource := 0, captTile := 0, captValid := false, captPcc := 0, captInfo := 0,
    captCycle := 0, eccOffset := 0, eccTile := 0, eccValid := false, eccWords := 0 }

end Sys2Proof.Machine
end

