-- ==== Sys2Proof/Machine/StateFabric.lean ====
section
/-! DEFINITION. The state of a fault collector (15), of the time block (11), of the eight ports (09, 10), and of the
chip-wide fabric: route tables, chip map, host engine and responder (10). Each field's comment gives its name; its
width; the rule that names it; its value at reset. -/

namespace Sys2Proof.Machine

/-! Fault collector (15), the same block for the chip and the tray (R411). -/

/-- The owner of a raise (15 Table 15-1, Table 15-6). -/
inductive Owner where
  | tile (v : Nat)
  | port (p : PortId)
  | hif | srch | csc | crc | chip
  | slot (n : SlotId)
  | module (m : ModuleId)
  | bbu | tmc | board | bus (b : BusId)
  /-- An injected raise has no owner of its own (15 R414). -/
  | injected
  deriving DecidableEq, Repr

/-- A raise the collector has not latched yet (15 R395, R399). -/
structure Raise where
  src : SourceId
  owner : Owner
  deriving DecidableEq, Repr

/-- One source of a collector. -/
structure Source where
  /-- FC_SRCn_CFG.PRIMARY: 5 bits; 15 Table 15-8; reset Table 15-1. -/
  primary : BitVec 5
  /-- FC_SRCn_CFG.ESCALATED: 5 bits; 15 Table 15-8; reset 0x10 (tray 0x02). -/
  escalated : BitVec 5
  /-- FC_SRCn_CFG.ESC_TIMER: 5 bits; 15 R402 Table 15-8; reset 0. -/
  escTimer : BitVec 5
  /-- FC_SRCn_CFG.EXIT: 1 bit, RESET_ONLY when set; 15 Table 15-8; reset Table 15-1. -/
  resetOnly : Bool
  /-- FC_SRCn_CFG.QUIET: 3 bits; 15 R405 Table 15-8; reset Table 15-1. -/
  quiet : BitVec 3
  /-- FC_SRCn_CFG.ENABLE: 1 bit; 15 R396 Table 15-8; reset 1 for a defined source. -/
  enable : Bool
  /-- FC_STATUS bit; 15 R396 R415; reset 0. -/
  status : Bool
  /-- FC_ACKED bit; 15 R404 R415; reset 0. -/
  acked : Bool
  /-- FC_ESC bit; 15 R403 R415; reset 0. -/
  esc : Bool
  /-- A level line is asserted: 1 bit; 15 R395; reset 0. -/
  line : Bool
  /-- Wall-clock time of the line's last activity; 15 R405; reset 0. -/
  lastAct : Nat
  /-- Wall-clock time at which the escalation timer started, while it runs; 15 R403; reset none. -/
  timer : Option Nat
  /-- Reactions applied to the current latch: 5 bits; 15 R396 R410; reset 0. -/
  applied : BitVec 5
  /-- Owners that have raised since the latch, each with whether it has been reset since; 15 R406; reset none. -/
  owners : List (Owner × Bool)
  deriving DecidableEq, Repr

/-- A fault collector. -/
structure Collector where
  /-- The 64 sources; 15 R395 R411. -/
  src : Vector Source 64
  /-- Raises not yet latched, oldest first; 15 R399; reset none. -/
  raised : List Raise
  /-- FC_FIRST.SOURCE: 6 bits; 15 R397 Table 15-9; reset 0. -/
  firstSource : BitVec 6
  /-- FC_FIRST.VALID: 1 bit W1C; 15 R397 Table 15-9; reset 0. -/
  firstValid : Bool
  /-- FC_FIRST_GTC (TF_FIRST_TIME): 64 bits; 15 R397 R411 Table 15-9; reset 0. -/
  firstTime : Dword
  /-- FC_RECOV: 64 counters of 16 bits, saturating; 15 R405 Table 15-9; reset 0. -/
  recov : Vector (BitVec 16) 64
  deriving DecidableEq, Repr

def Source.mk0 (primary : Nat) (resetOnly : Bool) (quiet : Nat) (escalated : Nat) : Source :=
  { primary := BitVec.ofNat 5 primary, escalated := BitVec.ofNat 5 escalated, escTimer := 0, resetOnly := resetOnly,
    quiet := BitVec.ofNat 3 quiet, enable := true, status := false, acked := false, esc := false, line := false,
    lastAct := 0, timer := none, applied := 0, owners := [] }

/-- A reserved source: every bit reads 0 (15 R416). -/
def Source.none : Source := { Source.mk0 0 false 0 0 with enable := false }

/-- Chip defaults (15 Table 15-1): PRIMARY bits IRQ 1, NMI 2, BLOCK_RESET 4, CHIP_RESET 8, ERR_PIN 16. -/
def Source.chipDefault (n : Nat) : Source :=
  let s := fun p ro q => Source.mk0 p ro q 0x10
  if n ≤ 4 then s 1 false 3
  else if n == 5 then s 0 false 3
  else if n == 6 then s 5 true 3
  else if n == 7 then s 1 false 3
  else if n == 8 then s 0 false 3
  else if n == 9 then s 1 false 6
  else if n ≤ 17 then s 1 false 6
  else if n ≤ 25 then s 1 false 4
  else if n == 26 then s 1 false 6
  else if n ≤ 29 then s 1 false 3
  else if n == 30 then s 1 false 6
  else if n == 31 then s 3 false 4
  else if n ≤ 38 then s 1 false 3
  else if n == 39 then s 0 false 3
  else if n == 40 || n == 42 || n == 44 then s 1 false 4
  else if n == 41 then s 17 true 4
  else if n == 43 then s 17 false 4
  else if n == 45 then s 1 false 5
  else if n == 46 then s 17 true 5
  else if n == 47 then s 1 false 6
  else if n == 48 then s 25 true 3
  else if n == 49 then s 21 true 3
  else if n == 50 then s 17 true 3
  else if n ≤ 52 then s 1 false 3
  else Source.none

/-- Tray defaults (15 Table 15-6): IRQ 1, COOL 2, OWNER 4, ALL_OFF 8. -/
def Source.trayDefault (n : Nat) : Source :=
  let s := fun p ro q => Source.mk0 p ro q 0x02
  if n ≤ 15 then s 1 false 4
  else if n ≤ 31 then s 1 true 4
  else if n ≤ 39 then s 3 false 6
  else if n ≤ 43 then s 1 false 7
  else if n == 44 then s 1 false 6
  else if n == 45 then s 1 false 4
  else if n ≤ 47 then s 3 false 6
  else if n == 48 then s 2 true 3
  else if n ≤ 54 then s 5 false 3
  else if n == 55 then s 1 false 6
  else Source.none

def Collector.reset (d : Nat → Source) : Collector :=
  { src := Vector.ofFn fun i => d i.val, raised := [], firstSource := 0, firstValid := false, firstTime := 0,
    recov := Vector.replicate 64 0 }

/-! Time block (11). -/

/-- An entry of a parent list (11 Table 11-7). -/
structure ParentEntry where
  port : PortId
  valid : Bool
  deriving DecidableEq, Repr

/-- A root candidate (11 Table 11-7). -/
structure RootEntry where
  chip : ChipNo
  valid : Bool
  deriving DecidableEq, Repr

/-- A pour that was seen (11 R292). -/
structure PourId where
  origin : ChipNo
  seq : BitVec 8
  deriving DecidableEq, Repr

structure TimeRegs where
  /-- TIME_CTL.STRICT: 1 bit RWL; 11 R308 Table 11-6; reset 0. -/
  strict : Bool
  /-- TIME_CTL.ARM: 1 bit RWL; 11 R294 Table 11-6; reset 0. -/
  arm : Bool
  /-- TIME_STATUS.LOCKED: 1 bit; 11 R286 Table 11-6; reset 1. -/
  locked : Bool
  /-- TIME_STATUS.ROLE: 2 bits; 11 Table 11-6; reset 0. -/
  role : BitVec 2
  /-- TIME_STATUS.PARENT: 3 bits; 11 R280 Table 11-6; reset 0. -/
  parent : PortId
  /-- TIME_STATUS.ROOTIDX: 2 bits; 11 R288 Table 11-6; reset 0. -/
  rootIdx : Fin 4
  /-- GTC: 64 bits; 11 R283 R287 R313; reset 0. -/
  gtc : Dword
  /-- TIME_GTC_HI, latched GTC bits [63:32]: 32 bits; 11 Table 11-5; reset 0. -/
  gtcHi : Word
  /-- The core view of the GTC: 64 bits; 11 R283; reset 0. -/
  coreView : Dword
  /-- TIME_ROOT_ORDER0-1: four candidates of 13 bits and VALID, RWL; 11 R278 Table 11-7; reset 0. -/
  rootOrder : Vector RootEntry 4
  /-- TIME_PARENTS0-1: four lists of four (PORT, VALID), RWL; 11 R278 Table 11-7; reset 0. -/
  parents : Vector (Vector ParentEntry 4) 4
  /-- TIME_HOLD_LIMIT.LIMIT: 24 bits RWL; 11 R307 Table 11-8; reset 10000. -/
  holdLimit : BitVec 24
  /-- TIME_IMAGE_ID.ID: 32 bits RWL; 11 Table 11-8; reset 0. -/
  imageId : Word
  /-- TIME_SR_SEED.SEED: 32 bits RWL; 07 R195, 11 Table 11-8; reset 0. -/
  seed : Word
  /-- TIME_LAUNCH_LO/HI, L of the latest launch: 64 bits; 11 R297 Table 11-5; reset 0. -/
  launchL : Dword
  /-- TIME_LAUNCH_SEQ.SEQ: 8 bits; 11 R295 Table 11-8; reset 0. -/
  launchSeq : BitVec 8
  /-- The current launch (ORIGIN, SEQ), while in run state; 11 R296 R299; reset none. -/
  launch : Option PourId
  /-- TIME_LAG, the lag: 64 bits; 11 R302; reset 0. -/
  lag : Dword
  /-- The lag carried by the LAG frames queued last: 64 bits; 11 R303; reset 0. -/
  lagSent : Dword
  /-- GTC ticks still to be left out, so that a correction never runs the GTC backward; 11 R285 R287; reset 0. -/
  skip : Nat
  /-- TIME_LAG_HI, latched lag bits [63:32]: 32 bits; 11 Table 11-5; reset 0. -/
  lagHi : Word
  /-- TIME_ABORT.CAUSE: 4 bits; 11 Table 11-9; reset 0. -/
  abortCause : BitVec 4
  /-- TIME_ABORT.ABORTER: 13 bits; 11 Table 11-9; reset 0. -/
  aborter : ChipNo
  /-- TIME_ABORT.VALID: 1 bit W1C; 11 Table 11-9; reset 0. -/
  abortValid : Bool
  /-- TIME_SYNC_OFFSET.OFFSET: 16 bits signed, saturating; 11 R284 Table 11-8; reset 0. -/
  syncOffset : BitVec 16
  /-- TIME_ADMIT: PERIOD 16 and OFFSET 16 bits, RWL; 11 Table 11-8; reset 0. -/
  admission : Word
  /-- HEARTBEAT: 32 bits; 11 R288; reset 0. -/
  heartbeat : Word
  /-- Wall-clock time of the last advance of HEARTBEAT; 11 R288; reset 0. -/
  heartbeatAt : Nat
  /-- Wall-clock time of the last SYNC frame from the parent; 11 R280; reset 0. -/
  syncAt : Nat
  /-- GTC at which the last SYNC frames were sent; 11 R284; reset 0. -/
  syncSentAt : Dword
  /-- LAUNCH pours seen; 11 R292; reset none. -/
  seenLaunch : List PourId
  /-- ABORT pours seen; 11 R292; reset none. -/
  seenAbort : List PourId
  /-- GTC at which the present unbroken hold began; 11 R307; reset none. -/
  holdSince : Option Dword
  deriving DecidableEq, Repr

def TimeRegs.reset : TimeRegs :=
  { strict := false, arm := false, locked := true, role := 0, parent := 0, rootIdx := 0, gtc := 0, gtcHi := 0,
    coreView := 0, rootOrder := Vector.replicate 4 ⟨0, false⟩,
    parents := Vector.replicate 4 (Vector.replicate 4 ⟨0, false⟩), holdLimit := 10000, imageId := 0, seed := 0,
    launchL := 0, launchSeq := 0, launch := none, lag := 0, lagSent := 0, skip := 0, lagHi := 0, abortCause := 0, aborter := 0,
    abortValid := false, syncOffset := 0, admission := 0, heartbeat := 0, heartbeatAt := 0, syncAt := 0,
    syncSentAt := 0, seenLaunch := [], seenAbort := [], holdSince := none }

/-! Ports (09, 10). -/

/-- Port states (09 Table 09-7), in the order of FAB_Pn_STATUS.STATE. -/
inductive PortState where
  | disabled | detect | train | up | retrain | down
  deriving DecidableEq, Repr

/-- Training phases (09 Table 09-8). -/
inductive Phase where
  | lock | equalise | align | measure | confirm
  deriving DecidableEq, Repr

/-- A frame without its link bytes: TYPE, payload and message field (09 Table 09-3, Table 09-4). -/
structure Frame where
  typ : BitVec 3
  payload : Line
  msg : Dword
  deriving DecidableEq, Repr

/-- A scheduled line in a port's egress. -/
structure SchedLine where
  frame : Frame
  /-- From the transit switch: 1 bit (10 R268). -/
  transit : Bool
  /-- Sending virtual tile, for the order of 10 R268. -/
  tile : Nat
  /-- Core cycle count in which it reaches the egress queue, and once it is there from which the port's slot interval lets it
  go (08 R212, R215; 10 R269). -/
  due : Nat
  /-- Held back until the waiting LAG frame has been sent (11 R303): 1 bit. -/
  behindLag : Bool
  deriving DecidableEq, Repr

/-- A frame that a port has accepted: the wall-clock time at which its receive pad is over and it reaches the link-side ingress
(08 R213, 01 R29), and, once it is there, the issuing cycles its arrival gate still keeps it (11 R304). -/
structure InFrame where
  frame : Frame
  ready : Nat
  gate : Option Nat
  deriving DecidableEq, Repr

/-- A broken message that the port completes with lines of zeros (06 R171): its sending virtual tile, how many lines of that
tile for the port are still on their way, the lines of zeros still to come, and the message field but for PART. -/
structure Fill where
  tile : Nat
  ahead : Nat
  due : Nat
  header : Dword
  deriving DecidableEq, Repr

structure Port where
  /-- FAB_Pn_CTL.ENABLE: 1 bit RWL; 09 Table 09-10; reset 1. -/
  enable : Bool
  /-- FAB_Pn_CTL.RETRAIN: 1 bit SC, until the training it started has ended; 09 Table 09-10; reset 0. -/
  retrainReq : Bool
  /-- FAB_Pn_CTL.CLASS: 2 bits RWL; 09 R246 Table 09-10; reset 0 for P0-P3, 1 for P4-P7. -/
  cls : BitVec 2
  /-- FAB_Pn_STATUS.STATE: 3 bits; 09 R237 Table 09-11; reset DISABLED. -/
  st : PortState
  /-- Training phase while in TRAIN; 09 R238 Table 09-8; reset Lock. -/
  phase : Phase
  /-- Wall-clock time at which the state (in TRAIN: the phase) was entered; 09 Tables 09-7 and 09-8; reset 0. -/
  since : Nat
  /-- PORTn_DOWN was raised for a DOWN entered from DETECT since ENABLE was set or the domain came on: 1 bit; 09 R238; reset 0. -/
  detectRaised : Bool
  /-- FAB_Pn_STATUS.LANES, the working width: 4 bits; 09 R243 Table 09-11; reset 0. -/
  width : BitVec 4
  /-- FAB_Pn_STATUS.REASON: 4 bits; 09 R238 Table 09-11; reset 0. -/
  reason : BitVec 4
  /-- FAB_Pn_LANES.USED: 8 bits; 09 R243 Table 09-12; reset 0. -/
  used : BitVec 8
  /-- FAB_Pn_LANES.FAILED: 8 bits; 09 R242 Table 09-12; reset 0. -/
  failed : BitVec 8
  /-- FAB_Pn_LANES.PEER_FAILED: 8 bits; 09 R243 Table 09-12; reset 0. -/
  peerFailed : BitVec 8
  /-- FAILED and PEER_FAILED at the end of the previous training or retrain: 2 x 8 bits; 09 R244; reset 0. -/
  prevFailed : BitVec 8 × BitVec 8
  /-- FAB_Pn_DELAY.D: 8 bits; 09 R241 Table 09-13; reset 0. -/
  d : BitVec 8
  /-- FAB_Pn_DELAY.PAD: 8 bits; 09 R241 Table 09-13; reset 0. -/
  pad : BitVec 8
  /-- FAB_Pn_PEER.CHIP: 13 bits; 09 R240 Table 09-13; reset 0. -/
  peerChip : ChipNo
  /-- FAB_Pn_PEER.PORT: 3 bits; 09 R240 Table 09-13; reset 0. -/
  peerPort : PortId
  /-- FAB_Pn_PEER.VALID: 1 bit; 09 R240 Table 09-13; reset 0. -/
  peerValid : Bool
  /-- The operating point that the partner reports in its LINK frames: 2 bits; 16 R429; reset none reported. -/
  peerPoint : Option (BitVec 2)
  /-- A LINK frame with the own chip number and operating point is to be sent: 1 bit; 10 R277, 16 R429; reset 0. -/
  linkDue : Bool
  /-- FAB_Pn_RETRY_CTL.LIMIT: 16 bits; 09 R236 Table 09-14; reset 16. -/
  retryLimit : BitVec 16
  /-- FAB_Pn_RETRY_CTL.INTERVAL: 8 bits; 09 R236 Table 09-14; reset 100. -/
  retryInterval : BitVec 8
  /-- FAB_Pn_RETRY_CTL.NAK_MAX: 8 bits; 09 R233 Table 09-14; reset 16. -/
  nakMax : BitVec 8
  /-- FAB_Pn_RETRY_COUNT: 32 bits saturating; 09 Table 09-15; reset 0. -/
  retryCount : Word
  /-- FAB_Pn_LANE_CTL.FAIL_THRESH: 16 bits; 09 R242 Table 09-14; reset 4096. -/
  failThresh : BitVec 16
  /-- FAB_Pn_LANEk_CORR: 8 x 32 bits saturating; 09 Table 09-15; reset 0. -/
  laneCorr : Vector Word 8
  /-- FAB_Pn_REJECT_COUNT: 32 bits saturating; 09 Table 09-15; reset 0. -/
  rejectCount : Word
  /-- Sequence number of the next frame to send: 10 bits; 09 R225 R249; reset 0. -/
  txSeq : BitVec 10
  /-- Sequence number of the next frame to accept: 10 bits; 09 R225 R249; reset 0. -/
  rxSeq : BitVec 10
  /-- Replay buffer: at most 128 frames sent and not acknowledged, oldest first; 09 R229; reset empty. -/
  replay : List Frame
  /-- Frames of the replay buffer still to be resent in the present replay event; 09 R231; reset 0. -/
  resend : Nat
  /-- The next resent frame carries RPL: 1 bit; 09 R231; reset 0. -/
  rplDue : Bool
  /-- A NAK is to be sent in the next frame: 1 bit; 09 R230; reset 0. -/
  nakDue : Bool
  /-- A NAK is outstanding and frames are discarded until RPL: 1 bit; 09 R230; reset 0. -/
  nakOut : Bool
  /-- Consecutive replay events that one frame has caused; 09 R233; reset 0. -/
  nakRun : Nat
  /-- The port is to enter RETRAIN at the end of the operating-point transition: 1 bit; 16 R431; reset 0. -/
  retrainDue : Bool
  /-- Wall-clock time at which the frame that the outstanding NAK is for was rejected; 09 R232 R235; reset none. -/
  rejectAt : Option Nat
  /-- How late the frames of the present replay are, and how many of them are still to come: 2 counts; 09 R232 R235; reset 0. -/
  late : Nat × Nat
  /-- Wall-clock time at which ACKSEQ last advanced, or a frame was first left unacknowledged; 09 R231; reset 0. -/
  ackAt : Nat
  /-- Replay events counted in the present interval; 09 R236; reset 0. -/
  intervalEvents : Nat
  /-- Source 26 was raised in the present interval: 1 bit; 09 R236; reset 0. -/
  rateRaised : Bool
  /-- Wall-clock start of the present interval of R236; 09 R236; reset 0. -/
  intervalAt : Nat
  /-- Corrected bytes per physical lane in the present 1 ms interval; 09 R242; reset 0. -/
  laneMs : Vector Nat 8
  /-- Wall-clock start of the present 1 ms interval; 09 R242; reset 0. -/
  laneMsAt : Nat
  /-- Lines in the core-side path from the attach tile, or from another port's ingress, to the egress queue; 08 R212, 10
  R269 R272; reset none. -/
  pipe : List SchedLine
  /-- Scheduled egress: at most 8 lines; 10 Table 10-6; reset empty. -/
  sched : List SchedLine
  /-- Broken messages that the port is completing with lines of zeros, oldest first; 06 R171; reset none. -/
  fills : List Fill
  /-- Host-injected egress: at most 16 frames; 10 Table 10-6; reset empty. -/
  host : List Frame
  /-- Time egress: one entry per TTYPE (SYNC, LAUNCH, ABORT, LAG); 11 R291; reset empty. -/
  time : Vector (Option Frame) 4
  /-- Management egress: at most 4 frames; 10 Table 10-6; reset empty. -/
  mgmt : List Frame
  /-- Link-side ingress: at most 192 frames; 10 R271 Table 10-6; reset empty. -/
  ingress : List InFrame
  /-- FAB_Pn_EGRESS.XOFF_IN, the partner's XOFF: 1 bit; 10 R272 Table 10-10; reset 0. -/
  xoffIn : Bool
  /-- This receiver's XOFF: 1 bit; 10 R271; reset 0. -/
  xoffOut : Bool
  /-- FAB_Pn_EGRESS.HOLD_REQ: 1 bit; 10 R272 Table 10-10; reset 0. -/
  holdReq : Bool
  /-- FAB_Pn_DROP_COUNT: 32 bits saturating; 10 R257 Table 10-8; reset 0. -/
  dropCount : Word
  /-- FAB_Pn_SCHED_COUNT: 32 bits saturating; 10 Table 10-8; reset 0. -/
  schedCount : Word
  /-- FAB_Pn_HOST_COUNT: 32 bits saturating; 10 Table 10-8; reset 0. -/
  hostCount : Word
  /-- FAB_Pn_XOFF_COUNT: 32 bits saturating; 10 Table 10-8; reset 0. -/
  xoffCount : Word
  /-- Scheduled messages whose FIRST line was sent and whose LAST line was not; 10 R273; reset 0. -/
  begun : Nat
  /-- Partner lag: 64 bits; 11 R304 R313; reset 0. -/
  partnerLag : Dword
  /-- Core cycle count from which the next scheduled line may go; 08 R215; reset 0. -/
  nextSlot : Nat
  /-- Wall-clock time of the last SYNC frame since the port came UP from TRAIN; none: none yet; 11 R279 R280; reset none. -/
  syncAt : Option Nat
  deriving DecidableEq, Repr

def Port.reset (n : Nat) : Port :=
  { enable := true, retrainReq := false, cls := if n < 4 then 0 else 1, st := .disabled, phase := .lock, since := 0, detectRaised := false,
    width := 0, reason := 0, used := 0, failed := 0, peerFailed := 0, prevFailed := (0, 0), d := 0, pad := 0,
    peerChip := 0, peerPort := 0, peerValid := false, peerPoint := none, linkDue := false, retryLimit := 16, retryInterval := 100, nakMax := 16,
    retryCount := 0, failThresh := 4096, laneCorr := Vector.replicate 8 0, rejectCount := 0, txSeq := 0, rxSeq := 0,
    replay := [], resend := 0, rplDue := false, nakDue := false, nakOut := false, nakRun := 0, retrainDue := false, rejectAt := none, late := (0, 0),
    ackAt := 0,
    intervalEvents := 0, rateRaised := false, intervalAt := 0, laneMs := Vector.replicate 8 0, laneMsAt := 0, pipe := [], sched := [], fills := [], host := [],
    time := Vector.replicate 4 none, mgmt := [], ingress := [], xoffIn := false, xoffOut := false, holdReq := false,
    dropCount := 0, schedCount := 0, hostCount := 0, xoffCount := 0, begun := 0, partnerLag := 0, nextSlot := 0, syncAt := none }

/-! Chip-wide fabric (10). -/

/-- One segment of a global transfer (10 R260). -/
structure Segment where
  qp : QpId
  /-- Number of the entry it belongs to. -/
  entry : Nat
  write : Bool
  dest : ChipNo
  /-- Line offset in the target's chip offset space, bits [30:8]. -/
  line : Nat
  first : Nat
  last : Nat
  data : Line
  /-- Place of its first byte in the transfer. -/
  pos : Nat
  deriving DecidableEq, Repr

/-- An outstanding transaction (10 R261). -/
structure Txn where
  tag : Nat
  seg : Segment
  /-- The request frame has won arbitration, at this wall-clock time (10 R265, R274). -/
  wonAt : Option Nat
  /-- The own responder's answer, not yet taken by the engine: completion status and line (10 R264). -/
  answer : Option (Nat × Line)
  deriving DecidableEq, Repr

/-- A transaction in the responder's input (10 R262). -/
structure RespTxn where
  src : ChipNo
  tag : Nat
  write : Bool
  line : Nat
  first : Nat
  last : Nat
  /-- The data of a write, once it has arrived. -/
  data : Option Line
  /-- Of the own host engine, without a port (10 R264): 1 bit. -/
  own : Bool
  /-- Wall-clock time at which the request arrived. -/
  at_ : Nat
  deriving DecidableEq, Repr

structure Fabric where
  /-- The eight ports; 09 R250. -/
  ports : Vector Port 8
  /-- FAB_SELF.SLOT: 4 bits; 10 Table 10-11; reset strap, 0 (DESIGN CHOICE, entry 2). -/
  slot : SlotId
  /-- FAB_SELF.TRAY: 9 bits RWL; 10 R277 Table 10-11; reset 0. -/
  trayIdx : BitVec 9
  /-- FAB_RT_XY.XE: 4 x 2 bits RWL; 10 R263 Table 10-12; reset 3. -/
  rtX : Vector (BitVec 2) 4
  /-- FAB_RT_XY.YE: 4 x 2 bits RWL; 10 R263 Table 10-12; reset 3. -/
  rtY : Vector (BitVec 2) 4
  /-- FAB_RT_Z0, FAB_RT_Z1: 32 x 2 bits RWL; 10 R263 Table 10-12; reset 3. -/
  rtZ : Vector (BitVec 2) 32
  /-- FAB_RT_W: 16 x 2 bits RWL; 10 R263 Table 10-12; reset 3. -/
  rtW : Vector (BitVec 2) 16
  /-- CHIPMAP: the entries (index below 8192, 16 bits of which [14:13] are 0) that are not zero, indices rising; RWL; 10 R258 R275; reset none. -/
  chipMap : List (Nat × BitVec 16)
  /-- FAB_HOST_CTL.TIMEOUT: 16 bits; 10 R265 Table 10-13; reset 1000. -/
  hostTimeout : BitVec 16
  /-- FAB_HOST_DROP: 32 bits saturating; 10 R263 R265 R267 Table 10-13; reset 0. -/
  hostDrop : Word
  /-- FAB_ROUTE_CAPT.CAUSE: 4 bits; 10 Table 10-14; reset 0. -/
  captCause : BitVec 4
  /-- FAB_ROUTE_CAPT.PORT: 3 bits; 10 Table 10-14; reset 0. -/
  captPort : BitVec 3
  /-- FAB_ROUTE_CAPT.TILE: 9 bits; 10 Table 10-14; reset 0. -/
  captTile : BitVec 9
  /-- FAB_ROUTE_CAPT.VALID: 1 bit W1C; 10 Table 10-14; reset 0. -/
  captValid : Bool
  /-- FAB_ROUTE_COUNT: 32 bits saturating; 10 Table 10-14; reset 0. -/
  routeCount : Word
  /-- Host engine: segments waiting for a tag, oldest first; 10 R261; reset none. -/
  waiting : List Segment
  /-- Host engine: outstanding transactions, at most 256 (FAB_HOST_STATUS.OUTSTANDING is their number); 10 R261; reset none. -/
  txns : List Txn
  /-- Responder input: at most 32 transactions, oldest first; 10 R262 Table 10-6; reset none. -/
  responder : List RespTxn
  deriving DecidableEq, Repr

/-- FAB after AON reset, on the chip of slot 0 (10 R275). -/
def Fabric.reset : Fabric :=
  { ports := Vector.ofFn fun i => Port.reset i.val, slot := 0, trayIdx := 0, rtX := Vector.replicate 4 3,
    rtY := Vector.replicate 4 3, rtZ := Vector.replicate 32 3, rtW := Vector.replicate 16 3, chipMap := [],
    hostTimeout := 1000, hostDrop := 0, captCause := 0, captPort := 0, captTile := 0, captValid := false,
    routeCount := 0, waiting := [], txns := [], responder := [] }

end Sys2Proof.Machine
end

