-- ==== Sys2Proof/Machine/StateHost.lean ====
section
/-! DEFINITION. The state of the search unit (12), the host interface (13), the CRC engine and management block (14,
20), and chip power (16). Each field's comment gives its name; its width; the rule that names it; its value at
reset. -/

namespace Sys2Proof.Machine

/-! Search unit (12). -/

/-- Where a request came from and its result goes (12 R315). -/
inductive SearchOrigin where
  | tile (v : Nat) (rch : Chan)
  | host (qp : QpId) (entry : Nat)
  deriving DecidableEq, Repr

/-- A request that was not refused, with its reservation (12 R314, R315). -/
structure SearchReq where
  line : Line
  /-- Entry E: PCC value of a tile's request, work counter of a host's. -/
  entered : Nat
  /-- Reservation start r and end e; the budget is e − r work cycles. -/
  r : Nat
  e : Nat
  /-- Work counter at its entry. -/
  at_ : Nat
  origin : SearchOrigin
  deriving DecidableEq, Repr

/-- What serving a request produced (12 R316, Table 12-11). -/
structure SearchAnswer where
  lines : List Line
  work : Nat
  status : Nat
  /-- Search memory written when its work ends: offset and bytes. -/
  writes : List (Nat × List Byte)
  /-- Corrected words met, and the line of the uncorrectable word that ended it (12 R321). -/
  corrected : Nat
  bad : Option Nat
  /-- An ordered search, which takes a generation; and it cleared the hash (12 R333). -/
  ordered : Bool
  cleared : Bool
  deriving DecidableEq, Repr

/-- The request in service: the work counter when it began, and its answer, which its work fixes (12 R316). -/
structure SearchRun where
  req : SearchReq
  began : Nat
  answer : SearchAnswer
  deriving DecidableEq, Repr

/-- An answer whose work has ended and whose lines have not been delivered: `due` is E + D, a PCC value, for a tile with
STRICT set; otherwise the work counter at the end of its work (12 R318). -/
structure SearchOut where
  origin : SearchOrigin
  due : Nat
  answer : SearchAnswer
  /-- Result lines that have entered the host write path (13 R358). -/
  sent : Nat
  deriving DecidableEq, Repr

def SearchOut.forHost (o : SearchOut) : Bool :=
  match o.origin with
  | .host _ _ => true
  | .tile _ _ => false

structure SearchUnit where
  /-- Request queue, oldest first; 12 R314; reset empty. -/
  queue : List SearchReq
  /-- Request in service; 12 R316; reset none. -/
  active : Option SearchRun
  /-- Answers not yet delivered, oldest first; 12 R318; reset none. -/
  outs : List SearchOut
  /-- Reservation ends of requests not refused, oldest first; 12 R315 R317; reset none. -/
  reserved : List Nat
  /-- Reservation end of the latest request not refused: e_j of R315; 12 R315; reset 0. -/
  lastEnd : Nat
  /-- Work counter at which the latest service ended; 12 R316; reset 0. -/
  freeAt : Nat
  /-- Work counter: 64 bits; 12 R314; reset 0. -/
  work : Dword
  /-- SRCH_WORK_HI, latched bits [63:32]: 32 bits; 12 Table 12-14; reset 0. -/
  workHi : Word
  /-- SRCH_STATUS.CLEAR_DUE: 1 bit; 12 R333 Table 12-15; reset 1. -/
  clearDue : Bool
  /-- Search generation: 13 bits; 12 R333; reset 0. -/
  generation : BitVec 13
  /-- Ordered searches since the last clear; 12 R333; reset 0. -/
  sinceClear : Nat
  /-- SRCH_SERVED: 32 bits saturating; 12 Table 12-15; reset 0. -/
  served : Word
  /-- SRCH_PARTIAL_COUNT: 32 bits saturating; 12 Table 12-15; reset 0. -/
  partialCount : Word
  /-- SRCH_REFUSED_COUNT: 32 bits saturating; 12 Table 12-15; reset 0. -/
  refused : Word
  /-- SRCH_ECC_COUNT: 32 bits saturating; 12 R321 Table 12-15; reset 0. -/
  eccCount : Word
  /-- SRCH_ECC_CAPT.OFFSET: 23 bits; 12 R321 Table 12-15; reset 0. -/
  eccOffset : BitVec 23
  /-- SRCH_ECC_CAPT.VALID: 1 bit W1C; 12 R321 Table 12-15; reset 0. -/
  eccValid : Bool
  /-- SRCH_SCRUB_CTL.ENABLE: 1 bit; 12 R321 Table 12-15; reset 1. -/
  scrubEnable : Bool
  /-- SRCH_SCRUB_CTL.GAP: 8 bits; 12 R321 Table 12-15; reset 16. -/
  gap : BitVec 8
  /-- Line that the idle scrub reads next: 15 bits; 12 R321; reset 0 (DESIGN CHOICE, entry 6). -/
  scrubPtr : Fin 32768
  /-- Core cycle count of the last scrub read; 12 R321; reset none. -/
  scrubAt : Option Nat
  deriving DecidableEq, Repr

def SearchUnit.reset : SearchUnit :=
  { queue := [], active := none, outs := [], reserved := [], lastEnd := 0, freeAt := 0, work := 0, workHi := 0, clearDue := true, generation := 0,
    sinceClear := 0, served := 0, partialCount := 0, refused := 0, eccCount := 0, eccOffset := 0, eccValid := false,
    scrubEnable := true, gap := 16, scrubPtr := 0, scrubAt := none }

/-! Host interface (13): the host write path is named here for the tiles; the rest follows. -/

/-- A line on the host write path (06 R172, 13). -/
structure HostWrite where
  addr : Dword
  bytes : List Byte
  /-- The request handle whose completion it asks for, and the GTC core view at issue (06 R173, 13 R361). -/
  handle : Option (Word × Dword)
  /-- Core cycle count in which its last byte goes to the link layer (08 R216). -/
  due : Nat
  /-- Core cycle count at which the HWRITE issued, and its virtual tile: HWRITEs leave in issue order (13 R363). -/
  issued : Nat
  src : Nat
  /-- The SEARCH entry that completes behind this line: queue pair, entry, RESULT0 and RESULT1 (13 R358, R364). -/
  ends : Option (QpId × Nat × Nat × Nat)
  deriving DecidableEq, Repr

/-- What PCI Express configuration holds (13 R342, R344, R346). -/
structure PcieFn where
  /-- Link speed: 1 is 2.5 GT/s, 5 is 32 GT/s; 13 R342; 3 bits; reset 1 (PRESUMED, entry 108). -/
  speed : BitVec 3
  /-- Link width: 1, 2 or 4 lanes; 13 R342; 3 bits; reset 1 (PRESUMED, entry 108). -/
  width : BitVec 3
  /-- Max Payload Size: 0 is 128, 1 is 256, 2 is 512 bytes; 13 R342 R344; 2 bits; reset 0 (PRESUMED, entry 108). -/
  maxPayload : BitVec 2
  /-- Max Read Request Size: 0 is 128 up to 5 is 4,096 bytes; 13 R342; 3 bits; reset 2 (PRESUMED, entry 108). -/
  maxRead : BitVec 3
  /-- Advanced Error Reporting: an unsupported request is recorded: 1 bit; 13 R346; reset 0. -/
  aerUr : Bool
  deriving DecidableEq, Repr

def PcieFn.reset : PcieFn := { speed := 1, width := 1, maxPayload := 0, maxRead := 2, aerUr := false }

/-- A descriptor taken or being fetched, not yet ended (13 R353, R354). -/
structure QEntry where
  /-- Number of the entry since the queue pair was enabled; its ring slot is this modulo the ring size. -/
  index : Nat
  /-- The 64 bytes, once they are there (a fetch brings them; a push has them). -/
  desc : Option (List Byte)
  /-- Core cycle count at which the descriptor, or the last byte it reads from the host, was there (01 R20, R21). -/
  at_ : Nat
  /-- The entry has been started (13 R353): 1 bit. -/
  started : Bool
  /-- Data read from the host so far. -/
  data : List Byte
  /-- Segments without a response (13 R357). -/
  left : Nat
  /-- First failed segment in address order: its place in the transfer and its status (13 R357). -/
  bad : Option (Nat × Nat)
  /-- Bytes of the committed prefix of a cancelled transfer (10 R274). -/
  cut : Option Nat
  /-- TIME_LAUNCH_SEQ of an accepted LAUNCH (13 R356). -/
  seq : Nat
  deriving DecidableEq, Repr

/-- A DMA read the block has sent and whose completion has not come (13 R368). -/
structure DmaRead where
  qp : QpId
  index : Nat
  /-- The read fetches the descriptor; otherwise it reads the entry's data. -/
  fetch : Bool
  addr : Nat
  /-- Bytes still to come. -/
  len : Nat
  deriving DecidableEq, Repr

/-- A queue pair (13). -/
structure QueuePair where
  /-- SQ_BASE: 64 bits, 4 KiB aligned; 13; reset 0. -/
  sqBase : Dword
  /-- CQ_BASE: 64 bits, 4 KiB aligned; 13; reset 0. -/
  cqBase : Dword
  /-- ENABLE: 1 bit; 13; reset 0. -/
  enable : Bool
  /-- PUSH_EN: 1 bit; 13; reset 0. -/
  pushEn : Bool
  /-- SQ_LOG2: 4 bits; 13; reset 4. -/
  sqLog2 : BitVec 4
  /-- CQ_LOG2: 4 bits; 13; reset 4. -/
  cqLog2 : BitVec 4
  /-- IRQ.EN: 1 bit; 13; reset 0. -/
  irqEn : Bool
  /-- IRQ.THRESH: 8 bits; 13; reset 1. -/
  irqThresh : BitVec 8
  /-- IRQ.TIMER: 16 bits; 13; reset 0. -/
  irqTimer : BitVec 16
  /-- SQ_HEAD: 12 bits; 13; reset 0. -/
  sqHead : Nat
  /-- SQ_TAIL: 12 bits; 13; reset 0. -/
  sqTail : Nat
  /-- CQ_HEAD: 12 bits; 13; reset 0. -/
  cqHead : Nat
  /-- CQ_TAIL: 12 bits; 13; reset 0. -/
  cqTail : Nat
  /-- PHASE: 1 bit; 13; reset 1. -/
  phase : Bool
  /-- STATE: 3 bits, 0 DISABLED 1 ENABLED 2 DRAINING 3 ERROR; 13; reset 0. -/
  state : BitVec 3
  /-- Entries submitted since the queue pair was enabled; 13 R349; reset 0. -/
  next : Nat
  /-- Entries taken and not ended, in index order; 13 R353; reset none. -/
  entries : List QEntry
  /-- Completions posted since the last message; 13; reset 0. -/
  irqCount : Nat
  /-- Wall-clock time of the oldest completion not yet signalled; 13; reset none. -/
  irqSince : Option Nat
  deriving DecidableEq, Repr

/-- A line of the input mailbox with the core cycle count from which it is readable (01 R20, R21; 13 R359). -/
structure MailLine where
  line : Line
  readyAt : Nat
  /-- The INPUT asked for ADMITTED (13 R362). -/
  ack : Bool
  deriving DecidableEq, Repr

structure MsixEntry where
  addr : Dword
  data : Word
  mask : Bool
  pending : Bool
  deriving DecidableEq, Repr

/-- A completion on its way to a completion queue (13 R364). -/
structure Completion where
  qp : QpId
  cid : Nat
  status : Nat
  r0 : Nat
  r1 : Nat
  r2 : Nat
  /-- Core cycle count from which it can go (13 R363). -/
  due : Nat
  deriving DecidableEq, Repr

structure HostIf where
  /-- HIF_CFG.BAR4_EN: 1 bit; 13; reset 0. -/
  bar4En : Bool
  /-- BAR4 as the latest fundamental reset sampled it: 1 bit; 13; reset 0. -/
  bar4On : Bool
  /-- HIF_WIN.BASE: 3 bits; 13; reset 0. -/
  winBase : BitVec 3
  /-- HIF_ERR_CAPT.CAUSE: 4 bits; 13; reset 0. -/
  errCause : BitVec 4
  /-- HIF_ERR_CAPT.QP: 5 bits; 13; reset 0. -/
  errQp : BitVec 5
  /-- HIF_ERR_CAPT.VALID: 1 bit W1C; 13; reset 0. -/
  errValid : Bool
  /-- HIF_INPUT_COUNT: 32 bits saturating; 13; reset 0. -/
  inputCount : Word
  /-- HIF_DROP_COUNT: 32 bits saturating; 13; reset 0. -/
  dropCount : Word
  /-- The 32 queue pairs; 13. -/
  qps : Vector QueuePair 32
  /-- MSI-X table: 33 vectors of address 64, data 32, mask 1 (reset 1) and pending 1; 13; reset masked. -/
  msix : Vector MsixEntry 33
  /-- Input mailbox: at most 16 lines, oldest first; 13; reset empty. -/
  mailbox : List MailLine
  /-- Host write path: at most 16 lines, oldest first; 13; reset empty. -/
  writes : List HostWrite
  /-- Completion buffer: at most 64 entries, oldest first; 13; reset empty. -/
  cbuf : List Completion
  /-- Outstanding DMA reads; 13 R368; reset none. -/
  reads : List DmaRead
  /-- The PCIe link is up: 1 bit; 13; reset 0 (DESIGN CHOICE, entry 4). -/
  linkUp : Bool
  /-- Source 35 was raised in this link-down: 1 bit; 13 R371; reset 0. -/
  downRaised : Bool
  /-- The function is in D3hot: 1 bit; 13; reset 0. -/
  d3 : Bool
  /-- PCI Express configuration; 13 R342 R346. -/
  pcie : PcieFn
  /-- The queue pair whose turn is next in the round robin: 5 bits; 13 R354; reset 0 (DESIGN CHOICE, entry 109). -/
  turn : QpId
  /-- Core cycle count in which an entry last started; 13 R354; reset none. -/
  startAt : Option Nat
  deriving DecidableEq, Repr

def QueuePair.reset : QueuePair :=
  { sqBase := 0, cqBase := 0, enable := false, pushEn := false, sqLog2 := 4, cqLog2 := 4, irqEn := false,
    irqThresh := 1, irqTimer := 0, sqHead := 0, sqTail := 0, cqHead := 0, cqTail := 0, phase := true, state := 0,
    next := 0, entries := [], irqCount := 0, irqSince := none }

def HostIf.reset : HostIf :=
  { bar4En := false, bar4On := false, winBase := 0, errCause := 0, errQp := 0, errValid := false, inputCount := 0,
    dropCount := 0, qps := Vector.replicate 32 QueuePair.reset, msix := Vector.replicate 33 ⟨0, 0, true, false⟩,
    mailbox := [], writes := [], cbuf := [], reads := [], linkUp := false, downRaised := false, d3 := false,
    pcie := PcieFn.reset, turn := 0, startAt := none }

/-! Chip power (16). -/

/-- Supply monitor thresholds of one rail, in steps of 0.25% (16 Table 16-9). -/
structure MonThr where
  warn : BitVec 8
  reset : BitVec 8
  hyst : BitVec 8
  deriving DecidableEq, Repr

/-- The steeping group (16 Table 16-9). -/
structure SteepCfg where
  /-- PWR_STEEP_CTL.DIDT_LIMIT. -/
  didt : BitVec 8
  /-- The 16 weights D. -/
  weights : Vector (BitVec 10) 16
  deriving DecidableEq, Repr

/-- The steeping governor of one quadrant (16 section 7). -/
structure Governor where
  /-- PWR_STEEP_BALq: 64 bits saturating; 16 Table 16-9; reset 0. -/
  bal : Dword
  /-- Latched bits [63:32] of PWR_STEEP_BALq; 16 Table 16-9; reset 0. -/
  balHi : Word
  /-- PWR_STEEP_VIOLq: 32 bits saturating; 16 Table 16-9; reset 0. -/
  viol : Word
  /-- Totals of the last cycles, latest first, at most 64; 16 R438; reset none. -/
  hist : List Nat
  /-- Program activity of the present cycle; 16 R438; reset 0. -/
  activity : Nat
  /-- Ceiling in force, when a forecast has set it; otherwise 0 out of run state and M_q in it; 16 R440 R441; reset none. -/
  ceiling : Option Nat
  /-- Pending forecast; 06 R179 R180, 16 R440; reset none. -/
  forecast : Option Forecast
  deriving DecidableEq, Repr

/-- A power transition of one domain: 1 when powering on, with its end (16 R418). -/
structure DomTrans where
  on : Bool
  until_ : Nat
  deriving DecidableEq, Repr

structure Power where
  /-- PWR_DOM_REQ: Q 4 bits, SRCH, FABA, FABB: 7 bits RWL; 16 Table 16-9; reset 0x60. -/
  req : BitVec 7
  /-- PWR_DOM_STATUS.ON: 12 bits; 16 Table 16-9; reset 0x0783. -/
  on : BitVec 12
  /-- Domains that are powered and held in reset (bits as ON): 12 bits; 16 R430 R435; reset 0. -/
  held : BitVec 12
  /-- PWR_DOM_STATUS.STATE: LOW-IDLE 1 bit; 16 Table 16-9; reset 0 ACTIVE. -/
  lowIdle : Bool
  /-- RETENTION-ONLY: only AON and RET are powered: 1 bit; 16; reset 0. -/
  retention : Bool
  /-- Transitions of the twelve domains; 16 R418; reset none. -/
  trans : Vector (Option DomTrans) 12
  /-- PWR_STATE_CTL.LOW_IDLE: 1 bit; 16 R420 Table 16-9; reset 0. -/
  lowIdleReq : Bool
  /-- PWR_OP_CTL.POINT: 2 bits RWL; 16 Table 16-9; reset 2. -/
  opReq : BitVec 2
  /-- PWR_OP_AT: 64 bits RWL; 16 Table 16-9; reset 0. -/
  opAt : Dword
  /-- PWR_OP_STATUS.POINT: 2 bits; 16 Table 16-9; reset 2. -/
  point : BitVec 2
  /-- PWR_OP_STATUS.BUSY: 1 bit; 16 Table 16-9; reset 0. -/
  busy : Bool
  /-- PWR_OP_STATUS.PENDING: 1 bit; 16 Table 16-9; reset 0. -/
  opPending : Bool
  /-- PWR_OP_STATUS.DEFERRED: 1 bit; 16 Table 16-9; reset 0. -/
  deferred : Bool
  /-- PWR_OP_STATUS.FAIL: 1 bit; 16 Table 16-9; reset 0. -/
  opFail : Bool
  /-- Point and count captured by GO; 16 R426; reset none. -/
  opGoal : Option (BitVec 2 × Dword)
  /-- Wall-clock start of the latest transition; 16 R426 R428; reset none. -/
  opStart : Option Nat
  /-- PWR_MONk_THR shadow copies: 4 x 24 bits; 16 Table 16-6; reset Table 16-6. -/
  monShadow : Vector MonThr 4
  /-- Thresholds in force; 16 R433; reset Table 16-6. -/
  mon : Vector MonThr 4
  /-- PWR_COMMIT.MON pending: 1 bit SC; 16, 03 R87; reset 0. -/
  monPending : Bool
  /-- PWR_MON_STATUS.BELOW_WARN: 4 bits; 16 Table 16-9; reset 0. -/
  belowWarn : BitVec 4
  /-- PWR_MON_STATUS.RESET_RAIL: 2 bits; 16 Table 16-9; reset 0. -/
  resetRail : BitVec 2
  /-- PWR_MON_STATUS.RET_LOST: 1 bit W1C; 16 R424; reset 1. -/
  retLost : Bool
  /-- Rails below their reset threshold, by R435: 4 bits; 16 R435; reset 0. -/
  railReset : BitVec 4
  /-- PWR_THERM_CTL.WARN: 8 bits; 16 Table 16-9; reset 95. -/
  thermWarn : BitVec 8
  /-- PWR_THERM_STATUS.MAX: 9 bits; 16 Table 16-9; reset 0. -/
  thermMax : BitVec 9
  /-- PWR_THERM_STATUS.SENSOR: 4 bits; 16 Table 16-9; reset 0. -/
  thermSensor : BitVec 4
  /-- PWR_THERM_STATUS.TRIPPED: 1 bit W1C; 16 R437; reset 0. -/
  tripped : Bool
  /-- The hottest reading is 110 °C or more: 1 bit; 16 R437; reset 0. -/
  hot : Bool
  /-- A trip refuses power-on requests until every sensor reads below WARN: 1 bit; 16 R437; reset 0. -/
  tripHold : Bool
  /-- The steeping group's shadow copy; 16 Table 16-9; reset DIDT_LIMIT 1, D g = 4(g + 1). -/
  steepShadow : SteepCfg
  /-- The steeping group in force; 16 Table 16-9; reset as its shadow. -/
  steep : SteepCfg
  /-- PWR_COMMIT.STEEP pending: 1 bit SC; 16, 03 R87; reset 0. -/
  steepPending : Bool
  /-- The governors of Q0-Q3; 16 section 7. -/
  gov : Vector Governor 4
  /-- The management clock runs in LOW-IDLE for an access: 1 bit, and its last access; 20; reset none. -/
  wokenAt : Option Nat
  deriving DecidableEq, Repr

def Governor.reset : Governor :=
  { bal := 0, balHi := 0, viol := 0, hist := [], activity := 0, ceiling := none, forecast := none }

def SteepCfg.reset : SteepCfg :=
  { didt := 1, weights := Vector.ofFn fun g => BitVec.ofNat 10 (4 * (g.val + 1)) }

/-- Reset thresholds by rail (16 Table 16-6): VCORE and VSRAM 24 / 48, VRET and VPHY 20 / 40, HYST 4. -/
def MonThr.initial (k : Nat) : MonThr := if k < 2 then ⟨24, 48, 4⟩ else ⟨20, 40, 4⟩

def Power.reset : Power :=
  { req := 0x60, on := 0x783, held := 0, lowIdle := false, retention := false, trans := Vector.replicate 12 none,
    lowIdleReq := false, opReq := 2, opAt := 0, point := 2, busy := false, opPending := false, deferred := false,
    opFail := false, opGoal := none, opStart := none, monShadow := Vector.ofFn fun k => MonThr.initial k.val,
    mon := Vector.ofFn fun k => MonThr.initial k.val, monPending := false, belowWarn := 0, resetRail := 0,
    retLost := true, railReset := 0, thermWarn := 95, thermMax := 0, thermSensor := 0,
    tripped := false, hot := false, tripHold := false, steepShadow := SteepCfg.reset, steep := SteepCfg.reset, steepPending := false,
    gov := Vector.replicate 4 Governor.reset, wokenAt := none }

/-! CRC engine, management block, identity (14 R388, 15 R398, 20). -/

structure Mgt where
  /-- MGT_CRC_CTL.BUSY: 1 bit; 14 R388; reset 0. -/
  crcBusy : Bool
  /-- MGT_CRC_CTL.DONE: 1 bit W1C; 14 R388; reset 0. -/
  crcDone : Bool
  /-- MGT_CRC_CTL.STATUS: 3 bits; 14 R388; reset 0. -/
  crcStatus : BitVec 3
  /-- MGT_CRC_BASE: 31 bits; 14 R388; reset 0. -/
  crcBase : BitVec 31
  /-- MGT_CRC_LEN: 23 bits; 14 R388; reset 0. -/
  crcLen : BitVec 23
  /-- MGT_CRC_EXP: 64 bits; 14 R388; reset 0. -/
  crcExp : Dword
  /-- MGT_CRC_VAL: 64 bits; 14 R388; reset 0. -/
  crcVal : Dword
  /-- Core cycle count at which the check in progress started, moved on by each cycle that the engine waited for a port;
  14 R388; reset 0. -/
  crcAt : Nat
  /-- Lines of the region read so far; 14 R388; reset 0. -/
  crcLine : Nat
  /-- CRC over the bytes read so far, before the final XOR: 64 bits; 14 R389; reset 0. -/
  crcAcc : Nat
  /-- A line read so far held an uncorrectable word: 1 bit; 14 Table 14-4; reset 0. -/
  crcBad : Bool
  /-- The CSC is held in reset: 1 bit; 15 R398; reset 0. -/
  cscReset : Bool
  /-- NMIs waiting for the CSC, by source: 64 bits; 15 R398; reset 0. -/
  nmiWaiting : BitVec 64
  /-- MGT_NMI_LOG: at most 8 source numbers, oldest first; 15 R398; reset empty. -/
  nmiLog : List SourceId
  /-- MGT_NMI_LOG.LOST: 8 bits saturating; 15 R398; reset 0. -/
  nmiLost : BitVec 8
  /-- MGT_TWI_CTL.PEC_EN: 1 bit; 20; reset 0. -/
  pecEn : Bool
  /-- MGT_TWI_CTL.MODE: 1 bit; 20; reset 0. -/
  twiMode : Bool
  /-- MGT_TWI_CTL.TIMEOUT_EN: 1 bit; 20; reset 1. -/
  twiTimeoutEn : Bool
  /-- MGT_TWI_TIMING: HOLD 40, FILTER 5, SETUP 40; 20; reset so. -/
  twiTiming : Word
  /-- MGT_TWI_WAKE.LAST: 2 bits; 20; reset 0. -/
  wakeLast : BitVec 2
  /-- MGT_TWI_WAKE.WAKES: 16 bits saturating; 20; reset 0. -/
  wakes : BitVec 16
  /-- MGT_TWI_ERRORS.PEC: 16 bits saturating; 20; reset 0. -/
  pecErrors : BitVec 16
  /-- MGT_TWI_ERRORS.TIMEOUT: 16 bits saturating; 20; reset 0. -/
  twiTimeouts : BitVec 16
  /-- Start of a management wake in progress; 20 R529; reset none. -/
  wakeAt : Option Nat
  /-- While a chip in RETENTION-ONLY is awake: wall-clock time of its last two-wire transaction; 20 R529; reset none. -/
  awake : Option Nat
  /-- Identity: lot 36, wafer 5, die_x 8, die_y 8, reticle 7, repair 10, year 8, week 6 bits; 20; reset fused, 0 (DESIGN CHOICE, entry 3). -/
  lot : BitVec 36
  wafer : BitVec 5
  dieX : BitVec 8
  dieY : BitVec 8
  reticle : BitVec 7
  repair : BitVec 10
  year : BitVec 8
  week : BitVec 6
  deriving DecidableEq, Repr

def Mgt.reset : Mgt :=
  { crcBusy := false, crcDone := false, crcStatus := 0, crcBase := 0, crcLen := 0, crcExp := 0, crcVal := 0, crcAt := 0,
    crcLine := 0, crcAcc := 0, crcBad := false,
    cscReset := false, nmiWaiting := 0, nmiLog := [], nmiLost := 0, pecEn := false, twiMode := false,
    twiTimeoutEn := true, twiTiming := 0x280528, wakeLast := 0, wakes := 0, pecErrors := 0, twiTimeouts := 0, wakeAt := none, awake := none,
    lot := 0, wafer := 0, dieX := 0, dieY := 0, reticle := 0, repair := 0, year := 0, week := 0 }

/-- The SK2 chip. -/
structure Chip where
  cmp : Compute
  map : MapRegs
  chk : TileChecks
  fc : Collector
  time : TimeRegs
  fab : Fabric
  srch : SearchUnit
  hif : HostIf
  pwr : Power
  mgt : Mgt
  deriving DecidableEq, Repr

/-- The chip as AON reset leaves it (03 R92, 04 R126, 10 R275, 11 R313, 15 R415, 16 Table 16-9). -/
def Chip.reset : Chip :=
  { cmp := Compute.reset, map := MapRegs.reset, chk := TileChecks.reset, fc := Collector.reset Source.chipDefault,
    time := TimeRegs.reset, fab := Fabric.reset, srch := SearchUnit.reset, hif := HostIf.reset, pwr := Power.reset,
    mgt := Mgt.reset }

end Sys2Proof.Machine
end

