-- ==== Sys2Proof/Machine/Identity.lean ====
section
/-! DEFINITION. The Skaod identity record (20 section 6): its layout, its CRC, and what a reader takes from it; the devices'
two-wire addresses (02 R41, 20 Table 20-2). -/

namespace Sys2Proof.Machine

/-! CRC-32 of IEEE 802.3 (18 Table 18-1, 20 Table 20-4). -/

def crc32Bit (x : Nat) : Nat := if x.testBit 0 then (x / 2) ^^^ 0xEDB88320 else x / 2

def crc32Byte (x : Nat) (b : Byte) : Nat :=
  crc32Bit (crc32Bit (crc32Bit (crc32Bit (crc32Bit (crc32Bit (crc32Bit (crc32Bit (x ^^^ b.toNat))))))))

def crc32 (bs : List Byte) : Nat := (bs.foldl crc32Byte (2 ^ 32 - 1)) ^^^ (2 ^ 32 - 1)

/-! The record (20 Tables 20-4 and 20-5). -/

/-- The 256 bytes of the identity EEPROM of a board that is fitted at a time: its maker's, so free values of the place and the time
(20 R536, R537; DESIGN CHOICE, log entry 114). Places: the bays 0 to 15, the drives 16 to 23, the BBU 24, the TMC card 25. -/
def fittedRecord (place now : Nat) : List Byte := (List.range 256).map (Config.recordByte place now)

def padTo (n : Nat) (bs : List Byte) : List Byte := (List.range n).map fun i => bs.getD i 0

/-- ASCII "SKID". -/
def recordMagic : List Byte := [0x53, 0x4B, 0x49, 0x44]

/-- A record of a kind with no serial number, level or date. -/
def identityRecord (kind : Nat) (order fuses : List Byte) (rating : List Nat) : List Byte :=
  let body := recordMagic ++ [1, BitVec.ofNat 8 kind, 0, 0] ++ padTo 16 order ++ padTo 40 [] ++ padTo 32 fuses
    ++ padTo 32 (rating.flatMap (leBytes 4)) ++ padTo 124 []
  body ++ leBytes 4 (crc32 body)

def recordNat (r : List Byte) (i n : Nat) : Nat := leNat ((r.drop i).take n)

/-- MAGIC and CRC hold; otherwise the record is invalid, and its module is powered, cooled and reported as any other (20
R538). -/
def recordValid (r : List Byte) : Bool :=
  decide (r.take 4 = recordMagic) && recordNat r 252 4 == crc32 (r.take 252)

/-- KIND: 1 SC2, 2 BBU, 3 fan module, 4 pump module, 5 TM16 card, 6 base board. -/
def recordKind (r : List Byte) : Nat := recordNat r 5 1
def recordOrderCode (r : List Byte) : List Byte := (r.drop 8).take 16
def recordSerial (r : List Byte) : List Byte := (r.drop 24).take 16
def recordLevel (r : List Byte) : List Byte := (r.drop 40).take 2
/-- MFG_DATE: year minus 2000, and ISO week. -/
def recordDate (r : List Byte) : Nat × Nat := (natField (recordNat r 42 2) 0 7, natField (recordNat r 42 2) 7 6)
def recordFuses (r : List Byte) : List Byte := (r.drop 64).take 32
/-- Field i of RATING, i = 0 to 2 (20 Table 20-5). -/
def recordRating (r : List Byte) (i : Nat) : Nat := recordNat r (96 + 4 * i) 4

/-- What a read that starts at an address byte delivers; the address goes round after 255 (20 R537; log entry 114). -/
def eepromRead (r : List Byte) (start n : Nat) : List Byte := (List.range n).map fun i => r.getD ((start + i) % 256) 0

/-! Addresses (02 R41, 20 Table 20-2): bits [2:0] are SLOT_ID0 to SLOT_ID2, and SLOT_ID3 selects the bus. -/

def busOf (n : SlotId) : BusId := if n.val < 8 then 0 else 1
def sk2Address (n : SlotId) : Nat := 0x58 ||| n.val % 8
def cpcAddress (n : SlotId) : Nat := 0x48 ||| n.val % 8
def eepromAddress (n : SlotId) : Nat := 0x50 ||| n.val % 8

/-- EEPROM_WP of a slot: high at all times; every other module protects its own EEPROM (20 R537). -/
def eepromWp (_ : SlotId) : Bool := true

end Sys2Proof.Machine
end

