-- ==== Sys2Proof/Machine/StateTray.lean ====
section
/-! DEFINITION. The state of the tray: input and battery, the cartridge power controllers (17), the cooling actuator
controller (19), the two-wire controllers and cages (20), and the Tray Management Controller with its base-board
registers (18). Each field's comment gives its name; its width; the rule that names it; its value at reset. -/

namespace Sys2Proof.Machine

/-! Cartridge power controllers (17). -/

/-- CPC_STATUS.STATE (17 Table 17-11). -/
inductive CpcState where
  | off | rising | on | falling | stuck
  deriving DecidableEq, Repr

/-- A compute rail: off; turned on and not in regulation; in regulation; turned off; being discharged; stuck (17 R452-R455). -/
inductive RailState where
  | off | up | good | falling | discharging | stuck
  deriving DecidableEq, Repr

structure Cpc where
  /-- CPC_STATUS.STATE: 4 bits; 17 Table 17-11; reset OFF. -/
  st : CpcState
  /-- The five compute rails (GOOD and OFF read off them); 17 Table 17-11; reset off. -/
  rails : Vector RailState 5
  /-- Wall-clock time of the present step of a sequence; 17 Tables 17-4 and 17-5; reset 0. -/
  stepAt : Nat
  /-- PARK is raised and neither acknowledged nor timed out, since this time; 17 R454; reset none. -/
  park : Option Nat
  /-- CPC_STATUS.PARK_ACK: 1 bit; 17 Table 17-11; reset 0. -/
  parkAck : Bool
  /-- A sequence fault whose power-down has not started: 1 bit; 17 R453; reset 0. -/
  faultDown : Bool
  /-- SEQ_FAULT_N is driven low: 1 bit; 17 R456; reset 0. -/
  seqFault : Bool
  /-- CPC_FAULT.CAUSE: 4 bits; 17 Table 17-11; reset 0. -/
  cause : BitVec 4
  /-- CPC_FAULT.RAIL: 3 bits; 17 Table 17-11; reset 0. -/
  rail : BitVec 3
  /-- CPC_FAULT.VALID: 1 bit W1C; 17 Table 17-11; reset 0. -/
  valid : Bool
  /-- CPC_STATUS.PWR_EN, the level of PWR_EN: 1 bit; 17 R450; reset 0. -/
  pwrEn : Bool
  /-- Wall-clock time of the last change of PWR_EN; 17 R452; reset 0. -/
  pwrEnAt : Nat
  /-- CPC_COUNT.SEQ: 16 bits saturating; 17 Table 17-11; reset 0. -/
  seqCount : BitVec 16
  /-- CPC_COUNT.INPUT: 16 bits saturating; 17 Table 17-11; reset 0. -/
  inputCount : BitVec 16
  /-- CPC_RAILk_MV: 6 x 16 bits; 17 Table 17-11; reset 0. -/
  mv : Vector (BitVec 16) 6
  /-- CPC_P48_MV: 16 bits saturating; 17 Table 17-11; reset 0. -/
  p48 : BitVec 16
  deriving DecidableEq, Repr

def Cpc.reset : Cpc :=
  { st := .off, rails := Vector.replicate 5 .off, stepAt := 0, park := none, parkAck := false, faultDown := false,
    seqFault := false, cause := 0, rail := 0, valid := false, pwrEn := false, pwrEnAt := 0, seqCount := 0,
    inputCount := 0, mv := Vector.replicate 6 0, p48 := 0 }

/-- One cartridge bay. -/
structure Bay where
  /-- Presence, the AND of PRSNT_A_N and PRSNT_B_N: 1 bit; 02 R51; reset 1 for the bay of the chip, 0 for the others
  (DESIGN CHOICE, entry 8). -/
  present : Bool
  cpc : Cpc
  /-- Power Indicator Control of the downstream port: 2 bits; 02 R55; reset Off. -/
  powerInd : Indicator
  /-- Attention Indicator Control of the downstream port: 2 bits; 02 R55; reset Off. -/
  attnInd : Indicator
  /-- Attention Button Pressed in the downstream port's Slot Status: 1 bit; 02 R57; reset 0. -/
  button : Bool
  /-- The press latched for the TMC: 1 bit; 02 R57; reset 0. -/
  buttonTmc : Bool
  /-- The hot-swap buffer has joined the bus: 1 bit; 20 R523; reset as presence (DESIGN CHOICE, entry 8). -/
  buffer : Bool
  /-- CA_LEAK.WET: 1 bit; 19 R517; reset dry (DESIGN CHOICE, entry 8). -/
  wet : Bool
  /-- CA_LEAK.BAY: 1 bit W1C; 19 R517 R518; reset 0. -/
  leak : Bool
  /-- FAULT_IND_N held low by the base board: 1 bit; 02 S050 R55; nothing in the spec makes it so; reset 0 (DESIGN CHOICE, entry
  114). -/
  faultHeld : Bool
  /-- Wall-clock end of the lamp test; 02 Reset and start-up state; reset 0, over. -/
  lampUntil : Nat
  /-- Identity EEPROM of the fitted cartridge: 256 bytes; 20 R536 R537; reset a record of the chip (DESIGN CHOICE, entry 114). -/
  eeprom : List Byte
  deriving DecidableEq, Repr

/-! Input and battery (17). -/

/-- TM_BB_INPUT.[2:0] (17 Table 17-2). -/
inductive InputState where
  | unqualified | normal | battery | qualifying
  deriving DecidableEq, Repr

/-- TM_BB_INPUT.[6:4] (17 Table 17-7). -/
inductive BbuState where
  | absent | charging | ready | carrying | depleted | fault
  deriving DecidableEq, Repr

/-! Cooling actuation (19). -/

/-- CA_AXn_STATUS.STATE (19 Table 19-5). -/
inductive AxisState where
  | idle | moving | stopping | stopped | homing | following | failed
  deriving DecidableEq, Repr

structure Axis where
  /-- CA_AXn_STATUS.STATE: 3 bits; 19 Table 19-5; reset IDLE after the homing of R520. -/
  st : AxisState
  /-- CA_AXn_POS: 14 bits, the position at rest or where the present motion began; 19 R494; reset 0. -/
  pos : Nat
  /-- CA_AXn_TARGET: 14 bits; 19 R498 R500; reset 0. -/
  target : Nat
  /-- CA_AXn_SPEED: 16 bits; 19 R501; reset 10000. -/
  speed : Nat
  /-- CA_AXn_ACCEL: 20 bits; 19 R501; reset 50000. -/
  accel : Nat
  /-- CA_AXn_DECEL: 20 bits; 19 R501; reset 50000. -/
  decel : Nat
  /-- CA_AXn_JERK: 16 bits; 19 R501; reset 500. -/
  jerk : Nat
  /-- CA_AXn_CTL.PROFILE: 1 bit, S-curve; 19 R498; reset 0. -/
  sCurve : Bool
  /-- CA_AXn_CTL.CAM: 2 bits; 19 R510; reset 0. -/
  cam : CamId
  /-- CA_AXn_REMAIN: 32 bits signed; 19 R502; reset 0. -/
  remain : Int
  /-- CA_AXn_STATUS.RESULT: 4 bits; 19 Table 19-5; reset 0. -/
  result : BitVec 4
  /-- CA_AXn_STATUS.HOMED: 1 bit; 19 R497; reset 0, and 1 once R520 has homed the axis. -/
  homed : Bool
  /-- CA_AXn_STATUS.SLIP: 1 bit W1C; 19 R497; reset 0. -/
  slip : Bool
  /-- CA_AXn_STATUS.DECEL_RAISED: 1 bit W1C; 19 R499; reset 0. -/
  decelRaised : Bool
  /-- CA_AXn_STATUS.FLOOR: 1 bit; 19 R505; reset 0. -/
  floor : Bool
  /-- CA_AXn_STATUS.CLOSE_PENDING: 1 bit; 19 R505; reset 0. -/
  closePending : Bool
  /-- CA_AXn_STATUS.CLOSED_SW: 1 bit; 19 R495; reset made (DESIGN CHOICE, entry 8). -/
  closedSw : Bool
  /-- CA_AXn_STATUS.OPEN_SW: 1 bit; 19 R495; reset open (DESIGN CHOICE, entry 8). -/
  openSw : Bool
  /-- CA_AXn_MIN: 14 bits, V0-V15 only; 19 R505; reset 1280. -/
  min : Nat
  /-- Earliest wall-clock end of a move from rest whose limits have not changed since; 19 R498; reset none. -/
  due : Option Nat
  /-- The move has passed position 0 without its closed switch: 1 bit; 19 R497; reset 0. -/
  overrun : Bool
  /-- The homing of R520 is under way: 1 bit; 19 R520; reset 0. -/
  boot : Bool
  /-- The move runs under the full-cooling profile: 1 bit; 19 R515; reset 0. -/
  full : Bool
  /-- Target that the axis is sent to once it has halted; 19 R515; reset none. -/
  next : Option Nat
  /-- The halt under way leaves the axis IDLE without REMAIN: 1 bit; 19 R510; reset 0. -/
  release : Bool
  deriving DecidableEq, Repr

def Axis.reset (n : Nat) : Axis :=
  { st := .idle, pos := 0, target := 0, speed := 10000, accel := 50000, decel := 50000, jerk := 500, sCurve := false,
    cam := 0, remain := 0, result := 0, homed := true, slip := false, decelRaised := false, floor := false,
    closePending := false, closedSw := true, openSw := false, min := if n < 16 then 1280 else 0, due := none,
    overrun := false, boot := false, full := false, next := none,
    release := false }

/-- A fan or pump drive and its module (19 section 7). -/
structure Drive where
  /-- CA_DRVk_STATUS.PRESENT: 1 bit; 19 Table 19-5; reset 0 (DESIGN CHOICE, entry 8). -/
  present : Bool
  /-- CA_DRVk_STATUS.DUTY, in percent: 8 bits; 19 R512; reset 0. -/
  duty : Nat
  /-- Wall-clock time up to which a falling duty has been lowered; 19 R512; reset 0. -/
  dutyAt : Nat
  /-- CA_DRVk_STATUS.RANGE_FAULT: 1 bit; 19 R513; reset 0. -/
  rangeFault : Bool
  /-- CA_DRVk_STATUS.RPM: 16 bits; 19 Table 19-5; reset 0. -/
  rpm : BitVec 16
  /-- CA_DRVk_CFG.MAX_RPM: 16 bits; 19 Table 19-5; reset 12000 for fans, 6000 for pumps. -/
  maxRpm : BitVec 16
  /-- Identity EEPROM of the fitted module: 256 bytes; 20 R536 R537; reset empty, none fitted (DESIGN CHOICE, entry 8). -/
  eeprom : List Byte
  deriving DecidableEq, Repr

/-- A cam table (19 section 6). -/
structure Cam where
  /-- Active buffer: 65 x 14 bits; 19 R507; reset 0. -/
  active : Vector (BitVec 14) 65
  /-- Shadow buffer: 65 x 14 bits; 19 R507; reset 0. -/
  shadow : Vector (BitVec 14) 65
  /-- CA_CAMk_CTL.MASTER: 1 bit; 19 R508; reset 0. -/
  master : Bool
  /-- CA_CAMk_CTL.SWAP: 1 bit SC; 19 R511; reset 0. -/
  swap : Bool
  /-- CA_CAMk_CTL.ACTIVE_BUF: 1 bit; 19 Table 19-5; reset 0. -/
  buf : Bool
  /-- CA_CAMk_CTL.SEG, once a sample has been taken: 6 bits; 19 R509; reset none, reading 0. -/
  seg : Option (Fin 64)
  deriving DecidableEq, Repr

/-! Two-wire controllers and cages (20). -/

/-- A base-board two-wire controller (20 Table 20-8). -/
structure Twi where
  /-- TM_BB_TWIb_CTL.SPEED: 2 bits; 20 Table 20-8; reset 1. -/
  speed : BitVec 2
  /-- TM_BB_TWIb_CTL.PEC: 1 bit; 20 Table 20-8; reset 0. -/
  pec : Bool
  /-- TM_BB_TWIb_CMD.ADDR: 7 bits; 20 Table 20-8; reset 0. -/
  addr : BitVec 7
  /-- TM_BB_TWIb_CMD.WLEN: 6 bits; 20 Table 20-8; reset 0. -/
  wlen : BitVec 6
  /-- TM_BB_TWIb_CMD.RLEN: 6 bits; 20 Table 20-8; reset 0. -/
  rlen : BitVec 6
  /-- TM_BB_TWIb_STATUS.BUSY: 1 bit; 20 Table 20-8; reset 0. -/
  busy : Bool
  /-- TM_BB_TWIb_STATUS.DONE: 1 bit W1C; 20 Table 20-8; reset 0. -/
  done : Bool
  /-- TM_BB_TWIb_STATUS.RESULT: 3 bits; 20 Table 20-8; reset 0. -/
  result : BitVec 3
  /-- TM_BB_TWIb_STATUS.BYTES: 6 bits; 20 Table 20-8; reset 0. -/
  bytes : BitVec 6
  /-- TM_BB_TWIb_STATUS.SCL_LOW: 1 bit; 20 Table 20-8; reset 0. -/
  sclLow : Bool
  /-- TM_BB_TWIb_STATUS.SDA_LOW: 1 bit; 20 Table 20-8; reset 0. -/
  sdaLow : Bool
  /-- TM_BB_TWIb_DATAk: 32 bytes; 20 Table 20-8; reset 0. -/
  data : Vector Byte 32
  /-- Wall-clock time of the last recovery that left a line low; 20 R535; reset none. -/
  retryAt : Option Nat
  /-- Channels enabled in the four bus switches of BUS2 and BUS3: 4 x 8 bits; 20 R522 R535; reset 0. -/
  channels : Vector Byte 4
  deriving DecidableEq, Repr

def Twi.reset : Twi :=
  { speed := 1, pec := false, addr := 0, wlen := 0, rlen := 0, busy := false, done := false, result := 0, bytes := 0,
    sclLow := false, sdaLow := false, data := Vector.replicate 32 0, retryAt := none, channels := Vector.replicate 4 0 }

/-- A rear cage (02 R45, 20 section 8). -/
structure Cage where
  /-- What the last successful CMIS read of the fitted module brought; 20 R541; reset none. -/
  module : Option Cmis
  /-- The module is held in low-power mode: 1 bit; 20 R542; reset 1. -/
  lowPower : Bool
  deriving DecidableEq, Repr

/-! Tray Management Controller (18). -/

/-- A cooling demand (18 Table 18-2). -/
structure Demand where
  flow : BitVec 16
  fan : Nat
  pump : Nat
  deriving DecidableEq, Repr

def Demand.zero : Demand := { flow := 0, fan := 0, pump := 0 }

/-- The three ranks below hardware safety (18 Table 18-5). -/
structure Ranks (α : Type) where
  rack : α
  host : α
  auto : α
  deriving DecidableEq, Repr

/-- A sensor point's latest reading (18 R485). -/
structure Sensor where
  value : Int
  scannedAt : Nat
  valid : Bool
  deriving DecidableEq, Repr

/-- What a log record waits for before its settle time (18 Table 18-9). -/
inductive LogWait where
  | none
  | pwrGood (mask : BitVec 16)
  | railsOff (mask : BitVec 16)
  deriving DecidableEq, Repr

/-- A log record (18 Table 18-8). -/
structure LogRec where
  time : Nat
  number : Nat
  typ : Nat
  origin : Nat
  status : Nat
  target : Nat
  arg : Nat
  /-- Up to three sensor points. -/
  points : List Nat
  settle : Nat
  before : List Int
  after : List Int
  requester : Word
  seq : Word
  deriving DecidableEq, Repr

/-- An action whose record is not written yet (18 R487). -/
structure LogPending where
  record : LogRec
  wait : LogWait
  /-- Wall-clock time of the action's completion, once it has completed. -/
  doneAt : Option Nat
  deriving DecidableEq, Repr

/-- What the TMC keeps of one REQ_ID (18 R475). -/
structure Requester where
  id : Word
  high : Word
  /-- Replies to its last 32 state-changing commands, oldest first. -/
  replies : List (Word × List Byte)
  deriving DecidableEq, Repr

/-- An open notice (18 R482). -/
structure Notice where
  number : Byte
  mask : BitVec 16
  openedAt : Nat
  deferred : Bool
  hdr : TmpHdr
  deriving DecidableEq, Repr

/-- The mailbox of function 0x0521 (18 Table 18-12). -/
structure Mailbox where
  /-- TM_MB_CTL.NOTICE_EN: 1 bit; 18 Table 18-12; reset 0. -/
  noticeEn : Bool
  /-- TM_MB_CTL.IRQ_EN: 1 bit; 18 Table 18-12; reset 0. -/
  irqEn : Bool
  /-- TM_MB_STATUS.BUSY: 1 bit; 18 R478; reset 0. -/
  busy : Bool
  /-- TM_MB_STATUS.RSP_READY: 1 bit W1C; 18 R478; reset 0. -/
  rspReady : Bool
  /-- TM_MB_EVENT_HEAD: 4 bits; 18 R479; reset 0. -/
  head : BitVec 4
  /-- TM_MB_EVENT_TAIL: 4 bits; 18 R479; reset 0. -/
  tail : BitVec 4
  /-- TM_MB_REQ: 512 words; 18 Table 18-12; reset 0. -/
  req : Vector Word 512
  /-- TM_MB_RSP: the reply frame, at most 1044 bytes; 18 Table 18-12; reset 0. -/
  rsp : List Byte
  /-- TM_MB_EVENTk: 16 x 8 bytes; 18 R479; reset 0. -/
  events : Vector Dword 16
  deriving DecidableEq, Repr

def Mailbox.reset : Mailbox :=
  { noticeEn := false, irqEn := false, busy := false, rspReady := false, head := 0, tail := 0,
    req := Vector.replicate 512 0, rsp := [], events := Vector.replicate 16 0 }

/-- The TM16 card and the watchdog (18 sections 6, 9 and 10). -/
structure Card where
  /-- The card is present: 1 bit; 02 R54; reset 0 (DESIGN CHOICE, entry 8). -/
  present : Bool
  /-- The firmware runs: it has serviced the watchdog since the card's last reset: 1 bit; 18 R491; reset 0. -/
  running : Bool
  /-- Boot count: 32 bits; 18 Table 18-3; reset 0 (DESIGN CHOICE, entry 8). -/
  bootCount : Word
  /-- Wall-clock time of the card's last reset; 18 R474; reset 0. -/
  bootAt : Nat
  /-- Number of the next notice, 1 to 255; 18 R479; reset 1 (DESIGN CHOICE, entry 17). -/
  nextNotice : Byte
  /-- Open notices, oldest first; 18 R482; reset none. -/
  notices : List Notice
  /-- TM_BB_WDT.EXPIRED: 1 bit W1C; 18 R488 R489; reset 0. -/
  expired : Bool
  /-- An edge has arrived since the expiry: 1 bit; 18 R489; reset 0. -/
  edgeSince : Bool
  /-- Wall-clock time of the last edge on WDT_KICK; 18 R488; reset 0. -/
  edgeAt : Nat
  /-- End of the 60 s allowance while it runs (TM_BB_WDT.ALLOWANCE); 18 R488; reset none. -/
  allowance : Option Nat
  /-- End of the low pulse on WDT_RESET_N while it lasts; 18 R488; reset none. -/
  resetLow : Option Nat
  /-- Wall-clock time of the firmware's first service, until it has closed the gap's fault 10 s later; 18 R491; reset none. -/
  servedAt : Option Nat
  mailbox : Mailbox
  /-- Identity EEPROM of the fitted card: 256 bytes; 20 R536 R537; reset empty, none fitted (DESIGN CHOICE, entry 8). -/
  eeprom : List Byte
  deriving DecidableEq, Repr

/-- The rack inlet's address (18 R474). -/
structure NetCfg where
  /-- DHCP, not static: 1 bit; 18 R474 R492; reset FRAM, 1 (R492, never configured). -/
  dhcp : Bool
  /-- A lease or a static address holds: 1 bit; 18 R474; reset 0. -/
  lease : Bool
  /-- IPv4 address: 32 bits; 18 R474; reset 0. -/
  address : Word
  /-- The address is link-local: 1 bit; 18 R474; reset 0. -/
  linkLocal : Bool
  /-- TMP port: 16 bits; 18 R474; reset 7740. -/
  port : BitVec 16
  /-- Subnet mask of a static address: 32 bits; 18 Table 18-3; reset FRAM, 0 (DESIGN CHOICE, entry 8). -/
  mask : Word
  /-- Gateway of a static address: 32 bits; 18 Table 18-3; reset FRAM, 0 (DESIGN CHOICE, entry 8). -/
  gateway : Word
  /-- Datagrams discarded for fragmentation, and frames discarded for CRC or length; 18 R474; reset 0. -/
  fragmented : Nat
  discarded : Nat
  deriving DecidableEq, Repr

/-- The base board's keep-alive and FRAM state of power, log and network. -/
structure Tray where
  /-- TM_BB_INPUT, input state: 3 bits; 17 R447; reset UNQUALIFIED. -/
  input : InputState
  /-- Wall-clock time at which the input entered this state (in UNQUALIFIED: rose); 17 R447; reset 0. -/
  inputAt : Nat
  /-- The dwell of the latest commit has ended: 1 bit; 17 R464; reset 0. -/
  dwellDone : Bool
  /-- TM_BB_INPUT, BBU state: 3 bits; 17 Table 17-7; reset ABSENT. -/
  bbu : BbuState
  /-- Usable energy of the BBU in mWh; 17 R460; reset 0. -/
  bbuEnergy : Nat
  /-- TM_BB_INPUT.BBU_EOL: 1 bit; 17 R460; reset 0. -/
  bbuEol : Bool
  /-- The sixteen bays; 02 R37. -/
  bays : Vector Bay 16
  /-- The eight drives: fans 0-5, pumps 6-7; 19 R493. -/
  drives : Vector Drive 8
  /-- The twenty valve axes; 19 R493. -/
  axes : Vector Axis 20
  /-- The four cam tables; 19 R507. -/
  cams : Vector Cam 4
  /-- Full cooling is in force: 1 bit; 19 R514; reset 0. -/
  full : Bool
  /-- CA_FULL.TMC_REQ: 1 bit; 19 R514; reset 0. -/
  tmcReq : Bool
  /-- CA_FULL.ENDED: 1 bit W1C; 19 R516; reset 0. -/
  fullEnded : Bool
  /-- CA_BY_FULL: 14 bits; 19 Table 19-5; reset 1600. -/
  byFull : BitVec 14
  /-- The six two-wire controllers; 20 R545. -/
  twi : Vector Twi 6
  /-- The 64 cages; 02 R45. -/
  cages : Vector Cage 64
  /-- The tray fault collector TF_; 15 R411. -/
  fc : Collector
  /-- TM_BB_PWR_RACK, _HOST, _AUTO: 3 x 16 orders; 18 R480; reset NONE. -/
  orders : Ranks (Vector Order 16)
  /-- TM_BB_COOL_RACK, _HOST, _AUTO; 18 R484; reset 0. -/
  demands : Ranks Demand
  /-- The 212 sensor points; 18 R485; reset not valid. -/
  sensors : Vector Sensor 212
  /-- The log's records, oldest first, at most 32768; 18 R486; reset FRAM, none (DESIGN CHOICE, entry 8). -/
  log : List LogRec
  /-- TM_BB_LOG_HEAD: 32 bits; 18 R486; reset FRAM, 0 (DESIGN CHOICE, entry 8). -/
  logHead : Nat
  /-- Records not yet written, oldest first; 18 R487; reset none. -/
  logPending : List LogPending
  /-- TM_BB_LOG_SEL: 32 bits; 18 Table 18-11; reset 0. -/
  logSel : Word
  /-- TM_BB_TRAY_INDEX.Z: 5 bits; 18 Table 18-11; reset FRAM, 0 (R492). -/
  trayZ : BitVec 5
  /-- TM_BB_TRAY_INDEX.W: 4 bits; 18 Table 18-11; reset FRAM, 0 (R492). -/
  trayW : BitVec 4
  /-- TM_BB_TRAY_INDEX.VALID: 1 bit; 18 R492; reset FRAM, 0 (R492). -/
  trayValid : Bool
  net : NetCfg
  /-- AUTO_POLICY, slots powered on automatically: 16 bits; 18 R492; reset FRAM, all (R492). -/
  autoSlots : BitVec 16
  /-- AUTO_POLICY, automatic cooling: 1 bit; 18 R492; reset FRAM, 1 (R492). -/
  autoCool : Bool
  /-- REQ_IDs tracked, least recently used first, at most 64; 18 R475; reset FRAM, none (DESIGN CHOICE, entry 8). -/
  requesters : List Requester
  card : Card
  /-- Wall-clock time of the base-board reset, from which its microseconds count (TM_BB_TIME); 18 Table 18-11; reset 0. -/
  timeBase : Nat
  /-- Latched high half of TM_BB_TIME: 32 bits; 18 R486 Table 18-11; reset 0. -/
  timeHi : Word
  /-- TM_BB_ID, board revision: 16 bits; 18 Table 18-11; reset 0. -/
  revision : BitVec 16
  /-- TM_BB_ID.BUS_ERR: 16 bits saturating; 18 R471; reset 0. -/
  busErr : BitVec 16
  /-- TM_BB_IND: 2 bits; 18 Table 18-11; reset 0. -/
  indicator : BitVec 2
  /-- Identity EEPROM of the fitted BBU: 256 bytes; 20 R536 R537; reset empty, none fitted (DESIGN CHOICE, entry 8). -/
  bbuEeprom : List Byte
  /-- Identity EEPROM of the base board: 256 bytes; 20 R536 R537; reset a record (DESIGN CHOICE, entry 114). -/
  boardEeprom : List Byte
  deriving DecidableEq, Repr

/-- The record of the chip's cartridge: an SC2-320 with the fuses of reset, whose identity bits are 0 (20 R536, log entries 3
and 114). -/
def sc2Record : List Byte :=
  identityRecord 1 [0x53, 0x43, 0x32, 0x2D, 0x33, 0x32, 0x30] (padTo 20 [] ++ [0x42, 0x30, 2, 0]) [410000, 0, 20]

/-- The record of the base board, of 95 W (20 R536, 02 Table 02-8, log entry 114). -/
def boardRecord : List Byte := identityRecord 6 [] [] [95000]

def Bay.reset (present : Bool) : Bay :=
  { present := present, cpc := Cpc.reset, powerInd := .off, attnInd := .off, button := false, buttonTmc := false,
    buffer := present, wet := false, leak := false, faultHeld := false, lampUntil := 0,
    eeprom := if present then sc2Record else [] }

def Drive.reset (k : Nat) : Drive :=
  { present := false, duty := 0, dutyAt := 0, rangeFault := false, rpm := 0, maxRpm := if k < 6 then 12000 else 6000,
    eeprom := [] }

def Cam.reset : Cam :=
  { active := Vector.replicate 65 0, shadow := Vector.replicate 65 0, master := false, swap := false, buf := false,
    seg := none }

def Card.reset : Card :=
  { present := false, running := false, bootCount := 0, bootAt := 0, nextNotice := 1, notices := [], expired := false,
    edgeSince := false, edgeAt := 0, allowance := none, resetLow := none, servedAt := none, mailbox := Mailbox.reset,
    eeprom := [] }

/-- BY0 and BY1 are on their way to CA_BY_FULL once R520 has homed them; every other valve is closed. -/
def Axis.afterReset (n : Nat) : Axis :=
  if n < 18 then Axis.reset n
  else { Axis.reset n with st := .moving, target := 1600, closedSw := false }

/-- Never configured: DHCP, port 7740 (18 R492). -/
def NetCfg.reset : NetCfg :=
  { dhcp := true, lease := false, address := 0, linkLocal := false, port := 7740, mask := 0, gateway := 0,
    fragmented := 0, discarded := 0 }

/-- The tray right after base-board reset (17 R469, 18 R492, 19 R520, 20 R543). -/
def Tray.reset : Tray :=
  { input := .unqualified, inputAt := 0, dwellDone := false, bbu := .absent, bbuEnergy := 0,
    bbuEol := false, bays := Vector.ofFn fun i => Bay.reset (i.val == 0),
    drives := Vector.ofFn fun k => Drive.reset k.val, axes := Vector.ofFn fun n => Axis.afterReset n.val,
    cams := Vector.replicate 4 Cam.reset, full := false, tmcReq := false, fullEnded := false, byFull := 1600,
    twi := Vector.replicate 6 Twi.reset, cages := Vector.replicate 64 ⟨none, true⟩,
    fc := Collector.reset Source.trayDefault,
    orders := ⟨Vector.replicate 16 .none, Vector.replicate 16 .none, Vector.replicate 16 .none⟩,
    demands := ⟨Demand.zero, Demand.zero, Demand.zero⟩, sensors := Vector.replicate 212 ⟨0, 0, false⟩, log := [],
    logHead := 0, logPending := [], logSel := 0, trayZ := 0, trayW := 0, trayValid := false,
    net := NetCfg.reset, autoSlots := 0xFFFF,
    autoCool := true, requesters := [], card := Card.reset, timeBase := 0, timeHi := 0, revision := 0, busErr := 0,
    indicator := 0, bbuEeprom := [], boardEeprom := boardRecord }

end Sys2Proof.Machine
end

