-- ==== Sys2Proof/Machine/State.lean ====
section
/-! DEFINITION. The state of the block: the queue of waiting commands, memory, and everything else; the closed types
of faults and refusals; and the state after reset. -/

namespace Sys2Proof.Machine

/-- An unreadable state of one 64-bit SRAM or search-memory word (04 R119). -/
inductive EccMark where
  /-- One bit wrong: read corrected. -/
  | correctable
  /-- Two bits wrong: read as stored, uncorrectable. -/
  | uncorrectable
  deriving DecidableEq, Repr

/-- What has left the block, oldest first: the world outside reads it, no command does. -/
inductive Output where
  /-- A write to host memory (13 R34, R364). -/
  | hostWrite (addr : Dword) (bytes : List Byte)
  /-- A DMA read request to host memory (13 R368). -/
  | hostRead (addr : Nat) (len : Nat)
  /-- An MSI-X message (13 R366). -/
  | msix (addr : Dword) (data : Word)
  /-- A 272-byte link frame (09 Table 09-3). -/
  | link (p : PortId) (bytes : List Byte)
  /-- Data read by a register, window or two-wire read. -/
  | readData (bytes : List Byte)
  /-- An access answered as an unsupported request (03 R13, 13). -/
  | unsupported
  /-- A TMP reply, with the inlet it goes to (18). -/
  | tmp (inlet : Inlet) (bytes : List Byte)
  /-- A TMP event frame to the rack or the mailbox (18). -/
  | tmpEvent (inlet : Inlet) (bytes : List Byte)
  /-- A management frame handed to the CSC: its message field, whose bits [63:2] are the firmware's, and payload (10 R252). -/
  | csc (p : PortId) (msg : Dword) (payload : Line)
  /-- An MSI-X message of function 0x0521 (18 R478, R479). -/
  | mailboxMsix (v : Fin 2)
  /-- The start of a two-wire transaction on a base-board bus (20). -/
  | twi (bus : BusId) (bytes : List Byte)
  deriving DecidableEq, Repr

/-- Everything but the queue and memory. -/
structure Sys where
  /-- Wall clock in units of 1/15 ns; the model's own, entry 5; reset 0. -/
  now : Nat
  /-- Counter of free values drawn; the model's own, entry 9; reset 0 (DESIGN CHOICE). -/
  free : Nat
  chip : Chip
  tray : Tray
  /-- SEC-DED state of the 64-bit words that are not correct (word address, mark), addresses rising; 04 R119; reset none. -/
  ecc : List (Nat × EccMark)
  out : List Output
  deriving DecidableEq, Repr

structure State where
  /-- The commands waiting, first in, first out. -/
  pending : List Instr
  /-- Tile SRAM, physical tile p at p × 0x40_0000, and search memory at 0x7000_0000 (03 R76, 12 R320): the bytes that
  are not 0, addresses strictly rising. -/
  mem : List Host.Cell
  sys : Sys
  deriving DecidableEq, Repr

/-- No command of this model ends in a fault; the type is closed and empty of reasons beyond this one, which no meaning
answers (safe). -/
inductive Fault where
  /-- Raised by nothing: the spec reports every error as a source, a status or a discarded access (safe). -/
  | noFault
  deriving DecidableEq, Repr

inductive Refusal where
  /-- Raised by an arm of Dispatch.lean whose command has no meaning yet (safe). -/
  | notModelled (mnemonic : String)
  deriving DecidableEq, Repr

abbrev Result := Host.Outcome State Fault Refusal

def Sys.reset : Sys := { now := 0, free := 0, chip := Chip.reset, tray := Tray.reset, ecc := [], out := [] }

/-- The block right after reset: the chip as its AON reset leaves it, the tray as its base-board reset leaves it. -/
def State.reset : State := { pending := [], mem := [], sys := Sys.reset }

end Sys2Proof.Machine
end

