-- ==== Sys2Proof/Machine/Ops.lean ====
section
/-! DEFINITION. The named operations that the meanings share: scopes of State, memory, the column map, raising fault
sources, captures, and outputs. -/

namespace Sys2Proof.Machine

/-! Scopes. A meaning of a command that touches neither the queue nor memory is a function on Sys. -/

def onSys (f : Sys → Sys) (s : State) : Result := .next { s with sys := f s.sys }

/-- As `onSys`, reading memory. -/
def onSysMem (f : List Host.Cell → Sys → Sys) (s : State) : Result := .next { s with sys := f s.mem s.sys }

/-- A meaning that also writes memory. -/
def onMemSys (f : List Host.Cell → Sys → List Host.Cell × Sys) (s : State) : Result :=
  .next { s with mem := (f s.mem s.sys).1, sys := (f s.mem s.sys).2 }

def Sys.onChip (f : Chip → Chip) (y : Sys) : Sys := { y with chip := f y.chip }
def onChip (f : Chip → Chip) (s : State) : Result := onSys (Sys.onChip f) s

def Chip.onTile (p : Fin 320) (f : Tile → Tile) (c : Chip) : Chip :=
  { c with cmp := { c.cmp with tiles := c.cmp.tiles.set p (f c.cmp.tiles[p]) } }

def Chip.onPort (p : PortId) (f : Port → Port) (c : Chip) : Chip :=
  { c with fab := { c.fab with ports := c.fab.ports.set p (f c.fab.ports[p]) } }

def Chip.onQp (q : QpId) (f : QueuePair → QueuePair) (c : Chip) : Chip :=
  { c with hif := { c.hif with qps := c.hif.qps.set q (f c.hif.qps[q]) } }

def Chip.port (c : Chip) (p : PortId) : Port := c.fab.ports[p]
def Chip.qp (c : Chip) (q : QpId) : QueuePair := c.hif.qps[q]
def Chip.tile (c : Chip) (p : Fin 320) : Tile := c.cmp.tiles[p]

def Sys.emit (o : Output) (y : Sys) : Sys := { y with out := y.out ++ [o] }
def Sys.emits (os : List Output) (y : Sys) : Sys := { y with out := y.out ++ os }

/-- The index of a fresh free value. -/
def Sys.fresh (y : Sys) : Nat × Sys := (y.free, { y with free := y.free + 1 })

/-- Saturating increment of a counter register. -/
def satInc {w : Nat} (x : BitVec w) : BitVec w := if x.toNat + 1 < 2 ^ w then x + 1 else x

def satAdd {w : Nat} (x : BitVec w) (n : Nat) : BitVec w := BitVec.ofNat w (min (x.toNat + n) (2 ^ w - 1))

/-- A run-time check of an index. -/
def finOf (n : Nat) (x : Nat) : Option (Fin n) := if h : x < n then some ⟨x, h⟩ else none

/-- A list as a vector, zero-filled. -/
def vecOf {α : Type} (n : Nat) (d : α) (l : List α) : Vector α n := Vector.ofFn fun i => l[i.val]?.getD d

/-! Memory (03 R76, 12 R320): a list of the bytes that are not zero, addresses strictly rising. -/

/-- The canonical form. -/
def Memory.wf : List Host.Cell → Bool
  | [] => true
  | [(_, b)] => b != 0
  | (a, b) :: (a', b') :: rest => b != 0 && a < a' && Memory.wf ((a', b') :: rest)

/-- The byte at an address; an unlisted byte reads 0 (log entry 7). -/
def Memory.get (m : List Host.Cell) (a : Nat) : Byte := (m.lookup a).getD 0

def Memory.read (m : List Host.Cell) (a n : Nat) : List Byte := (List.range n).map fun i => Memory.get m (a + i)

def Memory.line (m : List Host.Cell) (a : Nat) : Line := Vector.ofFn fun i => Memory.get m (a + i.val)

/-- The cells of consecutive bytes from `a` on that are not zero. -/
def Memory.cells (a : Nat) : List Byte → List Host.Cell
  | [] => []
  | b :: bs => if b == 0 then Memory.cells (a + 1) bs else (a, b) :: Memory.cells (a + 1) bs

/-- Consecutive bytes written from `a` on. -/
def Memory.write (m : List Host.Cell) (a : Nat) (bs : List Byte) : List Host.Cell :=
  m.takeWhile (fun c => decide (c.1 < a)) ++ Memory.cells a bs
    ++ m.dropWhile (fun c => decide (c.1 < a + bs.length))

/-- The 64-bit words of a line that the mask selects, written (04 R115). -/
def Memory.writeLine (m : List Host.Cell) (a : Nat) (l : Line) (mask : Word) : List Host.Cell :=
  Memory.write m a ((List.range 256).map fun i =>
    if mask.toNat.testBit (i / 8) then l.byte i else Memory.get m (a + i))

/-- Search memory begins at this address (12 R320). -/
def searchBase : Nat := 0x70000000

/-- First byte of a physical tile's SRAM in `State.mem`. -/
def tileBase (p : Nat) : Nat := p * 0x400000

/-! SEC-DED marks (04 R119). -/

def Ecc.mark (e : List (Nat × EccMark)) (word : Nat) : Option EccMark := e.lookup word

/-- Marks of `n` words from word address `w` on, dropped where the mask has a bit. -/
def Ecc.clear (e : List (Nat × EccMark)) (w n : Nat) (mask : Nat) : List (Nat × EccMark) :=
  e.filter fun c => !(w ≤ c.1 && c.1 < w + n && mask.testBit (c.1 - w))

/-- Of `n` words from word address `w` on: how many are correctable, and the mask of the uncorrectable ones. -/
def Ecc.check (e : List (Nat × EccMark)) (w n : Nat) : Nat × Nat :=
  e.foldl (fun acc c =>
    if w ≤ c.1 && c.1 < w + n then
      match c.2 with
      | .correctable => (acc.1 + 1, acc.2)
      | .uncorrectable => (acc.1, acc.2 + 2 ^ (c.1 - w))
    else acc) (0, 0)

/-! The column map (03 section 3). -/

/-- Virtual width VC by target (03 Table 03-4); an invalid target names no column. -/
def MapRegs.vc (m : MapRegs) : Nat :=
  match m.target.toNat with
  | 0 => 20
  | 1 => 18
  | 2 => 16
  | _ => 0

/-- East-west hop cost (03 R71). -/
def MapRegs.hop (m : MapRegs) : Nat := if m.target == 0 then 2 else 3

/-- Physical column of a virtual column, if it is 0 to 19 and usable (03 R72). -/
def MapRegs.physCol (m : MapRegs) (v : Nat) : Option Nat :=
  let c := (m.vcol[v]?.getD 31).toNat
  if v < m.vc && c < 20 && !m.disabled.toNat.testBit c then some c else none

/-- Physical tile of a virtual tile (03 R66, R81). -/
def MapRegs.phys (m : MapRegs) (v : Nat) : Option (Fin 320) :=
  if m.vc == 0 then none
  else match m.physCol (v % m.vc) with
    | none => none
    | some c => finOf 320 ((v / m.vc) * 20 + c)

/-- Virtual number of a physical tile, if its column is mapped. -/
def MapRegs.virt (m : MapRegs) (p : Nat) : Option Nat :=
  (List.range m.vc).find? (fun j => m.physCol j == some (p % 20)) |>.map fun j => (p / 20) * m.vc + j

/-- Port virtual columns by VC (03 Table 03-2). -/
def portCols (vc : Nat) : List Nat :=
  if vc == 20 then [2, 7, 12, 17] else if vc == 18 then [2, 6, 11, 15] else [2, 6, 9, 13]

/-- MAP_ERR: the first rule of R72 that fails (03 Table 03-17). -/
def MapRegs.err (m : MapRegs) : Nat :=
  let vc := m.vc
  if vc == 0 || m.target.toNat < m.grade.val then 1
  else
    let cols := (List.range vc).map fun v => (m.vcol[v]?.getD 31).toNat
    let steps := cols.zip (cols.drop 1)
    if cols.any fun c => 20 ≤ c || m.disabled.toNat.testBit c then 2
    else if steps.any fun (a, b) => b ≤ a then 3
    else if steps.any fun (a, b) => 2 < b - a then 4
    else if cols.head? != some 0 || cols.getLast? != some 19
        || (portCols vc).map (fun v => cols.getD v 31) != [2, 7, 12, 17] then 5
    else 0

def MapRegs.ok (m : MapRegs) : Bool := m.err == 0

/-- Quadrant of a physical tile (03 R68). -/
def quadOf (p : Nat) : Nat := (p % 20) / 5

/-- Mapped tiles of a quadrant (16 R438). -/
def MapRegs.quadTiles (m : MapRegs) (q : Nat) : Nat :=
  16 * ((List.range m.vc).filter fun v => ((m.physCol v).map fun c => c / 5) == some q).length

/-- Virtual (row, column) of a port's attach tile (03 Tables 03-1, 03-2). -/
def MapRegs.attach (m : MapRegs) (p : PortId) : Nat × Nat :=
  (if p.val < 4 then 0 else 15, (portCols m.vc).getD (p.val % 4) 0)

/-! Domains (16 Table 16-9, PWR_DOM_STATUS.ON bits). -/

/-- The domain is powered and out of reset. -/
def Chip.domOn (c : Chip) (bit : Nat) : Bool := c.pwr.on.toNat.testBit bit && !c.pwr.held.toNat.testBit bit

def bitRet : Nat := 1
def bitQ (q : Nat) : Nat := 2 + q
def bitSrch : Nat := 6
def bitHost : Nat := 7
def bitFaba : Nat := 8
def bitFabb : Nat := 9
def bitClk : Nat := 10
def bitDbg : Nat := 11

/-- A brownout hold, PWR_MON_STATUS.HOLDING: VCORE or VSRAM below warning in run state with STRICT clear (16 R434). -/
def Chip.brownout (c : Chip) : Bool :=
  c.map.run && !c.time.strict && (c.pwr.belowWarn.toNat.testBit 0 || c.pwr.belowWarn.toNat.testBit 1)

/-- Core period in units of `now` at an operating point (00 section 5). -/
def corePeriod (point : BitVec 2) : Nat :=
  match point.toNat with
  | 0 => 12
  | 1 => 15
  | _ => 20

/-! Raising sources (15 R395). -/

/-- A pulse on an event line. -/
def Collector.raise (n : Nat) (o : Owner) (k : Collector) : Collector :=
  match finOf 64 n with
  | some i => { k with raised := k.raised ++ [⟨i, o⟩] }
  | none => k

/-- A level line becomes asserted: raised on its rising edge only. -/
def Collector.assert (n : Nat) (o : Owner) (now : Nat) (k : Collector) : Collector :=
  match finOf 64 n with
  | some i =>
    let x := k.src[i]
    if x.line then k
    else { k with src := k.src.set i { x with line := true, lastAct := now }, raised := k.raised ++ [⟨i, o⟩] }
  | none => k

/-- A level line is deasserted: its quiet period counts from here (15 R405). -/
def Collector.lower (n : Nat) (now : Nat) (k : Collector) : Collector :=
  match finOf 64 n with
  | some i =>
    let x := k.src[i]
    if x.line then { k with src := k.src.set i { x with line := false, lastAct := now } } else k
  | none => k

def Chip.raise (n : Nat) (o : Owner) (c : Chip) : Chip := { c with fc := c.fc.raise n o }
def Chip.assert (n : Nat) (o : Owner) (now : Nat) (c : Chip) : Chip := { c with fc := c.fc.assert n o now }
def Chip.lower (n : Nat) (now : Nat) (c : Chip) : Chip := { c with fc := c.fc.lower n now }

/-- A tile event of sources 0-4: raised by its tile, and captured if it is the first since VALID was cleared, or comes
before the captured one in the same cycle by tile and then by source (04 R123). -/
def Chip.tileEvent (v src info : Nat) (c : Chip) : Chip :=
  let k := c.chk
  let same := k.captValid && k.captCycle == c.cmp.cycles && c.map.run
  let lower := v < k.captTile.toNat || (v == k.captTile.toNat && src < k.captSource.toNat)
  let c := c.raise src (.tile v)
  if !k.captValid || (same && lower) then
    { c with chk := { k with captSource := BitVec.ofNat 3 src, captTile := BitVec.ofNat 9 v, captValid := true,
                             captPcc := BitVec.ofNat 32 c.cmp.pcc, captInfo := BitVec.ofNat 32 info,
                             captCycle := c.cmp.cycles } }
  else c

/-- Words that a read has corrected: counted, and source 5 (04 R119). -/
def Chip.eccCorrected (v corr : Nat) (c : Chip) : Chip :=
  if corr == 0 then c
  else { c.raise 5 (.tile v) with chk := { c.chk with corrected := satAdd c.chk.corrected corr } }

/-- Uncorrectable words, `bad` their mask in the line at tile offset `off` of virtual tile v: source 6, and the first is
captured (04 R119). -/
def Chip.eccUncorrectable (v off bad : Nat) (c : Chip) : Chip :=
  if bad == 0 then c
  else if c.chk.eccValid then c.raise 6 (.tile v)
  else { c.raise 6 (.tile v) with chk := { c.chk with
    eccOffset := BitVec.ofNat 22 (off / 256 * 256), eccTile := BitVec.ofNat 9 v, eccValid := true,
    eccWords := BitVec.ofNat 32 bad } }

/-- What a read of SRAM words reports (04 R119). -/
def Chip.eccReport (v off corr bad : Nat) (c : Chip) : Chip := (c.eccCorrected v corr).eccUncorrectable v off bad

/-- A discarded run-locked write (03 R86). -/
def Chip.cfgDiscard (off : Nat) (c : Chip) : Chip :=
  let m := c.map
  let m := if m.discValid then { m with discCount := satInc m.discCount }
    else { m with discOffset := BitVec.ofNat 16 off, discCount := 1, discValid := true }
  { c with map := m }.raise 33 .chip

/-- A route error (10 R252, R253, R255; 06 R171): counted, raised, and captured if it is the first (10 Table 10-14). -/
def Chip.routeError (cause : Nat) (port : Nat) (tile : Nat) (c : Chip) : Chip :=
  let f := c.fab
  let f := { f with routeCount := satInc f.routeCount }
  let f := if f.captValid then f
    else { f with captCause := BitVec.ofNat 4 cause, captPort := BitVec.ofNat 3 port,
                  captTile := BitVec.ofNat 9 tile, captValid := true }
  { c with fab := f }.raise 27 .chip

/-- Own physical chip number (10 R277). -/
def Chip.self (c : Chip) : Nat := c.fab.trayIdx.toNat * 16 + c.fab.slot.val

/-! Wall clock. -/

/-- Whether `d` units have passed since `t`. -/
def elapsed (y : Sys) (t d : Nat) : Bool := t + d ≤ y.now

/-- The time base runs: not in LOW-IDLE, nor in RETENTION-ONLY (16 R423). -/
def timeBaseRuns (c : Chip) : Bool := !c.pwr.lowIdle && !c.pwr.retention

/-- The core clock runs: CLK is on, and no operating-point transition has it gated or has failed (16 R426, R430). -/
def coreRuns (c : Chip) : Bool := c.domOn bitClk && timeBaseRuns c && !c.pwr.busy && !c.pwr.opFail

/-- How far the core view lies behind the GTC: 3 core cycles, in ticks (11 R283). -/
def viewLag (c : Chip) : Nat := (3 * corePeriod c.pwr.point + 11) / 12

/-- GTC ticks pass; ticks that a correction leaves out do not advance it (11 R283, R285, R287). -/
def passTicks (k : Nat) (c : Chip) : Chip :=
  if !timeBaseRuns c then c
  else
    let t := c.time
    let g := t.gtc + BitVec.ofNat 64 (k - t.skip)
    { c with time := { t with gtc := g, skip := t.skip - k, coreView := BitVec.ofNat 64 (g.toNat - viewLag c) } }

/-- Core clock edges in (a, b]. -/
def coreEdges (c : Chip) (a b : Nat) : Nat :=
  if coreRuns c then b / corePeriod c.pwr.point - a / corePeriod c.pwr.point else 0

/-! Trace (03 section 9). -/

/-- The tile that the trace records in this core cycle: from bundle 0 to the end of the run (03 R90, R94; log entry 85). -/
def Chip.tracedTile (c : Chip) : Option (Fin 320) :=
  if c.map.run && c.cmp.started && c.map.tracing && c.domOn bitDbg then
    match c.map.phys c.map.traceTile.toNat with
    | some p => if c.domOn (bitQ (quadOf p.val)) then some p else none
    | none => none
  else none

/-- Records put into the trace buffer, `n` times `w`: it stops at 4,096 records, or overwrites the oldest; FULL is 1 once 4,096
have been written (03 Tables 03-19 and 03-20). -/
def MapRegs.record (w : Dword) (n : Nat) (m : MapRegs) : MapRegs :=
  let all := m.trace ++ List.replicate (min n 4096) w
  { m with trace := if m.traceWrap then all.drop (all.length - 4096) else all.take 4096,
           traceFull := m.traceFull || decide (4096 ≤ m.trace.length + n) }

/-- A trace record of the tile, with its ISSUE and HOLD bits from bit 48 up (03 Table 03-11). -/
def traceRecord (c : Chip) (p : Fin 320) (flags : Nat) : Dword :=
  BitVec.ofNat 64 (c.cmp.pcc % 2 ^ 32 + (c.tile p).addr % 65536 * 2 ^ 32 + flags * 2 ^ 48)

/-- `n` core cycles pass in which nothing issues. -/
def traceHeld (n : Nat) (c : Chip) : Chip :=
  match c.tracedTile with
  | some p => { c with map := c.map.record (traceRecord c p 32) n }
  | none => c

/-- An event that comes at a time comes no earlier: time passes up to `t` or just after, in whole ticks: GTC, core cycles,
the search unit's work; in run state no bundle issues meanwhile, and the cycles count as lag and are traced as cycles of a
hold (log entry 45). -/
def Sys.await (t : Nat) (y : Sys) : Sys :=
  if t ≤ y.now then y
  else
    let k := (t - y.now + 11) / 12
    let n := coreEdges y.chip y.now (y.now + 12 * k)
    let c := traceHeld n (passTicks k y.chip)
    let w := if c.domOn bitSrch then BitVec.ofNat 64 n else 0
    let l := if c.map.run && c.cmp.started then BitVec.ofNat 64 n else 0
    { y with now := y.now + 12 * k,
             chip := { c with cmp := { c.cmp with cycles := c.cmp.cycles + n },
                              time := { c.time with lag := c.time.lag + l },
                              srch := { c.srch with work := c.srch.work + w } } }

/-- As `await`, where the event's other conditions hold. -/
def Sys.awaitIf (b : Bool) (t : Nat) (y : Sys) : Sys := if b then y.await t else y

/-- `n` core cycles pass, while the core clock runs. -/
def Sys.awaitCores (n : Nat) (y : Sys) : Sys :=
  let p := corePeriod y.chip.pwr.point
  y.awaitIf (coreRuns y.chip && n != 0) ((y.now / p + n) * p)

/-- Time passes until the count of core cycles is `n`. -/
def Sys.awaitCycle (n : Nat) (y : Sys) : Sys := y.awaitCores (n - y.chip.cmp.cycles)

/-- Out of run state, time passes until the search unit's work counter is `n` (12 R314). -/
def Sys.awaitWork (n : Nat) (y : Sys) : Sys :=
  if y.chip.map.run || !y.chip.domOn bitSrch then y else y.awaitCores (n - y.chip.srch.work.toNat)

/-- Time passes until the core view has reached a count. -/
def Sys.awaitView (g : Nat) (y : Sys) : Sys :=
  y.awaitIf (timeBaseRuns y.chip && decide (y.chip.time.coreView.toNat < g))
    (y.now + 12 * (g + viewLag y.chip - y.chip.time.gtc.toNat + y.chip.time.skip))

end Sys2Proof.Machine
end

