-- ==== Sys2Proof/Machine/FaultOps.lean ====
section
/-! DEFINITION. The fault collector by itself (15): latching, the first-latch capture, acknowledgement, exit classes,
escalation timers, configuration writes. The same functions serve the chip's FC block and the tray's TF_ block (R411);
what a reaction does is in Reactions.lean and in the tray's files. -/

namespace Sys2Proof.Machine

/-- The escalation time of ESC_TIMER code k in units of `now`: m × 10^((k − 1) div 3) µs (15 R402). -/
def escTime (k : Nat) : Nat :=
  let m := match (k - 1) % 3 with
    | 0 => 1
    | 1 => 2
    | _ => 5
  Config.us (m * 10 ^ ((k - 1) / 3))

/-- The quiet period of QUIET code q: 10^q µs (15 R405). -/
def quietTime (q : Nat) : Nat := Config.us (10 ^ q)

/-- A source reserved in the collector ignores everything (15 R416). -/
def definedSource (c : CollectorId) (n : Nat) : Bool :=
  match c with
  | .chip => n ≤ 52
  | .tray => n ≤ 55

/-- The single owner of a chip source, when Table 15-1 gives it one (15 R414). -/
def soleOwner (n : Nat) : Option Owner :=
  if n ≤ 26 then none
  else if n ≤ 33 then some .chip
  else if n ≤ 36 then some .hif
  else if n ≤ 39 then some .srch
  else if n ≤ 48 then some .chip
  else if n == 49 then some .csc
  else if n == 50 then some .chip
  else if n == 51 then some .crc
  else some .chip

/-- The owner of a tray source, whose reset Table 15-6 names (15 R411, Table 15-6). -/
def trayOwner (n : Nat) : Owner :=
  if h : n < 32 then .slot ⟨n % 16, by omega⟩
  else if h : n < 40 then .module ⟨n - 32, by omega⟩
  else if n == 44 then .bbu
  else if n == 48 then .tmc
  else .board

/-- An injected raise of a source with one owner is that owner's (15 R414). -/
def raiseOwner (c : CollectorId) (r : Raise) : Owner :=
  match c, r.owner with
  | .chip, .injected => (soleOwner r.src.val).getD .injected
  | .tray, .injected => trayOwner r.src.val
  | _, o => o

/-- A reaction set to apply: the source, its owners, the bits. -/
structure Reaction where
  src : SourceId
  owner : Owner
  bits : BitVec 5
  deriving DecidableEq, Repr

/-- One raise meets the collector (15 R396, R406). -/
def latchSource (o : Owner) (now : Nat) (x : Source) : Source × Bool :=
  if !x.enable then (x, false)
  else if x.status then
    ({ x with lastAct := now,
              owners := if x.owners.any fun e => e.1 == o then x.owners else x.owners ++ [(o, false)] }, false)
  else
    ({ x with status := true, acked := false, esc := false, lastAct := now,
              timer := if x.escTimer == 0 then none else some now, applied := x.primary, owners := [(o, false)] }, true)

def latchRaise (c : CollectorId) (now : Nat) (acc : Collector × List Reaction) (r : Raise) :
    Collector × List Reaction :=
  let k := acc.1
  let o := raiseOwner c r
  let x := latchSource o now k.src[r.src]
  let k := { k with src := k.src.set r.src x.1 }
  if x.2 then (k, acc.2 ++ [⟨r.src, o, x.1.primary⟩]) else (k, acc.2)

/-- Every raise that waits latches in one management cycle: the collector after it, with the first-latch capture of the
lowest source, and the primary sets to apply (15 R396, R397). -/
def latchAll (c : CollectorId) (now : Nat) (time : Dword) (k : Collector) : Collector × List Reaction :=
  let r := k.raised.foldl (latchRaise c now) ({ k with raised := [] }, [])
  match (r.2.map fun x => x.src.val).min? with
  | none => r
  | some n =>
    if r.1.firstValid then r
    else ({ r.1 with firstSource := BitVec.ofNat 6 n, firstValid := true, firstTime := time }, r.2)

/-- The bit clears: nothing of the latch is left (15 R405, R406). -/
def clearLatch (x : Source) : Source :=
  { x with status := false, acked := false, esc := false, timer := none, applied := 0, owners := [] }

/-- A RESET_ONLY source clears once it is acknowledged and every owner that raised it has been reset (15 R406). -/
def settle (x : Source) : Source :=
  if x.status && x.resetOnly && x.acked && x.owners.all (fun e => e.2) then clearLatch x else x

/-- FC_ACK of one source (15 R404). -/
def ackSource (x : Source) : Source :=
  if x.status then settle { x with acked := true, timer := none } else x

/-- A write to FC_ACK_LO or FC_ACK_HI. -/
def Collector.ack (hi : Bool) (mask : Word) (k : Collector) : Collector :=
  { k with src := Vector.ofFn fun i =>
      if (if hi then 32 ≤ i.val else i.val < 32) && mask.toNat.testBit (i.val % 32) then ackSource k.src[i]
      else k.src[i] }

/-- Whether a reset of owner `o` counts for an injected raise of source n: any reset that Table 15-2 lists for any owner of
the source (15 R414). -/
def injectedReset (o : Owner) (n : Nat) : Bool :=
  match o with
  | .tile _ => n ≤ 9
  | .port p => n == 10 + p.val || n == 18 + p.val || n == 26
  | _ => false

/-- A reset of an owner is noted in every latch that it raised (15 R406). -/
def Collector.ownerReset (o : Owner) (k : Collector) : Collector :=
  { k with src := Vector.ofFn fun i =>
      let x := k.src[i]
      if x.status then
        settle { x with owners := x.owners.map fun e =>
          if e.1 == o || (e.1 == .injected && injectedReset o i.val) then (e.1, true) else e }
      else x }

/-- AUTO_CLEAR: a latched AUTO source whose line has been quiet for its quiet period clears, and its recovery counter
advances (15 R405). -/
def Collector.autoClear (i : SourceId) (now : Nat) (k : Collector) : Collector :=
  let x := k.src[i]
  if x.status && !x.resetOnly && !x.line && x.lastAct + quietTime x.quiet.toNat ≤ now then
    { k with src := k.src.set i (clearLatch x), recov := k.recov.set i (satInc k.recov[i]) }
  else k

/-- The escalation timer of a source has run out (15 R403). -/
def timerDue (x : Source) (now : Nat) : Bool :=
  x.status && match x.timer with
    | some t => decide (t + escTime x.escTimer.toNat ≤ now)
    | none => false

/-- ESCALATION_TIMER_EXPIRY: the escalated set is applied once (15 R403). -/
def Collector.escalate (i : SourceId) (now : Nat) (k : Collector) : Collector × List Reaction :=
  let x := k.src[i]
  if timerDue x now then
    let y := { x with esc := true, timer := none, applied := x.applied ||| x.escalated }
    ({ k with src := k.src.set i y }, x.owners.map fun e => ⟨i, e.1, x.escalated⟩)
  else (k, [])

/-- A write to FC_SRCn_CFG (15 R402, R408, R409, Table 15-8). -/
def writeCfg (now : Nat) (v : Word) (x : Source) : Source :=
  let n := v.toNat
  let timerCode := if natField n 16 5 ≤ 22 then natField n 16 5 else 0
  let enable := n.testBit 31
  let resetOnly := n.testBit 24
  let timer := if x.timer.isSome && timerCode != x.escTimer.toNat then (if timerCode == 0 then none else some now)
    else x.timer
  let lastAct := if x.status && x.resetOnly && !resetOnly then max now x.lastAct else x.lastAct
  let y := { x with primary := BitVec.ofNat 5 (natField n 0 5), escalated := BitVec.ofNat 5 (natField n 8 5),
                    escTimer := BitVec.ofNat 5 timerCode, resetOnly := resetOnly,
                    quiet := BitVec.ofNat 3 (natField n 25 3), enable := enable, timer := timer, lastAct := lastAct }
  if !enable && y.status then clearLatch y else settle y

/-- The reaction bits of a collector: bit 4 of the tray's is reserved, in PRIMARY and in ESCALATED (15 Table 15-5; 00 R9). -/
def cfgWord (c : CollectorId) (v : Word) : Word :=
  match c with
  | .chip => v
  | .tray => v &&& ~~~0x1010

def Collector.writeCfg (c : CollectorId) (i : SourceId) (now : Nat) (v : Word) (k : Collector) : Collector :=
  if definedSource c i.val then { k with src := k.src.set i (Machine.writeCfg now (cfgWord c v) k.src[i]) } else k

/-- FC_SRCn_CFG as read. -/
def readCfg (x : Source) : Word :=
  BitVec.ofNat 32 (x.primary.toNat + x.escalated.toNat * 2 ^ 8 + x.escTimer.toNat * 2 ^ 16
    + (if x.resetOnly then 2 ^ 24 else 0) + x.quiet.toNat * 2 ^ 25 + (if x.enable then 2 ^ 31 else 0))

/-- FC_INJECT: one event pulse of a defined source (15 R414). -/
def Collector.inject (c : CollectorId) (v : Word) (k : Collector) : Collector :=
  let n := natField v.toNat 0 6
  if definedSource c n then k.raise n .injected else k

/-- ERR_N is driven low while a set bit has ERR_PIN in a set already applied to its latch (15 R410). -/
def Collector.errPin (k : Collector) : Bool := k.src.toList.any fun x => x.status && x.applied.toNat.testBit 4

/-- A word of 32 status-like bits. -/
def sourceBits (f : Source → Bool) (hi : Bool) (k : Collector) : Word :=
  let base := if hi then 32 else 0
  BitVec.ofNat 32 ((List.range 32).foldl (fun acc i =>
    match finOf 64 (base + i) with
    | some j => if f k.src[j] then acc + 2 ^ i else acc
    | none => acc) 0)

end Sys2Proof.Machine
end

