-- ==== Sys2Proof/Machine/HifOps.lean ====
section
/-! DEFINITION. What the host interface shares with the rest of the chip: error captures, completions, the input mailbox,
and what a reset of the interface and the end of a run do to it (13). -/

namespace Sys2Proof.Machine

/-- An event of sources 34-36: raised, counted in the capture if it is the first since VALID was cleared (13 R370). -/
def Chip.hifErr (src cause : Nat) (q : QpId) (c : Chip) : Chip :=
  let h := c.hif
  let h := if h.errValid then h
    else { h with errCause := BitVec.ofNat 4 cause, errQp := BitVec.ofNat 5 q.val, errValid := true }
  { c with hif := h }.raise src .hif

/-- A write or completion that reaches the host write path while the link is down (13 R371). -/
def Chip.hifDrop (q : QpId) (c : Chip) : Chip :=
  let c := { c with hif := { c.hif with dropCount := satInc c.hif.dropCount } }
  if c.hif.downRaised then c
  else { c with hif := { c.hif with downRaised := true } }.hifErr 35 9 q

def sqSize (x : QueuePair) : Nat := 2 ^ x.sqLog2.toNat
def cqSize (x : QueuePair) : Nat := 2 ^ x.cqLog2.toNat

/-- The CQ is full (13 R350). -/
def cqFull (x : QueuePair) : Bool := (x.cqTail + 1) % cqSize x == x.cqHead

/-- The queue pair posts completions: ENABLED or ERROR (13 R367). -/
def qpPosts (x : QueuePair) : Bool := x.state == 1 || x.state == 3

/-- A completion for a queue pair waits in the completion buffer for its post, from core cycle count `due` on; one that finds
the buffer full is discarded (13 R367, R369, R371). -/
def postFrom (due : Nat) (q : QpId) (cid status r0 r1 r2 : Nat) (c : Chip) : Chip :=
  let x := c.qp q
  if !qpPosts x then c
  else if !c.hif.linkUp then c.hifDrop q
  else if 64 ≤ c.hif.cbuf.length then c.hifErr 34 7 q
  else { c with hif := { c.hif with cbuf := c.hif.cbuf ++ [⟨q, cid, status, r0, r1, r2, due⟩] } }

/-- A completion that can go at once. -/
def postCompletion (q : QpId) (cid status r0 r1 r2 : Nat) (c : Chip) : Chip := postFrom 0 q cid status r0 r1 r2 c

/-! Identity (13 R342). -/

/-- What a host's configuration reads name the function by. -/
structure PciIdentity where
  vendor : BitVec 16
  device : BitVec 16
  classCode : BitVec 24
  revision : BitVec 8
  subVendor : BitVec 16
  subsystem : BitVec 16
  deriving DecidableEq, Repr

/-- The subsystem ID follows the fused grade. -/
def Chip.pciIdentity (c : Chip) : PciIdentity :=
  { vendor := 0x1F3D, device := 0x0520, classCode := 0x120000, revision := 0xB0, subVendor := 0x1F3D,
    subsystem := match c.map.grade.val with
      | 0 => 0x0320
      | 1 => 0x0288
      | _ => 0x0256 }

/-- What a read of `n` bytes at any offset of a doorbell page returns (13 R347); no row of the opcode table reads one. -/
def doorbellRead (_q : QpId) (_offset n : Nat) : List Byte := List.replicate n 0

/-- An unsupported request is recorded through Advanced Error Reporting (13 R346). -/
def Chip.aerRecord (c : Chip) : Chip := { c with hif := { c.hif with pcie := { c.hif.pcie with aerUr := true } } }

/-! The host write path (13 R363). -/

/-- Cycles from the host-attached tile's edge to the last byte at the link layer: 80, or 84 for more than 128 bytes at a Max
Payload Size of 128 (08 R216, 13 R344), for a result line as for an HWRITE (DEDUCED, log entry 97). -/
def exitCycles (c : Chip) (n : Nat) : Nat := if c.hif.pcie.maxPayload == 0 && 128 < n then 84 else 80

/-- Write a leaves before write b: it issued first, or in one cycle from a lower virtual tile (13 R363; that tie is a DESIGN CHOICE, log
entry 113). -/
def leavesBefore (a b : HostWrite) : Bool := a.issued < b.issued || (a.issued == b.issued && a.src < b.src)

def insertWrite (w : HostWrite) : List HostWrite → List HostWrite
  | [] => [w]
  | x :: xs => if leavesBefore w x then w :: x :: xs else x :: insertWrite w xs

/-- A write takes its place on the path, which holds its writes in the order in which they leave. -/
def putWrite (w : HostWrite) (c : Chip) : Chip := { c with hif := { c.hif with writes := insertWrite w c.hif.writes } }

/-- The queue pair of a request handle (13 Table 13-7). -/
def handleQp (h : Word) : QpId := (finOf 32 (natField h.toNat 16 5)).getD 0

/-- A write that is discarded because the link is down: it and the completion it asks for are counted (13 R371). -/
def dropWrite (handle : Option (Word × Dword)) (c : Chip) : Chip :=
  match handle with
  | some h => (c.hifDrop (handleQp h.1)).hifDrop (handleQp h.1)
  | none => c.hifDrop 0

/-! Descriptors (13 Table 13-4). -/

def descByte (d : List Byte) (i : Nat) : Nat := (d.getD i 0).toNat
def descNat (d : List Byte) (i n : Nat) : Nat := leNat ((d.drop i).take n)
def descOp (d : List Byte) : Nat := descByte d 0
def descAck (d : List Byte) : Bool := (descByte d 1).testBit 0
def descInline (d : List Byte) : Bool := (descByte d 1).testBit 1
def descCid (d : List Byte) : Nat := descNat d 2 2
def descLen (d : List Byte) : Nat := descNat d 4 4
def descHaddr (d : List Byte) : Nat := descNat d 8 8
def descTaddr (d : List Byte) : Nat := descNat d 16 8

def QEntry.bytes (e : QEntry) : List Byte := e.desc.getD []

def findEntry (x : QueuePair) (index : Nat) : Option QEntry := x.entries.find? fun e => e.index == index

def Chip.onEntry (q : QpId) (index : Nat) (f : QEntry → QEntry) (c : Chip) : Chip :=
  c.onQp q fun x => { x with entries := x.entries.map fun e => if e.index == index then f e else e }

/-- The entry ends with no completion of its own. -/
def dropEntry (q : QpId) (index : Nat) (c : Chip) : Chip :=
  c.onQp q fun x => { x with entries := x.entries.filter fun e => e.index != index }

/-- The entry ends with a completion. -/
def endEntry (q : QpId) (e : QEntry) (status r0 r1 r2 : Nat) (c : Chip) : Chip :=
  postCompletion q (descCid e.bytes) status r0 r1 r2 (dropEntry q e.index c)

/-! Input mailbox (13 section 5). -/

/-- The host-attached tile: virtual row 8, column 0 (03 Table 03-1). -/
def MapRegs.hostTile (m : MapRegs) : Nat := 8 * m.vc

/-- Whether a channel is the mailbox channel: CH3 of the host-attached tile (13 R360). -/
def isMailbox (m : MapRegs) (v : Nat) (ch : Chan) : Bool := m.vc != 0 && v == m.hostTile && ch.val == 3

/-- CID and queue pair of a mailbox line (13 Table 13-6). -/
def mailCid (l : Line) : Nat := l.leNat 4 2
def mailQp (l : Line) : QpId := (finOf 32 (l.byte 1).toNat).getD 0

/-- The admission receive pops the oldest line readable now, with ADMITTED if the INPUT asked for it; zeros when there is
none (01 R24, 13 R360, R362). -/
def mailPop (c : Chip) : Line × Chip :=
  let ready := fun (x : MailLine) => decide (x.readyAt ≤ c.cmp.cycles)
  match c.hif.mailbox.find? ready with
  | none => (Line.zero, c)
  | some x =>
    let c := { c with hif := { c.hif with mailbox := c.hif.mailbox.eraseP ready } }
    (x.line, if x.ack then postCompletion (mailQp x.line) (mailCid x.line) 1 c.time.coreView.toNat 0 0 c else c)

/-! What the ends of runs and resets do (13 R356, R358, R362, R371). -/

/-- The accepted LAUNCH of the run completes OK, or ABORTED with cause and aborter (13 R356). -/
def endLaunch (aborted : Bool) (c : Chip) : Chip :=
  (List.finRange 32).foldl (fun c q =>
    ((c.qp q).entries.filter fun e => e.started && descOp e.bytes == 4).foldl (fun c e =>
      if aborted then endEntry q e 13 c.time.abortCause.toNat c.time.aborter.toNat e.seq c
      else endEntry q e 0 0 0 e.seq c) c) c

/-- The chip leaves run state: the launch completes, and every line still in the mailbox completes DROPPED (13 R356,
R362). -/
def hifRunEnd (aborted : Bool) (c : Chip) : Chip :=
  let c := endLaunch aborted c
  let c := c.hif.mailbox.foldl (fun c x => postCompletion (mailQp x.line) (mailCid x.line) 20 0 0 0 c) c
  { c with hif := { c.hif with mailbox := [] } }

/-- A host search request that is refused or abandoned completes REFUSED (13 R358). -/
def refuseSearch (q : QpId) (index : Nat) (c : Chip) : Chip :=
  match findEntry (c.qp q) index with
  | some e => endEntry q e 15 0 0 0 c
  | none => c

def refuseReq (r : SearchReq) (c : Chip) : Chip :=
  match r.origin with
  | .host q index => refuseSearch q index c
  | .tile _ _ => c

/-- Every host request queued or in service is abandoned (12 R317, 13 R358). -/
def hifRefuseSearches (c : Chip) : Chip :=
  let c := c.srch.queue.foldl (fun c r => refuseReq r c) c
  match c.srch.active with
  | some a => refuseReq a.req c
  | none => c

/-- A queue pair as a reset of the interface leaves it; its base, size and interrupt registers stay. -/
def disableQp (x : QueuePair) : QueuePair :=
  { x with enable := false, state := 0, entries := [], irqCount := 0, irqSince := none }

def msixReset : Vector MsixEntry 33 := Vector.replicate 33 ⟨0, 0, true, false⟩

/-- Every queue pair is disabled, mailbox and completion buffer are emptied with no completion posted, the MSI-X table is
reset, and segments of the queue pairs that have no tag are dropped (13 R371). -/
def hifDisable (c : Chip) : Chip :=
  { c with
    hif := { c.hif with qps := c.hif.qps.map disableQp, mailbox := [], cbuf := [], reads := [], msix := msixReset },
    fab := { c.fab with waiting := [] } }

/-- Every HIF register but HIF_CFG resets (13 R373). -/
def hifRegsReset (c : Chip) : Chip :=
  { c with hif := { HostIf.reset with bar4En := c.hif.bar4En, bar4On := c.hif.bar4On, writes := c.hif.writes,
                                      linkUp := c.hif.linkUp, downRaised := c.hif.downRaised, pcie := c.hif.pcie } }

end Sys2Proof.Machine
end

