-- ==== Sys2Proof/Machine/LinkFrame.lean ====
section
/-! DEFINITION. The link frame (09 section 3): its 272 bytes, the CRC of R226 and the two Reed-Solomon codes of R227. -/

namespace Sys2Proof.Machine

/-- One bit of the CRC of R226, most significant first. -/
def crcBit (crc : Nat) (bit : Bool) : Nat :=
  let top := crc.testBit 15 != bit
  let c := (crc * 2) % 65536
  if top then c ^^^ 0x8BB7 else c

def crcByte (crc : Nat) (b : Byte) : Nat :=
  [7, 6, 5, 4, 3, 2, 1, 0].foldl (fun c i => crcBit c (b.toNat.testBit i)) crc

/-- The 16-bit CRC with polynomial x¹⁶ + x¹⁵ + x¹¹ + x⁹ + x⁸ + x⁷ + x⁵ + x⁴ + x² + x + 1 from 0xFFFF (09 R226). -/
def crc16 (bs : List Byte) : Nat := bs.foldl crcByte 0xFFFF

/-- Multiplication by x in GF(2⁸) with x⁸ + x⁴ + x³ + x² + 1 (09 R227). -/
def gfX (a : Nat) : Nat := if a.testBit 7 then ((a * 2) % 256) ^^^ 0x1D else a * 2

def gfMulAux (a : Nat) : Nat → Nat → Nat → Nat
  | 0, _, acc => acc
  | n + 1, b, acc => gfMulAux (gfX a) n (b / 2) (if b % 2 == 1 then acc ^^^ a else acc)

/-- Multiplication in GF(2⁸). -/
def gfMul (a b : Nat) : Nat := gfMulAux a 8 b 0

def gfPow (n : Nat) : Nat := (List.range n).foldl (fun a _ => gfX a) 1

/-- The two syndromes of a codeword, its first byte the coefficient of highest degree (log entry 23): at α⁰ and α¹. -/
def rsSyndromes (cw : List Nat) : Nat × Nat :=
  cw.foldl (fun s c => (s.1 ^^^ c, gfX s.2 ^^^ c)) (0, 0)

/-- Parity bytes p0, p1 of 134 data bytes: the codeword d ++ [p0, p1] has both syndromes 0. With the syndromes s0, s1 of
d ++ [0, 0]: p0 + p1 = s0 and α p0 + p1 = s1, so p0 = (s0 + s1) / (1 + α); 1 + α = α²⁵, whose inverse is α²³⁰. -/
def rsParity (d : List Nat) : Nat × Nat :=
  let s := rsSyndromes (d ++ [0, 0])
  let p0 := gfMul (s.1 ^^^ s.2) (gfPow 230)
  (p0, s.1 ^^^ p0)

/-- The position from the end at which an error of syndromes s0, s1 lies: s1 = s0 × α^k. -/
def rsLocate (s0 s1 : Nat) : Nat → Nat → Nat → Option Nat
  | 0, _, _ => none
  | fuel + 1, k, x => if x == s1 then some k else rsLocate s0 s1 fuel (k + 1) (gfX x)

/-- A codeword corrected: none when it does not decode with at most one correction, otherwise the codeword and the index
of the corrected byte (09 R227, R228). -/
def rsDecode (cw : List Nat) : Option (List Nat × Option Nat) :=
  let s := rsSyndromes cw
  if s.1 == 0 && s.2 == 0 then some (cw, none)
  else if s.1 == 0 then none
  else
    match rsLocate s.1 s.2 cw.length 0 s.1 with
    | none => none
    | some k =>
      let i := cw.length - 1 - k
      some (cw.set i (cw.getD i 0 ^^^ s.1), some i)

/-- Codeword j of a frame: frame bytes 2k + j for k from 0 to 135, the parity bytes last (09 R227). -/
def codeword (frame : List Byte) (j : Nat) : List Nat :=
  (List.range 136).map fun k => (frame.getD (2 * k + j) 0).toNat

/-- LCTL (09 Table 09-4). -/
structure Lctl where
  ackSeq : BitVec 10
  nak : Bool
  xoff : Bool
  typ : BitVec 3
  rpl : Bool
  deriving DecidableEq, Repr

def Lctl.toNat (l : Lctl) : Nat :=
  l.ackSeq.toNat + (if l.nak then 2 ^ 10 else 0) + (if l.xoff then 2 ^ 11 else 0) + l.typ.toNat * 2 ^ 12
    + (if l.rpl then 2 ^ 15 else 0)

def Lctl.ofNat (n : Nat) : Lctl :=
  { ackSeq := BitVec.ofNat 10 n, nak := n.testBit 10, xoff := n.testBit 11, typ := BitVec.ofNat 3 (n / 2 ^ 12),
    rpl := n.testBit 15 }

/-- The sequence number's two bytes, then frame bytes 0-265 (09 R226). -/
def crcInput (seq : BitVec 10) (frame : List Byte) : List Byte := leBytes 2 seq.toNat ++ frame.take 266

/-- The 272 bytes of a frame with sequence number `seq` (09 Table 09-3). -/
def encodeFrame (seq : BitVec 10) (l : Lctl) (payload : Line) (msg : Dword) : List Byte :=
  let body := payload.bytes ++ leBytes 8 msg.toNat ++ leBytes 2 l.toNat
  let d := body ++ leBytes 2 (crc16 (crcInput seq body))
  let p0 := rsParity ((List.range 134).map fun k => (d.getD (2 * k) 0).toNat)
  let p1 := rsParity ((List.range 134).map fun k => (d.getD (2 * k + 1) 0).toNat)
  d ++ [p0.1, p1.1, p0.2, p1.2].map fun x => BitVec.ofNat 8 x

/-- What the FEC makes of a received frame: the frame bytes after it, the frame bytes corrected, and whether each codeword
decodes (09 R227, R228). -/
structure FecResult where
  bytes : List Byte
  fixed : List Nat
  ok : Bool
  deriving DecidableEq, Repr

/-- Each codeword is corrected on its own; one that does not decode stays as received. -/
def fecDecode (frame : List Byte) : FecResult :=
  let r := fun j => rsDecode (codeword frame j)
  let word := fun j => ((r j).map fun x => x.1).getD (codeword frame j)
  let fixed := fun j => match r j with
    | some (_, some k) => [2 * k + j]
    | _ => []
  { bytes := (List.range 136).flatMap fun k =>
      [BitVec.ofNat 8 ((word 0).getD k 0), BitVec.ofNat 8 ((word 1).getD k 0)],
    fixed := fixed 0 ++ fixed 1, ok := (r 0).isSome && (r 1).isSome }

/-- The corrected frame passes the CRC against a sequence number (09 R228). -/
def crcPasses (seq : BitVec 10) (frame : List Byte) : Bool :=
  crc16 (crcInput seq frame) == leNat ((frame.drop 266).take 2)

def frameLctl (frame : List Byte) : Lctl := Lctl.ofNat (leNat ((frame.drop 264).take 2))

def frameOf (frame : List Byte) : Frame :=
  { typ := (frameLctl frame).typ, payload := Line.ofBytes (frame.take 256),
    msg := BitVec.ofNat 64 (leNat ((frame.drop 256).take 8)) }

end Sys2Proof.Machine
end

