-- ==== Sys2Proof/Machine/TileOps.lean ====
section
/-! DEFINITION. What every tile operation shares: when a tile issues, predicates, illegal bundles, the strainer's register
checks, results in flight and their landing, effective addresses, and the SRAM ports (04, 05 section 1, 08). -/

namespace Sys2Proof.Machine

/-! Latency classes (05 Table 05-2, 08 Table 08-1). -/

inductive LatClass where
  | ku | pl | al | am | pc | ag | ld | st | wl | mm | mv | vs | vf | vc | vr | vt | vp | ns | nr | nrSram
  deriving DecidableEq, Repr

/-- λ of a class; `far` is whether the operation accesses far SRAM (08 Table 08-1). -/
def latency (k : LatClass) (far : Bool) : Nat :=
  let near := match k with
    | .ku | .pl | .al | .pc | .ns | .nr => 1
    | .am => 3
    | .ag | .mv | .vs | .vp => 2
    | .ld => 4
    | .st => 3
    | .wl | .mm => 5
    | .vf => 4
    | .vc => 3
    | .vr => 6
    | .vt => 8
    | .nrSram => 3
  match k with
  | .ld | .st | .wl | .nrSram => if far then near + 1 else near
  | _ => near

/-- Activity units of an issued operation (16 R438). -/
def activityOf (k : LatClass) : Nat :=
  match k with
  | .mm => 4
  | .wl => 2
  | .ld | .st | .vf | .vc | .vr | .vt => 1
  | _ => 0

/-! Issue (04 R99, R103, R104). -/

/-- T is reached (06 section 9). -/
def gtcReached (view : Dword) (t : Word) : Bool :=
  let x : Word := BitVec.setWidth 32 view - t
  x.toNat < 2 ^ 31

/-- A hold stops the bundle at the present PCC value: a WAIT receive's line is late (04 R105), the T of a WAIT_GTC of an
earlier bundle is not reached in the core view (06 R177), a partner's XOFF holds a port (10 R272), or a brownout does (16). -/
def Chip.holding (c : Chip) : Bool :=
  c.cmp.holds.any (fun h => h.bundle ≤ c.cmp.pcc &&
      match h.resume with
      | none => true
      | some r => decide (c.cmp.cycles < r))
    || c.cmp.waits.any (fun w => decide (w.issued < c.cmp.pcc) && !gtcReached c.time.coreView w.t)
    || c.fab.ports.toList.any (fun p => p.holdReq)
    || c.brownout

/-- The chip issues the bundle of the present PCC value. -/
def Chip.issuing (c : Chip) : Bool := c.map.run && c.cmp.started && !c.holding

/-- The physical tile that virtual tile v names, if its quadrant domain is on (16). -/
def Chip.liveTile (c : Chip) (v : Nat) : Option (Fin 320) :=
  match c.map.phys v with
  | some p => if c.domOn (bitQ (quadOf p.val)) then some p else none
  | none => none

/-- The tile issues no more: after the bundle that holds END, or after a block reset (05 R142, 04 R124). -/
def Tile.over (t : Tile) (pcc : Nat) : Bool := t.blocked || (t.ended && !(t.use.ends && t.use.pcc == pcc))

/-- The tile issues program operations (05 R142, 04 R124). -/
def Chip.canIssue (c : Chip) (v : TileId) : Option (Fin 320) :=
  if c.issuing then
    match c.liveTile v.val with
    | some p => if (c.tile p).over c.cmp.pcc then none else some p
    | none => none
  else none

/-! Destinations. -/

/-- The register a result writes. PD0 discards what is written to it and is never counted as a destination (04 R98, 05
R132). -/
def Dest.reg : Dest → Option RegName
  | .v r _ => some (.v r)
  | .a r _ => some (.a r)
  | .k r _ => some (.k r)
  | .pd r _ => if r.val == 0 then none else some (.pd r)
  | .ma r _ => some (.ma r)
  | .wRows wb _ _ _ => some (.w wb)
  | .wPlane wb _ _ _ => some (.w wb)
  | .wScales wb _ => some (.w wb)
  | .sram _ _ _ => none
  | .send _ => none

/-- CLASS and INDEX of a register in FC_TILE_CAPT_INFO (04 Tables 04-13, 04-14). -/
def RegName.code : RegName → Nat × Nat
  | .v r => (0, r.val)
  | .a r => (1, r.val)
  | .k r => (2, r.val)
  | .pd r => (3, r.val)
  | .w r => (4, r.val)
  | .ma r => (5, r.val)

/-- The use record of the bundle that is issuing. -/
def Chip.useNow (c : Chip) (p : Fin 320) : BundleUse :=
  let u := (c.tile p).use
  if u.pcc == c.cmp.pcc then u else { BundleUse.none with pcc := c.cmp.pcc, before := (c.tile p).loops }

/-- PD0 is never counted as a destination (05 R132). -/
def countedDests (ds : List RegName) : List RegName := ds.filter fun d => d != .pd 0

/-- Two operations of one bundle, or one operation twice, name one destination (04 R122). -/
def duplicateDest (named ds : List RegName) : Bool :=
  (countedDests ds).any (fun d => named.contains d) || !decide ((countedDests ds).Nodup)

/-- Strainer code 1: a register read while an earlier result for it is in flight (04 Table 04-6). -/
def strainReads (v : TileId) (p : Fin 320) (reads : List RegName) (c : Chip) : Chip :=
  if c.chk.strain then
    match reads.find? fun r => (c.tile p).flight.any fun f =>
        f.dest.reg == some r && f.issued < c.cmp.pcc && c.cmp.pcc < f.land with
    | some r => c.tileEvent v.val 3 (1 + r.code.1 * 8 + r.code.2 * 64)
    | none => c
  else c

/-- Put a result in flight, landing λ bundles after this one (04 R99). -/
def addFlight (p : Fin 320) (d : Dest) (lam : Nat) (c : Chip) : Chip :=
  c.onTile p fun t => { t with flight := t.flight ++ [{ issued := c.cmp.pcc, land := c.cmp.pcc + lam, dest := d }] }

/-- The first register in which two results of the list land, of those that land together. -/
def landsTwice : List Flight → Option RegName
  | [] => none
  | f :: fs =>
    match f.dest.reg with
    | some r => if fs.any fun g => g.dest.reg == some r then some r else landsTwice fs
    | none => landsTwice fs

/-- Strainer code 2: two results land in one register at the end of the present cycle (04 R101, Table 04-6). -/
def strainLandings (v : TileId) (p : Fin 320) (c : Chip) : Chip :=
  if c.chk.strain then
    match landsTwice ((c.tile p).flight.filter fun f => f.land == c.cmp.pcc + 1) with
    | some r => c.tileEvent v.val 3 (2 + r.code.1 * 8 + r.code.2 * 64)
    | none => c
  else c

/-- Activity counted for the quadrant of a tile (16 R438). -/
def onActivity (p : Fin 320) (f : Nat → Nat) (c : Chip) : Chip :=
  match finOf 4 (quadOf p.val) with
  | some q =>
    let g := c.pwr.gov[q]
    { c with pwr := { c.pwr with gov := c.pwr.gov.set q { g with activity := f g.activity } } }
  | none => c

/-- Activity of an issued operation (16 R438). -/
def addActivity (p : Fin 320) (k : LatClass) (c : Chip) : Chip :=
  onActivity p (fun n => n + activityOf k)
    (c.onTile p fun t => { t with use := { t.use with activity := t.use.activity + activityOf k } })

/-! Loops (05 R140). -/

/-- Loops left when a LOOP on k starts: the loop on k and every loop started after it end (05 R140). -/
def endLoopsOn (k : KReg) (loops : List ActiveLoop) : List ActiveLoop :=
  if loops.any fun l => l.k == k then (loops.dropWhile fun l => l.k != k).drop 1 else loops

/-- The loop test of R140 at bundle address `e`: the K registers to write, the loops left, and the start of the loop that
repeats, if one does. -/
def loopTest (t : Tile) (e : Nat) : List ActiveLoop → List (KReg × Word) × List ActiveLoop × Option Nat
  | [] => ([], [], none)
  | l :: rest =>
    if l.last != e then ([], l :: rest, none)
    else if (t.k[l.k]).toNat ≤ 1 then
      let r := loopTest t e rest
      ((l.k, 0) :: r.1, r.2.1, r.2.2)
    else ([(l.k, t.k[l.k] - 1)], l :: rest, some l.start)

/-- The active loops of a tile in a bundle: those before it, after its loop test if that is made, and then its LOOP. -/
def bundleLoops (t : Tile) (u : BundleUse) : List ActiveLoop :=
  let left := if u.tested then (loopTest t t.addr u.before).2.1 else u.before
  match u.begun with
  | some l => l :: endLoopsOn l.k left
  | none => left

/-- The K registers that the loop test writes; a LOOP of the bundle on one of them takes effect after the test. -/
def testFlights (p : Fin 320) (u : BundleUse) (c : Chip) : Chip :=
  let t := c.tile p
  ((loopTest t t.addr u.before).1.filter fun kx => (u.begun.map fun l => l.k) != some kx.1).foldl
    (fun c kx => addFlight p (.k kx.1 kx.2) (latency .ku false) c) c

/-! Illegal bundles (04 R122). -/

/-- A forecast is taken back, unless another has replaced it. -/
def undoRamp (x : QuadId × Forecast × Option Forecast) (c : Chip) : Chip :=
  let g := c.pwr.gov[x.1]
  if g.forecast == some x.2.1 then
    { c with pwr := { c.pwr with gov := c.pwr.gov.set x.1 { g with forecast := x.2.2 } } }
  else c

/-- The captures as they stand. -/
def TileChecks.captures (k : TileChecks) : Captures :=
  { source := k.captSource, tile := k.captTile, valid := k.captValid, pcc := k.captPcc, info := k.captInfo,
    cycle := k.captCycle, eccOffset := k.eccOffset, eccTile := k.eccTile, eccValid := k.eccValid, eccWords := k.eccWords }

/-- The captures put back to what they were, each where it is the one that tile v has made in this cycle. -/
def TileChecks.restore (v cycle : Nat) (x : Captures) (k : TileChecks) : TileChecks :=
  let k := if k.captTile.toNat == v && k.captCycle == cycle && k.captValid then
      { k with captSource := x.source, captTile := x.tile, captValid := x.valid, captPcc := x.pcc, captInfo := x.info,
               captCycle := x.cycle }
    else k
  if k.eccTile.toNat == v && k.eccValid && !x.eccValid then
    { k with eccOffset := x.eccOffset, eccTile := x.eccTile, eccValid := x.eccValid, eccWords := x.eccWords }
  else k

/-- The latest raise of a source by a tile, not latched yet, is taken back. -/
def unraise (v : TileId) (src : Nat) (c : Chip) : Chip :=
  match finOf 64 src with
  | some i => { c with fc := { c.fc with raised := (c.fc.raised.reverse.erase ⟨i, .tile v.val⟩).reverse } }
  | none => c

/-- What an operation has raised, counted and captured is noted in its bundle's record, so that an illegal bundle raises
source 4 alone (04 R122, When events coincide). -/
def noteEvents (v : TileId) (p : Fin 320) (before c : Chip) : Chip :=
  let new := (c.fc.raised.drop before.fc.raised.length).filterMap fun r =>
    if r.owner == .tile v.val then some r.src.val else none
  let k := c.chk
  if new.isEmpty then c
  else
    let u := c.useNow p
    let kept := if k.captures == before.chk.captures then u.captures else some (u.captures.getD before.chk.captures)
    c.onTile p fun t => { t with use :=
      { u with raised := u.raised ++ new, corrected := u.corrected + (k.corrected.toNat - before.chk.corrected.toNat),
               captures := kept } }

/-- What the bundle's earlier operations have raised, counted and captured is taken back (04 R122). -/
def undoEvents (v : TileId) (u : BundleUse) (c : Chip) : Chip :=
  let c := u.raised.foldl (fun c n => unraise v n c) c
  let k := { c.chk with corrected := c.chk.corrected - BitVec.ofNat 32 u.corrected }
  { c with chk := match u.captures with
      | some x => k.restore v.val c.cmp.cycles x
      | none => k }

/-- The bundle issues as five NOPs: what its earlier slots have begun is undone, its later ones do nothing, and only its
loop test stands. Source 4 with the slot and the bundle address (04 R122, Table 04-14; log entry 47). -/
def illegalBundle (v : TileId) (p : Fin 320) (slot : Nat) (c : Chip) : Chip :=
  let u := c.useNow p
  let u' : BundleUse := { BundleUse.none with pcc := u.pcc, void := true, before := u.before,
                                              tested := u.tested, ext := u.ext }
  let c := u.ramps.foldl (fun c x => undoRamp x c) (onActivity p (fun n => n - u.activity) (undoEvents v u c))
  let c := c.onTile p fun t =>
    { t with use := u', loops := bundleLoops t u', ended := t.ended && !u.ends,
             flight := t.flight.filter fun f => f.issued != c.cmp.pcc,
             transfers := t.transfers.filter fun x => x.issued != c.cmp.pcc }
  let c := { c with cmp := { c.cmp with waits := c.cmp.waits.filter fun w =>
    !(w.tile == v.val && w.issued == c.cmp.pcc) } }
  let c := if u.tested then testFlights p u' c else c
  c.tileEvent v.val 4 (slot + ((c.tile p).addr % 65536) * 65536)

/-- The bundle that the tile issues next is fetched: the words it reads are reported, and one that is uncorrectable makes
it issue as five NOPs (04 R119, When events coincide). -/
def fetchBundle (ecc : List (Nat × EccMark)) (c : Chip) (v : TileId) : Chip :=
  match c.liveTile v.val with
  | none => c
  | some p =>
    let t := c.tile p
    if t.over c.cmp.pcc || 32768 ≤ t.addr then c
    else
      let off := t.addr * 32
      let r := Ecc.check ecc ((tileBase p.val + off) / 8) 4
      let c := c.eccReport v.val off r.1 (r.2 * 2 ^ (off % 256 / 8))
      if r.2 == 0 then c else illegalBundle v p 7 c

def fetchBundles (ecc : List (Nat × EccMark)) (c : Chip) : Chip :=
  if ecc.isEmpty then c else (List.finRange 320).foldl (fetchBundle ecc) c

/-- The bundle's record counts an operation of a slot. -/
def notes (slot : Nat) (u : BundleUse) : BundleUse := { u with slots := u.slots ++ [slot] }

/-- The chip in which the effect of an operation happens: its destinations and its activity counted, its registers
checked. -/
def issued (v : TileId) (p : Fin 320) (slot : Nat) (pred : PReg) (k : LatClass) (dests reads : List RegName) (c : Chip) :
    Chip :=
  let u := notes slot (c.useNow p)
  let c := c.onTile p fun t => { t with use :=
    { u with named := u.named ++ countedDests dests, namedBy := u.namedBy ++ (countedDests dests).map fun d => (d, slot) } }
  addActivity p k (strainReads v p (.pd pred :: reads) c)

/-- The lowest slot that holds the illegal content: that of an operation which is illegal, or the lowest of the slots that
name one destination (04 Table 04-14). -/
def illegalSlot (u : BundleUse) (slot : Nat) (legal : Bool) (dests : List RegName) : Nat :=
  if legal then
    ((u.namedBy.filter fun x => (countedDests dests).contains x.1).map fun x => x.2).foldl min slot
  else slot

/-- One slot operation: nothing when the tile does not issue, or the bundle is illegal; source 4 and no effect when the
operation is illegal or names a destination twice (04 R122); otherwise its destinations are counted, and its effect happens
if its predicate reads 1 (04 R98, 05 R129). -/
def issue (v : TileId) (slot : Nat) (pred : PReg) (k : LatClass) (legal : Bool) (dests reads : List RegName)
    (body : Fin 320 → Chip → Chip) (c : Chip) : Chip :=
  match c.canIssue v with
  | none => c
  | some p =>
    let u := c.useNow p
    if u.void then c
    else if !legal || duplicateDest u.named dests then
      illegalBundle v p (illegalSlot u slot legal dests) (c.onTile p fun t => { t with use := u })
    else
      let d := issued v p slot pred k dests reads c
      noteEvents v p c (if (d.tile p).pd[pred] then body p d else d)

/-- A slot operation whose only effect is one result (most of the C, L, M and V slots). -/
def issueResult (v : TileId) (slot : Nat) (pred : PReg) (k : LatClass) (legal : Bool) (dests reads : List RegName)
    (result : Tile → List Dest) (c : Chip) : Chip :=
  issue v slot pred k legal dests reads
    (fun p c => (result (c.tile p)).foldl (fun c d => addFlight p d (latency k false) c) c) c

/-! Effective addresses (05 R144, 06 R161). -/

/-- EA of R144: bits [7:0] zero. -/
def lineEA (t : Tile) (a : LineAddr) : Nat :=
  let x : Int := (t.a[a.aa].toNat : Int) + a.off.toInt * 256
  (x % 0x400000).toNat / 256 * 256

/-- The INC update of R144, if INC is nonzero. -/
def lineInc (t : Tile) (a : LineAddr) : List Dest :=
  if a.inc == 0 then [] else [.a a.aa (BitVec.ofInt 32 ((t.a[a.aa].toNat : Int) + a.inc.toInt * 256))]

def lineDests (a : LineAddr) : List RegName := if a.inc == 0 then [] else [.a a.aa]

/-- EA of R161. -/
def bankEA (t : Tile) (a : BankAddr) : Nat :=
  let x : Int := (t.a[a.aa].toNat : Int) + a.off.toInt * 256
  a.sb.val * 0x40000 + (x % 0x40000).toNat / 256 * 256

/-- The INC update of R161: bits [31:18] unchanged. -/
def bankInc (t : Tile) (a : BankAddr) : List Dest :=
  if a.inc == 0 then []
  else
    let x := t.a[a.aa].toNat
    let low : Int := (((x : Int) + a.inc.toInt * 256) % 0x40000)
    [.a a.aa (BitVec.ofNat 32 (x / 0x40000 * 0x40000 + low.toNat))]

def bankDests (a : BankAddr) : List RegName := if a.inc == 0 then [] else [.a a.aa]

/-- Far SRAM: sub-banks 4-15 (03 R76). -/
def isFar (off : Nat) : Bool := 0x100000 ≤ off

def subBank (off : Nat) : Nat := off / 0x40000 % 16

/-! SRAM ports (04 R113, R114). -/

/-- Whether the access still fits R113, given those accepted. -/
def portFits (u : BundleUse) (sub : Nat) (write : Bool) : Bool :=
  !(u.reads.contains sub || u.writes.contains sub) &&
    if write then u.writes.isEmpty else decide (u.reads.length < 2)

/-- Claim a port for an access of the issuing bundle; a dropped access raises source 0 (04 R114, Table 04-14). -/
def claimPort (v : TileId) (p : Fin 320) (slot off : Nat) (write : Bool) (c : Chip) : Bool × Chip :=
  let u := c.useNow p
  let sub := subBank off
  if portFits u sub write then
    (true, c.onTile p fun t =>
      { t with use := if write then { u with writes := u.writes ++ [sub] } else { u with reads := u.reads ++ [sub] } })
  else (false, c.tileEvent v.val 0 (sub + slot * 16 + (if write then 128 else 0)))

/-- A program read of one line: zeros when it is dropped, otherwise the line as it stands, with its ECC report
(04 R114, R119; 08 R206). -/
def readLine (mem : List Host.Cell) (ecc : List (Nat × EccMark)) (v : TileId) (p : Fin 320) (slot off : Nat)
    (c : Chip) : Line × Chip :=
  match claimPort v p slot off false c with
  | (false, c) => (Line.zero, c)
  | (true, c) =>
    let a := tileBase p.val + off
    let r := Ecc.check ecc (a / 8) 32
    (Memory.line mem a, c.eccReport v.val off r.1 r.2)

/-! Landing (04 R99-R101). -/

/-- Bytes `bs` put at byte `i` of a line. -/
def patchLine (l : Line) (i : Nat) (bs : List Byte) : Line :=
  Vector.ofFn fun j => if i ≤ j.val && j.val < i + bs.length then bs.getD (j.val - i) 0 else l[j]

def patchPieces (l : Line) (ps : List (Nat × List Byte)) : Line := ps.foldl (fun l x => patchLine l x.1 x.2) l

/-- Rows put from `row` on. -/
def patchRows (cells : Vector Acc 32) (row : Nat) (rows : List Acc) : Vector Acc 32 :=
  Vector.ofFn fun i => if row ≤ i.val && i.val < row + rows.length then rows.getD (i.val - row) Acc.zero else cells[i]

/-- A plane put into the cells (06 Table 06-4). -/
def patchPlane (cells : Vector Acc 32) (plane : Fin 3) (l : Line) : Vector Acc 32 :=
  Vector.ofFn fun r => Vector.ofFn fun j =>
    let e := 32 * r.val + j.val
    let old := (cells[r])[j].toNat
    if plane.val == 2 then
      let b := natField (l.byte (e / 4)).toNat (2 * (e % 4)) 2
      BitVec.ofNat 32 (old % 16 + b * 16 + old / 64 * 64)
    else if e / 512 == plane.val then
      let b := natField (l.byte (e % 512 / 2)).toNat (4 * (e % 2)) 4
      BitVec.ofNat 32 (old / 16 * 16 + b)
    else (cells[r])[j]

/-- A result for a register lands. PD0 keeps 1 (04 R98). -/
def landReg (d : Dest) (t : Tile) : Tile :=
  match d with
  | .v r ps => { t with v := t.v.set r (patchPieces t.v[r] ps) }
  | .a r x => { t with a := t.a.set r x }
  | .k r x => { t with k := t.k.set r x }
  | .pd r x => if r.val == 0 then t else { t with pd := t.pd.set r x }
  | .ma r x => { t with ma := t.ma.set r x }
  | .wRows wb row rows fmt =>
    let w := t.w[wb]
    { t with w := t.w.set wb { w with cells := patchRows w.cells row rows, tag := some fmt } }
  | .wPlane wb plane l fmt =>
    let w := t.w[wb]
    { t with w := t.w.set wb { w with cells := patchPlane w.cells plane l, tag := some fmt } }
  | .wScales wb x => { t with w := t.w.set wb { t.w[wb] with scales := x } }
  | .send x => { t with sendq := t.sendq ++ [x] }
  | .sram _ _ _ => t

/-- Insert by landing cycle, after equals: results land in the order of their cycles, and those of one cycle in the
order of their issue (04 R101). -/
def insertFlight (f : Flight) : List Flight → List Flight
  | [] => [f]
  | g :: gs => if f.land < g.land then f :: g :: gs else g :: insertFlight f gs

def sortFlights (fs : List Flight) : List Flight := fs.foldl (fun acc f => insertFlight f acc) []

/-- A store lands: the words the mask selects, with fresh check bits; a scrubber's write-back of the line is dropped
(04 R115, R119, When events coincide). -/
def landStore (p : Fin 320) (off : Nat) (l : Line) (mask : Word) (m : List Host.Cell) (y : Sys) : List Host.Cell × Sys :=
  let a := tileBase p.val + off
  (Memory.writeLine m a l mask,
    { y with
      ecc := Ecc.clear y.ecc (a / 8) 32 mask.toNat,
      chip := y.chip.onTile p fun t =>
        { t with scrub := { t.scrub with pending := t.scrub.pending.filter fun x =>
            !(x.1.val == subBank off && x.2.val == off / 256 % 1024) } } })

/-- One result lands. -/
def landOne (p : Fin 320) (d : Dest) (m : List Host.Cell) (y : Sys) : List Host.Cell × Sys :=
  match d with
  | .sram off l mask => landStore p off l mask m y
  | _ => (m, y.onChip fun c => c.onTile p (landReg d))

/-- Whether a result is due: by the PCC in run state; out of run state core cycles pass and nothing holds, so every
result has landed (04 R99, R104; log entry 20). -/
def flightDue (c : Chip) (f : Flight) : Bool := !c.map.run || f.land ≤ c.cmp.pcc

/-- Every due result of a tile lands, by landing cycle and then by issue (04 R99, R101). -/
def landDue (p : Fin 320) (m : List Host.Cell) (y : Sys) : List Host.Cell × Sys :=
  let fs := (y.chip.tile p).flight
  let due := sortFlights (fs.filter (flightDue y.chip))
  let y := y.onChip fun c => c.onTile p fun t => { t with flight := fs.filter fun f => !flightDue c f }
  due.foldl (fun acc f => landOne p f.dest acc.1 acc.2) (m, y)

end Sys2Proof.Machine
end

