-- ==== Sys2Proof/Machine/NetOps.lean ====
section
/-! DEFINITION. What the N slot and the edge of the grid share: framing of scheduled messages (06 R170, R171), the route
word and chip map (10 R253, R254, R258), the send queue (04 R110), and the mesh (08 R207-R211). -/

namespace Sys2Proof.Machine

/-! Message fields (10 Table 10-1). -/

def partCode : Part → Nat
  | .only => 0
  | .first => 1
  | .middle => 2
  | .last => 3

/-- The message field of a scheduled line but for PART: DEST, the fields of the message word, and ROUTE. -/
def schedHeader (dest : Nat) (msgWord routeWord : Word) : Dword :=
  let m := msgWord.toNat
  BitVec.ofNat 64 (dest * 2 ^ 4 + natField m 13 4 * 2 ^ 17 + natField m 17 5 * 2 ^ 21 + natField m 22 2 * 2 ^ 26
    + natField m 24 6 * 2 ^ 28 + natField routeWord.toNat 0 25 * 2 ^ 34)

def withPart (h : Dword) (p : Part) : Dword := BitVec.ofNat 64 (h.toNat / 16 * 16 + partCode p * 4)

/-- ROUTE of a message field. -/
def routeOf (msg : Dword) : Nat := natField msg.toNat 34 25

def withRoute (msg : Dword) (r : Nat) : Dword :=
  BitVec.ofNat 64 (msg.toNat % 2 ^ 34 + (r % 2 ^ 25) * 2 ^ 34 + msg.toNat / 2 ^ 59 * 2 ^ 59)

/-- Position and width of the magnitude, and the place of the sign, of a dimension (10 Table 10-3). -/
def dimField (d : Nat) : Nat × Nat × Nat :=
  match d with
  | 0 => (8, 2, 10)
  | 1 => (11, 2, 13)
  | 2 => (14, 5, 19)
  | _ => (20, 4, 24)

def routeMag (r d : Nat) : Nat := natField r (dimField d).1 (dimField d).2.1

/-- The order D0 to D3. -/
def routeDims (r : Nat) : List Nat := [natField r 0 2, natField r 2 2, natField r 4 2, natField r 6 2]

/-- The port a line leaves by and its ROUTE after the hop; none at the destination (10 R254). -/
def nextHop (r : Nat) : Option (PortId × Nat) :=
  match (routeDims r).find? fun d => routeMag r d != 0 with
  | none => none
  | some d =>
    let f := dimField d
    let port := 2 * d + (if r.testBit f.2.2 then 1 else 0)
    (finOf 8 port).map fun p => (p, r - 2 ^ f.1)

/-- The message field of a line as it leaves for its next hop: that hop's magnitude is one less in ROUTE (10 R254). -/
def afterHop (msg : Dword) : Dword :=
  match nextHop (routeOf msg) with
  | some (_, r) => withRoute msg r
  | none => msg

/-- CHIPMAP entry k (10 R258). -/
def chipMapEntry (f : Fabric) (k : Nat) : BitVec 16 := (f.chipMap.lookup k).getD 0

/-- The checks of R253 at a FIRST or ONLY FSEND: the CAUSE of 10 Table 10-14 that fails, or the header. -/
def checkRoute (c : Chip) (port : PortId) (msgWord routeWord : Word) : Sum Nat Dword :=
  let e := (chipMapEntry c.fab (natField msgWord.toNat 0 13)).toNat
  let r := routeWord.toNat
  let dims := routeDims r
  if !e.testBit 15 then .inl 2
  else if !(dims.Nodup) || natField r 25 7 != 0 || dims.all (fun d => routeMag r d == 0) then .inl 3
  else if (nextHop (natField r 0 25)).map (·.1) != some port then .inl 4
  else .inr (schedHeader (natField e 0 13) msgWord routeWord)

/-! Send queue (04 R108, R110). -/

/-- Source 1 with QUEUE 4 when the send queue is full at issue; otherwise the line is in the queue at t + 1 and can leave
at t + s (08 Table 08-1, R207). -/
def sendLine (v : TileId) (p : Fin 320) (s : Nat) (line : Line) (dst : SendDst) (c : Chip) : Chip :=
  if 8 ≤ (c.tile p).sendq.length then c.tileEvent v.val 1 4
  else
    addFlight p (.send { line := line, dst := dst, leave := c.cmp.pcc + s, issued := c.cmp.cycles }) (latency .ns false) c

/-- Lines of the send queue, those in flight to it included. -/
def queuedLines (t : Tile) : List SendLine :=
  t.sendq ++ t.flight.filterMap fun f => match f.dest with
    | .send x => some x
    | _ => none

def sendsTo (port : PortId) : SendDst → Bool
  | .port p _ => p == port
  | _ => false

def crossesTo (port : PortId) : MeshDst → Bool
  | .port p _ => p == port
  | _ => false

/-- Lines of virtual tile v for a port that are on their way to it: in its send queue, or in the mesh. -/
def linesUnderWay (v : Nat) (p : Fin 320) (port : PortId) (c : Chip) : Nat :=
  ((queuedLines (c.tile p)).filter fun x => sendsTo port x.dst).length
    + (c.cmp.mesh.lines.filter fun l => l.src == v && crossesTo port l.dst).length

/-- The port is to complete a message of tile v with its lines still due, as zeros, once the tile's `ahead` lines for the
port have reached it (06 R171; log entry 21). -/
def addFill (v : Nat) (port : PortId) (ahead : Nat) (m : OpenMsg) (c : Chip) : Chip :=
  if m.discard then c
  else c.onPort port fun x => { x with fills := x.fills ++ [⟨v, ahead, m.due, m.header⟩] }

/-- Complete the message that tile v has open to a port, with source 27 CAUSE 1 (06 R171). -/
def completeOpen (v : Nat) (p : Fin 320) (port : PortId) (c : Chip) : Chip :=
  match (c.tile p).openMsg[port] with
  | none => c
  | some m =>
    addFill v port (linesUnderWay v p port c) m
      ((c.routeError 1 port.val v).onTile p fun t => { t with openMsg := t.openMsg.set port none })

def allPorts : List PortId := List.finRange 8

/-- Complete every message tile v has open. -/
def completeAllOpen (v : Nat) (p : Fin 320) (c : Chip) : Chip :=
  allPorts.foldl (fun c port => completeOpen v p port c) c

/-! The mesh (08 R207-R211). -/

/-- The links of a path from (r1, c1) to (r2, c2), each with the cycles after entry at which the line uses it: along the
row, then along the column, then the tile's input (08 R207, R209). -/
def meshPath (hop r1 c1 r2 c2 : Nat) : List (MeshLink × Nat) :=
  let east := (List.range (c2 - c1)).map fun i => (MeshLink.east r1 (c1 + i), i * hop)
  let west := (List.range (c1 - c2)).map fun i => (MeshLink.west r1 (c1 - i), i * hop)
  let t := hop * ((c2 - c1) + (c1 - c2))
  let south := (List.range (r2 - r1)).map fun i => (MeshLink.south (r1 + i) c2, t + 2 * i)
  let north := (List.range (r1 - r2)).map fun i => (MeshLink.north (r1 - i) c2, t + 2 * i)
  east ++ west ++ south ++ north

/-- The sum of R207; a line for the tile itself takes 2. -/
def meshHops (hop r1 c1 r2 c2 : Nat) : Nat := 2 * ((r2 - r1) + (r1 - r2)) + hop * ((c2 - c1) + (c1 - c2))

/-- M of R207 for a tile's line: a tile that addresses itself takes 2, its own edge block 0 (R211; 06 Worked example
06-6). -/
def meshM (hop r1 c1 r2 c2 : Nat) : MeshDst → Nat
  | .tile _ _ => let m := meshHops hop r1 c1 r2 c2; if m == 0 then 2 else m
  | _ => meshHops hop r1 c1 r2 c2

/-- The input or the edge block's path at the end of the way (08 R209). -/
def meshEnd (r2 c2 : Nat) : MeshDst → MeshLink
  | .tile _ _ => .input r2 c2
  | .port p _ => .exit p.val
  | .host _ _ _ => .exit 8
  | .search _ _ => .exit 9

/-- The first cycle from `t` on in which a link is free; at most `fuel` cycles are tried, more than there are entries. -/
def freeFrom (busy : List (MeshLink × Nat)) (l : MeshLink) (t : Nat) : Nat → Nat
  | 0 => t
  | fuel + 1 => if busy.contains (l, t) then freeFrom busy l (t + 1) fuel else t

/-- Take the links of a path in order from entry cycle `t`; each wait delays the rest by as much (08 R209). Answers the
delay and the cycles taken. -/
def takeLinks (busy : List (MeshLink × Nat)) (t : Nat) : List (MeshLink × Nat) → Nat × List (MeshLink × Nat)
  | [] => (0, [])
  | (l, d) :: rest =>
    let at_ := freeFrom busy l (t + d) (busy.length + 1)
    let wait := at_ - (t + d)
    let r := takeLinks busy (t + wait) rest
    (wait + r.1, (l, at_) :: r.2)

/-- Virtual (row, column) that a line from tile v travels to (03 Table 03-1). -/
def meshTarget (m : MapRegs) : SendDst → Nat × Nat
  | .mesh r col _ => (r.val, col.toNat)
  | .port p _ => m.attach p
  | .host _ _ _ => (8, 0)
  | .search _ _ => (8, m.vc - 1)

def meshDst (m : MapRegs) : SendDst → MeshDst
  | .mesh r col ch => .tile (r.val * m.vc + col.toNat) ch
  | .port p msg => .port p msg
  | .host a b h => .host a b h
  | .search d r => .search d r

/-- The links a line uses that arrives M cycles after its entry. -/
def meshWay (hop r1 c1 : Nat) (r2c2 : Nat × Nat) (dst : MeshDst) (m : Nat) : List (MeshLink × Nat) :=
  meshPath hop r1 c1 r2c2.1 r2c2.2 ++ [(meshEnd r2c2.1 r2c2.2 dst, m)]

/-- Enter a tile's line into the mesh from virtual (r1, c1) in cycle t of the PCC. -/
def meshEnter (src r1 c1 t : Nat) (r2c2 : Nat × Nat) (dst : MeshDst) (line : Line) (issued : Nat) (c : Chip) : Chip :=
  let m := meshM c.map.hop r1 c1 r2c2.1 r2c2.2 dst
  let mesh := c.cmp.mesh
  let r := takeLinks mesh.busy t (meshWay c.map.hop r1 c1 r2c2 dst m)
  let now := if c.map.run then t else c.cmp.cycles
  let l : MeshLine := { dst := dst, src := src, line := line, arrive := now + m + r.1, edge := !c.map.run, due := none,
                        fabric := false, issued := issued }
  { c with cmp := { c.cmp with mesh := { mesh with lines := mesh.lines ++ [l], busy := mesh.busy ++ r.2 } } }

/-- A line under way as the run ends goes on, in core cycles. -/
def MeshLine.afterRun (pcc cycles : Nat) (l : MeshLine) : MeshLine :=
  { l with arrive := if l.edge then l.arrive else cycles + (l.arrive - pcc), edge := true, due := none }

/-- The cycle in which the head of a send queue enters the mesh: its leave cycle, but one cycle or more after the line
before it (08 R207, R208); out of run state at once. -/
def headEntry (c : Chip) (t : Tile) : Option Nat :=
  t.sendq.head?.map fun x =>
    if c.map.run then max x.leave ((t.sentAt.map fun a => a + 1).getD 0) else c.cmp.pcc

/-- Whether the head of a send queue can enter the mesh now: its entry cycle is over, so that every line which enters in
that cycle is in its send queue. -/
def headReady (c : Chip) (t : Tile) : Bool :=
  match headEntry c t with
  | none => false
  | some e => !c.map.run || e < c.cmp.pcc

/-- The links an edge block's line takes from its attach tile. -/
def edgeWay (m : MapRegs) (l : MeshLine) : List (MeshLink × Nat) :=
  match l.dst with
  | .tile v _ =>
    let src := (l.src / m.vc, l.src % m.vc)
    let dst := (v / m.vc, v % m.vc)
    meshWay m.hop src.1 src.2 dst l.dst (meshHops m.hop src.1 src.2 dst.1 dst.2)
  | _ => []

/-- An edge block's line for tile `src`'s router whose entry cycle has come takes its links; each wait delays it (08 R209).
A line for the attach tile itself takes nothing but that tile's input, in the entry cycle. In a hold the links taken are
counted in core cycles (log entry 24). -/
def edgeEnter (c : Chip) (src : Nat) (acc : Mesh) (l : MeshLine) : Mesh :=
  match l.due with
  | none => { acc with lines := acc.lines ++ [l] }
  | some t =>
    let way := edgeWay c.map l
    let now := if l.edge then c.cmp.cycles else c.cmp.pcc
    if l.src == src && (t < now || (t == now && way.length ≤ 1)) then
      let wall := c.holding && l.edge
      let r := takeLinks (if wall then acc.wall else acc.busy) (if wall then t else c.cmp.pcc - (now - t)) way
      { lines := acc.lines ++ [{ l with arrive := l.arrive + r.1, due := none }],
        busy := if wall then acc.busy else acc.busy ++ r.2, wall := if wall then acc.wall ++ r.2 else acc.wall }
    else { acc with lines := acc.lines ++ [l] }

/-- The lines of edge blocks attached to virtual tile v that are due enter the mesh. -/
def enterEdges (v : Nat) (c : Chip) : Chip :=
  if c.cmp.mesh.lines.any (fun l => l.due.isSome && l.src == v) then
    { c with cmp := { c.cmp with mesh := c.cmp.mesh.lines.foldl (edgeEnter c v) { c.cmp.mesh with lines := [] } } }
  else c

/-- The send queue of virtual tile v passes one line to the mesh, if its head is ready. -/
def sendHead (v : Nat) (c : Chip) : Chip :=
  match c.liveTile v with
  | none => c
  | some p =>
    let t := c.tile p
    match headReady c t, headEntry c t, t.sendq with
    | true, some e, x :: rest =>
      let vc := c.map.vc
      let c := c.onTile p fun t => { t with sendq := rest, sentAt := some e }
      meshEnter v (v / vc) (v % vc) e (meshTarget c.map x.dst) (meshDst c.map x.dst) x.line x.issued c
    | _, _, _ => c

/-- Link cycles that are past are dropped; once nothing holds, those that lines took in the hold are counted by the PCC. -/
def passLinks (c : Chip) (m : Mesh) : Mesh :=
  let left := m.busy.filter fun b => c.cmp.pcc ≤ b.2 + 1
  let wall := m.wall.filter fun b => c.cmp.cycles ≤ b.2
  if c.holding then { m with busy := left, wall := wall }
  else { m with busy := left ++ wall.map fun b => (b.1, c.cmp.pcc + (b.2 - c.cmp.cycles)), wall := [] }

/-- The cycle before the present PCC value is over: edge blocks' lines and the tiles' send queues, one line each, have
passed to the mesh in it, lower virtual tile first and the edge block before its attach tile (08 R208, R209). -/
def meshAdvance (c : Chip) : Chip :=
  let c := { c with cmp := { c.cmp with mesh := passLinks c c.cmp.mesh } }
  (List.range (16 * c.map.vc)).foldl (fun c v => sendHead v (enterEdges v c)) c

/-- Whether a line of the mesh has reached its end; a hold stops the routers, but not a line from an edge block, whose
crossing is counted in core cycles (04 R104, R105; log entry 24). -/
def arrived (c : Chip) (l : MeshLine) : Bool :=
  !c.map.run || (l.due.isNone &&
    (if l.edge then decide (l.arrive ≤ c.cmp.cycles) else !c.holding && decide (l.arrive ≤ c.cmp.pcc)))

/-- Cycles since a line of the mesh arrived. -/
def sinceArrival (c : Chip) (l : MeshLine) : Nat := (if l.edge then c.cmp.cycles else c.cmp.pcc) - l.arrive

/-- Whether line a arrives before line b, or in one cycle with it and from a lower virtual tile. -/
def arrivesBefore (c : Chip) (a b : MeshLine) : Bool :=
  let now := fun (l : MeshLine) => if l.edge then c.cmp.cycles else c.cmp.pcc
  let x := a.arrive + now b
  let y := b.arrive + now a
  x < y || (x == y && a.src < b.src)

/-- Insert by arrival. -/
def insertArrival (c : Chip) (l : MeshLine) : List MeshLine → List MeshLine
  | [] => [l]
  | x :: xs => if arrivesBefore c l x then l :: x :: xs else x :: insertArrival c l xs

/-- Lines in the order in which they arrived, those of one cycle by virtual tile (08 R209). -/
def byArrival (c : Chip) (ls : List MeshLine) : List MeshLine := ls.foldl (fun acc l => insertArrival c l acc) []

/-- A line enters a channel: a full channel discards it with source 1 (04 R110), and so does the mailbox channel (13 R360);
strainer code 3 above the depth less the jitter reserve, which only a channel that has received a fabric line keeps (04 R109,
Table 04-4; log entry 22). -/
def channelPut (v : Nat) (p : Fin 320) (ch : Chan) (line : Line) (fabric : Bool) (c : Chip) : Chip :=
  let q := (c.tile p).ch[ch]
  let kept := fabric || (c.tile p).fabricCh[ch]
  let c := c.onTile p fun t => { t with fabricCh := t.fabricCh.set ch kept }
  if 16 ≤ q.length || isMailbox c.map v ch then c.tileEvent v 1 ch.val
  else
    let c := c.onTile p fun t => { t with ch := t.ch.set ch (q ++ [line]) }
    if c.chk.strain && 16 - (if kept then 1 else 0) < q.length + 1 then c.tileEvent v 3 (3 + ch.val * 64) else c

/-- A line of the mesh enters the channel it is for (04 R108, R110). -/
def enterChannel (c : Chip) (l : MeshLine) : Chip :=
  match l.dst with
  | .tile v ch => match c.liveTile v with
    | some p => channelPut v p ch l.line l.fabric c
    | none => c
  | _ => c

/-- Slot interval in core cycles at the operating point: ceil(256 f / (8 L)) (08 R215, Table 08-5). -/
def slotInterval (point : BitVec 2) (lanes : Nat) : Nat :=
  match point.toNat, lanes with
  | 0, 8 => 5 | 0, 4 => 10 | 0, 2 => 20 | 0, _ => 40
  | 1, 8 => 4 | 1, 4 => 8 | 1, 2 => 16 | 1, _ => 32
  | _, 8 => 3 | _, 4 => 6 | _, 2 => 12 | _, _ => 24

/-- The port carries scheduled lines, or keeps them until it is UP again (09 R245, 10 R257). -/
def Port.carries (x : Port) : Bool := x.st == .up || x.st == .retrain

/-- A partner's XOFF, and the hold it asks for: requested at 4 waiting scheduled lines, released at 2 (10 R272). -/
def updateHoldReq (x : Port) : Port :=
  if x.xoffIn && 4 ≤ x.sched.length then { x with holdReq := true }
  else if x.sched.length ≤ 2 then { x with holdReq := false }
  else x

/-- One line of tile v for the port is no longer ahead of the lines of zeros that are to follow it (06 R171). -/
def passFills (v : Nat) (x : Port) : Port :=
  { x with fills := x.fills.map fun f => if f.tile == v then { f with ahead := f.ahead - 1 } else f }

/-- Core-side cycles from the attach tile to the line, and from a port's ingress to another port's line (08 R212, 10 R256). -/
def coreSide (transit : Bool) : Nat := if transit then 30 else 20

/-- A scheduled line entered a port's core-side path `ago` cycles ago: discarded and counted when the port is not UP and not
in RETRAIN (10 R257); otherwise it reaches the egress queue at the end of the path (08 R212), and waits there behind a LAG
frame that is waiting now (11 R303). -/
def portPut (port : PortId) (transit : Bool) (tile : Nat) (line : Line) (msg : Dword) (ago : Nat) (c : Chip) : Chip :=
  if (c.port port).carries then
    let entry : SchedLine := { frame := { typ := 1, payload := line, msg := msg }, transit := transit, tile := tile,
                               due := c.cmp.cycles - ago + coreSide transit, behindLag := (c.port port).time[3].isSome }
    c.onPort port fun x => { x with pipe := x.pipe ++ [entry] }
  else c.onPort port fun x => { x with dropCount := satInc x.dropCount }

/-- A line reaches the egress queue: lost with source 1, QUEUE 5, where the queue holds 8 lines (10 Table 10-6); it goes no
earlier than the slot interval allows (08 R215), a breach of which the strainer observes as code 4 (04 Table 04-6). -/
def enterEgress (port : PortId) (l : SchedLine) (c : Chip) : Chip :=
  let x := c.port port
  if 8 ≤ x.sched.length then c.tileEvent l.tile 1 (5 + port.val * 8)
  else
    let due := max l.due x.nextSlot
    let c := if c.chk.strain && l.due < x.nextSlot then c.tileEvent l.tile 3 (4 + port.val * 64) else c
    c.onPort port fun x => updateHoldReq
      { x with sched := x.sched ++ [{ l with due := due }], nextSlot := due + slotInterval c.pwr.point x.width.toNat }

/-- Whether line a reaches the egress before line b: in an earlier cycle, from the transit switch, or from a lower tile (10
R268). -/
def entersBefore (a b : SchedLine) : Bool :=
  a.due < b.due || (a.due == b.due &&
    ((a.transit && !b.transit) || (a.transit == b.transit && !a.transit && a.tile < b.tile)))

def insertEntry (l : SchedLine) : List SchedLine → List SchedLine
  | [] => [l]
  | x :: xs => if entersBefore l x then l :: x :: xs else x :: insertEntry l xs

/-- Lines of the core-side path whose cycle has come enter the egress queue. -/
def advancePipe (c : Chip) (port : PortId) : Chip :=
  let here := fun (l : SchedLine) => decide (l.due ≤ c.cmp.cycles)
  let ls := (c.port port).pipe.filter here
  if ls.isEmpty then c
  else
    (ls.foldl (fun acc l => insertEntry l acc) []).foldl (fun c l => enterEgress port l c)
      (c.onPort port fun x => { x with pipe := x.pipe.filter fun l => !here l })

/-- The first broken message of which no line is ahead any more, and the messages left once it has sent one line of zeros. -/
def nextFill : List Fill → Option (Fill × List Fill)
  | [] => none
  | f :: fs =>
    if f.ahead == 0 then some (f, if f.due ≤ 1 then fs else { f with due := f.due - 1 } :: fs)
    else (nextFill fs).map fun r => (r.1, f :: r.2)

/-- A broken message sends its next line of zeros, where nothing else is on the core-side path, the queue has room and the
slot interval allows it; at a port that carries no lines the message is discarded and counted (06 R171, 10 R257; log entry 21). -/
def fillCycle (c : Chip) (port : PortId) : Chip :=
  let x := c.port port
  match nextFill x.fills with
  | none => c
  | some (f, left) =>
    let part := if f.due ≤ 1 then Part.last else .middle
    if !x.carries then
      c.onPort port fun x => { x with fills := x.fills.erase f, dropCount := satAdd x.dropCount f.due }
    else if x.pipe.isEmpty && x.sched.length < 8 && x.nextSlot ≤ c.cmp.cycles then
      enterEgress port
        { frame := { typ := 1, payload := Line.zero, msg := withPart f.header part }, transit := false, tile := f.tile,
          due := c.cmp.cycles, behindLag := x.time[3].isSome }
        (c.onPort port fun x => { x with fills := left })
    else c

/-- Hand an edge block's line for a tile to the block's attach tile, where it enters the mesh `wait` - 2 cycles from now (08
R209, R211): the figures count to the cycle in which a WAIT receive can issue, and its look-ahead check two cycles before
must find the line (04 R106; log entry 94). The attach tile itself is 0 cycles away (12 Worked example 12-1). With `wall`
the crossing is counted in core cycles. -/
def edgeSend (wall fabric : Bool) (r1 c1 : Nat) (v : Nat) (ch : Chan) (line : Line) (wait : Nat) (c : Chip) : Chip :=
  if c.map.vc == 0 then c
  else
    let vc := c.map.vc
    let m := meshHops c.map.hop r1 c1 (v / vc) (v % vc)
    let mesh := c.cmp.mesh
    let t := (if wall then c.cmp.cycles else c.cmp.pcc) + (wait - 2)
    let l : MeshLine :=
      { dst := .tile v ch, src := r1 * vc + c1, line := line, arrive := t + m, edge := wall, due := some t,
        fabric := fabric, issued := c.cmp.cycles }
    { c with cmp := { c.cmp with mesh := { mesh with lines := mesh.lines ++ [l] } } }

end Sys2Proof.Machine
end

