-- ==== Sys2Proof/Machine/Link.lean ====
section
/-! DEFINITION. Vohel links (09) and port egress (10 sections 5 and 6): training and port states, lane degrade, frames in
and out, link-level retry, arbitration, and the port registers that are commands. -/

namespace Sys2Proof.Machine

/-! Widths, classes and domains. -/

/-- Dmax of a class in ns (09 Table 09-5). -/
def dMax (cls : BitVec 2) : Nat :=
  match cls.toNat with
  | 0 => 16
  | 1 => 56
  | _ => 176

/-- CLASS allowed for a port (09 R246, Table 09-5). -/
def classAllowed (p : PortId) (cls : BitVec 2) : Bool :=
  if p.val < 4 then cls == 0 else cls == 1 || cls == 2

/-- F in ns: 32 / W (09 R224). -/
def frameNs (w : BitVec 4) : Nat := if w == 0 then 32 else 32 / w.toNat

/-- Lanes of a mask, lowest first. -/
def lanesOf (m : BitVec 8) : List Nat := (List.range 8).filter fun k => m.toNat.testBit k

/-- The healthy set: lanes that neither end has marked failed (09 R243). -/
def healthySet (x : Port) : List Nat := (List.range 8).filter fun k => !(x.failed ||| x.peerFailed).toNat.testBit k

/-- W: the largest of 8, 4, 2 and 1 that does not exceed the healthy lanes (09 R243). -/
def widthFor (n : Nat) : Nat := if 8 ≤ n then 8 else if 4 ≤ n then 4 else if 2 ≤ n then 2 else if 1 ≤ n then 1 else 0

/-- Logical lane j maps to the (j + 1)-th lowest healthy lane (09 R243). -/
def mapLanes (x : Port) : Port :=
  let h := healthySet x
  let w := widthFor h.length
  { x with width := BitVec.ofNat 4 w, used := BitVec.ofNat 8 ((h.take w).foldl (fun a k => a + 2 ^ k) 0) }

/-- COVER: 3 × (F + D) ≤ Dmax + 60 at the present width (09 R235). -/
def coverOf (x : Port) : Bool := x.width != 0 && 3 * (frameNs x.width + x.d.toNat) ≤ dMax x.cls + 60

/-- The domain of a port: FABA for P0-P3, FABB for P4-P7 (09 R237). -/
def portDomain (p : PortId) : Nat := if p.val < 4 then bitFaba else bitFabb

/-- Device Serial Number (20 R540). -/
def Mgt.dsn (m : Mgt) : Dword :=
  BitVec.ofNat 64 (m.lot.toNat * 2 ^ 28 + m.wafer.toNat * 2 ^ 23 + m.dieX.toNat * 2 ^ 15 + m.dieY.toNat * 2 ^ 7
    + m.reticle.toNat)

/-! Entering states (09 R237, R238). -/

/-- Queues and link state of a port emptied (09, When events coincide; 10 R275). -/
def emptyPort (x : Port) : Port :=
  { x with replay := [], resend := 0, rplDue := false, nakDue := false, nakOut := false, nakRun := 0, retrainDue := false,
           rejectAt := none, late := (0, 0), pipe := [], sched := [], host := [], time := Vector.replicate 4 none,
           mgmt := [], ingress := [], xoffIn := false, xoffOut := false, holdReq := false, begun := 0, linkDue := false,
           peerPoint := none }

/-- A request frame of the own host engine wins arbitration, or is lost with its egress queue: its transaction's time-out
counts from here, and its segment is committed (10 R265, R274, R275; log entry 99). -/
def markWon (f : Frame) (now : Nat) (c : Chip) : Chip :=
  let w := f.msg.toNat
  let tag := natField w 31 8
  if natField w 0 2 == 1 && natField w 2 3 ≤ 1 && natField w 18 13 == c.self then
    { c with fab := { c.fab with txns := c.fab.txns.map fun (x : Txn) =>
        if x.tag == tag && x.wonAt.isNone then { x with wonAt := some now } else x } }
  else c

/-- A port leaves the states in which it carries lines: its queues are emptied, its scheduled lines discarded and counted (10
R257, R275). -/
def clearPort (p : PortId) (now : Nat) (c : Chip) : Chip :=
  let x := c.port p
  (x.host.foldl (fun c f => markWon f now c) c).onPort p fun x =>
    { emptyPort x with dropCount := satAdd x.dropCount (x.sched.length + x.pipe.length) }

def enterDisabled (p : PortId) (now : Nat) (c : Chip) : Chip :=
  ((clearPort p now c).onPort p fun x => { x with st := .disabled, since := now, width := 0, used := 0, peerValid := false,
                                                  detectRaised := false, retrainReq := false }).lower (18 + p.val) now

/-- DETECT, when ENABLE is 1, the domain is on and CLASS is allowed; otherwise DISABLED, with REASON 10 for the class
(09 Table 09-7, R247). -/
def enterDetect (p : PortId) (now : Nat) (c : Chip) : Chip :=
  let x := c.port p
  if !x.enable || !c.domOn (portDomain p) then enterDisabled p now c
  else if !classAllowed p x.cls then
    (enterDisabled p now c).onPort p fun x => { x with reason := 10 }
  else
    (clearPort p now c).onPort p fun x => { x with st := .detect, since := now, width := 0, used := 0, peerValid := false }

/-- A port that waits in DISABLED goes on to DETECT once nothing keeps it there (09 Table 09-7). -/
def wakePort (p : PortId) (now : Nat) (c : Chip) : Chip :=
  let x := c.port p
  if x.st == .disabled && x.enable && c.domOn (portDomain p) && classAllowed p x.cls then enterDetect p now c else c

/-- The source of a lane that was not marked at the end of the previous training or retrain (09 R244). -/
def degradeCheck (p : PortId) (c : Chip) : Chip :=
  let x := c.port p
  let fresh := (x.failed &&& ~~~x.prevFailed.1) ||| (x.peerFailed &&& ~~~x.prevFailed.2)
  let c := c.onPort p fun x => { x with prevFailed := (x.failed, x.peerFailed) }
  if fresh == 0 then c else c.raise (10 + p.val) (.port p)

/-- PORTn_DOWN's line rises, and is raised again where it is up already: each entry to DOWN raises (09 R238). -/
def raiseDown (p : PortId) (now : Nat) (c : Chip) : Chip :=
  match finOf 64 (18 + p.val) with
  | some i =>
    let k := c.fc
    { c with fc := { k with src := k.src.set i { k.src[i] with line := true, lastAct := now },
                            raised := k.raised ++ [⟨i, .port p⟩] } }
  | none => c

/-- DOWN with a REASON; a training or retrain that ends here may end with a lane newly failed (09 R244); PORTn_DOWN from TRAIN
and RETRAIN always, from DETECT the first time (09 R238). -/
def enterDown (p : PortId) (reason : Nat) (now : Nat) (c : Chip) : Chip :=
  let x := c.port p
  let c := if x.st == .detect then c else degradeCheck p c
  let c := (clearPort p now c).onPort p fun x =>
    { x with st := .down, since := now, width := 0, used := 0, reason := BitVec.ofNat 4 reason,
             peerValid := false, detectRaised := x.detectRaised || x.st == .detect, retrainReq := false }
  if x.st != .detect || !x.detectRaised then raiseDown p now c else c

/-- UP at the width of the healthy set; PORTn_DOWN's level ends (09 R243, R244; 15 Table 15-1). A port from TRAIN has
delivered no SYNC frame yet, and reports its chip number and operating point (16 R429); a parent back from RETRAIN is not
lost for the frames it missed (11 R279, R280; log entry 96). -/
def enterUp (p : PortId) (now : Nat) (c : Chip) : Chip :=
  let c := c.onPort p fun x =>
    { mapLanes x with st := .up, since := now, ackAt := now, retrainReq := false, linkDue := x.linkDue || x.st != .retrain,
                      syncAt := if x.st == .retrain then x.syncAt else none }
  let c := if c.time.parent == p then { c with time := { c.time with syncAt := now, heartbeatAt := now } } else c
  (degradeCheck p c).lower (18 + p.val) now

/-- A port in UP enters RETRAIN, its NAKs replaced by the replay of R243 (09 R242, R243); in an operating-point transition it
stays UP and enters RETRAIN at the end (09 R223, 16 R431). -/
def goRetrain (p : PortId) (now : Nat) (c : Chip) : Chip :=
  if (c.port p).st != .up then c
  else if c.pwr.busy then c.onPort p fun x => { x with retrainDue := true }
  else c.onPort p fun x => { x with st := .retrain, since := now, nakDue := false, nakOut := false, rejectAt := none,
                                    late := (0, 0), nakRun := 0, retrainDue := false }

/-- The interval of R236 that is running: intervals follow each other without a gap. -/
def rollInterval (now : Nat) (x : Port) : Port :=
  let len := Config.ms x.retryInterval.toNat
  if x.retryInterval != 0 && x.intervalAt + len ≤ now then
    { x with intervalAt := x.intervalAt + (now - x.intervalAt) / len * len, intervalEvents := 0, rateRaised := false }
  else x

/-- More than LIMIT replay events in the interval raise source 26, once in it (09 R236). -/
def checkRate (p : PortId) (c : Chip) : Chip :=
  let x := c.port p
  if x.retryInterval != 0 && x.retryLimit.toNat < x.intervalEvents && !x.rateRaised then
    (c.onPort p fun x => { x with rateRaised := true }).raise 26 (.port p)
  else c

/-- A replay event from the oldest unacknowledged frame; NAK_MAX of them for one frame in a row send the port to RETRAIN
(09 R231, R233, R236). The replay after a retrain counts as one of them (DESIGN CHOICE, log entry 100). -/
def replayEvent (p : PortId) (now : Nat) (c : Chip) : Chip :=
  let x := c.port p
  if x.replay.isEmpty then c
  else
    let c := checkRate p (c.onPort p fun x =>
      { rollInterval now x with
        resend := x.replay.length, rplDue := true, retryCount := satInc x.retryCount,
        intervalEvents := (rollInterval now x).intervalEvents + 1, nakRun := x.nakRun + 1, ackAt := now })
    if max 1 x.nakMax.toNat ≤ x.nakRun + 1 then goRetrain p now c else c

/-! Port registers that are commands (09 Table 09-10). -/

def portCtl (p : PortId) : Nat := 0x4000 + p.val * 0x200

/-- PORT_ENABLE: FAB_Pn_CTL.ENABLE, run-locked (09 R237, R246; 03 R86). -/
def writePortEnable (p : PortId) (enable : Bool) (now : Nat) (c : Chip) : Chip :=
  if (c.port p).enable == enable then c
  else if c.map.run then c.cfgDiscard (portCtl p)
  else
    let c := c.onPort p fun x => { x with enable := enable }
    if enable then enterDetect p now c else enterDisabled p now c

def execPortEnable (p : PortId) (enable : Bool) (s : State) : Result :=
  onSys (fun y => y.onChip (writePortEnable p enable y.now)) s

/-- RETRAIN: a full training from DETECT; in run state the write is discarded with source 33 (09 Table 09-10). -/
def writePortRetrain (p : PortId) (now : Nat) (c : Chip) : Chip :=
  if c.map.run then c.cfgDiscard (portCtl p)
  else if (c.port p).st == .disabled then c
  else (enterDetect p now c).onPort p fun x => { x with retrainReq := x.st == .detect }

def execRetrain (p : PortId) (s : State) : Result := onSys (fun y => y.onChip (writePortRetrain p y.now)) s

/-- CLASS_WRITE: RO for P0-P3, run-locked; a change sends the port to DETECT, or keeps it in DISABLED (09 R246, R247). -/
def writePortClass (p : PortId) (cls : BitVec 2) (now : Nat) (c : Chip) : Chip :=
  if p.val < 4 || (c.port p).cls == cls then c
  else if c.map.run then c.cfgDiscard (portCtl p)
  else enterDetect p now (c.onPort p fun x => { x with cls := cls })

def execClassWrite (p : PortId) (cls : BitVec 2) (s : State) : Result :=
  onSys (fun y => y.onChip (writePortClass p cls y.now)) s

/-! Training (09 Tables 09-7 and 09-8). -/

/-- A command of training, taken in one state of the port. -/
def inState (p : PortId) (st : PortState) (f : Chip → Chip) (c : Chip) : Chip :=
  if (c.port p).st == st then f c else c

/-- As `inState`, for what needs the clock. -/
def whenState (p : PortId) (st : PortState) (f : Sys → Sys) (y : Sys) : Sys :=
  if (y.chip.port p).st == st then f y else y

def inPhase (p : PortId) (ph : Phase) (f : Chip → Chip) (c : Chip) : Chip :=
  if (c.port p).st == .train && (c.port p).phase == ph then f c else c

def nextPhase (p : PortId) (ph : Phase) (now : Nat) (c : Chip) : Chip :=
  c.onPort p fun x => { x with phase := ph, since := now }

/-- The slot that port P0-P3 of slot (x, y) faces on the backplane (02 R38, R43). -/
def facingSlot (s : SlotId) (p : PortId) : SlotId :=
  let x := s.val % 4
  let y := s.val / 4
  Fin.ofNat 16 (match p.val with
    | 0 => y * 4 + (x + 1) % 4
    | 1 => y * 4 + (x + 3) % 4
    | 2 => (y + 1) % 4 * 4 + x
    | _ => (y + 3) % 4 * 4 + x)

/-- The rear cage that carries port P4-P7 of a slot (02 R45). -/
def cageOf (s : SlotId) (p : PortId) : CageId := Fin.ofNat 64 (4 * s.val + p.val % 4)

/-- A port can see a partner: on the backplane its facing slot holds a cartridge (02 R64); at a cage a module is fitted and not
held in low-power mode (02 R45, 09 R248). -/
def canSee (y : Sys) (p : PortId) : Bool :=
  let s := y.chip.fab.slot
  if p.val < 4 then y.tray.bays[facingSlot s p].present
  else
    let g := y.tray.cages[cageOf s p]
    g.module.isSome && !g.lowPower

/-- PARTNER_DETECTED: DETECT to TRAIN, where the port can see a partner; the full training clears FAILED and PEER_FAILED (09
Table 09-7, R249; it starts here, DESIGN CHOICE, log entry 101). -/
def execPartnerDetected (p : PortId) (s : State) : Result :=
  onSys (fun y => y.onChip fun c => inState p .detect (fun c =>
    if canSee y p then
      c.onPort p fun x => { x with st := .train, phase := .lock, since := y.now, failed := 0, peerFailed := 0 }
    else c) (wakePort p y.now c)) s

/-- DETECT_TIMEOUT: no partner for 100 ms (09 Table 09-7, REASON 1). -/
def execDetectTimeout (p : PortId) (s : State) : Result :=
  onSys (fun y => whenState p .detect (fun y =>
    let y := y.await ((y.chip.port p).since + Config.ms 100)
    y.onChip (enterDown p 1 y.now)) (y.onChip (wakePort p y.now))) s

/-- LOCK: the lanes that locked; the others are failed; none is REASON 2 (09 Table 09-8). -/
def execLock (p : PortId) (locked : BitVec 8) (s : State) : Result :=
  onSys (fun y => y.onChip (inPhase p .lock fun c =>
    let c := c.onPort p fun x => { x with failed := x.failed ||| ~~~locked }
    if locked == 0 then enterDown p 2 y.now c else nextPhase p .equalise y.now c)) s

/-- EQUALISE: the CSC brings the lanes of `good` to 10⁻⁶; a port whose CSC does not run stays in the phase (09 R239,
Table 09-8). -/
def execEqualise (p : PortId) (good : BitVec 8) (s : State) : Result :=
  onSys (fun y => y.onChip (inPhase p .equalise fun c =>
    if c.mgt.cscReset then c
    else
      let c := c.onPort p fun x => { x with failed := x.failed ||| ~~~good }
      if (c.port p).failed == 0xFF then enterDown p 3 y.now c else nextPhase p .align y.now c)) s

/-- The partner's port is the opposite direction of this one (09 R240). -/
def oppositePort (p q : PortId) : Bool := p.val / 2 == q.val / 2 && p.val != q.val

/-- ALIGN: lane health masks, chip and port numbers and serial numbers are exchanged; wrong wiring is REASON 5 (09
R240). -/
def execAlign (p : PortId) (peerChip : ChipNo) (peerPort : PortId) (peerDsn : Dword) (peerFailed : BitVec 8)
    (s : State) : Result :=
  onSys (fun y => y.onChip (inPhase p .align fun c =>
    if !oppositePort p peerPort || peerDsn == c.mgt.dsn then enterDown p 5 y.now c
    else
      let c := c.onPort p fun x =>
        { x with peerChip := peerChip, peerPort := peerPort, peerValid := true, peerFailed := peerFailed }
      if (healthySet (c.port p)).isEmpty then enterDown p 4 y.now c else nextPhase p .measure y.now c)) s

/-- MEASURE: D and the receive pad; D above Dmax is REASON 6 (09 R241). -/
def execMeasure (p : PortId) (delayNs : BitVec 8) (s : State) : Result :=
  onSys (fun y => y.onChip (inPhase p .measure fun c =>
    let x := c.port p
    let c := c.onPort p fun x => { x with d := delayNs }
    if dMax x.cls < delayNs.toNat then enterDown p 6 y.now c
    else nextPhase p .confirm y.now (c.onPort p fun x => { x with pad := BitVec.ofNat 8 (dMax x.cls - delayNs.toNat) }))) s

/-- CONFIRM: the port enters UP, its sequence numbers at 0 (09 R225, R249, Table 09-8). -/
def execConfirm (p : PortId) (s : State) : Result :=
  onSys (fun y => y.onChip (inPhase p .confirm fun c =>
    enterUp p y.now (c.onPort p fun x =>
      { emptyPort x with txSeq := 0, rxSeq := 0, laneMsAt := y.now, laneMs := Vector.replicate 8 0, nextSlot := 0 }))) s

/-- Limit and REASON of a phase (09 Table 09-8); Confirm's is 2¹⁸ × F. -/
def phaseLimit (x : Port) : Nat × Nat :=
  match x.phase with
  | .lock => (Config.ms 10, 2)
  | .equalise => (Config.ms 30, 3)
  | .align => (Config.ms 2, 4)
  | .measure => (Config.ms 1, 6)
  | .confirm => (Config.ns (2 ^ 18 * frameNs (mapLanes x).width), 7)

/-- TRAIN_PHASE_TIMEOUT: the phase has reached its limit (09 Table 09-8). -/
def execTrainPhaseTimeout (p : PortId) (s : State) : Result :=
  onSys (whenState p .train fun y =>
    let l := phaseLimit (y.chip.port p)
    let y := y.await ((y.chip.port p).since + l.1)
    y.onChip (enterDown p l.2 y.now)) s

/-- LANE_FAIL: a lane in use fails, and the port enters RETRAIN (09 R242), at the end of an operating-point transition in
progress (16 R431). -/
def execLaneFail (p : PortId) (lane : LaneId) (s : State) : Result :=
  onSys (fun y => y.onChip fun c =>
    let x := c.port p
    if x.carries && x.used.toNat.testBit lane.val then
      goRetrain p y.now (c.onPort p fun x => { x with failed := x.failed ||| BitVec.ofNat 8 (2 ^ lane.val) })
    else c) s

/-- RETRAIN_PATTERN_SEEN: a port in UP enters RETRAIN with its partner (09 R243). -/
def execRetrainPatternSeen (p : PortId) (s : State) : Result :=
  onSys (fun y => y.onChip (goRetrain p y.now)) s

/-- RETRAIN_DONE: the healthy set gives the width and mapping, and the transmitter replays from ACKSEQ + 1 as a new
replay event; no lane is REASON 9 (09 R243, R244). -/
def execRetrainDone (p : PortId) (peerFailed : BitVec 8) (s : State) : Result :=
  onSys (fun y => y.onChip (inState p .retrain fun c =>
    let c := c.onPort p fun x => { x with peerFailed := x.peerFailed ||| peerFailed }
    if (healthySet (c.port p)).isEmpty then enterDown p 9 y.now c
    else replayEvent p y.now (enterUp p y.now (c.onPort p fun x => { x with nakRun := 0 })))) s

/-- RETRAIN_TIMEOUT: not done within 20 µs: REASON 8, or 9 when no lane remains (09 Table 09-7). -/
def execRetrainTimeout (p : PortId) (s : State) : Result :=
  onSys (whenState p .retrain fun y =>
    let y := y.await ((y.chip.port p).since + Config.us 20)
    y.onChip fun c => enterDown p (if (healthySet (c.port p)).isEmpty then 9 else 8) y.now c) s

/-- DOWN_TIMEOUT: DETECT again 1 s after entry, while ENABLE is 1 (09 Table 09-7). -/
def execDownTimeout (p : PortId) (s : State) : Result :=
  onSys (whenState p .down fun y =>
    if (y.chip.port p).enable then
      let y := y.await ((y.chip.port p).since + Config.sec 1)
      y.onChip (enterDetect p y.now)
    else y) s

/-- Every port that is UP, or will be again, owes its partner a LINK frame (10 R277, 16 R429). -/
def tellPartners (c : Chip) : Chip :=
  allPorts.foldl (fun c p => c.onPort p fun x => { x with linkDue := x.linkDue || x.carries }) c

/-- TRAY_INDEX_WRITE: FAB_SELF.TRAY, run-locked; every UP port sends the new number in a LINK frame (10 R277, When events
coincide). -/
def writeTrayIndex (value : Word) (y : Sys) : Sys :=
    let tray := natField value.toNat 4 9
    let c := y.chip
    if c.fab.trayIdx.toNat == tray then y
    else if c.map.run then y.onChip fun c => c.cfgDiscard 0x4180
    else
      y.onChip fun c => tellPartners { c with fab := { c.fab with trayIdx := BitVec.ofNat 9 tray } }

/-! Retry (09 section 4). -/

/-- REPLAY_TIMEOUT: ACKSEQ has not advanced for 1 µs while frames are unacknowledged (09 R231). -/
def execReplayTimeout (p : PortId) (s : State) : Result :=
  onSys (whenState p .up fun y =>
    let x := y.chip.port p
    if x.replay.isEmpty then y
    else
      let y := y.await (x.ackAt + Config.us 1)
      y.onChip (replayEvent p y.now)) s

/-- FAB_RETRY_RATE: an interval ends; more than LIMIT replay events in it raise source 26, if they have not done so as they
were counted (09 R236). -/
def execFabRetryRate (p : PortId) (s : State) : Result :=
  onSys (fun y =>
    let x := y.chip.port p
    if x.retryInterval == 0 then y
    else
      let y := (y.await (x.intervalAt + Config.ms x.retryInterval.toNat)).onChip (checkRate p)
      y.onChip fun c => c.onPort p (rollInterval y.now)) s

/-! Receiving (09 R228-R231; 10 R252, R267, R271; 11 R304). -/

/-- The physical lane that carried frame byte i (09 R224, R228). -/
def laneOfByte (x : Port) (i : Nat) : Option LaneId :=
  let ls := lanesOf x.used
  if ls.isEmpty then none else finOf 8 (ls.getD (i % ls.length) 0)

/-- A corrected byte is counted for its lane, in the counter and in the running 1 ms interval (09 R228, R242). -/
def countCorrection (x : Port) (i : Nat) : Port :=
  match laneOfByte x i with
  | some k => { x with laneCorr := x.laneCorr.set k (satInc x.laneCorr[k]), laneMs := x.laneMs.set k (x.laneMs[k] + 1) }
  | none => x

/-- A new 1 ms interval, when the last one has passed. -/
def rollLaneMs (now : Nat) (x : Port) : Port :=
  if x.laneMsAt + Config.ms 1 ≤ now then
    { x with laneMsAt := x.laneMsAt + (now - x.laneMsAt) / Config.ms 1 * Config.ms 1, laneMs := Vector.replicate 8 0 }
  else x

/-- The lanes in use with more corrected bytes in the interval than FAIL_THRESH (09 R242). -/
def lanesOver (x : Port) : BitVec 8 :=
  BitVec.ofNat 8 (((List.finRange 8).filter fun k => x.used.toNat.testBit k.val && x.failThresh.toNat < x.laneMs[k]).foldl
    (fun a k => a + 2 ^ k.val) 0)

/-- ACKSEQ frees the frames it acknowledges (09 R229): of n unacknowledged frames ending at txSeq − 1, those up to
ACKSEQ. -/
def ackFrames (now : Nat) (ackSeq : BitVec 10) (x : Port) : Port :=
  let left := (x.txSeq - 1 - ackSeq).toNat
  if left < x.replay.length then
    { x with replay := x.replay.drop (x.replay.length - left), resend := min x.resend left, ackAt := now, nakRun := 0 }
  else x

/-- Frames that the link-side ingress holds, those in the receive pad not counted. -/
def heldFrames (x : Port) : Nat := (x.ingress.filter fun i => i.gate.isSome).length

/-- Frames held in ingress set XOFF at 64 and clear it at 32 (10 R271). -/
def ingressXoff (x : Port) : Port :=
  if 64 ≤ heldFrames x then { x with xoffOut := true }
  else if heldFrames x ≤ 32 then { x with xoffOut := false }
  else x

def takeXoff (xoff : Bool) (x : Port) : Port :=
  updateHoldReq { x with xoffIn := xoff, xoffCount := if xoff && !x.xoffIn then satInc x.xoffCount else x.xoffCount }

def kindOf (msg : Dword) : Nat := natField msg.toNat 0 2
def opOf (msg : Dword) : Nat := natField msg.toNat 2 3

/-- Cycles the arrival gate keeps a scheduled line: lag less partner lag, in run state (11 R304, R305). -/
def gateCycles (c : Chip) (x : Port) : Nat :=
  if c.map.run then c.time.lag.toNat - x.partnerLag.toNat else 0

/-- A frame whose receive pad is over reaches the link-side ingress, where a scheduled line's gate is set (11 R304). -/
def admitFrame (c : Chip) (now : Nat) (x : Port) (i : InFrame) : InFrame :=
  if i.gate.isNone && i.ready ≤ now then
    { i with gate := some (if kindOf i.frame.msg == 0 then gateCycles c x else 0) }
  else i

/-- Frames of a port whose receive pad is over. -/
def admitPort (now : Nat) (p : PortId) (c : Chip) : Chip :=
  if (c.port p).ingress.all fun i => i.gate.isSome then c
  else c.onPort p fun x => ingressXoff { x with ingress := x.ingress.map (admitFrame c now x) }

/-- Of the frames of a port that answer a question, the oldest reaches the ingress, if it is still in the receive pad. -/
def Sys.awaitFrame (p : PortId) (is : InFrame → Bool) (y : Sys) : Sys :=
  match (y.chip.port p).ingress.find? is with
  | some i =>
    let y := y.awaitIf i.gate.isNone i.ready
    y.onChip (admitPort y.now p)
  | none => y

/-- The receive pad of a frame in units of `now`: Dmax − D, and for a scheduled line with STRICT set 112 ns more, less what
the replay that brought it has cost (01 R29; 08 R213; 09 R235, R241; log entry 98). -/
def padOf (strict : Bool) (kind : Nat) (x : Port) : Nat :=
  if kind == 0 && strict then Config.ns (x.pad.toNat + 112) - x.late.1 else Config.ns x.pad.toNat

/-- An accepted MESSAGE frame: a reserved OP, or a reserved TTYPE, is discarded with source 27 (10 R252, 11 R290); in run state with STRICT set
a host-injected frame is discarded and counted (10 R267); otherwise it waits in the receive pad and then in the ingress. -/
def takeMessage (p : PortId) (f : Frame) (now : Nat) (c : Chip) : Chip :=
  let kind := kindOf f.msg
  if (kind == 1 && 5 ≤ opOf f.msg) || (kind == 2 && 4 ≤ natField f.msg.toNat 2 4) then c.routeError 7 p.val 0
  else if kind == 1 && c.map.run && c.time.strict then
    { c with fab := { c.fab with hostDrop := satInc c.fab.hostDrop } }
  else
    admitPort now p (c.onPort p fun x =>
      { x with ingress := x.ingress ++ [⟨f, now + padOf c.time.strict kind x, none⟩] })

/-- A frame that the receiver rejects: NAK, unless one is outstanding; then it is one more frame that the replay brings late (09
R230, R232). -/
def rejectFrame (now : Nat) (x : Port) : Port :=
  if x.nakOut then { x with late := (x.late.1, x.late.2 + 1) }
  else { x with rejectCount := satInc x.rejectCount, nakDue := true, nakOut := true, rejectAt := some now, late := (0, 1) }

/-- A frame is accepted: it is acknowledged from here on, and its ACKSEQ and XOFF are taken (09 R228-R230, R234). -/
def acceptFrame (now : Nat) (l : Lctl) (x : Port) : Port :=
  let late := match x.rejectAt with
    | some t => (now - t, x.late.2)
    | none => x.late
  takeXoff l.xoff (ackFrames now l.ackSeq
    { x with rxSeq := x.rxSeq + 1, nakOut := false, nakDue := false, rejectAt := none, late := late })

/-- One of the frames that a replay brings late has come. -/
def lessLate (x : Port) : Port := { x with late := if x.late.2 ≤ 1 then (0, 0) else (x.late.1, x.late.2 - 1) }

/-! LINK frames (09 Table 09-3; 10 R277; 16 R429; log entry 39). -/

/-- The LINK frame of an UP port: chip number in bytes 0 and 1, operating point in byte 2. -/
def linkFrame (c : Chip) : Frame :=
  { typ := 2, payload := Line.ofBytes (leBytes 2 c.self ++ [BitVec.ofNat 8 c.pwr.point.toNat]), msg := 0 }

/-- A partner's LINK frame: its chip number and operating point (09 R240, 16 R429). -/
def takeLink (f : Frame) (x : Port) : Port :=
  { x with peerChip := BitVec.ofNat 13 (f.payload.leNat 0 2), peerPoint := some (BitVec.ofNat 2 (f.payload.leNat 2 1)) }

/-- A frame that the FEC has corrected. -/
def receiveFrame (p : PortId) (frame : List Byte) (now : Nat) (c : Chip) : Chip :=
  let x := c.port p
  let l := frameLctl frame
  if crcPasses x.rxSeq frame && (!x.nakOut || l.rpl) then
    let c := c.onPort p (acceptFrame now l)
    let c := if l.nak then replayEvent p now c else c
    let c := if l.typ == 1 then takeMessage p (frameOf frame) now c
      else if l.typ == 2 then c.onPort p (takeLink (frameOf frame))
      else c
    c.onPort p lessLate
  else c.onPort p (rejectFrame now)

/-! Egress (10 R268-R273). -/

/-- Lines of the mesh that have reached the ports' attach tiles enter their core-side paths, lower virtual tile first, with
the hop they leave by taken off their route; lines at the end of a path enter the egress, and broken messages go on (06 R171;
08 R211, R212; 10 R254, R268). -/
def deliverPorts (c : Chip) : Chip :=
  let c := meshAdvance c
  let isDue := fun (l : MeshLine) => match l.dst with
    | .port _ _ => arrived c l
    | _ => false
  let due := byArrival c (c.cmp.mesh.lines.filter isDue)
  let c := { c with cmp := { c.cmp with mesh := { c.cmp.mesh with lines := c.cmp.mesh.lines.filter fun l => !isDue l } } }
  let c := due.foldl (fun c l => match l.dst with
    | .port p msg =>
      (portPut p false l.src l.line (afterHop msg) (if c.map.run then sinceArrival c l else 0) c).onPort p (passFills l.src)
    | _ => c) c
  allPorts.foldl (fun c p => fillCycle (advancePipe c p) p) c

/-- The scheduled line that goes next: due, not behind a LAG frame; transit first, then the lower tile, then the
older (10 R268, 11 R303). -/
def pickSched (cycles : Nat) (xs : List SchedLine) : Option (Nat × SchedLine) :=
  xs.zipIdx.foldl (fun best (x, i) =>
    if cycles < x.due || x.behindLag then best
    else match best with
      | none => some (i, x)
      | some (j, b) =>
        if (x.transit && !b.transit) || (x.transit == b.transit && !x.transit && x.tile < b.tile) then some (i, x)
        else some (j, b)) none

/-- A scheduled line that is available, or will be at the end of its core-side path, is due within the frame time F (10 R269,
11 R303). -/
def schedSoon (c : Chip) (x : Port) : Bool :=
  let f := (Config.ns (frameNs x.width) + corePeriod c.pwr.point - 1) / corePeriod c.pwr.point
  (x.sched ++ x.pipe).any fun l => !l.behindLag && l.due < c.cmp.cycles + f

/-- What the egress sends. -/
inductive Pick where
  | resend (f : Frame)
  | sched (i : Nat) (f : Frame)
  | time (k : Fin 4) (f : Frame)
  | host (f : Frame)
  | mgmt (f : Frame)
  | link (f : Frame)
  | idle
  /-- No frame of any kind: the replay buffer is full (10 R273). -/
  | nothing
  deriving DecidableEq, Repr

def idleFrame : Frame := { typ := 0, payload := Line.zero, msg := 0 }

/-- Waiting time frames leave in the order ABORT, LAG, LAUNCH, SYNC (11 R291). -/
def pickTime (x : Port) : Option (Fin 4 × Frame) :=
  ([2, 3, 1, 0] : List (Fin 4)).findSome? fun k => (x.time[k]).map fun f => (k, f)

/-- The rank order of R268, with XOFF (09 R234), the free-slot rule of R269, STRICT (R267) and a full replay buffer (R273). In an
operating-point transition a port sends IDLE frames, or, having lost lanes, nothing (09 R223, 16 R431). A LINK frame goes in
place of an IDLE frame (DESIGN CHOICE, log entry 39). -/
def pickFrame (c : Chip) (x : Port) : Pick :=
  if c.pwr.busy && x.retrainDue then .nothing
  else if x.resend != 0 && !c.pwr.busy then .resend (x.replay.getD (x.replay.length - x.resend) idleFrame)
  else if 128 ≤ x.replay.length then .nothing
  else if c.pwr.busy then .idle
  else
    let rest : Pick := if x.linkDue then .link (linkFrame c) else .idle
    if x.xoffIn then rest
    else match pickSched c.cmp.cycles x.sched with
      | some (i, l) => .sched i l.frame
      | none =>
        if schedSoon c x then rest
        else match pickTime x with
          | some (k, f) => .time k f
          | none =>
            match (if c.map.run && c.time.strict then none else x.host.head?), x.mgmt with
            | some f, _ => .host f
            | none, f :: _ => .mgmt f
            | none, [] => rest

/-- STAMP of a SYNC frame: the GTC count at which it is sent (11 R284). -/
def stampSync (gtc : Dword) (k : Fin 4) (f : Frame) : Frame :=
  if k == 0 then { f with payload := Line.ofBytes (leBytes 8 gtc.toNat ++ f.payload.bytes.drop 8) } else f

/-- The frame a choice puts on the line. -/
def pickedFrame (gtc : Dword) : Pick → Frame
  | .resend f => f
  | .sched _ f => f
  | .time k f => stampSync gtc k f
  | .host f => f
  | .mgmt f => f
  | .link f => f
  | .idle => idleFrame
  | .nothing => idleFrame

/-- The queues after a choice; a sent LAG frame releases the lines that waited behind it (11 R303). A new frame sent before
a replay is done will be discarded by the partner, and is replayed as well (09 R230). -/
def afterPick (pk : Pick) (f : Frame) (now : Nat) (x : Port) : Port :=
  let sent := fun (x : Port) =>
    { x with replay := x.replay ++ [f], txSeq := x.txSeq + 1, ackAt := if x.replay.isEmpty then now else x.ackAt,
             resend := if x.resend == 0 then 0 else x.resend + 1 }
  match pk with
  | .resend _ => { x with resend := x.resend - 1, rplDue := false }
  | .sched i f =>
    let begun := match natField f.msg.toNat 2 2 with
      | 1 => x.begun + 1
      | 3 => x.begun - 1
      | _ => x.begun
    updateHoldReq (sent { x with sched := x.sched.eraseIdx i, schedCount := satInc x.schedCount, begun := begun })
  | .time k _ =>
    sent { x with time := x.time.set k none,
                  sched := if k == 3 then x.sched.map fun l => { l with behindLag := false } else x.sched,
                  pipe := if k == 3 then x.pipe.map fun l => { l with behindLag := false } else x.pipe }
  | .host _ => sent { x with host := x.host.drop 1, hostCount := satInc x.hostCount }
  | .mgmt _ => sent { x with mgmt := x.mgmt.drop 1 }
  | .link _ => sent { x with linkDue := false }
  | .idle => sent x
  | .nothing => x

/-- One frame time of a port that is UP: the frame chosen is numbered, sent and kept for replay; a full replay buffer
starts a replay event (09 R225, R229, R231; 10 R268, R273). -/
def egressFrame (p : PortId) (y : Sys) : Sys :=
  let c0 := y.chip
  let y := if 128 ≤ (c0.port p).replay.length && (c0.port p).resend == 0 then y.onChip (replayEvent p y.now) else y
  let c := y.chip
  let x := c.port p
  let pk := pickFrame c x
  if x.st != .up || pk == .nothing then y
  else
    let f := pickedFrame c.time.gtc pk
    let seq := match pk with
      | .resend _ => x.txSeq - BitVec.ofNat 10 x.resend
      | _ => x.txSeq
    let rpl := match pk with
      | .resend _ => x.rplDue
      | _ => false
    let l : Lctl := { ackSeq := x.rxSeq - 1, nak := x.nakDue, xoff := x.xoffOut, typ := f.typ, rpl := rpl }
    let y := y.onChip fun c =>
      let c := c.onPort p fun x => { afterPick pk f y.now x with nakDue := false }
      match pk with
      | .host f => markWon f y.now c
      | _ => c
    y.emit (.link p (encodeFrame seq l f.payload f.msg))

end Sys2Proof.Machine
end

