-- ==== Sys2Proof/Machine/RunState.lean ====
section
/-! DEFINITION. Entering and leaving run state, pours, aborts, and the end of a hold (03 section 8; 11 sections 4 to 8). -/

namespace Sys2Proof.Machine

/-! Time frames (11 Table 11-1). -/

def timeFrame (ttype : Nat) (payload : List Byte) : Frame :=
  { typ := 1, payload := Line.ofBytes payload, msg := BitVec.ofNat 64 (2 + ttype * 4) }

def syncFrame (t : TimeRegs) : Frame :=
  timeFrame 0 (leBytes 8 0 ++ [BitVec.ofNat 8 t.rootIdx.val, if t.locked then 1 else 0, 0, 0]
    ++ leBytes 4 t.heartbeat.toNat)

def launchFrame (l : Dword) (image : Word) (strict : Bool) (id : PourId) : Frame :=
  timeFrame 1 (leBytes 8 l.toNat ++ leBytes 4 image.toNat ++ [if strict then 1 else 0]
    ++ leBytes 2 id.origin.toNat ++ leBytes 1 id.seq.toNat)

def abortFrame (id : PourId) (cause aborter : Nat) : Frame :=
  timeFrame 2 (leBytes 2 id.origin.toNat ++ leBytes 1 id.seq.toNat ++ leBytes 1 cause ++ leBytes 2 aborter)

def lagFrame (lag : Dword) : Frame := timeFrame 3 (leBytes 8 lag.toNat)

def frameNat (f : Frame) (i n : Nat) : Nat := f.payload.leNat i n

/-- A frame of a TTYPE on every UP port but one; it replaces a waiting frame of its TTYPE (11 R291, R292). -/
def pourOn (k : Fin 4) (f : Frame) (except : Option PortId) (c : Chip) : Chip :=
  allPorts.foldl (fun c p =>
    if (c.port p).st == .up && except != some p then c.onPort p fun x => { x with time := x.time.set k (some f) }
    else c) c

/-! Run state (03 R84, R88; 04 R125; 11 R295-R299). -/

/-- A tile at the start of a program: registers, channels and queues of R125, R158 and R180; its scrubber goes on. -/
def Tile.start (t : Tile) : Tile :=
  { Tile.reset with w := Vector.replicate 2 WBuf.start, scrub := t.scrub }

/-- Every pending shadowed group is applied (03 R87, R88). -/
def applyGroups (c : Chip) : Chip :=
  let p := c.pwr
  let p := if p.steepPending then { p with steep := p.steepShadow, steepPending := false } else p
  let p := if p.monPending then { p with mon := p.monShadow, monPending := false } else p
  { c with pwr := p }

/-- Host requests of the search unit, queued and in service: each is refused as run state begins (12 R317). -/
def hostSearches (c : Chip) : Nat :=
  ((c.srch.queue ++ (c.srch.active.map fun a => a.req).toList).filter fun r => match r.origin with
    | .host _ _ => true
    | .tile _ _ => false).length

/-- Lag, partner lags, gates and time egress entries clear (11 R313). -/
def clearLags (c : Chip) : Chip :=
  { c with
    time := { c.time with lag := 0, lagSent := 0, holdSince := none },
    fab := { c.fab with ports := c.fab.ports.map fun x =>
      { x with time := Vector.replicate 4 none, partnerLag := 0,
               ingress := x.ingress.map fun i => { i with gate := i.gate.map fun _ => 0 },
               sched := x.sched.map fun l => { l with behindLag := false },
               pipe := x.pipe.map fun l => { l with behindLag := false } } } }

/-- Enter run state for a launch: program state is set, the lag, partner lags, gates and time egress clear (11 R313), a
trace that is enabled restarts (03 R94), and SEARCH requests are refused (12 R317). -/
def enterRun (l : Dword) (id : PourId) (c : Chip) : Chip :=
  let c := hifRefuseSearches { c with srch := { c.srch with refused := satAdd c.srch.refused (hostSearches c) } }
  let trace := c.map.traceEnable
  let c := clearLags c
  { c with
    map := { c.map with run := true, tracing := trace, trace := if trace then [] else c.map.trace,
                        traceFull := if trace then false else c.map.traceFull },
    time := { c.time with launchL := l, launch := some id },
    cmp := { c.cmp with tiles := c.cmp.tiles.map Tile.start, pcc := 0, started := false, holds := [], waits := [],
                        mesh := Mesh.empty },
    srch := { c.srch with queue := [], active := none, reserved := [], lastEnd := 0, clearDue := true },
    pwr := { c.pwr with gov := c.pwr.gov.map fun g => { g with ceiling := none, forecast := none } } }

/-- Complete the open messages of every mapped tile (06 R171). -/
def completeEveryOpen (c : Chip) : Chip :=
  (List.range (16 * c.map.vc)).foldl (fun c v =>
    match c.map.phys v with
    | some p => completeAllOpen v p c
    | none => c) c

/-- Leave run state (11 R299, R300): issue stops, open messages are completed, tile requests of the search unit are
abandoned (12, When events coincide), the launch completes, as aborted or as ended, and input that was not admitted is
dropped (13 R356, R362), and pending groups apply. -/
def leaveRun (aborted : Bool) (c : Chip) : Chip :=
  if !c.map.run then c
  else
    let c := hifRunEnd aborted (completeEveryOpen c)
    applyGroups
      { c with
        map := { c.map with run := false, tracing := false },
        time := { c.time with launch := none, holdSince := none },
        cmp := { c.cmp with started := false, holds := [], waits := [],
                            mesh := { c.cmp.mesh with lines := c.cmp.mesh.lines.map (MeshLine.afterRun c.cmp.pcc c.cmp.cycles) } },
        srch := { c.srch with queue := [], active := none, outs := c.srch.outs.filter SearchOut.forHost, reserved := [], lastEnd := 0 },
        pwr := { c.pwr with gov := c.pwr.gov.map fun g => { g with ceiling := none, forecast := none } },
        fab := { c.fab with ports := c.fab.ports.map fun x =>
          { x with ingress := x.ingress.map fun i => { i with gate := i.gate.map fun _ => 0 } } } }

/-- TIME_ABORT takes the latest abort (11 Table 11-9). -/
def recordAbort (cause aborter : Nat) (c : Chip) : Chip :=
  { c with time := { c.time with abortCause := BitVec.ofNat 4 cause, aborter := BitVec.ofNat 13 aborter,
                                 abortValid := true } }

/-- Start an abort pour for a launch: record it, and flood it (11 R292). -/
def pourAbort (id : PourId) (cause : Nat) (c : Chip) : Chip :=
  let c := recordAbort cause c.self c
  let c := { c with time := { c.time with seenAbort := c.time.seenAbort ++ [id] } }
  pourOn 2 (abortFrame id cause c.self) none c

/-- Abort the own run (11 R299, R300); nothing out of run state. -/
def startAbort (cause : Nat) (c : Chip) : Chip :=
  match c.map.run, c.time.launch with
  | true, some id => leaveRun true (pourAbort id cause c)
  | true, none => leaveRun true (recordAbort cause c.self c)
  | false, _ => c

/-! Holds (04 R104, R105; 11 R302, R303, R307). -/

/-- A hold other than a WAIT_GTC wait (06 R178, 11 R307). A cycle in which a wait overlaps such a hold is a cycle of it (DESIGN
CHOICE, log entry 102). -/
def Chip.limitHold (c : Chip) : Bool :=
  c.cmp.holds.any (fun h => h.bundle ≤ c.cmp.pcc &&
      match h.resume with
      | none => true
      | some r => decide (c.cmp.cycles < r))
    || c.fab.ports.toList.any (fun p => p.holdReq) || c.brownout

/-- When nothing holds any more and the lag has grown, each UP port queues a LAG frame (11 R303). -/
def resumeIssue (c : Chip) : Chip :=
  if c.holding then c
  else
    let c := { c with time := { c.time with holdSince := none } }
    if c.time.lag == c.time.lagSent then c
    else { pourOn 3 (lagFrame c.time.lag) none c with time := { c.time with lagSent := c.time.lag } }

end Sys2Proof.Machine
end

