-- ==== Sys2Proof/Machine/Time.lean ====
section
/-! DEFINITION. Frequency tree, global time counter, launch, the abort pour, lag frames, the start and end of a run, and
HOLD_LIMIT (11). -/

namespace Sys2Proof.Machine

/-! The tree (11 section 1). -/

/-- The chip is the time root: its number is the current candidate's, or no candidate is valid (11 R279, R313). -/
def Chip.isRoot (c : Chip) : Bool :=
  let r := c.time.rootOrder[c.time.rootIdx]
  c.time.rootOrder.toList.all (fun e => !e.valid) || (r.valid && r.chip.toNat == c.self)

/-- The ports of the active parent list, in priority order (11 R278). -/
def Chip.parentList (c : Chip) : List PortId :=
  ((c.time.parents[c.time.rootIdx]).toList.filter fun e => e.valid).map fun e => e.port

/-- From the start of an operating-point transition until 30 µs after its end (16 R428). -/
def Chip.nearTransition (c : Chip) (now : Nat) : Bool :=
  match c.pwr.opStart with
  | some t => c.pwr.busy || now < t + Config.us 180
  | none => false

/-- A port that is UP and delivers SYNC frames: the last came less than 30 µs ago, or a transition suspends the rule; and whose
partner reports no other operating point (11 R279, R280; 16 R428, R429). -/
def Chip.delivers (c : Chip) (now : Nat) (p : PortId) : Bool :=
  (c.port p).st == .up && ((c.port p).syncAt.any fun t => now < t + Config.us 30 || c.nearTransition now)
    && (c.port p).peerPoint.all fun k => k == c.pwr.point

/-- The first usable port of the list, other than a lost one (11 R279, R280). -/
def Chip.usableParent (c : Chip) (now : Nat) (lost : Option PortId) : Option PortId :=
  c.parentList.find? fun p => lost != some p && c.delivers now p

/-- A new parent: locked to it, recorded; the 30 µs of R280 and R288 count from here (11 R280; log entry 96). -/
def takeParent (p : PortId) (now : Nat) (c : Chip) : Chip :=
  { c with time := { c.time with parent := p, role := 1, syncAt := now, heartbeatAt := now } }

/-- No usable port: holdover, source 31 and LOCKED 0, and in run state an abort pour with cause SYNC (11 R281). -/
def loseLock (now : Nat) (c : Chip) : Chip :=
  let c := { c with time := { c.time with role := 2, locked := false } }
  startAbort 8 (c.assert 31 .chip now)

/-- The chip has become the root: it keeps its own count, and is locked (11 R286, R288, R313). -/
def becomeRoot (now : Nat) (c : Chip) : Chip :=
  { c with time := { c.time with role := 0, locked := true } }.lower 31 now

/-- The chip takes its place in the tree of the current root index: root, or locked to the first usable port of its list, or
on holdover (11 R279, R281, R288). -/
def takePlace (now : Nat) (c : Chip) : Chip :=
  if c.isRoot then becomeRoot now c
  else match c.usableParent now none with
    | some p => takeParent p now c
    | none => loseLock now c

/-- From the start of an operating-point transition until 30 µs after its end (16 R428). -/
def nearTransition (y : Sys) : Bool := y.chip.nearTransition y.now

/-- The current parent can be lost: it is neither UP nor in RETRAIN, or, UP, it delivers no SYNC frame for 30 µs (11 R280). -/
def parentLost (y : Sys) : Bool :=
  let c := y.chip
  let st := (c.port c.time.parent).st
  !c.isRoot && c.time.role == 1 &&
    ((st != .up && st != .retrain) ||
      (st == .up && !nearTransition y))

/-- PARENT_LOSS: source 30 and the next usable port, or holdover (11 R280, R281). -/
def execParentLoss (s : State) : Result :=
  onSys (fun y =>
    if parentLost y then (y.awaitIf ((y.chip.port y.chip.time.parent).st == .up) (y.chip.time.syncAt + Config.us 30)).onChip fun c =>
      match c.usableParent y.now (some c.time.parent) with
      | some p => takeParent p y.now (c.raise 30 .chip)
      | none => loseLock y.now (c.raise 30 .chip)
    else y) s

/-- The parent holds its place until PARENT_LOSS: it is in RETRAIN, or is no longer UP, or has fallen silent (11 R280). -/
def parentStays (now : Nat) (c : Chip) : Bool :=
  c.time.role == 1 && ((c.port c.time.parent).st != .up || c.time.syncAt + Config.us 30 ≤ now)

/-- PARENT_RELOCK: a chip on holdover, or newly not the root, locks to the first usable port of its list; where it finds none,
source 31 rises (11 R281). So does a locked chip of whose list an earlier port has become usable, without a source, since it has
lost none (11 R279; log entry 96). -/
def execParentRelock (s : State) : Result :=
  onSys (fun y => y.onChip fun c =>
    if c.isRoot || c.pwr.busy || parentStays y.now c then c
    else match c.usableParent y.now none with
      | some p => if c.time.role == 1 && p == c.time.parent then c else takeParent p y.now c
      | none => if c.time.role == 1 then c else loseLock y.now c) s

/-- ROOT_FAILOVER: no advance of HEARTBEAT for 30 µs while the parent is UP: the next root index and its parent list, with
source 30 (11 R288, R289). -/
def execRootFailover (s : State) : Result :=
  onSys (fun y =>
    let c := y.chip
    if !c.isRoot && c.time.role == 1 && (c.port c.time.parent).st == .up && !nearTransition y then
      let y := y.await (c.time.heartbeatAt + Config.us 30)
      y.onChip fun c =>
        let idx : Fin 4 := c.time.rootIdx + 1
        takePlace y.now (({ c with time := { c.time with rootIdx := idx, heartbeatAt := y.now } }).raise 30 .chip)
    else y) s

/-! SYNC frames (11 section 2). -/

/-- SYNC_SEND: every 12,500 ticks a SYNC frame on every UP port; the root advances HEARTBEAT (11 R284, R288). -/
def execSyncSend (s : State) : Result :=
  onSys (fun y =>
    let c := y.chip
    let y := y.awaitIf (timeBaseRuns c) (y.now + 12 * (12500 + c.time.skip - (c.time.gtc - c.time.syncSentAt).toNat))
    y.onChip fun c =>
    if (c.time.gtc - c.time.syncSentAt).toNat < 12500 then c
    else
      let t := { c.time with syncSentAt := c.time.gtc,
                             heartbeat := if c.isRoot then c.time.heartbeat + 1 else c.time.heartbeat }
      pourOn 0 (syncFrame t) none { c with time := t }) s

/-- A time frame of a TTYPE. -/
def isTime (ttype : Nat) (i : InFrame) : Bool := kindOf i.frame.msg == 2 && natField i.frame.msg.toNat 2 4 == ttype

/-- The oldest frame of the port's ingress that is a time frame of a TTYPE, and the chip without it. -/
def takeTimeFrame (p : PortId) (ttype : Nat) (c : Chip) : Option (InFrame × Chip) :=
  match (c.port p).ingress.find? (isTime ttype) with
  | none => none
  | some i => some (i, c.onPort p fun x => ingressXoff { x with ingress := x.ingress.eraseP (isTime ttype) })

/-- What a command does with the oldest time frame of a TTYPE that a port has received, once its link-side time is over. -/
def onTimeFrame (p : PortId) (ttype : Nat) (f : Nat → InFrame → Chip → Chip) (s : State) : Result :=
  onSys (fun y =>
    let y := y.awaitFrame p (isTime ttype)
    y.onChip fun c => match takeTimeFrame p ttype c with
      | none => c
      | some (i, c) => f y.now i c) s

/-- N of a class in ticks: N / 0.8 ns (11 R284). -/
def linkTicks (cls : BitVec 2) : Nat :=
  match cls.toNat with
  | 0 => 220
  | 1 => 270
  | _ => 420

/-- The 16-bit signed offset, saturated (11 Table 11-8). -/
def offsetField (o : Int) : BitVec 16 := BitVec.ofInt 16 (max (-32768) (min 32767 o))

/-- The GTC under a measured offset: out of run state a step by the whole of it; in run state at most one tick, never
backward (11 R285, R287). -/
def correctGtc (run : Bool) (o : Int) (t : TimeRegs) : TimeRegs :=
  if !run then { t with gtc := BitVec.ofInt 64 ((t.gtc.toNat : Int) - o) }
  else if o == 0 then t
  else if o < 0 then { t with gtc := t.gtc + 1 }
  else { t with skip := t.skip + 1 }

/-- A SYNC frame from the current parent, whose link-side time ended `ago` ticks ago (11 R284-R288). -/
def applySync (f : Frame) (p : PortId) (ago now : Nat) (c : Chip) : Chip :=
  let run := c.map.run
  let o : Int := (BitVec.toInt (c.time.gtc - BitVec.ofNat 64 (ago + frameNat f 0 8 + linkTicks (c.port p).cls)))
  let inTick := o.natAbs ≤ 1
  let hb := BitVec.ofNat 32 (frameNat f 12 4)
  let t := correctGtc run o c.time
  let t := { t with syncAt := now, syncOffset := offsetField o,
                    locked := inTick,
                    rootIdx := (finOf 4 (frameNat f 8 1)).getD t.rootIdx, heartbeat := hb,
                    heartbeatAt := if hb == t.heartbeat then t.heartbeatAt else now }
  let c := { c with time := t }
  if c.isRoot then becomeRoot now c
  else if inTick then c.lower 31 now
  else if run && 2 < o.natAbs then startAbort 8 (c.assert 31 .chip now)
  else c

/-- SYNC_FRAME: the oldest SYNC frame of a port, which thereby delivers (11 R279); only the current parent's is used (11
R284). -/
def execSyncFrame (p : PortId) (s : State) : Result :=
  onTimeFrame p 0 (fun now i c =>
    let c := c.onPort p fun x => { x with syncAt := some now }
    if !c.isRoot && c.time.role == 1 && p == c.time.parent then applySync i.frame p ((now - i.ready) / 12) now c else c) s

/-! Launch and abort pours (11 sections 5 and 6). -/

/-- The cause for which a first LAUNCH frame is refused by an armed chip, if it is (11 R296, Table 11-9). -/
def launchCause (c : Chip) (f : Frame) : Option Nat :=
  if c.map.run then some 5
  else if BitVec.ofNat 32 (frameNat f 8 4) != c.time.imageId then some 2
  else if (frameNat f 12 1).testBit 0 != c.time.strict then some 3
  else if frameNat f 0 8 ≤ c.time.coreView.toNat then some 4
  else none

/-- LAUNCH_POUR (11 R292, R296). An armed chip whose map is not valid enters run state like any other: R296 names the checks of
a pour, and the map is none of them (DESIGN CHOICE, log entry 103). -/
def execLaunchPour (p : PortId) (s : State) : Result :=
  onTimeFrame p 1 (fun _ i c =>
      let f := i.frame
      let id : PourId := ⟨BitVec.ofNat 13 (frameNat f 13 2), BitVec.ofNat 8 (frameNat f 15 1)⟩
      if c.time.seenLaunch.contains id then c
      else
        let c := { c with time := { c.time with seenLaunch := c.time.seenLaunch ++ [id] } }
        if !c.time.arm then pourOn 1 f (some p) c
        else match launchCause c f with
          | none => pourOn 1 f (some p) (enterRun (BitVec.ofNat 64 (frameNat f 0 8)) id c)
          | some cause => pourAbort id cause ((pourOn 1 f (some p) c).raise 32 .chip)) s

/-- ABORT_POUR (11 R292, R299, R300). -/
def execAbortPour (p : PortId) (s : State) : Result :=
  onTimeFrame p 2 (fun _ i c =>
      let f := i.frame
      let id : PourId := ⟨BitVec.ofNat 13 (frameNat f 0 2), BitVec.ofNat 8 (frameNat f 2 1)⟩
      if c.time.seenAbort.contains id then c
      else
        let c := { c with time := { c.time with seenAbort := c.time.seenAbort ++ [id] } }
        let c := pourOn 2 f (some p) c
        if c.map.run && c.time.launch == some id then
          leaveRun true (recordAbort (frameNat f 3 1 % 16) (frameNat f 4 2 % 8192) c)
        else c) s

/-- LAG_FRAME: the partner lag of the port (11 R304). -/
def execLagFrame (p : PortId) (s : State) : Result :=
  onTimeFrame p 3 (fun _ i c => c.onPort p fun x => { x with partnerLag := BitVec.ofNat 64 (frameNat i.frame 0 8) }) s

/-! The run (11 R297, R299, R307). -/

/-- Bundle 0 is next, and is fetched (04 R103, R125). -/
def beginProgram (ecc : List (Nat × EccMark)) (c : Chip) : Chip :=
  fetchBundles ecc { c with cmp := { c.cmp with started := true, pcc := 0 } }

/-- PROGRAM_START: the core view has reached L, and bundle 0 is next (11 R297, 04 R103). -/
def execProgramStart (s : State) : Result :=
  onSys (fun y =>
    if y.chip.map.run && !y.chip.cmp.started then
      (y.awaitView y.chip.time.launchL.toNat).onChip (beginProgram y.ecc)
    else y) s

/-- Every mapped tile has ended or is blocked, no message is open, and no scheduled line is left on its way out (11 R299). -/
def runOver (c : Chip) : Bool :=
  (List.range (16 * c.map.vc)).all (fun v =>
    match c.map.phys v with
    | some p =>
      let t := c.tile p
      (t.ended || t.blocked) && t.openMsg.toList.all (fun m => m.isNone) && (queuedLines t).isEmpty
    | none => true)
    && c.cmp.mesh.lines.all (fun l => match l.dst with | .port _ _ => false | _ => true)
    && c.fab.ports.toList.all (fun x => x.sched.isEmpty && x.pipe.isEmpty && x.fills.isEmpty)

/-- RUN_END (11 R299). -/
def execRunEnd (s : State) : Result :=
  onChip (fun c => if c.map.run && c.cmp.started && runOver c then leaveRun false c else c) s

/-- HOLD_TIMEOUT: an unbroken hold longer than HOLD_LIMIT µs, 1,250 ticks each (11 R307). -/
def execHoldTimeout (s : State) : Result :=
  onSys (fun y =>
    let t := y.chip.time
    if y.chip.map.run && y.chip.limitHold then
      let left := max 1 t.holdLimit.toNat * 1250 + 1 + t.skip - (t.gtc - t.holdSince.getD t.gtc).toNat
      (y.await (y.now + 12 * left)).onChip fun c => startAbort 6 (c.raise 29 .chip)
    else y) s

end Sys2Proof.Machine
end

