-- ==== Sys2Proof/Machine/PowerOps.lean ====
section
/-! DEFINITION. Domains going on, off and into reset, the chip's power states, operating-point transitions, and CHIP_RESET
(16 sections 1 to 5; 15 Table 15-2). -/

namespace Sys2Proof.Machine

/-! What a domain loses (16 R418, R417). -/

/-- Virtual numbers of the mapped tiles of a quadrant. -/
def quadVirts (c : Chip) (q : Nat) : List Nat :=
  (List.range (16 * c.map.vc)).filter fun v =>
    match c.map.phys v with
    | some p => quadOf p.val == q
    | none => false

/-- The quadrant that a mesh line leaves from or goes to. -/
def lineTouches (c : Chip) (q : Nat) (l : MeshLine) : Bool :=
  let touch := fun (v : Nat) => match c.map.phys v with
    | some p => quadOf p.val == q
    | none => false
  touch l.src || match l.dst with
    | .tile v _ => touch v
    | _ => false

/-- A tile as a reset of its quadrant domain leaves it: the scrubber's pointers and coverage go on (04 R126). -/
def Tile.cleared (t : Tile) : Tile := { Tile.reset with scrub := { t.scrub with readAt := none, pending := [] } }

def resetQuad (q : QuadId) (c : Chip) : Chip :=
  let g := c.pwr.gov[q]
  { c with
    cmp := { c.cmp with
      tiles := Vector.ofFn fun p => if quadOf p.val == q.val then (c.cmp.tiles[p]).cleared else c.cmp.tiles[p],
      mesh := { c.cmp.mesh with lines := c.cmp.mesh.lines.filter fun l => !lineTouches c q.val l } },
    pwr := { c.pwr with gov := c.pwr.gov.set q { g with hist := [], activity := 0, ceiling := none, forecast := none } } }

/-- The scrubbers of a quadrant that powers on restart at line 0, and so does their coverage interval (04 R126). -/
def restartScrubs (q : Nat) (c : Chip) : Chip :=
  let fresh := fun (t : Tile) => { t with scrub := { Scrub.reset with wrapAt := Vector.replicate 16 c.cmp.cycles } }
  { c with cmp := { c.cmp with
      tiles := Vector.ofFn fun p => if quadOf p.val == q then fresh c.cmp.tiles[p] else c.cmp.tiles[p] } }

/-- The search unit's queue, reservations and request in service are abandoned (15 Table 15-2, 13 R358). -/
def abandonSearch (c : Chip) : Chip :=
  let c := hifRefuseSearches c
  { c with srch := { c.srch with
      queue := [], active := none, reserved := [], lastEnd := 0,
      outs := c.srch.outs.filter SearchOut.forHost } }

/-- The SRCH domain loses all but the AON registers of its block (12 R341). -/
def resetSearch (c : Chip) : Chip :=
  let c := c.srch.outs.foldl (fun c o => match o.origin with
    | .host q i => refuseSearch q i c
    | .tile _ _ => c) (abandonSearch c)
  let s := c.srch
  { c with srch := { SearchUnit.reset with
      served := s.served, partialCount := s.partialCount, refused := s.refused, eccCount := s.eccCount,
      eccOffset := s.eccOffset, eccValid := s.eccValid, scrubEnable := s.scrubEnable, gap := s.gap } }

/-- The HOST domain: the PCIe link goes down, and the interface, host engine and responder empty (10 R275, 13 R371, 15
R400). -/
def resetHost (c : Chip) : Chip :=
  let c := hifDisable c
  { c with hif := { c.hif with writes := [], linkUp := false, downRaised := false },
           fab := { c.fab with txns := [], responder := [] } }

def portsOf (bit : Nat) : List PortId := allPorts.filter fun p => portDomain p == bit

/-- The ports of FABA or FABB enter DISABLED and raise nothing (09 R238). -/
def resetPorts (bit now : Nat) (c : Chip) : Chip := (portsOf bit).foldl (fun c p => enterDisabled p now c) c

/-- The contents of the trace buffer are lost; the registers of the MAP block stay (03 R90, R91; log entry 104). -/
def resetDbg (c : Chip) : Chip :=
  { c with map := { c.map with trace := (List.range c.map.trace.length).map (Config.lostTrace c.cmp.cycles) } }

/-- A domain loses its state. -/
def resetDomain (bit now : Nat) (c : Chip) : Chip :=
  if bit == bitSrch then resetSearch c
  else if bit == bitHost then resetHost c
  else if bit == bitFaba || bit == bitFabb then resetPorts bit now c
  else if bit == bitDbg then resetDbg c
  else match finOf 4 (bit - 2) with
    | some q => if 2 ≤ bit then resetQuad q c else c
    | none => c

/-- Owners whose reset the power-on of a domain counts as (15 Table 15-2). -/
def domainOwners (c : Chip) (bit : Nat) : List Owner :=
  if bit == bitSrch then [.srch]
  else if bit == bitHost then [.hif]
  else if bit == bitFaba || bit == bitFabb then (portsOf bit).map fun p => .port p
  else if 2 ≤ bit && bit ≤ 5 then (quadVirts c (bit - 2)).map fun v => .tile v
  else []

def Chip.ownersReset (os : List Owner) (c : Chip) : Chip := { c with fc := os.foldl (fun k o => k.ownerReset o) c.fc }

def computeBits : List Nat := [2, 3, 4, 5, 6]
def fabBits : List Nat := [8, 9]

def maskOf (bits : List Nat) : BitVec 12 := BitVec.ofNat 12 (bits.foldl (fun a b => a + 2 ^ b) 0)

def resetDomains (bits : List Nat) (now : Nat) (c : Chip) : Chip := bits.foldl (fun c b => resetDomain b now c) c

/-- The compute domains lose their state, and the chip leaves run state (11 R299). -/
def stopCompute (now : Nat) (c : Chip) : Chip := clearLags (leaveRun false (resetDomains computeBits now c))

/-- A hardware reset of the compute domains (15 Table 15-2). -/
def resetCompute (now : Nat) (c : Chip) : Chip := (stopCompute now c).ownersReset [.chip]

/-! Domains held in reset (16 R430, R435). -/

/-- Ports of a domain that is on and out of reset start again, with sequence counters and pads reset (09 R249). -/
def startPorts (bit now : Nat) (c : Chip) : Chip :=
  if c.domOn bit then
    (portsOf bit).foldl (fun c p => enterDetect p now (c.onPort p fun x => { x with txSeq := 0, rxSeq := 0, pad := 0 })) c
  else c

/-- What restarts with the power-on of a domain: its ports, or its tiles' scrubbers (04 R126, 09 R249). -/
def startDomain (bit now : Nat) (c : Chip) : Chip :=
  if 2 ≤ bit && bit ≤ 5 then restartScrubs (bit - 2) c else startPorts bit now c

/-- Recompute which domains are held: the compute domains and the ports while a rail is in reset or a transition has
failed; `extra` is kept from a CHIP_RESET in a transition. Ports that come out of reset start again. -/
def setHeld (extra : BitVec 12) (now : Nat) (c : Chip) : Chip :=
  let base := if c.pwr.railReset != 0 || c.pwr.opFail then maskOf (computeBits ++ fabBits) else 0
  let old := c.pwr.held
  let c := { c with pwr := { c.pwr with held := base ||| extra } }
  fabBits.foldl (fun c b =>
    if old.toNat.testBit b && !c.pwr.held.toNat.testBit b then startPorts b now c else c) c

/-- What a CHIP_RESET in a transition still holds. -/
def heldByReset (c : Chip) : BitVec 12 := if c.pwr.busy && c.pwr.held.toNat.testBit bitHost then c.pwr.held else 0

/-! Power on and off (16 R418). -/

def setTrans (bit : Nat) (t : Option DomTrans) (c : Chip) : Chip :=
  match finOf 12 bit with
  | some i => { c with pwr := { c.pwr with trans := c.pwr.trans.set i t } }
  | none => c

def transOf (c : Chip) (bit : Nat) : Option DomTrans :=
  match finOf 12 bit with
  | some i => c.pwr.trans[i]
  | none => none

def setOn (bit : Nat) (on : Bool) (c : Chip) : Chip :=
  let m := maskOf [bit]
  { c with pwr := { c.pwr with on := if on then c.pwr.on ||| m else c.pwr.on &&& ~~~m } }

/-- A domain requested off stops at once; its supply goes over the next 20 µs. -/
def domainOff (bit now : Nat) (c : Chip) : Chip :=
  if c.pwr.on.toNat.testBit bit || (transOf c bit).any (fun t => t.on) then
    resetDomain bit now (setTrans bit (some ⟨false, now + Config.us 20⟩) (setOn bit false c))
  else c

/-- A domain requested on shows on after 20 µs; during a power-off the request waits for its end. -/
def domainOnReq (bit now : Nat) (c : Chip) : Chip :=
  if c.pwr.on.toNat.testBit bit || (transOf c bit).isSome then c
  else setTrans bit (some ⟨true, now + Config.us 20⟩) c

/-- Bit of PWR_DOM_STATUS.ON for bit k of PWR_DOM_REQ. -/
def reqBit (k : Nat) : Nat := if k < 5 then k + 2 else k + 3

/-- A switched domain is wanted on: requested, in ACTIVE. -/
def wanted (c : Chip) (bit : Nat) : Bool :=
  !c.pwr.lowIdle && !c.pwr.retention &&
    (if bit == bitDbg then c.map.traceEnable
     else (List.range 7).any fun k => reqBit k == bit && c.pwr.req.toNat.testBit k)

def switched : List Nat := [2, 3, 4, 5, 6, 8, 9, 11]

/-- Make every switched domain follow its request. -/
def followRequests (now : Nat) (c : Chip) : Chip :=
  switched.foldl (fun c b => if wanted c b then domainOnReq b now c else domainOff b now c) c

/-- PWR_DOM_REQ out of run state: armed, no off-request for Q0-Q3, FABA and FABB (16 R419); after a trip, no on-request
for Q0-Q3 and SRCH (16 R437). -/
def acceptReq (c : Chip) (v : BitVec 7) : BitVec 7 :=
  let old := c.pwr.req
  let v := if c.time.arm then v ||| (old &&& 0x6F#7) else v
  if c.pwr.tripHold then v &&& (old ||| 0x60#7) else v

/-- A write of PWR_DOM_REQ: run-locked (16 R419, 03 R86). -/
def writeDomReq (value : Word) (now : Nat) (c : Chip) : Chip :=
  let v : BitVec 7 := BitVec.setWidth 7 value
  if v == c.pwr.req then c
  else if c.map.run then c.cfgDiscard 0x2000
  else followRequests now { c with pwr := { c.pwr with req := acceptReq c v } }

/-- The 20 µs of a power-on have passed: the domain leaves reset (16 R418). -/
def powerOnEnd (bit now : Nat) (c : Chip) : Chip :=
  match transOf c bit with
  | some t =>
    if t.on && t.until_ ≤ now then
      let c := resetDomain bit now (setOn bit true (setTrans bit none c))
      (startDomain bit now c).ownersReset (domainOwners c bit)
    else c
  | none => c

/-- The 20 µs of a power-off have passed: a waiting request takes effect (16 R418). -/
def powerOffEnd (bit now : Nat) (c : Chip) : Chip :=
  match transOf c bit with
  | some t =>
    if !t.on && t.until_ ≤ now then
      let c := setTrans bit none c
      if wanted c bit then domainOnReq bit now c else c
    else c
  | none => c

/-! Chip states (16 section 2). -/

/-- The time base stops: LOCKED reads 0, source 31 is not raised, and a pending transition is dropped, with POINT set back
(16 R423, R427). -/
def stopTimeBase (c : Chip) : Chip :=
  { c with
    time := { c.time with locked := false },
    pwr := if c.pwr.opPending || c.pwr.deferred then
        { c.pwr with opPending := false, deferred := false, opGoal := none, opReq := c.pwr.point }
      else c.pwr }

/-- The time base runs again: the root locks at once; another chip at its next SYNC frame (11 R287, 16 R423). -/
def startTimeBase (now : Nat) (c : Chip) : Chip :=
  if c.isRoot then becomeRoot now c
  else { c with time := { c.time with role := 2, syncAt := now, heartbeatAt := now } }

/-- Enter LOW-IDLE (16 R420): the switched domains and CLK go off. -/
def enterLowIdle (now : Nat) (c : Chip) : Chip :=
  let c := stopTimeBase { c with pwr := { c.pwr with lowIdle := true, lowIdleReq := true, wokenAt := none } }
  setOn bitClk false (followRequests now c)

/-- A write of PWR_STATE_CTL.LOW_IDLE (16 R420): 1 is discarded while ARM is 1, and held during a transition. -/
def writeLowIdle (v : Bool) (now : Nat) (c : Chip) : Chip :=
  if v then
    if c.time.arm || c.pwr.lowIdle then c
    else if c.pwr.busy then { c with pwr := { c.pwr with lowIdleReq := true } }
    else enterLowIdle now c
  else if c.pwr.lowIdle then
    let c := { c with pwr := { c.pwr with lowIdle := false, lowIdleReq := false, wokenAt := none } }
    startTimeBase now (followRequests now (setOn bitClk true c))
  else { c with pwr := { c.pwr with lowIdleReq := false } }

/-- An access wakes the management clock of a chip in LOW-IDLE (16 R420, 20 R528). -/
def wakeAccess (now : Nat) (c : Chip) : Chip :=
  if c.pwr.lowIdle then { c with pwr := { c.pwr with wokenAt := some now } } else c

/-- The level lines of VCORE, VSRAM, VPHY and the sensors deassert (16 R554). -/
def stopMonitors (now : Nat) (c : Chip) : Chip :=
  let c := ([40, 42, 44, 45] : List Nat).foldl (fun c n => c.lower n now) c
  setHeld 0 now { c with pwr := { c.pwr with belowWarn := c.pwr.belowWarn &&& 4, railReset := 0, hot := false } }

/-- PARK acknowledged (16 R421): clocks stopped, arrays closed, only RET and the keep-alive part of AON left. What has latched
stays latched (15, When events coincide). -/
def enterRetention (now : Nat) (c : Chip) : Chip :=
  if c.pwr.retention then c
  else
    let c := resetHost (stopCompute now c)
    let c := { c with pwr := { c.pwr with retention := true, lowIdle := false, busy := false, wokenAt := none } }
    let c := stopMonitors now (stopTimeBase (followRequests now c))
    { c with pwr := { c.pwr with on := 3, trans := Vector.replicate 12 none },
             mgt := { c.mgt with cscReset := false, wakeAt := none, awake := none } }

/-- P2 after a failed transition: FAIL clears, and the chip has been reset (16 R422, R430). -/
def clearFail (c : Chip) : Chip :=
  if c.pwr.opFail then ({ c with pwr := { c.pwr with opFail := false, point := 2, opReq := 2 } } : Chip).ownersReset [.chip]
  else c

/-- Return to ACTIVE (16 R422): CLK locks at PWR_OP_CTL.POINT, and the requested domains power on. -/
def leaveRetention (now : Nat) (c : Chip) : Chip :=
  if !c.pwr.retention then c
  else
    let c := clearFail c
    let c := { c with
      pwr := { c.pwr with retention := false, lowIdle := false, lowIdleReq := false, on := maskOf [0, 1, bitHost, bitClk],
                          point := c.pwr.opReq },
      mgt := { c.mgt with wakeAt := none, awake := none } }
    startTimeBase now (followRequests now (setHeld 0 now c))

/-! Operating points (16 section 3). -/

/-- GO: POINT and AT as they stand become the pending transition (16 R426, R427). -/
def opGo (c : Chip) : Chip :=
  if c.pwr.busy then c
  else { c with pwr := { c.pwr with opGoal := some (c.pwr.opReq, c.pwr.opAt), opPending := true, deferred := false } }

/-- AT is reached: in run state the transition is deferred; otherwise it begins (16 R426, Table 16-5). -/
def opStart (now : Nat) (c : Chip) : Chip :=
  match c.pwr.opGoal with
  | none => c
  | some (_, at_) =>
    let due := (c.pwr.opPending && at_.toNat ≤ c.time.coreView.toNat) || c.pwr.deferred
    if !due || c.pwr.busy then c
    else if c.map.run then { c with pwr := { c.pwr with opPending := false, deferred := true } }
    else { c with pwr := { c.pwr with opPending := false, deferred := false, busy := true, opStart := some now },
                  time := { c.time with locked := false, role := 2 } }

/-- At the end of a transition a port that lost a lane in it enters RETRAIN (16 R431). -/
def retrainLost (now : Nat) (c : Chip) : Chip :=
  allPorts.foldl (fun c p => if (c.port p).retrainDue then goRetrain p now c else c) c

/-- The parent reference is reacquired: the same port, else the next usable one with source 30, else holdover with source
31 (16 Table 16-5, R432; 11 R281). -/
def reacquire (now : Nat) (c : Chip) : Chip :=
  if c.isRoot then becomeRoot now c
  else
    let st := (c.port c.time.parent).st
    if st == .up || st == .retrain then takeParent c.time.parent now c
    else match c.usableParent now (some c.time.parent) with
      | some p => takeParent p now (c.raise 30 .chip)
      | none => loseLock now (c.raise 30 .chip)

/-- The transition ends 150 µs after its start, or fails its check (16 R426, R430). -/
def opEnd (ok : Bool) (now : Nat) (c : Chip) : Chip :=
  let goal := (c.pwr.opGoal.map fun g => g.1).getD c.pwr.point
  let c := { c with pwr := { c.pwr with busy := false, opGoal := none } }
  let c := if ok then setHeld 0 now { c with pwr := { c.pwr with point := goal } }
    else
      let c := { c with pwr := { c.pwr with opFail := true } }
      setHeld 0 now (resetDomains fabBits now (resetCompute now (c.raise 50 .chip)))
  let c := reacquire now (retrainLost now (tellPartners c))
  if c.pwr.lowIdleReq then enterLowIdle now c else c

/-! CHIP_RESET (15 R398; 16 R430). -/

/-- Every domain but AON and RET is reset; during a transition they leave reset at its end, otherwise at once. -/
def chipReset (now : Nat) (c : Chip) : Chip :=
  let bits := computeBits ++ [bitHost, bitFaba, bitFabb, bitDbg]
  let c := clearFail c
  let owners := ([2, 3, 4, 5, 6, 7, 8, 9] : List Nat).flatMap (domainOwners c)
  let c := resetDomains [bitHost, bitFaba, bitFabb, bitDbg] now (resetCompute now c)
  let c := c.ownersReset owners
  let c := setHeld (if c.pwr.busy then maskOf bits else 0) now c
  fabBits.foldl (fun c b => startPorts b now c) c

end Sys2Proof.Machine
end

