-- ==== Sys2Proof/Machine/Reactions.lean ====
section
/-! DEFINITION. What the chip collector's reactions do (15 sections 2 and 7), MSI-X messages (13 R366), and NMIs. -/

namespace Sys2Proof.Machine

/-! MSI-X (13 R366). -/

/-- An MSI-X message: a masked vector keeps it pending. -/
def sendMsix (v : Fin 33) (y : Sys) : Sys :=
  let e := y.chip.hif.msix[v]
  if e.mask then
    y.onChip fun c => { c with hif := { c.hif with msix := c.hif.msix.set v { e with pending := true } } }
  else y.emit (.msix e.addr e.data)

/-! BLOCK_RESET (15 Table 15-2). -/

def partOf (msg : Dword) : Nat := natField msg.toNat 2 2

/-- Message fields of the lines in a send queue that belong to a message to the port whose FIRST line has left. -/
def begunLines (port : PortId) (q : List SendLine) : List Dword :=
  (q.filterMap fun x => match x.dst with
    | .port p msg => if p == port then some msg else none
    | _ => none).takeWhile fun msg => 2 ≤ partOf msg

/-- Whether the open message's FIRST line is still in the queue. -/
def startsIn (port : PortId) (xs : List SendLine) : Bool :=
  xs.any fun x => match x.dst with
    | .port p msg => p == port && partOf msg == 1
    | _ => false

/-- The message to a port that a block reset of tile v breaks, where it has begun: the port completes it with zeros, its lines
in the send queue among them. A message whose FIRST line is still in the queue is dropped whole (DESIGN CHOICE, log entry 105). -/
def breakMessage (v : Nat) (p : Fin 320) (q : List SendLine) (c : Chip) (port : PortId) : Chip :=
  let ahead := (c.cmp.mesh.lines.filter fun l => l.src == v && crossesTo port l.dst).length
  let begun := begunLines port q
  let c := if (c.tile p).openMsg[port].isSome then c.routeError 1 port.val v else c
  match (c.tile p).openMsg[port], begun with
  | some m, _ => if startsIn port q then c else addFill v port ahead { m with due := begun.length + m.due } c
  | none, h :: _ => addFill v port ahead ⟨begun.length, h, false⟩ c
  | none, [] => c

/-- A block-reset tile: registers, channels, send queue and operations in flight are cleared; the ports complete the messages
it has begun; and in run state the tile issues nothing more (04 R124, 06 R171). -/
def blockResetTile (v : Nat) (p : Fin 320) (c : Chip) : Chip :=
  let c := allPorts.foldl (breakMessage v p (queuedLines (c.tile p))) c
  c.onTile p fun t => { Tile.reset with scrub := t.scrub, blocked := c.map.run, ended := t.ended }

/-- BLOCK_RESET of one owner; the chip and an injected raise have nothing to reset (15 Table 15-2, R414). -/
def blockReset (o : Owner) (now : Nat) (c : Chip) : Chip :=
  let c := match o with
    | .tile v => match c.liveTile v with
      | some p => blockResetTile v p c
      | none => c
    | .port p => if (c.port p).st == .disabled then c else enterDetect p now (enterDisabled p now c)
    | .hif => hifDisable c
    | .srch => abandonSearch c
    | .csc => { c with mgt := { c.mgt with cscReset := false } }
    | .crc => { c with mgt := { c.mgt with crcBusy := false, crcStatus := 0 } }
    | _ => c
  match o with
  | .chip => c
  | .injected => c
  | _ => c.ownersReset [o]

/-- Owners that CHIP_RESET itself resets (15, When events coincide). -/
def coveredByReset : Owner → Bool
  | .csc => false
  | .crc => false
  | _ => true

/-! Applying reactions (15 R398, R400). -/

def reactionHas (bit : Nat) (rs : List Reaction) : List Reaction := rs.filter fun r => r.bits.toNat.testBit bit

/-- NMIs wait for the CSC, one for each source (15 R398). -/
def noteNmis (rs : List Reaction) (c : Chip) : Chip :=
  let w := (reactionHas 1 rs).foldl (fun m r => m ||| BitVec.ofNat 64 (2 ^ r.src.val)) c.mgt.nmiWaiting
  { c with mgt := { c.mgt with nmiWaiting := w } }

/-- The union of the sets applied in one management cycle: one MSI-X message, handed over before any reset; the NMIs; one
reset of each owner, those that CHIP_RESET covers left to it; CHIP_RESET. ERR_PIN is read off the latches (15 R398, R400, R410). -/
def applyReactions (rs : List Reaction) (y : Sys) : Sys :=
  let y := if (reactionHas 0 rs).isEmpty then y else sendMsix 32 y
  let y := y.onChip (noteNmis rs)
  let all := !(reactionHas 3 rs).isEmpty
  let owners := ((reactionHas 2 rs).map fun r => r.owner).dedup.filter fun o => !(all && coveredByReset o)
  let y := y.onChip fun c => owners.foldl (fun c o => blockReset o y.now c) c
  if all then y.onChip (chipReset y.now) else y

/-- One management cycle of the chip collector: every waiting raise latches (15 R396). -/
def latchChip (y : Sys) : Sys :=
  let r := latchAll .chip y.now y.chip.time.gtc y.chip.fc
  applyReactions r.2 (y.onChip fun c => { c with fc := r.1 })

/-! NMIs (15 R398). -/

/-- The CSC runs: out of reset, and the chip is not in LOW-IDLE or RETENTION-ONLY. -/
def cscRuns (c : Chip) : Bool := !c.mgt.cscReset && !c.pwr.lowIdle && !c.pwr.retention

/-- The waiting NMI of the lowest source is delivered and recorded; with 8 records held it is counted in LOST. -/
def deliverNmi (c : Chip) : Chip :=
  if !cscRuns c then c
  else match (List.finRange 64).find? fun i => c.mgt.nmiWaiting.toNat.testBit i.val with
    | none => c
    | some i =>
      let m := { c.mgt with nmiWaiting := c.mgt.nmiWaiting &&& ~~~(BitVec.ofNat 64 (2 ^ i.val)) }
      { c with mgt := if m.nmiLog.length < 8 then { m with nmiLog := m.nmiLog ++ [i] }
                      else { m with nmiLost := satInc m.nmiLost } }

/-- MGT_NMI_POP (20 Table 20-6). -/
def popNmi (c : Chip) : Chip := { c with mgt := { c.mgt with nmiLog := c.mgt.nmiLog.drop 1 } }

end Sys2Proof.Machine
end

