-- ==== Sys2Proof/Machine/RegsRead.lean ====
section
/-! DEFINITION. Reading the SK2 set-up register file (03 R83; the register tables of 03, 04, 09 to 16 and 20): the value at
a BAR0 offset, and what a read changes. A reserved offset reads 0 (00 R7). -/

namespace Sys2Proof.Machine

def bit (b : Bool) (i : Nat) : Nat := if b then 2 ^ i else 0
def word (n : Nat) : Word := BitVec.ofNat 32 n
def lowWord (d : Dword) : Word := BitVec.ofNat 32 (d.toNat % 2 ^ 32)
def highWord (d : Dword) : Word := BitVec.ofNat 32 (d.toNat / 2 ^ 32)
def setLow (d : Dword) (w : Word) : Dword := BitVec.ofNat 64 (d.toNat / 2 ^ 32 * 2 ^ 32 + w.toNat)
def setHigh (d : Dword) (w : Word) : Dword := BitVec.ofNat 64 (w.toNat * 2 ^ 32 + d.toNat % 2 ^ 32)

/-- Fields (value, low bit) put together. -/
def pack (fs : List (Nat × Nat)) : Word := word (fs.foldl (fun a x => a + x.1 * 2 ^ x.2) 0)

/-! HIF (13 Tables 13-12 to 13-14). -/

def readQp (x : QueuePair) (r : Nat) : Word :=
  match r with
  | 0x00 => lowWord x.sqBase
  | 0x04 => highWord x.sqBase
  | 0x08 => lowWord x.cqBase
  | 0x0C => highWord x.cqBase
  | 0x10 => pack [(bit x.enable 0, 0), (bit x.pushEn 0, 1), (x.sqLog2.toNat, 4), (x.cqLog2.toNat, 8)]
  | 0x14 => pack [(bit x.irqEn 0, 0), (x.irqThresh.toNat, 8), (x.irqTimer.toNat, 16)]
  | 0x18 => pack [(x.sqHead, 0), (x.cqTail, 12), (bit x.phase 0, 24), (x.state.toNat, 25)]
  | 0x1C => pack [(x.sqTail, 0), (x.cqHead, 12)]
  | _ => 0

def readMsix (e : MsixEntry) (r : Nat) : Word :=
  match r with
  | 0 => lowWord e.addr
  | 4 => highWord e.addr
  | 8 => e.data
  | _ => word (bit e.mask 0)

def pendingBits (h : HostIf) (hi : Bool) : Word :=
  word (((List.finRange 33).filter fun i => h.msix[i].pending && (if hi then 32 ≤ i.val else i.val < 32)).foldl
    (fun a i => a + 2 ^ (i.val % 32)) 0)

def readHif (h : HostIf) (o : Nat) : Word :=
  if 0x100 ≤ o && o < 0x500 then
    match finOf 32 ((o - 0x100) / 0x20) with
    | some q => readQp h.qps[q] (o % 0x20)
    | none => 0
  else if 0x800 ≤ o && o < 0xA10 then
    match finOf 33 ((o - 0x800) / 16) with
    | some i => readMsix h.msix[i] (o % 16)
    | none => 0
  else match o with
    | 0x0000 => word (bit h.bar4En 0)
    | 0x0004 => word h.winBase.toNat
    | 0x0008 => word h.mailbox.length
    | 0x000C => pack [(h.errCause.toNat, 0), (h.errQp.toNat, 4), (bit h.errValid 0, 31)]
    | 0x0010 => h.inputCount
    | 0x0014 => h.dropCount
    | 0x0C00 => pendingBits h false
    | 0x0C04 => pendingBits h true
    | _ => 0

/-! FC (15 Table 15-7, 04 Table 04-7). -/

/-- The registers of a collector at relative offsets (15 Table 15-7); FC_ERRPIN is the chip's alone. -/
def readCollector (k : Collector) (o : Nat) : Word :=
  if 0x100 ≤ o && o < 0x200 then
    match finOf 64 ((o - 0x100) / 4) with
    | some i => readCfg k.src[i]
    | none => 0
  else if 0x200 ≤ o && o < 0x280 then
    match finOf 64 ((o - 0x200) / 4 * 2), finOf 64 ((o - 0x200) / 4 * 2 + 1) with
    | some i, some j => pack [(k.recov[i].toNat, 0), (k.recov[j].toNat, 16)]
    | _, _ => 0
  else match o with
    | 0x00 => sourceBits (fun x => x.status) false k
    | 0x04 => sourceBits (fun x => x.status) true k
    | 0x10 => sourceBits (fun x => x.acked) false k
    | 0x14 => sourceBits (fun x => x.acked) true k
    | 0x18 => sourceBits (fun x => x.esc) false k
    | 0x1C => sourceBits (fun x => x.esc) true k
    | 0x20 => pack [(k.firstSource.toNat, 0), (bit k.firstValid 0, 31)]
    | 0x24 => lowWord k.firstTime
    | 0x28 => highWord k.firstTime
    | _ => 0

def readTileChecks (k : TileChecks) (o : Nat) : Word :=
  match o with
  | 0x00 => word (bit k.strain 0)
  | 0x04 => pack [(bit k.scrubEnable 0, 0), (k.gap.toNat, 8), (k.period.toNat, 16)]
  | 0x08 => pack [(k.lowTile.toNat, 0), (bit k.lowValid 0, 9), (k.lowSub.toNat, 10), (k.passes.toNat, 16)]
  | 0x0C => k.corrected
  | 0x10 => pack [(k.captSource.toNat, 0), (k.captTile.toNat, 8), (bit k.captValid 0, 31)]
  | 0x14 => k.captPcc
  | 0x18 => k.captInfo
  | 0x1C => pack [(k.eccOffset.toNat, 0), (k.eccTile.toNat, 22), (bit k.eccValid 0, 31)]
  | 0x20 => k.eccWords
  | _ => 0

def readFc (c : Chip) (o : Nat) : Word :=
  if 0x800 ≤ o && o < 0x900 then readTileChecks c.chk (o - 0x800)
  else if o == 0x30 then word (bit c.fc.errPin 0)
  else readCollector c.fc o

/-! PWR (16 Tables 16-8 and 16-9). -/

def readSteepWt (s : SteepCfg) (m : Nat) : Word :=
  pack [(((s.weights[2 * m]?).getD 0).toNat, 0), (((s.weights[2 * m + 1]?).getD 0).toNat, 16)]

def readPwr (c : Chip) (o : Nat) : Word :=
  let p := c.pwr
  if 0x20 ≤ o && o < 0x30 then
    match finOf 4 ((o - 0x20) / 4) with
    | some k => pack [(p.monShadow[k].warn.toNat, 0), (p.monShadow[k].reset.toNat, 8), (p.monShadow[k].hyst.toNat, 16)]
    | none => 0
  else if 0x80 ≤ o && o < 0xA0 then readSteepWt p.steepShadow ((o - 0x80) / 4)
  else if 0xC0 ≤ o && o < 0xE0 then
    match finOf 4 ((o - 0xC0) / 8) with
    | some q => if o % 8 == 0 then lowWord p.gov[q].bal else p.gov[q].balHi
    | none => 0
  else if 0xE0 ≤ o && o < 0xF0 then
    match finOf 4 ((o - 0xE0) / 4) with
    | some q => p.gov[q].viol
    | none => 0
  else match o with
    | 0x00 => word p.req.toNat
    | 0x04 => pack [(p.on.toNat, 0), (bit p.lowIdle 0, 12)]
    | 0x08 => word (bit p.lowIdleReq 0)
    | 0x0C => pack [(p.opReq.toNat, 0), (bit (p.opPending || p.deferred || p.busy) 0, 4)]
    | 0x10 => lowWord p.opAt
    | 0x14 => highWord p.opAt
    | 0x18 => pack [(p.point.toNat, 0), (bit p.busy 0, 2), (bit p.opPending 0, 3), (bit p.deferred 0, 4), (bit p.opFail 0, 5)]
    | 0x30 => pack [(p.belowWarn.toNat, 0), (p.resetRail.toNat, 4), (bit c.brownout 0, 6), (bit p.retLost 0, 31)]
    | 0x40 => word p.thermWarn.toNat
    | 0x44 => pack [(p.thermMax.toNat, 0), (p.thermSensor.toNat, 9), (bit p.tripped 0, 31)]
    | 0x60 => pack [(64, 0), (p.steepShadow.didt.toNat, 8)]
    | 0x64 => pack [(bit p.steepPending 0, 0), (bit p.monPending 0, 1)]
    | _ => 0

/-! TIME (11 Table 11-5). -/

def rootEntryBits (e : RootEntry) : Nat := e.chip.toNat + bit e.valid 15
def parentBits (l : Vector ParentEntry 4) : Nat :=
  (List.finRange 4).foldl (fun a j => a + (l[j].port.val + bit l[j].valid 3) * 16 ^ j.val) 0

/-- TIME_STATUS.ROLE: a chip whose parent is in RETRAIN runs on holdover (11 R280). -/
def roleOf (c : Chip) : Nat :=
  if c.time.role == 1 && (c.port c.time.parent).st == .retrain then 2 else c.time.role.toNat

/-- TIME_STATUS (11 Table 11-6). -/
def timeStatus (c : Chip) : Word :=
  let t := c.time
  pack [(bit t.locked 0, 0), (roleOf c, 1), (t.parent.val, 3), (t.rootIdx.val, 6), (bit (c.map.run && c.holding) 0, 8)]

def readTime (c : Chip) (o : Nat) : Word :=
  let t := c.time
  match o with
  | 0x00 => pack [(bit t.strict 0, 0), (bit t.arm 0, 1)]
  | 0x04 => timeStatus c
  | 0x08 => lowWord t.gtc
  | 0x0C => t.gtcHi
  | 0x10 => pack [(rootEntryBits t.rootOrder[0], 0), (rootEntryBits t.rootOrder[1], 16)]
  | 0x14 => pack [(rootEntryBits t.rootOrder[2], 0), (rootEntryBits t.rootOrder[3], 16)]
  | 0x18 => pack [(parentBits t.parents[0], 0), (parentBits t.parents[1], 16)]
  | 0x1C => pack [(parentBits t.parents[2], 0), (parentBits t.parents[3], 16)]
  | 0x20 => word t.holdLimit.toNat
  | 0x24 => t.imageId
  | 0x28 => t.seed
  | 0x2C => lowWord t.launchL
  | 0x30 => highWord t.launchL
  | 0x34 => word t.launchSeq.toNat
  | 0x38 => lowWord t.lag
  | 0x3C => t.lagHi
  | 0x40 => pack [(t.abortCause.toNat, 0), (t.aborter.toNat, 4), (bit t.abortValid 0, 31)]
  | 0x44 => word t.syncOffset.toNat
  | 0x48 => t.admission
  | _ => 0

/-! FAB (09 Tables 09-9 to 09-15; 10 Tables 10-8 to 10-14). -/

def portStateCode : PortState → Nat
  | .disabled => 0
  | .detect => 1
  | .train => 2
  | .up => 3
  | .retrain => 4
  | .down => 5

/-- The frame ends a message: ONLY or LAST of a scheduled one, every host, time or management frame (10 R273). -/
def endsMessage (f : Frame) : Bool :=
  f.typ == 1 && (kindOf f.msg != 0 || natField f.msg.toNat 2 2 == 0 || natField f.msg.toNat 2 2 == 3)

/-- Messages in flight (10 R273): begun and not ended, and those whose last frame is not acknowledged. -/
def inFlight (x : Port) : Nat := x.begun + (x.replay.filter endsMessage).length

def readPort (x : Port) (r : Nat) : Word :=
  if 0x20 ≤ r && r < 0x40 then
    match finOf 8 ((r - 0x20) / 4) with
    | some k => x.laneCorr[k]
    | none => 0
  else match r with
    | 0x000 => pack [(bit x.enable 0, 0), (bit x.retrainReq 0, 1), (x.cls.toNat, 4)]
    | 0x004 => pack [(portStateCode x.st, 0), (x.width.toNat, 4), (bit (coverOf x) 0, 8), (x.reason.toNat, 12)]
    | 0x008 => pack [(x.used.toNat, 0), (x.failed.toNat, 8), (x.peerFailed.toNat, 16)]
    | 0x00C => pack [(x.d.toNat, 0), (x.pad.toNat, 8)]
    | 0x010 => pack [(x.peerChip.toNat, 0), (x.peerPort.val, 13), (bit x.peerValid 0, 31)]
    | 0x014 => pack [(x.retryLimit.toNat, 0), (x.retryInterval.toNat, 16), (x.nakMax.toNat, 24)]
    | 0x018 => x.retryCount
    | 0x01C => word x.failThresh.toNat
    | 0x040 => x.rejectCount
    | 0x100 => pack [(inFlight x, 0), (x.sched.length, 8), (x.host.length, 12), (bit x.xoffIn 0, 24), (bit x.holdReq 0, 25)]
    | 0x104 => x.dropCount
    | 0x108 => x.schedCount
    | 0x10C => x.hostCount
    | 0x110 => x.xoffCount
    | _ => 0

def packPairs (l : List (BitVec 2)) : Word := word (l.zipIdx.foldl (fun a x => a + x.1.toNat * 4 ^ x.2) 0)

def readFabric (f : Fabric) (r : Nat) : Word :=
  match r with
  | 0x180 => pack [(f.slot.val, 0), (f.trayIdx.toNat, 4)]
  | 0x184 => packPairs (f.rtX.toList ++ f.rtY.toList)
  | 0x188 => packPairs (f.rtZ.toList.take 16)
  | 0x18C => packPairs (f.rtZ.toList.drop 16)
  | 0x190 => packPairs f.rtW.toList
  | 0x194 => word f.hostTimeout.toNat
  | 0x198 => word f.txns.length
  | 0x19C => f.hostDrop
  | 0x1A0 => pack [(f.captCause.toNat, 0), (f.captPort.toNat, 4), (f.captTile.toNat, 8), (bit f.captValid 0, 31)]
  | 0x1A4 => f.routeCount
  | _ => 0

def readFab (f : Fabric) (o : Nat) : Word :=
  match finOf 8 (o / 0x200) with
  | some p => if p.val == 0 && 0x180 ≤ o then readFabric f o else readPort f.ports[p] (o % 0x200)
  | none => 0

/-! MAP (03 Tables 03-12 to 03-20). -/

def heldRecord (m : MapRegs) : Dword := m.trace.getD m.traceIndex.toNat 0

def readMap (c : Chip) (o : Nat) : Word :=
  let m := c.map
  if 0x0C ≤ o && o < 0x20 then
    let k := (o - 0x0C) / 4
    word ((List.range 4).foldl (fun a i => a + ((m.vcol[4 * k + i]?).getD 0).toNat * 2 ^ (8 * i)) 0)
  else match o with
    | 0x00 => pack [(m.grade.val, 0), (20 - 2 * m.grade.val, 8)]
    | 0x04 => word m.disabled.toNat
    | 0x08 => pack [(m.target.toNat, 8)]
    | 0x20 => pack [(bit m.ok 0, 0), (bit m.run 0, 1), (bit (c.pwr.steepPending || c.pwr.monPending) 0, 2), (m.err, 4)]
    | 0x24 => pack [(m.discOffset.toNat, 0), (m.discCount.toNat, 16), (bit m.discValid 0, 31)]
    | 0x28 => pack [(bit m.traceEnable 0, 0), (m.traceTile.toNat, 4), (bit m.traceWrap 0, 16)]
    | 0x2C => pack [(m.trace.length, 0), (bit m.traceFull 0, 31)]
    | 0x30 => word m.traceIndex.toNat
    | 0x34 => lowWord (heldRecord m)
    | 0x38 => highWord (heldRecord m)
    | _ => 0

/-! SRCH (12 Tables 12-14, 12-15), MGT (14 Table 14-6, 20 Table 20-6) and ID (20 Table 20-7). -/

def readSrch (s : SearchUnit) (o : Nat) : Word :=
  match o with
  | 0x00 => pack [(s.reserved.length, 0), (bit s.active.isSome 0, 5), (bit (s.clearDue || 8191 ≤ s.sinceClear) 0, 6)]
  | 0x04 => s.served
  | 0x08 => s.partialCount
  | 0x0C => s.refused
  | 0x10 => s.eccCount
  | 0x14 => pack [(s.eccOffset.toNat, 0), (bit s.eccValid 0, 31)]
  | 0x18 => pack [(bit s.scrubEnable 0, 0), (s.gap.toNat, 8)]
  | 0x1C => lowWord s.work
  | 0x20 => s.workHi
  | _ => 0

def readMgt (c : Chip) (o : Nat) : Word :=
  let m := c.mgt
  match o with
  | 0x000 => word (0x58 + c.fab.slot.val % 8)
  | 0x004 => pack [(bit m.twiMode 0, 0), (bit m.pecEn 0, 1), (bit m.twiTimeoutEn 0, 2)]
  | 0x008 => m.twiTiming
  | 0x00C => pack [(m.wakeLast.toNat, 0), (m.wakes.toNat, 16)]
  | 0x010 => pack [(m.pecErrors.toNat, 0), (m.twiTimeouts.toNat, 16)]
  | 0x014 => pack [((m.nmiLog.head?.map fun i => i.val).getD 0, 0), (m.nmiLog.length, 8), (m.nmiLost.toNat, 16)]
  | 0x800 => pack [(bit m.crcBusy 0, 0), (bit m.crcBusy 0, 1), (bit m.crcDone 0, 2), (m.crcStatus.toNat, 8)]
  | 0x804 => word m.crcBase.toNat
  | 0x808 => word m.crcLen.toNat
  | 0x80C => lowWord m.crcExp
  | 0x810 => highWord m.crcExp
  | 0x814 => lowWord m.crcVal
  | 0x818 => highWord m.crcVal
  | _ => 0

def readId (c : Chip) (o : Nat) : Word :=
  let m := c.mgt
  match o with
  | 0x00 => word (m.lot.toNat % 2 ^ 32)
  | 0x04 => word (m.lot.toNat / 2 ^ 32)
  | 0x08 => pack [(m.wafer.toNat, 0), (m.dieX.toNat, 8), (m.dieY.toNat, 16), (m.reticle.toNat, 24)]
  | 0x0C => pack [(c.map.grade.val, 0), (m.repair.toNat, 16)]
  | 0x10 => pack [(m.year.toNat, 0), (m.week.toNat, 8)]
  | 0x14 => pack [(0x42, 0), (0x30, 8), (2, 16)]
  | 0x18 => lowWord m.dsn
  | 0x1C => highWord m.dsn
  | _ => 0

/-- Two chip map entries (10 R258). -/
def readChipMap (f : Fabric) (o : Nat) : Word :=
  pack [((chipMapEntry f (o / 4 * 2)).toNat, 0), ((chipMapEntry f (o / 4 * 2 + 1)).toNat, 16)]

/-- The register at a BAR0 offset that is a multiple of 4 (03 Table 03-8). -/
def readReg (c : Chip) (o : Nat) : Word :=
  if o < 0x1000 then readHif c.hif o
  else if o < 0x2000 then readFc c (o - 0x1000)
  else if o < 0x3000 then readPwr c (o - 0x2000)
  else if o < 0x4000 then readTime c (o - 0x3000)
  else if o < 0x5000 then readFab c.fab (o - 0x4000)
  else if 0x6000 ≤ o && o < 0x6100 then readMap c (o - 0x6000)
  else if 0x8000 ≤ o && o < 0xC000 then readChipMap c.fab (o - 0x8000)
  else if 0xC000 ≤ o && o < 0xD000 then readSrch c.srch (o - 0xC000)
  else if 0xE000 ≤ o && o < 0xF000 then readId c (o - 0xE000)
  else if 0xF000 ≤ o && o < 0x10000 then readMgt c (o - 0xF000)
  else 0

/-- What a read changes: the latches of the count pairs, and the trace index (03 R94; 11 Table 11-5; 12 Table 12-14; 16
Table 16-9). -/
def readEffect (o : Nat) (c : Chip) : Chip :=
  if o == 0x3008 then { c with time := { c.time with gtcHi := highWord c.time.gtc } }
  else if o == 0x3038 then { c with time := { c.time with lagHi := highWord c.time.lag } }
  else if o == 0xC01C then { c with srch := { c.srch with workHi := highWord c.srch.work } }
  else if o == 0x6038 then { c with map := { c.map with traceIndex := c.map.traceIndex + 1 } }
  else if 0x20C0 ≤ o && o < 0x20E0 && o % 8 == 0 then
    match finOf 4 ((o - 0x20C0) / 8) with
    | some q =>
      let g := c.pwr.gov[q]
      { c with pwr := { c.pwr with gov := c.pwr.gov.set q { g with balHi := highWord g.bal } } }
    | none => c
  else c

end Sys2Proof.Machine
end

