-- ==== Sys2Proof/Machine/RegsWrite.lean ====
section
/-! DEFINITION. Writing the SK2 set-up register file (03 R83-R89; the register tables of 03, 04, 09 to 16 and 20): fields
under their access codes; run-locked fields in run state (03 R86); a write to a reserved offset has no effect (00 R9). -/

namespace Sys2Proof.Machine

def fld (v : Word) (lo n : Nat) : Nat := natField v.toNat lo n
def bv (w : Nat) (v : Word) (lo : Nat) : BitVec w := BitVec.ofNat w (fld v lo w)

/-- A write that would set run-locked fields: discarded in run state when it changes any (03 R86). -/
def lockedWrite (off : Nat) (new : Chip → Chip) (changed : Bool) (c : Chip) : Chip :=
  if !changed then c
  else if c.map.run then c.cfgDiscard off
  else new c

/-! Queue pairs (13 R367, Table 13-14). -/

/-- ENABLE 1 in DISABLED with both sizes in range: ENABLED, pointers 0, PHASE 1 (13 R367). -/
def qpEnable (x : QueuePair) : QueuePair :=
  let ok := fun (n : BitVec 4) => 4 ≤ n.toNat && n.toNat ≤ 12
  if x.state == 0 && ok x.sqLog2 && ok x.cqLog2 then
    { x with enable := true, state := 1, sqHead := 0, sqTail := 0, cqHead := 0, cqTail := 0, phase := true, next := 0,
             entries := [], irqCount := 0, irqSince := none }
  else x

/-- ENABLE 0 in ENABLED or ERROR: DRAINING (13 R367). Completions that wait are not posted any more, and segments without a
tag are not started. -/
def qpDisable (q : QpId) (c : Chip) : Chip :=
  let x := c.qp q
  if x.state == 1 || x.state == 3 then
    let c := c.onQp q fun x => { x with enable := false, state := 2 }
    { c with hif := { c.hif with cbuf := c.hif.cbuf.filter fun e => e.qp != q },
             fab := { c.fab with waiting := c.fab.waiting.filter fun e => e.qp != q } }
  else c

/-- HIF_QPq_CTL: sizes are applied only in DISABLED (13 R367). -/
def writeQpCtl (q : QpId) (v : Word) (c : Chip) : Chip :=
  let c := c.onQp q fun x =>
    let x := { x with pushEn := v.toNat.testBit 1 }
    if x.state == 0 then { x with sqLog2 := bv 4 v 4, cqLog2 := bv 4 v 8 } else x
  if v.toNat.testBit 0 then c.onQp q qpEnable else qpDisable q c

/-- A base field, applied only in DISABLED. -/
def writeQpBase (f : QueuePair → QueuePair) (x : QueuePair) : QueuePair := if x.state == 0 then f x else x

def pageLow (v : Word) : Word := word (v.toNat / 4096 * 4096)

/-- Vector q is sent, and the counts restart (13 R366). -/
def fireQp (q : QpId) (y : Sys) : Sys :=
  let y := y.onChip fun c => c.onQp q fun x => { x with irqCount := 0, irqSince := none }
  match finOf 33 q.val with
  | some v => sendMsix v y
  | none => y

/-- THRESH or more completions have been written since the last message (13 R366). -/
def checkThresh (q : QpId) (y : Sys) : Sys :=
  let x := y.chip.qp q
  if x.irqEn && max 1 x.irqThresh.toNat ≤ x.irqCount then fireQp q y else y

def writeQp (q : QpId) (r : Nat) (v : Word) (y : Sys) : Sys :=
  match r with
  | 0x00 => y.onChip fun c => c.onQp q (writeQpBase fun x => { x with sqBase := setLow x.sqBase (pageLow v) })
  | 0x04 => y.onChip fun c => c.onQp q (writeQpBase fun x => { x with sqBase := setHigh x.sqBase v })
  | 0x08 => y.onChip fun c => c.onQp q (writeQpBase fun x => { x with cqBase := setLow x.cqBase (pageLow v) })
  | 0x0C => y.onChip fun c => c.onQp q (writeQpBase fun x => { x with cqBase := setHigh x.cqBase v })
  | 0x10 => y.onChip (writeQpCtl q v)
  | 0x14 => checkThresh q (y.onChip fun c => c.onQp q fun x =>
      { x with irqEn := v.toNat.testBit 0, irqThresh := bv 8 v 8, irqTimer := bv 16 v 16 })
  | _ => y

/-! HIF (13 Tables 13-12, 13-13). -/

/-- The MSI-X table; a pending vector that is unmasked is sent (13 R366). -/
def writeMsix (i : Fin 33) (r : Nat) (v : Word) (y : Sys) : Sys :=
  let upd := fun (f : MsixEntry → MsixEntry) =>
    y.onChip fun c => { c with hif := { c.hif with msix := c.hif.msix.set i (f c.hif.msix[i]) } }
  match r with
  | 0 => upd fun e => { e with addr := setLow e.addr (word (v.toNat / 4 * 4)) }
  | 4 => upd fun e => { e with addr := setHigh e.addr v }
  | 8 => upd fun e => { e with data := v }
  | _ =>
    let e := y.chip.hif.msix[i]
    let mask := v.toNat.testBit 0
    let y := upd fun e => { e with mask := mask, pending := e.pending && mask }
    if e.pending && !mask then sendMsix i y else y

def writeHifTop (o : Nat) (v : Word) (h : HostIf) : HostIf :=
  match o with
  | 0x00 => { h with bar4En := v.toNat.testBit 0 }
  | 0x04 => { h with winBase := bv 3 v 0 }
  | 0x0C => if v.toNat.testBit 31 then { h with errCause := 0, errQp := 0, errValid := false } else h
  | 0x10 => { h with inputCount := v }
  | 0x14 => { h with dropCount := v }
  | _ => h

def writeHif (o : Nat) (v : Word) (y : Sys) : Sys :=
  if 0x100 ≤ o && o < 0x500 then
    match finOf 32 ((o - 0x100) / 0x20) with
    | some q => writeQp q (o % 0x20) v y
    | none => y
  else if 0x800 ≤ o && o < 0xA10 then
    match finOf 33 ((o - 0x800) / 16) with
    | some i => writeMsix i (o % 16) v y
    | none => y
  else y.onChip fun c => { c with hif := writeHifTop o v c.hif }

/-! FC (15 Table 15-7, 04 Table 04-7). -/

/-- FC_ACK_LO or _HI, FC_FIRST, FC_INJECT, FC_SRCn_CFG and FC_RECOVk at relative offsets (15 Table 15-7). -/
def writeCollector (id : CollectorId) (o : Nat) (v : Word) (now : Nat) (k : Collector) : Collector :=
  if 0x100 ≤ o && o < 0x200 then
    match finOf 64 ((o - 0x100) / 4) with
    | some i => k.writeCfg id i now v
    | none => k
  else if 0x200 ≤ o && o < 0x280 then
    let set := fun (n : Nat) (x : BitVec 16) (k : Collector) => match finOf 64 n with
      | some i => if definedSource id n then { k with recov := k.recov.set i x } else k
      | none => k
    let n := (o - 0x200) / 4 * 2
    set (n + 1) (bv 16 v 16) (set n (bv 16 v 0) k)
  else match o with
    | 0x08 => k.ack false v
    | 0x0C => k.ack true v
    | 0x20 => if v.toNat.testBit 31 then { k with firstSource := 0, firstValid := false, firstTime := 0 } else k
    | 0x2C => k.inject id v
    | _ => k

def writeTileChecks (o : Nat) (v : Word) (c : Chip) : Chip :=
  let k := c.chk
  let set := fun (k : TileChecks) => { c with chk := k }
  match o with
  | 0x00 =>
    lockedWrite 0x1800 (fun c => { c with chk := { c.chk with strain := v.toNat.testBit 0 } })
      (v.toNat.testBit 0 != k.strain) c
  | 0x04 => set { k with scrubEnable := v.toNat.testBit 0, gap := bv 8 v 8, period := bv 16 v 16 }
  | 0x08 => if v.toNat.testBit 9 then set { k with lowTile := 0, lowValid := false, lowSub := 0 } else c
  | 0x0C => set { k with corrected := v }
  | 0x10 =>
    if v.toNat.testBit 31 then
      set { k with captSource := 0, captTile := 0, captValid := false, captPcc := 0, captInfo := 0 }
    else c
  | 0x1C => if v.toNat.testBit 31 then set { k with eccOffset := 0, eccTile := 0, eccValid := false, eccWords := 0 } else c
  | _ => c

def writeFc (o : Nat) (v : Word) (now : Nat) (c : Chip) : Chip :=
  if 0x800 ≤ o && o < 0x900 then writeTileChecks (o - 0x800) v c
  else { c with fc := writeCollector .chip o v now c.fc }

/-! PWR (16 Tables 16-8, 16-9). -/

/-- PWR_OP_CTL: POINT, run-locked, then GO (16 R426). -/
def writeOpCtl (v : Word) (c : Chip) : Chip :=
  let point : BitVec 2 := if fld v 0 2 == 3 then 2 else bv 2 v 0
  let c := lockedWrite 0x200C (fun c => { c with pwr := { c.pwr with opReq := point } }) (point != c.pwr.opReq) c
  if v.toNat.testBit 4 then opGo c else c

def writeOpAt (off : Nat) (x : Dword) (c : Chip) : Chip :=
  lockedWrite off (fun c => { c with pwr := { c.pwr with opAt := x } }) (x != c.pwr.opAt) c

/-- PWR_COMMIT: a group becomes pending, and is applied at once out of run state (03 R87). -/
def commitGroups (steep mon : Bool) (c : Chip) : Chip :=
  let c := { c with pwr := { c.pwr with steepPending := c.pwr.steepPending || steep,
                                        monPending := c.pwr.monPending || mon } }
  if c.map.run then c else applyGroups c

def writeSteepWt (m : Nat) (v : Word) (s : SteepCfg) : SteepCfg :=
  match finOf 16 (2 * m), finOf 16 (2 * m + 1) with
  | some i, some j => { s with weights := (s.weights.set i (bv 10 v 0)).set j (bv 10 v 16) }
  | _, _ => s

def Chip.onPwr (f : Power → Power) (c : Chip) : Chip := { c with pwr := f c.pwr }

def onGov (q : QuadId) (f : Governor → Governor) (p : Power) : Power := { p with gov := p.gov.set q (f p.gov[q]) }

def writePwrTop (o : Nat) (v : Word) (now : Nat) (c : Chip) : Chip :=
  match o with
  | 0x00 => writeDomReq v now c
  | 0x08 => writeLowIdle (v.toNat.testBit 0) now c
  | 0x0C => writeOpCtl v c
  | 0x10 => writeOpAt 0x2010 (setLow c.pwr.opAt v) c
  | 0x14 => writeOpAt 0x2014 (setHigh c.pwr.opAt v) c
  | 0x30 => if v.toNat.testBit 31 then c.onPwr fun p => { p with retLost := false } else c
  | 0x40 => c.onPwr fun p => { p with thermWarn := if 60 ≤ fld v 0 8 && fld v 0 8 ≤ 105 then bv 8 v 0 else 95 }
  | 0x44 => if v.toNat.testBit 31 then c.onPwr fun p => { p with tripped := false } else c
  | 0x60 => c.onPwr fun p => { p with steepShadow := { p.steepShadow with didt := bv 8 v 8 } }
  | 0x64 => commitGroups (v.toNat.testBit 0) (v.toNat.testBit 1) c
  | _ => c

def writePwr (o : Nat) (v : Word) (now : Nat) (c : Chip) : Chip :=
  if 0x20 ≤ o && o < 0x30 then
    match finOf 4 ((o - 0x20) / 4) with
    | some k => c.onPwr fun p => { p with monShadow := p.monShadow.set k ⟨bv 8 v 0, bv 8 v 8, bv 8 v 16⟩ }
    | none => c
  else if 0x80 ≤ o && o < 0xA0 then
    c.onPwr fun p => { p with steepShadow := writeSteepWt ((o - 0x80) / 4) v p.steepShadow }
  else if 0xC0 ≤ o && o < 0xE0 then
    match finOf 4 ((o - 0xC0) / 8) with
    | some q => c.onPwr (onGov q fun g => { g with bal := if o % 8 == 0 then setLow g.bal v else setHigh g.bal v })
    | none => c
  else if 0xE0 ≤ o && o < 0xF0 then
    match finOf 4 ((o - 0xE0) / 4) with
    | some q => c.onPwr (onGov q fun g => { g with viol := v })
    | none => c
  else writePwrTop o v now c

/-! TIME (11 Tables 11-5 to 11-9). -/

/-- The role follows the root order, the tray index and the parent lists: a chip that is the root keeps its count and is
locked; one that is no longer the root takes its place below a parent, or on holdover (11 R279, R281, R288, R313). -/
def refreshRole (now : Nat) (c : Chip) : Chip :=
  if c.isRoot then if c.time.role == 0 then c else becomeRoot now c
  else if c.time.role == 0 then takePlace now { c with time := { c.time with role := 2, locked := false } }
  else c

def rootEntryOf (v : Word) (lo : Nat) : RootEntry := ⟨bv 13 v lo, v.toNat.testBit (lo + 15)⟩

def parentListOf (v : Word) (lo : Nat) : Vector ParentEntry 4 :=
  Vector.ofFn fun j => ⟨(finOf 8 (fld v (lo + 4 * j.val) 3)).getD 0, v.toNat.testBit (lo + 4 * j.val + 3)⟩

/-- A run-locked write of time registers. -/
def lockedTime (now off : Nat) (t : TimeRegs) (c : Chip) : Chip :=
  lockedWrite off (fun c => refreshRole now { c with time := t }) (t != c.time) c

def writeTime (now o : Nat) (v : Word) (c : Chip) : Chip :=
  let t := c.time
  match o with
  | 0x00 =>
    let arm := if c.pwr.lowIdle && !t.arm then false else v.toNat.testBit 1
    lockedTime now 0x3000 { t with strict := v.toNat.testBit 0, arm := arm } c
  | 0x10 => lockedTime now 0x3010 { t with rootOrder := (t.rootOrder.set 0 (rootEntryOf v 0)).set 1 (rootEntryOf v 16) } c
  | 0x14 => lockedTime now 0x3014 { t with rootOrder := (t.rootOrder.set 2 (rootEntryOf v 0)).set 3 (rootEntryOf v 16) } c
  | 0x18 => lockedTime now 0x3018 { t with parents := (t.parents.set 0 (parentListOf v 0)).set 1 (parentListOf v 16) } c
  | 0x1C => lockedTime now 0x301C { t with parents := (t.parents.set 2 (parentListOf v 0)).set 3 (parentListOf v 16) } c
  | 0x20 => lockedTime now 0x3020 { t with holdLimit := bv 24 v 0 } c
  | 0x24 => lockedTime now 0x3024 { t with imageId := v } c
  | 0x28 => lockedTime now 0x3028 { t with seed := v } c
  | 0x48 => lockedTime now 0x3048 { t with admission := v } c
  | 0x40 =>
    if v.toNat.testBit 31 then { c with time := { t with abortCause := 0, aborter := 0, abortValid := false } } else c
  | _ => c

/-! FAB (09 Tables 09-9 to 09-15; 10 Tables 10-8 to 10-14). -/

/-- FAB_Pn_CTL (09 Table 09-10): in run state one discarded write at most, for RETRAIN and every run-locked change. -/
def writePortCtl (p : PortId) (v : Word) (now : Nat) (c : Chip) : Chip :=
  let x := c.port p
  let enable := v.toNat.testBit 0
  let cls : BitVec 2 := bv 2 v 4
  let changed := enable != x.enable || (4 ≤ p.val && cls != x.cls)
  let retrain := v.toNat.testBit 1
  if c.map.run then (if changed || retrain then c.cfgDiscard (portCtl p) else c)
  else
    let c := writePortEnable p enable now (writePortClass p cls now c)
    if retrain then writePortRetrain p now c else c

def writePort (p : PortId) (r : Nat) (v : Word) (now : Nat) (c : Chip) : Chip :=
  if 0x20 ≤ r && r < 0x40 then
    match finOf 8 ((r - 0x20) / 4) with
    | some k => c.onPort p fun x => { x with laneCorr := x.laneCorr.set k v }
    | none => c
  else match r with
    | 0x000 => writePortCtl p v now c
    | 0x014 => c.onPort p fun x => { x with retryLimit := bv 16 v 0, retryInterval := bv 8 v 16, nakMax := bv 8 v 24 }
    | 0x018 => c.onPort p fun x => { x with retryCount := v }
    | 0x01C => c.onPort p fun x => { x with failThresh := bv 16 v 0 }
    | 0x040 => c.onPort p fun x => { x with rejectCount := v }
    | 0x104 => c.onPort p fun x => { x with dropCount := v }
    | 0x108 => c.onPort p fun x => { x with schedCount := v }
    | 0x10C => c.onPort p fun x => { x with hostCount := v }
    | 0x110 => c.onPort p fun x => { x with xoffCount := v }
    | _ => c

def unpackPairs (n : Nat) (v : Word) (lo : Nat) : Vector (BitVec 2) n := Vector.ofFn fun i => bv 2 v (lo + 2 * i.val)

/-- A run-locked write of the chip-wide fabric. -/
def lockedFab (off : Nat) (f : Fabric) (c : Chip) : Chip :=
  lockedWrite off (fun c => { c with fab := f }) (f != c.fab) c

/-- Sixteen entries of the Z table from `lo` on. -/
def setZ (lo : Nat) (v : Word) (z : Vector (BitVec 2) 32) : Vector (BitVec 2) 32 :=
  Vector.ofFn fun i => if lo ≤ i.val && i.val < lo + 16 then bv 2 v (2 * (i.val - lo)) else z[i]

def writeFabric (r : Nat) (v : Word) (c : Chip) : Chip :=
  let f := c.fab
  match r with
  | 0x184 => lockedFab 0x4184 { f with rtX := unpackPairs 4 v 0, rtY := unpackPairs 4 v 8 } c
  | 0x188 => lockedFab 0x4188 { f with rtZ := setZ 0 v f.rtZ } c
  | 0x18C => lockedFab 0x418C { f with rtZ := setZ 16 v f.rtZ } c
  | 0x190 => lockedFab 0x4190 { f with rtW := unpackPairs 16 v 0 } c
  | 0x194 => { c with fab := { f with hostTimeout := bv 16 v 0 } }
  | 0x19C => { c with fab := { f with hostDrop := v } }
  | 0x1A0 =>
    if v.toNat.testBit 31 then
      { c with fab := { f with captCause := 0, captPort := 0, captTile := 0, captValid := false } }
    else c
  | 0x1A4 => { c with fab := { f with routeCount := v } }
  | _ => c

def writeFab (o : Nat) (v : Word) (y : Sys) : Sys :=
  match finOf 8 (o / 0x200) with
  | some p =>
    if p.val == 0 && o == 0x180 then (writeTrayIndex v y).onChip (refreshRole y.now)
    else if p.val == 0 && 0x180 ≤ o then y.onChip (writeFabric o v)
    else y.onChip (writePort p (o % 0x200) v y.now)
  | none => y

/-! MAP (03 Tables 03-12 to 03-20), CHIPMAP (10 R258). -/

/-- MAP_TRACE_CTL: run-locked; ENABLE requests DBG on or off (03 R90). -/
def writeTraceCtl (v : Word) (now : Nat) (c : Chip) : Chip :=
  let m := { c.map with traceEnable := v.toNat.testBit 0, traceTile := bv 9 v 4, traceWrap := v.toNat.testBit 16 }
  lockedWrite 0x6028 (fun c => followRequests now { c with map := m }) (m != c.map) c

/-- Four entries of the column map (03 Table 03-16). -/
def setCols (k : Nat) (v : Word) (cols : Vector (BitVec 5) 20) : Vector (BitVec 5) 20 :=
  Vector.ofFn fun i => if i.val / 4 == k then bv 5 v (8 * (i.val % 4)) else cols[i]

/-- MAP_CTL and MAP_VCOLk: run-locked (03 R86, R92). -/
def writeColumnMap (o : Nat) (v : Word) (c : Chip) : Chip :=
  let m := if o == 0x08 then { c.map with target := bv 2 v 8 }
    else { c.map with vcol := setCols ((o - 0x0C) / 4) v c.map.vcol }
  lockedWrite (0x6000 + o) (fun c => { c with map := m }) (m != c.map) c

def writeMap (o : Nat) (v : Word) (now : Nat) (c : Chip) : Chip :=
  if 0x08 ≤ o && o < 0x20 then writeColumnMap o v c
  else match o with
    | 0x24 =>
      if v.toNat.testBit 31 then { c with map := { c.map with discOffset := 0, discCount := 0, discValid := false } } else c
    | 0x28 => writeTraceCtl v now c
    | 0x30 => { c with map := { c.map with traceIndex := bv 12 v 0 } }
    | _ => c

/-- Entry k of the chip map set, bits [14:13] dropped; the list keeps rising indices and no zero entry. -/
def setChipMap (k : Nat) (x : BitVec 16) (l : List (Nat × BitVec 16)) : List (Nat × BitVec 16) :=
  let x := x &&& 0x9FFF#16
  l.takeWhile (fun e => decide (e.1 < k)) ++ (if x == 0 then [] else [(k, x)]) ++ l.dropWhile (fun e => decide (e.1 ≤ k))

def writeChipMap (o : Nat) (v : Word) (c : Chip) : Chip :=
  let k := o / 4 * 2
  lockedFab (0x8000 + o) { c.fab with chipMap := setChipMap (k + 1) (bv 16 v 16) (setChipMap k (bv 16 v 0) c.fab.chipMap) } c

/-! SRCH (12 Table 12-15) and MGT (14 Table 14-7, 20 Table 20-6). -/

def writeSrch (o : Nat) (v : Word) (s : SearchUnit) : SearchUnit :=
  match o with
  | 0x04 => { s with served := v }
  | 0x08 => { s with partialCount := v }
  | 0x0C => { s with refused := v }
  | 0x10 => { s with eccCount := v }
  | 0x14 => if v.toNat.testBit 31 then { s with eccOffset := 0, eccValid := false } else s
  | 0x18 => { s with scrubEnable := v.toNat.testBit 0, gap := bv 8 v 8 }
  | _ => s

/-- MGT_CRC_CTL.START while BUSY is 0 (14 R388). -/
def crcStart (now : Nat) (m : Mgt) : Mgt :=
  if m.crcBusy then m
  else { m with crcBusy := true, crcDone := false, crcAt := now, crcLine := 0, crcAcc := 2 ^ 64 - 1, crcBad := false }

/-- The CRC engine's registers; writes to BASE, LEN and EXP while BUSY is 1 are discarded (14 R388). -/
def writeCrc (o : Nat) (v : Word) (now : Nat) (m : Mgt) : Mgt :=
  match o with
  | 0x800 =>
    let m := if v.toNat.testBit 2 then { m with crcDone := false } else m
    if v.toNat.testBit 0 then crcStart now m else m
  | 0x804 => if m.crcBusy then m else { m with crcBase := bv 31 v 0 }
  | 0x808 => if m.crcBusy then m else { m with crcLen := bv 23 v 0 }
  | 0x80C => if m.crcBusy then m else { m with crcExp := setLow m.crcExp v }
  | 0x810 => if m.crcBusy then m else { m with crcExp := setHigh m.crcExp v }
  | _ => m

def writeMgt (o : Nat) (v : Word) (c : Chip) : Chip :=
  let m := c.mgt
  let set := fun (m : Mgt) => { c with mgt := m }
  match o with
  | 0x004 => set { m with twiMode := v.toNat.testBit 0, pecEn := v.toNat.testBit 1, twiTimeoutEn := v.toNat.testBit 2 }
  | 0x008 => set { m with twiTiming := word (fld v 0 24) }
  | 0x00C => set { m with wakes := bv 16 v 16 }
  | 0x010 => set { m with pecErrors := bv 16 v 0, twiTimeouts := bv 16 v 16 }
  | 0x014 => set { m with nmiLost := bv 8 v 16 }
  | 0x018 => if v.toNat.testBit 0 then popNmi c else c
  | _ => set (writeCrc o v c.cmp.cycles m)

/-! The register file (03 Table 03-8). -/

/-- An aligned 32-bit write at a BAR0 offset (00 R9, R16). -/
def writeReg (o : Nat) (v : Word) (y : Sys) : Sys :=
  if o < 0x1000 then writeHif o v y
  else if o < 0x2000 then y.onChip (writeFc (o - 0x1000) v y.now)
  else if o < 0x3000 then y.onChip (writePwr (o - 0x2000) v y.now)
  else if o < 0x4000 then y.onChip (writeTime y.now (o - 0x3000) v)
  else if o < 0x5000 then writeFab (o - 0x4000) v y
  else if 0x6000 ≤ o && o < 0x6100 then y.onChip (writeMap (o - 0x6000) v y.now)
  else if 0x8000 ≤ o && o < 0xC000 then y.onChip (writeChipMap (o - 0x8000) v)
  else if 0xC000 ≤ o && o < 0xD000 then y.onChip fun c => { c with srch := writeSrch (o - 0xC000) v c.srch }
  else if 0xF000 ≤ o && o < 0x10000 then y.onChip (writeMgt (o - 0xF000) v)
  else y

/-- The chip's register file is within reach of a master other than the two-wire target: not in RETENTION-ONLY. -/
def reachable (c : Chip) : Bool := !c.pwr.retention

/-- A register read by a master of BAR0 or of the fabric: the value, after which the read's effect (03 R83, 16 R420). -/
def accessRead (o : Nat) (y : Sys) : Word × Sys :=
  (readReg y.chip o, y.onChip fun c => readEffect o (wakeAccess y.now c))

def accessWrite (o : Nat) (v : Word) (y : Sys) : Sys := writeReg o v (y.onChip (wakeAccess y.now))

end Sys2Proof.Machine
end

