-- ==== Sys2Proof/Machine/External.lean ====
section
/-! DEFINITION. External accesses at a chip offset (03 Table 03-7, R82; 04 R116; 10 R262, Table 10-5; 13 R345): tile SRAM,
set-up registers and search memory, by host DMA, by the responder, by the window, and the CRC-64 of a region (14 R389). -/

namespace Sys2Proof.Machine

/-- What a chip offset names (03 Table 03-7). -/
inductive Region where
  | tile (v : Nat) (o : Nat)
  | regs (o : Nat)
  | search (o : Nat)
  | reserved
  deriving DecidableEq, Repr

def regionOf (vc off : Nat) : Region :=
  if off < 16 * vc * 0x400000 then .tile (off / 0x400000) (off % 0x400000)
  else if 0x60000000 ≤ off && off < 0x60010000 then .regs (off - 0x60000000)
  else if 0x70000000 ≤ off && off < 0x70800000 then .search (off - 0x70000000)
  else .reserved

/-- Of one kind: the tile region, the set-up range, search memory, or reserved. -/
def Region.kind : Region → Nat
  | .tile _ _ => 0
  | .regs _ => 1
  | .search _ => 2
  | .reserved => 3

/-- The piece (offset, length) of a range in its line i. -/
def linePiece (off n i : Nat) : Nat × Nat :=
  let a := max off ((off / 256 + i) * 256)
  (a, min (off + n) ((off / 256 + i + 1) * 256) - a)

/-- Pieces of a range that stay within one 256-byte line. -/
def linePieces (off : Nat) (n : Nat) : List (Nat × Nat) :=
  if n == 0 then [] else (List.range ((off + n - 1) / 256 - off / 256 + 1)).map (linePiece off n)

/-! One access within a line. The status is that of 10 Table 10-5: 0 OK, 1 ADDR_FAULT, 2 REFUSED, 4 DATA_ERROR. -/

/-- 52, GLOBAL_ACCESS_FAULT, for a global or window access to a reserved range (03 R82). -/
def reservedAccess (y : Sys) : Sys := y.onChip fun c => c.raise 52 .chip

/-- Words of registers read in ascending order. -/
def readRegs (o : Nat) : Nat → Sys → List Byte × Sys
  | 0, y => ([], y)
  | k + 1, y =>
    let r := accessRead o y
    let s := readRegs (o + 4) k r.2
    (leBytes 4 r.1.toNat ++ s.1, s.2)

/-- Words of registers written in ascending order. -/
def writeRegs (o : Nat) : List Byte → Sys → Sys
  | b0 :: b1 :: b2 :: b3 :: rest, y => writeRegs (o + 4) rest (accessWrite o (word (leNat [b0, b1, b2, b3])) y)
  | _, y => y

/-- The words of 8 bytes that `n` bytes at byte `a` touch. -/
def wordsTouched (a n : Nat) : Nat := (a + n - 1) / 8 - a / 8 + 1

/-- An external access uses the ports of a sub-bank in the present cycle: the scrubber gives way to it (04 R116). That it waits
for a port which the issuing bundle claims is timing that the model leaves out (log entry 110). -/
def usePorts (p : Fin 320) (o : Nat) (y : Sys) : Sys :=
  y.onChip fun c => c.onTile p fun t =>
    { t with use := let u := c.useNow p
                    { u with ext := (u.ext.filter fun x => x.1 == c.cmp.cycles) ++ [(c.cmp.cycles, subBank o)] } }

/-- Read tile SRAM: corrected words and uncorrectable ones are reported (04 R119). -/
def readTile (m : List Host.Cell) (v o n : Nat) (y : Sys) : Nat × List Byte × Sys :=
  match y.chip.liveTile v with
  | none => (2, List.replicate n 0, y)
  | some p =>
    let a := tileBase p.val + o
    let w := a / 256 * 32
    let r := Ecc.check (y.ecc.filter fun e => a / 8 ≤ e.1 && e.1 < a / 8 + wordsTouched a n) w 32
    (if r.2 == 0 then 0 else 4, Memory.read m a n, (usePorts p o y).onChip fun c => c.eccReport v o r.1 r.2)

/-- Read search memory: an uncorrectable word raises source 6 (10 Table 10-5), which has no tile to own it. -/
def readSearchMem (m : List Host.Cell) (o n : Nat) (y : Sys) : Nat × List Byte × Sys :=
  if y.chip.domOn bitSrch then
    let a := searchBase + o
    let r := Ecc.check y.ecc (a / 8) (wordsTouched a n)
    if r.2 == 0 then (0, Memory.read m a n, y)
    else (4, Memory.read m a n, y.onChip fun c => c.raise 6 .chip)
  else (2, List.replicate n 0, y)

/-- Read `n` bytes at a chip offset, all within one line. -/
def readPiece (m : List Host.Cell) (off n : Nat) (y : Sys) : Nat × List Byte × Sys :=
  match regionOf y.chip.map.vc off with
  | .tile v o => readTile m v o n y
  | .regs o => let r := readRegs o (n / 4) y; (0, r.1, r.2)
  | .search o => readSearchMem m o n y
  | .reserved => (1, List.replicate n 0, y)

/-- Bytes stored to memory at an address of `State.mem`, with fresh check bits (04 R119). -/
def storeBytes (a : Nat) (bs : List Byte) (m : List Host.Cell) (y : Sys) : List Host.Cell × Sys :=
  (Memory.write m a bs,
    { y with ecc := y.ecc.filter fun e => !(a ≤ e.1 * 8 && e.1 * 8 + 8 ≤ a + bs.length) })

/-- Write bytes at a chip offset, all within one line. -/
def writePiece (off : Nat) (bs : List Byte) (m : List Host.Cell) (y : Sys) : Nat × List Host.Cell × Sys :=
  match regionOf y.chip.map.vc off with
  | .tile v o =>
    match y.chip.liveTile v with
    | none => (2, m, y)
    | some p =>
      let r := storeBytes (tileBase p.val + o) bs m (usePorts p o y)
      (0, r.1, r.2.onChip fun c => c.onTile p fun t =>
        { t with scrub := { t.scrub with pending := t.scrub.pending.filter fun x =>
            !(x.1.val == subBank o && x.2.val == o / 256 % 1024) } })
  | .regs o => (0, m, writeRegs o bs y)
  | .search o =>
    if y.chip.domOn bitSrch then let r := storeBytes (searchBase + o) bs m y; (0, r.1, r.2) else (2, m, y)
  | .reserved => (1, m, y)

/-! Whole ranges, for WRITE and READ of the own chip (13 Table 13-5). -/

/-- The status of a range before any byte moves: ADDR_FAULT where it reaches a reserved range or leaves its region,
REFUSED where a domain it needs is off (13 R355, Table 13-9). -/
def rangeStatus (c : Chip) (off n : Nat) : Nat :=
  let k := (regionOf c.map.vc off).kind
  if k == 3 || (regionOf c.map.vc (off + n - 1)).kind != k then 14
  else match regionOf c.map.vc off with
    | .tile v _ =>
      let last := (off + n - 1) / 0x400000
      if (List.range (last - v + 1)).all fun i => (c.liveTile (v + i)).isSome then 0 else 15
    | .search _ => if c.domOn bitSrch then 0 else 15
    | _ => 0

/-- Every piece of a range read: whether any met an uncorrectable word, and the bytes. -/
def readRange (m : List Host.Cell) (off n : Nat) (y : Sys) : Bool × List Byte × Sys :=
  (linePieces off n).foldl (fun acc p =>
    let r := readPiece m p.1 p.2 acc.2.2
    (acc.1 || r.1 == 4, acc.2.1 ++ r.2.1, r.2.2)) (false, [], y)

/-- A range written piece by piece. -/
def writeRange (off : Nat) (bs : List Byte) (m : List Host.Cell) (y : Sys) : List Host.Cell × Sys :=
  (linePieces off bs.length).foldl (fun acc p =>
    let r := writePiece p.1 ((bs.drop (p.1 - off)).take p.2) acc.1 acc.2
    (r.2.1, r.2.2)) (m, y)

/-! CRC-64 (14 R389): polynomial 0x42F0_E1EB_A9EA_3693 reflected, initial value and final XOR all ones. -/

def crc64Bit (x : Nat) : Nat := if x.testBit 0 then (x / 2) ^^^ 0xC96C5795D7870F42 else x / 2

def crc64Byte (x : Nat) (b : Byte) : Nat :=
  crc64Bit (crc64Bit (crc64Bit (crc64Bit (crc64Bit (crc64Bit (crc64Bit (crc64Bit (x ^^^ b.toNat))))))))

/-- The CRC of what has been read, taken on over more bytes. -/
def crc64On (acc : Nat) (bs : List Byte) : Nat := bs.foldl crc64Byte acc

def crc64 (bs : List Byte) : Nat := crc64On (2 ^ 64 - 1) bs ^^^ (2 ^ 64 - 1)

/-- The region is within one tile's SRAM or search memory, in multiples of 8, and not empty (14 Table 14-4). -/
def crcRegionOk (vc base len : Nat) : Bool :=
  base % 8 == 0 && len % 8 == 0 && len != 0 &&
    match regionOf vc base, regionOf vc (base + len - 1) with
    | .tile v _, .tile w _ => v == w
    | .search _, .search _ => true
    | _, _ => false

/-- The region of a check is one that the engine reads (14 Table 14-4). -/
def crcReads (c : Chip) : Bool :=
  crcRegionOk c.map.vc c.mgt.crcBase.toNat c.mgt.crcLen.toNat && rangeStatus c c.mgt.crcBase.toNat c.mgt.crcLen.toNat != 15

/-- Lines of the region. -/
def crcLines (m : Mgt) : Nat := (m.crcBase.toNat + m.crcLen.toNat + 255) / 256 - m.crcBase.toNat / 256

/-- The engine reads the next line of its region as it stands (14 R388, When events coincide). -/
def crcStep (m : List Host.Cell) (y : Sys) : Sys :=
  let g := y.chip.mgt
  let p := linePiece g.crcBase.toNat g.crcLen.toNat g.crcLine
  let r := readPiece m p.1 p.2 y
  r.2.2.onChip fun c => { c with mgt := { c.mgt with
    crcLine := g.crcLine + 1, crcAcc := crc64On g.crcAcc r.2.1, crcBad := g.crcBad || r.1 == 4 } }

def crcSteps (m : List Host.Cell) : Nat → Sys → Sys
  | 0, y => y
  | k + 1, y => crcSteps m k (crcStep m y)

/-- The engine has read the first n lines of its region. -/
def crcReadTo (m : List Host.Cell) (n : Nat) (y : Sys) : Sys :=
  if crcReads y.chip then crcSteps m (n - y.chip.mgt.crcLine) y else y

/-- The lines that a core cycle leaves read: one a cycle, but for the cycles that the engine waited (14 R388). -/
def crcTick (m : List Host.Cell) (y : Sys) : Sys :=
  let g := y.chip.mgt
  if g.crcBusy then crcReadTo m (min (crcLines g) (y.chip.cmp.cycles - g.crcAt)) y else y

/-- The end of a check: STATUS, the CRC, and source 51 for MISMATCH and DATA_ERROR (14 R390, Table 14-4). -/
def crcFinish (m : List Host.Cell) (y : Sys) : Sys :=
  let g := y.chip.mgt
  let base := g.crcBase.toNat
  let len := g.crcLen.toNat
  let stop := fun (status : Nat) (y : Sys) => y.onChip fun c =>
    { c with mgt := { c.mgt with crcBusy := false, crcDone := true, crcStatus := BitVec.ofNat 3 status } }
  if !crcRegionOk y.chip.map.vc base len then stop 2 y
  else if rangeStatus y.chip base len == 15 then stop 3 y
  else
    let y := crcReadTo m (crcLines g) y
    let crc := y.chip.mgt.crcAcc ^^^ (2 ^ 64 - 1)
    let status := if y.chip.mgt.crcBad then 4 else if crc == g.crcExp.toNat then 0 else 1
    let y := (stop status y).onChip fun c => { c with mgt := { c.mgt with crcVal := BitVec.ofNat 64 crc } }
    if status == 0 then y else y.onChip fun c => c.raise 51 .crc

end Sys2Proof.Machine
end

