-- ==== Sys2Proof/Machine/SetUp.lean ====
section
/-! DEFINITION. The commands that are reads and writes of chip registers with an effect of their own (03 R73, R87, R90,
R94; 11 R283, R302; 12 R314; 16 R433, R442; 10 R277). In RETENTION-ONLY no register of the chip can be reached. -/

namespace Sys2Proof.Machine

/-- The chip's cartridge has been removed (13 R372). -/
def removed (y : Sys) : Bool := !y.tray.bays[y.chip.fab.slot].present

/-- A read of `n` bytes that the chip does not answer: all ones once its cartridge has been removed (13 R372). -/
def deadRead (n : Nat) (y : Sys) : Sys :=
  if removed y then y.emit (.readData (List.replicate n 0xFF)) else y.emit .unsupported

/-- A 32-bit read of the chip's register file by a master of BAR0 or of the fabric, answered with its data. -/
def chipRead (o : Nat) (y : Sys) : Sys :=
  if reachable y.chip then
    let r := accessRead o y
    r.2.emit (.readData (leBytes 4 r.1.toNat))
  else deadRead 4 y

/-- A 32-bit write of the chip's register file. -/
def chipWrite (o : Nat) (v : Word) (y : Sys) : Sys :=
  if reachable y.chip then accessWrite o v y else y.emit .unsupported

/-- COLUMN_MAP_WRITE: register 0 is MAP_CTL and register k is MAP_VCOL(k − 1) (03 R73, R92). -/
def execColumnMapWrite (reg : Fin 6) (value : Word) (s : State) : Result :=
  onSys (chipWrite (if reg.val == 0 then 0x6008 else 0x600C + 4 * (reg.val - 1)) value) s

/-- TRACE_ENABLE: MAP_TRACE_CTL (03 R90). -/
def execTraceEnable (value : Word) (s : State) : Result := onSys (chipWrite 0x6028 value) s

/-- TRACE_DATA_READ: MAP_TRACE_DATA_HI; INDEX advances (03 R94). -/
def execTraceDataRead (s : State) : Result := onSys (chipRead 0x6038) s

/-- STEEP_COMMIT: PWR_COMMIT.STEEP (03 R87, 16 Table 16-9). -/
def execSteepCommit (s : State) : Result := onSys (chipWrite 0x2064 1) s

/-- MON_COMMIT: PWR_COMMIT.MON (16 R433). -/
def execMonCommit (s : State) : Result := onSys (chipWrite 0x2064 2) s

/-- GTC_READ: TIME_GTC_LO (11 R283). -/
def execGtcRead (s : State) : Result := onSys (chipRead 0x3008) s

/-- LAG_READ: TIME_LAG_LO (11 R302). -/
def execLagRead (s : State) : Result := onSys (chipRead 0x3038) s

/-- SRCH_WORK_READ: SRCH_WORK_LO (12 R314). -/
def execSrchWorkRead (s : State) : Result := onSys (chipRead 0xC01C) s

/-- STEEP_BAL_READ: PWR_STEEP_BALq_LO (16 R442). -/
def execSteepBalRead (q : QuadId) (s : State) : Result := onSys (chipRead (0x20C0 + 8 * q.val)) s

/-- TRAY_INDEX_WRITE: FAB_SELF (10 R277). -/
def execTrayIndexWrite (value : Word) (s : State) : Result := onSys (chipWrite 0x4180 value) s

end Sys2Proof.Machine
end

