-- ==== Sys2Proof/Machine/Power.lean ====
section
/-! DEFINITION. The chip power commands: domains, LOW-IDLE, PARK and return, operating points, supply monitors, the thermal
scan, forecasts of the steeping governor, and AON reset (16). -/

namespace Sys2Proof.Machine

/-! Domains (16 section 1). -/

/-- The bit of PWR_DOM_STATUS.ON of a switched domain (16 Table 16-9). -/
def domainBit : Domain → Nat
  | .q i => bitQ i.val
  | .srch => bitSrch
  | .faba => bitFaba
  | .fabb => bitFabb
  | .dbg => bitDbg

/-- DOMAIN_REQUEST: a write of PWR_DOM_REQ (16 R418, R419, R437). -/
def execDomainRequest (value : Word) (s : State) : Result := onSys (chipWrite 0x2000 value) s

/-- The 20 µs of a power-on or power-off pass. -/
def awaitDomain (d : Domain) (on : Bool) (y : Sys) : Sys :=
  match transOf y.chip (domainBit d) with
  | some t => y.awaitIf (t.on == on) t.until_
  | none => y

/-- DOMAIN_POWER_ON_END: the 20 µs have passed, and the domain is on and out of reset (16 R418). -/
def execDomainPowerOnEnd (d : Domain) (s : State) : Result :=
  onSys (fun y => let y := awaitDomain d true y; y.onChip (powerOnEnd (domainBit d) y.now)) s

/-- DOMAIN_POWER_OFF_END: the supply is gone, and a waiting request for on takes effect (16 R418). -/
def execDomainPowerOffEnd (d : Domain) (s : State) : Result :=
  onSys (fun y => let y := awaitDomain d false y; y.onChip (powerOffEnd (domainBit d) y.now)) s

/-! Chip states (16 section 2). -/

/-- LOW_IDLE_ENTRY: PWR_STATE_CTL.LOW_IDLE written 1 (16 R420, R423, R427). -/
def execLowIdleEntry (s : State) : Result := onSys (chipWrite 0x2008 1) s

/-- LOW_IDLE_EXIT: PWR_STATE_CTL.LOW_IDLE written 0; the return takes no time here (16 R420). -/
def execLowIdleExit (s : State) : Result := onSys (chipWrite 0x2008 0) s

/-- KEEP_ALIVE_RATE_RETURN: 10 ms after the last access (20 R528). -/
def execKeepAliveRateReturn (s : State) : Result :=
  onSys (fun y =>
    match y.chip.pwr.wokenAt with
    | some t => (y.await (t + Config.ms 10)).onChip (Chip.onPwr fun p => { p with wokenAt := none })
    | none => y) s

/-- RETENTION_EXIT: VAUX and VCORE are back (16 R422, R423, R554). The CSC boots. -/
def execRetentionExit (s : State) : Result :=
  onSys (fun y => y.onChip fun c => if c.pwr.retention then (leaveRetention y.now c).ownersReset [.hif] else c) s

/-- What SRAM and search memory lose with VRET: their contents are unknown (16 R424; log entry 7). -/
def loseRet (y : Sys) : Sys :=
  { y with ecc := [], chip := y.chip.onPwr fun p => { p with retLost := true } }

/-- RET_LOST: VRET is below its reset threshold, in any chip state (16 R424, R554). -/
def execRetLost (s : State) : Result := onMemSys (fun _ y => ([], loseRet y)) s

/-! Operating points (16 section 3). -/

/-- OP_GO: PWR_OP_CTL.GO, with POINT as it stands (16 R426, R427). -/
def execOpGo (s : State) : Result :=
  onSys (fun y => chipWrite 0x200C (word (16 + y.chip.pwr.opReq.toNat)) y) s

/-- OP_TRANSITION_START: the core view has reached AT, or a deferred transition finds the chip out of run state (16 R426,
R428). -/
def execOpTransitionStart (s : State) : Result :=
  onSys (fun y =>
    let y := match y.chip.pwr.opGoal with
      | some g => if y.chip.pwr.opPending && !y.chip.pwr.busy then y.awaitView g.2.toNat else y
      | none => y
    if timeBaseRuns y.chip then y.onChip (opStart y.now) else y) s

/-- OP_TRANSITION_END: 150 µs after its start (16 R426, R430 to R432). -/
def execOpTransitionEnd (pllLocked vcoreInRange : Bool) (s : State) : Result :=
  onSys (fun y =>
    match y.chip.pwr.busy, y.chip.pwr.opStart with
    | true, some t => let y := y.await (t + Config.us 150); y.onChip (opEnd (pllLocked && vcoreInRange) y.now)
    | _, _ => y) s

/-! Supply monitors (16 section 5). -/

/-- Nominal voltage of a rail in mV (16 Table 16-3, R425). -/
def railNominal (c : Chip) (r : MonRail) : Nat :=
  match r.val with
  | 0 => if c.pwr.point == 0 then 850 else if c.pwr.point == 1 then 780 else 720
  | 1 => 800
  | 2 => 650
  | _ => 900

/-- A level in µV that lies `steps` steps of 0.25 % below nominal. -/
def railLevel (c : Chip) (r : MonRail) (steps : Nat) : Nat := railNominal c r * 1000 * (400 - steps) / 400

/-- Where a monitor acts, in µV: warning, reset, release. RESET not greater than WARN acts at WARN, and so does HYST greater
than WARN (16 R433, Table 16-6). The commands of this section are a rail's passages through these levels. -/
def monLevels (c : Chip) (r : MonRail) : Nat × Nat × Nat :=
  let t := c.pwr.mon[r]
  let w := t.warn.toNat
  (railLevel c r w, railLevel c r (max w t.reset.toNat), railLevel c r (w - min w t.hyst.toNat))

/-- The warning source of a rail (16 R434). -/
def warnSource (r : MonRail) : Nat :=
  match r.val with
  | 0 => 40
  | 1 => 42
  | 2 => 43
  | _ => 44

def railMask (r : MonRail) : BitVec 4 := BitVec.ofNat 4 (2 ^ r.val)

/-- The monitor of VRET runs in every chip state, the others not in RETENTION-ONLY (16 R554). -/
def monitorRuns (c : Chip) (r : MonRail) : Bool := r.val == 2 || !c.pwr.retention

/-- A rail falls below warning: its level source; the brownout hold is `Chip.brownout` (16 R433, R434). -/
def railWarn (r : MonRail) (now : Nat) (c : Chip) : Chip :=
  (c.onPwr fun p => { p with belowWarn := p.belowWarn ||| railMask r }).assert (warnSource r) .chip now

def execSupplyWarning (r : MonRail) (s : State) : Result :=
  onSys (fun y => y.onChip fun c => if monitorRuns c r then railWarn r y.now c else c) s

/-- A rail has recovered: its source deasserts, a reset on its account ends, and the hold may end (16 R433 to R435). -/
def railRecovered (r : MonRail) (now : Nat) (c : Chip) : Chip :=
  let was := c.pwr.railReset &&& railMask r != 0
  let c := (c.onPwr fun p => { p with belowWarn := p.belowWarn &&& ~~~(railMask r),
                                      railReset := p.railReset &&& ~~~(railMask r) }).lower (warnSource r) now
  let c := if was then c.ownersReset [.chip] else c
  resumeIssue (setHeld (heldByReset c) now c)

def execSupplyRecovered (r : MonRail) (s : State) : Result :=
  onSys (fun y => y.onChip fun c => if monitorRuns c r then railRecovered r y.now c else c) s

/-- VCORE, VSRAM or VPHY below its reset threshold: source 41 and RESET_RAIL, and the compute domains, FABA and FABB are
held in reset until the rail has recovered (16 R435). -/
def railReset (r : MonRail) (now : Nat) (c : Chip) : Chip :=
  let c := (railWarn r now c).raise 41 .chip
  let c := c.onPwr fun p => { p with resetRail := BitVec.ofNat 2 r.val, railReset := p.railReset ||| railMask r }
  let c := resetDomains fabBits now (resetCompute now c)
  setHeld (heldByReset c) now c

/-- SUPPLY_RESET; the reset threshold of VRET acts as RET_LOST (16 R424, R435). -/
def execSupplyReset (r : MonRail) (s : State) : Result :=
  if r.val == 2 then onMemSys (fun _ y => ([], loseRet (y.onChip (railWarn r y.now)))) s
  else onSys (fun y => y.onChip fun c => if monitorRuns c r then railReset r y.now c else c) s

/-! Thermal (16 section 6). -/

/-- A reading in steps of 0.5 °C, the nearest, a half upward (16 R436). -/
def halfDegrees (milliC : Int) : Int := (2 * milliC + 500) / 1000

def hottest (rs : Vector Int 16) : Int := rs.toList.foldl max (rs[0])

/-- PWR_THERM_STATUS: MAX and SENSOR. A reading that MAX cannot hold, and the choice among equally hot sensors, are free
values (log entry 16). -/
def recordMax (rs : Vector Int 16) (y : Sys) : Sys :=
  let h := hottest rs
  let f := y.fresh
  let g := f.2.fresh
  let tied := (List.finRange 16).filter fun i => rs[i] == h
  let max9 : BitVec 9 := if 0 ≤ h && h < 512 then BitVec.ofInt 9 h else BitVec.ofNat 9 (Config.freeNat f.1)
  let pick := tied.getD (Config.freeNat g.1 % max 1 tied.length) 0
  g.2.onChip (Chip.onPwr fun p => { p with thermMax := max9, thermSensor := BitVec.ofNat 4 pick.val })

/-- The thermal trip (16 R437): run state ends, Q0-Q3 and SRCH power off, their requests and ARM clear. -/
def thermalTrip (now : Nat) (c : Chip) : Chip :=
  let c := clearLags (leaveRun false (c.raise 46 .chip))
  let c := c.onPwr fun p => { p with req := p.req &&& 0x60#7, tripped := true, tripHold := true }
  followRequests now { c with time := { c.time with arm := false } }

/-- The warning source follows the readings; the trip acts on the way to 110 °C; requests are accepted again once every
sensor reads below WARN (16 R436, R437). -/
def thermalReact (h : Int) (now : Nat) (c : Chip) : Chip :=
  let warn := 2 * (c.pwr.thermWarn.toNat : Int) ≤ h
  let c := if warn then c.assert 45 .chip now else c.lower 45 now
  let c := if warn then c else c.onPwr fun p => { p with tripHold := false }
  let was := c.pwr.hot
  let c := c.onPwr fun p => { p with hot := 220 ≤ h }
  if 220 ≤ h && !was then thermalTrip now c else c

/-- THERMAL_SCAN: the sensors stop in RETENTION-ONLY (16 R436, R554). -/
def execThermalScan (milliC : Vector Int 16) (s : State) : Result :=
  onSys (fun y =>
    if y.chip.pwr.retention then y
    else
      let rs := milliC.map halfDegrees
      let y := recordMax rs y
      y.onChip (thermalReact (hottest rs) y.now)) s

/-! Steeping (16 section 7). -/

/-- The capacity M_q (16 R438). -/
def quadCapacity (c : Chip) (q : Nat) : Nat := 6 * c.map.quadTiles q

/-- FORECAST_EFFECT: the ceiling min(8 × LEVEL, M_q) from PCC n + LEAD on (16 R440). -/
def applyForecast (q : QuadId) (c : Chip) : Chip :=
  match c.pwr.gov[q].forecast with
  | some f =>
    if c.map.run && f.due ≤ c.cmp.pcc then
      c.onPwr (onGov q fun g => { g with ceiling := some (min (8 * f.level.toNat) (quadCapacity c q.val)), forecast := none })
    else c
  | none => c

def execForecastEffect (q : QuadId) (s : State) : Result := onChip (applyForecast q) s

/-! AON reset (03 R92; 10 R275; 11 R313; 13 R373; 15 R415; 16 R445; 20 R543). -/

/-- The default map of a grade (03 R92): the native target, and the usable columns in ascending order. -/
def defaultMap (m : MapRegs) : MapRegs :=
  let usable := (List.range 20).filter fun c => !m.disabled.toNat.testBit c
  { MapRegs.reset with grade := m.grade, disabled := m.disabled, target := BitVec.ofNat 2 m.grade.val,
                       vcol := Vector.ofFn fun i => BitVec.ofNat 5 (usable.getD i.val 0) }

/-- Every AON register at its reset value; the fuses and the slot straps are read again. -/
def aonReset (c : Chip) : Chip :=
  let m := c.mgt
  { Chip.reset with
    map := defaultMap c.map,
    fab := { Fabric.reset with slot := c.fab.slot },
    mgt := { Mgt.reset with lot := m.lot, wafer := m.wafer, dieX := m.dieX, dieY := m.dieY, reticle := m.reticle,
                            repair := m.repair, year := m.year, week := m.week } }

/-- AON_RESET: the chip starts in ACTIVE at P2 with FABA and FABB on, whose ports start; RET has first powered on, so its
memory is unknown (16 R424, R445). -/
def execAonReset (s : State) : Result :=
  onMemSys (fun _ y => ([], { y with ecc := [], chip := fabBits.foldl (fun c b => startPorts b y.now c) (aonReset y.chip) })) s

end Sys2Proof.Machine
end

