-- ==== Sys2Proof/Machine/TrayOps.lean ====
section
/-! DEFINITION. The operations that the tray's commands share: scopes, power orders and PWR_EN (17 R450, 18 R480), the
action log (18 R486, R487), valve motion and full cooling (19), drives (19 R512), and the settling of what the base
board's hardware derives from its state. -/

namespace Sys2Proof.Machine

/-! Scopes. -/

def Sys.onTray (f : Tray → Tray) (y : Sys) : Sys := { y with tray := f y.tray }
def Tray.onBay (n : SlotId) (f : Bay → Bay) (t : Tray) : Tray := { t with bays := t.bays.set n (f t.bays[n]) }
def Tray.onCpc (n : SlotId) (f : Cpc → Cpc) (t : Tray) : Tray := t.onBay n fun (b : Bay) => { b with cpc := f b.cpc }
def Tray.onAxis (n : AxisId) (f : Axis → Axis) (t : Tray) : Tray := { t with axes := t.axes.set n (f t.axes[n]) }
def Tray.onDrive (k : DriveId) (f : Drive → Drive) (t : Tray) : Tray := { t with drives := t.drives.set k (f t.drives[k]) }
def Tray.onCard (f : Card → Card) (t : Tray) : Tray := { t with card := f t.card }
def Tray.onTwi (b : BusId) (f : Twi → Twi) (t : Tray) : Tray := { t with twi := t.twi.set b (f t.twi[b]) }
def Tray.raise (n : Nat) (o : Owner) (t : Tray) : Tray := { t with fc := t.fc.raise n o }
def Tray.assert (n : Nat) (o : Owner) (now : Nat) (t : Tray) : Tray := { t with fc := t.fc.assert n o now }
def Tray.lower (n now : Nat) (t : Tray) : Tray := { t with fc := t.fc.lower n now }
def Tray.ownerReset (o : Owner) (t : Tray) : Tray := { t with fc := t.fc.ownerReset o }

/-- The base board's microsecond count (18 Table 18-11). -/
def Tray.micros (now : Nat) (t : Tray) : Nat := (now - t.timeBase) / 15000

def allSlots : List SlotId := List.finRange 16

/-! Levels (02 section 5, 17). -/

/-- PWR_GOOD: every rail is in regulation, VCORE once it has completed its dwell (02 S045, 17 R452). -/
def Cpc.good (c : Cpc) : Bool := c.rails.toList.all fun r => r == .good

/-- RAILS_OFF: every compute rail reads off (02 S046, 17 R454). -/
def Cpc.railsOff (c : Cpc) : Bool := c.rails.toList.all fun r => r == .off

def slotAxis (n : SlotId) : AxisId := ⟨n.val, by omega⟩

/-- VALVE_CLOSED of a slot, from the closed switch of its valve alone (19 R495). -/
def Tray.valveClosed (t : Tray) (n : SlotId) : Bool := t.axes[slotAxis n].closedSw

/-! Power orders (18 section 6). -/

/-- The resolved order of a slot: that of the highest rank that holds ON or OFF (18 R480). -/
def Tray.resolved (t : Tray) (n : SlotId) : Order :=
  let o := t.orders
  if o.rack[n] != .none then o.rack[n] else if o.host[n] != .none then o.host[n] else o.auto[n]

/-- TM_BB_PWR_WINNER: 1 rack, 2 host, 3 automatic, 0 none (18 Table 18-11). -/
def Tray.winner (t : Tray) (n : SlotId) : Nat :=
  let o := t.orders
  if o.rack[n] != .none then 1 else if o.host[n] != .none then 2 else if o.auto[n] != .none then 3 else 0

/-- A reaction bit is applied to the current latch of a tray source (15 Table 15-5). -/
def Collector.applies (k : Collector) (n bit : Nat) : Bool :=
  match finOf 64 n with
  | some i => k.src[i].status && k.src[i].applied.toNat.testBit bit
  | none => false

def Collector.anyApplies (k : Collector) (bit : Nat) : Bool :=
  k.src.toList.any fun x => x.status && x.applied.toNat.testBit bit

/-- OWNER of the slot's two sources, or ALL_OFF of any, holds the slot off while the bit stays set (15 Tables 15-5 and 15-6,
17 R450). -/
def Tray.reactionHold (t : Tray) (n : SlotId) : Bool :=
  t.fc.applies n.val 2 || t.fc.applies (16 + n.val) 2 || t.fc.anyApplies 3

/-- Hardware safety holds the slot off: a condition of R450 other than the order does not hold (18 R480). -/
def Tray.safetyHold (t : Tray) (n : SlotId) : Bool :=
  t.input != .normal || !t.bays[n].present || t.reactionHold n || t.bays[n].leak

/-- PWR_EN of a slot as R450 drives it. -/
def Tray.pwrEn (t : Tray) (n : SlotId) : Bool := !t.safetyHold n && t.resolved n == .on

/-- A change of PWR_EN reaches the CPC; a rise releases SEQ_FAULT_N (17 R456). -/
def setPwrEn (v : Bool) (now : Nat) (c : Cpc) : Cpc :=
  if c.pwrEn == v then c else { c with pwrEn := v, pwrEnAt := now, seqFault := c.seqFault && !v }

def settlePwrEn (now : Nat) (t : Tray) : Tray :=
  allSlots.foldl (fun u n => u.onCpc n (setPwrEn (t.pwrEn n) now)) t

/-! Sensors and the log (18 sections 7 and 8). -/

def Tray.reading (t : Tray) (p : Nat) : Int := (t.sensors[p]?.map fun s => s.value).getD 0

/-- Points of a record by TYPE (18 Table 18-9); for a slot mask those of the lowest slot named. -/
def logPoints (typ : Nat) (slot : Nat) : List Nat :=
  match typ with
  | 0x01 => [10 * slot + 1, 10 * slot + 6, 10 * slot + 8]
  | 0x02 => [10 * slot + 1, 10 * slot + 6, 10 * slot + 9]
  | 0x04 => [172, 169, 176]
  | 0x20 => [172, 169, 182]
  | 0x21 => [172, 169, 182]
  | 0x22 => [172, 169, 190]
  | _ => if 0x10 ≤ typ && typ ≤ 0x16 then [160, 162, 163] else []

/-- Settle time in ms by TYPE (18 Table 18-9). -/
def logSettle (typ : Nat) : Nat :=
  match typ with
  | 0x01 => 200
  | 0x02 => 100
  | 0x04 => 10000
  | 0x20 => 10000
  | 0x21 => 10000
  | _ => 0

def lowestSlot (mask : BitVec 16) : Nat := ((List.range 16).find? fun i => mask.toNat.testBit i).getD 0

/-- A record as its action begins. -/
def newRec (t : Tray) (typ origin status target arg slot : Nat) (req : Word × Word) (now : Nat) : LogRec :=
  let ps := logPoints typ slot
  let before := ps.map t.reading
  { time := t.micros now, number := 0, typ := typ, origin := origin, status := status, target := target, arg := arg,
    points := ps, settle := logSettle typ, before := before, after := before, requester := req.1, seq := req.2 }

/-- A record takes the next number; the oldest leaves a full ring (18 R486). -/
def Tray.appendRec (r : LogRec) (t : Tray) : Tray :=
  let l := t.log ++ [{ r with number := t.logHead }]
  { t with log := l.drop (l.length - 32768), logHead := (t.logHead + 1) % 2 ^ 32 }

/-- An event record is written at once (18 R487). -/
def Tray.logEvent (typ origin target arg : Nat) (now : Nat) (t : Tray) : Tray :=
  t.appendRec (newRec t typ origin 0 target arg 0 (0, 0) now)

/-- A power event record of the base board, with the BBU energy (17 R466, 18 Table 18-9). -/
def Tray.logPower (typ : Nat) (now : Nat) (t : Tray) : Tray := t.logEvent typ 4 0 (min t.bbuEnergy 0xFFFF) now

/-- A record that waits for its action's completion and settle time (18 R487). -/
def Tray.logLater (typ origin status target arg slot : Nat) (req : Word × Word) (wait : LogWait) (now : Nat) (t : Tray) :
    Tray :=
  let p : LogPending := ⟨newRec t typ origin status target arg slot req now, wait, none⟩
  { t with logPending := t.logPending ++ [p] }

def slotsOf (mask : BitVec 16) : List SlotId := allSlots.filter fun n => mask.toNat.testBit n.val

def waitOver (t : Tray) : LogWait → Bool
  | .none => true
  | .pwrGood m => (slotsOf m).all fun n => t.bays[n].cpc.good
  | .railsOff m => (slotsOf m).all fun n => t.bays[n].cpc.railsOff

/-- Completions are noted. -/
def settleLog (now : Nat) (t : Tray) : Tray :=
  { t with logPending := t.logPending.map fun p =>
      if p.doneAt.isNone && waitOver t p.wait then { p with doneAt := some now } else p }

def intBytes (x : Int) : List Byte := leBytes 4 (BitVec.ofInt 32 x).toNat

/-- The 64 bytes of a record (18 Table 18-8). -/
def LogRec.bytes (r : LogRec) : List Byte :=
  let point := fun (i : Nat) => leBytes 2 (r.points.getD i 0xFFFF)
  let value := fun (i : Nat) => intBytes (r.before.getD i 0) ++ intBytes (r.after.getD i 0)
  let head := leBytes 8 r.time ++ leBytes 4 r.number ++ leBytes 1 r.typ ++ leBytes 1 r.origin ++ leBytes 1 r.status ++ [0]
    ++ leBytes 2 r.target ++ leBytes 2 r.arg ++ point 0 ++ point 1 ++ point 2 ++ leBytes 2 r.settle
  let body := head ++ value 0 ++ value 1 ++ value 2 ++ leBytes 4 r.requester.toNat ++ leBytes 4 r.seq.toNat
  body ++ leBytes 4 (crc32 body)

/-! Valve motion (19 sections 2 to 5). -/

/-- Fully open (19 R494). -/
def axisOpen : Nat := 12800

/-- The time of a move over d microsteps in units of `now` (19 Table 19-2); none where the table gives no formula. -/
def moveTime (d v a b j : Nat) (sCurve : Bool) : Option Nat :=
  let u := Config.sec 1
  let j := 1000 * j
  if d == 0 then some 0
  else if !sCurve then
    if v * v * (a + b) ≤ 2 * a * b * d then some (u * v * (a + b) / (2 * a * b) + u * d / v)
    else some (Nat.sqrt (2 * d * (a + b) * u * u / (a * b)))
  else if a == b && a * a ≤ v * j && v * (v * j + a * a) ≤ d * (a * j) then
    some (u * v / a + u * a / j + u * d / v)
  else none

/-- A move from rest, under the axis's own profile or the full-cooling profile (19 R498, R515). -/
def startMove (target : Nat) (full : Bool) (now : Nat) (x : Axis) : Axis :=
  let d := (max target x.pos) - (min target x.pos)
  let time := if full then moveTime d 25000 100000 100000 1 false
    else moveTime d x.speed x.accel x.decel x.jerk x.sCurve
  if d == 0 then { x with st := .idle, target := target, remain := 0, due := none, full := false, next := none, release := false }
  else
    { x with st := .moving, target := target, remain := 0, full := full, overrun := false, next := none, release := false,
             due := time.map fun t => now + t - Config.us 20,
             closedSw := x.closedSw && target == 0, openSw := x.openSw && target == axisOpen }

/-- The axis is in motion. -/
def Axis.inMotion (x : Axis) : Bool :=
  x.st == .moving || x.st == .stopping || x.st == .homing || (x.st == .following && x.pos != x.target)

/-- The present motion leads toward a target: both lie on one side of where the motion began. -/
def Axis.toward (x : Axis) (target : Nat) : Bool :=
  (x.pos < x.target && x.pos < target) || (x.target < x.pos && target < x.pos)

/-- A hardware action sends the axis to a target under the full-cooling profile: a motion that leads there has its target
and limits replaced; any other motion stops at DECEL first; a FAILED axis stays (19 R504, R515). -/
def sendAxis (target now : Nat) (x : Axis) : Axis :=
  let x := { x with closePending := false, floor := false, release := false }
  match x.st with
  | .failed => x
  | .homing => { x with next := some target }
  | .moving =>
    if x.toward target then { x with target := target, full := true, due := none, next := none }
    else { x with st := .stopping, due := none, next := some target }
  | .stopping => { x with next := some target }
  | .following =>
    if x.pos == x.target then startMove target true now { x with st := .idle }
    else if x.toward target then { x with st := .moving, target := target, full := true, due := none, next := none }
    else { x with st := .stopping, due := none, next := some target }
  | .idle => startMove target true now x
  | .stopped => startMove target true now x

/-! Full cooling (19 section 8). -/

/-- CA_FULL.CAUSE: watchdog, tray collector, TMC request (19 R514). -/
def Tray.fullCause (t : Tray) : Bool × Bool × Bool := (t.card.expired, t.fc.anyApplies 1, t.tmcReq)

def Tray.fullWanted (t : Tray) : Bool := t.fullCause.1 || t.fullCause.2.1 || t.fullCause.2.2

def fullCauseBits (t : Tray) : Nat :=
  (if t.fullCause.1 then 1 else 0) + (if t.fullCause.2.1 then 2 else 0) + (if t.fullCause.2.2 then 4 else 0)

/-- Where full cooling sends an axis, if it does: present valves without a leak and loop valves with their pump open, the
bypass valves go to CA_BY_FULL (19 R515). -/
def fullTarget (t : Tray) (n : AxisId) : Option Nat :=
  match finOf 16 n.val with
  | some s => if t.bays[s].present && !t.bays[s].leak then some axisOpen else none
  | none =>
    if n.val == 16 then (if t.drives[(6 : DriveId)].present then some axisOpen else none)
    else if n.val == 17 then (if t.drives[(7 : DriveId)].present then some axisOpen else none)
    else some t.byFull.toNat

/-- A following axis stops at DECEL, is left IDLE and keeps no REMAIN (19 R510). -/
def release (x : Axis) : Axis :=
  if x.pos == x.target then { x with st := .idle, remain := 0 }
  else { x with st := .stopping, due := none, release := true }

/-- An axis as full cooling begins: followers are disengaged, pending closes clear (19 R515). -/
def startFullAxis (t : Tray) (now : Nat) (n : AxisId) (u : Tray) : Tray :=
  u.onAxis n fun x => match fullTarget t n with
    | some target => sendAxis target now x
    | none =>
      let x := { x with closePending := false }
      if x.st == .following then
        release x
      else x

/-- The drives of the CAC have power: not in BATTERY, nor while qualifying (19 R519, 17 Table 17-2). -/
def Tray.drivesPowered (t : Tray) : Bool := t.input != .battery && t.input != .qualifying

/-- An axis without drive power as full cooling begins: it stands, a follower is disengaged and a pending close clears (19 R515,
R519). -/
def disengage (x : Axis) : Axis :=
  { x with closePending := false, st := if x.st == .following then .idle else x.st }

/-- Full cooling begins or ends as its causes do; the running TMC logs the change (19 R514 to R516, 18 R486). -/
def settleFull (now : Nat) (t : Tray) : Tray :=
  if t.fullWanted == t.full then t
  else if t.full then
    let t := { t with full := false, fullEnded := true }
    if t.card.running then t.logLater 0x21 0 0 0 0 0 (0, 0) .none now else t
  else
    let u := { t with full := true }
    let u := if t.drivesPowered then (List.finRange 20).foldl (fun u n => startFullAxis t now n u) u
      else { u with axes := u.axes.map disengage }
    if t.card.running then u.logLater 0x20 0 0 (fullCauseBits t) 0 0 (0, 0) .none now else u

/-! Drives (19 section 7; 18 R484). -/

/-- The resolved cooling demand: the greatest of the three ranks, field by field (18 R484). -/
def Tray.demand (t : Tray) : Demand :=
  let d := t.demands
  { flow := BitVec.ofNat 16 (max d.rack.flow.toNat (max d.host.flow.toNat d.auto.flow.toNat)),
    fan := max d.rack.fan (max d.host.fan d.auto.fan),
    pump := max d.rack.pump (max d.host.pump d.auto.pump) }

/-- TM_BB_COOL_RESOLVED (18 Table 18-11). -/
def Tray.resolvedDemand (t : Tray) : Demand := if t.full then ⟨0xFFFF, 100, 100⟩ else t.demand

/-- The duty that a drive is to have (19 R512, R515). -/
def dutyGoal (t : Tray) (k : DriveId) : Nat :=
  if !t.drives[k].present || !t.drivesPowered then 0
  else if t.full then 100
  else if k.val < 6 then (if t.input == .normal then max 20 t.demand.fan else t.demand.fan)
  else if t.bays.toList.any (fun b => b.cpc.good) then max 20 t.demand.pump
  else t.demand.pump

/-- A rising duty takes effect at once; a falling one falls by at most 10 per second; an absent or unpowered drive is off
(19 R512). -/
def settleDrive (off : Bool) (goal now : Nat) (d : Drive) : Drive :=
  if off || d.duty ≤ goal then { d with duty := goal, dutyAt := now }
  else
    let steps := (now - d.dutyAt) / Config.ms 100
    { d with duty := max goal (d.duty - steps), dutyAt := d.dutyAt + steps * Config.ms 100 }

def settleDrives (now : Nat) (t : Tray) : Tray :=
  (List.finRange 8).foldl (fun u k =>
    u.onDrive k (settleDrive (!t.drives[k].present || !t.drivesPowered) (dutyGoal t k) now)) t

/-! Settling (15 R410, R413; 17 R450; 19 R514). -/

/-- ERR_N of the chip's slot is tray source s while it is low and the cartridge is present (15 R413, Table 15-6). -/
def settleErr (y : Sys) : Sys :=
  let s := y.chip.fab.slot
  let low := y.tray.bays[s].present && y.chip.fc.errPin
  y.onTray fun t => if low then t.assert s.val (.slot s) y.now else t.lower s.val y.now

/-- What the base board's hardware derives from its state after a change. -/
def settleTray (y : Sys) : Sys :=
  (settleErr y).onTray fun t => settleLog y.now (settleDrives y.now (settleFull y.now (settlePwrEn y.now t)))

/-- A meaning that changes the tray. -/
def onTray (f : Nat → Tray → Tray) (s : State) : Result :=
  onSys (fun y => settleTray (y.onTray (f y.now))) s

/-- A meaning that changes more than the tray and leaves the tray settled. -/
def onBoard (f : Sys → Sys) (s : State) : Result := onSys (fun y => settleTray (f y)) s

/-- A meaning of an event of the tray that comes at a time, where it comes at all. -/
def onTrayAt (due : Tray → Option Nat) (f : Nat → Tray → Tray) (s : State) : Result :=
  onBoard (fun y => match due y.tray with
    | some t => let y := y.await t; y.onTray (f y.now)
    | none => y) s

def whenSome (b : Bool) (t : Nat) : Option Nat := if b then some t else none

/-- BB_IRQ_N is asserted (15 Table 15-5). -/
def Tray.irq (t : Tray) : Bool := t.fc.anyApplies 0

end Sys2Proof.Machine
end

