-- ==== Sys2Proof/Machine/TmcOps.lean ====
section
/-! DEFINITION. What the Tray Management Controller's commands share: replies and the reply cache (18 sections 2 to 4), the
event ring, power orders and notices (18 section 6), the card's reset, and the SK2 reached through a two-wire target. -/

namespace Sys2Proof.Machine

/-! Power orders (18 R480, R481). -/

/-- The rank of an inlet (18 Table 18-5). -/
inductive Rank where
  | rack | host | auto
  deriving DecidableEq, Repr

def rankOf : Inlet → Rank
  | .rack => .rack
  | .host => .host

def putOrders (mask : BitVec 16) (o : Order) (v : Vector Order 16) : Vector Order 16 :=
  Vector.ofFn fun i => if mask.toNat.testBit i.val then o else v[i]

/-- An order recorded at a rank (18 R480). -/
def Tray.setOrder (r : Rank) (mask : BitVec 16) (o : Order) (t : Tray) : Tray :=
  match r with
  | .rack => { t with orders := { t.orders with rack := putOrders mask o t.orders.rack } }
  | .host => { t with orders := { t.orders with host := putOrders mask o t.orders.host } }
  | .auto => { t with orders := { t.orders with auto := putOrders mask o t.orders.auto } }

/-- A higher rank holds a different order for a slot. -/
def higherDiffers (t : Tray) (r : Rank) (o : Order) (n : SlotId) : Bool :=
  let differs := fun (x : Order) => x != .none && x != o
  match r with
  | .rack => false
  | .host => differs t.orders.rack[n]
  | .auto => differs t.orders.rack[n] || differs t.orders.host[n]

/-- OVERRIDDEN: for a named slot a higher rank holds a different order, or hardware safety holds a slot ordered ON (18
R481). -/
def overridden (t : Tray) (r : Rank) (mask : BitVec 16) (o : Order) : Bool :=
  (slotsOf mask).any fun n => higherDiffers t r o n || (o == .on && t.safetyHold n)

def orderCode : Order → Nat
  | .none => 0
  | .on => 1
  | .off => 2

/-- Slots whose PWR_EN an order changes. -/
def changedSlots (mask : BitVec 16) (before after : Tray) : BitVec 16 :=
  BitVec.ofNat 16 ((slotsOf mask).foldl (fun a n => if before.pwrEn n != after.pwrEn n then a + 2 ^ n.val else a) 0)

/-- An order is recorded and takes effect, and the running TMC logs it (18 R481, R486, Table 18-9). -/
def applyOrder (r : Rank) (mask : BitVec 16) (o : Order) (origin status : Nat) (req : Word × Word) (now : Nat)
    (t : Tray) : Tray :=
  let u := t.setOrder r mask o
  let ch := changedSlots mask t u
  if !t.card.running then u
  else if ch == 0 then u.logLater 0x03 origin status mask.toNat (orderCode o) 0 req .none now
  else if u.pwrEn ((finOf 16 (lowestSlot ch)).getD 0) then
    u.logLater 0x01 origin status mask.toNat (orderCode o) (lowestSlot mask) req (.pwrGood ch) now
  else u.logLater 0x02 origin status mask.toNat (orderCode o) (lowestSlot mask) req (.railsOff ch) now

/-! Events (18 R479). -/

def eventWord (typ number : Nat) (mask : Nat) (ms : Nat) : Dword :=
  BitVec.ofNat 64 (typ % 256 + number % 256 * 2 ^ 8 + mask % 2 ^ 16 * 2 ^ 16 + ms % 2 ^ 32 * 2 ^ 32)

def Mailbox.full (m : Mailbox) : Bool := m.tail + 1 == m.head

def Mailbox.post (e : Dword) (m : Mailbox) : Mailbox :=
  { m with events := m.events.set m.tail.toNat e (by have := m.tail.isLt; omega), tail := m.tail + 1 }

/-- Post an event, and send MSI-X vector 1 when IRQ_EN is 1; a full ring takes none (18 R479). -/
def postEvent (e : Dword) (y : Sys) : Sys :=
  let m := y.tray.card.mailbox
  if m.full then y
  else
    let y := y.onTray (Tray.onCard fun c => { c with mailbox := c.mailbox.post e })
    if m.irqEn then y.emit (.mailboxMsix 1) else y

/-! Replies (18 Table 18-1, R475 to R478). -/

/-- A reply frame (18 Table 18-1). -/
def replyFrame (h : TmpHdr) (command status : Nat) (payload : List Byte) : List Byte :=
  let body := [1, 1] ++ leBytes 2 command ++ leBytes 4 h.seq.toNat ++ leBytes 4 h.reqId.toNat
    ++ leBytes 2 payload.length ++ leBytes 1 status ++ [0] ++ payload
  body ++ leBytes 4 (crc32 body)

/-- A reply leaves by its inlet: as a datagram, or in TM_MB_RSP with RSP_READY and MSI-X vector 0 (18 R474, R478). -/
def sendReply (h : TmpHdr) (frame : List Byte) (y : Sys) : Sys :=
  match h.inlet with
  | .rack => y.emit (.tmp .rack frame)
  | .host =>
    let y := (y.onTray (Tray.onCard fun c =>
      { c with mailbox := { c.mailbox with rsp := frame, rspReady := true, busy := false } })).emit (.tmp .host frame)
    if y.tray.card.mailbox.irqEn then y.emit (.mailboxMsix 0) else y

def Tray.requester (t : Tray) (id : Word) : Option Requester := t.requesters.find? fun r => r.id == id

/-- The requester moves to the end of the list; the least recently used of more than 64 is forgotten (18 R475). -/
def Tray.putRequester (r : Requester) (t : Tray) : Tray :=
  let l := (t.requesters.filter fun x => x.id != r.id) ++ [r]
  { t with requesters := l.drop (l.length - 64) }

/-- What is kept of an executed request: HIGH, and the reply of a state-changing command, the last 32 of them (18 R475). -/
def noteRequest (h : TmpHdr) (reply : Option (List Byte)) (t : Tray) : Tray :=
  let old := (t.requester h.reqId).getD ⟨h.reqId, h.seq, []⟩
  let high := if old.high.toNat < h.seq.toNat then h.seq else old.high
  let replies := match reply with
    | some f => old.replies ++ [(h.seq, f)]
    | none => old.replies
  t.putRequester ⟨h.reqId, high, replies.drop (replies.length - 32)⟩

/-- A command's work: the state after it, its status and its reply payload. -/
abbrev TmpWork := Sys → Sys × Nat × List Byte

/-- Execute a request and reply. -/
def tmpRun (h : TmpHdr) (command : Nat) (cache : Bool) (f : TmpWork) (y : Sys) : Sys :=
  let r := f y
  let frame := replyFrame h command r.2.1 r.2.2
  sendReply h frame (r.1.onTray (noteRequest h (if cache then some frame else none)))

/-- A state-changing request by its SEQ: executed, answered from the cache, or STALE with HIGH (18 R476). REQ_ID 0 is out of
range. A card that does not run answers nothing (18 R490). -/
def tmpCommand (h : TmpHdr) (command : Nat) (f : TmpWork) (y : Sys) : Sys :=
  if !y.tray.card.running then y
  else if h.reqId == 0 then sendReply h (replyFrame h command 6 []) y
  else match y.tray.requester h.reqId with
    | none => tmpRun h command true f y
    | some r =>
      if r.high.toNat < h.seq.toNat then tmpRun h command true f y
      else match r.replies.lookup h.seq with
        | some frame => sendReply h frame (y.onTray (Tray.putRequester r))
        | none => sendReply h (replyFrame h command 8 (leBytes 4 r.high.toNat)) (y.onTray (Tray.putRequester r))

/-- A read command is not cached, and its retry executes again (18 R476). -/
def tmpRead (h : TmpHdr) (command : Nat) (f : TmpWork) (y : Sys) : Sys :=
  if !y.tray.card.running then y
  else if h.reqId == 0 then sendReply h (replyFrame h command 6 []) y
  else tmpRun h command false f y

def originOf : Inlet → Nat
  | .rack => 1
  | .host => 2

/-- The record of a state-changing command without points (18 Table 18-9, TYPE 0x05); a command that is refused has none (DEDUCED,
log entry 118). -/
def logCommand (h : TmpHdr) (status target arg : Nat) (now : Nat) (t : Tray) : Tray :=
  t.logLater 0x05 (originOf h.inlet) status target arg 0 (h.src, h.seq) .none now

/-! Notices (18 R482, R483). -/

def Tray.underNotice (t : Tray) (n : SlotId) : Bool := t.card.notices.any fun x => x.mask.toNat.testBit n.val

/-- Milliseconds until a notice's order is applied. -/
def noticeLeft (now : Nat) (x : Notice) : Nat :=
  (if x.deferred then 30000 else 100) - (now - x.openedAt) / Config.ms 1

/-- The numbers run from 1 to 255 and start again. -/
def nextNumber (b : Byte) : Byte := if b == 255 then 1 else b + 1

/-- Open a notice and post POWER_NOTICE with 100 ms remaining. -/
def openNotice (h : TmpHdr) (mask : BitVec 16) (y : Sys) : Sys :=
  let k := y.tray.card.nextNotice
  let x : Notice := ⟨k, mask, y.now, false, h⟩
  (postEvent (eventWord 1 k.toNat mask.toNat 100) y).onTray
    (Tray.onCard fun c => { c with nextNotice := nextNumber k, notices := c.notices ++ [x] })

/-- The order of a notice is applied, and NOTICE_CLOSED is posted. -/
def closeNotice (x : Notice) (y : Sys) : Sys :=
  let y := y.onTray (Tray.onCard fun c => { c with notices := c.notices.filter fun z => z != x })
  let y := y.onTray (applyOrder .rack x.mask .off 1 2 (x.hdr.src, x.hdr.seq) y.now)
  postEvent (eventWord 2 x.number.toNat x.mask.toNat 0) y

/-- A rack ON or NONE withdraws the pending OFF of its slots (18 R483); a notice left without a slot closes with the record
of its order, which changed no PWR_EN. -/
def withdraw (mask : BitVec 16) (now : Nat) (t : Tray) : Tray :=
  let cut := t.card.notices.map fun (x : Notice) => { x with mask := x.mask &&& ~~~mask }
  let u := (t.card.notices.zip cut).foldl (fun (u : Tray) (x : Notice × Notice) =>
    if x.2.mask == 0 then
      u.logLater 0x03 1 2 x.1.mask.toNat (orderCode .off) 0 (x.1.hdr.src, x.1.hdr.seq) .none now
    else u) t
  u.onCard fun c => { c with notices := cut.filter fun x => x.mask != 0 }

/-! The card (18 sections 9 and 10). -/

/-- The card resets: its notices are lost with their orders applied, the mailbox takes its reset values, and nothing is
answered until its firmware services the watchdog; a lease is asked for anew (18 R474, R490, R492; When events coincide). -/
def resetCard (now : Nat) (t : Tray) : Tray :=
  let u := t.card.notices.foldl (fun (u : Tray) x =>
    applyOrder .rack x.mask .off 1 2 (x.hdr.src, x.hdr.seq) now u) t
  let n := u.net
  let net := if n.dhcp then { n with lease := false, linkLocal := false, address := 0 } else n
  let u := { u with net := net }
  u.onCard fun c => { c with running := false, notices := [], bootCount := c.bootCount + 1, bootAt := now,
                             servedAt := none, mailbox := Mailbox.reset }

/-! The SK2 behind its two-wire target (20 sections 2 and 3). -/

/-- An address that names the chip: the sleep depth it meets, recorded, and whether it is acknowledged. In LOW-IDLE the
clock is held while the management clock starts; in RETENTION-ONLY the first address is refused and starts a management
wake (20 R527 to R529). -/
def addressChip (y : Sys) : Bool × Sys :=
  let c := y.chip
  let last := fun (d : BitVec 2) (c : Chip) => { c with mgt := { c.mgt with wakeLast := d } }
  if c.pwr.retention then
    match c.mgt.awake, c.mgt.wakeAt with
    | some _, _ => (true, y.onChip fun c => last 2 { c with mgt := { c.mgt with awake := some y.now } })
    | none, some _ => (false, y.onChip (last 2))
    | none, none =>
      (false, y.onChip fun c => last 2 { c with mgt := { c.mgt with wakeAt := some y.now, wakes := satInc c.mgt.wakes } })
  else if c.pwr.lowIdle then (true, y.onChip fun c => last 1 (wakeAccess y.now c))
  else (true, y.onChip (last 0))

/-- The end of a management wake (20 R529). -/
def endWake (now : Nat) (c : Chip) : Chip :=
  if c.mgt.wakeAt.isSome then { c with mgt := { c.mgt with wakeAt := none, awake := some now } } else c

/-- An access under R530: after a NACK the controller tries once more, no sooner than 5 ms later, when the wake has ended. -/
def addressTwice (y : Sys) : Sys :=
  let r := addressChip y
  if r.1 then r.2 else (addressChip (r.2.onChip (endWake y.now))).2

/-- A register read through the target; the registers of an unpowered block read what AON holds (20 R525, R529). -/
def targetRead (o : Nat) (y : Sys) : Word × Sys := (readReg y.chip o, y.onChip (readEffect o))

end Sys2Proof.Machine
end

