-- ==== Sys2Proof/Machine/TrayPower.lean ====
section
/-! DEFINITION. Tray power: the input states, the battery, the cartridge power controllers' sequences, presence, and the
controls and indicators of the downstream ports (17; 02 sections 5 and 7). -/

namespace Sys2Proof.Machine

/-! VRET of the chip (17 R451, R459, R462). -/

/-- The retention bus is up: fed by the converter in NORMAL, or by a BBU that can carry it. -/
def Tray.vrbUp (t : Tray) : Bool :=
  t.input == .normal || t.bbu == .carrying || t.bbu == .charging || t.bbu == .ready

/-- A chip without VAUX and VRET: everything at its AON reset value, in RETENTION-ONLY until its rails come (17 R467, Table
17-9). -/
def unpowered (c : Chip) : Chip := (aonReset c).onPwr fun p => { p with retention := true, on := 3 }

/-- The fall of VRET: memory is lost, and RET_LOST set; a chip in RETENTION-ONLY also loses AON (16 R424, 17 Table 17-9). -/
def loseVret (y : Sys) : Sys :=
  let y := loseRet y
  if y.chip.pwr.retention then y.onChip unpowered else y

/-- The retention bus falls in this step, at a present cartridge of the chip. -/
def vretFalls (a b : Sys) : Bool := a.tray.vrbUp && !b.tray.vrbUp && b.tray.bays[b.chip.fab.slot].present

/-- A meaning of the tray that may take VRET from the chip. -/
def onSupply (f : Sys → Sys) (s : State) : Result :=
  onMemSys (fun m y =>
    let z := settleTray (f y)
    if vretFalls y z then ([], settleTray (loseVret z)) else (m, z)) s

/-! The battery (17 section 5). -/

/-- A BBU state change is logged (17 R466). -/
def setBbu (st : BbuState) (now : Nat) (t : Tray) : Tray :=
  if t.bbu == st then t
  else Tray.logPower (if st == .depleted then 0x15 else 0x16) now { t with bbu := st }

/-- Tray source 44 is asserted in FAULT and while END_OF_LIFE is set (17 R460, Table 17-7). -/
def settleBbu (now : Nat) (t : Tray) : Tray :=
  if t.bbu == .fault || t.bbuEol then t.assert 44 .bbu now else t.lower 44 now

/-- A full charge is measured: usable energy below 20 Wh sets END_OF_LIFE (17 R460). -/
def fullCharge (usable : Nat) (now : Nat) (t : Tray) : Tray :=
  settleBbu now (setBbu .ready now { t with bbuEnergy := usable, bbuEol := t.bbuEol || usable < 20000 })

/-- BBU_INSERT: with its identity record; CHARGING, or READY at 95% or more (17 Table 17-7, R460, R469; 20 R536). -/
def execBbuInsert (usableMwh chargePct : Nat) (s : State) : Result :=
  onTray (fun now t =>
    if t.bbu != .absent then t
    else
      let t := { t with bbuEnergy := usableMwh, bbuEol := false, bbuEeprom := fittedRecord 24 now }
      if 95 ≤ chargePct then fullCharge usableMwh now t else settleBbu now (setBbu .charging now t)) s

/-- BBU_CHARGED (17 R460, R461). -/
def execBbuCharged (usableMwh : Nat) (s : State) : Result :=
  onTray (fun now t => if t.bbu == .charging then fullCharge usableMwh now t else t) s

/-- The BBU feeds the bus: CARRYING, or found at power-up in a tray whose converter does not run (17 Tables 17-2 and 17-7;
log entry 48). -/
def Tray.bbuFeeds (t : Tray) : Bool :=
  t.bbu == .carrying || (t.input != .normal && (t.bbu == .charging || t.bbu == .ready))

/-- BBU_DEPLETED: the BBU that feeds the bus disconnects at 10.8 V (17 R459, R462). -/
def execBbuDepleted (s : State) : Result :=
  onSupply (fun y => y.onTray fun t =>
    if t.bbuFeeds then setBbu .depleted y.now { t with bbuEnergy := 0 } else t) s

/-- BBU_FAULT: disconnected, with tray source 44 (17 Table 17-7). -/
def execBbuFault (s : State) : Result :=
  onSupply (fun y => y.onTray fun t =>
    if t.bbu == .absent then t else settleBbu y.now (setBbu .fault y.now t)) s

/-- BBU_REMOVE: the flag and the fault go with it, and source 44 meets its owner reset (17 R460 to R462, 15 Table 15-6). -/
def execBbuRemove (s : State) : Result :=
  onSupply (fun y => y.onTray fun t =>
    if t.bbu == .absent then t
    else
      let t := setBbu .absent y.now { t with bbuEnergy := 0, bbuEol := false, bbuEeprom := [] }
      (settleBbu y.now t).ownerReset .bbu) s

/-! The input (17 sections 1 and 6). -/

/-- INPUT_WARNING: tray source 45 while below 42.0 V (17 Table 17-1). -/
def execInputWarning (s : State) : Result := onTray (fun now t => t.assert 45 .board now) s

/-- INPUT_WARNING_END (17 R447). -/
def execInputWarningEnd (s : State) : Result := onTray (fun now t => t.lower 45 now) s

/-- A position of a motion between its start and its target, picked by a free value. -/
def alongMotion (v : Nat) (x : Axis) : Nat :=
  let lo := min x.pos x.target
  let hi := max x.pos x.target
  lo + v % (hi - lo + 1)

/-- Where a motion is when its drive loses power: between its start and its target, a free value (log entry 18). -/
def midPosition (k : Nat) (x : Axis) : Nat := alongMotion (Config.freeNat k) x

/-- Every moving axis halts at once in STOPPED with its REMAIN; a follower stays engaged (19 R519). -/
def haltAxis (k : Nat) (x : Axis) : Axis :=
  if !x.inMotion then x
  else
    let p := midPosition k x
    if x.st == .following then { x with pos := p }
    else { x with st := .stopped, pos := p, remain := (x.target : Int) - p, due := none, boot := false, full := false,
                  next := none }

def haltAxes (y : Sys) : Sys :=
  (List.finRange 20).foldl (fun y n =>
    let f := y.fresh
    f.2.onTray (Tray.onAxis n (haltAxis f.1))) y

/-- Modules without power, in low-power mode when they have it again (20 R542). -/
def darkModules (f : CageId → Bool) (t : Tray) : Tray :=
  { t with cages := Vector.ofFn fun c => if f c then { t.cages[c] with lowPower := true } else t.cages[c] }

/-- A commit (17 R448, R463; 19 R519). The TMC card and the cages are unpowered on battery (17 Table 17-6). -/
def commitTray (y : Sys) : Sys :=
  let y := y.onTray fun t =>
    let t := Tray.logPower 0x10 y.now { t with input := .battery, inputAt := y.now, dwellDone := false }
    let t := if t.bbu == .charging || t.bbu == .ready then setBbu .carrying y.now t else t
    let t := darkModules (fun _ => true) t
    if t.card.running then resetCard y.now t else t
  haltAxes y

/-- COMMIT: taken only from NORMAL, whatever the cause (17 R448). -/
def execCommit (_cause : CommitCause) (s : State) : Result :=
  onSupply (fun y => if y.tray.input == .normal then commitTray y else y) s

/-- DWELL_END: 250 ms since the commit (17 R464). -/
def execDwellEnd (s : State) : Result :=
  onTrayAt (fun t => whenSome (t.input == .battery && !t.dwellDone) (t.inputAt + Config.ms 250))
    (fun now t => Tray.logPower 0x11 now { t with dwellDone := true }) s

/-- QUALIFICATION_START: in BATTERY after the dwell, the input is in the band (17 Table 17-2). -/
def execQualificationStart (s : State) : Result :=
  onTray (fun now t =>
    if t.input == .battery && t.dwellDone then Tray.logPower 0x12 now { t with input := .qualifying, inputAt := now }
    else t) s

/-- QUALIFICATION_RESTART: the input left the band; no new commit and no new dwell (17 Table 17-2). -/
def execQualificationRestart (s : State) : Result :=
  onTray (fun now t =>
    if t.input == .qualifying then Tray.logPower 0x13 now { t with input := .battery, inputAt := now } else t) s

/-- The CAC's drives are powered again: what a leak or a removal left due starts first, then full cooling (19 R519). -/
def drivesReturn (now : Nat) (t : Tray) : Tray :=
  let t := { t with axes := t.axes.map fun x => match x.next with
    | some target => startMove target true now x
    | none => x }
  if t.full then (List.finRange 20).foldl (fun u n => startFullAxis t now n u) t else t

/-- INPUT_QUALIFIED: 500 ms in the band; the converter runs, a BBU that has carried charges, a depleted one too, NORMAL (17
R464, Table 17-7; log entry 48). -/
def execInputQualified (s : State) : Result :=
  onTrayAt (fun t => whenSome (t.input == .unqualified || t.input == .qualifying) (t.inputAt + Config.ms 500))
    (fun now t =>
      let t := Tray.logPower 0x14 now { t with input := .normal, inputAt := now }
      let t := if t.bbu == .carrying || t.bbu == .depleted then setBbu .charging now t else t
      drivesReturn now t) s

/-! Rails (17 sections 3 and 4). -/

def RailState.turnedOn : RailState → Bool
  | .up => true
  | .good => true
  | _ => false

/-- The last rail of the power-up order, which is the first of the power-down order, for which a property holds. -/
def lastRail (f : RailState → Bool) (c : Cpc) : Option (Fin 5) := (List.finRange 5).reverse.find? fun k => f c.rails[k]

def firstRail (f : RailState → Bool) (c : Cpc) : Option (Fin 5) := (List.finRange 5).find? fun k => f c.rails[k]

def setRail (k : Fin 5) (r : RailState) (c : Cpc) : Cpc := { c with rails := c.rails.set k r }

/-- Limit for a rail to be in regulation in ms (17 Table 17-4). -/
def riseLimit (k : Fin 5) : Nat := if k.val == 4 then 5 else if k.val == 3 then 3 else 2

/-- Passive limit for a rail to be off in ms (17 Table 17-5). -/
def fallLimit (k : Fin 5) : Nat := if 3 ≤ k.val then 10 else 5

/-- The state when no rail is left to turn off. -/
def restState (c : Cpc) : CpcState :=
  if c.railsOff then .off else if c.rails.toList.any (fun r => r == .stuck) then .stuck else c.st

/-- Turn off the next rail of Table 17-5, or end the sequence (17 R454). -/
def turnOffNext (now : Nat) (c : Cpc) : Cpc :=
  match lastRail RailState.turnedOn c with
  | some k => { setRail k .falling c with stepAt := now }
  | none => { c with st := restState c, stepAt := now }

/-- Every remaining rail off at once, with active discharge (17 R455, R458). -/
def allOffAtOnce (now : Nat) (c : Cpc) : Cpc :=
  { c with st := .falling, stepAt := now, park := none, faultDown := false,
           rails := c.rails.map fun r => if r == .off || r == .stuck then r else .discharging }

/-- The latest record of CPC_FAULT (17 Table 17-11). -/
def recordCause (cause rail : Nat) (c : Cpc) : Cpc :=
  { c with cause := BitVec.ofNat 4 cause, rail := BitVec.ofNat 3 rail, valid := true }

/-- A sequence fault: recorded and counted, SEQ_FAULT_N low, whose falling edge raises tray source 16 + s (17 R456). -/
def seqFault (n : SlotId) (cause : Nat) (rail : Fin 5) (t : Tray) : Tray :=
  let was := t.bays[n].cpc.seqFault
  let t := t.onCpc n fun (c : Cpc) => { recordCause cause rail.val c with seqFault := true, seqCount := satInc c.seqCount }
  if was then t else t.raise (16 + n.val) (.slot n)

/-- POWER_UP_START: PWR_EN high for 10 ms, every rail off, VALVE_CLOSED low (17 R452); P48 is 40 V or more, as the command
says. -/
def execPowerUpStart (n : SlotId) (s : State) : Result :=
  onTrayAt (fun t =>
      let c := t.bays[n].cpc
      whenSome (t.bays[n].present && c.pwrEn && c.st == .off && c.railsOff && !t.valveClosed n) (c.pwrEnAt + Config.ms 10))
    (fun now t =>
      t.onCpc n fun (c : Cpc) => { setRail 0 .up c with st := .rising, stepAt := now, faultDown := false }) s

/-- The dwell of a rail has ended: it is in regulation, and the next rail is turned on; after VCORE, PWR_GOOD rises, which
counts as a reset of the slot's sources (17 R452, Table 17-4; 15 Table 15-6). -/
def railDwell (n : SlotId) (k : Fin 5) (now : Nat) (t : Tray) : Tray :=
  let t := t.onCpc n (setRail k .good)
  match finOf 5 (k.val + 1) with
  | some j => t.onCpc n fun c => { setRail j .up c with stepAt := now }
  | none => (t.onCpc n fun (c : Cpc) => { c with st := .on, stepAt := now }).ownerReset (.slot n)

/-- The rail that a power-up without a fault has turned on last and that is not yet good. -/
def risingRail (t : Tray) (n : SlotId) : Option (Fin 5) :=
  let c := t.bays[n].cpc
  if c.st == .rising && !c.faultDown then lastRail (fun r => r == .up) c else none

/-- That rail's limit, in ms after it was turned on. -/
def risingDue (n : SlotId) (limit : Fin 5 → Nat) (t : Tray) : Option Nat :=
  (risingRail t n).map fun k => t.bays[n].cpc.stepAt + Config.ms (limit k)

/-- RAIL_DWELL_END: no earlier than the 1 ms dwell after the rail was turned on. -/
def execRailDwellEnd (n : SlotId) (s : State) : Result :=
  onTrayAt (risingDue n fun _ => 1)
    (fun now t => match risingRail t n with
      | some k => railDwell n k now t
      | none => t) s

/-- RISE_TIMEOUT: a sequence fault, cause 1 (17 R453). -/
def execRiseTimeout (n : SlotId) (s : State) : Result :=
  onTrayAt (risingDue n riseLimit)
    (fun _ t => match risingRail t n with
      | some k => (seqFault n 1 k t).onCpc n fun c => { c with faultDown := true }
      | none => t) s

/-- POWER_DOWN_START: PWR_EN is low or a sequence fault has occurred; the CPC raises PARK (17 R454). -/
def execPowerDownStart (n : SlotId) (s : State) : Result :=
  onTray (fun now t =>
    t.onCpc n fun c =>
      if (c.st == .rising || c.st == .on) && (!c.pwrEn || c.faultDown) then
        { c with st := .falling, park := some now, parkAck := false, faultDown := false, stepAt := now }
      else c) s

/-- The PARK of a CPC is answered, and the first rail is turned off (17 R454). -/
def parkAnswered (now : Nat) (c : Cpc) : Cpc :=
  match c.park with
  | some _ => turnOffNext now { c with park := none, parkAck := true }
  | none => if c.st == .falling then { c with parkAck := true } else c

/-- The chip's compute rails go: it stops its clocks, closes its arrays and moves AON to its keep-alive part (16 R421). A chip
whose VRET is gone keeps nothing (17 Table 17-9). -/
def retainChip (y : Sys) : Sys :=
  let y := y.onChip (enterRetention y.now)
  if y.tray.input == .battery && !y.tray.vrbUp then y.onChip unpowered else y

/-- PARK, which the SK2 acknowledges (16 R421). -/
def execPark (s : State) : Result :=
  onBoard (fun y => let y := retainChip y; y.onTray (Tray.onCpc y.chip.fab.slot (parkAnswered y.now))) s

/-- PARK_TIMEOUT: no acknowledgement within 50 µs; cause 8, which is no sequence fault (17 R454). -/
def execParkTimeout (n : SlotId) (s : State) : Result :=
  onTrayAt (fun t => t.bays[n].cpc.park.map fun p => p + Config.us 50)
    (fun now t => t.onCpc n fun c => turnOffNext now (recordCause 8 0 { c with park := none })) s

/-- A rail that is being turned off reads off, and the next is turned off; then the sequence has ended, or a stuck rail
reads off at last (17 R454, R455). -/
def railOff (now : Nat) (c : Cpc) : Cpc :=
  match lastRail (fun r => r == .falling || r == .discharging) c with
  | some k =>
    let c := setRail k .off c
    match lastRail (fun r => r == .falling || r == .discharging) c with
    | some _ => c
    | none => turnOffNext now c
  | none => match lastRail (fun r => r == .stuck) c with
    | some k => let c := setRail k .off c; { c with st := restState c }
    | none => c

/-- A chip whose VAUX has gone without a PARK is in RETENTION-ONLY as well (16 R421, Table 16-2). -/
def loseVaux (n : SlotId) (x y : Sys) : Sys :=
  if n == y.chip.fab.slot && x.tray.bays[n].cpc.rails[0] != .off && y.tray.bays[n].cpc.rails[0] == .off then
    retainChip y
  else y

/-- RAIL_OFF. The acknowledgement of a cartridge other than the chip's is taken as given by then (log entry 19). -/
def execRailOff (n : SlotId) (s : State) : Result :=
  onBoard (fun y => loseVaux n y (y.onTray fun t => t.onCpc n fun c =>
    if c.st != .falling && c.st != .stuck then c
    else if c.park.isNone then railOff y.now c
    else if n == y.chip.fab.slot then c
    else railOff y.now (parkAnswered y.now c))) s

/-- When a rail being turned off has had its time. -/
def railDue (n : SlotId) (r : RailState) (limit : Fin 5 → Nat) (t : Tray) : Option Nat :=
  let c := t.bays[n].cpc
  (lastRail (fun x => x == r) c).map fun k => c.stepAt + Config.ms (limit k)

/-- DISCHARGE_TIMEOUT: not off within the passive limit: active discharge, cause 3 (17 R455). -/
def execDischargeTimeout (n : SlotId) (s : State) : Result :=
  onTrayAt (railDue n .falling fallLimit)
    (fun now t => match lastRail (fun r => r == .falling) t.bays[n].cpc with
      | some k => (seqFault n 3 k t).onCpc n fun c => { setRail k .discharging c with stepAt := now }
      | none => t) s

/-- STUCK: not off within 5 ms of active discharge: cause 4, and the remaining rails are turned off in order (17 R455). -/
def execStuck (n : SlotId) (s : State) : Result :=
  onTrayAt (railDue n .discharging fun _ => 5)
    (fun now t => match lastRail (fun r => r == .discharging) t.bays[n].cpc with
      | some k => (seqFault n 4 k t).onCpc n fun c => turnOffNext now { setRail k .stuck c with st := .stuck }
      | none => t) s

/-- A rail falls out of regulation (17 R453, R455, Table 17-11): cause 5 while ON; while RISING the spec names no cause, a
free choice of 1 and 5 (log entry 18); in a power-down before its step, cause 2 and every rail off at once. -/
def railLost (n : SlotId) (k : Fin 5) (free now : Nat) (t : Tray) : Tray :=
  let c := t.bays[n].cpc
  if !c.rails[k].turnedOn then t
  else match c.st with
    | .on => (seqFault n 5 k t).onCpc n fun c => { setRail k .up c with faultDown := true }
    | .rising =>
      (seqFault n (if Config.freeBool free then 1 else 5) k t).onCpc n fun c => { setRail k .up c with faultDown := true }
    | .falling => (seqFault n 2 k t).onCpc n (allOffAtOnce now)
    | .stuck => (seqFault n 2 k t).onCpc n fun c => { allOffAtOnce now c with st := .stuck }
    | .off => t

def execRailLost (n : SlotId) (k : CpcRail) (s : State) : Result :=
  onBoard (fun y => let f := y.fresh; f.2.onTray (railLost n k f.1 y.now)) s

/-- Some rail is on. -/
def Cpc.anyOn (c : Cpc) : Bool := c.rails.toList.any fun r => r == .up || r == .good || r == .falling

/-- INPUT_LOSS: PARK, every rail off at once, cause 6 (17 R458). -/
def execInputLoss (n : SlotId) (s : State) : Result :=
  onTray (fun now t => t.onCpc n fun c =>
    if c.anyOn then
      { allOffAtOnce now (recordCause 6 0 c) with inputCount := satInc c.inputCount, parkAck := false }
    else c) s

/-- VALVE_CLOSED_RISE: the same, cause 7 (17 R458). -/
def execValveClosedRise (n : SlotId) (s : State) : Result :=
  onTray (fun now t => t.onCpc n fun c =>
    if c.anyOn && t.valveClosed n then { allOffAtOnce now (recordCause 7 0 c) with parkAck := false } else c) s

/-- CPC_FAULT.VALID cleared: the record goes and SEQ_FAULT_N is released (17 R456, Table 17-11). -/
def clearCpcFault (c : Cpc) : Cpc := { c with cause := 0, rail := 0, valid := false, seqFault := false }

/-- CPC_FAULT_CLEAR. -/
def execCpcFaultClear (n : SlotId) (s : State) : Result := onTray (fun _ t => t.onCpc n clearCpcFault) s

/-! Presence (02 R49 to R51, 17 R467, R468). -/

/-- The cages of a slot lose their power (02 R45, R65). -/
def darkCages (n : SlotId) (t : Tray) : Tray := darkModules (fun c => c.val / 4 == n.val) t

/-- CARTRIDGE_INSERT: presence at level 3, with the cartridge's identity record; the CPC starts from reset, with a lamp test of
1 s; during full cooling the valve opens at once (17 R467, 19 When events coincide, 02 Reset and start-up state, 20 R536). -/
def execCartridgeInsert (n : SlotId) (s : State) : Result :=
  onTray (fun now t =>
    if t.bays[n].present then t
    else
      let t := t.onBay n fun b => { b with present := true, cpc := Cpc.reset, buffer := false, eeprom := fittedRecord n.val now,
                                           lampUntil := now + Config.sec 1 }
      if t.full && t.drivesPowered && !t.bays[n].leak then t.onAxis (slotAxis n) (sendAxis axisOpen now) else t) s

/-- A hardware action closes a valve whatever its state (19 R504, R517); without drive power it is due at the return of the
input (19 R519). -/
def closeValve (powered : Bool) (now : Nat) (x : Axis) : Axis :=
  if !powered then { x with next := some 0, closePending := false, remain := 0 }
  else
    let x := if x.st == .failed then { x with st := .idle } else x
    if x.st == .homing then { x with closePending := false, next := none }
    else { sendAxis 0 now x with remain := 0 }

/-- Presence is lost: PWR_EN drops, every rail goes off at once, the valve closes, the bus segment is gone, and the slot's
sources meet their owner reset (17 R458, R468; 15 Table 15-6; 19 R504; 20 R523). -/
def removeCartridge (n : SlotId) (now : Nat) (t : Tray) : Tray :=
  let t := (t.onBay n fun b => { b with present := false, cpc := Cpc.reset, buffer := false, eeprom := [] }).ownerReset (.slot n)
  darkCages n (t.onAxis (slotAxis n) (closeValve t.drivesPowered now))

/-- CARTRIDGE_REMOVE: with the chip's own cartridge the chip loses all it holds, and its SRAM (13 R372, 17 Table 17-9). -/
def execCartridgeRemove (n : SlotId) (s : State) : Result :=
  onMemSys (fun m y =>
    if !y.tray.bays[n].present then (m, y)
    else
      let z := settleTray (y.onTray (removeCartridge n y.now))
      if n == z.chip.fab.slot then ([], settleTray ((loseRet z).onChip unpowered)) else (m, z)) s

/-! Downstream ports (02 section 7, 18 R472, R480, R481). -/

/-- POWER_CONTROLLER_CONTROL: a change of the field sets the host rank; an order that loses is logged OVERRIDDEN. -/
def execPowerControllerControl (n : SlotId) (v : OnOff) (s : State) : Result :=
  onTray (fun now t =>
    let o : Order := match v with
      | .on => .on
      | .off => .off
    let mask : BitVec 16 := BitVec.ofNat 16 (2 ^ n.val)
    applyOrder .host mask o 2 (if overridden t .host mask o then 1 else 0) (0, 0) now t) s

/-- POWER_INDICATOR_CONTROL (02 R55). -/
def execPowerIndicatorControl (n : SlotId) (v : Indicator) (s : State) : Result :=
  onTray (fun _ t => t.onBay n fun b => { b with powerInd := v }) s

/-- ATTENTION_INDICATOR_CONTROL (02 R55). -/
def execAttentionIndicatorControl (n : SlotId) (v : Indicator) (s : State) : Result :=
  onTray (fun _ t => t.onBay n fun b => { b with attnInd := v }) s

/-- ATTENTION_BUTTON_PRESSED: a press of 20 ms or longer is recorded and latched; no power action (02 R57). -/
def execAttentionButtonPressed (n : SlotId) (ms : Nat) (s : State) : Result :=
  onTray (fun _ t =>
    if 20 ≤ ms && t.bays[n].present then t.onBay n fun b => { b with button := true, buttonTmc := true } else t) s

end Sys2Proof.Machine
end

