-- ==== Sys2Proof/Machine/Cooling.lean ====
section
/-! DEFINITION. Cooling actuation: axis commands and events, cam tables, drives, the TMC request for full cooling, leaks, and
the TMC's valve policy (19; 21 R547). -/

namespace Sys2Proof.Machine

/-! Axis commands (19 sections 2 to 6). RESULT: 0 OK, 1 BUSY_TARGET, 2 BUSY_CAM, 3 NOT_PRESENT, 4 NOT_HOMED, 5 RANGE,
6 FULL_COOLING, 7 LEAK, 8 NOTHING, 9 HOME_FAIL. -/

def axisSlot (n : AxisId) : Option SlotId := finOf 16 n.val

/-- RAILS_OFF of the axis's slot reads low (19 R505). -/
def Tray.railsUp (t : Tray) (n : AxisId) : Bool :=
  match axisSlot n with
  | some s => !t.bays[s].cpc.railsOff
  | none => false

/-- The axis's slot or pump module is absent (19 R504, R506). -/
def Tray.axisAbsent (t : Tray) (n : AxisId) : Bool :=
  match axisSlot n with
  | some s => !t.bays[s].present
  | none => if n.val == 16 then !t.drives[(6 : DriveId)].present else if n.val == 17 then !t.drives[(7 : DriveId)].present else false

def Tray.axisLeak (t : Tray) (n : AxisId) : Bool :=
  match axisSlot n with
  | some s => t.bays[s].leak
  | none => false

/-- What refuses every command: a leak latch (LEAK), and, but for HOME, FAILED, whose RESULT the spec does not name: a free
value other than 0 (19 R496, R518; log entry 18). -/
def refuseAll (t : Tray) (n : AxisId) (free : Nat) : Option Nat :=
  if t.axisLeak n then some 7
  else if t.axes[n].st == .failed then some (1 + Config.freeNat free % 9)
  else none

def Tray.answer (n : AxisId) (r : Nat) (t : Tray) : Tray := t.onAxis n fun (x : Axis) => { x with result := BitVec.ofNat 4 r }

/-- The floor of R505 on a target: the target, and whether it was raised. -/
def floorOf (t : Tray) (n : AxisId) (target : Nat) : Nat × Bool :=
  if t.railsUp n && target < t.axes[n].min then (t.axes[n].min, true) else (target, false)

/-- Why a MOVE is refused, the first that applies (log entry 36). -/
def moveRefusal (t : Tray) (n : AxisId) : Option Nat :=
  let x := t.axes[n]
  if t.axisAbsent n && (n.val < 16 || 0 < x.target) then some 3
  else if t.full then some 6
  else if !x.homed then some 4
  else if x.st == .following then some 2
  else if x.inMotion then some 1
  else if axisOpen < x.target then some 5
  else if !t.drivesPowered then some 8
  else none

/-- MOVE to CA_AXn_TARGET (19 R498, R505). -/
def moveAxis (n : AxisId) (free now : Nat) (t : Tray) : Tray :=
  match refuseAll t n free with
  | some r => t.answer n r
  | none => match moveRefusal t n with
    | some r => t.answer n r
    | none =>
      let want := t.axes[n].target
      let f := floorOf t n want
      t.onAxis n fun x =>
        startMove f.1 false now { x with result := 0, floor := f.2, closePending := f.2 && want == 0 }

/-- A meaning that may draw one free value for the tray. -/
def onTrayFree (f : Nat → Nat → Tray → Tray) (s : State) : Result :=
  onBoard (fun y => let k := y.fresh; k.2.onTray (f k.1 y.now)) s

def execMove (n : AxisId) (s : State) : Result := onTrayFree (moveAxis n) s

/-- STOP (19 R502, R510). -/
def stopAxis (n : AxisId) (free : Nat) (t : Tray) : Tray :=
  match refuseAll t n free with
  | some r => t.answer n r
  | none =>
    let x := t.axes[n]
    if t.full then t.answer n 6
    else match x.st with
      | .moving => t.onAxis n fun (x : Axis) => { x with st := .stopping, due := none, result := 0 }
      | .stopping => t.answer n 0
      | .following => t.answer n 2
      | .idle => t.answer n 8
      | .stopped => t.answer n 8
      | .homing => t.answer n 8
      | .failed => t.answer n 8

def execAxisStop (n : AxisId) (s : State) : Result := onTrayFree (fun k _ => stopAxis n k) s

/-- RESUME: the stored target is the position plus REMAIN (19 R503, R504 to R506). -/
def resumeAxis (n : AxisId) (free now : Nat) (t : Tray) : Tray :=
  let x := t.axes[n]
  let goal := ((x.pos : Int) + x.remain).toNat
  match refuseAll t n free with
  | some r => t.answer n r
  | none =>
    if t.axisAbsent n && (n.val < 16 || 0 < goal) then t.answer n 3
    else if t.full then t.answer n 6
    else if !x.homed then t.answer n 4
    else if x.st == .following then t.answer n 2
    else if x.st == .stopped && t.drivesPowered then
      let f := floorOf t n goal
      t.onAxis n fun x => startMove f.1 false now { x with result := 0, floor := f.2 }
    else t.answer n 8

def execResume (n : AxisId) (s : State) : Result := onTrayFree (resumeAxis n) s

/-- The axis is at 0 with its closed switch made, homed. -/
def homedAt (x : Axis) : Axis :=
  { x with st := .idle, pos := 0, target := 0, remain := 0, homed := true, closedSw := true, openSw := false, due := none,
           overrun := false, full := false, release := false }

/-- HOME: at once where the closed switch is made; otherwise toward closed. A cartridge valve is not moved below its floor,
so with rails up it does not start (19 R496, R505, R516). -/
def homeAxis (n : AxisId) (t : Tray) : Tray :=
  let x := t.axes[n]
  if t.axisLeak n then t.answer n 7
  else if t.full && x.st != .failed then t.answer n 6
  else if x.closedSw then t.onAxis n fun (x : Axis) => { homedAt x with result := 0 }
  else if t.railsUp n || !t.drivesPowered then t.answer n 8
  else t.onAxis n fun (x : Axis) =>
    { x with st := .homing, result := 0, remain := 0, due := none, full := false, overrun := false, next := none,
             closePending := false, release := false, openSw := false }

def execHome (n : AxisId) (s : State) : Result := onTray (fun _ t => homeAxis n t) s

/-- The output of a cam table at a master value (19 R509). -/
def camOutput (pts : Vector (BitVec 14) 65) (m : Nat) : Nat :=
  let p := fun (i : Nat) => ((pts[i]?).map fun (b : BitVec 14) => (b.toNat : Int)).getD 0
  let i := m / 1024
  (p i + Int.tdiv ((p (i + 1) - p i) * ((m % 1024 : Nat) : Int)) 1024).toNat

/-- The master of a table (19 R508). -/
def camMaster (t : Tray) (c : Cam) : Nat :=
  if c.master then
    let d := t.drives[(6 : DriveId)]
    if d.maxRpm.toNat == 0 then 65535 else min 65535 (d.rpm.toNat * 65535 / d.maxRpm.toNat)
  else t.resolvedDemand.flow.toNat

/-- A follower takes the table's output as its target, clamped under R505 and R506. One that is under way goes on from where it
is, a free value (log entry 43). -/
def followTo (t : Tray) (n : AxisId) (out now : Nat) (x : Axis) : Axis :=
  let f := floorOf t n out
  let goal := if t.axisAbsent n && 0 < f.1 then x.pos else f.1
  let pos := if x.inMotion && goal != x.target then alongMotion (Config.followPos now n.val) x else x.pos
  { x with pos := pos, target := goal, floor := f.2, closedSw := x.closedSw && goal == 0, openSw := x.openSw && goal == axisOpen }

/-- ENGAGE (19 R510). -/
def engageAxis (n : AxisId) (free : Nat) (t : Tray) : Tray :=
  match refuseAll t n free with
  | some r => t.answer n r
  | none =>
    let x := t.axes[n]
    if t.axisAbsent n then t.answer n 3
    else if t.full then t.answer n 6
    else if !x.homed then t.answer n 4
    else if x.st == .following then t.answer n 2
    else if x.inMotion then t.answer n 1
    else t.onAxis n fun (x : Axis) =>
      { x with st := .following, target := x.pos, remain := 0, result := 0, closePending := false }

def execEngage (n : AxisId) (s : State) : Result := onTrayFree (fun k _ => engageAxis n k) s

/-- DISENGAGE (19 R510). -/
def disengageAxis (n : AxisId) (free : Nat) (t : Tray) : Tray :=
  match refuseAll t n free with
  | some r => t.answer n r
  | none =>
    if t.axes[n].st == .following then t.onAxis n fun (x : Axis) => { release x with result := 0 } else t.answer n 8

def execDisengage (n : AxisId) (s : State) : Result := onTrayFree (fun k _ => disengageAxis n k) s

/-- Stored limits (19 R501). -/
def clampTo (lo hi v : Nat) : Nat := max lo (min hi v)

/-- A write of a limit. During a move it acts at the next profile update, after which the time of Table 19-2 no longer
holds; whether a lower DECEL had to be raised depends on the speed at that instant, a free value (19 R499, R501; log entry
18). -/
def limitWrite (reg : LimitReg) (v : Nat) (free : Nat) (x : Axis) : Axis :=
  let x := if x.inMotion then { x with due := none } else x
  match reg with
  | .speed => { x with speed := clampTo 100 50000 (v % 2 ^ 16) }
  | .accel => { x with accel := clampTo 100 1000000 (v % 2 ^ 20) }
  | .decel =>
    let d := clampTo 100 1000000 (v % 2 ^ 20)
    { x with decel := d, decelRaised := x.decelRaised || (x.inMotion && d < x.decel && Config.freeBool free) }
  | .jerk => { x with jerk := max 1 (v % 2 ^ 16) }
  | .profile => { x with sCurve := v % 2 == 1 }

def execProfileLimitWrite (n : AxisId) (reg : LimitReg) (value : Word) (s : State) : Result :=
  onTrayFree (fun k _ t => t.onAxis n (limitWrite reg value.toNat k)) s

/-! Axis events. -/

/-- An axis that has come to rest goes on where something is due: the target of a hardware action, or a pending close once
RAILS_OFF is high (19 R505, R515). -/
def goOn (railsUp : Bool) (now : Nat) (x : Axis) : Axis :=
  match x.next with
  | some target => startMove target true now x
  | none =>
    if x.closePending && !railsUp && (x.st == .idle || x.st == .stopped) then
      startMove 0 false now { x with closePending := false, floor := false }
    else x

/-- An axis at its target (19 R498, R502). -/
def arrive (x : Axis) : Axis :=
  { x with st := .idle, pos := x.target, remain := 0, due := none, full := false,
           openSw := x.target == axisOpen, closedSw := x.closedSw && x.target == 0 }

/-- MOVE_END: at the target; a move to 0 whose closed switch has not made runs on toward closed (19 R497, R498). -/
def moveEnd (railsUp : Bool) (now : Nat) (x : Axis) : Axis :=
  match x.st with
  | .moving =>
    if x.target == 0 && !x.closedSw then { x with overrun := true }
    else goOn railsUp now (arrive x)
  | .stopping => if x.release || x.next.isSome then x else goOn railsUp now (arrive x)
  | .following => { x with pos := x.target, openSw := x.target == axisOpen }
  | _ => x

def execMoveEnd (n : AxisId) (s : State) : Result :=
  onTrayAt (fun t => some (t.axes[n].due.getD 0)) (fun now t => t.onAxis n (moveEnd (t.railsUp n) now)) s

/-- Where a stop halts: one that would pass the target halts at the target (19 R502). -/
def haltPosition (x : Axis) (pos : Nat) : Nat :=
  if x.release then min pos axisOpen
  else if x.pos ≤ x.target then min pos (min x.target axisOpen)
  else min (max pos x.target) axisOpen

/-- AXIS_HALT: STOPPED with REMAIN, or IDLE where the halt keeps none (19 R502, R510). -/
def axisHalt (railsUp : Bool) (pos now : Nat) (x : Axis) : Axis :=
  if x.st != .stopping then x
  else
    let p := haltPosition x pos
    let rest := (x.target : Int) - p
    if x.release || rest == 0 then
      goOn railsUp now { x with st := .idle, pos := p, remain := 0, release := false, full := false }
    else goOn railsUp now { x with st := .stopped, pos := p, remain := rest, full := false }

def execAxisHalt (n : AxisId) (pos : Nat) (s : State) : Result :=
  onTray (fun now t => t.onAxis n (axisHalt (t.railsUp n) pos now)) s

/-- HOME_FAIL: FAILED, with its bit in CA_FAULT (19 R496). -/
def execHomeFail (n : AxisId) (s : State) : Result :=
  onTray (fun _ t => t.onAxis n fun (x : Axis) =>
    if x.st == .homing then { x with st := .failed, result := 9, boot := false, next := none } else x) s

/-- Where R520 sends an axis that it has homed: loop valves open where their pump is present, bypass valves to CA_BY_FULL. -/
def bootTarget (t : Tray) (n : AxisId) : Nat :=
  if n.val < 16 then 0
  else if n.val < 18 then (if t.axisAbsent n then 0 else axisOpen)
  else t.byFull.toNat

/-- The closed switch makes at a position (19 R496, R497): a homing ends; above 64, or past 0, the position is set and SLIP
flagged. -/
def closedSwitch (boot : Nat) (railsUp : Bool) (pos : Int) (now : Nat) (x : Axis) : Axis :=
  let slipped := 64 < pos || x.overrun || pos < 0
  match x.st with
  | .homing =>
    let y := { homedAt x with boot := false }
    if x.boot && x.next.isNone then startMove boot false now y else goOn railsUp now y
  | .moving =>
    if slipped then goOn railsUp now { homedAt x with homed := x.homed, target := 0, slip := true }
    else if x.target == 0 then goOn railsUp now { homedAt x with homed := x.homed } else { x with closedSw := true }
  | .stopping =>
    if slipped then goOn railsUp now { homedAt x with homed := x.homed, target := 0, slip := true }
    else { x with closedSw := true }
  | .following =>
    if slipped then { x with pos := 0, closedSw := true, slip := true } else { x with pos := 0, closedSw := true }
  | _ => x

def execClosedSwitch (n : AxisId) (pos : Int) (s : State) : Result :=
  onTray (fun now t => t.onAxis n (closedSwitch (bootTarget t n) (t.railsUp n) pos now)) s

/-- The open switch makes (19 R497). -/
def openSwitch (railsUp : Bool) (pos now : Nat) (x : Axis) : Axis :=
  if !x.inMotion then x
  else
    let y := { x with pos := axisOpen, openSw := true, closedSw := false, slip := x.slip || decide (pos < axisOpen) }
    if x.st == .following then y
    else if pos < axisOpen || x.target == axisOpen then
      goOn railsUp now { y with st := .idle, remain := 0, due := none, full := false, overrun := false, release := false }
    else y

def execOpenSwitch (n : AxisId) (pos : Nat) (s : State) : Result :=
  onTray (fun now t => t.onAxis n (openSwitch (t.railsUp n) pos now)) s

/-- CLOSE_OVERRUN: 256 microsteps past 0 without the switch: FAILED (19 R497). -/
def execCloseOverrun (n : AxisId) (s : State) : Result :=
  onTray (fun _ t => t.onAxis n fun (x : Axis) =>
    if x.st == .moving && x.overrun then { x with st := .failed, overrun := false, due := none, full := false } else x) s

/-- RAILS_OFF_RISE: a pending close of an axis at rest starts; one in motion follows at its end (19 R505). -/
def execRailsOffRise (n : SlotId) (s : State) : Result :=
  onTray (fun now t =>
    if t.bays[n].cpc.railsOff && t.drivesPowered then t.onAxis (slotAxis n) (goOn false now) else t) s

/-! Cam tables (19 section 6). -/

/-- Some axis follows the table. -/
def Tray.followed (t : Tray) (k : CamId) : Bool := t.axes.toList.any fun x => x.st == .following && x.cam == k

/-- A sample: a pending buffer becomes active at the table-safe point (19 R508, R511). -/
def sampleCam (t : Tray) (k : CamId) (c : Cam) : Cam :=
  let seg : Fin 64 := Fin.ofNat 64 (camMaster t c / 1024)
  let safe := !t.followed k || (match c.seg with
    | some s => s != seg
    | none => false)
  if c.swap && safe then { c with active := c.shadow, shadow := c.active, swap := false, buf := !c.buf, seg := some seg }
  else { c with seg := some seg }

/-- CAM_SAMPLE: every table is sampled, and every follower takes its output (19 R508 to R511). -/
def camSample (now : Nat) (t : Tray) : Tray :=
  let u := { t with cams := Vector.ofFn fun k => sampleCam t k t.cams[k] }
  { u with axes := Vector.ofFn fun n =>
      let x := u.axes[n]
      if x.st == .following then followTo u n (camOutput u.cams[x.cam].active (camMaster u u.cams[x.cam])) now x else x }

def execCamSample (s : State) : Result := onTray camSample s

/-- CAM_SWAP: the shadow buffer becomes pending (19 R511). -/
def execCamSwap (k : CamId) (s : State) : Result :=
  onTray (fun _ t => { t with cams := t.cams.set k { t.cams[k] with swap := true } }) s

/-! Full cooling by request, drives and inputs (19 sections 7 and 8; 15 Table 15-6). -/

/-- TMC_REQ: CA_FULL.TMC_REQ (19 R514 to R516). -/
def execTmcReq (v : Bool) (s : State) : Result := onTray (fun _ t => { t with tmcReq := v }) s

/-- DRIVE_OUT_OF_RANGE: a present drive at duty 20 or more (19 R513). -/
def execDriveOutOfRange (k : DriveId) (s : State) : Result :=
  onTray (fun now t =>
    if t.drives[k].present && 20 ≤ t.drives[k].duty then
      (t.onDrive k fun (d : Drive) => { d with rangeFault := true }).assert (32 + k.val) (.module k) now
    else t) s

/-- The drive's level source deasserts. -/
def driveInRange (k : DriveId) (now : Nat) (t : Tray) : Tray :=
  (t.onDrive k fun (d : Drive) => { d with rangeFault := false }).lower (32 + k.val) now

/-- DRIVE_BACK_IN_RANGE (19 R513). -/
def execDriveBackInRange (k : DriveId) (s : State) : Result := onTray (driveInRange k) s

/-- MODULE_INSERT: the drive is powered at its duty; a module brings its identity record (19 R512, 20 R536). -/
def execModuleInsert (m : ModuleId) (s : State) : Result :=
  onTray (fun now t => t.onDrive m fun (d : Drive) => { d with present := true, eeprom := fittedRecord (16 + m.val) now }) s

/-- MODULE_REMOVE: the drive is off, and its tray source meets its owner reset; a loop valve does not move (19 R506, R512; 15
Table 15-6). -/
def execModuleRemove (m : ModuleId) (s : State) : Result :=
  onTray (fun now t =>
    (driveInRange m now (t.onDrive m fun (d : Drive) => { d with present := false, rpm := 0, eeprom := [] })).ownerReset (.module m)) s

/-- INLET_OVER_TEMPERATURE: tray source 46 (15 Table 15-6). -/
def execInletOverTemperature (high : Bool) (s : State) : Result :=
  onTray (fun now t => if high then t.assert 46 .board now else t.lower 46 now) s

/-- FLOW_LOW: tray source 47 (15 Table 15-6). -/
def execFlowLow (low : Bool) (s : State) : Result :=
  onTray (fun now t => if low then t.assert 47 .board now else t.lower 47 now) s

/-! Leaks (19 section 9). -/

/-- Tray source 40 + z is asserted while a bay of zone z has its bit set (19 R517). -/
def settleLeak (now : Nat) (t : Tray) : Tray :=
  (List.range 4).foldl (fun u z =>
    if allSlots.any (fun n => n.val / 4 == z && t.bays[n].leak) then u.assert (40 + z) .board now else u.lower (40 + z) now) t

/-- LEAK: latched, PWR_EN low, the valve closes over everything, tray source 40 + (n div 4) (19 R517). -/
def leakIn (n : SlotId) (now : Nat) (t : Tray) : Tray :=
  let t := t.onBay n fun b => { b with wet := true, leak := true }
  settleLeak now (t.onAxis (slotAxis n) (closeValve t.drivesPowered now))

def execLeak (n : SlotId) (s : State) : Result := onTray (leakIn n) s

/-- LEAK_CLEAR: a bit clears only while its sensor reads dry (19 R518). -/
def clearLeaks (mask : BitVec 16) (now : Nat) (t : Tray) : Tray :=
  let bays := Vector.ofFn fun n =>
    let b := t.bays[n]
    if mask.toNat.testBit n.val && !b.wet then { b with leak := false } else b
  settleLeak now { t with bays := bays }

def execLeakClear (mask : BitVec 16) (s : State) : Result := onTray (clearLeaks mask) s

/-! The TMC's valve rule (21 R547). -/

/-- TARGET is written unless a move is in progress (19 R500). -/
def writeTarget (v : Nat) (x : Axis) : Axis := if x.inMotion || x.st == .following then x else { x with target := v }

/-- VALVE_POLICY_MOVE: an ON slot below MIN is opened to the policy's position, and never to less than MIN; a slot with OFF
or no order and RAILS_OFF high is closed. -/
def valvePolicy (n : SlotId) (policy : Nat) (free now : Nat) (t : Tray) : Tray :=
  let a := slotAxis n
  let x := t.axes[a]
  if !t.card.running || !t.bays[n].present then t
  else if t.resolved n == .on then
    if x.pos < x.min then moveAxis a free now (t.onAxis a (writeTarget (min axisOpen (max policy x.min)))) else t
  else if t.bays[n].cpc.railsOff then moveAxis a free now (t.onAxis a (writeTarget 0))
  else t

def execValvePolicyMove (n : SlotId) (policy : BitVec 14) (s : State) : Result :=
  onTrayFree (valvePolicy n policy.toNat) s

end Sys2Proof.Machine
end

