-- ==== Sys2Proof/Machine/TwoWire.lean ====
section
/-! DEFINITION. The two-wire buses: the SK2 and CPC targets, sleep and wake, the base-board controllers, stuck buses and
recovery, and the cable modules (20). -/

namespace Sys2Proof.Machine

/-! Targets (20 sections 1 to 3). -/

/-- CRC-8, polynomial 0x07, initial value 0 (20 R526). -/
def crc8Bit (x : Nat) : Nat := (if x.testBit 7 then (2 * x) ^^^ 0x07 else 2 * x) % 256

def crc8Byte (x : Nat) (b : Byte) : Nat :=
  crc8Bit (crc8Bit (crc8Bit (crc8Bit (crc8Bit (crc8Bit (crc8Bit (crc8Bit (x ^^^ b.toNat))))))))

def crc8 (bs : List Byte) : Nat := bs.foldl crc8Byte 0

/-- The address byte of the SK2 target of a slot, with the direction (20 Table 20-2). -/
def sk2Addr (n : SlotId) (read : Bool) : Byte := BitVec.ofNat 8 (sk2Address n * 2 + if read then 1 else 0)

/-- A device of the slot is on its bus: presence, the buffer has joined, and no line is held low (20 R523). -/
def onBus (t : Tray) (n : SlotId) : Bool :=
  t.bays[n].present && t.bays[n].buffer && !t.twi[busOf n].sclLow && !t.twi[busOf n].sdaLow

def cpcStateCode : CpcState → Nat
  | .off => 0
  | .rising => 1
  | .on => 2
  | .falling => 3
  | .stuck => 4

def railBits (f : RailState → Bool) (c : Cpc) : Nat :=
  (List.finRange 5).foldl (fun a k => a + bit (f c.rails[k]) k.val) 0

/-- A CPC register; a reserved offset reads 0 (17 Tables 17-10 and 17-11). -/
def readCpc (t : Tray) (n : SlotId) (o : Nat) : Word :=
  let c := t.bays[n].cpc
  if 0x08 ≤ o && o < 0x20 then word (((c.mv[(o - 0x08) / 4]?).map fun (v : BitVec 16) => v.toNat).getD 0)
  else match o with
    | 0x00 =>
      pack [(cpcStateCode c.st, 0), (railBits (fun r => r == .good) c + bit t.vrbUp 5, 4),
        (railBits (fun r => r == .off) c + bit (!t.vrbUp) 5, 10), (bit c.parkAck 0, 16), (bit c.pwrEn 0, 17),
        (bit (t.valveClosed n) 0, 18)]
    | 0x04 => pack [(c.cause.toNat, 0), (c.rail.toNat, 4), (bit c.valid 0, 31)]
    | 0x20 => word c.p48.toNat
    | 0x24 => pack [(c.seqCount.toNat, 0), (c.inputCount.toNat, 16)]
    | _ => 0

def writeCpc (o : Nat) (v : Word) (c : Cpc) : Cpc :=
  match o with
  | 0x04 => if v.toNat.testBit 31 then clearCpcFault c else c
  | 0x24 => { c with seqCount := bv 16 v 0, inputCount := bv 16 v 16 }
  | _ => c

/-- The word of four data bytes. -/
def wordOf (bs : List Byte) : Word := word (leNat (bs.take 4))

/-- A write that has reached its STOP at the SK2 target: four data bytes, and the PEC byte while PEC_EN is 1 (20 R525,
R526). -/
def sk2Write (n : SlotId) (off : Nat) (head data : List Byte) (y : Sys) : Sys :=
  if off % 4 != 0 then y
  else if !y.chip.mgt.pecEn then (if data.length == 4 then writeReg off (wordOf data) y else y)
  else
    let body := [sk2Addr n false] ++ head ++ data.take 4
    if data.length == 5 && (data.getD 4 0).toNat == crc8 body then writeReg off (wordOf data) y
    else if 4 ≤ data.length then
      y.onChip fun c => { c with mgt := { c.mgt with pecErrors := satInc c.mgt.pecErrors } }
    else y

/-- TWO_WIRE_REGISTER_WRITE: the bytes after the address, up to the STOP (20 R524 to R529). Another slot's SK2 is outside the
block (log entry 1). -/
def execTwoWireRegisterWrite (n : SlotId) (dev : TwoWireDev) (bytes : List Byte) (s : State) : Result :=
  onBoard (fun y =>
    let off := leNat (bytes.take 2)
    let data := bytes.drop 2
    if !onBus y.tray n || bytes.length < 2 then y
    else match dev with
      | .cpc =>
        if off % 4 == 0 && off < 256 && data.length == 4 then y.onTray (Tray.onCpc n (writeCpc off (wordOf data))) else y
      | .sk2 =>
        if n != y.chip.fab.slot then y
        else
          let r := addressChip y
          if r.1 then sk2Write n off (bytes.take 2) data r.2 else r.2) s

/-- The bytes a read delivers: four of data, and the PEC byte when a fifth is clocked (20 R526). -/
def readBytes (n : SlotId) (o0 o1 : Byte) (clocked : Nat) (v : Word) : List Byte :=
  let data := leBytes 4 v.toNat
  (data ++ [BitVec.ofNat 8 (crc8 ([sk2Addr n false, o0, o1, sk2Addr n true] ++ data))]).take clocked

/-- TWO_WIRE_REGISTER_READ: sampled at the acknowledge of the address with read. What another slot's SK2 returns is a free
value (log entry 1). -/
def execTwoWireRegisterRead (n : SlotId) (dev : TwoWireDev) (o0 o1 : Byte) (clocked : Nat) (s : State) : Result :=
  onBoard (fun y =>
    let off := leNat [o0, o1]
    if !onBus y.tray n then y
    else match dev with
      | .cpc =>
        if off % 4 == 0 && off < 256 then y.emit (.readData ((leBytes 4 (readCpc y.tray n off).toNat).take clocked)) else y
      | .sk2 =>
        if n != y.chip.fab.slot then
          let f := y.fresh
          f.2.emit (.readData (readBytes n o0 o1 clocked (Config.freeWord f.1)))
        else
          let r := addressChip y
          if !r.1 || off % 4 != 0 then r.2
          else
            let x := targetRead off r.2
            x.2.emit (.readData (readBytes n o0 o1 clocked x.1))) s

/-- MANAGEMENT_WAKE_END (20 R529). -/
def execManagementWakeEnd (s : State) : Result := onBoard (fun y => y.onChip (endWake y.now)) s

/-- KEEP_ALIVE_RETURN: 100 ms after the last transaction (20 R529). -/
def execKeepAliveReturn (s : State) : Result :=
  onBoard (fun y =>
    match y.chip.mgt.awake with
    | some t => (y.await (t + Config.ms 100)).onChip fun c => { c with mgt := { c.mgt with awake := none } }
    | none => y) s

/-- TWO_WIRE_TIMEOUT: with TIMEOUT_EN the target abandons the transaction, counted (20 R533). -/
def execTwoWireTimeout (s : State) : Result :=
  onBoard (fun y => y.onChip fun c =>
    if c.mgt.twiTimeoutEn then { c with mgt := { c.mgt with twiTimeouts := satInc c.mgt.twiTimeouts } } else c) s

/-! Identity EEPROMs (20 R522, R536, R537). -/

def fitted (present : Bool) (r : List Byte) : Option (List Byte) := if present then some r else none

/-- The identity EEPROM that answers an address of a bus (20 Table 20-2). -/
def eepromAt (t : Tray) (b : BusId) (a : Nat) : Option (List Byte) :=
  if b.val < 2 then
    (allSlots.find? fun n => busOf n == b && eepromAddress n == a).bind fun n => fitted (onBus t n) t.bays[n].eeprom
  else if b.val == 4 then
    if a == 0x58 then fitted (t.bbu != .absent) t.bbuEeprom
    else if 0x50 ≤ a then (finOf 8 (a - 0x50)).bind fun k => fitted t.drives[k].present t.drives[k].eeprom
    else none
  else if b.val == 5 then
    if a == 0x50 then some t.boardEeprom else if a == 0x52 then fitted t.card.present t.card.eeprom else none
  else none

/-- The fuses of the chip: ID block offsets 0xE000 to 0xE01C in order (20 Table 20-7). -/
def idBlock (c : Chip) : List Byte := (List.range 8).flatMap fun k => leBytes 4 (readReg c (0xE000 + 4 * k)).toNat

/-- What a loader checks before it accepts the chip of a cartridge (20 R538, 21 R551). -/
def fusesMatch (c : Chip) (r : List Byte) : Bool := decide (recordFuses r = idBlock c)

/-! Base-board controllers (20 R545). -/

def len32 (n : BitVec 6) : Nat := min 32 n.toNat

/-- The bytes that a transaction puts on the bus up to its read phase. -/
def twiBytes (x : Twi) : List Byte :=
  let a := x.addr.toNat * 2
  (if len32 x.wlen == 0 && len32 x.rlen != 0 then [BitVec.ofNat 8 (a + 1)]
    else [BitVec.ofNat 8 a] ++ x.data.toList.take (len32 x.wlen)
      ++ (if len32 x.rlen == 0 then [] else [BitVec.ofNat 8 (a + 1)]))

/-- START_TRANSACTION: discarded while BUSY is 1. -/
def startTwi (b : BusId) (y : Sys) : Sys :=
  let x := y.tray.twi[b]
  if x.busy then y
  else (y.onTray (Tray.onTwi b fun x => { x with busy := true, done := false })).emit (.twi b (twiBytes x))

def execStartTransaction (b : BusId) (s : State) : Result := onBoard (startTwi b) s

/-- The source of a stuck bus (20 Table 20-1). -/
def stuckSource (b : BusId) : Nat := 49 + b.val

/-- A bus found stuck: the transaction ends STUCK and the source is raised; which line is low is free (20 R534; log entry
18). -/
def busStuck (b : BusId) (y : Sys) : Sys :=
  let f := y.fresh
  let g := f.2.fresh
  let scl := Config.freeBool f.1
  g.2.onTray fun t =>
    (t.onTwi b fun x => { x with sclLow := scl, sdaLow := !scl || Config.freeBool g.1, done := x.done || x.busy,
                                 busy := false, result := 5 }).raise (stuckSource b) (.bus b)

def execBusStuck (b : BusId) (s : State) : Result := onBoard (busStuck b) s

def twiResultCode : TwiResult → BitVec 3
  | .ok => 0
  | .addrNack => 1
  | .dataNack => 2
  | .pecErr => 3
  | .timeout => 4
  | .stuck => 5

/-- A control byte written to a bus switch enables its channels (20 R522). -/
def setChannels (b : BusId) (x : Twi) : Twi :=
  if (b.val == 2 || b.val == 3) && 0x70 ≤ x.addr.toNat && 1 ≤ len32 x.wlen then
    match finOf 4 (x.addr.toNat - 0x70) with
    | some m => { x with channels := x.channels.set m x.data[0] }
    | none => x
  else x

/-- The end of a transaction; BYTES of one that did not complete is a free value (20 Table 20-8; log entry 18). -/
def endTwi (b : BusId) (result : TwiResult) (bytes : List Byte) (free : Nat) (x : Twi) : Twi :=
  if !x.busy then x
  else
    let total := len32 x.wlen + len32 x.rlen
    let x := { x with busy := false, done := true, result := twiResultCode result }
    if result == .ok then
      let y := setChannels b x
      let data := Vector.ofFn fun i => if i.val < len32 y.rlen then bytes.getD i.val 0 else y.data[i]
      { y with bytes := BitVec.ofNat 6 total, data := data }
    else { x with bytes := BitVec.ofNat 6 (Config.freeNat free % (total + 1)) }

/-- What a completed transaction reads: of an identity EEPROM, its bytes from the address byte written first, which a write
protected against changes nothing (20 R537); of any other device what the command brings. -/
def twiData (t : Tray) (b : BusId) (bytes : List Byte) : List Byte :=
  let x := t.twi[b]
  match eepromAt t b x.addr.toNat with
  | some r => if len32 x.wlen == 0 then bytes else eepromRead r x.data[0].toNat (len32 x.rlen)
  | none => bytes

/-- TWO_WIRE_TRANSACTION_DONE. -/
def execTwoWireTransactionDone (b : BusId) (result : TwiResult) (bytes : List Byte) (s : State) : Result :=
  onBoard (fun y =>
    if !y.tray.twi[b].busy then y
    else if result == .stuck then busStuck b y
    else let f := y.fresh; f.2.onTray fun t => t.onTwi b (endTwi b result (twiData t b bytes) f.1)) s

/-- A recovery: SCL pulses and a STOP, and on BUS2 and BUS3 the reset of every switch; whether a low line is released is
free (20 R535; log entry 18). -/
def recoverBus (b : BusId) (y : Sys) : Sys :=
  let f := y.fresh
  let g := f.2.fresh
  g.2.onTray (Tray.onTwi b fun x =>
    let scl := x.sclLow && Config.freeBool f.1
    let sda := x.sdaLow && Config.freeBool g.1
    let x := { x with sclLow := scl, sdaLow := sda,
                      channels := if b.val == 2 || b.val == 3 then Vector.replicate 4 0 else x.channels }
    if scl || sda then { x with result := 5, retryAt := some y.now } else { x with retryAt := none })

/-- RECOVER: TM_BB_TWIb_CMD.RECOVER. -/
def execRecover (b : BusId) (s : State) : Result := onBoard (recoverBus b) s

/-- RECOVERY_RETRY: each second while a line stays low, the source is raised and the recovery repeated (20 R535). -/
def retryBus (b : BusId) (y : Sys) : Sys :=
  match y.tray.twi[b].retryAt with
  | some t => recoverBus b ((y.await (t + Config.sec 1)).onTray fun t => t.raise (stuckSource b) (.bus b))
  | none => y

def execRecoveryRetry (b : BusId) (s : State) : Result := onBoard (retryBus b) s

/-- BUFFER_CONNECT: a present cartridge's segment joins its idle bus (20 R523). -/
def execBufferConnect (n : SlotId) (s : State) : Result :=
  onTray (fun _ t =>
    if t.bays[n].present && !t.twi[busOf n].busy then t.onBay n fun b => { b with buffer := true } else t) s

/-! Cable modules (20 section 8). -/

/-- The power from which a CMIS power class is reckoned, in mW: a class above 4.5 W starts at 4.5 W or more (09 R248; the classes are
PRESUMED from CMIS, log entry 115). -/
def classFloor (k : Nat) : Nat := [0, 0, 1500, 3500, 7000, 8000, 10000, 12000].getD k 14000

/-- The module may leave low-power mode (20 R542, 09 R248). -/
def cableAllowed (m : Cmis) : Bool :=
  m.osfp && m.maxPowerMw ≤ 4500 && classFloor m.powerClass < 4500 &&
    match m.media with
    | .passiveCopper => m.lengthCm ≤ 300
    | .activeCable => m.lengthCm ≤ 3000
    | .other => false

/-- CMIS_READ: of a module in a powered cage; one that may not be released, or whose read fails, is kept in low-power mode
and raises cage fault, source 55 (20 R541, R542, When events coincide; 02 R59, R65). -/
def execCmisRead (c : CageId) (id : Option Cmis) (s : State) : Result :=
  onTray (fun _ t =>
    let powered := t.drivesPowered && (match finOf 16 (c.val / 4) with
      | some n => t.bays[n].present
      | none => false)
    if !powered then t
    else match id with
      | none => { t with cages := t.cages.set c { t.cages[c] with lowPower := true } }.raise 55 .board
      | some m =>
        let t := { t with cages := t.cages.set c ⟨some m, !cableAllowed m⟩ }
        if cableAllowed m then t else t.raise 55 .board) s

end Sys2Proof.Machine
end

