-- ==== Sys2Proof/Machine/Tmc.lean ====
section
/-! DEFINITION. The commands of the Tray Management Controller: TMP requests, notices, sensors, the log, the watchdog and the
card (18). A TMP command arrives here with its frame already checked under 18 R473 and R474 (log entry 40). -/

namespace Sys2Proof.Machine

/-- BAD_FIELD: nothing changes (18 R477a). -/
def badField (y : Sys) : Sys × Nat × List Byte := (y, 6, [])

/-! Power orders (18 section 6). -/

/-- Slots of a mask that a notice holds, and the longest time left of those notices, in ms (18 R483). -/
def heldSlots (t : Tray) (mask : BitVec 16) : BitVec 16 :=
  BitVec.ofNat 16 ((slotsOf mask).foldl (fun a n => if t.underNotice n then a + 2 ^ n.val else a) 0)

def longestLeft (now : Nat) (t : Tray) (mask : BitVec 16) : Nat :=
  ((t.card.notices.filter fun x => x.mask &&& mask != 0).map fun x => noticeLeft now x).foldl max 0

/-- The payload of DEFERRED: the time remaining in ms (18 R483; the form is a DESIGN CHOICE, log entry 41). -/
def deferredReply (ms : Nat) : Nat × List Byte := (2, leBytes 4 ms)

/-- An order that takes effect at once (18 R481). -/
def orderNow (h : TmpHdr) (mask : BitVec 16) (o : Order) : TmpWork := fun y =>
  let r := rankOf h.inlet
  let status := if overridden y.tray r mask o then 1 else 0
  (y.onTray (applyOrder r mask o (originOf h.inlet) status (h.src, h.seq) y.now), status, [])

/-- A rack OFF: slots under notice stay so; the other slots open a notice where one of them would be turned off, the host
listens, and the event ring has room; else the order is applied to them at once (18 R479, R482, R483). -/
def rackOff (h : TmpHdr) (mask : BitVec 16) (noNotice : Bool) : TmpWork := fun y =>
  let t := y.tray
  let held := heldSlots t mask
  let rest := mask &&& ~~~held
  let opens := !noNotice && t.card.mailbox.noticeEn && !t.card.mailbox.full
    && (slotsOf rest).any fun n => t.resolved n == .on
  if opens then (openNotice h rest y, deferredReply (max 100 (longestLeft y.now t held)))
  else if held == 0 then orderNow h mask .off y
  else if rest == 0 then
    (y.onTray fun t => t.logLater 0x03 1 2 mask.toNat (orderCode .off) 0 (h.src, h.seq) .none y.now,
      deferredReply (longestLeft y.now t held))
  else ((orderNow h rest .off y).1, deferredReply (longestLeft y.now t held))

/-- SLOT_POWER: NO_NOTICE is a flag of the rack inlet only (18 Table 18-3). -/
def slotPower (h : TmpHdr) (mask : BitVec 16) (o : Order) (noNotice : Bool) : TmpWork := fun y =>
  match h.inlet with
  | .host => if noNotice then badField y else orderNow h mask o y
  | .rack =>
    if o == .off then rackOff h mask noNotice y
    else orderNow h mask o (y.onTray (withdraw mask y.now))

def execSlotPower (h : TmpHdr) (mask : BitVec 16) (o : Order) (noNotice : Bool) (s : State) : Result :=
  onBoard (tmpCommand h 0x0010 (slotPower h mask o noNotice)) s

def noticeNumbered (b : Byte) (t : Tray) : Option Notice := t.card.notices.find? fun x => x.number == b

/-- DEFER: once, within 100 ms, by the host (18 R482, R483). -/
def deferNotice (h : TmpHdr) (b : Byte) : TmpWork := fun y =>
  match h.inlet, noticeNumbered b y.tray with
  | .rack, _ => (y, 7, [])
  | .host, none => (y, 12, [])
  | .host, some x =>
    if x.deferred || elapsed y x.openedAt (Config.ms 100) then (y, 12, [])
    else
      (y.onTray fun t => logCommand h 0 x.mask.toNat 0 y.now (t.onCard fun c =>
        { c with notices := c.notices.map fun z => if z.number == b then { z with deferred := true } else z }), 0, [])

def execDefer (h : TmpHdr) (notice : Byte) (s : State) : Result := onBoard (tmpCommand h 0x0013 (deferNotice h notice)) s

/-- DEFER_DONE: the order of an open notice is applied (18 R482). -/
def deferDone (h : TmpHdr) (b : Byte) : TmpWork := fun y =>
  match h.inlet, noticeNumbered b y.tray with
  | .rack, _ => (y, 7, [])
  | .host, none => (y, 12, [])
  | .host, some x => ((closeNotice x y).onTray (logCommand h 0 x.mask.toNat 0 y.now), 0, [])

def execDeferDone (h : TmpHdr) (notice : Byte) (s : State) : Result := onBoard (tmpCommand h 0x0014 (deferDone h notice)) s

/-- The oldest notice, deferred or not, has been open for `ms` and is closed. -/
def expireNotice (deferred : Bool) (ms : Nat) (y : Sys) : Sys :=
  match y.tray.card.notices.find? fun x => x.deferred == deferred with
  | some x => closeNotice x (y.await (x.openedAt + Config.ms ms))
  | none => y

/-- NOTICE_EXPIRY: 100 ms without a DEFER (18 R482). -/
def execNoticeExpiry (s : State) : Result := onBoard (expireNotice false 100) s

/-- DEFER_TIMEOUT: 30 s after the notice opened (18 R482). -/
def execDeferTimeout (s : State) : Result := onBoard (expireNotice true 30000) s

/-! Cooling demands (18 R484). -/

def Tray.setDemand (r : Rank) (d : Demand) (t : Tray) : Tray :=
  match r with
  | .rack => { t with demands := { t.demands with rack := d } }
  | .host => { t with demands := { t.demands with host := d } }
  | .auto => { t with demands := { t.demands with auto := d } }

/-- A demand as four bytes (18 Table 18-2). -/
def Demand.bytes (d : Demand) : List Byte := leBytes 2 d.flow.toNat ++ leBytes 1 d.fan ++ leBytes 1 d.pump

/-- COOL_DEMAND: always OK but for a percentage above 100 (18 R477a, R484). -/
def coolDemand (h : TmpHdr) (flow : BitVec 16) (fan pump : Byte) : TmpWork := fun y =>
  if 100 < fan.toNat || 100 < pump.toNat then badField y
  else
    let y := y.onTray fun t =>
      (t.setDemand (rankOf h.inlet) ⟨flow, fan.toNat, pump.toNat⟩).logLater 0x04 (originOf h.inlet) 0 0 0 0 (h.src, h.seq)
        .none y.now
    (y, 0, y.tray.resolvedDemand.bytes)

def execCoolDemand (h : TmpHdr) (flow : BitVec 16) (fan pump : Byte) (s : State) : Result :=
  onBoard (tmpCommand h 0x0020 (coolDemand h flow fan pump)) s

/-! Sensors (18 R485, Table 18-7). -/

/-- The kind of a point. -/
def sensorKind (p : Nat) : Nat :=
  if p < 160 then (if p % 10 == 1 then 1 else if 8 ≤ p % 10 then 2 else 0)
  else if p ≤ 167 then [0, 1, 0, 8, 0, 2, 7, 2].getD (p - 160) 0
  else if p ≤ 175 then [2, 2, 3, 3, 4, 3, 3, 4].getD (p - 168) 0
  else if p ≤ 183 then 5
  else if p ≤ 185 then 1
  else if p ≤ 189 then 6
  else if p == 192 then 9
  else if p ≤ 203 then 2
  else if 207 ≤ p && p ≤ 209 then 1
  else 0

def sensorCritical (p : Nat) : Bool :=
  if p < 160 then 8 ≤ p % 10
  else [160, 162, 168, 169, 172, 182, 183].contains p || (186 ≤ p && p ≤ 189)

def modulePresent (t : Tray) (k : Nat) : Bool := (t.drives[k]?.map fun d => d.present).getD false

/-- The slot or module of a point is fitted. -/
def sensorFitted (t : Tray) (p : Nat) : Bool :=
  if p < 160 then (t.bays[p / 10]?.map fun b => b.present).getD false
  else if 164 ≤ p && p ≤ 166 then t.bbu != .absent
  else if p == 173 || p == 174 then modulePresent t (p - 173 + 6)
  else if 176 ≤ p && p ≤ 183 then modulePresent t (p - 176)
  else if p == 184 || p == 185 then modulePresent t (p - 184 + 6)
  else true

/-- One entry of a SENSOR_READ; value and age of a point that reads VALID 0 are free values. -/
def sensorEntry (t : Tray) (now free : Nat) (p : Nat) : List Byte :=
  let x := (t.sensors[p]?).getD ⟨0, 0, false⟩
  let flags := bit (x.valid && sensorFitted t p) 0 + bit (sensorCritical p) 1
  let data :=
    if x.valid && sensorFitted t p then intBytes x.value ++ leBytes 2 (min 65535 ((now - x.scannedAt) / Config.ms 1))
    else leBytes 4 (Config.freeWord (free + 2 * p)).toNat ++ leBytes 2 (Config.freeNat (free + 2 * p + 1) % 65536)
  data ++ leBytes 1 flags ++ leBytes 1 (sensorKind p)

def sensorRead (first count : Nat) : TmpWork := fun y =>
  if count == 0 || 128 < count || 212 < first + count then badField y
  else
    let entries := (List.range count).flatMap fun i => sensorEntry y.tray y.now y.free (first + i)
    ({ y with free := y.free + 424 }, 0, entries)

def execSensorRead (h : TmpHdr) (first count : Nat) (s : State) : Result :=
  onBoard (tmpRead h 0x0030 (sensorRead first count)) s

/-- A scan reaches a point: every point in a full scan, the critical ones in a fast scan; on battery, without the card, the
base board reads points 160 to 166 only. -/
def scans (t : Tray) (criticalOnly : Bool) (p : Nat) : Bool :=
  sensorFitted t p && (!criticalOnly || sensorCritical p) &&
    (if t.drivesPowered then t.card.running || p < 160 else 160 ≤ p && p ≤ 166)

def putReading (p : Fin 212) (v : Int) (now : Nat) (t : Tray) : Tray :=
  { t with sensors := t.sensors.set p ⟨v, now, true⟩ }

def sat16 (v : Int) : BitVec 16 := BitVec.ofNat 16 (min 65535 v.toNat)

/-- What a reading is the source of elsewhere: the CPC's voltages (17 Table 17-11), a drive's tachometer (19 Table 19-5), the
leak zones' sensors that read dry (19 R517), the BBU's energy (17 R460). -/
def noteReading (p : Nat) (v : Int) (t : Tray) : Tray :=
  if p < 160 then
    match finOf 16 (p / 10) with
    | some n =>
      t.onCpc n fun c =>
        if p % 10 == 0 then { c with p48 := sat16 v }
        else match finOf 6 (p % 10 - 2) with
          | some k => if 2 ≤ p % 10 && p % 10 ≤ 7 then { c with mv := c.mv.set k (sat16 v) } else c
          | none => c
    | none => t
  else if 176 ≤ p && p ≤ 183 then
    match finOf 8 (p - 176) with
    | some k => t.onDrive k fun d => { d with rpm := sat16 v }
    | none => t
  else if 186 ≤ p && p ≤ 189 then
    if v == 0 then
      let bays := Vector.ofFn fun n =>
        if n.val / 4 == p - 186 then { t.bays[n] with wet := false } else t.bays[n]
      { t with bays := bays }
    else t
  else if p == 166 && t.bbu != .absent then { t with bbuEnergy := v.toNat }
  else t

def takeReading (criticalOnly : Bool) (now : Nat) (t : Tray) (r : Fin 212 × Int) : Tray :=
  if scans t criticalOnly r.1.val then noteReading r.1.val r.2 (putReading r.1 r.2 now t) else t

/-- SENSOR_SCAN: the readings come from outside (18 R485). -/
def execSensorScan (criticalOnly : Bool) (readings : List (Fin 212 × Int)) (s : State) : Result :=
  onTray (fun now t => readings.foldl (takeReading criticalOnly now) t) s

/-! The log (18 R486, R487). -/

/-- Record n, if it is held. -/
def Tray.record (t : Tray) (n : Nat) : Option LogRec := t.log.find? fun r => r.number == n

def logRead (number : Word) (count : Nat) : TmpWork := fun y =>
  let wanted := (List.range count).map fun i => y.tray.record ((number.toNat + i) % 2 ^ 32)
  if count == 0 || 16 < count || wanted.any fun r => r.isNone then badField y
  else (y, 0, wanted.flatMap fun r => (r.map LogRec.bytes).getD [])

def execLogRead (h : TmpHdr) (number : Word) (count : Nat) (s : State) : Result :=
  onBoard (tmpRead h 0x0041 (logRead number count)) s

/-- The completed action whose settle time ends first. -/
def nextRecord (t : Tray) : Option (Nat × LogPending) :=
  let due := t.logPending.filterMap fun p => p.doneAt.map fun d => (d + Config.ms p.record.settle, p)
  due.find? fun x => due.all fun z => x.1 ≤ z.1

/-- LOG_RECORD_WRITE: by the running TMC, with the record's points as they read then. -/
def execLogRecordWrite (s : State) : Result :=
  onBoard (fun y =>
    match nextRecord y.tray with
    | some x =>
      if y.tray.card.running then
        (y.await x.1).onTray fun t => Tray.appendRec { x.2.record with after := x.2.record.points.map t.reading }
          { t with logPending := t.logPending.erase x.2 }
      else y
    | none => y) s

/-! FAULT_ACK, the chips and the cages. -/

/-- The lowest source of a mask (TARGET of its record). -/
def lowestSource (mask : Dword) : Nat := ((List.range 64).find? fun i => mask.toNat.testBit i).getD 0

/-- FAULT_ACK: the tray collector's acknowledgement (15 R404, R413). -/
def faultAck (h : TmpHdr) (mask : Dword) : TmpWork := fun y =>
  (y.onTray fun t =>
    logCommand h 0 (lowestSource mask) 0 y.now { t with fc := (t.fc.ack false (lowWord mask)).ack true (highWord mask) }, 0, [])

def execFaultAck (h : TmpHdr) (mask : Dword) (s : State) : Result := onBoard (tmpCommand h 0x0051 (faultAck h mask)) s

/-- Registers read one by one. -/
def targetReads (o : Nat) : Nat → Sys → List Byte × Sys
  | 0, y => ([], y)
  | k + 1, y =>
    let r := targetRead o y
    let z := targetReads (o + 4) k r.2
    (leBytes 4 r.1.toNat ++ z.1, z.2)

/-- What the SK2 of another slot returns: outside the block, free (log entry 1). -/
def foreignWords (count : Nat) (y : Sys) : List Byte × Sys :=
  ((List.range count).flatMap fun i => leBytes 4 (Config.freeWord (y.free + i)).toNat, { y with free := y.free + count })

/-- CHIP_READ (18 Table 18-3, 20 R525, R530). -/
def chipReadWork (slot : SlotId) (offset : BitVec 16) (count : Nat) : TmpWork := fun y =>
  if count == 0 || 16 < count || 65536 < offset.toNat + 4 * count then badField y
  else if !y.tray.bays[slot].present then (y, 9, [])
  else if offset.toNat % 4 != 0 || !onBus y.tray slot then (y, 10, [])
  else if slot != y.chip.fab.slot then let r := foreignWords count y; (r.2, 0, r.1)
  else let r := targetReads offset.toNat count (addressTwice y); (r.2, 0, r.1)

def execChipRead (h : TmpHdr) (slot : SlotId) (offset : BitVec 16) (count : Nat) (s : State) : Result :=
  onBoard (tmpRead h 0x0070 (chipReadWork slot offset count)) s

/-- CHIP_WRITE: a discarded run-locked write still replies OK (18 Table 18-3). -/
def chipWriteWork (h : TmpHdr) (slot : SlotId) (offset : BitVec 16) (value : Word) : TmpWork := fun y =>
  if !y.tray.bays[slot].present then (y, 9, [])
  else if offset.toNat % 4 != 0 || !onBus y.tray slot then (y, 10, [])
  else
    let y := if slot == y.chip.fab.slot then writeReg offset.toNat value (addressTwice y) else y
    (y.onTray (logCommand h 0 (2 ^ slot.val) 0 y.now), 0, [])

def execChipWrite (h : TmpHdr) (slot : SlotId) (offset : BitVec 16) (value : Word) (s : State) : Result :=
  onBoard (tmpCommand h 0x0071 (chipWriteWork h slot offset value)) s

def mediaCode : MediaType → Nat
  | .passiveCopper => 0
  | .activeCable => 1
  | .other => 2

/-- CABLE_INFO: media type, length, power class, low-power state (18 Table 18-3; the form is a DESIGN CHOICE, log entry 41). -/
def cableInfo (cage : Nat) : TmpWork := fun y =>
  match y.tray.cages[cage]? with
  | none => badField y
  | some c => match c.module with
    | none => (y, 9, [])
    | some m => (y, 0, leBytes 1 (mediaCode m.media) ++ leBytes 2 m.lengthCm ++ leBytes 1 m.powerClass
        ++ leBytes 1 (bit c.lowPower 0))

def execCableInfo (h : TmpHdr) (cage : Nat) (s : State) : Result := onBoard (tmpRead h 0x0072 (cableInfo cage)) s

/-! The address (18 R474). -/

/-- DHCP_TIMEOUT: no lease within 10 s: a link-local address, whose low half is free; a lease is still asked for. -/
def execDhcpTimeout (s : State) : Result :=
  onBoard (fun y =>
    let n := y.tray.net
    if y.tray.card.running && n.dhcp && !n.lease && !n.linkLocal then
      let f := (y.await (y.tray.card.bootAt + Config.sec 10)).fresh
      let a : Word := BitVec.ofNat 32 (0xA9FE0000 + (Config.freeWord f.1).toNat % 65536)
      f.2.onTray fun t => { t with net := { t.net with linkLocal := true, address := a } }
    else y) s

/-- DHCP_LEASE: the address comes from DHCP, unless NET_CONFIG has set a static one. -/
def execDhcpLease (address : Word) (s : State) : Result :=
  onTray (fun _ t =>
    if t.card.running && t.net.dhcp then
      { t with net := { t.net with lease := true, linkLocal := false, address := address } }
    else t) s

/-! The watchdog and the card (18 sections 9 and 10). -/

/-- WDT_RESET_N rises 10 ms after an expiry: the card leaves reset, and 60 s are allowed for the first edge (18 R488; 15
Table 15-6). -/
def settleWdt (now : Nat) (t : Tray) : Tray :=
  match t.card.resetLow with
  | some e =>
    if e ≤ now then
      (t.onCard fun c => { c with resetLow := none, allowance := some (e + Config.sec 60) }).ownerReset .tmc
    else t
  | none => t

/-- WDT_RESET_N has risen, if it was low. -/
def awaitReset (y : Sys) : Sys :=
  let y := match y.tray.card.resetLow with
    | some e => y.await e
    | none => y
  y.onTray (settleWdt y.now)

/-- The gap record, TYPE 0x22: TIME is the last service before the gap, ARG the gap in s (18 R491, Table 18-9). -/
def gapRecord (lastEdge now : Nat) (t : Tray) : Tray :=
  let r := newRec t 0x22 5 0 0 (min 65535 ((now - lastEdge) / Config.sec 1)) 0 (0, 0) now
  t.appendRec { r with time := t.micros lastEdge }

/-- The automatic rank from AUTO_POLICY (18 R480, R492). -/
def autoOrders (slots : BitVec 16) : Vector Order 16 :=
  Vector.ofFn fun i => if slots.toNat.testBit i.val then .on else .none

/-- The card's firmware after its first service: the gap record, the automatic orders and demand, and TMC_BACK, whose other
fields the spec does not state (18 R491, R492). -/
def firstService (lastEdge : Nat) (y : Sys) : Sys :=
  let full : Demand := ⟨0xFFFF, 100, 100⟩
  let y := y.onTray fun t =>
    let t := gapRecord lastEdge y.now (t.onCard fun c => { c with running := true, servedAt := some y.now })
    { t with orders := { t.orders with auto := autoOrders t.autoSlots }, demands := { t.demands with auto := full } }
  let a := y.fresh
  let b := a.2.fresh
  let c := b.2.fresh
  postEvent (eventWord 3 (1 + Config.freeNat a.1 % 255) (Config.freeNat b.1) (Config.freeNat c.1)) c.2

/-- A write of 1 to TM_BB_WDT.EXPIRED, accepted once an edge has arrived since the expiry (18 R489). -/
def clearExpired (c : Card) : Card := if c.edgeSince then { c with expired := false } else c

/-- 10 s after its first service the firmware clears EXPIRED and acknowledges tray source 48 (18 R491, step 5). -/
def closeGap (now : Nat) (t : Tray) : Tray :=
  match t.card.servedAt with
  | some e =>
    if e + Config.sec 10 ≤ now then
      { t.onCard (fun c => { clearExpired c with servedAt := none }) with fc := t.fc.ack true (word (2 ^ 16)) }
    else t
  | none => t

/-- WATCHDOG_SERVICE: an edge on WDT_KICK, from a present, powered card out of reset (18 R488). -/
def execWatchdogService (s : State) : Result :=
  onBoard (fun y =>
    let y := awaitReset y
    let c := y.tray.card
    if !c.present || c.resetLow.isSome || !y.tray.drivesPowered then y
    else
      let z := y.onTray (Tray.onCard fun c => { c with edgeAt := y.now, edgeSince := true, allowance := none })
      if c.running then z.onTray (closeGap z.now) else firstService c.edgeAt z) s

/-- An expiry: EXPIRED, tray source 48, and the reset pulse of a present card; the card's firmware stops (18 R488, R490). -/
def expire (pulse : Bool) (now : Nat) (t : Tray) : Tray :=
  let t := (if t.card.running then resetCard now t else t).raise 48 .tmc
  t.onCard fun c => { c with expired := true, edgeSince := false, allowance := none,
                             resetLow := if pulse then some (now + Config.ms 10) else none }

/-- When the watchdog expires: 500 ms ± 1 % after the last edge, or at the end of the allowance (18 R488). -/
def wdtDue (c : Card) : Nat := c.allowance.getD (c.edgeAt + Config.ms 495)

/-- WATCHDOG_EXPIRY. -/
def execWatchdogExpiry (s : State) : Result :=
  onBoard (fun y =>
    let y := awaitReset y
    if y.tray.card.present then
      let y := y.await (wdtDue y.tray.card)
      y.onTray (expire true y.now)
    else y) s

/-- EXPIRED_CLEAR. -/
def execExpiredClear (s : State) : Result := onTray (fun _ t => t.onCard clearExpired) s

/-- The card resets and leaves reset, which is the owner reset of source 48 (15 Table 15-6). -/
def cardReset (now : Nat) (t : Tray) : Tray := (resetCard now t).ownerReset .tmc

/-- CARD_RESET (18 R492). -/
def execCardReset (s : State) : Result := onTray (fun now t => if t.card.present then cardReset now t else t) s

/-- TMC_CARD_INSERT: the 60 s allowance starts. A card taken for present has been pulled before: its watchdog expired then
(18 R488; log entry 42). -/
def insertCard (now : Nat) (t : Tray) : Tray :=
  let t := if t.card.present then expire false now t else t
  let t := cardReset now t
  t.onCard fun c => { c with present := true, allowance := some (now + Config.sec 60), resetLow := none,
                             eeprom := fittedRecord 25 now }

def execTmcCardInsert (s : State) : Result := onTray insertCard s

/-- A request that is executed, not answered from the cache or as STALE (18 R476). -/
def executes (h : TmpHdr) (y : Sys) : Bool :=
  y.tray.card.running && h.reqId != 0 && match y.tray.requester h.reqId with
    | none => true
    | some r => decide (r.high.toNat < h.seq.toNat)

/-- TMC_RESTART: BOOT_MISMATCH unless the count is the card's (18 R477, Table 18-3). -/
def tmcRestart (h : TmpHdr) (count : Word) : TmpWork := fun y =>
  if count == y.tray.card.bootCount then (y.onTray (logCommand h 0 0 0 y.now), 0, []) else (y, 11, [])

/-- The card restarts after the reply, only where the request was executed. -/
def execTmcRestart (h : TmpHdr) (bootCount : Word) (s : State) : Result :=
  onBoard (fun y =>
    let z := tmpCommand h 0x0004 (tmcRestart h bootCount) y
    if executes h y && bootCount == y.tray.card.bootCount then z.onTray (cardReset y.now) else z) s

end Sys2Proof.Machine
end

