-- ==== Sys2Proof/Machine/Board.lean ====
section
/-! DEFINITION. The registers of the base board and of the mailbox (18 Tables 18-11 and 18-12, 19 Tables 19-4 and 19-5, 20
Table 20-8), the base-board reset, the first rise of the input (17 R469), and REGISTER_WRITE over every register space. -/

namespace Sys2Proof.Machine

/-! Reads (R11, R7: reserved space reads 0). -/

def packSlots (f : SlotId → Nat) : Word := pack (allSlots.map fun n => (f n, 2 * n.val))

/-- TM_BB_PWR_STATE: 1 ON, 2 OFF by order, 3 OFF by hardware safety, 0 off with no order. -/
def powerState (t : Tray) (n : SlotId) : Nat :=
  match t.resolved n with
  | .on => if t.safetyHold n then 3 else 1
  | .off => 2
  | .none => 0

/-- TM_BB_PWR_WINNER. -/
def winnerCode (t : Tray) (n : SlotId) : Nat := if t.resolved n == .on && t.safetyHold n then 0 else t.winner n

def inputCode : InputState → Nat
  | .unqualified => 0
  | .normal => 1
  | .battery => 2
  | .qualifying => 3

def bbuCode : BbuState → Nat
  | .absent => 0
  | .charging => 1
  | .ready => 2
  | .carrying => 3
  | .depleted => 4
  | .fault => 5

/-- The hold-up time in s: usable energy in mWh over the retention load, point 163 in mW (17 R460). -/
def holdUp (t : Tray) : Nat :=
  let load := (t.reading 163).toNat
  if load == 0 then 65535 else min 65535 (t.bbuEnergy * 3600 / load)

def demandWord (d : Demand) : Word := pack [(d.flow.toNat, 0), (d.fan, 16), (d.pump, 24)]

/-- TM_BB_LOG_WIN: the selected record; a record that is not held reads 0. -/
def logWindow (t : Tray) (i : Nat) : Word :=
  match t.record t.logSel.toNat with
  | some r => word (leNat ((r.bytes.drop (4 * i)).take 4))
  | none => 0

def readTmc (t : Tray) (o now : Nat) : Word :=
  if 0x80 ≤ o && o < 0xC0 then logWindow t ((o - 0x80) / 4)
  else match o with
    | 0x00 => pack [(t.revision.toNat, 0), (t.busErr.toNat, 16)]
    | 0x04 => pack [(inputCode t.input, 0), (bbuCode t.bbu, 4), (bit t.bbuEol 0, 7), (holdUp t, 16)]
    | 0x08 => pack [(bit t.card.expired 0, 0), (bit t.card.allowance.isSome 0, 1)]
    | 0x0C => word (t.micros now % 2 ^ 32)
    | 0x10 => t.timeHi
    | 0x14 => pack [(t.trayZ.toNat, 0), (t.trayW.toNat, 8), (bit t.trayValid 0, 31)]
    | 0x18 => word t.indicator.toNat
    | 0x20 => packSlots fun n => orderCode t.orders.rack[n]
    | 0x24 => packSlots fun n => orderCode t.orders.host[n]
    | 0x28 => packSlots fun n => orderCode t.orders.auto[n]
    | 0x2C => packSlots (powerState t)
    | 0x30 => packSlots (winnerCode t)
    | 0x40 => demandWord t.demands.rack
    | 0x44 => demandWord t.demands.host
    | 0x48 => demandWord t.demands.auto
    | 0x4C => demandWord t.resolvedDemand
    | 0x50 => word t.logHead
    | 0x54 => t.logSel
    | _ => 0

def axisCode : AxisState → Nat
  | .idle => 0
  | .moving => 1
  | .stopping => 2
  | .stopped => 3
  | .homing => 4
  | .following => 5
  | .failed => 6

/-- Where an axis reads while it moves: between the start and the target of its motion, and anywhere while it homes (log entry
43). -/
def readPosition (x : Axis) (free : Nat) : Nat :=
  if !x.inMotion then x.pos else if x.st == .homing then Config.freeNat free % 16384 else midPosition free x

/-- The velocity of an axis: 0 at rest, else toward its target and at most the greatest SPEED (19 R501; log entry 43). -/
def readVelocity (x : Axis) (free : Nat) : Int :=
  let v : Int := (Config.freeNat free % 50001 : Nat)
  if !x.inMotion then 0 else if x.st != .homing && x.pos ≤ x.target then v else -v

/-- An axis register. -/
def readAxis (n : AxisId) (x : Axis) (o free : Nat) : Word :=
  match o with
  | 0x00 => pack [(bit x.sCurve 0, 4), (x.cam.val, 8), (bit (x.st == .following) 0, 10)]
  | 0x04 => word x.target
  | 0x08 => word x.speed
  | 0x0C => word x.accel
  | 0x10 => word x.decel
  | 0x14 => word x.jerk
  | 0x18 => word (readPosition x free)
  | 0x1C => BitVec.ofInt 32 (readVelocity x free)
  | 0x20 => BitVec.ofInt 32 x.remain
  | 0x24 =>
    pack [(axisCode x.st, 0), (x.result.toNat, 8), (bit x.homed 0, 12), (bit x.slip 0, 13), (bit x.decelRaised 0, 14),
      (bit x.floor 0, 15), (bit x.closePending 0, 16), (bit x.closedSw 0, 17), (bit x.openSw 0, 18)]
  | 0x28 => word (if n.val < 16 then x.min else 0)
  | _ => 0

def readDrive (d : Drive) (o : Nat) : Word :=
  match o with
  | 0x0 => pack [(d.duty, 0), (bit d.present 0, 8), (bit d.rangeFault 0, 9), (d.rpm.toNat, 16)]
  | 0x4 => word d.maxRpm.toNat
  | _ => 0

/-- Points are read from the shadow buffer (19 R507). -/
def readCam (c : Cam) (o : Nat) : Word :=
  let p := fun (i : Nat) => ((c.shadow[i]?).map fun (b : BitVec 14) => b.toNat).getD 0
  if o == 0 then
    pack [(bit c.master 0, 0), (bit c.swap 0, 1), (bit c.buf 0, 2), ((c.seg.map fun s => s.val).getD 0, 8)]
  else if o ≤ 0x84 then pack [(p ((o - 4) / 4 * 2), 0), (p ((o - 4) / 4 * 2 + 1), 16)]
  else 0

def finBits {n : Nat} (f : Fin n → Bool) : Nat := (List.finRange n).foldl (fun a i => a + bit (f i) i.val) 0

/-- The CAC's chip-wide registers. -/
def readCac (t : Tray) (o : Nat) : Word :=
  match o with
  | 0x2900 => pack [(bit t.full 0, 0), (bit t.tmcReq 0, 1), (fullCauseBits t, 2), (bit t.fullEnded 0, 5)]
  | 0x2904 => pack [(finBits fun n : SlotId => t.bays[n].leak, 0), (finBits fun n : SlotId => t.bays[n].wet, 16)]
  | 0x2908 =>
    pack [(finBits fun n : SlotId => t.bays[n].present, 0), (bit t.drives[(6 : DriveId)].present 0, 16),
      (bit t.drives[(7 : DriveId)].present 0, 17), (finBits fun n : Fin 6 => modulePresent t n.val, 18)]
  | 0x290C => word t.byFull.toNat
  | 0x2910 => word (finBits fun n : AxisId => t.axes[n].st == .failed)
  | _ => 0

def readTwi (x : Twi) (o : Nat) : Word :=
  match o with
  | 0x00 => pack [(x.speed.toNat, 0), (bit x.pec 0, 2)]
  | 0x04 => pack [(x.addr.toNat, 0), (x.wlen.toNat, 8), (x.rlen.toNat, 16)]
  | 0x08 =>
    pack [(bit x.busy 0, 0), (bit x.done 0, 1), (x.result.toNat, 2), (x.bytes.toNat, 8), (bit x.sclLow 0, 16),
      (bit x.sdaLow 0, 17)]
  | _ => if 0x0C ≤ o && o < 0x2C then word (leNat ((x.data.toList.drop (o - 0x0C)).take 4)) else 0

/-- A register of the base board. -/
def readBoard (t : Tray) (o now free : Nat) : Word :=
  if o < 0x1000 then readTmc t o now
  else if o < 0x1300 then (if o == 0x1030 then 0 else readCollector t.fc (o - 0x1000))
  else if 0x2000 ≤ o && o < 0x2500 then
    match finOf 20 ((o - 0x2000) / 0x40) with
    | some n => readAxis n { t.axes[n] with floor := t.axes[n].floor && t.railsUp n } (o % 0x40) free
    | none => 0
  else if 0x2800 ≤ o && o < 0x2880 then
    match finOf 8 ((o - 0x2800) / 0x10) with
    | some k => readDrive t.drives[k] (o % 0x10)
    | none => 0
  else if 0x2900 ≤ o && o < 0x2914 then readCac t o
  else if 0x2C00 ≤ o && o < 0x3000 then
    match finOf 4 ((o - 0x2C00) / 0x100) with
    | some k => readCam t.cams[k] (o % 0x100)
    | none => 0
  else if 0x3000 ≤ o && o < 0x3180 then
    match finOf 6 ((o - 0x3000) / 0x40) with
    | some b => readTwi t.twi[b] (o % 0x40)
    | none => 0
  else 0

/-- BB_TIME_READ: TM_BB_TIME_LO latches the high half (18 R486, Table 18-11). -/
def execBbTimeRead (s : State) : Result :=
  onBoard (fun y =>
    let n := y.tray.micros y.now
    (y.onTray fun t => { t with timeHi := word (n / 2 ^ 32) }).emit (.readData (leBytes 4 n))) s

/-! Writes. -/

/-- Two bits a slot; a write of 3 leaves the slot unchanged (18 Table 18-11). -/
def writeOrders (v : Word) (o : Vector Order 16) : Vector Order 16 :=
  Vector.ofFn fun i =>
    match natField v.toNat (2 * i.val) 2 with
    | 0 => .none
    | 1 => .on
    | 2 => .off
    | _ => o[i]

def demandOf (v : Word) : Demand := ⟨bv 16 v 0, min 100 (fld v 16 8), min 100 (fld v 24 8)⟩

def writeTmc (o : Nat) (v : Word) (t : Tray) : Tray :=
  match o with
  | 0x08 => if v.toNat.testBit 0 then t.onCard clearExpired else t
  | 0x14 => { t with trayZ := bv 5 v 0, trayW := bv 4 v 8, trayValid := v.toNat.testBit 31 }
  | 0x18 => { t with indicator := bv 2 v 0 }
  | 0x20 => { t with orders := { t.orders with rack := writeOrders v t.orders.rack } }
  | 0x24 => { t with orders := { t.orders with host := writeOrders v t.orders.host } }
  | 0x28 => { t with orders := { t.orders with auto := writeOrders v t.orders.auto } }
  | 0x40 => t.setDemand .rack (demandOf v)
  | 0x44 => t.setDemand .host (demandOf v)
  | 0x48 => t.setDemand .auto (demandOf v)
  | 0x54 => { t with logSel := v }
  | _ => t

/-- CA_AXn_CTL: profile and cam, then the command. -/
def writeAxisCtl (n : AxisId) (v : Word) (free now : Nat) (t : Tray) : Tray :=
  let t := t.onAxis n fun x => { limitWrite .profile (fld v 4 1) free x with cam := Fin.ofNat 4 (fld v 8 2) }
  match fld v 0 4 with
  | 1 => moveAxis n free now t
  | 2 => stopAxis n free t
  | 3 => resumeAxis n free now t
  | 4 => homeAxis n t
  | 5 => engageAxis n free t
  | 6 => disengageAxis n free t
  | _ => t

def writeAxis (n : AxisId) (o : Nat) (v : Word) (free now : Nat) (t : Tray) : Tray :=
  match o with
  | 0x00 => writeAxisCtl n v free now t
  | 0x04 => t.onAxis n (writeTarget (fld v 0 14))
  | 0x08 => t.onAxis n (limitWrite .speed v.toNat free)
  | 0x0C => t.onAxis n (limitWrite .accel v.toNat free)
  | 0x10 => t.onAxis n (limitWrite .decel v.toNat free)
  | 0x14 => t.onAxis n (limitWrite .jerk v.toNat free)
  | 0x24 =>
    t.onAxis n fun x =>
      { x with slip := x.slip && !v.toNat.testBit 13, decelRaised := x.decelRaised && !v.toNat.testBit 14 }
  | 0x28 => if n.val < 16 then t.onAxis n fun x => { x with min := fld v 0 14 } else t
  | _ => t

/-- A point is stored at most fully open (19 Table 19-5). -/
def camPoint (v : Nat) : BitVec 14 := BitVec.ofNat 14 (min axisOpen v)

/-- A cam register; a point write while SWAP reads 1 is discarded (19 R511). -/
def writeCam (o : Nat) (v : Word) (c : Cam) : Cam :=
  if o == 0 then { c with master := v.toNat.testBit 0, swap := c.swap || v.toNat.testBit 1 }
  else if o ≤ 0x84 && !c.swap then
    let i := (o - 4) / 4 * 2
    let shadow := Vector.ofFn fun k =>
      if k.val == i then camPoint (fld v 0 14) else if k.val == i + 1 then camPoint (fld v 16 14) else c.shadow[k]
    { c with shadow := shadow }
  else c

def writeCac (o : Nat) (v : Word) (now : Nat) (t : Tray) : Tray :=
  match o with
  | 0x2900 => { t with tmcReq := v.toNat.testBit 1, fullEnded := t.fullEnded && !v.toNat.testBit 5 }
  | 0x2904 => clearLeaks (bv 16 v 0) now t
  | 0x290C => { t with byFull := bv 14 v 0 }
  | _ => t

/-- SPEED 2 is stored as 1 on BUS2 and BUS3 (20 Table 20-8). -/
def twiSpeed (b : BusId) (v : BitVec 2) : BitVec 2 := if (b.val == 2 || b.val == 3) && v == 2 then 1 else v

def writeTwi (b : BusId) (o : Nat) (v : Word) (y : Sys) : Sys :=
  match o with
  | 0x00 => y.onTray (Tray.onTwi b fun x => { x with speed := twiSpeed b (bv 2 v 0), pec := v.toNat.testBit 2 })
  | 0x04 =>
    let y := if y.tray.twi[b].busy then y
      else y.onTray (Tray.onTwi b fun x => { x with addr := bv 7 v 0, wlen := bv 6 v 8, rlen := bv 6 v 16 })
    let y := if v.toNat.testBit 24 then startTwi b y else y
    if v.toNat.testBit 25 then recoverBus b y else y
  | 0x08 => if v.toNat.testBit 1 then y.onTray (Tray.onTwi b fun x => { x with done := false }) else y
  | _ =>
    if 0x0C ≤ o && o < 0x2C then
      y.onTray (Tray.onTwi b fun x =>
        let data := Vector.ofFn fun i =>
          if o - 0x0C ≤ i.val && i.val < o - 0x0C + 4 then bv 8 v (8 * (i.val - (o - 0x0C))) else x.data[i]
        { x with data := data })
    else y

/-- A write on the register bus, by the TMC card (18 R471); TF_ACK only while the card runs (15 R413). -/
def writeBoard (o : Nat) (v : Word) (y : Sys) : Sys :=
  if o < 0x1000 then y.onTray (writeTmc o v)
  else if (o == 0x1008 || o == 0x100C) && !y.tray.card.running then y
  else if o < 0x1300 then y.onTray fun t => { t with fc := writeCollector .tray (o - 0x1000) v y.now t.fc }
  else if 0x2000 ≤ o && o < 0x2500 then
    match finOf 20 ((o - 0x2000) / 0x40) with
    | some n => let f := y.fresh; f.2.onTray (writeAxis n (o % 0x40) v f.1 y.now)
    | none => y
  else if 0x2800 ≤ o && o < 0x2880 then
    match finOf 8 ((o - 0x2800) / 0x10) with
    | some k => if o % 0x10 == 4 then y.onTray (Tray.onDrive k fun d => { d with maxRpm := bv 16 v 0 }) else y
    | none => y
  else if 0x2900 ≤ o && o < 0x2914 then y.onTray (writeCac o v y.now)
  else if 0x2C00 ≤ o && o < 0x3000 then
    match finOf 4 ((o - 0x2C00) / 0x100) with
    | some k => y.onTray fun t => { t with cams := t.cams.set k (writeCam (o % 0x100) v t.cams[k]) }
    | none => y
  else if 0x3000 ≤ o && o < 0x3180 then
    match finOf 6 ((o - 0x3000) / 0x40) with
    | some b => writeTwi b (o % 0x40) v y
    | none => y
  else y

/-! Transactions of the register bus (18 R471). No row of the table carries one: REGISTER_WRITE is a write that came through (log
entry 40). -/

/-- The address of a transaction, most significant byte first. -/
def spiAddress (bs : List Byte) : Nat := (bs.getD 1 0).toNat * 256 + (bs.getD 2 0).toNat

/-- A write of opcode 0x02: one whose CRC-8 fails is discarded and counted in BUS_ERR. -/
def spiWrite (bs : List Byte) (y : Sys) : Sys :=
  if bs.length != 8 || bs.getD 0 0 != 2 then y
  else if (bs.getD 7 0).toNat != crc8 (bs.take 7) then y.onTray fun t => { t with busErr := satInc t.busErr }
  else if spiAddress bs % 4 == 0 then writeBoard (spiAddress bs) (wordOf (bs.drop 3)) y
  else y

/-- A read of opcode 0x0B with its dummy byte: four bytes of data, and the CRC-8 of all that came before. -/
def spiRead (bs : List Byte) (y : Sys) : List Byte × Sys :=
  let o := spiAddress bs
  if bs.length != 4 || bs.getD 0 0 != 0x0B then ([], y)
  else
    let f := y.fresh
    let n := y.tray.micros y.now
    let data := leBytes 4 (if o % 4 == 0 then readBoard y.tray o y.now f.1 else 0).toNat
    (data ++ [BitVec.ofNat 8 (crc8 (bs ++ data))],
      f.2.onTray fun t => if o == 0x0C then { t with timeHi := word (n / 2 ^ 32) } else t)

/-! The mailbox (18 R478, Table 18-12). -/

/-- A mailbox register as read. -/
def readMailbox (m : Mailbox) (o : Nat) : Word :=
  if 0x400 ≤ o && o < 0xC00 then m.req[(o - 0x400) / 4]?.getD 0
  else if 0xC00 ≤ o && o < 0x1400 then word (leNat ((m.rsp.drop (o - 0xC00)).take 4))
  else if 0x1400 ≤ o && o < 0x1480 then
    match finOf 16 ((o - 0x1400) / 8) with
    | some k => if o % 8 == 0 then lowWord m.events[k] else highWord m.events[k]
    | none => 0
  else match o with
    | 0x000 => 1
    | 0x004 => pack [(bit m.noticeEn 0, 0), (bit m.irqEn 0, 1)]
    | 0x00C => pack [(bit m.busy 0, 0), (bit m.rspReady 0, 1), (bit (m.head != m.tail) 0, 2)]
    | 0x010 => word m.head.toNat
    | 0x014 => word m.tail.toNat
    | _ => 0

/-- A mailbox write; a doorbell while BUSY is 1 is discarded. -/
def writeMailbox (o : Nat) (v : Word) (m : Mailbox) : Mailbox :=
  if 0x400 ≤ o && o < 0xC00 then
    match finOf 512 ((o - 0x400) / 4) with
    | some i => { m with req := m.req.set i v }
    | none => m
  else match o with
    | 0x004 => { m with noticeEn := v.toNat.testBit 0, irqEn := v.toNat.testBit 1 }
    | 0x008 => if v.toNat.testBit 0 then { m with busy := true } else m
    | 0x00C => if v.toNat.testBit 1 then { m with rspReady := false } else m
    | 0x010 => { m with head := bv 4 v 0 }
    | _ => m

/-! REGISTER_WRITE (00 R9, R11, R16; 03 R84). -/

/-- A write to a CPC, through its bus. -/
def writeToCpc (n : SlotId) (o : Nat) (v : Word) (y : Sys) : Sys :=
  if onBus y.tray n then y.onTray (Tray.onCpc n (writeCpc o v)) else y

/-- One access: BAR0 and the mailbox take an aligned 32-bit write and answer any other as unsupported, as they do while
nothing behind them answers; the register bus and a CPC have no other access. -/
def registerWrite (space : RegSpace) (o size : Nat) (v : Word) (y : Sys) : Sys :=
  let aligned := size == 4 && o % 4 == 0
  match space with
  | .chip => if aligned then chipWrite o v y else y.emit .unsupported
  | .mailbox =>
    if aligned && y.tray.card.running then
      y.onTray (Tray.onCard fun c => { c with mailbox := writeMailbox o v c.mailbox })
    else y.emit .unsupported
  | .tray => if aligned then writeBoard o v y else y
  | .cpc n => if aligned then writeToCpc n o v y else y

def execRegisterWrite (space : RegSpace) (offset size : Nat) (value : Word) (s : State) : Result :=
  onBoard (registerWrite space offset size value) s

/-! Base-board reset and the first rise of the input. -/

/-- A valve as R520 homes it: at once where its closed switch is made. -/
def bootAxis (t : Tray) (n : AxisId) (now : Nat) : Axis :=
  let old := t.axes[n]
  let x := { Axis.reset n.val with closedSw := old.closedSw, openSw := old.openSw }
  if x.closedSw then startMove (bootTarget t n) false now x
  else { x with st := .homing, homed := false, boot := true }

/-- A BBU found at power-up; one in FAULT stays so until it is removed (17 R461, R469; log entry 48). -/
def foundBbu (t : Tray) : BbuState :=
  match t.bbu with
  | .carrying => .charging
  | .depleted => .charging
  | x => x

/-- The card after a base-board reset: it boots within its allowance (18 R492; log entry 44). -/
def bootCard (now : Nat) (c : Card) : Card :=
  { Card.reset with present := c.present, bootCount := c.bootCount + 1, bootAt := now, nextNotice := c.nextNotice,
                    eeprom := c.eeprom, edgeAt := c.edgeAt, allowance := if c.present then some (now + Config.sec 60) else none }

/-- FRAM, presence, sensors and line levels outlast a base-board reset; everything else takes its reset value (15, 17 R469,
18 R492, 19 R520, 20 R543). -/
def bootTray (now : Nat) (t : Tray) : Tray :=
  let bays := t.bays.map fun b => { b with leak := b.wet, buttonTmc := false }
  let drives : Vector Drive 8 := Vector.ofFn fun k => { Drive.reset k.val with
    present := t.drives[k].present, eeprom := t.drives[k].eeprom }
  let twi := t.twi.map fun x => { Twi.reset with sclLow := x.sclLow, sdaLow := x.sdaLow }
  let cages := t.cages.map fun c => { c with lowPower := true }
  let fresh := Collector.reset Source.trayDefault
  let src : Vector Source 64 := Vector.ofFn fun i => { fresh.src[i] with line := t.fc.src[i].line }
  let net := if t.net.dhcp then { t.net with lease := false, linkLocal := false, address := 0 } else t.net
  let base := { t with byFull := 1600, drives := drives }
  { Tray.reset with
      inputAt := now, bbu := foundBbu t, bbuEnergy := t.bbuEnergy, bbuEol := t.bbuEol,
      bays := bays, drives := drives, axes := Vector.ofFn fun n => bootAxis base n now, twi := twi,
      fc := { fresh with src := src }, cages := cages, sensors := t.sensors, log := t.log, logHead := t.logHead,
      trayZ := t.trayZ, trayW := t.trayW, trayValid := t.trayValid, net := net, autoSlots := t.autoSlots,
      autoCool := t.autoCool, requesters := t.requesters, card := bootCard now t.card, timeBase := now,
      revision := t.revision, bbuEeprom := t.bbuEeprom, boardEeprom := t.boardEeprom }

/-- The base-board reset, after which every controller runs one recovery (20 R543). -/
def boardReset (y : Sys) : Sys :=
  (List.finRange 6).foldl (fun y b => recoverBus b y) (y.onTray fun t => settleLeak y.now (bootTray y.now t))

/-- BASE_BOARD_RESET. -/
def execBaseBoardReset (s : State) : Result := onSupply boardReset s

/-- A bay as power comes to the tray: its CPC from reset, a lamp test of 1 s, and its downstream port's indicator controls at Off
(17 R469; 02 Reset and start-up state). -/
def Bay.powerUp (now : Nat) (b : Bay) : Bay :=
  { b with cpc := Cpc.reset, buffer := false, powerInd := .off, attnInd := .off, lampUntil := now + Config.sec 1 }

/-- TRAY_INPUT_RISE: the tray starts UNQUALIFIED, and every CPC from reset (17 R469). -/
def execTrayInputRise (s : State) : Result :=
  onSupply (fun y => (boardReset y).onTray fun t => { t with bays := t.bays.map (Bay.powerUp y.now) }) s

end Sys2Proof.Machine
end

