-- ==== Sys2Proof/Machine/SearchGeom.lean ====
section
/-! DEFINITION. The collision checker (12 sections 2 to 4): the records of search memory, the pose of each capsule, the
distance from a capsule to a box or a voxel, and the verdict on a segment. Lengths and angles are integers in units of
2⁻⁶⁰; what R327 and R328 leave between "meets" and "within 2⁻¹⁶ m" is a free value (log entry 12). -/

namespace Sys2Proof.Machine

/-! Reading search memory (12 R321). -/

/-- What the unit has met while reading: the words corrected, each once for a request (log entry 107), and the line offset of
the first uncorrectable word. -/
structure SearchEcc where
  fixed : List Nat
  bad : Option Nat
  deriving DecidableEq, Repr

def SearchEcc.none : SearchEcc := ⟨[], Option.none⟩

def SearchEcc.corrected (e : SearchEcc) : Nat := e.fixed.length

/-- A read of the words that `reads` names. -/
def noteWords (ecc : List (Nat × EccMark)) (reads : Nat → Bool) (e : SearchEcc) : SearchEcc :=
  if e.bad.isSome then e
  else
    let met := fun (k : EccMark) => (ecc.filter fun x => x.2 == k && reads x.1).map fun x => x.1
    ⟨e.fixed ++ (met .correctable).filter fun w => !e.fixed.contains w,
      (met .uncorrectable).min?.map fun w => (8 * w - searchBase) / 256 * 256⟩

/-- A read of `n` bytes at a search memory offset. -/
def noteRead (ecc : List (Nat × EccMark)) (off n : Nat) (e : SearchEcc) : SearchEcc :=
  let a := searchBase + off
  noteWords ecc (fun w => n != 0 && a / 8 ≤ w && w ≤ (a + n - 1) / 8) e

/-- Marks without those of the words that a write of `n` bytes at an offset touches. -/
def rewritten (off n : Nat) (ecc : List (Nat × EccMark)) : List (Nat × EccMark) :=
  let a := searchBase + off
  ecc.filter fun x => !(a / 8 ≤ x.1 && x.1 ≤ (a + n - 1) / 8)

/-- Little-endian fields of a record. -/
def u8 (b : List Byte) (i : Nat) : Nat := (b.getD i 0).toNat
def u16 (b : List Byte) (i : Nat) : Nat := u8 b i + 256 * u8 b (i + 1)
def u32 (b : List Byte) (i : Nat) : Nat := u16 b i + 65536 * u16 b (i + 2)
def s8 (b : List Byte) (i : Nat) : Int := (BitVec.ofNat 8 (u8 b i)).toInt
def s16 (b : List Byte) (i : Nat) : Int := (BitVec.ofNat 16 (u16 b i)).toInt
def s32 (b : List Byte) (i : Nat) : Int := (BitVec.ofNat 32 (u32 b i)).toInt
def s32s (b : List Byte) (i n : Nat) : List Int := (List.range n).map fun k => s32 b (i + 4 * k)

def searchBytes (m : List Host.Cell) (off n : Nat) : List Byte := Memory.read m (searchBase + off) n

/-! Robot model (12 Tables 12-2 to 12-4). -/

structure Joint where
  typ : Nat
  axis : Nat
  parent : Nat
  origT : List Int
  origR : List Int
  deriving DecidableEq, Repr

structure Capsule where
  a : List Int
  b : List Int
  radius : Int
  link : Nat
  mb : List Int
  deriving DecidableEq, Repr

structure Robot where
  ndim : Nat
  ncap : Nat
  base : List Int
  qmin : List Int
  qmax : List Int
  vmax : List Int
  amax : List Int
  /-- Q20.12. -/
  jmax : List Int
  grid : List Int
  dev : List Int
  joints : List Joint
  caps : List Capsule
  deriving DecidableEq, Repr

def jointOf (b : List Byte) : Joint := ⟨u8 b 0, u8 b 1, u8 b 2, s32s b 4 3, s32s b 16 3⟩
def capsuleOf (b : List Byte) : Capsule := ⟨s32s b 0 3, s32s b 12 3, s32 b 24, u8 b 28, s32s b 32 8⟩

def robotOf (b : List Byte) : Robot :=
  { ndim := u8 b 0, ncap := u8 b 1, base := s32s b 4 6, qmin := s32s b 0x20 8, qmax := s32s b 0x40 8,
    vmax := s32s b 0x60 8, amax := s32s b 0x80 8, jmax := s32s b 0xA0 8, grid := s32s b 0xC0 8, dev := s32s b 0xE0 8,
    joints := (List.range (u8 b 0)).map fun k => jointOf ((b.drop (0x100 + 32 * k)).take 32),
    caps := (List.range (u8 b 1)).map fun k => capsuleOf ((b.drop (0x200 + 64 * k)).take 64) }

/-- R325: NDIM and NCAP in range. -/
def robotSizesOk (b : List Byte) : Bool := 1 ≤ u8 b 0 && u8 b 0 ≤ 8 && 1 ≤ u8 b 1 && u8 b 1 ≤ 16

/-- R325: LINK of each capsule, TYPE and AXIS of joints 0 to NDIM − 1. -/
def robotOk (r : Robot) : Bool :=
  r.caps.all (fun c => c.link < r.ndim) && r.joints.all (fun j => j.typ ≤ 2 && j.axis ≤ 2)

/-! Vectors and rotations in units of 2⁻⁶⁰. -/

def one60 : Int := 2 ^ 60

/-- A Q10.22 value. -/
def q22 (x : Int) : Int := x * 2 ^ 38

/-- A three-vector. -/
structure V3 where
  x : Int
  y : Int
  z : Int
  deriving DecidableEq, Repr

def V3.add (a b : V3) : V3 := ⟨a.x + b.x, a.y + b.y, a.z + b.z⟩
def V3.sub (a b : V3) : V3 := ⟨a.x - b.x, a.y - b.y, a.z - b.z⟩
def V3.dot (a b : V3) : Int := (a.x * b.x + a.y * b.y + a.z * b.z) / one60
def V3.toList (a : V3) : List Int := [a.x, a.y, a.z]

/-- A rotation by its rows. -/
structure Mat where
  r0 : V3
  r1 : V3
  r2 : V3
  deriving DecidableEq, Repr

def Mat.one : Mat := ⟨⟨one60, 0, 0⟩, ⟨0, one60, 0⟩, ⟨0, 0, one60⟩⟩
def Mat.app (m : Mat) (v : V3) : V3 := ⟨m.r0.dot v, m.r1.dot v, m.r2.dot v⟩
def Mat.tr (m : Mat) : Mat := ⟨⟨m.r0.x, m.r1.x, m.r2.x⟩, ⟨m.r0.y, m.r1.y, m.r2.y⟩, ⟨m.r0.z, m.r1.z, m.r2.z⟩⟩
def Mat.mul (a b : Mat) : Mat :=
  let t := b.tr
  let row := fun (r : V3) => (⟨r.dot t.r0, r.dot t.r1, r.dot t.r2⟩ : V3)
  ⟨row a.r0, row a.r1, row a.r2⟩

/-- 2π in units of 2⁻¹⁰⁰. -/
def twoPi100 : Int := 628318530717958647692528676655900576839433879875021 * 2 ^ 100 / 10 ^ 50

/-- The terms of a Taylor series from one term on: each is the one before times −a² / ((i + 1)(i + 2)), in units of 2⁻¹⁰⁰. -/
def taylor (a : Int) : Nat → Int → Int → Int
  | 0, _, _ => 0
  | n + 1, t, i => t + taylor a n (-(t * a / 2 ^ 100 * a / 2 ^ 100) / ((i + 1) * (i + 2))) (i + 2)

def doubleAngle : Nat → Int × Int → Int × Int
  | 0, sc => sc
  | n + 1, (s, c) => doubleAngle n (2 * s * c / 2 ^ 100, 2 ^ 100 - 2 * s * s / 2 ^ 100)

/-- Sine and cosine of an angle, to better than 2⁻⁵⁸. -/
def sinCos (angle : Int) : Int × Int :=
  let a := (angle * 2 ^ 40) % twoPi100 / 2 ^ 12
  let sc := doubleAngle 12 (taylor a 8 a 1, taylor a 8 (2 ^ 100) 0)
  (sc.1 / 2 ^ 40, sc.2 / 2 ^ 40)

/-- A rotation about axis 0 x, 1 y, 2 z. -/
def rotAxis (axis : Nat) (angle : Int) : Mat :=
  let sc := sinCos angle
  let s := sc.1
  let c := sc.2
  match axis with
  | 0 => ⟨⟨one60, 0, 0⟩, ⟨0, c, -s⟩, ⟨0, s, c⟩⟩
  | 1 => ⟨⟨c, 0, s⟩, ⟨0, one60, 0⟩, ⟨-s, 0, c⟩⟩
  | _ => ⟨⟨c, -s, 0⟩, ⟨s, c, 0⟩, ⟨0, 0, one60⟩⟩

/-- Roll, pitch and yaw, applied in that order about fixed axes (12 R323; log entry 26). -/
def rotRpy (l : List Int) : Mat :=
  Mat.mul (rotAxis 2 (q22 (l.getD 2 0))) (Mat.mul (rotAxis 1 (q22 (l.getD 1 0))) (rotAxis 0 (q22 (l.getD 0 0))))

def vec22 (l : List Int) : V3 := ⟨q22 (l.getD 0 0), q22 (l.getD 1 0), q22 (l.getD 2 0)⟩

/-- A frame. -/
structure Pose where
  rot : Mat
  t : V3
  deriving DecidableEq, Repr

def Pose.app (p : Pose) (v : V3) : V3 := (p.rot.app v).add p.t
def Pose.mul (a b : Pose) : Pose := ⟨a.rot.mul b.rot, a.app b.t⟩

/-- The motion of a joint at value q (12 Table 12-3). -/
def jointMotion (j : Joint) (q : Int) : Pose :=
  match j.typ with
  | 1 => ⟨rotAxis j.axis q, ⟨0, 0, 0⟩⟩
  | 2 => ⟨Mat.one, match j.axis with
      | 0 => ⟨q, 0, 0⟩
      | 1 => ⟨0, q, 0⟩
      | _ => ⟨0, 0, q⟩⟩
  | _ => ⟨Mat.one, ⟨0, 0, 0⟩⟩

/-- The frame of a link; none where its chain of parents does not end at the base within the NDIM joints. -/
def linkPose (r : Robot) (q : List Int) : Nat → Nat → Option Pose
  | 0, _ => none
  | fuel + 1, k =>
    match r.joints[k]? with
    | none => none
    | some j =>
      let parent := if j.parent == 255 then some ⟨rotRpy (r.base.drop 3), vec22 r.base⟩ else linkPose r q fuel j.parent
      parent.map fun p => (p.mul ⟨rotRpy j.origR, vec22 j.origT⟩).mul (jointMotion j (q.getD k 0))

/-! Obstacles (12 Tables 12-5, 12-6, R326). -/

/-- A box: centre, half extents and rotation; the rotation is missing when ORIENT is the zero quaternion. -/
structure Obstacle where
  centre : V3
  half : V3
  rot : Option Mat
  deriving DecidableEq, Repr

/-- The rotation of a quaternion after normalisation (12 R323). -/
def quatRot (w x y z : Int) : Option Mat :=
  let n := w * w + x * x + y * y + z * z
  if n == 0 then none
  else
    let e := fun (v : Int) => v * one60 / n
    some ⟨⟨e (w * w + x * x - y * y - z * z), e (2 * (x * y - w * z)), e (2 * (x * z + w * y))⟩,
      ⟨e (2 * (x * y + w * z)), e (w * w - x * x + y * y - z * z), e (2 * (y * z - w * x))⟩,
      ⟨e (2 * (x * z - w * y)), e (2 * (y * z + w * x)), e (w * w - x * x - y * y + z * z)⟩⟩

/-- A box record; one with a negative half extent is skipped. -/
def boxOf (b : List Byte) : Option Obstacle :=
  let h := s32s b 12 3
  if h.any fun x => x < 0 then none
  else some ⟨vec22 (s32s b 0 3), vec22 h, quatRot (s16 b 24) (s16 b 26) (s16 b 28) (s16 b 30)⟩

/-- The voxel grid: origin and edge. -/
structure Grid where
  origin : V3
  edge : Int
  deriving DecidableEq, Repr

/-- The cube of voxel number n = i + 256 j + 65536 k. -/
def voxelBox (g : Grid) (n : Nat) : Obstacle :=
  let c := fun (o : Int) (i : Nat) => o + i * g.edge + g.edge / 2
  ⟨⟨c g.origin.x (n % 256), c g.origin.y (n / 256 % 256), c g.origin.z (n / 65536)⟩,
    ⟨g.edge / 2, g.edge / 2, g.edge / 2⟩, some Mat.one⟩

/-- The numbers of the occupied voxels (12 R326). -/
def occupied (m : List Host.Cell) : List Nat :=
  (m.filter fun c => searchBase ≤ c.1 && c.1 < searchBase + 0x200000).flatMap fun c =>
    ((List.range 8).filter fun b => c.2.toNat.testBit b).map fun b => 8 * (c.1 - searchBase) + b

/-- What a search tests against: boxes, or voxels. -/
structure Scene where
  obstacles : List Obstacle
  /-- BOX_COUNT with ENV 0. -/
  boxCount : Nat
  grid : Option Grid
  margin : Int
  deriving DecidableEq, Repr

/-! Distance (12 R327). -/

/-- How far p lies outside −h to h, with its sign. -/
def outside (p h : Int) : Int := if h < p then p - h else if p < -h then p + h else 0

/-- The point a + t (b − a) of a segment, t in units of 2⁻⁶⁰. -/
def along (a b : V3) (t : Int) : V3 :=
  let f := fun (p q : Int) => p + (q - p) * t / one60
  ⟨f a.x b.x, f a.y b.y, f a.z b.z⟩

/-- Squared distance of a point from the box −h to h, in units of 2⁻¹²⁰. -/
def pointDist2 (p h : V3) : Int := outside p.x h.x ^ 2 + outside p.y h.y ^ 2 + outside p.z h.z ^ 2

/-- Whether the squared distance still falls at t. -/
def falling (a b h : V3) (t : Int) : Bool :=
  let p := along a b t
  outside p.x h.x * (b.x - a.x) + outside p.y h.y * (b.y - a.y) + outside p.z h.z * (b.z - a.z) < 0

/-- The least squared distance of a segment from the box: bisection on the slope of a convex function. -/
def segDist2 (a b h : V3) : Nat → Int → Int → Int
  | 0, lo, hi => min (min (pointDist2 a h) (pointDist2 b h)) (min (pointDist2 (along a b lo) h) (pointDist2 (along a b hi) h))
  | n + 1, lo, hi =>
    let mid := (lo + hi) / 2
    if falling a b h mid then segDist2 a b h n mid hi else segDist2 a b h n lo mid

/-- Whether a capsule meets an obstacle. -/
inductive Verdict where
  | hit | miss
  /-- Left open by R327 and R328: the squared distance and the enlarged radius. -/
  | open_ (d2 : Int) (thr : Int)
  deriving DecidableEq, Repr

/-- The outward rounding of the model's own arithmetic, 2⁻³⁰ m: more than its numerical error. -/
def outward : Int := 2 ^ 30

/-- The capsule from a to b, enlarged to radius `thr`, against an obstacle: a touch is a hit, and no hit lies 2⁻¹⁶ m or more
beyond `thr` (12 R327, R328). -/
def meets (a b : V3) (thr : Int) (o : Obstacle) : Verdict :=
  match o.rot with
  | none => .open_ 0 thr
  | some r =>
    let t := r.tr
    let d2 := segDist2 (t.app (a.sub o.centre)) (t.app (b.sub o.centre)) o.half 62 0 one60
    let near := thr + outward
    let far := thr + 2 ^ 44 - outward
    if 0 ≤ near && d2 ≤ near ^ 2 then .hit
    else if far < 0 || far ^ 2 < d2 then .miss
    else .open_ d2 thr

/-! A segment (12 R327, R329, R340). -/

/-- The capsules at the centre pose: end points, and radius enlarged by MARGIN and the inflation; none without a pose. -/
def placed (r : Robot) (margin : Int) (mid half : List Int) : List (Option (V3 × V3 × Int)) :=
  r.caps.map fun c =>
    let infl := ((List.range r.ndim).map fun k => q22 (c.mb.getD k 0) * half.getD k 0 / one60).sum
    (linkPose r mid 9 c.link).map fun p => (p.app (vec22 c.a), p.app (vec22 c.b), q22 c.radius + margin + infl)

/-- The first and the last of the 32 blocks of 8 voxels along one axis that lo to hi touches. -/
def blockRange (origin edge lo hi : Int) : Int × Int :=
  let w := 8 * edge
  (max 0 ((lo - origin + w - 1) / w - 1), min 31 ((hi - origin) / w))

/-- The same along each axis for the bounding box of an enlarged capsule, its sides moved outward by `by_`. -/
def blockRanges (g : Grid) (c : V3 × V3 × Int) (by_ : Int) : List (Int × Int) :=
  let n := fun (o p q : Int) => blockRange o g.edge (min p q - c.2.2 - by_) (max p q + c.2.2 + by_)
  [n g.origin.x c.1.x c.2.1.x, n g.origin.y c.1.y c.2.1.y, n g.origin.z c.1.z c.2.1.z]

/-- The blocks that the bounding box of an enlarged capsule touches, its sides moved outward by `by_`. -/
def blocksOf (g : Grid) (c : V3 × V3 × Int) (by_ : Int) : Nat :=
  ((blockRanges g c by_).map fun r => (r.2 - r.1 + 1).toNat).foldl (· * ·) 1

/-- What a capsule's bounding box is, to a free value. -/
def capsuleKey (c : V3 × V3 × Int) : List Int := c.1.toList ++ c.2.1.toList ++ [c.2.2]

/-- The block count: a block just touched counts, and the count is free between the bounds that the outward rounding leaves
(12 R327, Table 12-12; log entry 13). -/
def blockCost (g : Grid) (c : V3 × V3 × Int) : Nat :=
  if g.edge ≤ 0 then Config.blocksTouched (g.edge :: capsuleKey c)
  else
    let lo := blocksOf g c outward
    let hi := blocksOf g c (2 ^ 44 - outward)
    if lo == hi then lo else max lo (min hi (Config.blocksTouched (capsuleKey c)))

/-- Block (i, j, k) lies in the ranges. -/
def inBlocks (rs : List (Int × Int)) (ijk : List Nat) : Bool :=
  (rs.zip ijk).all fun x => x.1.1 ≤ x.2 && x.2 ≤ x.1.2

/-- A 64-bit word of the voxel bitmap holds voxels of a block that the capsule's bounding box touches: the word of bits 64 n to
64 n + 63 spans eight blocks along x. Between the bounds of the outward rounding a free value decides. -/
def readsVoxels (g : Grid) (c : V3 × V3 × Int) (word : Nat) : Bool :=
  let n := 8 * (8 * word - searchBase)
  let meets := fun (by_ : Int) => (List.range 8).any fun b =>
    inBlocks (blockRanges g c by_) [n % 256 / 8 + b, n / 256 % 256 / 8, n / 65536 / 8]
  searchBase ≤ 8 * word && 8 * word < searchBase + 0x200000
    && (if g.edge ≤ 0 then Config.blocksTouched (word :: capsuleKey c) % 2 == 1
        else meets outward || (meets (2 ^ 44 - outward) && Config.blocksTouched (word :: capsuleKey c) % 2 == 1))

/-- What testing a segment's capsules reads of the voxel bitmap (12 R321, R340). -/
def noteVoxels (ecc : List (Nat × EccMark)) (s : Scene) (caps : List (Option (V3 × V3 × Int))) (e : SearchEcc) : SearchEcc :=
  match s.grid with
  | none => e
  | some g => noteWords ecc (fun w => caps.any fun c => match c with
      | some c => readsVoxels g c w
      | none => false) e

/-- The collision cost of a segment (12 Table 12-12). -/
def segCost (r : Robot) (s : Scene) (caps : List (Option (V3 × V3 × Int))) : Nat :=
  match s.grid with
  | none => r.ncap * ((s.boxCount + 3) / 4)
  | some g => (caps.map fun c => match c with
      | some c => blockCost g c
      | none => Config.blocksTouched []).sum

/-- Whether the segment is free: no obstacle is met; where only open verdicts are left, a free value decides. -/
def segFree (s : Scene) (caps : List (Option (V3 × V3 × Int))) : Bool :=
  let vs := caps.flatMap fun c => match c with
    | some c => s.obstacles.map (meets c.1 c.2.1 c.2.2)
    | none => [.open_ 0 0]
  let badGrid := match s.grid with
    | some g => decide (g.edge ≤ 0)
    | none => false
  if badGrid then !Config.collisionInBand []
  else if vs.contains .hit then false
  else vs.all fun v => match v with
    | .open_ d t => !Config.collisionInBand [d, t]
    | _ => true

end Sys2Proof.Machine
end

