-- ==== Sys2Proof/Machine/SearchScale.lean ====
section
/-! DEFINITION. The time-scaling stage (12 R336, R337): σ, and the samples of the quintics. Values are exact rationals; where
the 40 fraction bits that R336 gives intermediate values could decide, a free value does (log entry 14). -/

namespace Sys2Proof.Machine

/-! Primitives (12 Table 12-7). -/

structure Prim where
  index : Nat
  dn : List Int
  duration : Nat
  samples : Nat
  startClass : Nat
  endClass : Nat
  cost : Nat
  v0 : List Int
  v1 : List Int
  exmin : List Int
  exmax : List Int
  vpeak : List Int
  apeak : List Int
  deriving DecidableEq, Repr

def primOf (index : Nat) (b : List Byte) : Prim :=
  { index := index, dn := (List.range 8).map fun k => s8 b k, duration := u16 b 8, samples := u8 b 10,
    startClass := u8 b 11, endClass := u8 b 12, cost := u32 b 16, v0 := s32s b 20 8, v1 := s32s b 52 8,
    exmin := s32s b 84 8, exmax := s32s b 116 8, vpeak := s32s b 148 8, apeak := s32s b 180 8 }

/-! One quintic: position 10⁶ x(u) at u = a / b, in units of 2⁻²² (12 R336). -/

structure Quintic where
  a0 : Int
  a1 : Int
  a3 : Int
  a4 : Int
  a5 : Int
  deriving DecidableEq, Repr

/-- From x0 to x1 with end velocities V / σ over σ D µs: the product of velocity and time is V D, whatever σ is. -/
def quintic (x0 x1 v0 v1 : Int) (d : Nat) : Quintic :=
  let dx := (x1 - x0) * 1000000
  let p := v0 * d
  let q := v1 * d
  ⟨x0 * 1000000, p, 10 * dx - 6 * p - 4 * q, -15 * dx + 8 * p + 7 * q, 6 * dx - 3 * p - 3 * q⟩

def Quintic.pos (c : Quintic) (a b : Int) : Int :=
  c.a0 * b ^ 5 + c.a1 * a * b ^ 4 + c.a3 * a ^ 3 * b ^ 2 + c.a4 * a ^ 4 * b + c.a5 * a ^ 5
def Quintic.vel (c : Quintic) (a b : Int) : Int := c.a1 * b ^ 4 + 3 * c.a3 * a ^ 2 * b ^ 2 + 4 * c.a4 * a ^ 3 * b + 5 * c.a5 * a ^ 4
def Quintic.acc (c : Quintic) (a b : Int) : Int := 6 * c.a3 * a * b ^ 2 + 12 * c.a4 * a ^ 2 * b + 20 * c.a5 * a ^ 3
def Quintic.jerk (c : Quintic) (a b : Int) : Int := 6 * c.a3 * b ^ 2 + 24 * c.a4 * a * b + 60 * c.a5 * a ^ 2

/-- lhs keeps within rhs: exactly where no rounding enters; otherwise a relative margin of 2⁻¹⁶ is left open. -/
def within (exact : Bool) (lhs rhs : Int) : Bool :=
  if exact then lhs ≤ rhs
  else if lhs * 65537 ≤ rhs * 65536 then true
  else if rhs * 65536 < lhs * 65535 then false
  else Config.timeScaleWithin [lhs, rhs]

/-- VMAX, AMAX and JMAX (Q20.12) at instant i of 63, for σ = s / 256. At both ends the velocity is V0 or V1 over σ and the
acceleration zero, and where the quintic is a constant velocity it is that velocity throughout: no rounding enters (12 R336). -/
def limitsAt (c : Quintic) (d : Nat) (vmax amax jmax : Int) (s i : Nat) : Bool :=
  let a : Int := i
  let t : Int := s * d
  let steady := c.a3 == 0 && c.a4 == 0 && c.a5 == 0
  let exact := i == 0 || i == 63 || steady
  within exact ((c.vel a 63).natAbs * 256) (vmax * t * 63 ^ 4)
    && within exact ((c.acc a 63).natAbs * 256 ^ 2 * 1000000) (amax * t ^ 2 * 63 ^ 3)
    && within steady ((c.jerk a 63).natAbs * 256 ^ 3 * 1000000000000) (jmax * 1024 * t ^ 3 * 63 ^ 2)

/-- A primitive of the path with the configuration it starts from and the velocity it starts with. -/
structure PathStep where
  prim : Prim
  start : List Int
  v0 : List Int
  deriving DecidableEq, Repr

/-- The steps of a path from a configuration: V0 of the first primitive, then V1 at each waypoint. -/
def pathSteps (r : Robot) : List Int → Option (List Int) → List Prim → List PathStep
  | _, _, [] => []
  | q, v, p :: ps =>
    let next := (List.range 8).map fun k =>
      if k < r.ndim then q.getD k 0 + p.dn.getD k 0 * r.grid.getD k 0 else q.getD k 0
    ⟨p, q, v.getD p.v0⟩ :: pathSteps r next (some p.v1) ps

def PathStep.quintic (r : Robot) (x : PathStep) (k : Nat) : Quintic :=
  let q := x.start.getD k 0
  Machine.quintic q (q + x.prim.dn.getD k 0 * r.grid.getD k 0) (x.v0.getD k 0) (x.prim.v1.getD k 0) x.prim.duration

def scaleOk (r : Robot) (xs : List PathStep) (s : Nat) : Bool :=
  xs.all fun x => (List.range r.ndim).all fun k => (List.range 64).all fun i =>
    limitsAt (x.quintic r k) x.prim.duration (r.vmax.getD k 0) (r.amax.getD k 0) (r.jmax.getD k 0) s i

/-- σ × 256, and LIMIT when no σ up to 16 will do. -/
def sigmaOf (r : Robot) (xs : List PathStep) : Nat × Bool :=
  match ((List.range 3841).map fun i => i + 256).find? (scaleOk r xs) with
  | some s => (s, false)
  | none => (4096, true)

/-! Samples (12 R337). -/

/-- num / den rounded to nearest even; near a tie that it does not hit, and outside 32 bits, a free value. -/
def roundOut (num den : Int) : Int :=
  if den ≤ 0 then Config.timeScale [num, den]
  else
    let f := num / den
    let rem := num % den
    let x := if rem * 2 == den then (if f % 2 == 0 then f else f + 1)
      else if (2 * rem - den).natAbs * 256 < den.natAbs then
        (if Config.timeScale [num, den] % 2 == 0 then f else f + 1)
      else if 2 * rem < den then f else f + 1
    if -(2 ^ 31) ≤ x && x < 2 ^ 31 then x else Config.timeScale [num, den]

/-- Positions and velocities of one dimension at a / b of a step, for σ = s / 256. -/
def sampleAt (r : Robot) (x : PathStep) (s k : Nat) (a b : Int) : Int × Int :=
  let c := x.quintic r k
  (roundOut (c.pos a b) (1000000 * b ^ 5), roundOut (c.vel a b * 256) (s * x.prim.duration * b ^ 4))

/-- The position lies outside the segment box of its instant in dimension k (12 R337). -/
def deviates (r : Robot) (x : PathStep) (k : Nat) (a b pos : Int) : Bool :=
  let n := x.prim.samples
  if n == 0 || b ≤ 0 then false
  else
    let seg := min (n - 1) (a * n / b).toNat
    let step := x.prim.dn.getD k 0 * r.grid.getD k 0
    let e0 := x.start.getD k 0 * n + seg * step
    let e1 := e0 + step
    let dev := r.dev.getD k 0 * n
    pos * n < min e0 e1 - dev || max e0 e1 + dev < pos * n

/-- The step in progress at a time, in units of µs / 256 at σ = s / 256, and how far it is: numerator and denominator. -/
def stepAt (s : Nat) : Nat → List PathStep → Option (PathStep × Nat × Nat)
  | _, [] => none
  | t, [x] => some (x, t, s * x.prim.duration)
  | t, x :: xs => if t < s * x.prim.duration then some (x, t, s * x.prim.duration) else stepAt s (t - s * x.prim.duration) xs

/-- A sample: its 64 bytes, and whether it deviates. -/
def sampleBytes (r : Robot) (xs : List PathStep) (s t : Nat) : List Byte × Bool :=
  match stepAt s t xs with
  | none => (List.replicate 64 0, false)
  | some (x, a, b) =>
    let vals := (List.range 8).map fun k => if k < r.ndim then sampleAt r x s k a b else (0, 0)
    let word := fun (v : Int) => leBytes 4 (BitVec.ofInt 32 v).toNat
    ((vals.flatMap fun v => word v.1) ++ vals.flatMap fun v => word v.2,
      (List.range r.ndim).any fun k => deviates r x k a b (vals.getD k (0, 0)).1)

/-- n / d rounded to nearest even (12 R336); the total duration is a whole number of 1/256 µs, which 40 fraction bits hold. -/
def roundEven (n d : Nat) : Nat :=
  let f := n / d
  if 2 * (n % d) < d || (2 * (n % d) == d && f % 2 == 0) then f else f + 1

/-- What the stage produces. -/
structure Scaled where
  sigma : Nat
  limit : Bool
  truncated : Bool
  deviation : Bool
  duration : Nat
  samples : List (List Byte)
  deriving DecidableEq, Repr

/-- The times of the samples: m × TS below the total, and the total itself. -/
def sampleTimes (total ts : Nat) : List Nat :=
  ((List.range ((total + ts - 1) / ts)).map fun m => m * ts) ++ [total]

/-- The stage over a path; TS is in units of 250 µs. -/
def timeScaling (r : Robot) (xs : List PathStep) (ts : Nat) : Scaled :=
  let sig := sigmaOf r xs
  let total := sig.1 * (xs.map fun x => x.prim.duration).sum
  let times := sampleTimes total (max 1 (ts * 64000))
  let out := (times.take 8192).map fun t => sampleBytes r xs sig.1 t
  { sigma := sig.1, limit := sig.2, truncated := 8192 < times.length, deviation := out.any fun o => o.2,
    duration := roundEven total 256, samples := out.map fun o => o.1 }

end Sys2Proof.Machine
end

