-- ==== Sys2Proof/Machine/SearchRun.lean ====
section
/-! DEFINITION. What one search request does (12 sections 5 to 10): the checks of R338 and R325, passes, broad and ordered
search, MEMWRITE and MEMREAD, the work of Table 12-12, and the result lines. -/

namespace Sys2Proof.Machine

/-! Request lines (12 Table 12-10, R338). -/

def reqKind (l : Line) : Nat := (l.byte 0).toNat % 8
def reqVoxels (l : Line) : Bool := (l.byte 0).toNat.testBit 3
def reqScale (l : Line) : Bool := (l.byte 0).toNat.testBit 4
/-- RLINES; a count of 0 or above 12 counts as 1 (12 R318). -/
def reqLines (l : Line) : Nat := let n := (l.byte 1).toNat; if 1 ≤ n && n ≤ 12 then n else 1
def reqInts (l : Line) (i : Nat) : List Int := s32s l.bytes i 8

/-- Whether a byte of the line may be nonzero for its KIND (12 R338). -/
def byteUsed (kind : Nat) (voxels : Bool) (i : Nat) : Bool :=
  if kind == 2 then i < 2 || (4 ≤ i && i < 10) || 32 ≤ i
  else if kind == 3 then i < 2 || (4 ≤ i && i < 8)
  else i < 3 || i == 12 || i == 13 || (32 ≤ i && i < 144) || (!voxels && 8 ≤ i && i < 12)
    || (if kind == 0 then 4 ≤ i && i < 8 else i == 3 || (16 ≤ i && i < 20))

/-- MEMWRITE and MEMREAD may not reach the node store, the hash or the reserved region. -/
def memRangeOk (lo hi : Nat) : Bool := hi ≤ 0x200000 || (0x700000 ≤ lo && hi ≤ 0x7F0500)

/-- A request that is not INVALID under R338. -/
def requestOk (l : Line) : Bool :=
  let kind := reqKind l
  let n := (l.byte 1).toNat
  let first := l.leNat 4 2
  let count := l.leNat 6 2
  let off := l.leNat 4 4
  let bytes := l.leNat 8 2
  kind ≤ 3 && 1 ≤ n && n ≤ 12
    && (l.byte 0).toNat < (if kind ≤ 1 then 32 else 8)
    && (List.range 256).all (fun i => byteUsed kind (reqVoxels l) i || l.byte i == 0)
    && (if kind == 2 then off % 8 == 0 && 8 ≤ bytes && bytes ≤ 224 && bytes % 8 == 0 && memRangeOk off (off + bytes)
        else if kind == 3 then off % 256 == 0 && (n == 1 || memRangeOk off (off + (n - 1) * 256))
        else
          (l.byte 2).toNat ≤ 31 && 1 ≤ (l.byte 12).toNat && (l.byte 12).toNat ≤ 40
            && (reqVoxels l || l.leNat 8 2 + l.leNat 10 2 ≤ 4096)
            && (if kind == 0 then 1 ≤ count && count ≤ 256 && first + count ≤ 1024 else (l.byte 3).toNat ≤ 254))

/-! Result lines (12 Table 12-11, R339). -/

structure Header where
  status : Nat
  flags : Nat
  path : List Nat
  work : Nat
  nsamp : Nat
  cost : Option Nat
  count : Option Nat
  sigma : Option Nat
  duration : Option Nat
  nodes : Option Nat
  endAt : Option (List Int)
  deriving DecidableEq, Repr

/-- A header of a status with no path, and no field stated but its work. -/
def Header.bare (status work : Nat) : Header := ⟨status, 0, [], work, 0, none, none, none, none, none, none⟩

/-- A field, or a free value where the spec states none (log entry 27). -/
def headField (draw off n : Nat) (v : Option Nat) : List Byte := leBytes n (v.getD (Config.searchField draw off))

/-- Line 0. REFUSED (3) and INVALID (4) carry zero in every byte except STATUS. -/
def Header.line (draw : Nat) (h : Header) : Line :=
  if h.status == 3 || h.status == 4 then Line.ofBytes [BitVec.ofNat 8 h.status]
  else
    let endAt := match h.endAt with
      | some q => (List.range 8).flatMap fun k => leBytes 4 (BitVec.ofInt 32 (q.getD k 0)).toNat
      | none => (List.range 8).flatMap fun k => headField draw (32 + 4 * k) 4 none
    Line.ofBytes (leBytes 1 h.status ++ leBytes 1 h.flags ++ leBytes 2 h.path.length ++ headField draw 4 4 h.cost
      ++ leBytes 4 h.work ++ headField draw 12 4 h.count ++ leBytes 2 h.nsamp ++ headField draw 18 2 h.sigma
      ++ headField draw 20 4 h.duration ++ headField draw 24 4 h.nodes ++ leBytes 4 0 ++ endAt
      ++ (List.range 96).flatMap fun i => leBytes 2 (h.path.getD i 0xFFFF))

/-- Exactly RLINES lines. -/
def padLines (n : Nat) (ls : List Line) : List Line := (ls ++ List.replicate n Line.zero).take n

/-- An answer with no data. -/
def plainAnswer (draw n : Nat) (h : Header) (e : SearchEcc) : SearchAnswer :=
  { lines := padLines n [h.line draw], work := h.work, status := h.status, writes := [], corrected := e.corrected,
    bad := e.bad, ordered := false, cleared := false }

/-! What a search reads at setup. -/

structure Ctx where
  req : Line
  robot : Robot
  scene : Scene
  mem : List Host.Cell
  ecc : List (Nat × EccMark)
  budget : Nat
  deriving DecidableEq, Repr

def Ctx.start (x : Ctx) : List Int := reqInts x.req 32
def Ctx.goal (x : Ctx) : List Int := reqInts x.req 64
def Ctx.tol (x : Ctx) : List Int := reqInts x.req 96
def Ctx.hw (x : Ctx) (k : Nat) : Nat := x.req.leNat (128 + 2 * k) 2

/-- The scene: the environment header, and the boxes of the request's range or the occupied voxels, which are read as segments
are tested. -/
def sceneOf (l : Line) (m : List Host.Cell) (ecc : List (Nat × EccMark)) (e : SearchEcc) : Scene × SearchEcc :=
  let h := searchBytes m 0x7F0000 20
  let e := noteRead ecc 0x7F0000 20 e
  let margin := q22 (s32 h 16)
  if reqVoxels l then
    let g : Grid := ⟨vec22 (s32s h 0 3), q22 (s32 h 12)⟩
    (⟨(occupied m).map (voxelBox g), 0, some g, margin⟩, e)
  else
    let first := l.leNat 8 2
    let count := l.leNat 10 2
    (⟨(List.range count).filterMap fun i => boxOf (searchBytes m (0x740000 + 32 * (first + i)) 32), count, none, margin⟩,
      noteRead ecc (0x740000 + 32 * first) (32 * count) e)

/-! Passes (12 R329, Table 12-12). -/

def satCost (x : Nat) : Nat := min x 0xFFFFFFFF

/-- The configuration of a lattice point. -/
def Ctx.config (x : Ctx) (n : List Int) : List Int :=
  (List.range 8).map fun k => x.start.getD k 0 + n.getD k 0 * x.robot.grid.getD k 0

/-- h of a configuration (12 R331). -/
def Ctx.h (x : Ctx) (q : List Int) : Nat :=
  (List.range x.robot.ndim).foldl (fun a k => max a ((x.goal.getD k 0 - q.getD k 0).natAbs * x.hw k / 2 ^ 22)) 0

/-- The lattice point after a primitive. -/
def Ctx.after (x : Ctx) (n : List Int) (p : Prim) : List Int :=
  (List.range 8).map fun k => if k < x.robot.ndim then n.getD k 0 + p.dn.getD k 0 else 0

/-- The limits of R329 in every dimension. -/
def Ctx.limitsOk (x : Ctx) (n : List Int) (p : Prim) : Bool :=
  let r := x.robot
  let q := x.config n
  (List.range r.ndim).all fun k =>
    let m := n.getD k 0 + p.dn.getD k 0
    m ≤ 127 && -128 ≤ m
      && r.qmin.getD k 0 ≤ q.getD k 0 + p.exmin.getD k 0 && q.getD k 0 + p.exmax.getD k 0 ≤ r.qmax.getD k 0
      && p.vpeak.getD k 0 ≤ r.vmax.getD k 0 && p.apeak.getD k 0 ≤ r.amax.getD k 0

/-- The capsules at the centre pose of segment s (12 R327). -/
def Ctx.segment (x : Ctx) (q : List Int) (p : Prim) (s : Nat) : List (Option (V3 × V3 × Int)) :=
  let step := fun (k : Nat) => q22 (p.dn.getD k 0 * x.robot.grid.getD k 0)
  let mid := (List.range 8).map fun k => q22 (q.getD k 0) + (2 * s + 1) * step k / (2 * p.samples)
  let half := (List.range 8).map fun k => ((step k).natAbs : Int) / (2 * p.samples) + q22 (x.robot.dev.getD k 0)
  placed x.robot x.scene.margin mid half

/-- What one lane came to: whether its candidate is feasible, its work, and what it met in the voxel bitmap; a lane that meets
an uncorrectable word ends there. -/
structure Lane where
  prim : Prim
  ok : Bool
  work : Nat
  ecc : SearchEcc
  deriving DecidableEq, Repr

/-- The segments in order, until one is not free or holds an uncorrectable word. -/
def Ctx.segments (x : Ctx) (q : List Int) (p : Prim) : List Nat → Lane → Lane
  | [], l => l
  | s :: ss, l =>
    let caps := x.segment q p s
    let l := { l with work := l.work + 2 + segCost x.robot x.scene caps, ecc := noteVoxels x.ecc x.scene caps l.ecc }
    if l.ecc.bad.isSome || !segFree x.scene caps then { l with ok := false } else x.segments q p ss l

/-- One lane: the limits, then the segments (12 R329, Table 12-12). -/
def Ctx.lane (x : Ctx) (n : List Int) (p : Prim) : Lane :=
  let l : Lane := ⟨p, x.limitsOk n p, 4, SearchEcc.none⟩
  if l.ok then x.segments (x.config n) p (List.range p.samples) l else l

/-- One pass over primitives at a lattice point. -/
def Ctx.pass (x : Ctx) (n : List Int) (ps : List Prim) : List Lane := ps.map (x.lane n)

/-- A pass's work (12 Table 12-12). -/
def passWork (ls : List Lane) : Nat := 16 + ls.foldl (fun a l => max a l.work) 0

/-- The lane that meets an uncorrectable word first, within `w` work cycles of the pass (12, When events coincide). -/
def firstBad (w : Nat) (ls : List Lane) : Option Lane :=
  (ls.filter fun l => l.ecc.bad.isSome && decide (16 + l.work ≤ w)).foldl (fun b l => match b with
    | none => some l
    | some o => if l.work < o.work then some l else b) none

/-- What a pass met is added to what the request has met. -/
def notePass (ls : List Lane) (bad : Option Lane) (e : SearchEcc) : SearchEcc :=
  ⟨ls.foldl (fun a l => a ++ l.ecc.fixed.filter fun w => !a.contains w) e.fixed, bad.bind fun l => l.ecc.bad⟩

/-- The records of a range of the primitive library, those within it. -/
def readPrims (m : List Host.Cell) (ecc : List (Nat × EccMark)) (first count : Nat) (e : SearchEcc) :
    List Prim × SearchEcc :=
  let n := min (min count 256) (1024 - first)
  ((List.range n).map fun i => primOf (first + i) (searchBytes m (0x700000 + 256 * (first + i)) 256),
    noteRead ecc (0x700000 + 256 * first) (256 * n) e)

/-! The end of a search: time scaling and the lines (12 R336, R337, R339). -/

/-- Four samples of a result line. -/
def sampleLine (ss : List (List Byte)) (l : Nat) : Line :=
  Line.ofBytes ((List.range 4).flatMap fun i => ss.getD (4 * (l - 1) + i) (List.replicate 64 0))

/-- The answer of a search that has a header, a path and work so far: the time-scaling stage runs when TSCALE asks for it
and the path has a primitive; what it cannot finish in the budget is cut. -/
def Ctx.finish (x : Ctx) (draw : Nat) (h : Header) (prims : List Prim) (writes : List (Nat × List Byte)) (e : SearchEcc) :
    SearchAnswer :=
  let n := reqLines x.req
  if !reqScale x.req || prims.isEmpty then { plainAnswer draw n h e with writes := writes }
  else
    let sc := timeScaling x.robot (pathSteps x.robot x.start none prims) (x.req.byte 12).toNat
    let work := h.work + 64 + 32 * prims.length + 4 * sc.samples.length
    if x.budget < work then
      { plainAnswer draw n { h with work := x.budget, flags := h.flags + 32 } e with writes := writes }
    else
      let h := { h with
        work := work, nsamp := sc.samples.length, sigma := some sc.sigma, duration := some sc.duration,
        flags := h.flags + (if sc.truncated then 4 else 0) + (if sc.limit then 8 else 0) + (if sc.deviation then 16 else 0) }
      let lines := h.line draw :: (List.range (n - 1)).map fun l => sampleLine sc.samples (l + 1)
      { plainAnswer draw n h e with
        lines := lines, writes := writes ++ sc.samples.zipIdx.map fun s => (0x770000 + 64 * s.2, s.1) }

/-- The status with which a search ends when the unit met an uncorrectable word (12 R321). -/
def memError (draw : Nat) (l : Line) (work : Nat) (writes : List (Nat × List Byte)) (e : SearchEcc) : SearchAnswer :=
  { plainAnswer draw (reqLines l) (Header.bare 5 work) e with writes := writes }

/-! Broad mode (12 R330). -/

/-- The least score, ties to the lowest index. -/
def bestScore (x : Ctx) (ps : List Prim) : Option Prim :=
  let score := fun (p : Prim) => satCost (p.cost + x.h (x.config (x.after [] p)))
  ps.foldl (fun b p => match b with
    | none => some p
    | some o => if score p < score o then some p else b) none

/-- BROAD: the pass ends at 40 + 16 + the greatest lane work, and a lane at 40 + 16 + its own (log entry 29). -/
def Ctx.broad (x : Ctx) (draw : Nat) (e : SearchEcc) : SearchAnswer :=
  let ps := readPrims x.mem x.ecc (x.req.leNat 4 2) (x.req.leNat 6 2) e
  if ps.2.bad.isSome then memError draw x.req 40 [] ps.2
  else
    let pass := x.pass [] ps.1
    let bad := firstBad (x.budget - 40) pass
    let e := notePass pass bad ps.2
    let whole := decide (40 + passWork pass ≤ x.budget)
    let cands := (pass.filter fun c => c.ok && (whole || decide (56 + c.work ≤ x.budget))).map fun c => c.prim
    let work := if whole then min x.budget (48 + passWork pass) else x.budget
    match bad with
    | some l => memError draw x.req (56 + l.work) [] e
    | none =>
      match bestScore x cands with
      | none =>
        plainAnswer draw (reqLines x.req) { Header.bare 2 work with count := some cands.length } e
      | some p =>
        x.finish draw { Header.bare (if whole then 0 else 1) work with
          path := [p.index], cost := some p.cost, count := some cands.length, endAt := some (x.config (x.after [] p)) }
          [p] [] e

/-! Ordered mode (12 R331-R335). -/

structure Node where
  n : List Int
  cls : Nat
  g : Nat
  h : Nat
  parent : Nat
  prim : Option Prim
  deriving DecidableEq, Repr

/-- An entry of the priority queue. -/
structure OpenEntry where
  f : Nat
  seq : Nat
  node : Nat
  deriving DecidableEq, Repr

structure Ordered where
  nodes : List Node
  opens : List OpenEntry
  seq : Nat
  mem : List Host.Cell
  /-- The marks of search memory, without those of words the search has cleared or written (12 R321, R333). -/
  marks : List (Nat × EccMark)
  writes : List (Nat × List Byte)
  work : Nat
  expansions : Nat
  evicted : Bool
  full : Bool
  ecc : SearchEcc
  /-- The search stage has stopped at its limit. -/
  stopped : Bool
  deriving DecidableEq, Repr

/-- The closed-set slot of a lattice point and class (12 R333). -/
def hashSlot (ndim : Nat) (n : List Int) (cls : Nat) : Nat :=
  let byte := fun (k : Nat) =>
    let b := if k < ndim then (BitVec.ofInt 8 (n.getD k 0)).toNat else 0
    if k == 7 then (b + cls) % 256 else b
  let lo := (List.range 4).foldl (fun a k => a + byte k * 256 ^ k) 0
  let hi := (List.range 4).foldl (fun a k => a + byte (4 + k) * 256 ^ k) 0
  (mix32 (mix32 (BitVec.ofNat 32 lo) ^^^ BitVec.ofNat 32 hi)).toNat % 2 ^ 19

/-- A probe from a slot: whether it matched, the slot it ended at, and the probes beyond the first. -/
def probe (gen : Nat) (n : List Int) (cls : Nat) (o : Ordered) :
    Nat → Nat → Nat → Bool × Nat × Nat × SearchEcc
  | 0, slot, k => (false, slot, k, o.ecc)
  | fuel + 1, slot, k =>
    let off := 0x500000 + 4 * slot
    let e := noteRead o.marks off 4 o.ecc
    let x := u32 (searchBytes o.mem off 4) 0
    if x / 2 ^ 19 != gen then (false, slot, k, e)
    else
      let i := x % 2 ^ 19
      let e := if i == 0 then e else noteRead o.marks (0x200000 + 12 * (i - 1)) 12 e
      let same := match o.nodes[i - 1]? with
        | some y => i != 0 && y.n == n && y.cls == cls
        | none => false
      if same then (true, slot, k, e)
      else probe gen n cls { o with ecc := e } fuel ((slot + 1) % 2 ^ 19) (k + 1)

/-- Write a node's record and its hash slot. -/
def takeSlot (gen slot node : Nat) (o : Ordered) : Ordered :=
  let off := 0x500000 + 4 * slot
  let bs := leBytes 4 (node + 1 + gen * 2 ^ 19)
  { o with mem := Memory.write o.mem (searchBase + off) bs, writes := o.writes ++ [(off, bs)],
           marks := rewritten off 4 (rewritten (0x200000 + 12 * node) 12 o.marks) }

/-- Insert an entry; a full queue of 16,384 evicts the greatest f, latest inserted, or discards the new one (12 R334). -/
def insertOpen (x : OpenEntry) (o : Ordered) : Ordered :=
  if o.opens.length < 16384 then { o with opens := o.opens ++ [x] }
  else
    match o.opens.foldl (fun w e => match w with
        | none => some e
        | some b => if b.f ≤ e.f then some e else w) (none : Option OpenEntry) with
    | none => o
    | some w =>
      if w.f ≤ x.f then { o with evicted := true }
      else { o with evicted := true, opens := (o.opens.filter fun e => e != w) ++ [x] }

/-- The entry popped: least f, then inserted first. -/
def popOpen (o : Ordered) : Option (OpenEntry × Ordered) :=
  match o.opens.foldl (fun w e => match w with
      | none => some e
      | some b => if e.f < b.f then some e else w) (none : Option OpenEntry) with
  | none => none
  | some e => some (e, { o with opens := o.opens.filter fun y => y != e })

/-- A new node takes its slot and enters the priority queue. -/
def addNode (gen slot : Nat) (y : Node) (o : Ordered) : Ordered :=
  let i := o.nodes.length
  let o := takeSlot gen slot i { o with nodes := o.nodes ++ [y] }
  let o := insertOpen ⟨satCost (y.g + y.h), o.seq, i⟩ { o with seq := o.seq + 1 }
  { o with full := decide (262144 ≤ i + 1) }

/-- Successors in primitive order, each at 4 work cycles and 2 for each probe beyond the first, until the limit, a full
node store or an uncorrectable word (12 R332, R334, Table 12-12). -/
def Ctx.successors (x : Ctx) (gen limit parent : Nat) (y : Node) : List Prim → Ordered → Ordered
  | [], o => o
  | p :: ps, o =>
    let n := x.after y.n p
    let r := probe gen n p.endClass o (2 ^ 19) (hashSlot x.robot.ndim n p.endClass) 0
    let work := o.work + 4 + 2 * r.2.2.1
    let o := { o with ecc := r.2.2.2 }
    if o.ecc.bad.isSome then o
    else if limit < work then { o with work := limit, stopped := true }
    else
      let o := { o with work := work }
      if r.1 then x.successors gen limit parent y ps o
      else
        let o := addNode gen r.2.1 ⟨n, p.endClass, satCost (y.g + p.cost), x.h (x.config n), parent, some p⟩ o
        if o.full then o else x.successors gen limit parent y ps o

/-- One expansion (12 R332). -/
def Ctx.expand (x : Ctx) (gen limit i : Nat) (y : Node) (o : Ordered) : Ordered :=
  let off := 0x7F0100 + 4 * y.cls
  let e := noteRead o.marks off 4 o.ecc
  let entry := u32 (searchBytes o.mem off 4) 0
  let ps := readPrims o.mem o.marks (entry % 65536) (entry / 65536) e
  let o := { o with ecc := ps.2, expansions := o.expansions + 1 }
  if o.ecc.bad.isSome then o
  else
    let pass := x.pass y.n ps.1
    let bad := firstBad (limit - o.work - 6) pass
    let o := { o with ecc := notePass pass bad o.ecc }
    let work := o.work + 6 + (if ps.1.isEmpty then 0 else passWork pass)
    match bad with
    | some l => { o with work := o.work + 22 + l.work }
    | none =>
      if limit < work then { o with work := limit, stopped := true }
      else x.successors gen limit i y ((pass.filter fun c => c.ok).map fun c => c.prim) { o with work := work }

def Ctx.isGoal (x : Ctx) (y : Node) : Bool :=
  let q := x.config y.n
  let cls := (x.req.byte 13).toNat
  (cls == 255 || cls == y.cls) &&
    (List.range x.robot.ndim).all fun k => ((q.getD k 0 - x.goal.getD k 0).natAbs : Int) ≤ x.tol.getD k 0

/-- How the search stage ended. -/
inductive OrderedEnd where
  | found (i : Nat)
  | empty | stop | error
  deriving DecidableEq, Repr

/-- The search stage: pop, test the goal, expand. Each expansion costs 6 or more, so the limit is fuel enough. -/
def Ctx.orderedLoop (x : Ctx) (gen limit : Nat) : Nat → Ordered → OrderedEnd × Ordered
  | 0, o => (.stop, o)
  | fuel + 1, o =>
    if o.ecc.bad.isSome then (.error, o)
    else if o.stopped || o.full || limit ≤ o.work then (.stop, o)
    else match popOpen o with
      | none => (.empty, o)
      | some (e, o) =>
        match o.nodes[e.node]? with
        | none => (.empty, o)
        | some y => if x.isGoal y then (.found e.node, o) else x.orderedLoop gen limit fuel (x.expand gen limit e.node y o)

/-- The primitives from node 0 to a node. -/
def pathTo (nodes : List Node) : Nat → Nat → List Prim
  | 0, _ => []
  | fuel + 1, i =>
    match nodes[i]? with
    | none => []
    | some y => match y.prim with
      | none => []
      | some p => pathTo nodes fuel y.parent ++ [p]

/-- The generated node with the least h, lowest index among equals (12 R335). -/
def leastH (nodes : List Node) : Nat :=
  (nodes.zipIdx.foldl (fun b y => match b with
    | none => some (y.1.h, y.2)
    | some o => if y.1.h < o.1 then some (y.1.h, y.2) else b) (none : Option (Nat × Nat))).elim 0 (·.2)

/-- Bytes of the node store that the search wrote (log entry 28). -/
def nodeWrites (draw : Nat) (nodes : List Node) : List (Nat × List Byte) :=
  (List.range nodes.length).map fun i => (0x200000 + 12 * i, (List.range 12).map fun k => Config.nodeByte draw i k)

/-- The result of the search stage, with the path reconstructed. -/
def Ctx.orderedResult (x : Ctx) (draw status i : Nat) (o : Ordered) : SearchAnswer :=
  let path := pathTo o.nodes o.nodes.length i
  let flags := (if o.full then 1 else 0) + (if o.evicted then 2 else 0)
  let endN := (o.nodes[i]?.map fun y => y.n).getD []
  x.finish draw { Header.bare status (min x.budget (o.work + 2 * path.length)) with
      flags := flags, path := path.map fun p => p.index, cost := (o.nodes[i]?.map fun y => y.g),
      count := some o.expansions, nodes := some o.nodes.length, endAt := some (x.config endN) }
    path (o.writes ++ nodeWrites draw o.nodes) o.ecc

/-- ORDERED from a hash of the given generation; `clear` is the work of clearing it first. -/
def Ctx.orderedStage (x : Ctx) (draw gen clear : Nat) (e : SearchEcc) : SearchAnswer :=
  let limit := x.budget - x.req.leNat 16 4
  let q := x.config []
  let cls := (x.req.byte 3).toNat
  let o : Ordered := { nodes := [], opens := [], seq := 0, mem := x.mem, marks := x.ecc, writes := [],
                       work := 40 + clear, expansions := 0, evicted := false, full := false, ecc := e, stopped := false }
  let n0 := List.replicate 8 (0 : Int)
  let o := addNode gen (hashSlot x.robot.ndim n0 cls) ⟨n0, cls, 0, x.h q, 0, none⟩ o
  let r := x.orderedLoop gen limit (limit + 1) o
  match r.1 with
  | .found i => x.orderedResult draw 0 i r.2
  | .empty =>
    plainAnswer draw (reqLines x.req) { Header.bare 2 r.2.work with
      flags := if r.2.evicted then 2 else 0, count := some r.2.expansions, nodes := some r.2.nodes.length } r.2.ecc
      |> fun a => { a with writes := r.2.writes ++ nodeWrites draw r.2.nodes }
  | .stop => x.orderedResult draw 1 (leastH r.2.nodes) r.2
  | .error => memError draw x.req r.2.work (r.2.writes ++ nodeWrites draw r.2.nodes) r.2.ecc

/-- ORDERED. A limit inside setup or the clear leaves node 0 alone, and the clear still due (log entry 29). -/
def Ctx.ordered (x : Ctx) (draw gen : Nat) (clear : Bool) (e : SearchEcc) : SearchAnswer :=
  let limit := x.budget - x.req.leNat 16 4
  let w := if clear then 8192 else 0
  if limit < 40 + w then
    plainAnswer draw (reqLines x.req) { Header.bare 1 (max 40 limit) with
      cost := some 0, count := some 0, nodes := some 1, endAt := some (x.config []) } e
  else { x.orderedStage draw gen w e with ordered := true, cleared := clear }

/-! MEMWRITE and MEMREAD (12 R316, R321, R338). -/

def memWriteAnswer (draw : Nat) (l : Line) (budget : Nat) : SearchAnswer :=
  let n := l.leNat 8 2
  let cost := 48 + n / 8
  if budget < cost then plainAnswer draw (reqLines l) (Header.bare 1 40) SearchEcc.none
  else
    { plainAnswer draw (reqLines l) (Header.bare 0 cost) SearchEcc.none with
      writes := [(l.leNat 4 4, (l.bytes.drop 32).take n)] }

/-- Lines of search memory until one holds an uncorrectable word: the lines, and what was met. -/
def readLines (m : List Host.Cell) (ecc : List (Nat × EccMark)) (off : Nat) : Nat → SearchEcc → List Line × SearchEcc
  | 0, e => ([], e)
  | n + 1, e =>
    let e := noteRead ecc off 256 e
    if e.bad.isSome then ([], e)
    else
      let r := readLines m ecc (off + 256) n e
      (Memory.line m (searchBase + off) :: r.1, r.2)

/-- MEMREAD; the work cycle that reads line k is 40 + 8 + k (log entry 29). -/
def memReadAnswer (draw : Nat) (l : Line) (budget : Nat) (m : List Host.Cell) (ecc : List (Nat × EccMark)) :
    SearchAnswer :=
  let n := reqLines l
  let cost := 48 + n
  if budget < cost then plainAnswer draw n (Header.bare 1 40) SearchEcc.none
  else
    let r := readLines m ecc (l.leNat 4 4) (n - 1) SearchEcc.none
    let h := if r.2.bad.isSome then Header.bare 5 (49 + r.1.length) else Header.bare 0 cost
    { plainAnswer draw n h r.2 with lines := padLines n (h.line draw :: r.1) }

/-! Any request. -/

/-- Search memory after the clear of the hash. -/
def clearHash (m : List Host.Cell) : List Host.Cell :=
  m.filter fun c => !(searchBase + 0x500000 ≤ c.1 && c.1 < searchBase + 0x700000)

/-- The answer of a request served with a budget. `gen` is the generation an ordered search uses. -/
def answerOf (draw : Nat) (l : Line) (budget : Nat) (clear : Bool) (gen : Nat) (m : List Host.Cell)
    (ecc : List (Nat × EccMark)) : SearchAnswer :=
  let n := reqLines l
  if budget < 48 then plainAnswer draw n (Header.bare 1 0) SearchEcc.none
  else if !requestOk l then plainAnswer draw n (Header.bare 4 40) SearchEcc.none
  else if reqKind l == 2 then memWriteAnswer draw l budget
  else if reqKind l == 3 then memReadAnswer draw l budget m ecc
  else
    let off := 0x760000 + 0x800 * (l.byte 2).toNat
    let b := searchBytes m off 0x800
    let e := noteRead ecc off 2 SearchEcc.none
    if e.bad.isSome then memError draw l 40 [] e
    else if !robotSizesOk b then plainAnswer draw n (Header.bare 4 40) e
    else
      let e := noteRead ecc off 0x100 e
      let e := noteRead ecc (off + 0x100) (32 * u8 b 0) e
      let e := noteRead ecc (off + 0x200) (64 * u8 b 1) e
      if e.bad.isSome then memError draw l 40 [] e
      else if !robotOk (robotOf b) then plainAnswer draw n (Header.bare 4 40) e
      else
        let s := sceneOf l m ecc e
        if s.2.bad.isSome then memError draw l 40 [] s.2
        else
          let x : Ctx := ⟨l, robotOf b, s.1, if clear then clearHash m else m,
            if clear then rewritten 0x500000 0x200000 ecc else ecc, budget⟩
          if reqKind l == 0 then x.broad draw s.2
          else x.ordered draw gen clear s.2

end Sys2Proof.Machine
end

