-- ==== Sys2Proof/Machine/Search.lean ====
section
/-! DEFINITION. The search unit (12 section 1): entry, reservations, refusals, service, delivery, and its commands. A request's
answer is fixed when its service begins; what it writes to search memory is written when its work ends (log entry 30). -/

namespace Sys2Proof.Machine

/-- The count that entries and reservations are taken on: the PCC in run state, else the work counter (12 R314). -/
def srchCount (c : Chip) : Nat := if c.map.run then c.cmp.pcc else c.srch.work.toNat

/-- Reservations whose end has come are closed. -/
def closeReservations (count : Nat) (s : SearchUnit) : SearchUnit :=
  { s with reserved := s.reserved.filter fun e => count < e }

/-- The REFUSED answer of the request port (12 R317, R339). -/
def refusedAnswer (l : Line) : SearchAnswer :=
  { lines := padLines (reqLines l) [Line.ofBytes [3]], work := 0, status := 3, writes := [], corrected := 0, bad := none,
    ordered := false, cleared := false }

/-- When the lines of an answer to a tile may leave: at E + D with STRICT set, else at the end of its work (12 R318). -/
def outDue (c : Chip) (o : SearchOrigin) (deadline workEnd : Nat) : Nat :=
  match o with
  | .tile _ _ => if c.time.strict then deadline else workEnd
  | .host _ _ => workEnd

/-- A refusal: counted; a tile gets source 38 and a REFUSED answer, a descriptor its completion (06 R176; 12 R317; 13
R358). -/
def refuse (l : Line) (entered d at_ : Nat) (o : SearchOrigin) (c : Chip) : Chip :=
  let c := { c with srch := { c.srch with refused := satInc c.srch.refused } }
  match o with
  | .host q i => refuseSearch q i c
  | .tile _ _ =>
    let out : SearchOut := ⟨o, outDue c o (entered + d) at_, refusedAnswer l, 0⟩
    { c with srch := { c.srch with outs := c.srch.outs ++ [out] } }.raise 38 .srch

/-- A request enters the queue at count `entered` with deadline D (12 R314, R315, R317). -/
def submitSearch (l : Line) (d entered at_ : Nat) (o : SearchOrigin) (c : Chip) : Chip :=
  let fromHost := match o with
    | .host _ _ => true
    | .tile _ _ => false
  let s := closeReservations entered c.srch
  let c := { c with srch := s }
  if !c.domOn bitSrch || 16 ≤ s.reserved.length || (fromHost && c.map.run) then refuse l entered d at_ o c
  else
    let e := entered + d
    let r : SearchReq := ⟨l, entered, max entered s.lastEnd, e, at_, o⟩
    { c with srch := { s with queue := s.queue ++ [r], reserved := s.reserved ++ [e], lastEnd := e } }

/-- Lines of the mesh that have reached the search attach tile enter 4 cycles later, the lower virtual tile first (08 R216;
12 R314, When events coincide). -/
def takeSearchLines (c : Chip) : Chip :=
  let c := meshAdvance c
  let due := fun (l : MeshLine) => match l.dst with
    | .search _ _ => !c.map.run || (arrived c l && decide (l.arrive + 4 ≤ c.cmp.pcc))
    | _ => false
  let ls := byArrival c (c.cmp.mesh.lines.filter due)
  let c := { c with cmp := { c.cmp with mesh := { c.cmp.mesh with lines := c.cmp.mesh.lines.filter fun l => !due l } } }
  if !c.map.run then c
  else ls.foldl (fun c l => match l.dst with
    | .search d rch =>
      let e := l.arrive + 4
      submitSearch l.line d.toNat e (c.srch.work.toNat - (c.cmp.pcc - e)) (.tile l.src rch) c
    | _ => c) c

/-! Service (12 R316). -/

/-- The search memory and its marks after the answer's writes. -/
def applyWrites (ws : List (Nat × List Byte)) (m : List Host.Cell) (y : Sys) : List Host.Cell × Sys :=
  ws.foldl (fun acc w => storeBytes (searchBase + w.1) w.2 acc.1 acc.2) (m, y)

/-- The hash cleared in memory (12 R333). -/
def applyClear (m : List Host.Cell) (y : Sys) : List Host.Cell × Sys :=
  let lo := (searchBase + 0x500000) / 8
  (clearHash m, { y with ecc := y.ecc.filter fun e => !(lo ≤ e.1 && e.1 < lo + 0x40000) })

/-- What an answer counts and raises (12 R321, R335, Table 12-15). -/
def countAnswer (a : SearchAnswer) (c : Chip) : Chip :=
  let s := c.srch
  let s := { s with served := satInc s.served, eccCount := satAdd s.eccCount a.corrected }
  let s := if a.status == 1 then { s with partialCount := satInc s.partialCount } else s
  let s := match a.bad with
    | some off => if s.eccValid then s else { s with eccOffset := BitVec.ofNat 23 off, eccValid := true }
    | none => s
  let s := if a.ordered then
      (if a.cleared then { s with clearDue := false, generation := 1, sinceClear := 1 }
       else { s with generation := s.generation + 1, sinceClear := s.sinceClear + 1 })
    else s
  let c := { c with srch := s }
  let c := if a.status == 1 then c.raise 39 .srch else c
  if a.bad.isSome then c.raise 37 .srch else c

/-- The request in service ends when its work is done. -/
def retire (m : List Host.Cell) (y : Sys) : List Host.Cell × Sys :=
  match y.chip.srch.active with
  | none => (m, y)
  | some a =>
    let stop := a.began + a.answer.work
    if y.chip.srch.work.toNat < stop then (m, y)
    else
      let r := if a.answer.cleared then applyClear m y else (m, y)
      let r := applyWrites a.answer.writes r.1 r.2
      (r.1, r.2.onChip fun c =>
        let c := countAnswer a.answer c
        let out : SearchOut := ⟨a.req.origin, outDue c a.req.origin a.req.e stop, a.answer, 0⟩
        { c with srch := { c.srch with active := none, freeAt := stop, outs := c.srch.outs ++ [out] } })

/-- The front request begins, as soon as the previous one has ended. -/
def beginSearch (m : List Host.Cell) (y : Sys) : Sys :=
  let s := y.chip.srch
  match s.active, s.queue with
  | none, r :: rest =>
    let d := y.fresh
    let clear := s.clearDue || 8191 ≤ s.sinceClear
    let gen := if clear then 1 else s.generation.toNat + 1
    let a := answerOf d.1 r.line (r.e - r.r) clear gen m y.ecc
    d.2.onChip fun c => { c with srch := { c.srch with queue := rest, active := some ⟨r, max s.freeAt r.at_, a⟩ } }
  | _, _ => y

/-- Out of run state the work of the request in service comes to its end. -/
def awaitEnd (y : Sys) : Sys :=
  match y.chip.srch.active with
  | some a => y.awaitWork (a.began + a.answer.work)
  | none => y

/-- A command that serves the front request when it is of its kind. -/
def serveKind (is : Nat → Bool) (s : State) : Result :=
  onMemSys (fun m y =>
    let y := awaitEnd (y.onChip takeSearchLines)
    let r := retire m y
    match r.2.chip.srch.queue with
    | q :: _ => if is (reqKind q.line) && r.2.chip.domOn bitSrch then (r.1, beginSearch r.1 r.2) else r
    | [] => r) s

/-- BROAD; a request of a reserved kind, which is INVALID, is served here too (12 R330, R338; log entry 31). -/
def execBroad (s : State) : Result := serveKind (fun k => k == 0 || 4 ≤ k) s

/-- ORDERED (12 R331-R335). -/
def execOrdered (s : State) : Result := serveKind (fun k => k == 1) s

/-- MEMWRITE (12 R338). -/
def execMemwrite (s : State) : Result := serveKind (fun k => k == 2) s

/-- MEMREAD (12 R338). -/
def execMemread (s : State) : Result := serveKind (fun k => k == 3) s

/-- SEARCH_BUDGET_END: a search that its budget cuts ends PARTIAL, with source 39 (12 R335). -/
def execSearchBudgetEnd (s : State) : Result :=
  onMemSys (fun m y => if y.chip.srch.active.any (fun a => a.answer.status == 1) then retire m (awaitEnd y) else (m, y)) s

/-! Delivery (12 R318; 13 R358). -/

/-- Lines for a tile leave the unit 4 + i cycles after `due`: with STRICT set at exactly that PCC value. -/
def deliverToTile (v : Nat) (rch : Chan) (due : Nat) (a : SearchAnswer) (c : Chip) : Chip :=
  let strict := c.time.strict
  let now := if strict then c.cmp.pcc else c.srch.work.toNat
  a.lines.zipIdx.foldl (fun c l => edgeSend (!strict) false 8 (c.map.vc - 1) v rch l.1 (due + 4 + l.2 - now) c) c

/-- Line i of an answer enters the host write path; behind the last one goes the completion, with header bytes 0 to 15. While
the link is down what reaches the path is discarded (13 R358, R364, R371). Behind an HWRITE of the same cycle (DESIGN CHOICE,
log entry 34). -/
def putResult (q : QpId) (e : QEntry) (o : SearchOut) (c : Chip) (i : Nat) : Chip :=
  let ls := o.answer.lines
  let head := ls.headD Line.zero
  let r0 := head.leNat 0 8
  let r1 := head.leNat 8 8
  let last := i + 1 == ls.length
  if c.hif.linkUp then
    let at_ := c.cmp.cycles - (c.srch.work.toNat - (o.due + 4 + i))
    putWrite { addr := BitVec.ofNat 64 (descTaddr e.bytes + 256 * i), bytes := (ls.getD i Line.zero).bytes, handle := none,
               due := at_ + exitCycles c 256, issued := at_, src := 512, ends := if last then some (q, e.index, r0, r1) else none } c
  else
    let c := c.hifDrop q
    if last then endEntry q e 0 r0 r1 0 c else c

/-- The number of an answer's lines that have left the unit: line i does 4 + i cycles after its work ended. -/
def linesOut (c : Chip) (o : SearchOut) : Nat := min o.answer.lines.length (c.srch.work.toNat - (o.due + 3))

/-- An answer to a host: its lines that are due enter the host write path while that has room (13 R363). -/
def sendHostOut (q : QpId) (e : QEntry) (o : SearchOut) (c : Chip) : Chip :=
  let n := if c.hif.linkUp then min (linesOut c o) (o.sent + (16 - c.hif.writes.length)) else linesOut c o
  let c := ((List.range n).drop o.sent).foldl (putResult q e o) c
  if n < o.answer.lines.length then
    { c with srch := { c.srch with outs := c.srch.outs ++ [{ o with sent := max o.sent n }] } }
  else c

/-- Every answer to a host, oldest first; one whose entry is gone has nowhere to go. -/
def sendHostLines (c : Chip) : Chip :=
  c.srch.outs.foldl (fun c o => match o.origin with
    | .tile _ _ => { c with srch := { c.srch with outs := c.srch.outs ++ [o] } }
    | .host q i => match findEntry (c.qp q) i with
      | some e => sendHostOut q e o c
      | none => c) { c with srch := { c.srch with outs := [] } }

/-- When the lines of an answer to a host have left the unit. -/
def hostDue (o : SearchOut) : Nat := o.due + 3 + o.answer.lines.length

/-- The lines of an answer to a tile are due. -/
def outReady (c : Chip) (o : SearchOut) : Bool :=
  !o.forHost && decide (o.due ≤ (if c.time.strict then c.cmp.pcc else c.srch.work.toNat))

/-- Out of run state the next answer becomes ready. -/
def awaitAnswer (y : Sys) : Sys :=
  match (y.chip.srch.outs.map hostDue).min?, y.chip.srch.active with
  | some n, _ => y.awaitWork n
  | none, some a => y.awaitWork (a.began + a.answer.work + 3 + a.answer.lines.length)
  | none, none => y

def deliverOut (c : Chip) (o : SearchOut) : Chip :=
  match o.origin with
  | .tile v rch => deliverToTile v rch o.due o.answer c
  | .host _ _ => c

/-- Every answer to a tile whose lines are due is delivered. -/
def deliverReady (c : Chip) : Chip :=
  let outs := c.srch.outs
  (outs.filter (outReady c)).foldl deliverOut
    { c with srch := { c.srch with outs := outs.filter fun o => !outReady c o } }

/-- SEARCH_RESULT: the lines of every answer that are due are delivered. -/
def execSearchResult (s : State) : Result :=
  onMemSys (fun m y =>
    let r := retire m (awaitAnswer (y.onChip takeSearchLines))
    (r.1, r.2.onChip fun c => sendHostLines (deliverReady c))) s

/-! Idle scrubbing (12 R321). -/

/-- SEARCH_SCRUB: one line every GAP cycles while the unit is idle. A corrected line is written back, as the scrubbers of
tile SRAM do; errors are counted and captured as in the unit's reads (log entry 32). -/
def execSearchScrub (s : State) : Result :=
  onSys (fun y =>
    let y := match y.chip.srch.scrubAt with
      | some a => if y.chip.map.run then y else y.awaitCycle (a + max 1 y.chip.srch.gap.toNat)
      | none => y
    let c := y.chip
    let u := c.srch
    let ready := match u.scrubAt with
      | none => true
      | some a => decide (a + max 1 u.gap.toNat ≤ c.cmp.cycles)
    if u.scrubEnable && c.domOn bitSrch && u.active.isNone && u.queue.isEmpty && ready then
      let off := u.scrubPtr.val * 256
      let w := (searchBase + off) / 8
      let r := Ecc.check y.ecc w 32
      let u := { u with scrubPtr := u.scrubPtr + 1, scrubAt := some c.cmp.cycles, eccCount := satAdd u.eccCount r.1 }
      let u := if r.2 != 0 && !u.eccValid then { u with eccOffset := BitVec.ofNat 23 off, eccValid := true } else u
      let y := y.onChip fun c =>
        let c := { c with srch := u }
        if r.2 != 0 then c.raise 37 .srch else c
      if r.1 != 0 && r.2 == 0 then { y with ecc := Ecc.clear y.ecc w 32 (2 ^ 32 - 1) } else y
    else y) s

end Sys2Proof.Machine
end

