-- ==== Sys2Proof/Machine/HostXfer.lean ====
section
/-! DEFINITION. Entries of the queue pairs and their transfers (13 sections 3, 4 and 8): taking and starting an entry, the
checks of R355, DMA reads, and global transfers in segments (10 R259-R261, 13 R357). -/

namespace Sys2Proof.Machine

/-! Taking entries (13 R349, R351-R354). -/

/-- The SQ head: the slot of the first entry not taken, or the tail (13 R349). -/
def headOf (x : QueuePair) : Nat :=
  match x.entries.find? fun e => e.desc.isNone with
  | some e => e.index % sqSize x
  | none => x.sqTail

def updateHead (x : QueuePair) : QueuePair := { x with sqHead := headOf x }

/-- Entries taken but not yet submitted: (tail − head) mod size. -/
def sqCount (x : QueuePair) : Nat := (x.sqTail + sqSize x - x.sqHead % sqSize x) % sqSize x

/-- Entries are kept while the queue pair is ENABLED or in ERROR. -/
def keepsEntries (x : QueuePair) : Bool := x.state == 1 || x.state == 3

def newEntry (index : Nat) (desc : Option (List Byte)) (cycles : Nat) : QEntry :=
  { index := index, desc := desc, at_ := cycles, started := false, data := [], left := 0, bad := none, cut := none, seq := 0 }

/-- The entry that may start now: the first not started, when its descriptor is there, the queue pair is ENABLED and its CQ
is not full (13 R353, R367, R369). -/
def nextEntry (x : QueuePair) : Option QEntry :=
  if x.state == 1 && !cqFull x then
    match x.entries.find? fun e => !e.started with
    | some e => if e.desc.isSome then some e else none
    | none => none
  else none

/-! The checks of R355. -/

def zeroFrom (d : List Byte) (i : Nat) : Bool := (d.drop i).all fun b => b == 0

/-- Multiples that TADDR and LEN must be: 4 in the set-up range, 8 in tile SRAM and search memory. -/
def alignFor (vc off : Nat) : Nat :=
  match regionOf vc off with
  | .regs _ => 4
  | .reserved => 1
  | _ => 8

/-- An entry that does not complete INVALID (13 R355, Table 13-5). -/
def descValid (vc : Nat) (d : List Byte) : Bool :=
  let op := descOp d
  let flags := descByte d 1
  let len := descLen d
  let h := descHaddr d
  let t := descTaddr d
  let off := t % 2 ^ 31
  let plain := flags == 0
  match op with
  | 0 | 5 | 9 | 11 => plain && zeroFrom d 4
  | 1 | 2 =>
    plain && 1 ≤ len && len ≤ 2 ^ 24 && t < 2 ^ 31 && zeroFrom d 24 && t % alignFor vc off == 0 && len % alignFor vc off == 0
  | 6 | 7 => plain && 1 ≤ len && len ≤ 2 ^ 24 && zeroFrom d 24 && off % alignFor vc off == 0 && len % alignFor vc off == 0
  | 3 => flags < 4 && 1 ≤ len && (if descInline d then len ≤ 48 && zeroFrom d (16 + len) else len ≤ 224 && zeroFrom d 24)
  | 4 => flags ≤ 1 && len == 0 && t == 0 && zeroFrom d 24
  | 8 => plain && len == 0 && h == 0 && t == 0 && descByte d 26 < 32 && zeroFrom d 27
  | 10 => plain && len == 0 && zeroFrom d 28
  | _ => false

/-! Starting entries (13 R353, R354). -/

/-- An earlier entry that FENCE waits for: not ended, other than an accepted LAUNCH (13 R355). -/
def notDone (before : Nat) (e : QEntry) : Bool := e.index < before && !(e.started && descOp e.bytes == 4)

/-- The queue pair has an entry to start: a valid FENCE waits until every earlier entry is done (13 R355). -/
def mayStart (c : Chip) (q : QpId) : Bool :=
  match nextEntry (c.qp q) with
  | some e => descOp e.bytes != 9 || !descValid c.map.vc e.bytes || (c.qp q).entries.all fun x => !notDone e.index x
  | none => false

/-- The queue pair that starts an entry next: the first that has one, in round robin (13 R354). -/
def turnOf (c : Chip) : Option QpId := ((List.finRange 32).map fun i => c.hif.turn + i).find? (mayStart c)

/-- An entry has started in this core cycle already (13 R354). -/
def startBusy (c : Chip) : Bool :=
  match c.hif.startAt with
  | some n => decide (c.cmp.cycles ≤ n)
  | none => false

/-- The entry starts: the round robin goes on behind its queue pair. -/
def markStart (q : QpId) (e : QEntry) (c : Chip) : Chip :=
  Chip.onEntry q e.index (fun e => { e with started := true })
    { c with hif := { c.hif with turn := q + 1, startAt := some c.cmp.cycles } }

/-- Start the next entry of the queue pair whose turn it is, when its opcode is one that the command serves; at most one entry
starts in a core cycle (13 R354). -/
def startOp (q : QpId) (is : Nat → Bool) (f : QEntry → Sys → Sys) (y : Sys) : Sys :=
  match nextEntry (y.chip.qp q) with
  | some e =>
    if is (descOp e.bytes) && turnOf y.chip == some q && !(y.chip.map.run && startBusy y.chip) then
      let y := if startBusy y.chip then y.awaitCycle (y.chip.cmp.cycles + 1) else y
      f { e with started := true } (y.onChip (markStart q e))
    else y
  | none => y

/-- Start an entry of one opcode: INVALID, or its effect. -/
def serveOp (q : QpId) (op : Nat) (f : QEntry → Sys → Sys) (s : State) : Result :=
  onSys (startOp q (fun o => o == op) fun e y =>
    if descValid y.chip.map.vc e.bytes then f e y else y.onChip (endEntry q e 5 0 0 0)) s

/-! DMA reads (13 R368). -/

/-- Send a DMA read for an entry. -/
def dmaRead (q : QpId) (index addr len : Nat) (fetch : Bool) (y : Sys) : Sys :=
  (y.onChip fun c => { c with hif := { c.hif with reads := c.hif.reads ++ [⟨q, index, fetch, addr, len⟩] } }).emit
    (.hostRead addr len)

/-- The oldest outstanding read of a queue pair, and the interface without it. -/
def takeRead (q : QpId) (c : Chip) : Option (DmaRead × Chip) :=
  match c.hif.reads.find? fun r => r.qp == q with
  | none => none
  | some r => some (r, { c with hif := { c.hif with reads := c.hif.reads.eraseP fun r => r.qp == q } })

/-! Global transfers (10 R259-R261; 13 R357). -/

/-- Pieces (offset, length) of a range: registers by word, everything else within a line (10 R260). -/
def segmentPieces (off n : Nat) : List (Nat × Nat) :=
  (linePieces off n).flatMap fun p =>
    if 0x60000000 ≤ p.1 && p.1 < 0x60010000 then (List.range (p.2 / 4)).map fun i => (p.1 + 4 * i, 4) else [p]

/-- A line image with bytes put from byte `i` on. -/
def lineImage (i : Nat) (bs : List Byte) : Line := Line.ofBytes (List.replicate i 0 ++ bs)

/-- The segments of a transfer; a write's data is all there. -/
def segmentsOf (q : QpId) (e : QEntry) (write : Bool) : List Segment :=
  let t := descTaddr e.bytes
  let off := t % 2 ^ 31
  (segmentPieces off (descLen e.bytes)).map fun p =>
    { qp := q, entry := e.index, write := write, dest := BitVec.ofNat 13 (t / 2 ^ 31), line := p.1 / 256,
      first := p.1 % 256, last := p.1 % 256 + p.2 - 1,
      data := if write then lineImage (p.1 % 256) ((e.data.drop (p.1 - off)).take p.2) else Line.zero, pos := p.1 - off }

/-- R259: bits [63:44] zero, and the range within one chip's offset space. -/
def globalOk (d : List Byte) : Bool :=
  let t := descTaddr d
  t < 2 ^ 44 && t % 2 ^ 31 + descLen d ≤ 2 ^ 31

/-- Hand a transfer's segments to the host engine. -/
def queueSegments (q : QpId) (e : QEntry) (write : Bool) (c : Chip) : Chip :=
  let segs := segmentsOf q e write
  let c := { c with fab := { c.fab with waiting := c.fab.waiting ++ segs } }
  c.onEntry q e.index fun e => { e with left := segs.length }

/-- The completion of a global transfer all of whose segments have their response (13 R357; 10 R274). -/
def endGlobal (q : QpId) (e : QEntry) (c : Chip) : Chip :=
  let t := descTaddr e.bytes
  match e.cut, e.bad with
  | some n, some b => endEntry q e 4 n (t + b.1) 0 c
  | some n, none => endEntry q e 4 n 0 0 c
  | none, some b => endEntry q e b.2 b.1 (t + b.1) 0 c
  | none, none => endEntry q e 0 (descLen e.bytes) 0 0 c

/-- The first failed segment in address order. -/
def worse (old : Option (Nat × Nat)) (pos status : Nat) : Option (Nat × Nat) :=
  match old with
  | some b => if b.1 ≤ pos then some b else some (pos, status)
  | none => some (pos, status)

/-- Completion status of a transaction status (10 Table 10-5; 13 Table 13-9). -/
def xferStatus (s : Nat) : Nat :=
  match s with
  | 0 => 0
  | 1 => 14
  | 2 => 15
  | 3 => 16
  | _ => 18

/-- A segment ends with a completion status; a read's bytes go to host memory (13 R357). -/
def segmentDone (g : Segment) (status : Nat) (data : Line) (y : Sys) : Sys :=
  match findEntry (y.chip.qp g.qp) g.entry with
  | none => y
  | some e =>
    let y := if !g.write && (status == 0 || status == 18) then
        y.emit (.hostWrite (BitVec.ofNat 64 (descHaddr e.bytes + g.pos)) ((data.bytes.drop g.first).take (g.last + 1 - g.first)))
      else y
    let e := { e with left := e.left - 1, bad := if status == 0 then e.bad else worse e.bad g.pos status }
    y.onChip fun c =>
      let c := c.onEntry g.qp e.index fun _ => e
      if e.left == 0 then endGlobal g.qp e c else c

/-! The commit rule of a cancel (10 R274). -/

/-- The segment belongs to the transfer. -/
def ofTransfer (q : QpId) (index : Nat) (g : Segment) : Bool := g.qp == q && g.entry == index

/-- A host frame is a request or its data of one of these own transactions. -/
def frameOfTags (self : Nat) (tags : List Nat) (f : Frame) : Bool :=
  opOf f.msg ≤ 2 && natField f.msg.toNat 18 13 == self && tags.contains (natField f.msg.toNat 31 8)

/-- Remove every segment of a transfer that has not committed, from the engine and from the egress queues: the chip, and
the bytes removed with their number. -/
def cancelTransfer (q : QpId) (index : Nat) (c : Chip) : Chip × Nat × Nat :=
  let f := c.fab
  let open_ := f.txns.filter fun x => ofTransfer q index x.seg && x.wonAt.isNone
  let gone := (open_.map fun x => x.seg) ++ f.waiting.filter (ofTransfer q index)
  let tags := open_.map fun x => x.tag
  let size := fun (g : Segment) => g.last + 1 - g.first
  ({ c with fab := { f with
      waiting := f.waiting.filter fun g => !ofTransfer q index g,
      txns := f.txns.filter fun x => !(ofTransfer q index x.seg && x.wonAt.isNone),
      ports := f.ports.map fun (x : Port) => { x with host := x.host.filter fun h => !frameOfTags c.self tags h } } },
    gone.length, (gone.map size).sum)

end Sys2Proof.Machine
end

