-- ==== Sys2Proof/Machine/LinkFlow.lean ====
section
/-! DEFINITION. Frames in and out of a port that is UP (09 R228, 10 R268), and what a partner's XOFF does to a STRICT run
(11 R310). -/

namespace Sys2Proof.Machine

/-- With STRICT set, a hold that a partner's XOFF would cause aborts the run with cause LATE and source 28 (11 R310). -/
def strictXoff (c : Chip) : Chip :=
  if c.map.run && c.time.strict && c.fab.ports.toList.any (fun x => x.holdReq) then
    let c := { c with fab := { c.fab with ports := c.fab.ports.map fun (x : Port) => { x with holdReq := false } } }
    startAbort 7 (c.raise 28 .chip)
  else c

/-- Corrected bytes are counted for the lanes that carried them; every lane over FAIL_THRESH fails (09 R228, R242). -/
def countFixed (p : PortId) (fixed : List Nat) (now : Nat) (c : Chip) : Chip :=
  let c := c.onPort p fun x => fixed.foldl countCorrection (rollLaneMs now x)
  let worn := lanesOver (c.port p)
  if worn == 0 then c else goRetrain p now (c.onPort p fun x => { x with failed := x.failed ||| worn })

/-- FRAME_RECEIVE: FEC, then CRC, on a port that is UP; in RETRAIN corrected bytes are counted, and no frame is taken (09 R227,
R228, R242, R245). -/
def execFrameReceive (p : PortId) (bytes : List Byte) (s : State) : Result :=
  onSys (fun y => y.onChip fun c =>
    let x := c.port p
    if x.carries then
      let r := fecDecode bytes
      let c := if x.st != .up then c
        else if r.ok then receiveFrame p r.bytes y.now c
        else c.onPort p (rejectFrame y.now)
      strictXoff (countFixed p r.fixed y.now c)
    else c) s

/-- EGRESS_ARBITRATION: one frame time of a port (10 R268). Lines for a port that is not UP are discarded (10 R257). -/
def execEgressArbitration (p : PortId) (s : State) : Result :=
  onSys (fun y => (egressFrame p (y.onChip deliverPorts)).onChip strictXoff) s

end Sys2Proof.Machine
end

