-- ==== Sys2Proof/Machine/FabricMsg.lean ====
section
/-! DEFINITION. Fabric messages (10): scheduled lines at a port's ingress (R254-R257; 11 R304), the host engine, the responder
and routing of host-injected frames (R260-R267), and management frames (R252). -/

namespace Sys2Proof.Machine

/-! Scheduled lines (10 R254-R257; 11 R304). -/

/-- A frame of a KIND. -/
def isKind (kind : Nat) (i : InFrame) : Bool := kindOf i.frame.msg == kind

/-- A frame of a KIND that has reached the link-side ingress. -/
def heldKind (kind : Nat) (i : InFrame) : Bool := isKind kind i && i.gate.isSome

/-- The oldest frame of a KIND in a port's ingress. -/
def firstOfKind (kind : Nat) (x : Port) : Option InFrame := x.ingress.find? (heldKind kind)

/-- The ingress without its oldest frame of a KIND. -/
def popKind (kind : Nat) (x : Port) : Port := ingressXoff { x with ingress := x.ingress.eraseP (heldKind kind) }

/-- A line passed on by a port: on to the next port through the transit switch, or to its channel, 10 cycles after the line
(08 R212); discarded out of run state (10 R257), or with source 27 (10 R255). -/
def passOn (p : PortId) (f : Frame) (c : Chip) : Chip :=
  let m := f.msg.toNat
  let at_ := c.map.attach p
  match nextHop (routeOf f.msg) with
  | some (out, r) => portPut out true (at_.1 * c.map.vc + at_.2) f.payload (withRoute f.msg r) 0 c
  | none =>
    if !c.map.run then c.onPort p fun x => { x with dropCount := satInc x.dropCount }
    else if natField m 4 13 != c.self then c.routeError 5 p.val 0
    else if c.map.vc ≤ natField m 21 5 then c.routeError 6 p.val 0
    else edgeSend true true at_.1 at_.2 (natField m 17 4 * c.map.vc + natField m 21 5) (Fin.ofNat 4 (natField m 26 2)) f.payload 10 c

/-- A scheduled line whose gate is open (11 R304). -/
def openLine (i : InFrame) : Bool := isKind 0 i && i.gate == some 0

/-- Pass on the oldest scheduled line of a port whose gate is open: a line that needs no wait passes one that is kept (11
R304; log entry 35). -/
def passFirst (p : PortId) (c : Chip) : Chip :=
  match (c.port p).ingress.find? openLine with
  | none => c
  | some i => passOn p i.frame (c.onPort p fun x => ingressXoff { x with ingress := x.ingress.eraseP openLine })

/-- SCHEDULED_LINE_ARRIVAL: the oldest scheduled line that a port has received, at the end of its receive pad (08 R213). -/
def execScheduledLineArrival (p : PortId) (s : State) : Result :=
  onSys (fun y => (y.awaitFrame p (isKind 0)).onChip fun c => strictXoff (passFirst p c)) s

/-- ARRIVAL_GATE_RELEASE: a line whose chip has issued g further cycles (11 R304). -/
def execArrivalGateRelease (p : PortId) (s : State) : Result := onChip (fun c => strictXoff (passFirst p c)) s

/-! Host-injected frames (10 Table 10-2). -/

def hostFrame (op dest src tag status hops : Nat) (payload : Line) : Frame :=
  { typ := 1, payload := payload,
    msg := BitVec.ofNat 64 (1 + op * 2 ^ 2 + dest % 2 ^ 13 * 2 ^ 5 + src % 2 ^ 13 * 2 ^ 18 + tag % 256 * 2 ^ 31
      + status % 8 * 2 ^ 39 + hops % 64 * 2 ^ 42) }

def destOf (f : Frame) : Nat := natField f.msg.toNat 5 13
def srcOf (f : Frame) : Nat := natField f.msg.toNat 18 13
def tagOf (f : Frame) : Nat := natField f.msg.toNat 31 8
def statusOf (f : Frame) : Nat := natField f.msg.toNat 39 3
def hopsOf (f : Frame) : Nat := natField f.msg.toNat 42 6

/-- The payload of a request (10 section 4). -/
def requestLine (g : Segment) : Line :=
  Line.ofBytes (leBytes 4 (g.line * 256) ++ leBytes 1 g.first ++ leBytes 1 g.last)

/-- The port by which a frame for a chip leaves; none when a table says UNREACHABLE or every entry is LOCAL (10 R263). -/
def hostRoute (f : Fabric) (dest : Nat) : Option PortId :=
  let entries := [(f.rtX[dest % 4]?, 0), (f.rtY[dest / 4 % 4]?, 1), (f.rtZ[dest / 16 % 32]?, 2), (f.rtW[dest / 512 % 16]?, 3)]
  match entries.find? fun e => e.1 != some 0 with
  | some (some 1, d) => finOf 8 (2 * d)
  | some (some 2, d) => finOf 8 (2 * d + 1)
  | _ => none

/-- Where a host-injected frame goes from here. -/
inductive HostHop where
  | port (p : PortId)
  | full
  | unreachable
  deriving DecidableEq, Repr

/-- R263, for a frame that has travelled `hops` hops; `n` frames need room in the egress of 16 (10 Table 10-6). -/
def hostHop (c : Chip) (dest hops n : Nat) : HostHop :=
  match hostRoute c.fab dest with
  | none => .unreachable
  | some p =>
    if 63 ≤ hops || (c.port p).st != .up then .unreachable
    else if (c.port p).host.length + n ≤ 16 then .port p
    else .full

def putHost (p : PortId) (fs : List Frame) (c : Chip) : Chip := c.onPort p fun x => { x with host := x.host ++ fs }

/-- A response on its way to its source; where it cannot go it is discarded and counted (10 R263). None: no room yet. -/
def sendResponse (f : Frame) (c : Chip) : Option Chip :=
  match hostHop c (destOf f) (hopsOf f) 1 with
  | .port p => some (putHost p [hostFrame (opOf f.msg) (destOf f) (srcOf f) (tagOf f) (statusOf f) (hopsOf f + 1) f.payload] c)
  | .full => none
  | .unreachable => some { c with fab := { c.fab with hostDrop := satInc c.fab.hostDrop } }

/-- The response to a request of another chip. -/
def responseTo (f : Frame) (write : Bool) (status : Nat) (payload : Line) : Frame :=
  hostFrame (if write then 4 else 3) (srcOf f) (srcOf f) (tagOf f) status 0 payload

/-- The oldest host-injected frame of a port, when it is of an OP. -/
def hostFirst (op : Nat) (x : Port) : Option Frame :=
  match firstOfKind 1 x with
  | some i => if opOf i.frame.msg == op then some i.frame else none
  | none => none

/-- Forward a frame that is not for this chip: a request that cannot go on is answered UNREACHABLE; its data is dropped. -/
def forwardHost (p : PortId) (f : Frame) (c : Chip) : Chip :=
  let gone := c.onPort p (popKind 1)
  match hostHop c (destOf f) (hopsOf f) 1 with
  | .port out =>
    putHost out [hostFrame (opOf f.msg) (destOf f) (srcOf f) (tagOf f) (statusOf f) (hopsOf f + 1) f.payload] gone
  | .full => c
  | .unreachable =>
    match opOf f.msg with
    | 0 => (sendResponse (responseTo f false 3 Line.zero) gone).getD c
    | 1 => (sendResponse (responseTo f true 3 Line.zero) gone).getD c
    | 2 => gone
    | _ => { gone with fab := { gone.fab with hostDrop := satInc gone.fab.hostDrop } }

/-! The responder (10 R260, R262). -/

/-- Whether a segment keeps R260. -/
def segmentOk (r : Region) (first last : Nat) : Bool :=
  first ≤ last && match r with
    | .regs _ => first % 4 == 0 && last == first + 3
    | .reserved => true
    | _ => first % 8 == 0 && last % 8 == 7

/-- Perform a read segment: status and the line with its bytes in place. -/
def performRead (line first last : Nat) (m : List Host.Cell) (y : Sys) : Nat × Line × Sys :=
  let off := line * 256 + first
  let r := regionOf y.chip.map.vc off
  if r == .reserved then (1, Line.zero, reservedAccess y)
  else if !segmentOk r first last then (1, Line.zero, y)
  else
    let x := readPiece m off (last + 1 - first) y
    (x.1, if x.1 == 0 || x.1 == 4 then lineImage first x.2.1 else Line.zero, x.2.2)

/-- Perform a write segment. -/
def performWrite (line first last : Nat) (data : Line) (m : List Host.Cell) (y : Sys) : Nat × List Host.Cell × Sys :=
  let off := line * 256 + first
  let r := regionOf y.chip.map.vc off
  if r == .reserved then (1, m, reservedAccess y)
  else if !segmentOk r first last then (1, m, y)
  else writePiece off ((data.bytes.drop first).take (last + 1 - first)) m y

def requestOffset (f : Frame) : Nat := f.payload.leNat 0 4 % 2 ^ 31 / 256

/-- Room in the responder's input (10 Table 10-6). -/
def responderFull (c : Chip) : Bool := 32 ≤ c.fab.responder.length

/-- A transaction joins the responder's input, in its order of arrival; a write replaces one of the same SRC and TAG whose data
has not come (10 R262, When events coincide). -/
def joinResponder (r : RespTxn) (f : Fabric) : Fabric :=
  { f with responder :=
      (f.responder.filter fun x => !(r.write && x.write && x.data.isNone && x.own == r.own && x.src == r.src && x.tag == r.tag)) ++ [r] }

/-- The request of a frame for this chip. -/
def requestOf (write : Bool) (f : Frame) (now : Nat) : RespTxn :=
  { src := BitVec.ofNat 13 (srcOf f), tag := tagOf f, write := write, line := requestOffset f,
    first := (f.payload.byte 4).toNat, last := (f.payload.byte 5).toNat, data := none, own := false, at_ := now }

/-- Data for a held write. -/
def giveData (own : Bool) (src : ChipNo) (tag : Nat) (l : Line) (f : Fabric) : Fabric :=
  { f with responder := f.responder.map fun x =>
      if x.write && x.data.isNone && x.own == own && x.src == src && x.tag == tag then { x with data := some l } else x }

/-- The access of one transaction: status, the line of a read, memory and the rest. -/
def performTxn (r : RespTxn) (m : List Host.Cell) (y : Sys) : Nat × Line × List Host.Cell × Sys :=
  if r.write then
    let w := performWrite r.line r.first r.last (r.data.getD Line.zero) m y
    (w.1, Line.zero, w.2.1, w.2.2)
  else
    let x := performRead r.line r.first r.last m y
    (x.1, x.2.1, m, x.2.2)

/-- The response frame of a transaction. -/
def responseOf (r : RespTxn) (status : Nat) (payload : Line) : Frame :=
  hostFrame (if r.write then 4 else 3) r.src.toNat r.src.toNat r.tag status 0 payload

def Chip.onTxns (f : List Txn → List Txn) (c : Chip) : Chip := { c with fab := { c.fab with txns := f c.fab.txns } }

/-- The oldest transaction with a property, changed. -/
def changeTxn (is : Txn → Bool) (f : Txn → Txn) : List Txn → List Txn
  | [] => []
  | x :: xs => if is x then f x :: xs else x :: changeTxn is f xs

/-- The answer goes to the own host engine, or on its way to its source. -/
def answerTxn (r : RespTxn) (status : Nat) (l : Line) (c : Chip) : Chip :=
  if r.own then
    c.onTxns (changeTxn (fun z => z.tag == r.tag) fun z => { z with answer := some (xferStatus status, l) })
  else (sendResponse (responseOf r status l) c).getD c

/-- The transaction at the front can be performed: its data is there, and its response has somewhere to go or to wait. -/
def canServe (r : RespTxn) (c : Chip) : Bool :=
  !(r.write && r.data.isNone) && (r.own || (sendResponse (responseOf r 0 Line.zero) c).isSome)

/-- The responder performs transactions from the front of its input on, in their order of arrival, as far as it can (10
R262, R266; log entry 61). -/
def serve : Nat → List Host.Cell → Sys → List Host.Cell × Sys
  | 0, m, y => (m, y)
  | n + 1, m, y =>
    match y.chip.fab.responder with
    | [] => (m, y)
    | r :: rest =>
      if canServe r y.chip then
        let x := performTxn r m (y.onChip fun c => { c with fab := { c.fab with responder := rest } })
        serve n x.2.2.1 (x.2.2.2.onChip (answerTxn r x.1 x.2.1))
      else (m, y)

def serveAll (m : List Host.Cell) (y : Sys) : List Host.Cell × Sys := serve y.chip.fab.responder.length m y

/-- Core cycle in which a frame reached its port's ingress. -/
def arrivedIn (c : Chip) (i : InFrame) : Nat := i.ready / corePeriod c.pwr.point

/-- No other port holds a request for this chip that came before this port's, or in one cycle with it at a lower port (10 R262). -/
def comesFirst (c : Chip) (p : PortId) (i : InFrame) : Bool :=
  allPorts.all fun q =>
    match firstOfKind 1 (c.port q) with
    | some j =>
      !(destOf j.frame == c.self && opOf j.frame.msg ≤ 2) || arrivedIn c i < arrivedIn c j
        || (arrivedIn c i == arrivedIn c j && p.val ≤ q.val)
    | none => true

/-- The request or the data of the oldest host-injected frame of a port, where it is for this chip. -/
def takeRequest (p : PortId) (op : Nat) (m : List Host.Cell) (y : Sys) : List Host.Cell × Sys :=
  match firstOfKind 1 (y.chip.port p) with
  | none => (m, y)
  | some i =>
    let f := i.frame
    if opOf f.msg != op then (m, y)
    else if destOf f != y.chip.self then (m, y.onChip (forwardHost p f))
    else if !comesFirst y.chip p i || (op ≤ 1 && responderFull y.chip) then (m, y)
    else
      serveAll m (y.onChip fun c =>
        let c := c.onPort p (popKind 1)
        { c with fab :=
            if op == 2 then giveData false (BitVec.ofNat 13 (srcOf f)) (tagOf f) f.payload c.fab
            else joinResponder (requestOf (op == 1) f y.now) c.fab })

/-! Own transactions (10 R261, R264, R265). -/

def ownTxn (c : Chip) (x : Txn) : Bool := x.seg.dest.toNat == c.self

/-- The lowest free tag, of 256. -/
def freeTag (f : Fabric) : Option Nat := (List.range 256).find? fun t => !(f.txns.any fun x => x.tag == t)

/-- SEGMENT_ISSUE: the oldest waiting segment becomes a transaction; its frames go to the egress of its route, unless it is
for the own responder; where it cannot go it completes UNREACHABLE (10 R261, R263, R264). A WDATA frame is queued right behind
its WREQ frame, once there is room for both (DESIGN CHOICE, log entry 106). -/
def issueSegment (y : Sys) : Sys :=
  let c := y.chip
  match c.fab.waiting, freeTag c.fab with
  | g :: rest, some tag =>
    let taken := { c with fab := { c.fab with waiting := rest } }
    let add := fun (c : Chip) => c.onTxns fun xs => xs ++ [⟨tag, g, none, none⟩]
    if g.dest.toNat == c.self then { y with chip := add taken }
    else
      let req := hostFrame (if g.write then 1 else 0) g.dest.toNat c.self tag 0 1 (requestLine g)
      let frames := if g.write then [req, hostFrame 2 g.dest.toNat c.self tag 0 1 g.data] else [req]
      match hostHop c g.dest.toNat 0 frames.length with
      | .port p => { y with chip := putHost p frames (add taken) }
      | .full => y
      | .unreachable => segmentDone g 16 Line.zero { y with chip := taken }
  | _, _ => y

def execSegmentIssue (s : State) : Result := onSys issueSegment s

/-- A transaction ends with a completion status (10 R265). -/
def endTxn (x : Txn) (status : Nat) (data : Line) (y : Sys) : Sys :=
  segmentDone x.seg status data (y.onChip fun c => c.onTxns fun xs => xs.filter fun z => z.tag != x.tag)

/-- The oldest own transaction that the responder has not taken, when it is a read or a write as asked. -/
def ownNext (write : Bool) (c : Chip) : Option Txn :=
  match c.fab.txns.find? fun x => ownTxn c x && x.wonAt.isNone with
  | some x => if x.seg.write == write then some x else none
  | none => none

/-- The responder takes the request of an own transaction without a port: its commit point (10 R264, R274). -/
def ownRequest (write : Bool) (m : List Host.Cell) (y : Sys) : List Host.Cell × Sys :=
  match ownNext write y.chip with
  | none => (m, y)
  | some x =>
    if responderFull y.chip then (m, y)
    else
      serveAll m (y.onChip fun c =>
        let c := c.onTxns (changeTxn (fun z => z.tag == x.tag) fun z => { z with wonAt := some y.now })
        { c with fab := joinResponder { src := x.seg.dest, tag := x.tag, write := write, line := x.seg.line,
                                        first := x.seg.first, last := x.seg.last, data := none, own := true,
                                        at_ := y.now } c.fab })

/-- The data of the oldest own write that waits for it. -/
def ownData (m : List Host.Cell) (y : Sys) : List Host.Cell × Sys :=
  let c := y.chip
  match c.fab.responder.find? fun r => r.own && r.write && r.data.isNone with
  | none => (m, y)
  | some r => match c.fab.txns.find? fun x => x.tag == r.tag with
    | none => (m, y)
    | some x => serveAll m (y.onChip fun c => { c with fab := giveData true r.src r.tag x.seg.data c.fab })

/-- RREQ: routed, or served by the responder (10 R262-R264). -/
def execRreq (path : HostPath) (s : State) : Result :=
  onMemSys (fun m y => match path with
    | .own => ownRequest false m y
    | .port p => takeRequest p 0 m (y.awaitFrame p (isKind 1))) s

/-- WREQ: routed, or held by the responder until its WDATA (10 R262). -/
def execWreq (path : HostPath) (s : State) : Result :=
  onMemSys (fun m y => match path with
    | .own => ownRequest true m y
    | .port p => takeRequest p 1 m (y.awaitFrame p (isKind 1))) s

/-- WDATA: routed, or completes a held write request; data with no request is discarded (10 R262). -/
def execWdata (path : HostPath) (s : State) : Result :=
  onMemSys (fun m y => match path with
    | .own => ownData m y
    | .port p => takeRequest p 2 m (y.awaitFrame p (isKind 1))) s

/-- A response of the own responder is taken by the engine. -/
def ownResponse (write : Bool) (y : Sys) : Sys :=
  match y.chip.fab.txns.find? fun x => x.answer.isSome && x.seg.write == write with
  | some x => match x.answer with
    | some a => endTxn x a.1 a.2 y
    | none => y
  | none => y

/-- A response for this chip: it completes its transaction, or is discarded and counted when the tag is free (10 R265). -/
def takeResponse (write : Bool) (p : PortId) (f : Frame) (y : Sys) : Sys :=
  let y := y.onChip fun c => c.onPort p (popKind 1)
  match y.chip.fab.txns.find? fun x => x.tag == tagOf f && x.seg.write == write && x.wonAt.isSome && !ownTxn y.chip x with
  | some x => endTxn x (xferStatus (statusOf f)) f.payload y
  | none => y.onChip fun c => { c with fab := { c.fab with hostDrop := satInc c.fab.hostDrop } }

/-- The response at the head of a port's host-injected frames: routed, or for this chip. -/
def passResponse (write : Bool) (p : PortId) (y : Sys) : Sys :=
  match hostFirst (if write then 4 else 3) (y.chip.port p) with
  | none => y
  | some f => if destOf f == y.chip.self then takeResponse write p f y else y.onChip (forwardHost p f)

/-- RRESP: routed, or completes its transaction (10 R265). -/
def execRresp (path : HostPath) (s : State) : Result :=
  onSys (fun y => match path with
    | .own => ownResponse false y
    | .port p => passResponse false p (y.awaitFrame p (isKind 1))) s

/-- WRESP: routed, or completes its transaction (10 R265). -/
def execWresp (path : HostPath) (s : State) : Result :=
  onSys (fun y => match path with
    | .own => ownResponse true y
    | .port p => passResponse true p (y.awaitFrame p (isKind 1))) s

/-- FAB_HOST_CTL.TIMEOUT in units of `now`. -/
def hostLimit (c : Chip) : Nat := Config.us (max 1 c.fab.hostTimeout.toNat)

/-- TRANSACTION_TIMEOUT: no response within TIMEOUT of its request winning arbitration (10 R265). -/
def execTransactionTimeout (tag : Fin 256) (s : State) : Result :=
  onSys (fun y =>
    match y.chip.fab.txns.find? fun x => x.tag == tag.val with
    | none => y
    | some x => match x.wonAt with
      | some t => endTxn x 17 Line.zero (y.await (t + hostLimit y.chip))
      | none => y) s

/-- WREQ_TIMEOUT: a held request whose data has not come within TIMEOUT is discarded with no response, and those behind it go
on (10, When events coincide). -/
def execWreqTimeout (src : ChipNo) (tag : Fin 256) (s : State) : Result :=
  onMemSys (fun m y =>
    let isIt := fun (r : RespTxn) => r.write && r.data.isNone && r.src == src && r.tag == tag.val
    match y.chip.fab.responder.find? isIt with
    | none => (m, y)
    | some r =>
      serveAll m ((y.await (r.at_ + hostLimit y.chip)).onChip fun c =>
        { c with fab := { c.fab with responder := c.fab.responder.eraseP isIt } })) s

/-! Management frames (10 R252). -/

/-- A management frame of KIND 3 whose other message bits, and payload, are the firmware's. -/
def mgmtFrame (msg : Dword) (payload : Line) : Frame := { typ := 1, payload := payload, msg := msg ||| 3 }

/-- MANAGEMENT_FRAME: the CSC sends a frame to its partner's, by an UP port whose queue of 4 has room; or it takes the oldest
one that a port has received. -/
def execManagementFrame (p : PortId) (send : Option (Dword × Line)) (s : State) : Result :=
  onSys (fun y =>
    let x := y.chip.port p
    match send with
    | some l =>
      if x.st == .up && x.mgmt.length < 4 && cscRuns y.chip then
        y.onChip fun c => c.onPort p fun x => { x with mgmt := x.mgmt ++ [mgmtFrame l.1 l.2] }
      else y
    | none =>
      let y := y.awaitFrame p (isKind 3)
      match firstOfKind 3 (y.chip.port p) with
      | none => y
      | some i =>
        let y := y.onChip fun c => c.onPort p (popKind 3)
        if cscRuns y.chip then y.emit (.csc p i.frame.msg i.frame.payload) else y) s

end Sys2Proof.Machine
end

