-- ==== Sys2Proof/Machine/Faults.lean ====
section
/-! DEFINITION. The commands of the two fault collectors (15), of the CRC engine (14), and the return of the PCIe link (13
R371). -/

namespace Sys2Proof.Machine

/-! The tray collector (15 R411, R412). IRQ, COOL, ALL_OFF and the OWNER action on PWR_EN hold while their bit stays set, so
they are read off the latches (TrayOps.lean); OWNER of a stuck bus starts a recovery. -/

/-- The bus whose stuck source has the OWNER bit in a set just applied (15 Table 15-6). -/
def recoveryOf (r : Reaction) : Option BusId :=
  if r.bits.toNat.testBit 2 && 49 ≤ r.src.val then finOf 6 (r.src.val - 49) else none

def trayReact (rs : List Reaction) (y : Sys) : Sys := (rs.filterMap recoveryOf).dedup.foldl (fun y b => recoverBus b y) y

/-- Every waiting raise of the tray collector latches (15 R396, R411). -/
def latchTray (y : Sys) : Sys :=
  let t := y.tray
  let r := latchAll .tray y.now (BitVec.ofNat 64 (t.micros y.now)) t.fc
  trayReact r.2 (y.onTray fun t => { t with fc := r.1 })

/-- FAULT_LATCH. -/
def execFaultLatch (c : CollectorId) (s : State) : Result :=
  onBoard (match c with
    | .chip => latchChip
    | .tray => latchTray) s

/-- The collector of a side. -/
def collectorOf (c : CollectorId) (y : Sys) : Collector :=
  match c with
  | .chip => y.chip.fc
  | .tray => y.tray.fc

def setCollector (c : CollectorId) (k : Collector) (y : Sys) : Sys :=
  match c with
  | .chip => y.onChip fun c => { c with fc := k }
  | .tray => y.onTray fun t => { t with fc := k }

/-- ESCALATION_TIMER_EXPIRY: the timer that runs comes to its end (15 R403). -/
def escalate (c : CollectorId) (i : SourceId) (y : Sys) : Sys :=
  let x := (collectorOf c y).src[i]
  match x.status, x.timer with
  | true, some t =>
    let y := y.await (t + escTime x.escTimer.toNat)
    let r := (collectorOf c y).escalate i y.now
    let y := setCollector c r.1 y
    match c with
    | .chip => applyReactions r.2 y
    | .tray => trayReact r.2 y
  | _, _ => y

def execEscalationTimerExpiry (c : CollectorId) (i : SourceId) (s : State) : Result := onBoard (escalate c i) s

/-- AUTO_CLEAR: a latched AUTO source whose line is quiet reaches the end of its quiet period (15 R405). -/
def autoClear (c : CollectorId) (i : SourceId) (y : Sys) : Sys :=
  let x := (collectorOf c y).src[i]
  let y := y.awaitIf (x.status && !x.resetOnly && !x.line) (x.lastAct + quietTime x.quiet.toNat)
  setCollector c ((collectorOf c y).autoClear i y.now) y

def execAutoClear (c : CollectorId) (i : SourceId) (s : State) : Result := onBoard (autoClear c i) s

/-- A register of a collector, at its offset from the block's base. -/
def collectorWrite (c : CollectorId) (o : Nat) (v : Word) (y : Sys) : Sys :=
  match c with
  | .chip => chipWrite (0x1000 + o) v y
  | .tray => writeBoard (0x1000 + o) v y

/-- FC_ACK: FC_ACK_LO or FC_ACK_HI (15 R404). Without a running card nobody acknowledges a tray source (15 R413). -/
def execFcAck (c : CollectorId) (hi : Bool) (mask : Word) (s : State) : Result :=
  onBoard (collectorWrite c (if hi then 0x0C else 0x08) mask) s

/-- FC_INJECT (15 R414). -/
def execFcInject (c : CollectorId) (value : Word) (s : State) : Result := onBoard (collectorWrite c 0x2C value) s

/-- FC_SRC_CFG_WRITE: FC_SRCn_CFG (15 R408, R409). -/
def execFcSrcCfgWrite (c : CollectorId) (i : SourceId) (value : Word) (s : State) : Result :=
  onBoard (collectorWrite c (0x100 + 4 * i.val) value) s

/-! NMIs, the CSC and the clock (15 R398; 16). -/

/-- NMI_DELIVERY. -/
def execNmiDelivery (s : State) : Result := onChip deliverNmi s

/-- NMI_POP: MGT_NMI_POP (20 Table 20-6). -/
def execNmiPop (s : State) : Result := onBoard (chipWrite 0xF018 1) s

/-- CSC_WATCHDOG: the CSC is held until its BLOCK_RESET restarts it; source 49 (15 Tables 15-1 and 15-2, When events
coincide). -/
def execCscWatchdog (s : State) : Result :=
  onBoard (fun y => y.onChip fun c => { c with mgt := { c.mgt with cscReset := true } }.raise 49 .csc) s

/-- CLOCK_LOSS: source 48 (15 Table 15-1). -/
def execClockLoss (s : State) : Result := onBoard (fun y => y.onChip fun c => c.raise 48 .chip) s

/-! The CRC engine (14 section 6). -/

/-- CRC_START: MGT_CRC_CTL.START (14 R388). -/
def execCrcStart (s : State) : Result := onBoard (chipWrite 0xF800 1) s

/-- CRC_DONE: n + 8 core cycles for n lines, and a cycle more for each that waited for a port (14 R388 to R390); in run state
nothing ends before its cycle. -/
def execCrcDone (s : State) : Result :=
  onSysMem (fun m y =>
    let g := y.chip.mgt
    let due := g.crcAt + crcLines g + 8
    if g.crcBusy && (!y.chip.map.run || due ≤ y.chip.cmp.cycles) then settleTray (crcFinish m (y.awaitCycle due))
    else y) s

/-! The PCIe link (13 R371). -/

/-- What the link has trained at and what the host has set: some speed and width of R342, and some of the sizes that the
function supports (13 R342; log entry 108). -/
def trainedPcie (draw : Nat) (f : PcieFn) : PcieFn :=
  let n := Config.freeNat draw
  { f with speed := BitVec.ofNat 3 (1 + n % 5), width := BitVec.ofNat 3 (2 ^ (n / 5 % 3)),
           maxPayload := BitVec.ofNat 2 (n / 15 % 3), maxRead := BitVec.ofNat 3 (n / 45 % 6) }

/-- PCIE_LINK_UP: the link is up again, and host writes are no longer discarded, once HOST is on. -/
def execPcieLinkUp (s : State) : Result :=
  onSys (fun y =>
    if y.chip.domOn bitHost then
      let d := y.fresh
      d.2.onChip fun c =>
        { c with hif := { c.hif with linkUp := true, downRaised := false, pcie := trainedPcie d.1 c.hif.pcie } }
    else y) s

end Sys2Proof.Machine
end

