-- ==== Sys2Proof/Machine/HostIf.lean ====
section
/-! DEFINITION. The commands of the host interface: doorbells, DMA completions, descriptors, the host write path,
completions, queue pair states, the window, and resets of the function (13). -/

namespace Sys2Proof.Machine

/-! Doorbells (13 R347, R351, R352). -/

/-- Fetch the descriptor of an entry (13 R351). -/
def fetchEntry (q : QpId) (index : Nat) (y : Sys) : Sys :=
  let x := y.chip.qp q
  dmaRead q index (x.sqBase.toNat + 64 * (index % sqSize x)) 64 true y

/-- SQ_TAIL (13 R351). -/
def writeSqTail (q : QpId) (value : Word) (y : Sys) : Sys :=
  let x := y.chip.qp q
  let size := sqSize x
  let tail := value.toNat % 4096
  let count := sqCount x
  let after := (tail + size - x.sqHead % size) % size
  if tail < size && count ≤ after then
    let fresh := (List.range (after - count)).map fun i => x.next + i
    let y := y.onChip fun c => c.onQp q fun x => updateHead
      { x with sqTail := tail, next := x.next + (after - count),
               entries := if keepsEntries x then x.entries ++ fresh.map fun i => newEntry i none 0 else x.entries }
    if x.state == 1 then fresh.foldl (fun y i => fetchEntry q i y) y else y
  else y.onChip (Chip.hifErr 36 1 q)

def execSqTail (q : QpId) (value : Word) (s : State) : Result := onSys (writeSqTail q value) s

/-- CQ_HEAD: entries up to NEW_HEAD are free (13 R350). -/
def execCqHead (q : QpId) (value : Word) (s : State) : Result :=
  onChip (Chip.onQp q fun x => { x with cqHead := value.toNat % 4096 }) s

/-- A queue pair enters ERROR after a failed fetch, if it is ENABLED (13 R368). -/
def qpError (x : QueuePair) : QueuePair := if x.state == 1 then { x with state := 3 } else x

/-- A queue pair, whatever its state, enters ERROR after a bad push (13 R352). -/
def qpPushError (x : QueuePair) : QueuePair := { x with state := 3 }

/-- PUSH: a write to a doorbell page at an offset of the pushed window; elsewhere the page is reserved (13 R347, R352). -/
def writePush (q : QpId) (offset : Nat) (bytes : List Byte) (c : Chip) : Chip :=
  let x := c.qp q
  if offset < 0x40 || 0x80 ≤ offset then c
  else if offset != 0x40 || bytes.length != 64 then (c.hifErr 34 3 q).onQp q qpPushError
  else if !x.pushEn then (c.hifErr 34 4 q).onQp q qpPushError
  else if sqSize x - 1 ≤ sqCount x then c.hifErr 36 2 q
  else c.onQp q fun x => updateHead
    { x with sqTail := (x.sqTail + 1) % sqSize x, next := x.next + 1,
             entries := if keepsEntries x then x.entries ++ [newEntry x.next (some bytes) c.cmp.cycles] else x.entries }

def execPush (q : QpId) (offset : Nat) (bytes : List Byte) (s : State) : Result := onChip (writePush q offset bytes) s

/-! INPUT (13 section 5). -/

/-- The mailbox line of an INPUT (13 Tables 13-6, 13-7). -/
def mailLine (q : QpId) (e : QEntry) : Line :=
  let d := e.bytes
  let payload := (if descInline d then d.drop 16 else e.data).take (descLen d)
  let handle := descCid d + q.val * 2 ^ 16 + 2 ^ 31
  Line.ofBytes ([1, BitVec.ofNat 8 q.val] ++ leBytes 2 (descLen d) ++ leBytes 4 handle ++ leBytes 8 (descHaddr d)
    ++ List.replicate 16 0 ++ payload)

/-- Place an INPUT's line: readable 96 cycles after its last byte was there, and no sooner than the stages that follow its
release (01 R20, R21; 13 R359, Table 13-10). -/
def placeInput (q : QpId) (e : QEntry) (c : Chip) : Chip :=
  if !c.map.run then endEntry q e 6 0 0 0 c
  else if 16 ≤ c.hif.mailbox.length then endEntry q e 8 0 0 0 c
  else
    let x : MailLine := ⟨mailLine q e, max (e.at_ + 96) (c.cmp.cycles + 37), descAck e.bytes⟩
    let c := { c with hif := { c.hif with mailbox := c.hif.mailbox ++ [x], inputCount := satInc c.hif.inputCount } }
    dropEntry q e.index c

/-- INPUT: an inline payload is placed; another is first read from the host (13 R359). -/
def execInput (q : QpId) (s : State) : Result :=
  serveOp q 3 (fun e y =>
    let d := e.bytes
    if !y.chip.map.run then y.onChip (endEntry q e 6 0 0 0)
    else if 16 ≤ y.chip.hif.mailbox.length then y.onChip (endEntry q e 8 0 0 0)
    else if descInline d then y.onChip (placeInput q e)
    else dmaRead q e.index (descTaddr d) (descLen d) false y) s

/-! DMA completions (13 R368). -/

/-- All the data of an entry is there: its effect (13 Table 13-5). -/
def dataArrived (q : QpId) (e : QEntry) (m : List Host.Cell) (y : Sys) : List Host.Cell × Sys :=
  let d := e.bytes
  match descOp d with
  | 1 =>
    let status := rangeStatus y.chip (descTaddr d) (descLen d)
    if status != 0 then (m, y.onChip (endEntry q e status 0 0 0))
    else
      let r := writeRange (descTaddr d) e.data m y
      (r.1, r.2.onChip (endEntry q e 0 (descLen d) 0 0))
  | 3 => (m, y.onChip (placeInput q e))
  | 6 =>
    if (y.chip.qp q).state == 2 then (m, y.onChip (dropEntry q e.index))
    else (m, y.onChip (queueSegments q e true))
  | 10 =>
    if (y.chip.qp q).state == 2 then (m, y.onChip (dropEntry q e.index))
    else (m, y.onChip fun c =>
      submitSearch (Line.ofBytes e.data) (descNat d 24 4) (srchCount c) c.srch.work.toNat (.host q e.index) c)
  | _ => (m, y)

/-- Bytes for the oldest read of the queue pair. -/
def readArrived (q : QpId) (bytes : List Byte) (m : List Host.Cell) (y : Sys) : List Host.Cell × Sys :=
  match takeRead q y.chip with
  | none => (m, y)
  | some (r, c) =>
    let bs := bytes.take r.len
    let rest : DmaRead := { r with addr := r.addr + bs.length, len := r.len - bs.length }
    let done := rest.len == 0
    let c := if done then c else { c with hif := { c.hif with reads := rest :: c.hif.reads } }
    let c := c.onEntry q r.index fun e =>
      let e := { e with data := e.data ++ bs }
      if !done then e
      else if r.fetch then { e with desc := some e.data, data := [], at_ := c.cmp.cycles }
      else { e with at_ := c.cmp.cycles }
    let c := c.onQp q updateHead
    let y := { y with chip := c }
    match done && !r.fetch, findEntry (c.qp q) r.index with
    | true, some e => dataArrived q e m y
    | _, _ => (m, y)

/-- A read that failed: ERROR for a fetch, DMA_ERROR for data; source 35 (13 R368). -/
def readFailed (q : QpId) (y : Sys) : Sys :=
  match takeRead q y.chip with
  | none => y
  | some (r, c) =>
    let y := { y with chip := c }
    if r.fetch then y.onChip fun c => (c.onQp q qpError).hifErr 35 5 q
    else y.onChip fun c =>
      let c := match findEntry (c.qp q) r.index with
        | some e => endEntry q e 19 0 0 0 c
        | none => c
      c.hifErr 35 6 q

/-- HOST_READ_COMPLETION: for the oldest read of the queue pair (13 R351, R368). -/
def execHostReadCompletion (q : QpId) (result : ReadResult) (s : State) : Result :=
  onMemSys (fun m y => match result with
    | .data bytes => readArrived q bytes m y
    | _ => (m, readFailed q y)) s

/-- COMPLETION_TIMEOUT (13 R368). -/
def execCompletionTimeout (q : QpId) (s : State) : Result := onSys (readFailed q) s

/-! Descriptors (13 Table 13-5). -/

/-- NOP; a reserved opcode is answered INVALID here (13 R355; log entry 33). -/
def execNopDescriptor (q : QpId) (s : State) : Result :=
  onSys (startOp q (fun o => o == 0 || 12 ≤ o) fun e y =>
    y.onChip (endEntry q e (if descValid y.chip.map.vc e.bytes then 0 else 5) 0 0 0)) s

/-- WRITE: the range is checked before any byte moves, and then the data is read from the host. -/
def execWrite (q : QpId) (s : State) : Result :=
  serveOp q 1 (fun e y =>
    let d := e.bytes
    let status := rangeStatus y.chip (descTaddr d) (descLen d)
    if status != 0 then y.onChip (endEntry q e status 0 0 0)
    else dmaRead q e.index (descHaddr d) (descLen d) false y) s

/-- READ: every byte to host memory, then the completion; DATA_ERROR delivers the data uncorrected. -/
def execRead (q : QpId) (s : State) : Result :=
  onSysMem (fun m y => startOp q (fun o => o == 2) (fun e y =>
    let d := e.bytes
    if !descValid y.chip.map.vc d then y.onChip (endEntry q e 5 0 0 0)
    else
      let status := rangeStatus y.chip (descTaddr d) (descLen d)
      if status != 0 then y.onChip (endEntry q e status 0 0 0)
      else
        let r := readRange m (descTaddr d) (descLen d) y
        (r.2.2.emit (.hostWrite (BitVec.ofNat 64 (descHaddr d)) r.2.1)).onChip
          (endEntry q e (if r.1 then 18 else 0) (descLen d) 0 0)) y) s

/-- The status that refuses a LAUNCH, the lowest code first but BUSY_RUN before all; 0 accepts it (11 R295, 13 Table
13-9). -/
def launchRefusal (c : Chip) (l : Nat) : Nat :=
  if c.map.run then 7
  else if !c.time.arm then 9
  else if !c.map.ok then 10
  else if !c.time.locked then 11
  else if l < c.time.coreView.toNat + 50000 then 12
  else 0

/-- An accepted LAUNCH: the sequence number advances, the chip enters run state and pours (11 R295). -/
def acceptLaunch (q : QpId) (e : QEntry) (c : Chip) : Chip :=
  let l : Dword := BitVec.ofNat 64 (descHaddr e.bytes)
  let seq := c.time.launchSeq + 1
  let id : PourId := ⟨BitVec.ofNat 13 c.self, seq⟩
  let c := { c with time := { c.time with launchSeq := seq, seenLaunch := c.time.seenLaunch ++ [id] } }
  let c := enterRun l id c
  let c := pourOn 1 (launchFrame l c.time.imageId c.time.strict id) none c
  let c := c.onEntry q e.index fun e => { e with seq := seq.toNat }
  if descAck e.bytes then postCompletion q (descCid e.bytes) 2 0 0 0 c else c

/-- LAUNCH. -/
def execLaunch (q : QpId) (s : State) : Result :=
  serveOp q 4 (fun e y => y.onChip fun c =>
    match launchRefusal c (descHaddr e.bytes) with
    | 0 => acceptLaunch q e c
    | n => endEntry q e n 0 0 0 c) s

/-- STOP: an abort pour with cause STOP (11 R299). -/
def execStop (q : QpId) (s : State) : Result :=
  serveOp q 5 (fun e y => y.onChip fun c =>
    if c.map.run then endEntry q e 0 0 0 0 (startAbort 1 c) else endEntry q e 6 0 0 0 c) s

/-- The status that refuses a global transfer: REFUSED under R267, ADDR_FAULT under R259; 0 accepts it. -/
def globalRefusal (c : Chip) (d : List Byte) : Nat :=
  if c.map.run && c.time.strict then 15 else if globalOk d then 0 else 14

/-- GLOBAL_WRITE: the data is read from the host, and then goes out in segments. -/
def execGlobalWrite (q : QpId) (s : State) : Result :=
  serveOp q 6 (fun e y =>
    let d := e.bytes
    let status := globalRefusal y.chip d
    if status != 0 then y.onChip (endEntry q e status 0 0 0)
    else dmaRead q e.index (descHaddr d) (descLen d) false y) s

/-- GLOBAL_READ. -/
def execGlobalRead (q : QpId) (s : State) : Result :=
  serveOp q 7 (fun e y => y.onChip fun c =>
    let status := globalRefusal c e.bytes
    if status != 0 then endEntry q e status 0 0 0 c else queueSegments q e false c) s

/-- The outstanding global transfer that a CANCEL names. -/
def cancelTarget (x : QueuePair) (cid : Nat) : Option QEntry :=
  x.entries.find? fun e => e.started && (descOp e.bytes == 6 || descOp e.bytes == 7) && descCid e.bytes == cid && e.cut.isNone

/-- Number of segments of a transfer. -/
def segmentCount (e : QEntry) : Nat := (segmentPieces (descTaddr e.bytes % 2 ^ 31) (descLen e.bytes)).length

/-- CANCEL (10 R274, 13 section 7): a transfer none of whose segments is left completes at once. -/
def execCancel (q : QpId) (s : State) : Result :=
  serveOp q 8 (fun e y => y.onChip fun c =>
    let tq : QpId := (finOf 32 (descByte e.bytes 26)).getD 0
    match cancelTarget (c.qp tq) (descNat e.bytes 24 2) with
    | none => endEntry q e 21 0 0 0 c
    | some t =>
      let reading := c.hif.reads.any fun r => r.qp == tq && r.index == t.index
      let r := cancelTransfer tq t.index c
      let gone := if reading then segmentCount t else r.2.1
      let bytes := descLen t.bytes - (if reading then descLen t.bytes else r.2.2)
      if gone == 0 then endEntry q e 3 0 0 0 c
      else
        let t := { t with cut := some bytes, left := t.left - r.2.1 }
        let c := r.1.onEntry tq t.index fun _ => t
        let c := if reading || t.left == 0 then endGlobal tq t c else c
        endEntry q e 0 (segmentCount t - gone) bytes 0 c) s

/-- FENCE: it starts, and completes, when every earlier entry is done; an INVALID one completes at once (13 R355). -/
def execFence (q : QpId) (s : State) : Result := serveOp q 9 (fun e y => y.onChip (endEntry q e 0 0 0 0)) s

/-- SEARCH: the request line is read from the host, and then submitted (13 R358). -/
def execSearch (q : QpId) (s : State) : Result :=
  serveOp q 10 (fun e y =>
    if y.chip.map.run then y.onChip (endEntry q e 7 0 0 0)
    else if !y.chip.domOn bitSrch then
      y.onChip fun c => endEntry q e 15 0 0 0 { c with srch := { c.srch with refused := satInc c.srch.refused } }
    else dmaRead q e.index (descHaddr e.bytes) 256 false y) s

/-- TIME_QUERY: core view, lag and TIME_STATUS. -/
def execTimeQuery (q : QpId) (s : State) : Result :=
  serveOp q 11 (fun e y => y.onChip fun c =>
    endEntry q e 0 c.time.coreView.toNat c.time.lag.toNat (timeStatus c).toNat c) s

/-! The host write path (13 R361, R363; 06 R172-R174). -/

/-- Lines that have reached the host-attached tile's edge enter the write path; a line that finds it full is lost with
source 1, QUEUE 7 (06 R174), and one that comes while the link is down is discarded (13 R371). -/
def takeHostLines (c : Chip) : Chip :=
  let c := meshAdvance c
  let due := fun (l : MeshLine) => match l.dst with
    | .host _ _ _ => arrived c l
    | _ => false
  let ls := byArrival c (c.cmp.mesh.lines.filter due)
  let c := { c with cmp := { c.cmp with mesh := { c.cmp.mesh with lines := c.cmp.mesh.lines.filter fun l => !due l } } }
  ls.foldl (fun c l => match l.dst with
    | .host addr bcnt handle =>
      let n := bcnt.toNat + 1
      if !c.hif.linkUp then dropWrite handle c
      else if 16 ≤ c.hif.writes.length then c.tileEvent l.src 1 7
      else
        let at_ := if c.map.run then c.cmp.cycles - sinceArrival c l else l.arrive
        putWrite { addr := addr, bytes := l.line.bytes.take n, handle := handle, due := at_ + exitCycles c n,
                   issued := l.issued, src := l.src, ends := none } c
    | _ => c) c

/-- A host line that issued before a write is still on its way to the path: in a send queue, or in the mesh (13 R363). -/
def hostAhead (c : Chip) (w : HostWrite) : Bool :=
  let first := fun (issued src : Nat) => issued < w.issued || (issued == w.issued && src < w.src)
  c.cmp.mesh.lines.any (fun l => match l.dst with
    | .host _ _ _ => first l.issued l.src
    | _ => false)
  || (List.range (16 * c.map.vc)).any fun v => match c.map.phys v with
    | some p => (c.tile p).sendq.any fun x => match x.dst with
      | .host _ _ _ => first x.issued v
      | _ => false
    | none => false

/-- The completion that an HWRITE asks for, 4 cycles after its last byte (13 R361, R363). -/
def handleCompletion (handle : Word) (view : Dword) (c : Chip) : Chip :=
  let q := handleQp handle
  if handle.toNat.testBit 31 && (c.qp q).state == 1 then
    postFrom (c.cmp.cycles + 4) q (handle.toNat % 2 ^ 16) 0 view.toNat c.self 0 c
  else c.hifErr 34 8 q

/-- Out of run state the send queues, of 8 lines at most, empty into the path. -/
def drainHost (c : Chip) : Chip := (List.range 9).foldl (fun c _ => takeHostLines c) c

/-- The completion that a write asks for, or the SEARCH entry that ends behind it (13 R358, R361, R364). -/
def endWrite (w : HostWrite) (c : Chip) : Chip :=
  let c := match w.handle with
    | some h => handleCompletion h.1 h.2 c
    | none => c
  match w.ends with
  | some (q, i, r0, r1) => match findEntry (c.qp q) i with
    | some e => endEntry q e 0 r0 r1 0 c
    | none => c
  | none => c

/-- HOST_WRITE_SEND: of the HWRITEs issued, and the search results, the earliest goes to the link layer, 80 cycles after it
reached the path, then its completion; while the link is down both are discarded and counted (01 R35; 08 R216; 13 R363, R371).
In run state nothing goes before its cycle, nor before a write that issued earlier. -/
def execHostWriteSend (s : State) : Result :=
  onSys (fun y =>
    let y := y.onChip fun c => if c.map.run then takeHostLines c else drainHost c
    match y.chip.hif.writes with
    | [] => y
    | w :: rest =>
      if y.chip.map.run && (y.chip.cmp.cycles < w.due || hostAhead y.chip w) then y else
      let y := (y.awaitCycle w.due).onChip fun c => { c with hif := { c.hif with writes := rest } }
      if y.chip.hif.linkUp then (y.emit (.hostWrite w.addr w.bytes)).onChip (endWrite w)
      else y.onChip fun c => match w.ends with
        | some _ => endWrite w (dropWrite w.handle c)
        | none => dropWrite w.handle c) s

/-! Completions (13 R350, R364, R366). -/

/-- The 32 bytes of a completion (13 Table 13-8). -/
def completionBytes (x : QueuePair) (c : Completion) : List Byte :=
  leBytes 2 c.cid ++ leBytes 1 c.status ++ [if x.phase then 1 else 0] ++ leBytes 2 x.sqHead ++ leBytes 2 0
    ++ leBytes 8 c.r0 ++ leBytes 8 c.r1 ++ leBytes 8 c.r2

/-- The CQ tail advances; PHASE inverts on each pass (13 R350). -/
def advanceCq (now : Nat) (x : QueuePair) : QueuePair :=
  let tail := (x.cqTail + 1) % cqSize x
  { x with cqTail := tail, phase := if tail == 0 then !x.phase else x.phase, irqCount := x.irqCount + 1,
           irqSince := match x.irqSince with
             | some t => some t
             | none => some now }

/-- COMPLETION_POST: the oldest waiting completion of the queue pair, while its CQ has room; then the MSI-X message of
THRESH (13 R364, R366, R369). -/
def execCompletionPost (q : QpId) (s : State) : Result :=
  onSys (fun y =>
    let x := y.chip.qp q
    match y.chip.hif.cbuf.find? fun e => e.qp == q with
    | none => y
    | some e =>
      if cqFull x || !qpPosts x || (y.chip.map.run && y.chip.cmp.cycles < e.due) then y
      else
        let y := y.awaitCycle e.due
        let addr := x.cqBase.toNat + 32 * x.cqTail
        let y := y.emit (.hostWrite (BitVec.ofNat 64 addr) (completionBytes x e))
        checkThresh q (y.onChip fun c =>
          Chip.onQp q (advanceCq y.now)
            { c with hif := { c.hif with cbuf := c.hif.cbuf.eraseP fun e => e.qp == q } })) s

/-- INTERRUPT_TIMER: TIMER µs since the oldest completion not signalled (13 R366). -/
def execInterruptTimer (q : QpId) (s : State) : Result :=
  onSys (fun y =>
    let x := y.chip.qp q
    match x.irqSince with
    | some t => if x.irqEn && x.irqTimer != 0 then fireQp q (y.await (t + Config.us x.irqTimer.toNat)) else y
    | none => y) s

/-! Queue pair states (13 R367). -/

/-- QP_ENABLE: ENABLE 1. -/
def execQpEnable (q : QpId) (s : State) : Result := onChip (Chip.onQp q Machine.qpEnable) s

/-- QP_DISABLE: ENABLE 0. -/
def execQpDisable (q : QpId) (s : State) : Result := onChip (Machine.qpDisable q) s

/-- QP_DRAIN_END: no DMA of the queue pair is left, and it is DISABLED. -/
def execQpDrainEnd (q : QpId) (s : State) : Result :=
  onChip (fun c =>
    if (c.qp q).state == 2 && !(c.hif.reads.any fun r => r.qp == q) && !(c.fab.txns.any fun x => x.seg.qp == q) then
      c.onQp q fun x => { x with state := 0, entries := [] }
    else c) s

/-! The window (13 R345, R346). -/

/-- A window access that R345 allows. -/
def windowOk (r : Region) (off len : Nat) : Bool :=
  match r with
  | .regs _ => len == 4 && off % 4 == 0
  | _ => 8 ≤ len && len ≤ 256 && off % 8 == 0 && len % 8 == 0 && off / 256 == (off + len - 1) / 256

def readsWindow : WinOp → Bool
  | .read _ => true
  | .write _ => false

/-- WINDOW_ACCESS: an external access at HIF_WIN.BASE × 0x1000_0000 plus the offset; BAR4 must be there. A reserved range
raises source 52 and reads zero (03 R82). A write to what is off is recorded through Advanced Error Reporting (13 R346). -/
def execWindowAccess (offset : BitVec 28) (op : WinOp) (s : State) : Result :=
  onMemSys (fun m y =>
    let off := y.chip.hif.winBase.toNat * 0x10000000 + offset.toNat
    let len := match op with
      | .read n => n
      | .write bs => bs.length
    let r := regionOf y.chip.map.vc off
    if removed y && readsWindow op then (m, deadRead len y)
    else if !y.chip.hif.bar4On || !reachable y.chip || !windowOk r off len then (m, y.emit .unsupported)
    else match op with
      | .read n =>
        let x := readPiece m off n y
        if x.1 == 2 then (m, x.2.2.emit .unsupported)
        else if x.1 == 1 then (m, (reservedAccess x.2.2).emit (.readData x.2.1))
        else (m, x.2.2.emit (.readData x.2.1))
      | .write bs =>
        let x := writePiece off bs m y
        if x.1 == 2 then (x.2.1, (x.2.2.emit .unsupported).onChip Chip.aerRecord)
        else if x.1 == 1 then (x.2.1, reservedAccess x.2.2)
        else (x.2.1, x.2.2)) s

/-! Resets of the function (13 R371, R373). -/

/-- FUNCTION_LEVEL_RESET. -/
def execFunctionLevelReset (s : State) : Result := onChip (fun c => hifRegsReset (hifDisable c)) s

/-- D3HOT. -/
def execD3hot (s : State) : Result :=
  onChip (fun c => let c := hifRegsReset (hifDisable c); { c with hif := { c.hif with d3 := true } }) s

/-- FUNDAMENTAL_RESET: BAR4_EN is sampled, and the link goes down until it has trained again. -/
def execFundamentalReset (s : State) : Result :=
  onChip (fun c =>
    let c := hifRegsReset (hifDisable c)
    { c with hif := { c.hif with bar4On := c.hif.bar4En, linkUp := false, downRaised := false, pcie := PcieFn.reset } }) s

/-- LINK_DOWN. -/
def execLinkDown (s : State) : Result :=
  onChip (fun c => let c := hifDisable c; { c with hif := { c.hif with linkUp := false, downRaised := false } }) s

end Sys2Proof.Machine
end

