-- ==== Sys2Proof/Machine/TileControl.lean ====
section
/-! DEFINITION. The meanings of the C slot: NOP, branches, loops, predicate operations, END, WAIT_GTC, RAMP (05 section
3; 06 sections 9 and 10). -/

namespace Sys2Proof.Machine

/-- NOP: a slot of all zero bits issues and does nothing (05 R130). -/
def execNop (_tile : TileId) (_slot : SlotName) (s : State) : Result := onSys id s

/-- BR: a taken transfer to TARGET after two delay bundles, ending POP loops when TARGET issues (05 R138, R139; 04 R102).
A TARGET of 32,768 or above makes the bundle illegal (04 R122). -/
def execBr (v : TileId) (pred : PReg) (target : BitVec 16) (pop : BitVec 3) (s : State) : Result :=
  onChip (issue v 0 pred .pl (target.toNat < 32768) [] []
    fun p c => c.onTile p fun t =>
      { t with transfers := t.transfers ++ [⟨c.cmp.pcc, target.toNat, pop.toNat⟩] }) s

def loopCount (t : Tile) : LoopCount → Word
  | .count v => BitVec.setWidth 32 v
  | .areg a => t.a[a]

/-- What the issuing bundle's record becomes, with the loops that follow from it. -/
def onUse (p : Fin 320) (f : BundleUse → BundleUse) (c : Chip) : Chip :=
  let u := f (c.useNow p)
  c.onTile p fun t => { t with use := u, loops := bundleLoops t u }

/-- LOOP (05 R140): K takes the count, and a loop from the next bundle to LEN bundles after it becomes the innermost. -/
def execLoop (v : TileId) (pred : PReg) (len : BitVec 8) (k : KReg) (n : LoopCount) (s : State) : Result :=
  onChip (issue v 0 pred .ku true [.k k] (match n with | .count _ => [] | .areg a => [.a a])
    fun p c =>
      let t := c.tile p
      let c := c.onTile p fun t => { t with flight := t.flight.filter fun f =>
        !(f.issued == c.cmp.pcc && f.dest.reg == some (.k k)) }
      let c := addFlight p (.k k (loopCount t n)) (latency .ku false) c
      onUse p (fun u => { u with begun := some ⟨k, t.addr + 1, t.addr + 1 + len.toNat⟩ }) c) s

/-- The loop test of the bundle that the tile issues, unless it is made already (05 R139, R140). -/
def makeLoopTest (p : Fin 320) (c : Chip) : Chip :=
  let t := c.tile p
  let u := c.useNow p
  if u.tested then c
  else
    let r := loopTest t t.addr u.before
    let c := onUse p (fun u => { u with tested := true }) (testFlights p u c)
    c.onTile p fun t => { t with repeats := r.2.2.map fun a => (c.cmp.pcc, a) }

/-- LOOP_END: the loop test of the bundle that issues at the tile's bundle address, made once, on the loops as they stood
before the bundle (05 R139, R140). -/
def execLoopEnd (v : TileId) (s : State) : Result :=
  onChip (fun c =>
    match c.canIssue v with
    | none => c
    | some p =>
      makeLoopTest p c) s

/-- A predicate operation of the C slot: PDd from PDa and PDb, class PL (05 Table 05-5). -/
def predOp (f : Bool → Bool → Bool) (v : TileId) (pred d a b : PReg) (s : State) : Result :=
  onChip (issueResult v 0 pred .pl true [.pd d] [.pd a, .pd b] fun t => [.pd d (f t.pd[a] t.pd[b])]) s

/-- PAND: PDd ← PDa AND PDb (05 R138). -/
def execPand (v : TileId) (pred d a b : PReg) (s : State) : Result := predOp (fun x y => x && y) v pred d a b s

/-- POR: PDd ← PDa OR PDb (05 R138). -/
def execPor (v : TileId) (pred d a b : PReg) (s : State) : Result := predOp (fun x y => x || y) v pred d a b s

/-- PXOR: PDd ← PDa XOR PDb (05 R138). -/
def execPxor (v : TileId) (pred d a b : PReg) (s : State) : Result := predOp (fun x y => x != y) v pred d a b s

/-- PANDN: PDd ← PDa AND NOT PDb (05 R138). -/
def execPandn (v : TileId) (pred d a b : PReg) (s : State) : Result := predOp (fun x y => x && !y) v pred d a b s

/-- The tile ends: no further bundle of its program, no transfer or loop action still pending (05 R142), and its open
messages are completed (06 R171). -/
def endTile (v : Nat) (p : Fin 320) (c : Chip) : Chip :=
  let c := c.onTile p fun t => { t with ended := true, transfers := [], loops := [], repeats := none }
  completeAllOpen v p c

/-- END: this bundle is the tile's last (05 R142); what its other slots do still happens, and the end of the bundle ends
what is pending. -/
def execEndProgram (v : TileId) (pred : PReg) (s : State) : Result :=
  onChip (issue v 0 pred .pl true [] [] fun p c =>
    let u := c.useNow p
    c.onTile p fun t => { t with ended := true, use := { u with ends := true } }) s

/-- WAIT_GTC: the chip waits after this bundle until the core view reaches A(a) (06 R177). -/
def execWaitGtc (v : TileId) (pred : PReg) (aa : AReg) (s : State) : Result :=
  onChip (issue v 0 pred .al true [] [.a aa]
    fun p c =>
      let t := (c.tile p).a[aa]
      { c with cmp := { c.cmp with waits := c.cmp.waits ++ [⟨v.val, c.cmp.pcc, t⟩] } }) s

/-- A RAMP forecast for one quadrant: it replaces a pending one; of several in one bundle the greatest LEVEL wins, and
then the shortest LEAD (16 R440). A quadrant whose domain is off takes none (06, When events coincide). -/
def rampQuad (p : Fin 320) (level : BitVec 6) (lead : Nat) (q : QuadId) (c : Chip) : Chip :=
  if c.domOn (bitQ q.val) then
    let g := c.pwr.gov[q]
    let f : Forecast := ⟨level, c.cmp.pcc + lead, c.cmp.pcc⟩
    let keep := match g.forecast with
      | some o => o.issued == c.cmp.pcc &&
          (level.toNat < o.level.toNat || (level == o.level && o.due ≤ f.due))
      | none => false
    if keep then c
    else
      let u := c.useNow p
      let c := c.onTile p fun t => { t with use := { u with ramps := (q, f, g.forecast) :: u.ramps } }
      { c with pwr := { c.pwr with gov := c.pwr.gov.set q { g with forecast := some f } } }
  else c

/-- RAMP: a forecast for every quadrant of QMASK, LEAD cycles from now; no other effect (06 R179, 16 R440). -/
def execRamp (v : TileId) (pred : PReg) (qmask : BitVec 4) (level : BitVec 6) (lead : BitVec 10) (s : State) : Result :=
  onChip (issue v 0 pred .pl true [] []
    fun p c => ((List.finRange 4).filter fun q => qmask.toNat.testBit q.val).foldl
      (fun c q => rampQuad p level lead.toNat q c) c) s

end Sys2Proof.Machine
end

