-- ==== Sys2Proof/Machine/TileEvents.lean ====
section
/-! DEFINITION. The tile events: landing results, the look-ahead check of a WAIT receive and the end of its hold, mesh
arrivals, and the background scrubber (04 sections 3 to 7). -/

namespace Sys2Proof.Machine

/-- RESULT_LANDING: every due result of the tile lands (04 R99-R101). -/
def execResultLanding (v : TileId) (s : State) : Result :=
  onMemSys (fun m y =>
    match y.chip.liveTile v.val with
    | none => (m, y)
    | some p => landDue p m y) s

/-- The bundle that a check before the program's start is for: bundle 0 two cycles before the core view reaches L, bundle 1
one cycle before (04 R105; log entry 93). -/
def early (c : Chip) : Nat :=
  let left := c.time.launchL.toNat + c.time.skip - c.time.coreView.toNat
  if left * 12 ≤ corePeriod c.pwr.point then 1 else 0

/-- WAIT_RECEIVE_CHECK: the look-ahead check of the WAIT receive two bundles on, made when its predicate reads 1 (04
R105, R552). A line that is absent holds the chip, or with STRICT set aborts the run (11 R310). -/
def execWaitReceiveCheck (v : TileId) (pred : PReg) (ch : Chan) (s : State) : Result :=
  onChip (fun c =>
    match c.map.run, c.liveTile v.val with
    | true, some p =>
      let t := c.tile p
      if t.ended || t.blocked || !t.pd[pred] || !(t.ch[ch]).isEmpty || isMailbox c.map v.val ch then c
      else if c.time.strict then startAbort 7 (c.raise 28 .chip)
      else
        let n := if c.cmp.started then c.cmp.pcc + 2 else early c
        { c with cmp := { c.cmp with holds := c.cmp.holds ++ [⟨v.val, ch, n, none⟩] } }
    | _, _ => c) s

/-- A requested line that is now present resumes the chip two cycles later, or at the bundle's planned cycle if that is later (04
R105). -/
def markPresent (c : Chip) (h : HoldReq) : HoldReq :=
  match h.resume with
  | some _ => h
  | none =>
    match c.liveTile h.tile with
    | none => h
    | some p => if ((c.tile p).ch[h.ch]).isEmpty then h else { h with resume := some (c.cmp.cycles + 2) }

/-- A hold request that stops issue now: that of the present bundle, or of an earlier one, once the program has started. -/
def holdsNow (c : Chip) (h : HoldReq) : Bool := c.cmp.started && decide (h.bundle ≤ c.cmp.pcc)

/-- The hold requests whose bundles have issued, and the waits that have ended, are done with (04 R105, 06 R177). -/
def dropPast (c : Chip) : Chip :=
  { c with cmp := { c.cmp with
      holds := c.cmp.holds.filter fun h => !(c.cmp.started && decide (h.bundle < c.cmp.pcc)),
      waits := c.cmp.waits.filter fun w => !gtcReached c.time.coreView w.t } }

/-- HOLD_RELEASE: present lines set the cycle of resumption; the latest of the requests that stop issue now ends the hold, and
then LAG frames are queued; a request of a later bundle stays (04 R105, 11 R303). -/
def execHoldRelease (s : State) : Result :=
  onSys (fun y =>
    let hs := y.chip.cmp.holds.map (markPresent y.chip)
    let last := ((hs.filter (holdsNow y.chip)).filterMap fun h => h.resume).foldl max 0
    (y.awaitCycle last).onChip fun c =>
      resumeIssue { c with cmp := { c.cmp with holds := hs.filter fun h => !(holdsNow c h && h.resume.isSome) } }) s

/-- WAIT_GTC_END: every wait whose T is reached in the core view ends, and then LAG frames are queued (06 R177, R178; 11
R303). -/
def execWaitGtcEnd (s : State) : Result :=
  onSys (fun y =>
    let left := fun (w : GtcWait) => (w.t - BitVec.setWidth 32 y.chip.time.coreView).toNat
    let ahead := (y.chip.cmp.waits.map left).filter fun d => d < 2 ^ 31
    let y := y.awaitView (y.chip.time.coreView.toNat + (ahead.min?.getD 0))
    y.onChip fun c => resumeIssue
      { c with cmp := { c.cmp with waits := c.cmp.waits.filter fun w => !gtcReached c.time.coreView w.t } }) s

/-- Deliver the oldest line of the mesh that has arrived for a tile into its channel (04 R108, R110; 08 R207). -/
def deliverTile (v : Nat) (c : Chip) : Chip :=
  let isIt := fun (l : MeshLine) => match l.dst with
    | .tile d _ => d == v && arrived c l
    | _ => false
  match (byArrival c (c.cmp.mesh.lines.filter isIt)).head? with
  | none => c
  | some l =>
    enterChannel { c with cmp := { c.cmp with mesh := { c.cmp.mesh with lines := c.cmp.mesh.lines.erase l } } } l

/-- Every line of the mesh that has arrived for a tile enters its channel, in order of arrival (08 R207, R209). -/
def deliverMesh (c : Chip) : Chip :=
  let isIt := fun (l : MeshLine) => match l.dst with
    | .tile _ _ => arrived c l
    | _ => false
  if c.cmp.mesh.lines.any isIt then
    (byArrival c (c.cmp.mesh.lines.filter isIt)).foldl enterChannel
      { c with cmp := { c.cmp with mesh := { c.cmp.mesh with lines := c.cmp.mesh.lines.filter fun l => !isIt l } } }
  else c

/-- MESH_LINE_ARRIVAL: what has reached the tile enters its channel; the mesh itself stops during a hold (04 R104). -/
def execMeshLineArrival (v : TileId) (s : State) : Result :=
  onChip (fun c => deliverTile v.val (meshAdvance c)) s

/-! The scrubber (04 R117-R119). -/

/-- The sub-bank after the last one scrubbed, in round robin, whose read port the issuing bundle and the external accesses of
its cycle leave free and that has no write-back due (04 R116, R117). -/
def nextSub (now : Nat) (t : Tile) (u : BundleUse) : Option (Fin 16) :=
  ((List.range 16).map fun i => t.scrub.last + Fin.ofNat 16 (i + 1)).find? fun b =>
    !(u.reads.contains b.val || u.ext.contains (now, b.val)) && !(t.scrub.pending.any fun x => x.1 == b)

/-- The pointer of a sub-bank advances, and a wrap restarts its interval (04 R117, R118). -/
def advancePtr (b : Fin 16) (now : Nat) (x : Scrub) : Scrub :=
  let n := x.ptr[b] + 1
  { x with ptr := x.ptr.set b n, last := b, readAt := some now,
           wrapAt := if n == 0 then x.wrapAt.set b now else x.wrapAt,
           wrapped := if n == 0 then x.wrapped.set b true else x.wrapped }

/-- A pass in which every sub-bank of every mapped tile has wrapped is counted (04 Table 04-10). -/
def countPass (c : Chip) : Chip :=
  let mapped := (List.range (16 * c.map.vc)).filterMap fun v => c.map.phys v
  if !mapped.isEmpty && mapped.all fun p => (c.tile p).scrub.wrapped.toList.all (fun b => b) then
    let c := mapped.foldl (fun c p =>
      c.onTile p fun t => { t with scrub := { t.scrub with wrapped := Vector.replicate 16 false } }) c
    { c with chk := { c.chk with passes := satInc c.chk.passes } }
  else c

/-- One scrub read of the line at a sub-bank's pointer: its errors are reported, and a line with a corrected word and no
uncorrectable one is due for write-back (04 R117, R119). -/
def scrubLine (ecc : List (Nat × EccMark)) (v : TileId) (p : Fin 320) (b : Fin 16) (c : Chip) : Chip :=
  let t := c.tile p
  let line := t.scrub.ptr[b]
  let off := b.val * 0x40000 + line.val * 256
  let r := Ecc.check ecc ((tileBase p.val + off) / 8) 32
  let c := c.eccReport v.val off r.1 r.2
  let c := c.onTile p fun t =>
    let x := advancePtr b c.cmp.cycles t.scrub
    { t with scrub := if r.1 != 0 && r.2 == 0 then { x with pending := x.pending ++ [(b, line)] } else x }
  countPass c

/-- SCRUB_READ: at most one line every GAP cycles, while the scrubber is enabled (04 R117, Table 04-9). -/
def execScrubRead (v : TileId) (s : State) : Result :=
  onSys (fun y =>
    let y := match y.chip.liveTile v.val with
      | some p => if y.chip.map.run then y
        else y.awaitCycle ((((y.chip.tile p).scrub.readAt).map fun a => a + max 1 y.chip.chk.gap.toNat).getD 0)
      | none => y
    y.onChip fun c =>
    match c.chk.scrubEnable, c.liveTile v.val with
    | true, some p =>
      let t := c.tile p
      let ready := match t.scrub.readAt with
        | none => true
        | some a => decide (a + max 1 c.chk.gap.toNat ≤ c.cmp.cycles)
      match ready, nextSub c.cmp.cycles t (c.useNow p) with
      | true, some b => scrubLine y.ecc v p b c
      | _, _ => c
    | _, _ => c) s

/-- SCRUB_WRITEBACK: the oldest corrected line whose sub-bank's write port is free is written back (04 R116, R117). -/
def execScrubWriteback (v : TileId) (s : State) : Result :=
  onSys (fun y =>
    match y.chip.liveTile v.val with
    | none => y
    | some p =>
      let u := y.chip.useNow p
      match ((y.chip.tile p).scrub.pending).find? fun x =>
          !(u.writes.contains x.1.val || u.ext.contains (y.chip.cmp.cycles, x.1.val)) with
      | none => y
      | some x =>
        let w := (tileBase p.val + x.1.val * 0x40000 + x.2.val * 256) / 8
        let y := { y with ecc := Ecc.clear y.ecc w 32 (2 ^ 32 - 1) }
        y.onChip fun c => c.onTile p fun t =>
          { t with scrub := { t.scrub with pending := t.scrub.pending.filter fun z => z != x } }) s

/-- SCRUB_COVERAGE_LOW: a pointer has not wrapped within PERIOD × 65,536 cycles: source 9, and the first such tile and
sub-bank are recorded (04 R118). -/
def execScrubCoverageLow (v : TileId) (b : Fin 16) (s : State) : Result :=
  onSys (fun y =>
    match y.chip.liveTile v.val with
    | none => y
    | some p =>
      if y.chip.chk.period == 0 then y
      else (y.awaitCycle ((y.chip.tile p).scrub.wrapAt[b] + y.chip.chk.period.toNat * 65536 + 1)).onChip fun c =>
        let c := c.raise 9 (.tile v.val)
        if c.chk.lowValid then c
        else { c with chk := { c.chk with lowTile := BitVec.ofNat 9 v.val, lowValid := true,
                                          lowSub := BitVec.ofNat 4 b.val } }) s

end Sys2Proof.Machine
end

