-- ==== Sys2Proof/Machine/TileMatrix.lean ====
section
/-! DEFINITION. The meanings of the M slot: weight loads, multiplies and accumulator moves (05 section 5; 06 section 4;
07 sections 3 to 6). -/

namespace Sys2Proof.Machine

/-- Rows per line n of a weight format (05 Table 05-9); none for a format it does not list. -/
def rowsPerLine (fmt : FmtCode) : Option Nat :=
  match fmt.toNat with
  | 11 => some 16
  | 10 | 3 | 4 => some 8
  | 9 | 1 | 2 | 12 => some 4
  | 0 => some 2
  | _ => none

/-- G in range for FMT (05 Table 05-9). -/
def wldLegal (fmt : FmtCode) (g : BitVec 4) : Bool :=
  match rowsPerLine fmt with
  | some n => g.toNat < 32 / n
  | none => false

/-- The rows of a line: row i occupies bytes i × 256 / n onward, its elements packed by R185 (05 R146). -/
def rowsOfLine (fmt : FmtCode) (l : Line) : List Acc :=
  let n := (rowsPerLine fmt).getD 1
  let w := fmtWidth fmt
  (List.range n).map fun i => Vector.ofFn fun j => BitVec.ofNat 32 (elemAt l (i * 256 / n) w j.val)

/-- A weight load: rows G × n onward and the format tag (05 R146, 06 R162). -/
def weightLoad (v : TileId) (pred : PReg) (wb : Fin 2) (aa : AReg) (incDests : List RegName) (ea : Tile → Nat)
    (inc : Tile → List Dest) (legal : Bool) (dest : Line → Dest) (s : State) : Result :=
  onSysMem (fun mem y => y.onChip fun c =>
    issue v 2 pred .wl legal (.w wb :: incDests) [.a aa]
      (fun p c =>
        let t := c.tile p
        let off := ea t
        let x := readLine mem y.ecc v p 2 off c
        let c := addFlight p (dest x.1) (latency .wl (isFar off)) x.2
        (inc t).foldl (fun c d => addFlight p d (latency .al false) c) c) c) s

/-- WLD (05 R146). -/
def execWld (v : TileId) (pred : PReg) (wb : Fin 2) (a : LineAddr) (fmt : FmtCode) (g : BitVec 4) (s : State) :
    Result :=
  weightLoad v pred wb a.aa (lineDests a) (fun t => lineEA t a) (fun t => lineInc t a) (wldLegal fmt g)
    (fun l => .wRows wb (g.toNat * (rowsPerLine fmt).getD 1) (rowsOfLine fmt l) fmt) s

/-- WLDB: WLD at the bank-relative EA (06 R161, R162). -/
def execWldb (v : TileId) (pred : PReg) (wb : Fin 2) (a : BankAddr) (fmt : FmtCode) (g : BitVec 4) (s : State) :
    Result :=
  weightLoad v pred wb a.aa (bankDests a) (fun t => bankEA t a) (fun t => bankInc t a) (wldLegal fmt g)
    (fun l => .wRows wb (g.toNat * (rowsPerLine fmt).getD 1) (rowsOfLine fmt l) fmt) s

/-- MXWLD: FMT 5, 6 or 7; PLANE 3 reserved, PLANE 2 reserved with FMT 7 (06 R163). -/
def mxwldLegal (fmt : FmtCode) (plane : BitVec 2) : Bool :=
  5 ≤ fmt.toNat && fmt.toNat ≤ 7 && plane.toNat < 3 && !(plane.toNat == 2 && fmt.toNat == 7)

/-- MXWLD: a plane of the buffer and the format tag (06 R163, R553). -/
def execMxwld (v : TileId) (pred : PReg) (wb : Fin 2) (a : LineAddr) (fmt : FmtCode) (plane : BitVec 2) (s : State) :
    Result :=
  weightLoad v pred wb a.aa (lineDests a) (fun t => lineEA t a) (fun t => lineInc t a) (mxwldLegal fmt plane)
    (fun l => .wPlane wb ((finOf 3 plane.toNat).getD 0) l fmt) s

/-- MXSCL: column scale j ← byte 32 × PART + j of Vs (06 R164). -/
def execMxscl (v : TileId) (pred : PReg) (wb : Fin 2) (vs : VReg) (part : BitVec 3) (s : State) : Result :=
  onChip (issueResult v 2 pred .mv true [.w wb] [.v vs]
    fun t => [.wScales wb (Vector.ofFn fun j => (t.v[vs]).byte (32 * part.toNat + j.val))]) s

/-! MMUL (05 R147, R148; 07 R198, R199). -/

/-- SEG in range for FMT, and MAd even for INT4 (05 Table 05-9, R147). -/
def mmulLegal (fmt : FmtCode) (seg : BitVec 5) (ma : MReg) : Bool :=
  match fmt.toNat with
  | 11 => seg.toNat < 15 && seg.toNat % 2 == 0 && ma.val % 2 == 0
  | 10 | 3 | 4 | 9 | 1 | 2 | 12 => seg.toNat < 8
  | 0 => true
  | _ => false

/-- The allowed pairs of format tag and FMT (05 R148). -/
def formatsMatch (tag : Option FmtCode) (fmt : FmtCode) : Bool :=
  match tag with
  | none => false
  | some g => g == fmt || ((g == 3 || g == 4) && (fmt == 3 || fmt == 4))

/-- First input byte, element count and first weight row of an MMUL part (05 Table 05-9). -/
def mmulShape (fmt : FmtCode) (seg : Nat) : Nat × Nat × Nat :=
  match fmt.toNat with
  | 11 => (16 * seg, 32, 0)
  | 10 | 3 | 4 => (32 * seg, 32, 0)
  | 9 | 1 | 2 | 12 => (32 * seg, 16, 16 * (seg % 2))
  | _ => (8 * seg, 2, 2 * (seg % 16))

/-- The code of weight cell (r, j) in width w (06 R553). -/
def cellCode (b : WBuf) (w r j : Nat) : Nat := ((b.cells[r]?.getD Acc.zero)[j]?.getD 0).toNat % 2 ^ w

/-- Σ x(i) × W[r(i)][j] of integer formats, added modulo 2³² (07 R198). -/
def mmulInt (b : WBuf) (w : Nat) (xs : List Nat) (row j : Nat) (acc : Word) : Word :=
  let s := xs.zipIdx.foldl (fun (a : Int) (x, i) => a + sInt w x * sInt w (cellCode b w (row + i) j)) 0
  acc + BitVec.ofInt 32 s

/-- The value of weight cell (r, j): a floating code, or a BX12 word with the exponent of the block of 16 columns that
holds column j (07 R187, R199). -/
def cellValue (tag : FmtCode) (b : WBuf) (r j : Nat) : FVal :=
  match fmtOf tag with
  | some (.flt f) => f.decode (cellCode b f.width r j)
  | some .bx12 =>
    let k := j / 16 * 16
    bxDecode (bxExp (cellCode b 16 r k) (cellCode b 16 r (k + 1))) (cellCode b 16 r j)
  | _ => .nan

def inputValues (fmt : FmtCode) (xs : List Nat) : List FVal :=
  match fmtOf fmt with
  | some (.flt f) => xs.map f.decode
  | some .bx12 => bxDecodeBlock xs
  | _ => []

/-- Column j of a floating MMUL: P(j) rounded once, then the accumulation rounded once (07 R199). -/
def mmulFloat (fmt tag : FmtCode) (b : WBuf) (xs : List Nat) (row j : Nat) (acc : Option Word) : Word :=
  let ps := (inputValues fmt xs).zipIdx.map fun (x, i) => x.mul (cellValue tag b (row + i) j)
  let pairs := xs.zipIdx.map fun (x, i) => (x, cellCode b (fmtWidth tag) (row + i) j)
  let p := sumProducts ps pairs 0
  BitVec.ofNat 32 (match acc with
    | none => p
    | some a => addBinary32 a.toNat p)

/-- One accumulator of an MMUL from the input bytes at `base`. -/
def mmulAcc (fmt : FmtCode) (b : WBuf) (l : Line) (base n row : Nat) (acc : Acc) (zero : Bool) : Acc :=
  let w := fmtWidth fmt
  let xs := (List.range n).map fun i => elemAt l base w i
  Vector.ofFn fun j =>
    match fmtOf fmt with
    | some (.int wi) => mmulInt b wi xs row j.val (if zero then 0 else acc[j])
    | _ => mmulFloat fmt (b.tag.getD fmt) b xs row j.val (if zero then none else some acc[j])

def nextMa (ma : MReg) : MReg := (finOf 8 (ma.val + 1)).getD 0

/-- The accumulators an MMUL writes. -/
def mmulResult (t : Tile) (wb : Fin 2) (ma : MReg) (vs : VReg) (seg : Nat) (fmt : FmtCode) (zero : Bool) : List Dest :=
  let sh := mmulShape fmt seg
  let b := t.w[wb]
  let one := Dest.ma ma (mmulAcc fmt b t.v[vs] sh.1 sh.2.1 sh.2.2 t.ma[ma] zero)
  if fmt.toNat == 11 then
    [one, .ma (nextMa ma) (mmulAcc fmt b t.v[vs] (sh.1 + 16) 32 0 t.ma[nextMa ma] zero)]
  else [one]

/-- MMUL: only when the format tag and FMT are allowed; otherwise nothing is written and source 7 is raised (05 R147,
R148). -/
def execMmul (v : TileId) (pred : PReg) (wb : Fin 2) (ma : MReg) (vs : VReg) (seg : BitVec 5) (fmt : FmtCode)
    (zero : Bool) (s : State) : Result :=
  let dests : List RegName := if fmt.toNat == 11 then [.ma ma, .ma (nextMa ma)] else [.ma ma]
  onChip (issue v 2 pred .mm (mmulLegal fmt seg ma) dests (.w wb :: .v vs :: (if zero then [] else dests))
    fun p c =>
      let t := c.tile p
      if formatsMatch (t.w[wb]).tag fmt then
        (mmulResult t wb ma vs seg.toNat fmt zero).foldl (fun c d => addFlight p d (latency .mm false) c) c
      else c.raise 7 (.tile v.val)) s

/-- MAMV: half of Vd ← MA(s); the other half unchanged (05 Table 05-10). -/
def execMamv (v : TileId) (pred : PReg) (ma : MReg) (vd : VReg) (half : Fin 2) (s : State) : Result :=
  onChip (issueResult v 2 pred .mv true [.v vd] [.ma ma]
    fun t => [.v vd [(128 * half.val, (t.ma[ma]).toList.flatMap fun x => leBytes 4 x.toNat)]]) s

/-- MALD: MA(d)[j] ← 32-bit word j of half of Vs (05 Table 05-10). -/
def execMald (v : TileId) (pred : PReg) (ma : MReg) (vs : VReg) (half : Fin 2) (s : State) : Result :=
  onChip (issueResult v 2 pred .mv true [.ma ma] [.v vs]
    fun t => [.ma ma (Vector.ofFn fun j => BitVec.ofNat 32 ((t.v[vs]).leNat (128 * half.val + 4 * j.val) 4))]) s

/-- MACLR: MA(d) ← 0 (05 Table 05-10). -/
def execMaclr (v : TileId) (pred : PReg) (ma : MReg) (s : State) : Result :=
  onChip (issueResult v 2 pred .mv true [.ma ma] [] fun _ => [.ma ma Acc.zero]) s

/-! MXMUL (06 R165, R166). -/

def mxmulLegal (fmt : FmtCode) (seg : BitVec 2) (ma : MReg) : Bool :=
  5 ≤ fmt.toNat && fmt.toNat ≤ 7 && seg.toNat < 3 && ma.val % 2 == 0

/-- P(b, j): the exact sum with both scales, rounded once; the canonical NaN when a scale is 0xFF (06 R165). -/
def mxProduct (fmt tag : FmtCode) (b : WBuf) (l : Line) (base scaleByte j : Nat) : Nat :=
  let sb := (l.byte scaleByte).toNat
  let sw := (b.scales[j]?.getD 0).toNat
  if sb == 255 || sw == 255 then fBinary32.nanCode
  else
    let wx := fmtWidth fmt
    let wt := fmtWidth tag
    let xs := (List.range 32).map fun i => (l.byte (base + i)).toNat % 2 ^ wx
    let ps := (inputValues fmt xs).zipIdx.map fun (x, i) => x.mul (cellValue tag b i j)
    let pairs := xs.zipIdx.map fun (x, i) => (x, cellCode b wt i j)
    sumProducts ps pairs ((sb : Int) - 127 + ((sw : Int) - 127))

def mxAcc (fmt tag : FmtCode) (b : WBuf) (l : Line) (base scaleByte : Nat) (acc : Acc) (zero : Bool) : Acc :=
  Vector.ofFn fun j =>
    let p := mxProduct fmt tag b l base scaleByte j.val
    BitVec.ofNat 32 (if zero then p else addBinary32 (acc[j]).toNat p)

/-- MXMUL: two blocks into MA(d) and MA(d + 1) when the buffer's tag is 5, 6 or 7; otherwise source 7 (06 R165,
R166). -/
def execMxmul (v : TileId) (pred : PReg) (wb : Fin 2) (ma : MReg) (vs : VReg) (seg : BitVec 2) (fmt : FmtCode)
    (zero : Bool) (s : State) : Result :=
  let dests : List RegName := [.ma ma, .ma (nextMa ma)]
  onChip (issue v 2 pred .mm (mxmulLegal fmt seg ma) dests (.w wb :: .v vs :: (if zero then [] else dests))
    fun p c =>
      let t := c.tile p
      let b := t.w[wb]
      match b.tag with
      | some tag =>
        if 5 ≤ tag.toNat && tag.toNat ≤ 7 then
          let l := t.v[vs]
          let k := seg.toNat
          let d0 := Dest.ma ma (mxAcc fmt tag b l (64 * k) (192 + 2 * k) t.ma[ma] zero)
          let d1 := Dest.ma (nextMa ma) (mxAcc fmt tag b l (64 * k + 32) (193 + 2 * k) t.ma[nextMa ma] zero)
          [d0, d1].foldl (fun c d => addFlight p d (latency .mm false) c) c
        else c.raise 7 (.tile v.val)
      | none => c.raise 7 (.tile v.val)) s

end Sys2Proof.Machine
end

