-- ==== Sys2Proof/Machine/TileNetwork.lean ====
section
/-! DEFINITION. The meanings of the N slot: MSEND, RECV, FSEND, HWRITE, SREQ (05 section 7; 06 sections 6 to 8). -/

namespace Sys2Proof.Machine

/-- Registers a source line names as destinations and as operands (05 R155, 06 R160). -/
def srcDests : LineSrc → List RegName
  | .vreg _ => []
  | .sram a => lineDests a

def srcReads : LineSrc → List RegName
  | .vreg r => [.v r]
  | .sram a => [.a a.aa]

/-- The source line, the source term s of R207, and the chip after its read and INC update (05 R155, 06 R160). -/
def sourceLine (mem : List Host.Cell) (ecc : List (Nat × EccMark)) (v : TileId) (p : Fin 320) (src : LineSrc)
    (c : Chip) : Line × Nat × Chip :=
  match src with
  | .vreg r => ((c.tile p).v[r], 0, c)
  | .sram a =>
    let t := c.tile p
    let off := lineEA t a
    let x := readLine mem ecc v p 4 off c
    let c := (lineInc t a).foldl (fun c d => addFlight p d (latency .al false) c) x.2
    (x.1, if isFar off then 3 else 2, c)

/-- An N-slot operation with a source line. -/
def sendOp (v : TileId) (pred : PReg) (src : LineSrc) (legal : Chip → Bool) (reads : List RegName)
    (body : Fin 320 → Line → Nat → Chip → Chip) (s : State) : Result :=
  onSysMem (fun mem y => y.onChip fun c =>
    issue v 4 pred .ns (legal c) (srcDests src) (srcReads src ++ reads)
      (fun p c =>
        let x := sourceLine mem y.ecc v p src c
        body p x.1 x.2.1 x.2.2) c) s

/-- MSEND: one line to channel CH of virtual tile (DROW, DCOL) of the same chip (05 R155). A DCOL of VC or above is a
reserved field value. -/
def execMsend (v : TileId) (pred : PReg) (src : LineSrc) (drow : Fin 16) (dcol : BitVec 5) (ch : Chan) (s : State) :
    Result :=
  sendOp v pred src (fun c => dcol.toNat < c.map.vc) []
    (fun p line t c => sendLine v p t line (.mesh drow dcol ch) c) s

/-- The line a receive takes from its channel: the oldest one, or zeros and source 2 when it is empty (05 R156, 04 R111);
from the mailbox channel, the oldest readable mailbox line, or zeros and no source (13 R360). -/
def recvLine (v : TileId) (p : Fin 320) (ch : Chan) (c : Chip) : Line × Chip :=
  if isMailbox c.map v.val ch then mailPop c
  else
    let q := (c.tile p).ch[ch]
    let c := if q.isEmpty then c.tileEvent v.val 2 ch.val else c
    (q.headD Line.zero, c.onTile p fun t => { t with ch := t.ch.set ch (q.drop 1) })

/-- RECV: a line of channel CH to Vd or to the line at EA (05 R156; 04 R105, R111). The class matters at the look-ahead
check alone, but WAIT on the mailbox channel is a reserved field value (13 R360). -/
def execRecv (v : TileId) (pred : PReg) (cls : RecvClass) (ch : Chan) (dst : LineDst) (s : State) : Result :=
  let dests := match dst with | .vreg r => [.v r] | .sram a => lineDests a
  let reads := match dst with | .vreg _ => [] | .sram a => [.a a.aa]
  onChip (fun c => issue v 4 pred .nr (cls == .mesh || !isMailbox c.map v.val ch) dests reads
    (fun p c =>
      let r := recvLine v p ch c
      match dst with
      | .vreg d => addFlight p (.v d [(0, r.1.bytes)]) (latency .nr false) r.2
      | .sram a =>
        let t := r.2.tile p
        let off := lineEA t a
        let x := claimPort v p 4 off true r.2
        let c := if x.1 then addFlight p (.sram off r.1 0xFFFFFFFF#32) (latency .nrSram (isFar off)) x.2 else x.2
        (lineInc t a).foldl (fun c d => addFlight p d (latency .al false) c) c) c) s

/-- Whether a line keeps the framing (06 R170). -/
def framingOk (m : Option OpenMsg) (part : Part) (len : Nat) : Bool :=
  match part, m with
  | .only, none => len == 0
  | .first, none => 1 ≤ len
  | .middle, some m => 2 ≤ m.due
  | .last, some m => m.due == 1
  | _, _ => false

/-- A FIRST or ONLY line: the chip map and the route word are checked, and a refused route discards every line of the
message (10 R253). -/
def fsendFirst (v : TileId) (p : Fin 320) (line : Line) (t : Nat) (part : Part) (port : PortId) (msgW routeW : Word)
    (c : Chip) : Chip :=
  let len := natField msgW.toNat 24 6
  let setOpen := fun (m : OpenMsg) (c : Chip) =>
    if part == .first then c.onTile p fun t => { t with openMsg := t.openMsg.set port (some m) } else c
  match checkRoute c port msgW routeW with
  | .inl cause => setOpen ⟨len, 0, true⟩ (c.routeError cause port.val v.val)
  | .inr h => setOpen ⟨len, h, false⟩ (sendLine v p t line (.port port (withPart h part)) c)

/-- A MIDDLE or LAST line of an open message: the header of its first line (10 R253). -/
def fsendNext (v : TileId) (p : Fin 320) (line : Line) (t : Nat) (part : Part) (port : PortId) (m : OpenMsg)
    (c : Chip) : Chip :=
  let c := if m.discard then c else sendLine v p t line (.port port (withPart m.header part)) c
  c.onTile p fun t =>
    { t with openMsg := t.openMsg.set port (if m.due ≤ 1 then none else some { m with due := m.due - 1 }) }

/-- One line of an FSEND (06 R169-R171): no framing check for a line that finds the send queue full; a line that breaks
the framing is discarded with source 27, and an open message is completed. -/
def fsendLine (v : TileId) (p : Fin 320) (line : Line) (t : Nat) (part : Part) (port : PortId) (ac ar : AReg)
    (c : Chip) : Chip :=
  if 8 ≤ (c.tile p).sendq.length then c.tileEvent v.val 1 4
  else
    let msgW := (c.tile p).a[ac]
    let routeW := (c.tile p).a[ar]
    let m := (c.tile p).openMsg[port]
    if framingOk m part (natField msgW.toNat 24 6) then
      match m with
      | none => fsendFirst v p line t part port msgW routeW c
      | some m => fsendNext v p line t part port m c
    else if m.isSome then completeOpen v.val p port c
    else c.routeError 1 port.val v.val

/-- FSEND (06 R169): Ac and Ar must be 0 for MIDDLE and LAST. -/
def execFsend (v : TileId) (pred : PReg) (src : LineSrc) (part : Part) (port : PortId) (ac ar : AReg) (s : State) :
    Result :=
  let first := part == .only || part == .first
  sendOp v pred src (fun _ => first || (ac == 0 && ar == 0)) (if first then [.a ac, .a ar] else [])
    (fun p line t c => fsendLine v p line t part port ac ar c) s

/-- HWRITE: bytes 0 to BCNT of the source line to host memory at A(h + 1):A(h), with a completion asked for by CMPL (06
R172, R173). Ah is even, and Aq is 0 without CMPL. -/
def execHwrite (v : TileId) (pred : PReg) (src : LineSrc) (ah : AReg) (bcnt : Byte) (cmpl : Bool) (aq : AReg)
    (s : State) : Result :=
  let ah1 : AReg := (finOf 16 (ah.val + 1)).getD 0
  sendOp v pred src (fun _ => ah.val % 2 == 0 && (cmpl || aq == 0)) ([.a ah, .a ah1] ++ if cmpl then [.a aq] else [])
    (fun p line t c =>
      let x := c.tile p
      let addr : Dword := BitVec.ofNat 64 (x.a[ah1].toNat * 2 ^ 32 + x.a[ah].toNat)
      sendLine v p t line (.host addr bcnt (if cmpl then some (x.a[aq], c.time.coreView) else none)) c) s

/-- SREQ: the source line as a search request with deadline A(d), its results to channel RCH (06 R175). -/
def execSreq (v : TileId) (pred : PReg) (src : LineSrc) (ad : AReg) (rch : Chan) (s : State) : Result :=
  sendOp v pred src (fun _ => true) [.a ad]
    (fun p line t c => sendLine v p t line (.search (c.tile p).a[ad] rch) c) s

end Sys2Proof.Machine
end

