-- ==== Sys2Proof/Machine/TileScalar.lean ====
section
/-! DEFINITION. The meanings of the L slot: loads and stores, A-register arithmetic, compares and moves (05 section 4; 06
section 3). -/

namespace Sys2Proof.Machine

/-- A load of the L slot: the line at EA lands in V, and the INC update in A(a) (05 R144, R145; 06 R162). -/
def loadOp (v : TileId) (pred : PReg) (r : VReg) (aa : AReg) (incDests : List RegName) (ea : Tile → Nat)
    (inc : Tile → List Dest) (s : State) : Result :=
  onSysMem (fun mem y => y.onChip fun c =>
    issue v 1 pred .ld true (.v r :: incDests) [.a aa]
      (fun p c =>
        let t := c.tile p
        let off := ea t
        let x := readLine mem y.ecc v p 1 off c
        let c := addFlight p (.v r [(0, x.1.bytes)]) (latency .ld (isFar off)) x.2
        (inc t).foldl (fun c d => addFlight p d (latency .al false) c) c) c) s

/-- LD: V ← line at EA (05 R144, R145). -/
def execLd (v : TileId) (pred : PReg) (r : VReg) (a : LineAddr) (s : State) : Result :=
  loadOp v pred r a.aa (lineDests a) (fun t => lineEA t a) (fun t => lineInc t a) s

/-- A store of the L slot: the words of V that the mask selects land in the line at EA; a dropped write writes nothing
(05 R145; 04 R114, R115). -/
def storeOp (v : TileId) (pred : PReg) (r : VReg) (incDests : List RegName) (reads : List RegName) (ea : Tile → Nat)
    (inc : Tile → List Dest) (mask : Tile → Word) (s : State) : Result :=
  onChip (issue v 1 pred .st true incDests (.v r :: reads)
    fun p c =>
      let t := c.tile p
      let off := ea t
      let x := claimPort v p 1 off true c
      let c := if x.1 then addFlight p (.sram off t.v[r] (mask t)) (latency .st (isFar off)) x.2 else x.2
      (inc t).foldl (fun c d => addFlight p d (latency .al false) c) c) s

/-- ST: line at EA ← V (05 R145). -/
def execSt (v : TileId) (pred : PReg) (r : VReg) (a : LineAddr) (s : State) : Result :=
  storeOp v pred r (lineDests a) [.a a.aa] (fun t => lineEA t a) (fun t => lineInc t a) (fun _ => 0xFFFFFFFF#32) s

/-- STM: word k of the line at EA ← word k of V for each bit k of A(Am) (05 R145; 04 R115). -/
def execStm (v : TileId) (pred : PReg) (r : VReg) (a : LineAddr) (am : AReg) (s : State) : Result :=
  storeOp v pred r (lineDests a) [.a a.aa, .a am] (fun t => lineEA t a) (fun t => lineInc t a) (fun t => t.a[am]) s

/-- LDB: LD at the bank-relative EA (06 R161, R162). -/
def execLdb (v : TileId) (pred : PReg) (r : VReg) (a : BankAddr) (s : State) : Result :=
  loadOp v pred r a.aa (bankDests a) (fun t => bankEA t a) (fun t => bankInc t a) s

/-- STB: ST at the bank-relative EA (06 R161, R162). -/
def execStb (v : TileId) (pred : PReg) (r : VReg) (a : BankAddr) (s : State) : Result :=
  storeOp v pred r (bankDests a) [.a a.aa] (fun t => bankEA t a) (fun t => bankInc t a) (fun _ => 0xFFFFFFFF#32) s

/-- Operand b (05 section 4). -/
def bValue (t : Tile) : BOperand → Word
  | .reg r => t.a[r]
  | .imm x => BitVec.signExtend 32 x

def bReads : BOperand → List RegName
  | .reg r => [.a r]
  | .imm _ => []

/-- A-register arithmetic: Ad ← f A(a) b, with the class's latency (05 R145). -/
def aluOp (k : LatClass) (f : Word → Word → Word) (v : TileId) (pred : PReg) (d a : AReg) (b : BOperand) (s : State) :
    Result :=
  onChip (issueResult v 1 pred k true [.a d] (.a a :: bReads b) fun t => [.a d (f t.a[a] (bValue t b))]) s

/-- AADD: Ad ← A(a) + b (05 Table 05-7). -/
def execAadd (v : TileId) (pred : PReg) (d a : AReg) (b : BOperand) (s : State) : Result :=
  aluOp .al (fun x y => x + y) v pred d a b s

/-- ASUB: Ad ← A(a) − b (05 Table 05-7). -/
def execAsub (v : TileId) (pred : PReg) (d a : AReg) (b : BOperand) (s : State) : Result :=
  aluOp .al (fun x y => x - y) v pred d a b s

/-- AMUL: Ad ← low 32 bits of A(a) × b, class AM (05 Table 05-7). -/
def execAmul (v : TileId) (pred : PReg) (d a : AReg) (b : BOperand) (s : State) : Result :=
  aluOp .am (fun x y => x * y) v pred d a b s

/-- AAND (05 Table 05-7). -/
def execAand (v : TileId) (pred : PReg) (d a : AReg) (b : BOperand) (s : State) : Result :=
  aluOp .al (fun x y => x &&& y) v pred d a b s

/-- AOR (05 Table 05-7). -/
def execAor (v : TileId) (pred : PReg) (d a : AReg) (b : BOperand) (s : State) : Result :=
  aluOp .al (fun x y => x ||| y) v pred d a b s

/-- AXOR (05 Table 05-7). -/
def execAxor (v : TileId) (pred : PReg) (d a : AReg) (b : BOperand) (s : State) : Result :=
  aluOp .al (fun x y => x ^^^ y) v pred d a b s

/-- A shift count is b bits [4:0] (05 R145). -/
def shiftCount (b : Word) : Nat := b.toNat % 32

/-- ASHL (05 Table 05-7). -/
def execAshl (v : TileId) (pred : PReg) (d a : AReg) (b : BOperand) (s : State) : Result :=
  aluOp .al (fun x y => x <<< shiftCount y) v pred d a b s

/-- ASHR: shifted right, zero fill (05 Table 05-7). -/
def execAshr (v : TileId) (pred : PReg) (d a : AReg) (b : BOperand) (s : State) : Result :=
  aluOp .al (fun x y => x >>> shiftCount y) v pred d a b s

/-- ASRA: shifted right, sign fill (05 Table 05-7). -/
def execAsra (v : TileId) (pred : PReg) (d a : AReg) (b : BOperand) (s : State) : Result :=
  aluOp .al (fun x y => x.sshiftRight (shiftCount y)) v pred d a b s

/-- AMIN: signed minimum (05 Table 05-7). -/
def execAmin (v : TileId) (pred : PReg) (d a : AReg) (b : BOperand) (s : State) : Result :=
  aluOp .al (fun x y => if x.toInt ≤ y.toInt then x else y) v pred d a b s

/-- AMAX: signed maximum (05 Table 05-7). -/
def execAmax (v : TileId) (pred : PReg) (d a : AReg) (b : BOperand) (s : State) : Result :=
  aluOp .al (fun x y => if x.toInt ≤ y.toInt then y else x) v pred d a b s

/-- A compare: PDd ← f A(a) b, class PC (05 R145). -/
def cmpOp (f : Word → Word → Bool) (v : TileId) (pred : PReg) (d : PReg) (a : AReg) (b : BOperand) (s : State) :
    Result :=
  onChip (issueResult v 1 pred .pc true [.pd d] (.a a :: bReads b) fun t => [.pd d (f t.a[a] (bValue t b))]) s

/-- CMPEQ (05 Table 05-7). -/
def execCmpeq (v : TileId) (pred : PReg) (d : PReg) (a : AReg) (b : BOperand) (s : State) : Result :=
  cmpOp (fun x y => x == y) v pred d a b s

/-- CMPNE (05 Table 05-7). -/
def execCmpne (v : TileId) (pred : PReg) (d : PReg) (a : AReg) (b : BOperand) (s : State) : Result :=
  cmpOp (fun x y => x != y) v pred d a b s

/-- CMPLT: signed (05 Table 05-7). -/
def execCmplt (v : TileId) (pred : PReg) (d : PReg) (a : AReg) (b : BOperand) (s : State) : Result :=
  cmpOp (fun x y => BitVec.slt x y) v pred d a b s

/-- CMPLE: signed (05 Table 05-7). -/
def execCmple (v : TileId) (pred : PReg) (d : PReg) (a : AReg) (b : BOperand) (s : State) : Result :=
  cmpOp (fun x y => BitVec.sle x y) v pred d a b s

/-- CMPLTU: unsigned (05 Table 05-7). -/
def execCmpltu (v : TileId) (pred : PReg) (d : PReg) (a : AReg) (b : BOperand) (s : State) : Result :=
  cmpOp (fun x y => BitVec.ult x y) v pred d a b s

/-- CMPLEU: unsigned (05 Table 05-7). -/
def execCmpleu (v : TileId) (pred : PReg) (d : PReg) (a : AReg) (b : BOperand) (s : State) : Result :=
  cmpOp (fun x y => BitVec.ule x y) v pred d a b s

/-- AMOVI: Ad ← IMM (05 Table 05-7). -/
def execAmovi (v : TileId) (pred : PReg) (d : AReg) (imm : Word) (s : State) : Result :=
  onChip (issueResult v 1 pred .al true [.a d] [] fun _ => [.a d imm]) s

/-- MOVKA: Ad ← K (05 Table 05-7). -/
def execMovka (v : TileId) (pred : PReg) (d : AReg) (k : KReg) (s : State) : Result :=
  onChip (issueResult v 1 pred .al true [.a d] [.k k] fun t => [.a d t.k[k]]) s

/-- AGET: Ad ← 32-bit word W of Vs (05 Table 05-7). -/
def execAget (v : TileId) (pred : PReg) (d : AReg) (vs : VReg) (w : BitVec 6) (s : State) : Result :=
  onChip (issueResult v 1 pred .ag true [.a d] [.v vs]
    fun t => [.a d (BitVec.ofNat 32 ((t.v[vs]).leNat (4 * w.toNat) 4))]) s

end Sys2Proof.Machine
end

