-- ==== Sys2Proof/Machine/Transcendental.lean ====
section
/-! DEFINITION. The bounds of 05 Table 05-13 on the transcendentals: the exact result to within a relative 2⁻³²⁰, the codes that
lie within the table's ulps of it, and the free choice among them that R154 leaves (log entry 10). -/

namespace Sys2Proof.Machine

/-- Fraction bits of the fixed point in which the exact results are enclosed: every operand is whole in it. -/
def tBits : Nat := 640

def tOne : Int := 2 ^ 640

/-- A finite value in fixed point. -/
def tFix (neg : Bool) (m : Nat) (e : Int) : Int := sMant neg (m <<< (e + tBits).toNat)

/-- eʳ by `n` terms of its series from the term `t` = rᵏ/k! on. -/
def expSeries (r : Int) : (n k : Nat) → (t acc : Int) → Int
  | 0, _, _, acc => acc
  | n + 1, k, t, acc => expSeries r n (k + 1) (t * r / tOne / (k + 1)) (acc + t)

/-- `n` squarings. -/
def squareTimes : Nat → Int → Int
  | 0, y => y
  | n + 1, y => squareTimes n (y * y / tOne)

/-- eˣ, with x held to ±220, beyond which no result of a format changes. -/
def tExp (x : Int) : Int :=
  let x := max (-(220 * tOne)) (min (220 * tOne) x)
  squareTimes 11 (expSeries (x / 2048) 90 0 tOne 0)

/-- 2 artanh z by `n` terms of its series from `p` = z²ᵏ⁺¹ on. -/
def artanhSeries (z2 : Int) : (n k : Nat) → (p acc : Int) → Int
  | 0, _, _, acc => 2 * acc
  | n + 1, k, p, acc => artanhSeries z2 n (k + 1) (p * z2 / tOne) (acc + p / (2 * k + 1))

/-- ln u, for u of 1 to 2. -/
def tLn1 (u : Int) : Int :=
  let z := (u - tOne) * tOne / (u + tOne)
  artanhSeries (z * z / tOne) 140 0 z 0

/-- ln of m × 2^e, m not 0. -/
def tLn (m : Nat) (e : Int) : Int :=
  let l := Nat.log2 m
  tLn1 ((m : Int) * tOne / 2 ^ l) + (e + l) * tLn1 (2 * tOne)

/-- The integer square root, `n` bits of it from the top, above `r`. -/
def sqrtBits (x : Nat) : (n r : Nat) → Nat
  | 0, r => r
  | n + 1, r =>
    let c := r + 2 ^ n
    sqrtBits x n (if c * c ≤ x then c else r)

/-- The exact result of a transcendental at (−1)^neg × m × 2^e, outside the special cases. -/
def transExact (op : Config.Trans) (neg : Bool) (m : Nat) (e : Int) : Int :=
  let x := tFix neg m e
  match op with
  | .exp => tExp x
  | .log => tLn m e
  | .rcp => tOne * tOne / x
  | .rsq => sqrtBits (2 ^ 1920 / x.toNat) 720 0
  | .tanh =>
    let y := tExp (2 * max (-(100 * tOne)) (min (100 * tOne) x))
    (y - tOne) * tOne / (y + tOne)
  | .sig => tOne * tOne / (tOne + tExp (-x))

/-- Ulps of 05 Table 05-13. -/
def transUlps (op : Config.Trans) (f : FFmt) : Nat :=
  if f.width == 16 then 1
  else match op with
    | .exp | .log => 2
    | .rcp | .rsq => 1
    | .tanh | .sig => 3

/-- One ulp at a value: that of its binade, or of the subnormals. -/
def ulpAt (f : FFmt) (y : Int) : Int :=
  let top : Int := (Nat.log2 y.natAbs : Int) - tBits
  2 ^ ((if y == 0 then 1 - f.bias else max top (1 - f.bias)) - f.mbits + tBits).toNat

/-- The greatest code without sign that is at most a magnitude; infinity stands at the next power of two. -/
def magFloor (f : FFmt) (v : Nat) : Nat :=
  if 2 ^ (f.bias + 1 + tBits).toNat ≤ v then f.infCode false else f.round .zero false v (-(tBits : Int))

/-- The least code without sign that is at least a magnitude. -/
def magCeil (f : FFmt) (v : Nat) : Nat :=
  let c := magFloor f v
  match f.decode c with
  | .fin _ m e => if m <<< (e + tBits).toNat == v then c else c + 1
  | _ => c

/-- Codes in numeric order: a negative one is minus its magnitude. -/
def keyFloor (f : FFmt) (v : Int) : Int := if v < 0 then -(magCeil f v.natAbs : Int) else magFloor f v.natAbs
def keyCeil (f : FFmt) (v : Int) : Int := if v < 0 then -(magFloor f v.natAbs : Int) else magCeil f v.natAbs

/-- The least and the greatest code, in numeric order, within the table's ulps of the exact result. What is added for the
error of the fixed point is less than any exact result that is no code lies from one (05 R154). -/
def transRange (op : Config.Trans) (f : FFmt) (neg : Bool) (m : Nat) (e : Int) : Int × Int :=
  let y := transExact op neg m e
  let d := transUlps op f * ulpAt f y + 2 ^ 40 + (y.natAbs >>> 320 : Nat)
  (keyCeil f (y - d), keyFloor f (y + d))

/-- The code that a free number chooses between two codes; a zero takes either sign. -/
def codeBetween (f : FFmt) (lo hi : Int) (b : Nat) : Nat :=
  let n := (hi - lo + 1).toNat
  let k := lo + (b % n : Nat)
  if k == 0 then f.signBit (b / n % 2 == 1) else f.signBit (k < 0) + k.natAbs

end Sys2Proof.Machine
end

