-- ==== Sys2Proof/Machine/TileVector.lean ====
section
/-! DEFINITION. The meanings of the V slot: element arithmetic, compares, conversions, reductions, transcendentals and
moves (05 section 6; 06 section 5; 07). -/

namespace Sys2Proof.Machine

/-! Accepted formats (05 R150). -/

/-- binary32, binary16, bfloat16, INT32, INT16, INT8. -/
def arithFmt (f : FmtCode) : Bool := [0, 1, 2, 8, 9, 10].contains f.toNat
/-- INT32, INT16, INT8. -/
def intFmt (f : FmtCode) : Bool := [8, 9, 10].contains f.toNat
/-- binary32, binary16, bfloat16. -/
def transFmt (f : FmtCode) : Bool := [0, 1, 2].contains f.toNat
/-- Codes 0-4 and 8-11. -/
def selFmt (f : FmtCode) : Bool := [0, 1, 2, 3, 4, 8, 9, 10, 11].contains f.toNat
/-- Codes 0-4 and 8-10. -/
def moveFmt (f : FmtCode) : Bool := [0, 1, 2, 3, 4, 8, 9, 10].contains f.toNat
/-- Codes 0-4 and 8-12. -/
def cvtFmt (f : FmtCode) : Bool := [0, 1, 2, 3, 4, 8, 9, 10, 11, 12].contains f.toNat

/-- RND 3 is reserved, an operation that rounds nothing carries RND 0 (05 R136), and SAT is 0 for a floating format (05
Table 05-11). -/
def rndSatLegal (f : FmtCode) (rnd : BitVec 2) (sat : Bool) : Bool :=
  match fmtOf f with
  | some (.flt _) => rnd.toNat < 3 && !sat
  | _ => rnd == 0

/-- What an element operation sees of its issue: the rounding seed, PCC and virtual tile of R194. -/
structure VCtx where
  seed : Word
  pcc : Nat
  tile : Nat
  deriving DecidableEq, Repr

def VCtx.rnd (x : VCtx) (r : BitVec 2) (e : Nat) : Rnd := rndOf r x.seed x.pcc x.tile e

/-- Elements of a register. -/
def elems (l : Line) (w : Nat) : List Nat := (List.range (2048 / w)).map fun i => elemAt l 0 w i

/-- A V-slot operation that writes pieces of Vd, with whether it meets a condition of R137 (source 8, once a cycle). -/
def vecOp (v : TileId) (pred : PReg) (k : LatClass) (legal : Bool) (vd : VReg) (reads : List RegName)
    (f : VCtx → Tile → List (Nat × List Byte) × Bool) (s : State) : Result :=
  onChip (issue v 3 pred k legal [.v vd] reads
    fun p c =>
      let r := f ⟨c.time.seed, c.cmp.pcc, v.val⟩ (c.tile p)
      let c := addFlight p (.v vd r.1) (latency k false) c
      if r.2 then c.raise 8 (.tile v.val) else c) s

/-- Element by element on Va and Vb: `f` answers the code and whether R137's invalid holds. -/
def elemOp2 (w : Nat) (f : Nat → Nat → Nat → Nat × Bool) (a b : Line) : List (Nat × List Byte) × Bool :=
  let rs := ((elems a w).zip (elems b w)).zipIdx.map fun ((x, y), i) => f i x y
  ([(0, packElems w (rs.map (·.1)))], rs.any (·.2))

def elemOp1 (w : Nat) (f : Nat → Nat → Nat × Bool) (a : Line) : List (Nat × List Byte) × Bool :=
  let rs := (elems a w).zipIdx.map fun (x, i) => f i x
  ([(0, packElems w (rs.map (·.1)))], rs.any (·.2))

/-- A floating result with R137's invalid: a NaN from operands that are not NaN. -/
def fltResult (f : FFmt) (rnd : Rnd) (operands : List FVal) (r : FVal) : Nat × Bool :=
  (f.encode rnd r, r.isNan && !(operands.any FVal.isNan))

/-- An integer result, wrapped or saturated (05 Table 05-11). -/
def intResult (w : Nat) (sat : Bool) (x : Int) : Nat := if sat then satInt w x else uInt w x

/-- A two-operand arithmetic operation on an accepted format. -/
def arith2 (ff : FVal → FVal → FVal) (fi : Int → Int → Int) (fmt : FmtCode) (rnd : BitVec 2) (sat : Bool) (x : VCtx)
    (a b : Line) : List (Nat × List Byte) × Bool :=
  match fmtOf fmt with
  | some (.flt f) => elemOp2 f.width (fun i p q =>
      let u := f.decode p
      let w := f.decode q
      fltResult f (x.rnd rnd i) [u, w] (ff u w)) a b
  | some (.int w) => elemOp2 w (fun _ p q => (intResult w sat (fi (sInt w p) (sInt w q)), false)) a b
  | _ => ([], false)

/-- VADD (05 Table 05-12). -/
def execVadd (v : TileId) (pred : PReg) (vd va vb : VReg) (fmt : FmtCode) (rnd : BitVec 2) (sat : Bool) (s : State) :
    Result :=
  vecOp v pred .vs (arithFmt fmt && rndSatLegal fmt rnd sat) vd [.v va, .v vb]
    (fun x t => arith2 FVal.add (fun p q => p + q) fmt rnd sat x t.v[va] t.v[vb]) s

/-- VSUB (05 Table 05-12). -/
def execVsub (v : TileId) (pred : PReg) (vd va vb : VReg) (fmt : FmtCode) (rnd : BitVec 2) (sat : Bool) (s : State) :
    Result :=
  vecOp v pred .vs (arithFmt fmt && rndSatLegal fmt rnd sat) vd [.v va, .v vb]
    (fun x t => arith2 (fun p q => p.add q.neg) (fun p q => p - q) fmt rnd sat x t.v[va] t.v[vb]) s

/-- VMUL (05 Table 05-12). -/
def execVmul (v : TileId) (pred : PReg) (vd va vb : VReg) (fmt : FmtCode) (rnd : BitVec 2) (sat : Bool) (s : State) :
    Result :=
  vecOp v pred .vf (arithFmt fmt && rndSatLegal fmt rnd sat) vd [.v va, .v vb]
    (fun x t => arith2 FVal.mul (fun p q => p * q) fmt rnd sat x t.v[va] t.v[vb]) s

/-- VFMA's elements: Va × Vb + Vc with one rounding (05 Table 05-12, 07 R202). -/
def fma3 (fmt : FmtCode) (rnd : BitVec 2) (sat : Bool) (x : VCtx) (a b d : Line) : List (Nat × List Byte) × Bool :=
  match fmtOf fmt with
  | some (.flt f) =>
    let rs := (((elems a f.width).zip (elems b f.width)).zip (elems d f.width)).zipIdx.map fun (((p, q), r), i) =>
      let u := f.decode p
      let w := f.decode q
      let z := f.decode r
      fltResult f (x.rnd rnd i) [u, w, z] ((u.mul w).add z)
    ([(0, packElems f.width (rs.map (·.1)))], rs.any (·.2))
  | some (.int w) =>
    let rs := (((elems a w).zip (elems b w)).zip (elems d w)).map fun ((p, q), r) =>
      intResult w sat (sInt w p * sInt w q + sInt w r)
    ([(0, packElems w rs)], false)
  | _ => ([], false)

/-- VFMA (05 Table 05-12). -/
def execVfma (v : TileId) (pred : PReg) (vd va vb vc : VReg) (fmt : FmtCode) (rnd : BitVec 2) (sat : Bool) (s : State) :
    Result :=
  vecOp v pred .vf (arithFmt fmt && rndSatLegal fmt rnd sat) vd [.v va, .v vb, .v vc]
    (fun x t => fma3 fmt rnd sat x t.v[va] t.v[vb] t.v[vc]) s

/-- IEEE 754 minimum of two codes: NaN propagates as the canonical NaN, −0 < +0; signed for integers (05 Table 05-12). -/
def minCode (fmt : Fmt) (x y : Nat) : Nat :=
  match fmt with
  | .flt f =>
    let a := f.decode x
    let b := f.decode y
    if a.isNan || b.isNan then f.nanCode else if b.ltZ a then y else x
  | .int w => if sInt w y < sInt w x then y else x
  | .bx12 => x

def maxCode (fmt : Fmt) (x y : Nat) : Nat :=
  match fmt with
  | .flt f =>
    let a := f.decode x
    let b := f.decode y
    if a.isNan || b.isNan then f.nanCode else if a.ltZ b then y else x
  | .int w => if sInt w x < sInt w y then y else x
  | .bx12 => x

def exact2 (g : Fmt → Nat → Nat → Nat) (fmt : FmtCode) (a b : Line) : List (Nat × List Byte) × Bool :=
  match fmtOf fmt with
  | some f => elemOp2 f.width (fun _ p q => (g f p q, false)) a b
  | none => ([], false)

/-- VMIN (05 Table 05-12). -/
def execVmin (v : TileId) (pred : PReg) (vd va vb : VReg) (fmt : FmtCode) (s : State) : Result :=
  vecOp v pred .vs (arithFmt fmt) vd [.v va, .v vb] (fun _ t => exact2 minCode fmt t.v[va] t.v[vb]) s

/-- VMAX (05 Table 05-12). -/
def execVmax (v : TileId) (pred : PReg) (vd va vb : VReg) (fmt : FmtCode) (s : State) : Result :=
  vecOp v pred .vs (arithFmt fmt) vd [.v va, .v vb] (fun _ t => exact2 maxCode fmt t.v[va] t.v[vb]) s

/-- Sign operations: on a floating element only its sign bit changes, a NaN included (05 R137). -/
def sign1 (ff : FFmt → Nat → Nat) (fi : Int → Int) (fmt : FmtCode) (sat : Bool) (a : Line) :
    List (Nat × List Byte) × Bool :=
  match fmtOf fmt with
  | some (.flt f) => elemOp1 f.width (fun _ p => (ff f p, false)) a
  | some (.int w) => elemOp1 w (fun _ p => (intResult w sat (fi (sInt w p)), false)) a
  | _ => ([], false)

/-- VABS: sign cleared; integer absolute value (05 Table 05-12). -/
def execVabs (v : TileId) (pred : PReg) (vd va : VReg) (fmt : FmtCode) (sat : Bool) (s : State) : Result :=
  vecOp v pred .vs (arithFmt fmt && rndSatLegal fmt 0 sat) vd [.v va]
    (fun _ t => sign1 (fun f p => p % 2 ^ (f.width - 1)) (fun x => x.natAbs) fmt sat t.v[va]) s

/-- VNEG: sign inverted; integer negation (05 Table 05-12). -/
def execVneg (v : TileId) (pred : PReg) (vd va : VReg) (fmt : FmtCode) (sat : Bool) (s : State) : Result :=
  vecOp v pred .vs (arithFmt fmt && rndSatLegal fmt 0 sat) vd [.v va]
    (fun _ t => sign1 (fun f p => p ^^^ 2 ^ (f.width - 1)) (fun x => -x) fmt sat t.v[va]) s

/-- VAND (05 Table 05-12). -/
def execVand (v : TileId) (pred : PReg) (vd va vb : VReg) (fmt : FmtCode) (s : State) : Result :=
  vecOp v pred .vs (intFmt fmt) vd [.v va, .v vb] (fun _ t => exact2 (fun _ x y => x &&& y) fmt t.v[va] t.v[vb]) s

/-- VOR (05 Table 05-12). -/
def execVor (v : TileId) (pred : PReg) (vd va vb : VReg) (fmt : FmtCode) (s : State) : Result :=
  vecOp v pred .vs (intFmt fmt) vd [.v va, .v vb] (fun _ t => exact2 (fun _ x y => x ||| y) fmt t.v[va] t.v[vb]) s

/-- VXOR (05 Table 05-12). -/
def execVxor (v : TileId) (pred : PReg) (vd va vb : VReg) (fmt : FmtCode) (s : State) : Result :=
  vecOp v pred .vs (intFmt fmt) vd [.v va, .v vb] (fun _ t => exact2 (fun _ x y => x ^^^ y) fmt t.v[va] t.v[vb]) s

/-- VSHL: Va shifted left by Vb mod w (05 Table 05-12). -/
def execVshl (v : TileId) (pred : PReg) (vd va vb : VReg) (fmt : FmtCode) (s : State) : Result :=
  vecOp v pred .vs (intFmt fmt) vd [.v va, .v vb]
    (fun _ t => exact2 (fun f x y => (x <<< (y % f.width)) % 2 ^ f.width) fmt t.v[va] t.v[vb]) s

/-- VSHR: shifted right, zero fill (05 Table 05-12). -/
def execVshr (v : TileId) (pred : PReg) (vd va vb : VReg) (fmt : FmtCode) (s : State) : Result :=
  vecOp v pred .vs (intFmt fmt) vd [.v va, .v vb]
    (fun _ t => exact2 (fun f x y => x >>> (y % f.width)) fmt t.v[va] t.v[vb]) s

/-- VSRA: shifted right, sign fill (05 Table 05-12). -/
def execVsra (v : TileId) (pred : PReg) (vd va vb : VReg) (fmt : FmtCode) (s : State) : Result :=
  vecOp v pred .vs (intFmt fmt) vd [.v va, .v vb]
    (fun _ t => exact2 (fun f x y => uInt f.width (sInt f.width x >>> (y % f.width))) fmt t.v[va] t.v[vb]) s

/-- All ones when the comparison holds, else zero; NaN compares false (05 Table 05-12). -/
def cmpCode (ff : FVal → FVal → Bool) (fi : Int → Int → Bool) (fmt : Fmt) (x y : Nat) : Nat :=
  let r := match fmt with
    | .flt f => ff (f.decode x) (f.decode y)
    | .int w => fi (sInt w x) (sInt w y)
    | .bx12 => false
  if r then 2 ^ fmt.width - 1 else 0

/-- VCMPEQ: −0 and +0 compare equal (05 Table 05-12). -/
def execVcmpeq (v : TileId) (pred : PReg) (vd va vb : VReg) (fmt : FmtCode) (s : State) : Result :=
  vecOp v pred .vs (arithFmt fmt) vd [.v va, .v vb]
    (fun _ t => exact2 (cmpCode FVal.eqv (fun p q => p == q)) fmt t.v[va] t.v[vb]) s

/-- VCMPLT: signed; −0 is not less than +0 (05 Table 05-12). -/
def execVcmplt (v : TileId) (pred : PReg) (vd va vb : VReg) (fmt : FmtCode) (s : State) : Result :=
  vecOp v pred .vs (arithFmt fmt) vd [.v va, .v vb]
    (fun _ t => exact2 (cmpCode FVal.lt (fun p q => decide (p < q))) fmt t.v[va] t.v[vb]) s

/-- VCMPLE (05 Table 05-12). -/
def execVcmple (v : TileId) (pred : PReg) (vd va vb : VReg) (fmt : FmtCode) (s : State) : Result :=
  vecOp v pred .vs (arithFmt fmt) vd [.v va, .v vb]
    (fun _ t => exact2 (cmpCode (fun p q => p.lt q || p.eqv q) (fun p q => decide (p ≤ q))) fmt t.v[va] t.v[vb]) s

/-- VSEL: Va where the element of Vc has any bit set, else Vb (05 Table 05-12). -/
def execVsel (v : TileId) (pred : PReg) (vd va vb vc : VReg) (fmt : FmtCode) (s : State) : Result :=
  vecOp v pred .vs (selFmt fmt) vd [.v va, .v vb, .v vc]
    (fun _ t =>
      let w := fmtWidth fmt
      let rs := (((elems t.v[va] w).zip (elems t.v[vb] w)).zip (elems t.v[vc] w)).map fun ((x, y), m) =>
        if m == 0 then y else x
      ([(0, packElems w rs)], false)) s

/-! VCVT (05 R152; 07 R189, R190, R197). -/

/-- A value converted to an INT format of width w: the code, and whether R152's invalid holds. -/
def toInt (w : Nat) (rnd : Rnd) : FVal → Nat × Bool
  | .nan => (0, true)
  | .inf neg => (satInt w (if neg then -(2 ^ w) else 2 ^ w), true)
  | .fin neg m e =>
    let r := roundInt rnd neg m e
    (satInt w r, !inIntRange w r)

/-- The values of n source elements of format `f` from element `first` on; n is a whole number of BX12 blocks. -/
def sourceValues (f : Fmt) (l : Line) (first n : Nat) : List FVal :=
  let xs := (List.range n).map fun i => elemAt l 0 f.width (first + i)
  match f with
  | .flt g => xs.map g.decode
  | .int w => xs.map fun x => FVal.ofInt (sInt w x)
  | .bx12 => (List.range (n / 16)).flatMap fun b => bxDecodeBlock ((xs.drop (16 * b)).take 16)

/-- n values into destination codes, element `first + i` for value i, and whether source 8 is raised. -/
def destCodes (src dst : Fmt) (rnd : Nat → Rnd) (vs : List FVal) : List Nat × Bool :=
  match dst with
  | .flt g =>
    (vs.zipIdx.map fun (x, i) => g.encode (rnd i) x, false)
  | .int w =>
    let rs := vs.zipIdx.map fun (x, i) =>
      match src with
      | .int _ => ((toInt w .zero x).1, false)
      | _ => toInt w (rnd i) x
    (rs.map (·.1), rs.any (·.2))
  | .bx12 =>
    let rs := (List.range (vs.length / 16)).map fun b =>
      bxEncodeBlock ((vs.drop (16 * b)).take 16) fun i => rnd (16 * b + i)
    (rs.flatMap (·.1), rs.any (·.2))

/-- Formats, chunks and RND of a VCVT in range (05 R152). -/
def vcvtLegal (fmt fmt2 : FmtCode) (sp dp : BitVec 3) (rnd : BitVec 2) : Bool :=
  let ws := fmtWidth fmt
  let wd := fmtWidth fmt2
  cvtFmt fmt && cvtFmt fmt2 && sp.toNat < max ws wd / ws && dp.toNat < max ws wd / wd &&
    match fmtOf fmt, fmtOf fmt2 with
    | some (.int _), some (.int _) => rnd == 0
    | _, _ => rnd.toNat < 3

/-- VCVT (05 R152). Its destination element index, which for INT4 and DP above 0 goes up to 511, enters the random value of 07
R194 as it is (DESIGN CHOICE, log entry 112). -/
def execVcvt (v : TileId) (pred : PReg) (vd va : VReg) (fmt fmt2 : FmtCode) (sp dp : BitVec 3) (rnd : BitVec 2)
    (s : State) : Result :=
  vecOp v pred .vc (vcvtLegal fmt fmt2 sp dp rnd) vd [.v va]
    (fun x t =>
      match fmtOf fmt, fmtOf fmt2 with
      | some f, some g =>
        let n := 2048 / max f.width g.width
        let r := destCodes f g (fun i => x.rnd rnd (dp.toNat * n + i)) (sourceValues f t.v[va] (sp.toNat * n) n)
        ([(dp.toNat * n * g.width / 8, packElems g.width r.1)], r.2)
      | _, _ => ([], false)) s

/-! Reductions (05 Table 05-12, R153; 07 R201). -/

/-- A result in the low bytes, the other bytes 0. -/
def lowBytes (n x : Nat) : List (Nat × List Byte) :=
  [(0, leBytes n x ++ List.replicate (256 - n) 0)]

/-- One level of the tree of R201: pairs added and rounded in binary32; whether R137's invalid was met. -/
def sumLevel : List Nat → List Nat × Bool
  | x :: y :: rest =>
    let a := fBinary32.decode x
    let b := fBinary32.decode y
    let r := fltResult fBinary32 .nearest [a, b] (a.add b)
    let l := sumLevel rest
    (r.1 :: l.1, r.2 || l.2)
  | xs => (xs, false)

/-- The tree of R201, `fuel` levels. -/
def sumTree : Nat → List Nat → Nat × Bool
  | 0, xs => (xs.headD 0, false)
  | fuel + 1, xs =>
    if xs.length ≤ 1 then (xs.headD 0, false)
    else
      let l := sumLevel xs
      let r := sumTree fuel l.1
      (r.1, l.2 || r.2)

/-- VRSUM (05 Table 05-12, 07 R201). -/
def execVrsum (v : TileId) (pred : PReg) (vd va : VReg) (fmt : FmtCode) (s : State) : Result :=
  vecOp v pred .vr (arithFmt fmt) vd [.v va]
    (fun _ t =>
      match fmtOf fmt with
      | some (.flt f) =>
        let r := sumTree 8 ((elems t.v[va] f.width).map fun x => fBinary32.encode .nearest (f.decode x))
        (lowBytes 4 r.1, r.2)
      | some (.int w) =>
        (lowBytes 4 (uInt 32 ((elems t.v[va] w).foldl (fun (a : Int) x => a + sInt w x) 0)), false)
      | _ => ([], false)) s

def reduceCode (g : Fmt → Nat → Nat → Nat) (fmt : FmtCode) (l : Line) : List (Nat × List Byte) × Bool :=
  match fmtOf fmt with
  | some f =>
    match elems l f.width with
    | [] => ([], false)
    | x :: xs =>
      let one := match f with
        | .flt h => if (h.decode x).isNan then h.nanCode else x
        | _ => x
      (lowBytes (f.width / 8) (xs.foldl (g f) one), false)
  | none => ([], false)

/-- VRMAX (05 Table 05-12). -/
def execVrmax (v : TileId) (pred : PReg) (vd va : VReg) (fmt : FmtCode) (s : State) : Result :=
  vecOp v pred .vr (arithFmt fmt) vd [.v va] (fun _ t => reduceCode maxCode fmt t.v[va]) s

/-- VRMIN (05 Table 05-12). -/
def execVrmin (v : TileId) (pred : PReg) (vd va : VReg) (fmt : FmtCode) (s : State) : Result :=
  vecOp v pred .vr (arithFmt fmt) vd [.v va] (fun _ t => reduceCode minCode fmt t.v[va]) s

/-- y ranks above x (05 R153): every NaN above every number, numbers as VMAX. -/
def ranksAbove (fmt : Fmt) (x y : Nat) : Bool :=
  match fmt with
  | .flt f =>
    let a := f.decode x
    let b := f.decode y
    if a.isNan then false else b.isNan || a.ltZ b
  | .int w => sInt w x < sInt w y
  | .bx12 => false

/-- Index of the greatest element, the lowest among equals (05 R153). -/
def argMax (fmt : Fmt) (xs : List Nat) : Nat :=
  (xs.zipIdx.foldl (fun (best : Option (Nat × Nat)) (x, i) =>
    match best with
    | none => some (x, i)
    | some (b, j) => if ranksAbove fmt b x then some (x, i) else some (b, j)) none).map (·.2) |>.getD 0

/-- VRARGMAX (05 Table 05-12, R153). -/
def execVrargmax (v : TileId) (pred : PReg) (vd va : VReg) (fmt : FmtCode) (s : State) : Result :=
  vecOp v pred .vr (arithFmt fmt) vd [.v va]
    (fun _ t =>
      match fmtOf fmt with
      | some f => (lowBytes 4 (argMax f (elems t.v[va] f.width)), false)
      | none => ([], false)) s

/-- VANY: PDd ← 1 when any bit of Va is 1 (05 Table 05-12). -/
def execVany (v : TileId) (pred : PReg) (d : PReg) (va : VReg) (s : State) : Result :=
  onChip (issueResult v 3 pred .vr true [.pd d] [.v va]
    fun t => [.pd d (t.v[va].toList.any fun b => b != 0)]) s

/-! Transcendentals (05 R154, Table 05-13). -/

/-- The result of a transcendental: the special cases of Table 05-13, otherwise a code that R154 leaves
open within the table's bounds; with R137's conditions (source 8). -/
def transResult (op : Config.Trans) (fc : FmtCode) (f : FFmt) (x : Nat) : Nat × Bool :=
  let one := f.round .nearest false 1 0
  match f.decode x with
  | .nan => (f.nanCode, false)
  | .inf neg =>
    match op with
    | .exp => (if neg then 0 else f.infCode false, false)
    | .log => if neg then (f.nanCode, true) else (f.infCode false, false)
    | .rcp => (f.signBit neg, false)
    | .rsq => if neg then (f.nanCode, true) else (0, false)
    | .tanh => (f.signBit neg + one, false)
    | .sig => (if neg then 0 else one, false)
  | .fin neg m e =>
    let r := transRange op f neg m e
    let free := (codeBetween f r.1 r.2 (Config.transBits op fc.toNat x), false)
    if m == 0 then
      match op with
      | .log => (f.infCode true, true)
      | .rcp => (f.infCode neg, true)
      | .rsq => (f.infCode neg, true)
      | _ => free
    else if neg then
      match op with
      | .log => (f.nanCode, true)
      | .rsq => (f.nanCode, true)
      | _ => free
    else free

def transOp (op : Config.Trans) (v : TileId) (pred : PReg) (vd va : VReg) (fmt : FmtCode) (s : State) : Result :=
  vecOp v pred .vt (transFmt fmt) vd [.v va]
    (fun _ t =>
      match fmtOf fmt with
      | some (.flt f) => elemOp1 f.width (fun _ x => transResult op fmt f x) t.v[va]
      | _ => ([], false)) s

/-- VEXP (05 Table 05-13). -/
def execVexp (v : TileId) (pred : PReg) (vd va : VReg) (fmt : FmtCode) (s : State) : Result :=
  transOp .exp v pred vd va fmt s
/-- VLOG (05 Table 05-13). -/
def execVlog (v : TileId) (pred : PReg) (vd va : VReg) (fmt : FmtCode) (s : State) : Result :=
  transOp .log v pred vd va fmt s
/-- VRCP (05 Table 05-13). -/
def execVrcp (v : TileId) (pred : PReg) (vd va : VReg) (fmt : FmtCode) (s : State) : Result :=
  transOp .rcp v pred vd va fmt s
/-- VRSQ (05 Table 05-13). -/
def execVrsq (v : TileId) (pred : PReg) (vd va : VReg) (fmt : FmtCode) (s : State) : Result :=
  transOp .rsq v pred vd va fmt s
/-- VTANH (05 Table 05-13). -/
def execVtanh (v : TileId) (pred : PReg) (vd va : VReg) (fmt : FmtCode) (s : State) : Result :=
  transOp .tanh v pred vd va fmt s
/-- VSIG (05 Table 05-13). -/
def execVsig (v : TileId) (pred : PReg) (vd va : VReg) (fmt : FmtCode) (s : State) : Result :=
  transOp .sig v pred vd va fmt s

/-! Moves (05 Table 05-12). -/

/-- VMOV. -/
def execVmov (v : TileId) (pred : PReg) (vd va : VReg) (s : State) : Result :=
  vecOp v pred .vs true vd [.v va] (fun _ t => ([(0, t.v[va].bytes)], false)) s

/-- VBCA: every element ← low w bits of A(a). -/
def execVbca (v : TileId) (pred : PReg) (vd : VReg) (aa : AReg) (fmt : FmtCode) (s : State) : Result :=
  vecOp v pred .vp (moveFmt fmt) vd [.a aa]
    (fun _ t =>
      let w := fmtWidth fmt
      ([(0, packElems w (List.replicate (2048 / w) ((t.a[aa]).toNat % 2 ^ w)))], false)) s

/-- IMM in an element of FMT (05 Table 05-12, VIMM). -/
def immElem (fmt : FmtCode) (imm : BitVec 16) : Nat :=
  match fmt.toNat with
  | 0 => imm.toNat * 2 ^ 16
  | 8 => (BitVec.signExtend 32 imm).toNat
  | 3 | 4 | 10 => imm.toNat % 256
  | _ => imm.toNat

/-- VIMM. -/
def execVimm (v : TileId) (pred : PReg) (vd : VReg) (imm : BitVec 16) (fmt : FmtCode) (s : State) : Result :=
  vecOp v pred .vp (moveFmt fmt) vd []
    (fun _ _ =>
      let w := fmtWidth fmt
      ([(0, packElems w (List.replicate (2048 / w) (immElem fmt imm)))], false)) s

/-- VPERMB: byte i of Vd ← byte (byte i of Vc) of Va. -/
def execVpermb (v : TileId) (pred : PReg) (vd va vc : VReg) (s : State) : Result :=
  vecOp v pred .vp true vd [.v va, .v vc]
    (fun _ t => ([(0, (t.v[vc]).bytes.map fun i => (t.v[va]).byte i.toNat)], false)) s

/-! VMXQ (06 R167, R168). -/

/-- emax of the element formats. -/
def mxEmax (fmt2 : FmtCode) : Int := if fmt2.toNat == 5 then 4 else 2

/-- One block of 32 values: the scale, the element codes, and whether source 8 is raised (06 R168). -/
def mxBlock (fmt2 : FmtCode) (f : FFmt) (vs : List FVal) (rnd : Nat → Rnd) : Nat × List Nat × Bool :=
  if vs.all FVal.isFin then
    let s : Int := match maxLog2 vs with
      | none => 127
      | some l => max 0 (min 254 (l - mxEmax fmt2 + 127))
    (s.toNat, vs.zipIdx.map fun (x, i) =>
      match x with
      | .fin neg m e => f.round (rnd i) neg m (e + 127 - s)
      | _ => 0, false)
  else (255, List.replicate 32 0, true)

def vmxqLegal (fmt fmt2 : FmtCode) (sp dp : BitVec 3) (rnd : BitVec 2) : Bool :=
  transFmt fmt && 5 ≤ fmt2.toNat && fmt2.toNat ≤ 7 && rnd.toNat < 3 && dp.toNat < 3 &&
    (sp == 0 || (sp == 1 && fmt.toNat != 0))

/-- VMXQ: 64 elements into two blocks of the microscaled activation form (06 R167, R168; 07 R194 gives the byte index as
the element of the random value). -/
def execVmxq (v : TileId) (pred : PReg) (vd va : VReg) (fmt fmt2 : FmtCode) (sp dp : BitVec 3) (rnd : BitVec 2)
    (s : State) : Result :=
  vecOp v pred .vc (vmxqLegal fmt fmt2 sp dp rnd) vd [.v va]
    (fun x t =>
      match fmtOf fmt, fmtOf fmt2 with
      | some f, some (.flt g) =>
        let vs := sourceValues f t.v[va] (64 * sp.toNat) 64
        let base := 64 * dp.toNat
        let b0 := mxBlock fmt2 g (vs.take 32) fun i => x.rnd rnd (base + i)
        let b1 := mxBlock fmt2 g (vs.drop 32) fun i => x.rnd rnd (base + 32 + i)
        ([(base, (b0.2.1 ++ b1.2.1).map fun c => BitVec.ofNat 8 c),
          (192 + 2 * dp.toNat, [BitVec.ofNat 8 b0.1, BitVec.ofNat 8 b1.1])], b0.2.2 || b1.2.2)
      | _, _ => ([], false)) s

end Sys2Proof.Machine
end

