-- ==== Sys2Proof/Machine/Dispatch.lean ====
section
/-! DEFINITION. One arm per command: its meaning. -/

namespace Sys2Proof.Machine

def exec (i : Instr) (s : State) : Host.Outcome State Fault Refusal :=
  match i with
  | .nop tile slot => Sys2Proof.Machine.execNop tile slot s
  | .br tile pred target pop => Sys2Proof.Machine.execBr tile pred target pop s
  | .loop tile pred len k n => Sys2Proof.Machine.execLoop tile pred len k n s
  | .loopEnd tile => Sys2Proof.Machine.execLoopEnd tile s
  | .pand tile pred d a b => Sys2Proof.Machine.execPand tile pred d a b s
  | .por tile pred d a b => Sys2Proof.Machine.execPor tile pred d a b s
  | .pxor tile pred d a b => Sys2Proof.Machine.execPxor tile pred d a b s
  | .pandn tile pred d a b => Sys2Proof.Machine.execPandn tile pred d a b s
  | .endProgram tile pred => Sys2Proof.Machine.execEndProgram tile pred s
  | .waitGtc tile pred aa => Sys2Proof.Machine.execWaitGtc tile pred aa s
  | .waitGtcEnd => Sys2Proof.Machine.execWaitGtcEnd s
  | .ramp tile pred qmask level lead => Sys2Proof.Machine.execRamp tile pred qmask level lead s
  | .ld tile pred v a => Sys2Proof.Machine.execLd tile pred v a s
  | .st tile pred v a => Sys2Proof.Machine.execSt tile pred v a s
  | .stm tile pred v a am => Sys2Proof.Machine.execStm tile pred v a am s
  | .aadd tile pred d a b => Sys2Proof.Machine.execAadd tile pred d a b s
  | .asub tile pred d a b => Sys2Proof.Machine.execAsub tile pred d a b s
  | .amul tile pred d a b => Sys2Proof.Machine.execAmul tile pred d a b s
  | .aand tile pred d a b => Sys2Proof.Machine.execAand tile pred d a b s
  | .aor tile pred d a b => Sys2Proof.Machine.execAor tile pred d a b s
  | .axor tile pred d a b => Sys2Proof.Machine.execAxor tile pred d a b s
  | .ashl tile pred d a b => Sys2Proof.Machine.execAshl tile pred d a b s
  | .ashr tile pred d a b => Sys2Proof.Machine.execAshr tile pred d a b s
  | .asra tile pred d a b => Sys2Proof.Machine.execAsra tile pred d a b s
  | .amin tile pred d a b => Sys2Proof.Machine.execAmin tile pred d a b s
  | .amax tile pred d a b => Sys2Proof.Machine.execAmax tile pred d a b s
  | .cmpeq tile pred d a b => Sys2Proof.Machine.execCmpeq tile pred d a b s
  | .cmpne tile pred d a b => Sys2Proof.Machine.execCmpne tile pred d a b s
  | .cmplt tile pred d a b => Sys2Proof.Machine.execCmplt tile pred d a b s
  | .cmple tile pred d a b => Sys2Proof.Machine.execCmple tile pred d a b s
  | .cmpltu tile pred d a b => Sys2Proof.Machine.execCmpltu tile pred d a b s
  | .cmpleu tile pred d a b => Sys2Proof.Machine.execCmpleu tile pred d a b s
  | .amovi tile pred d imm => Sys2Proof.Machine.execAmovi tile pred d imm s
  | .movka tile pred d k => Sys2Proof.Machine.execMovka tile pred d k s
  | .aget tile pred d vs w => Sys2Proof.Machine.execAget tile pred d vs w s
  | .ldb tile pred v a => Sys2Proof.Machine.execLdb tile pred v a s
  | .stb tile pred v a => Sys2Proof.Machine.execStb tile pred v a s
  | .wld tile pred wb a fmt g => Sys2Proof.Machine.execWld tile pred wb a fmt g s
  | .wldb tile pred wb a fmt g => Sys2Proof.Machine.execWldb tile pred wb a fmt g s
  | .mmul tile pred wb ma vs seg fmt zero => Sys2Proof.Machine.execMmul tile pred wb ma vs seg fmt zero s
  | .mamv tile pred ma vd half => Sys2Proof.Machine.execMamv tile pred ma vd half s
  | .mald tile pred ma vs half => Sys2Proof.Machine.execMald tile pred ma vs half s
  | .maclr tile pred ma => Sys2Proof.Machine.execMaclr tile pred ma s
  | .mxwld tile pred wb a fmt plane => Sys2Proof.Machine.execMxwld tile pred wb a fmt plane s
  | .mxscl tile pred wb vs part => Sys2Proof.Machine.execMxscl tile pred wb vs part s
  | .mxmul tile pred wb ma vs seg fmt zero => Sys2Proof.Machine.execMxmul tile pred wb ma vs seg fmt zero s
  | .vadd tile pred vd va vb fmt rnd sat => Sys2Proof.Machine.execVadd tile pred vd va vb fmt rnd sat s
  | .vsub tile pred vd va vb fmt rnd sat => Sys2Proof.Machine.execVsub tile pred vd va vb fmt rnd sat s
  | .vmul tile pred vd va vb fmt rnd sat => Sys2Proof.Machine.execVmul tile pred vd va vb fmt rnd sat s
  | .vfma tile pred vd va vb vc fmt rnd sat => Sys2Proof.Machine.execVfma tile pred vd va vb vc fmt rnd sat s
  | .vmin tile pred vd va vb fmt => Sys2Proof.Machine.execVmin tile pred vd va vb fmt s
  | .vmax tile pred vd va vb fmt => Sys2Proof.Machine.execVmax tile pred vd va vb fmt s
  | .vabs tile pred vd va fmt sat => Sys2Proof.Machine.execVabs tile pred vd va fmt sat s
  | .vneg tile pred vd va fmt sat => Sys2Proof.Machine.execVneg tile pred vd va fmt sat s
  | .vand tile pred vd va vb fmt => Sys2Proof.Machine.execVand tile pred vd va vb fmt s
  | .vor tile pred vd va vb fmt => Sys2Proof.Machine.execVor tile pred vd va vb fmt s
  | .vxor tile pred vd va vb fmt => Sys2Proof.Machine.execVxor tile pred vd va vb fmt s
  | .vshl tile pred vd va vb fmt => Sys2Proof.Machine.execVshl tile pred vd va vb fmt s
  | .vshr tile pred vd va vb fmt => Sys2Proof.Machine.execVshr tile pred vd va vb fmt s
  | .vsra tile pred vd va vb fmt => Sys2Proof.Machine.execVsra tile pred vd va vb fmt s
  | .vcmpeq tile pred vd va vb fmt => Sys2Proof.Machine.execVcmpeq tile pred vd va vb fmt s
  | .vcmplt tile pred vd va vb fmt => Sys2Proof.Machine.execVcmplt tile pred vd va vb fmt s
  | .vcmple tile pred vd va vb fmt => Sys2Proof.Machine.execVcmple tile pred vd va vb fmt s
  | .vsel tile pred vd va vb vc fmt => Sys2Proof.Machine.execVsel tile pred vd va vb vc fmt s
  | .vcvt tile pred vd va fmt fmt2 sp dp rnd => Sys2Proof.Machine.execVcvt tile pred vd va fmt fmt2 sp dp rnd s
  | .vrsum tile pred vd va fmt => Sys2Proof.Machine.execVrsum tile pred vd va fmt s
  | .vrmax tile pred vd va fmt => Sys2Proof.Machine.execVrmax tile pred vd va fmt s
  | .vrmin tile pred vd va fmt => Sys2Proof.Machine.execVrmin tile pred vd va fmt s
  | .vrargmax tile pred vd va fmt => Sys2Proof.Machine.execVrargmax tile pred vd va fmt s
  | .vany tile pred d va => Sys2Proof.Machine.execVany tile pred d va s
  | .vexp tile pred vd va fmt => Sys2Proof.Machine.execVexp tile pred vd va fmt s
  | .vlog tile pred vd va fmt => Sys2Proof.Machine.execVlog tile pred vd va fmt s
  | .vrcp tile pred vd va fmt => Sys2Proof.Machine.execVrcp tile pred vd va fmt s
  | .vrsq tile pred vd va fmt => Sys2Proof.Machine.execVrsq tile pred vd va fmt s
  | .vtanh tile pred vd va fmt => Sys2Proof.Machine.execVtanh tile pred vd va fmt s
  | .vsig tile pred vd va fmt => Sys2Proof.Machine.execVsig tile pred vd va fmt s
  | .vmov tile pred vd va => Sys2Proof.Machine.execVmov tile pred vd va s
  | .vbca tile pred vd aa fmt => Sys2Proof.Machine.execVbca tile pred vd aa fmt s
  | .vimm tile pred vd imm fmt => Sys2Proof.Machine.execVimm tile pred vd imm fmt s
  | .vpermb tile pred vd va vc => Sys2Proof.Machine.execVpermb tile pred vd va vc s
  | .vmxq tile pred vd va fmt fmt2 sp dp rnd => Sys2Proof.Machine.execVmxq tile pred vd va fmt fmt2 sp dp rnd s
  | .msend tile pred src drow dcol ch => Sys2Proof.Machine.execMsend tile pred src drow dcol ch s
  | .recv tile pred cls ch dst => Sys2Proof.Machine.execRecv tile pred cls ch dst s
  | .fsend tile pred src part port ac ar => Sys2Proof.Machine.execFsend tile pred src part port ac ar s
  | .hwrite tile pred src ah bcnt cmpl aq => Sys2Proof.Machine.execHwrite tile pred src ah bcnt cmpl aq s
  | .sreq tile pred src ad rch => Sys2Proof.Machine.execSreq tile pred src ad rch s
  | .resultLanding tile => Sys2Proof.Machine.execResultLanding tile s
  | .waitReceiveCheck tile pred ch => Sys2Proof.Machine.execWaitReceiveCheck tile pred ch s
  | .holdRelease => Sys2Proof.Machine.execHoldRelease s
  | .meshLineArrival tile => Sys2Proof.Machine.execMeshLineArrival tile s
  | .scrubRead tile => Sys2Proof.Machine.execScrubRead tile s
  | .scrubWriteback tile => Sys2Proof.Machine.execScrubWriteback tile s
  | .scrubCoverageLow tile sb => Sys2Proof.Machine.execScrubCoverageLow tile sb s
  | .columnMapWrite reg value => Sys2Proof.Machine.execColumnMapWrite reg value s
  | .traceEnable value => Sys2Proof.Machine.execTraceEnable value s
  | .traceDataRead => Sys2Proof.Machine.execTraceDataRead s
  | .registerWrite space offset size value => Sys2Proof.Machine.execRegisterWrite space offset size value s
  | .steepCommit => Sys2Proof.Machine.execSteepCommit s
  | .monCommit => Sys2Proof.Machine.execMonCommit s
  | .gtcRead => Sys2Proof.Machine.execGtcRead s
  | .lagRead => Sys2Proof.Machine.execLagRead s
  | .srchWorkRead => Sys2Proof.Machine.execSrchWorkRead s
  | .steepBalRead q => Sys2Proof.Machine.execSteepBalRead q s
  | .bbTimeRead => Sys2Proof.Machine.execBbTimeRead s
  | .egressArbitration port => Sys2Proof.Machine.execEgressArbitration port s
  | .frameReceive port bytes => Sys2Proof.Machine.execFrameReceive port bytes s
  | .replayTimeout port => Sys2Proof.Machine.execReplayTimeout port s
  | .fabRetryRate port => Sys2Proof.Machine.execFabRetryRate port s
  | .portEnable port enable => Sys2Proof.Machine.execPortEnable port enable s
  | .retrain port => Sys2Proof.Machine.execRetrain port s
  | .classWrite port cls => Sys2Proof.Machine.execClassWrite port cls s
  | .partnerDetected port => Sys2Proof.Machine.execPartnerDetected port s
  | .detectTimeout port => Sys2Proof.Machine.execDetectTimeout port s
  | .lock port locked => Sys2Proof.Machine.execLock port locked s
  | .equalise port good => Sys2Proof.Machine.execEqualise port good s
  | .align port peerChip peerPort peerDsn peerFailed => Sys2Proof.Machine.execAlign port peerChip peerPort peerDsn peerFailed s
  | .measure port delayNs => Sys2Proof.Machine.execMeasure port delayNs s
  | .confirm port => Sys2Proof.Machine.execConfirm port s
  | .trainPhaseTimeout port => Sys2Proof.Machine.execTrainPhaseTimeout port s
  | .laneFail port lane => Sys2Proof.Machine.execLaneFail port lane s
  | .retrainPatternSeen port => Sys2Proof.Machine.execRetrainPatternSeen port s
  | .retrainDone port peerFailed => Sys2Proof.Machine.execRetrainDone port peerFailed s
  | .retrainTimeout port => Sys2Proof.Machine.execRetrainTimeout port s
  | .downTimeout port => Sys2Proof.Machine.execDownTimeout port s
  | .trayIndexWrite value => Sys2Proof.Machine.execTrayIndexWrite value s
  | .scheduledLineArrival port => Sys2Proof.Machine.execScheduledLineArrival port s
  | .arrivalGateRelease port => Sys2Proof.Machine.execArrivalGateRelease port s
  | .segmentIssue => Sys2Proof.Machine.execSegmentIssue s
  | .rreq path => Sys2Proof.Machine.execRreq path s
  | .wreq path => Sys2Proof.Machine.execWreq path s
  | .wdata path => Sys2Proof.Machine.execWdata path s
  | .rresp path => Sys2Proof.Machine.execRresp path s
  | .wresp path => Sys2Proof.Machine.execWresp path s
  | .transactionTimeout tag => Sys2Proof.Machine.execTransactionTimeout tag s
  | .wreqTimeout src tag => Sys2Proof.Machine.execWreqTimeout src tag s
  | .managementFrame port send => Sys2Proof.Machine.execManagementFrame port send s
  | .syncSend => Sys2Proof.Machine.execSyncSend s
  | .syncFrame port => Sys2Proof.Machine.execSyncFrame port s
  | .parentLoss => Sys2Proof.Machine.execParentLoss s
  | .parentRelock => Sys2Proof.Machine.execParentRelock s
  | .rootFailover => Sys2Proof.Machine.execRootFailover s
  | .launchPour port => Sys2Proof.Machine.execLaunchPour port s
  | .abortPour port => Sys2Proof.Machine.execAbortPour port s
  | .lagFrame port => Sys2Proof.Machine.execLagFrame port s
  | .programStart => Sys2Proof.Machine.execProgramStart s
  | .runEnd => Sys2Proof.Machine.execRunEnd s
  | .holdTimeout => Sys2Proof.Machine.execHoldTimeout s
  | .forecastEffect q => Sys2Proof.Machine.execForecastEffect q s
  | .broad => Sys2Proof.Machine.execBroad s
  | .ordered => Sys2Proof.Machine.execOrdered s
  | .memwrite => Sys2Proof.Machine.execMemwrite s
  | .memread => Sys2Proof.Machine.execMemread s
  | .searchBudgetEnd => Sys2Proof.Machine.execSearchBudgetEnd s
  | .searchResult => Sys2Proof.Machine.execSearchResult s
  | .searchScrub => Sys2Proof.Machine.execSearchScrub s
  | .sqTail qp value => Sys2Proof.Machine.execSqTail qp value s
  | .cqHead qp value => Sys2Proof.Machine.execCqHead qp value s
  | .push qp offset bytes => Sys2Proof.Machine.execPush qp offset bytes s
  | .hostReadCompletion qp result => Sys2Proof.Machine.execHostReadCompletion qp result s
  | .completionTimeout qp => Sys2Proof.Machine.execCompletionTimeout qp s
  | .nopDescriptor qp => Sys2Proof.Machine.execNopDescriptor qp s
  | .write qp => Sys2Proof.Machine.execWrite qp s
  | .read qp => Sys2Proof.Machine.execRead qp s
  | .input qp => Sys2Proof.Machine.execInput qp s
  | .launch qp => Sys2Proof.Machine.execLaunch qp s
  | .stop qp => Sys2Proof.Machine.execStop qp s
  | .globalWrite qp => Sys2Proof.Machine.execGlobalWrite qp s
  | .globalRead qp => Sys2Proof.Machine.execGlobalRead qp s
  | .cancel qp => Sys2Proof.Machine.execCancel qp s
  | .fence qp => Sys2Proof.Machine.execFence qp s
  | .search qp => Sys2Proof.Machine.execSearch qp s
  | .timeQuery qp => Sys2Proof.Machine.execTimeQuery qp s
  | .hostWriteSend => Sys2Proof.Machine.execHostWriteSend s
  | .completionPost qp => Sys2Proof.Machine.execCompletionPost qp s
  | .interruptTimer qp => Sys2Proof.Machine.execInterruptTimer qp s
  | .qpEnable qp => Sys2Proof.Machine.execQpEnable qp s
  | .qpDisable qp => Sys2Proof.Machine.execQpDisable qp s
  | .qpDrainEnd qp => Sys2Proof.Machine.execQpDrainEnd qp s
  | .windowAccess offset op => Sys2Proof.Machine.execWindowAccess offset op s
  | .functionLevelReset => Sys2Proof.Machine.execFunctionLevelReset s
  | .d3hot => Sys2Proof.Machine.execD3hot s
  | .fundamentalReset => Sys2Proof.Machine.execFundamentalReset s
  | .linkDown => Sys2Proof.Machine.execLinkDown s
  | .crcStart => Sys2Proof.Machine.execCrcStart s
  | .crcDone => Sys2Proof.Machine.execCrcDone s
  | .faultLatch c => Sys2Proof.Machine.execFaultLatch c s
  | .nmiDelivery => Sys2Proof.Machine.execNmiDelivery s
  | .nmiPop => Sys2Proof.Machine.execNmiPop s
  | .escalationTimerExpiry c src => Sys2Proof.Machine.execEscalationTimerExpiry c src s
  | .autoClear c src => Sys2Proof.Machine.execAutoClear c src s
  | .fcAck c hi mask => Sys2Proof.Machine.execFcAck c hi mask s
  | .fcInject c value => Sys2Proof.Machine.execFcInject c value s
  | .fcSrcCfgWrite c src value => Sys2Proof.Machine.execFcSrcCfgWrite c src value s
  | .cscWatchdog => Sys2Proof.Machine.execCscWatchdog s
  | .clockLoss => Sys2Proof.Machine.execClockLoss s
  | .domainRequest value => Sys2Proof.Machine.execDomainRequest value s
  | .domainPowerOnEnd d => Sys2Proof.Machine.execDomainPowerOnEnd d s
  | .domainPowerOffEnd d => Sys2Proof.Machine.execDomainPowerOffEnd d s
  | .lowIdleEntry => Sys2Proof.Machine.execLowIdleEntry s
  | .lowIdleExit => Sys2Proof.Machine.execLowIdleExit s
  | .keepAliveRateReturn => Sys2Proof.Machine.execKeepAliveRateReturn s
  | .park => Sys2Proof.Machine.execPark s
  | .retentionExit => Sys2Proof.Machine.execRetentionExit s
  | .retLost => Sys2Proof.Machine.execRetLost s
  | .opGo => Sys2Proof.Machine.execOpGo s
  | .opTransitionStart => Sys2Proof.Machine.execOpTransitionStart s
  | .opTransitionEnd pllLocked vcoreInRange => Sys2Proof.Machine.execOpTransitionEnd pllLocked vcoreInRange s
  | .supplyWarning rail => Sys2Proof.Machine.execSupplyWarning rail s
  | .supplyRecovered rail => Sys2Proof.Machine.execSupplyRecovered rail s
  | .supplyReset rail => Sys2Proof.Machine.execSupplyReset rail s
  | .thermalScan milliC => Sys2Proof.Machine.execThermalScan milliC s
  | .aonReset => Sys2Proof.Machine.execAonReset s
  | .trayInputRise => Sys2Proof.Machine.execTrayInputRise s
  | .inputWarning => Sys2Proof.Machine.execInputWarning s
  | .commit cause => Sys2Proof.Machine.execCommit cause s
  | .dwellEnd => Sys2Proof.Machine.execDwellEnd s
  | .qualificationRestart => Sys2Proof.Machine.execQualificationRestart s
  | .inputQualified => Sys2Proof.Machine.execInputQualified s
  | .powerUpStart slot => Sys2Proof.Machine.execPowerUpStart slot s
  | .railDwellEnd slot => Sys2Proof.Machine.execRailDwellEnd slot s
  | .riseTimeout slot => Sys2Proof.Machine.execRiseTimeout slot s
  | .powerDownStart slot => Sys2Proof.Machine.execPowerDownStart slot s
  | .parkTimeout slot => Sys2Proof.Machine.execParkTimeout slot s
  | .railOff slot => Sys2Proof.Machine.execRailOff slot s
  | .dischargeTimeout slot => Sys2Proof.Machine.execDischargeTimeout slot s
  | .stuck slot => Sys2Proof.Machine.execStuck slot s
  | .railLost slot rail => Sys2Proof.Machine.execRailLost slot rail s
  | .inputLoss slot => Sys2Proof.Machine.execInputLoss slot s
  | .valveClosedRise slot => Sys2Proof.Machine.execValveClosedRise slot s
  | .cpcFaultClear slot => Sys2Proof.Machine.execCpcFaultClear slot s
  | .cartridgeInsert slot => Sys2Proof.Machine.execCartridgeInsert slot s
  | .cartridgeRemove slot => Sys2Proof.Machine.execCartridgeRemove slot s
  | .bbuInsert usableMwh chargePct => Sys2Proof.Machine.execBbuInsert usableMwh chargePct s
  | .bbuCharged usableMwh => Sys2Proof.Machine.execBbuCharged usableMwh s
  | .bbuDepleted => Sys2Proof.Machine.execBbuDepleted s
  | .bbuFault => Sys2Proof.Machine.execBbuFault s
  | .bbuRemove => Sys2Proof.Machine.execBbuRemove s
  | .powerControllerControl slot v => Sys2Proof.Machine.execPowerControllerControl slot v s
  | .powerIndicatorControl slot v => Sys2Proof.Machine.execPowerIndicatorControl slot v s
  | .attentionIndicatorControl slot v => Sys2Proof.Machine.execAttentionIndicatorControl slot v s
  | .attentionButtonPressed slot ms => Sys2Proof.Machine.execAttentionButtonPressed slot ms s
  | .tmcRestart h bootCount => Sys2Proof.Machine.execTmcRestart h bootCount s
  | .slotPower h mask order noNotice => Sys2Proof.Machine.execSlotPower h mask order noNotice s
  | .defer h notice => Sys2Proof.Machine.execDefer h notice s
  | .deferDone h notice => Sys2Proof.Machine.execDeferDone h notice s
  | .noticeExpiry => Sys2Proof.Machine.execNoticeExpiry s
  | .deferTimeout => Sys2Proof.Machine.execDeferTimeout s
  | .coolDemand h flow fan pump => Sys2Proof.Machine.execCoolDemand h flow fan pump s
  | .sensorRead h first count => Sys2Proof.Machine.execSensorRead h first count s
  | .logRead h number count => Sys2Proof.Machine.execLogRead h number count s
  | .faultAck h mask => Sys2Proof.Machine.execFaultAck h mask s
  | .chipRead h slot offset count => Sys2Proof.Machine.execChipRead h slot offset count s
  | .chipWrite h slot offset value => Sys2Proof.Machine.execChipWrite h slot offset value s
  | .cableInfo h cage => Sys2Proof.Machine.execCableInfo h cage s
  | .dhcpTimeout => Sys2Proof.Machine.execDhcpTimeout s
  | .sensorScan criticalOnly readings => Sys2Proof.Machine.execSensorScan criticalOnly readings s
  | .logRecordWrite => Sys2Proof.Machine.execLogRecordWrite s
  | .watchdogService => Sys2Proof.Machine.execWatchdogService s
  | .watchdogExpiry => Sys2Proof.Machine.execWatchdogExpiry s
  | .expiredClear => Sys2Proof.Machine.execExpiredClear s
  | .cardReset => Sys2Proof.Machine.execCardReset s
  | .baseBoardReset => Sys2Proof.Machine.execBaseBoardReset s
  | .move axis => Sys2Proof.Machine.execMove axis s
  | .axisStop axis => Sys2Proof.Machine.execAxisStop axis s
  | .resume axis => Sys2Proof.Machine.execResume axis s
  | .home axis => Sys2Proof.Machine.execHome axis s
  | .engage axis => Sys2Proof.Machine.execEngage axis s
  | .disengage axis => Sys2Proof.Machine.execDisengage axis s
  | .profileLimitWrite axis reg value => Sys2Proof.Machine.execProfileLimitWrite axis reg value s
  | .moveEnd axis => Sys2Proof.Machine.execMoveEnd axis s
  | .axisHalt axis pos => Sys2Proof.Machine.execAxisHalt axis pos s
  | .homeFail axis => Sys2Proof.Machine.execHomeFail axis s
  | .closedSwitch axis pos => Sys2Proof.Machine.execClosedSwitch axis pos s
  | .openSwitch axis pos => Sys2Proof.Machine.execOpenSwitch axis pos s
  | .closeOverrun axis => Sys2Proof.Machine.execCloseOverrun axis s
  | .railsOffRise slot => Sys2Proof.Machine.execRailsOffRise slot s
  | .camSample => Sys2Proof.Machine.execCamSample s
  | .camSwap cam => Sys2Proof.Machine.execCamSwap cam s
  | .tmcReq v => Sys2Proof.Machine.execTmcReq v s
  | .driveOutOfRange k => Sys2Proof.Machine.execDriveOutOfRange k s
  | .leak bay => Sys2Proof.Machine.execLeak bay s
  | .leakClear mask => Sys2Proof.Machine.execLeakClear mask s
  | .valvePolicyMove slot policy => Sys2Proof.Machine.execValvePolicyMove slot policy s
  | .twoWireRegisterWrite slot dev bytes => Sys2Proof.Machine.execTwoWireRegisterWrite slot dev bytes s
  | .twoWireRegisterRead slot dev o0 o1 clocked => Sys2Proof.Machine.execTwoWireRegisterRead slot dev o0 o1 clocked s
  | .managementWakeEnd => Sys2Proof.Machine.execManagementWakeEnd s
  | .keepAliveReturn => Sys2Proof.Machine.execKeepAliveReturn s
  | .twoWireTimeout => Sys2Proof.Machine.execTwoWireTimeout s
  | .startTransaction bus => Sys2Proof.Machine.execStartTransaction bus s
  | .twoWireTransactionDone bus result bytes => Sys2Proof.Machine.execTwoWireTransactionDone bus result bytes s
  | .busStuck bus => Sys2Proof.Machine.execBusStuck bus s
  | .recover bus => Sys2Proof.Machine.execRecover bus s
  | .recoveryRetry bus => Sys2Proof.Machine.execRecoveryRetry bus s
  | .bufferConnect slot => Sys2Proof.Machine.execBufferConnect slot s
  | .cmisRead cage id => Sys2Proof.Machine.execCmisRead cage id s
  | .qualificationStart => Sys2Proof.Machine.execQualificationStart s
  | .inputWarningEnd => Sys2Proof.Machine.execInputWarningEnd s
  | .pcieLinkUp => Sys2Proof.Machine.execPcieLinkUp s
  | .moduleInsert m => Sys2Proof.Machine.execModuleInsert m s
  | .moduleRemove m => Sys2Proof.Machine.execModuleRemove m s
  | .tmcCardInsert => Sys2Proof.Machine.execTmcCardInsert s
  | .driveBackInRange k => Sys2Proof.Machine.execDriveBackInRange k s
  | .inletOverTemperature high => Sys2Proof.Machine.execInletOverTemperature high s
  | .flowLow low => Sys2Proof.Machine.execFlowLow low s
  | .dhcpLease address => Sys2Proof.Machine.execDhcpLease address s

end Sys2Proof.Machine
end

