-- ==== Sys2Proof/Machine/Engine.lean ====
section
/-! DEFINITION. One tick of 0.8 ns, which is what step does on an empty queue: the clocks, and what the block does in a core
cycle whatever is commanded: the program's start (11 R297), bundle sequencing and loop tests (05 R139, R140), lag (11 R302),
arrival gates (11 R304), the mesh and the queues at the edge of the grid (08 R207 to R212), the ends of holds (04 R105), the
steeping governor (16 R438 to R442), the trace (03 section 9) and the search unit's intake and results (12 R314, R318). -/

namespace Sys2Proof.Machine

/-! Steeping (16 R438 to R442). -/

/-- D(k): entry (k − 1) div 4 of the table, each acting as the greatest of those up to it. -/
def steepWeight (s : SteepCfg) (k : Nat) : Nat :=
  ((s.weights.toList.take ((k - 1) / 4 + 1)).map fun (d : BitVec 10) => d.toNat).foldl max 0

/-- F_fall: over the last 64 totals. -/
def floorFall (s : SteepCfg) (hist : List Nat) : Nat :=
  (hist.zipIdx.map fun x => x.1 - steepWeight s (x.2 + 1)).foldl max 0

/-- The ceiling C(t) in force (16 R440). -/
def ceilingOf (c : Chip) (q : QuadId) : Nat :=
  if c.map.run then (c.pwr.gov[q].ceiling).getD (quadCapacity c q.val) else 0

/-- F_rise, the second term only while a forecast is pending. -/
def floorRise (c : Chip) (q : QuadId) : Nat :=
  let u := c.pwr.steep.didt.toNat
  let next := match c.pwr.gov[q].forecast with
    | some f => min (8 * f.level.toNat) (quadCapacity c q.val) - (f.due - c.cmp.pcc) * u
    | none => 0
  max (ceilingOf c q - u) next

/-- Ballast B(t) of a quadrant. -/
def ballast (c : Chip) (q : QuadId) : Nat :=
  let g := c.pwr.gov[q]
  max (floorFall c.pwr.steep g.hist) (floorRise c q) - g.activity

/-- A cycle of the governor; a wrong forecast is counted, raises source 47 and is undone (16 R441). -/
def steepCycle (q : QuadId) (c : Chip) : Chip :=
  if !c.domOn (bitQ q.val) then c
  else
    let c := applyForecast q c
    let g := c.pwr.gov[q]
    let b := ballast c q
    let wrong := ceilingOf c q < g.activity
    let g := { g with bal := satAdd g.bal b, hist := ((b + g.activity) :: g.hist).take 64, activity := 0 }
    let g := if wrong then { g with viol := satInc g.viol, ceiling := none, forecast := none } else g
    let c := c.onPwr fun p => { p with gov := p.gov.set q g }
    if wrong then c.raise 47 .chip else c

/-! Trace (03 Table 03-11). -/

/-- ISSUE and HOLD of the cycle: the slots whose operations issued, none of an illegal bundle, which issues as five NOPs. -/
def traceFlags (c : Chip) (p : Fin 320) : Nat :=
  if c.holding then 32
  else ((List.range 5).filter fun k => (c.useNow p).slots.contains k).foldl (fun a k => a + 2 ^ k) 0

/-- A record of the traced tile: one for each core cycle from bundle 0 to the end of the run (03 Table 03-11, R94; that records
start with the program and not at entry to run state is a DESIGN CHOICE, log entry 85). -/
def traceCycle (c : Chip) : Chip :=
  match c.tracedTile with
  | some p => { c with map := c.map.record (traceRecord c p (traceFlags c p)) 1 }
  | none => c

/-! The CRC engine in run state (14 R388; log entry 95). -/

/-- The engine reads its next line only where the issuing bundle leaves a port free. -/
def crcCycle (c : Chip) : Chip :=
  let g := c.mgt
  let i := c.cmp.cycles - g.crcAt
  if !(c.map.run && g.crcBusy) || crcLines g ≤ i then c
  else match regionOf c.map.vc ((g.crcBase.toNat / 256 + i) * 256) with
    | .tile v o => match c.liveTile v with
      | some p => if portFits (c.useNow p) (subBank o) false then c
                  else { c with mgt := { g with crcAt := g.crcAt + 1 } }
      | none => c
    | _ => c

/-! Bundle sequencing. -/

/-- The next bundle of a tile: the target of a transfer issued two bundles ago, the start of a loop that repeats here, or the
next address (05 R139); POP ends loops when the target issues (05 R138). -/
def nextBundle (pcc : Nat) (t : Tile) : Tile :=
  match t.transfers.find? fun x => x.issued + 2 == pcc with
  | some x =>
    { t with addr := x.target, loops := t.loops.drop x.pop, transfers := t.transfers.filter fun z => pcc < z.issued + 2 }
  | none => match t.repeats with
    | some r => if r.1 == pcc then { t with addr := r.2, repeats := none } else { t with addr := t.addr + 1 }
    | none => { t with addr := t.addr + 1 }

/-- The end of a bundle in one mapped tile: its loop test is made (05 R140) and two results that land in one register are
observed (04 R101); END ends the tile (05 R142), and so does address 32,768, which issues as an illegal bundle (05 R143). No slot
of that bundle is read; SLOT of its capture is 0 (DESIGN CHOICE, log entry 111). -/
def endBundle (c : Chip) (v : TileId) : Chip :=
  match c.canIssue v with
  | none => c
  | some p =>
    let c := strainLandings v p (makeLoopTest p c)
    if (c.tile p).ended then endTile v.val p c
    else if 32768 ≤ (c.tile p).addr then endTile v.val p (illegalBundle v p 0 c)
    else c.onTile p (nextBundle c.cmp.pcc)

/-- A closed gate has one cycle less to go (11 R304). -/
def openGates (c : Chip) : Chip :=
  { c with fab := { c.fab with ports := c.fab.ports.map fun x =>
      { x with ingress := x.ingress.map fun i => { i with gate := i.gate.map fun g => g - 1 } } } }

/-- The first cycle after a hold queues LAG frames (11 R303); the PCC advances by one, hold requests and waits of past bundles
are done with, forecasts of that count take effect (16 R440), and the next bundles are fetched (04 R103, R96). -/
def issueCycle (ecc : List (Nat × EccMark)) (c : Chip) : Chip :=
  let c := openGates ((List.finRange 320).foldl endBundle (resumeIssue c))
  let c := dropPast { c with cmp := { c.cmp with pcc := c.cmp.pcc + 1 } }
  fetchBundles ecc ((List.finRange 4).foldl (fun c q => applyForecast q c) c)

/-- A cycle of a hold: the lag grows, and an unbroken hold is timed but for WAIT_GTC waits (11 R302, R307; 06 R178). -/
def holdCycle (c : Chip) : Chip :=
  let t := c.time
  let since := if c.limitHold then some (t.holdSince.getD t.gtc) else none
  { c with time := { t with lag := t.lag + 1, holdSince := since } }

/-- Results that are due land (04 R99, R104). -/
def landAll (m : List Host.Cell) (y : Sys) : List Host.Cell × Sys :=
  (List.finRange 320).foldl (fun acc p =>
    if (acc.2.chip.tile p).flight.isEmpty then acc else landDue p acc.1 acc.2) (m, y)

/-- One core cycle, but for the mesh, whose lines of the cycle pass once the cycle's results have landed. -/
def coreCycle (ecc : List (Nat × EccMark)) (c : Chip) : Chip :=
  let run := c.map.run && c.cmp.started
  let c := crcCycle (traceCycle ((List.finRange 4).foldl (fun c q => steepCycle q c) c))
  let c := if !run then c else if c.holding then holdCycle c else issueCycle ecc c
  let w : Dword := if c.domOn bitSrch then 1 else 0
  let c := { c with cmp := { c.cmp with cycles := c.cmp.cycles + 1 }, srch := { c.srch with work := c.srch.work + w } }
  { c with srch := closeReservations (srchCount c) c.srch }

/-- The core view has reached L: bundle 0 is next (11 R297, 04 R103). -/
def startProgram (ecc : List (Nat × EccMark)) (c : Chip) : Chip :=
  if c.map.run && !c.cmp.started && c.time.launchL.toNat ≤ c.time.coreView.toNat then beginProgram ecc c else c

/-- What moves at the edge of the grid in a core cycle: frames whose receive pad is over, one scheduled line of each port whose
gate is open, lines that have reached a port, the host edge or the search unit, and search results that are due; then lines
reach their channels, and those that a hold has waited for set its end (04 R105; 08 R207 to R217; 10 R254; 12 R318). -/
def edgeCycle (now : Nat) (c : Chip) : Chip :=
  let c := allPorts.foldl (fun c p => passFirst p (admitPort now p c)) c
  let c := sendHostLines (deliverReady (takeSearchLines (takeHostLines (deliverPorts c))))
  let c := deliverMesh (meshAdvance c)
  strictXoff { c with cmp := { c.cmp with holds := c.cmp.holds.map (markPresent c) } }

/-- One tick. -/
def tick (m : List Host.Cell) (y : Sys) : List Host.Cell × Sys :=
  let edge := coreEdges y.chip y.now (y.now + 12) != 0
  let y := { y with now := y.now + 12, chip := passTicks 1 y.chip }
  let y := y.onChip fun c => allPorts.foldl (fun c p => wakePort p y.now c) c
  let r := if edge then
      let r := landAll m (crcTick m (y.onChip (coreCycle y.ecc)))
      let r := retire r.1 (r.2.onChip (edgeCycle y.now))
      let r := serveAll r.1 r.2
      (r.1, r.2.onChip (startProgram y.ecc))
    else (m, y)
  (r.1, settleTray (r.2.onTray (settleWdt r.2.now)))

end Sys2Proof.Machine
end

