-- ==== Sys2Proof/Machine/Bundles.lean ====
section
/-! DEFINITION. Bundles that the tiles fetch from their own SRAM (04 R95, R96, R105, R122, R125; 05 R128): in a core cycle in
which the chip issues, every tile that runs its program issues the bundle at its bundle address, slot by slot, each slot's
operation by its own meaning. A slot whose operation a command has given in this cycle is not taken from SRAM again, so that a
program may be driven by commands as well (log entry 37). -/

namespace Sys2Proof.Machine

/-- The 256 bits of a bundle, little-endian (04 R95, R96). -/
def bundleAt (m : List Host.Cell) (p : Fin 320) (addr : Nat) : Nat := leNat (Memory.read m (tileBase p.val + addr * 32) 32)

/-- The state after a command that runs. -/
def ran (i : Instr) (s : State) : State :=
  match exec i s with
  | .next t => t
  | _ => s

/-- One slot of the bundle that tile v issues. A slot that holds no operation makes the bundle illegal (05 R131; 06 R159); slots
go in ascending order, so the lowest that holds illegal content is the one captured (04 Table 04-14). -/
def runSlot (v : TileId) (s : State) (x : SlotName × Option Instr) : State :=
  match s.sys.chip.canIssue v with
  | none => s
  | some p =>
    let u := s.sys.chip.useNow p
    if u.void || u.slots.contains x.1.code then s
    else match x.2 with
      | some i => ran i s
      | none => { s with sys := s.sys.onChip (illegalBundle v p x.1.code) }

/-- The bundle of tile v in a cycle in which it issues; 256 zero bits are five NOPs (05 R130). -/
def runBundle (s : State) (v : TileId) : State :=
  match s.sys.chip.canIssue v with
  | none => s
  | some p =>
    let b := bundleAt s.mem p (s.sys.chip.tile p).addr
    if 32768 ≤ (s.sys.chip.tile p).addr || b == 0 then s else (decodeBundle v b).foldl (runSlot v) s

/-! The look-ahead check (04 R105, R552). -/

/-- A tile as it is once the registers due by a PCC value have landed. -/
def landRegs (pcc : Nat) (t : Tile) : Tile :=
  (sortFlights (t.flight.filter fun f => f.land ≤ pcc)).foldl (fun t f => landReg f.dest t)
    { t with flight := t.flight.filter fun f => !(f.land ≤ pcc) }

/-- The tile ends with the bundle at its address: the bundle holds an END whose predicate reads 1 (05 R142). -/
def endsHere (m : List Host.Cell) (v : TileId) (p : Fin 320) (t : Tile) : Bool :=
  match decodeSlot v .c (slotOf (bundleAt m p t.addr) .c) with
  | some (.endProgram _ pred) => t.pd[pred]
  | _ => false

/-- The address of the bundle that a tile issues two bundles after the present one, if it does: of the next bundle the loop test
is made with the counts that will have landed (05 R139, R140). -/
def addrAhead (m : List Host.Cell) (c : Chip) (v : TileId) (p : Fin 320) : Option Nat :=
  let pcc := c.cmp.pcc
  let c := makeLoopTest p c
  let t := landRegs (pcc + 1) (nextBundle pcc (c.tile p))
  if (c.tile p).ended || 32768 ≤ t.addr || endsHere m v p t then none
  else
    let c := (Chip.onTile p (fun _ => t) { c with cmp := { c.cmp with pcc := pcc + 1 } })
    let a := (nextBundle (pcc + 1) ((makeLoopTest p c).tile p)).addr
    if 32768 ≤ a then none else some a

/-- The check of the bundle at an address, when it is a legal bundle that holds a WAIT receive. -/
def checkBundle (v : TileId) (p : Fin 320) (addr : Nat) (s : State) : State :=
  let b := decodeBundle v (bundleAt s.mem p addr)
  match b.all (fun x => x.2.isSome), (b.getLast?.bind fun x => x.2) with
  | true, some (.recv _ pred .wait ch _) => ran (.waitReceiveCheck v pred ch) s
  | _, _ => s

/-- The check that tile v makes in a cycle in which it issues. -/
def checkAhead (s : State) (v : TileId) : State :=
  match s.sys.chip.canIssue v with
  | none => s
  | some p => match addrAhead s.mem s.sys.chip v p with
    | some a => checkBundle v p a s
    | none => s

/-- The checks of bundles 0 and 1: two cycles and one cycle before the core view reaches L. -/
def checkEarly (s : State) (v : TileId) : State :=
  let c := s.sys.chip
  let left := 12 * (c.time.launchL.toNat + c.time.skip - c.time.coreView.toNat)
  let period := corePeriod c.pwr.point
  match c.liveTile v.val with
  | none => s
  | some p =>
    if left == 0 || 2 * period < left then s
    else if period < left then checkBundle v p 0 s
    else if endsHere s.mem v p (c.tile p) then s
    else checkBundle v p 1 s

/-- What the tiles do of themselves in a core cycle: the bundles they issue, and the checks they make. -/
def issueBundles (s : State) : State :=
  let c := s.sys.chip
  if coreEdges c s.sys.now (s.sys.now + 12) == 0 || !c.map.run then s
  else if c.cmp.started then
    (List.finRange 320).foldl checkAhead ((List.finRange 320).foldl runBundle s)
  else (List.finRange 320).foldl checkEarly s

end Sys2Proof.Machine
end

