-- ==== Sys2Proof/Machine/Indicators.lean ====
section
/-! DEFINITION. What the indicators show (02 section 7): 0 is off, 1 steady, 2 blinking at 1 Hz, 4 blinking at 4 Hz. They are
read off the state; no command reads one. -/

namespace Sys2Proof.Machine

/-! A cartridge's (02 Table 02-6), all lit for 1 s when its standby power rises (02 Reset and start-up state). -/

def Bay.lampTest (b : Bay) (now : Nat) : Bool := now < b.lampUntil

def lit (test : Bool) (x : Nat) : Nat := if test then 1 else x

/-- An indicator under a switch control. -/
def underControl (v : Indicator) (on : Nat) : Nat :=
  match v with
  | .off => 0
  | .on => on
  | .blink => 2

/-- Power, green. -/
def Tray.green (t : Tray) (now : Nat) (n : SlotId) : Nat :=
  let b := t.bays[n]
  lit (b.lampTest now) (underControl b.powerInd (if b.cpc.good then 1 else 2))

/-- Attention, amber. -/
def Tray.amber (t : Tray) (now : Nat) (n : SlotId) : Nat :=
  let b := t.bays[n]
  lit (b.lampTest now) (underControl b.attnInd 1)

/-- Fault, red: 4 Hz for a leak in the bay overrides steady, which ERR_N, SEQ_FAULT_N or FAULT_IND_N held low gives (19 R517). -/
def Tray.red (t : Tray) (errN : Bool) (now : Nat) (n : SlotId) : Nat :=
  let b := t.bays[n]
  lit (b.lampTest now) (if b.leak then 4 else if errN || b.cpc.seqFault || b.faultHeld then 1 else 0)

/-- Safe to remove, blue: RAILS_OFF and VALVE_CLOSED alone (02 R56). -/
def Tray.blue (t : Tray) (now : Nat) (n : SlotId) : Nat :=
  lit (t.bays[n].lampTest now) (if t.bays[n].cpc.railsOff && t.valveClosed n then 1 else 0)

/-! Tray and modules (02 Table 02-7). -/

/-- Tray power, green: steady with the input qualified, blinking while the BBU carries the bus. -/
def Tray.powerLed (t : Tray) : Nat := if t.bbuFeeds then 2 else if t.input == .normal then 1 else 0

/-- Tray attention, amber: TM_BB_IND, with 2 for locate. -/
def Tray.attentionLed (t : Tray) : Nat := t.indicator.toNat

/-- Tray fault, red: a tray source is latched. -/
def Tray.faultLed (t : Tray) : Nat := if t.fc.src.toList.any (fun x => x.status) then 1 else 0

/-- TMC card, green: a heartbeat while its firmware runs. -/
def Tray.cardGreen (t : Tray) : Nat := if t.card.present && t.card.running then 2 else 0

/-- TMC card, amber: in reset or booting, with power. -/
def Tray.cardAmber (t : Tray) : Nat := if t.card.present && !t.card.running && t.drivesPowered then 1 else 0

/-- BBU, green: charged, or charging. What it shows in CARRYING and DEPLETED the table does not say: off (DESIGN CHOICE, log entry
116). -/
def Tray.bbuGreen (t : Tray) : Nat :=
  match t.bbu with
  | .ready => 1
  | .charging => 2
  | _ => 0

/-- BBU, amber. -/
def Tray.bbuAmber (t : Tray) : Nat := if t.bbu == .fault then 1 else 0

/-- BBU, blue: the input is qualified, and the BBU does not carry the bus. -/
def Tray.bbuBlue (t : Tray) : Nat := if t.input == .normal && t.bbu != .absent && !t.bbuFeeds then 1 else 0

/-- A fan or pump module, green: running within its tachometer's limits. -/
def Tray.moduleGreen (t : Tray) (k : DriveId) : Nat :=
  if t.drives[k].present && 0 < t.drives[k].duty && !t.drives[k].rangeFault then 1 else 0

/-- A fan or pump module, amber: out of range (19 R513). -/
def Tray.moduleAmber (t : Tray) (k : DriveId) : Nat := if t.drives[k].present && t.drives[k].rangeFault then 1 else 0

end Sys2Proof.Machine
end

