-- ==== Sys2Proof/Machine/TmpFrames.lean ====
section
/-! DEFINITION. A TMP frame as it comes in: its checks (18 R473 to R477a), the commands of 18 Table 18-3 that have no row of
their own, and the mailbox, whose frame the TMC executes. The layouts of the payloads are a DESIGN CHOICE (log entry 41), and so
is the order of the checks (log entry 117). -/

namespace Sys2Proof.Machine

/-! The commands without a row (18 Table 18-3). -/

def ipConfig (n : NetCfg) : List Byte :=
  leBytes 1 (bit (!n.dhcp) 0) ++ leBytes 4 n.address.toNat ++ leBytes 4 n.mask.toNat ++ leBytes 4 n.gateway.toNat
    ++ leBytes 2 n.port.toNat

def pingWork : TmpWork := fun y =>
  (y, 0, leBytes 4 Config.firmwareVersion.toNat ++ leBytes 4 y.tray.card.bootCount.toNat
    ++ leBytes 4 ((y.now - y.tray.card.bootAt) / Config.sec 1))

def getInfoWork : TmpWork := fun y =>
  let t := y.tray
  (y, 0, leBytes 4 (readTmc t 0x14 y.now).toNat ++ t.boardEeprom.take 64 ++ ipConfig t.net ++ leBytes 4 t.net.fragmented
    ++ leBytes 4 t.net.discarded)

/-- Chips are unchanged until the loader writes FAB_SELF.TRAY. -/
def setTrayIndex (h : TmpHdr) (z w : Nat) : TmpWork := fun y =>
  if 31 < z || 15 < w then badField y
  else (y.onTray fun t => logCommand h 0 0 0 y.now
    { t with trayZ := BitVec.ofNat 5 z, trayW := BitVec.ofNat 4 w, trayValid := true }, 0, [])

/-- NET_CONFIG is only answered here: it is applied after the reply (`putNet`). -/
def netConfig (h : TmpHdr) (mode : Nat) : TmpWork := fun y =>
  if 1 < mode then badField y else (y.onTray (logCommand h 0 0 0 y.now), 0, [])

def putNet (mode address mask gateway port : Nat) (t : Tray) : Tray :=
  let n := { t.net with port := BitVec.ofNat 16 port, mask := word mask, gateway := word gateway, linkLocal := false }
  { t with net := if mode == 1 then { n with dhcp := false, lease := true, address := word address }
                  else { n with dhcp := true, lease := false, address := 0 } }

def slotStatus (t : Tray) (n : SlotId) : List Byte :=
  let c := t.bays[n].cpc
  leBytes 1 (bit t.bays[n].present 0)
    ++ leBytes 1 (orderCode t.orders.rack[n] + 4 * orderCode t.orders.host[n] + 16 * orderCode t.orders.auto[n])
    ++ leBytes 1 (powerState t n + 4 * winnerCode t n)
    ++ leBytes 1 (bit c.good 0 + bit c.railsOff 1 + bit (t.valveClosed n) 2)
    ++ leBytes 4 (readCpc t n 0).toNat ++ leBytes 4 (readCpc t n 4).toNat

def slotStatusWork (mask : BitVec 16) : TmpWork := fun y => (y, 0, (slotsOf mask).flatMap (slotStatus y.tray))

def trayPowerStatus : TmpWork := fun y =>
  let t := y.tray
  (y, 0, leBytes 4 (readTmc t 0x04 y.now).toNat ++ intBytes (t.reading 160) ++ leBytes 4 t.bbuEnergy ++ leBytes 2 (holdUp t))

/-- AUTO_POLICY: the automatic rank follows at once; with automatic cooling off its demand is zero (log entry 41). -/
def autoPolicy (h : TmpHdr) (mask : BitVec 16) (cool : Nat) : TmpWork := fun y =>
  if 1 < cool then badField y
  else
    (y.onTray fun t =>
      let t := { t with autoSlots := mask, autoCool := cool == 1, orders := { t.orders with auto := autoOrders mask } }
      (if cool == 1 then t else t.setDemand .auto Demand.zero).logLater 0x04 (originOf h.inlet) 0 mask.toNat 0 0
        (h.src, h.seq) .none y.now, 0, [])

def coolStatus : TmpWork := fun y =>
  let t := y.tray
  (y, 0, t.demands.rack.bytes ++ t.demands.host.bytes ++ t.demands.auto.bytes ++ t.resolvedDemand.bytes
    ++ leBytes 1 (fullCauseBits t))

/-- The row of Table 18-7 that holds a point. -/
def sensorGroup (p : Nat) : Nat := ([160, 168, 176, 186, 190, 194, 198].filter fun b => b ≤ p).length

def sensorListEntry (p : Nat) : List Byte :=
  leBytes 1 (sensorKind p) ++ leBytes 1 (sensorGroup p) ++ leBytes 1 (if p < 160 then p / 10 else 0xFF) ++ leBytes 5 0

def sensorListWork (first count : Nat) : TmpWork := fun y =>
  if count == 0 || 128 < count || 212 < first + count then badField y
  else (y, 0, (List.range count).flatMap fun i => sensorListEntry (first + i))

def logInfo : TmpWork := fun y => (y, 0, leBytes 4 (y.tray.logHead % 2 ^ 32) ++ leBytes 4 y.tray.log.length)

def faultStatus : TmpWork := fun y =>
  let r := fun o => leBytes 4 (readCollector y.tray.fc o).toNat
  (y, 0, [0x00, 0x04, 0x10, 0x14, 0x18, 0x1C, 0x20, 0x24, 0x28].flatMap r)

def faultConfig (h : TmpHdr) (source value : Nat) : TmpWork := fun y =>
  if 63 < source then badField y
  else (y.onTray fun t => logCommand h 0 source 0 y.now
    { t with fc := writeCollector .tray (0x100 + 4 * source) (word value) y.now t.fc }, 0, [])

def indicatorWork (h : TmpHdr) (v : Nat) : TmpWork := fun y =>
  if 2 < v then badField y
  else (y.onTray fun t => logCommand h 0 0 0 y.now { t with indicator := BitVec.ofNat 2 v }, 0, [])

/-! A frame (18 R473). -/

/-- The fields of Table 18-1. -/
structure TmpFrame where
  version : Nat
  flags : Nat
  command : Nat
  seq : Word
  reqId : Word
  status : Nat
  reserved : Nat
  payload : List Byte
  deriving DecidableEq, Repr

/-- The frame at the start of some bytes, if its LENGTH is in range, they hold it whole, and its CRC is right. -/
def parseTmp (bs : List Byte) : Option TmpFrame :=
  let n := recordNat bs 12 2
  if 1024 < n || bs.length < 20 + n || recordNat bs (16 + n) 4 != crc32 (bs.take (16 + n)) then none
  else some { version := recordNat bs 0 1, flags := recordNat bs 1 1, command := recordNat bs 2 2, seq := word (recordNat bs 4 4),
              reqId := word (recordNat bs 8 4), status := recordNat bs 14 1, reserved := recordNat bs 15 1,
              payload := (bs.drop 16).take n }

/-- LENGTH of a command's request; none for a reserved code. -/
def tmpLength : Nat → Option Nat
  | 0x0000 | 0x0001 | 0x0012 | 0x0021 | 0x0040 | 0x0050 => some 0
  | 0x0002 | 0x0011 | 0x0030 | 0x0031 => some 2
  | 0x0003 => some 15
  | 0x0004 | 0x0010 | 0x0020 | 0x0070 => some 4
  | 0x0013 | 0x0014 | 0x0060 | 0x0072 => some 1
  | 0x0015 => some 3
  | 0x0041 | 0x0052 => some 5
  | 0x0051 => some 8
  | 0x0071 => some 7
  | _ => none

def orderOf : Nat → Option Order
  | 0 => some .none
  | 1 => some .on
  | 2 => some .off
  | _ => none

/-- What a slot-numbered command does; a slot above 15 is out of range. -/
def withSlot (n : Nat) (f : SlotId → TmpWork) : TmpWork :=
  match finOf 16 n with
  | some s => f s
  | none => badField

def slotPowerFrame (h : TmpHdr) (mask : BitVec 16) (order flags : Nat) : TmpWork :=
  match orderOf order with
  | some o => if flags < 2 then slotPower h mask o (flags == 1) else badField
  | none => badField

/-- A read command (18 R476). -/
def isRead (command : Nat) : Bool :=
  [0x0000, 0x0001, 0x0011, 0x0012, 0x0021, 0x0030, 0x0031, 0x0040, 0x0041, 0x0050, 0x0070, 0x0072].contains command

/-- The work of a command, its payload `p` being of the command's length (18 Table 18-3). -/
def tmpWork (h : TmpHdr) (command : Nat) (p : List Byte) : TmpWork :=
  let f := recordNat p
  match command with
  | 0x0000 => pingWork
  | 0x0001 => getInfoWork
  | 0x0002 => setTrayIndex h (f 0 1) (f 1 1)
  | 0x0003 => netConfig h (f 0 1)
  | 0x0004 => tmcRestart h (word (f 0 4))
  | 0x0010 => slotPowerFrame h (BitVec.ofNat 16 (f 0 2)) (f 2 1) (f 3 1)
  | 0x0011 => slotStatusWork (BitVec.ofNat 16 (f 0 2))
  | 0x0012 => trayPowerStatus
  | 0x0013 => deferNotice h (BitVec.ofNat 8 (f 0 1))
  | 0x0014 => deferDone h (BitVec.ofNat 8 (f 0 1))
  | 0x0015 => autoPolicy h (BitVec.ofNat 16 (f 0 2)) (f 2 1)
  | 0x0020 => coolDemand h (BitVec.ofNat 16 (f 0 2)) (BitVec.ofNat 8 (f 2 1)) (BitVec.ofNat 8 (f 3 1))
  | 0x0021 => coolStatus
  | 0x0030 => sensorRead (f 0 1) (f 1 1)
  | 0x0031 => sensorListWork (f 0 1) (f 1 1)
  | 0x0040 => logInfo
  | 0x0041 => logRead (word (f 0 4)) (f 4 1)
  | 0x0050 => faultStatus
  | 0x0051 => faultAck h (BitVec.ofNat 64 (f 0 8))
  | 0x0052 => faultConfig h (f 0 1) (f 1 4)
  | 0x0060 => indicatorWork h (f 0 1)
  | 0x0070 => withSlot (f 0 1) fun n => chipReadWork n (BitVec.ofNat 16 (f 1 2)) (f 3 1)
  | 0x0071 => withSlot (f 0 1) fun n => chipWriteWork h n (BitVec.ofNat 16 (f 1 2)) (word (f 3 4))
  | 0x0072 => cableInfo (f 0 1)
  | _ => badField

/-- What a command does after its reply, where it was executed: the card restarts, or the address changes. -/
def afterReply (command : Nat) (p : List Byte) (boots : Word) (y : Sys) : Sys :=
  let f := recordNat p
  match command with
  | 0x0003 => if f 0 1 ≤ 1 then y.onTray (putNet (f 0 1) (f 1 4) (f 5 4) (f 9 4) (f 13 2)) else y
  | 0x0004 => if word (f 0 4) == boots then y.onTray (cardReset y.now) else y
  | _ => y

/-- An answer without execution. -/
def refuseTmp (h : TmpHdr) (command status : Nat) (y : Sys) : Sys := sendReply h (replyFrame h command status []) y

/-- A frame that a running card has received (18 R473 to R477a, Table 18-4). -/
def serveFrame (inlet : Inlet) (src : Word) (x : TmpFrame) (y : Sys) : Sys :=
  let h : TmpHdr := ⟨inlet, x.seq, x.reqId, src⟩
  if x.version != 1 then refuseTmp h x.command 3 y
  else match tmpLength x.command with
    | none => refuseTmp h x.command 4 y
    | some n =>
      if x.payload.length != n then refuseTmp h x.command 5 y
      else if x.flags != 0 && x.flags != 2 || x.status != 0 || x.reserved != 0 then refuseTmp h x.command 6 y
      else if isRead x.command then tmpRead h x.command (tmpWork h x.command x.payload) y
      else
        let z := tmpCommand h x.command (tmpWork h x.command x.payload) y
        if executes h y then afterReply x.command x.payload y.tray.card.bootCount z else z

/-- A datagram at the rack inlet: a fragmented one, and a frame whose CRC or length fails, is discarded, counted and not
answered (18 R474). No row of the table carries one (log entry 40). -/
def rackDatagram (src : Word) (fragmented : Bool) (bs : List Byte) (y : Sys) : Sys :=
  if !y.tray.card.running then y
  else if fragmented then y.onTray fun t => { t with net := { t.net with fragmented := t.net.fragmented + 1 } }
  else match parseTmp bs with
    | some x =>
      if bs.length == 20 + x.payload.length then serveFrame .rack src x y
      else y.onTray fun t => { t with net := { t.net with discarded := t.net.discarded + 1 } }
    | none => y.onTray fun t => { t with net := { t.net with discarded := t.net.discarded + 1 } }

/-- The frame that host software has submitted is executed, its REQ_ID being the requester (18 R478, Table 18-8). One whose CRC
or LENGTH fails is dropped without a reply (DESIGN CHOICE, log entry 117). -/
def serveMailbox (y : Sys) : Sys :=
  let m := y.tray.card.mailbox
  if y.tray.card.running && m.busy then
    let y := y.onTray (Tray.onCard fun c => { c with mailbox := { c.mailbox with busy := false } })
    match parseTmp (m.req.toList.flatMap fun w => leBytes 4 w.toNat) with
    | some x => serveFrame .host x.reqId x y
    | none => y
  else y

end Sys2Proof.Machine
end

