-- ==== Sys2Proof/Machine/Step.lean ====
section
/-! DEFINITION. One step of the block: the command at the front of the queue, or, on an empty queue, one tick of 0.8 ns. -/

namespace Sys2Proof.Machine

/-- The state after one tick: the bundles of a core cycle that ends in it issue, the clocks advance, and a frame that waits in
the mailbox is executed. -/
def ticked (s : State) : State :=
  let s := issueBundles s
  let r := tick s.mem s.sys
  { s with mem := r.1, sys := settleTray (serveMailbox r.2) }

/-- The front command is executed on the state with the queue's rest; an empty queue lets one tick pass (DESIGN CHOICE, log
entry 46). -/
def step (s : State) : Host.Outcome State Fault Refusal :=
  match s.pending with
  | c :: rest => exec c { s with pending := rest }
  | [] => .next (ticked s)

/-- The state with the command that a word spells in front of its queue; unchanged where it spells none. -/
def State.withFetchWord (s : State) (nbits w : Nat) : State :=
  match decodeTableWord nbits w with
  | some c => { s with pending := c :: s.pending }
  | none => s

end Sys2Proof.Machine
end

