-- ==== Sys2Proof/Safety.lean ====
section
/-! DEFINITION. What claims are stated in: the canonical form of memory, what no command and no tick may change, and the
frames of the groups of commands. -/

namespace Sys2Proof.Machine

/-- The form that memory keeps: addresses strictly rising, no byte listed that is 0. -/
def State.canonical (s : State) : Prop := Memory.wf s.mem = true

/-- What the block has put out is never taken back: one output trace continues another. -/
def State.continues (s t : State) : Prop := s.sys.out <+: t.sys.out

/-- What fuses and straps fix: the bay (02 R42), the grade and the disabled columns of the chip (03 R69). -/
def Chip.fixed (c : Chip) : SlotId × Fin 3 × BitVec 20 := (c.fab.slot, c.map.grade, c.map.disabled)

/-! Frames: all of the state but what is named is as before. -/

/-- Only the chip. -/
def onlyChip (s t : State) : Prop := t = { s with sys := { s.sys with chip := t.sys.chip } }

/-- Only the chip and the outputs. -/
def onlyChipOut (s t : State) : Prop := t = { s with sys := { s.sys with chip := t.sys.chip, out := t.sys.out } }

/-- Only the tray. -/
def onlyTray (s t : State) : Prop := t = { s with sys := { s.sys with tray := t.sys.tray } }

/-- Memory and the queue are as before. -/
def keepsMemory (s t : State) : Prop := t.mem = s.mem ∧ t.pending = s.pending

/-- Of the chip only the tiles, the raised sources, the tile checks, the governors and the waits. -/
def onlyTiles (s t : State) : Prop :=
  let c := s.sys.chip
  let d := t.sys.chip
  t = { s with sys := { s.sys with chip := { c with
    cmp := { c.cmp with tiles := d.cmp.tiles, waits := d.cmp.waits },
    fc := { c.fc with raised := d.fc.raised }, chk := d.chk, pwr := { c.pwr with gov := d.pwr.gov } } } }

/-- A tile as before but for its results in flight and the record of its bundle. -/
def sameTile (t u : Tile) : Prop := u = { t with use := u.use, flight := u.flight }

/-- An operation issues in a tile: the tile issues, its bundle is legal so far, the predicate register reads 1, and no
operation of the bundle has named one of its destinations, nor does it name one twice. -/
def Issues (s : State) (v : TileId) (p : Fin 320) (pred : PReg) (ds : List RegName) : Prop :=
  s.sys.chip.canIssue v = some p ∧ (s.sys.chip.useNow p).void = false ∧ (s.sys.chip.tile p).pd[pred] = true ∧
    duplicateDest (s.sys.chip.useNow p).named ds = false

/-- The command's effect is results in flight in tile p, each landing λ bundles later. -/
def Flies (r : Result) (s : State) (p : Fin 320) (ds : List (Nat × Dest)) : Prop :=
  let c := s.sys.chip
  ∃ t, r = .next t ∧ onlyTiles s t ∧ t.sys.chip.cmp.waits = c.cmp.waits ∧
    (∀ q, q ≠ p → t.sys.chip.tile q = c.tile q) ∧ sameTile (c.tile p) (t.sys.chip.tile p) ∧
    (t.sys.chip.tile p).flight = (c.tile p).flight ++
      ds.map fun x => { issued := c.cmp.pcc, land := c.cmp.pcc + x.1, dest := x.2 }

/-- As `Flies`, where the tile's other state becomes `g` of it. -/
def FliesWith (g : Tile → Tile) (r : Result) (s : State) (p : Fin 320) (ds : List (Nat × Dest)) : Prop :=
  let c := s.sys.chip
  ∃ t, r = .next t ∧ onlyTiles s t ∧ t.sys.chip.cmp.waits = c.cmp.waits ∧
    (∀ q, q ≠ p → t.sys.chip.tile q = c.tile q) ∧ sameTile (g (c.tile p)) (t.sys.chip.tile p) ∧
    (t.sys.chip.tile p).flight = (g (c.tile p)).flight ++
      ds.map fun x => { issued := c.cmp.pcc, land := c.cmp.pcc + x.1, dest := x.2 }

/-- The line an N-slot operation sends: a V register, or the line at the effective address as memory holds it where its
port fits, zeros otherwise. -/
def sentLine (s : State) (p : Fin 320) : LineSrc → Line
  | .vreg r => (s.sys.chip.tile p).v[r]
  | .sram a =>
    let off := lineEA (s.sys.chip.tile p) a
    if portFits (s.sys.chip.useNow p) (subBank off) false then Memory.line s.mem (tileBase p.val + off) else Line.zero

/-- The source term s: 0 from V, 2 from near and 3 from far SRAM. -/
def sentDelay (s : State) (p : Fin 320) : LineSrc → Nat
  | .vreg _ => 0
  | .sram a => if isFar (lineEA (s.sys.chip.tile p) a) then 3 else 2

/-- The INC update of a source in SRAM, after one bundle. -/
def sentInc (s : State) (p : Fin 320) : LineSrc → List (Nat × Dest)
  | .vreg _ => []
  | .sram a => (lineInc (s.sys.chip.tile p) a).map fun d => (1, d)

/-- A command answers a next state, of which P holds. -/
def Gives (r : Result) (P : State → Prop) : Prop := ∃ t, r = .next t ∧ P t

/-- The state with another chip. -/
def State.withChip (f : Chip → Chip) (s : State) : State := { s with sys := { s.sys with chip := f s.sys.chip } }

/-- The state with another tray. -/
def State.withTray (f : Tray → Tray) (s : State) : State := { s with sys := { s.sys with tray := f s.sys.tray } }

/-- An output more. -/
def State.puts (o : Output) (s : State) : State := { s with sys := { s.sys with out := s.sys.out ++ [o] } }

/-- What the base board's hardware derives from its state, after a change. -/
def State.settled (s : State) : State := { s with sys := settleTray s.sys }

/-- Time passes up to `t`, where it is still to come. -/
def State.passed (t : Nat) (s : State) : State := { s with sys := s.sys.await t }

/-- The slot of the chip (01). -/
def State.ownSlot (s : State) : SlotId := s.sys.chip.fab.slot

/-- The chip's memory stays with its supply: kept where `up`, lost otherwise. -/
def memoryIf (up : Prop) (s t : State) : Prop :=
  t.pending = s.pending ∧ (up → t.mem = s.mem ∧ t.sys.ecc = s.sys.ecc) ∧ (¬up → t.mem = [] ∧ t.sys.ecc = [])

/-- Every rail is on its way off at once: off, stuck, or discharging. -/
def Cpc.goesOff (c : Cpc) : Prop := ∀ k : Fin 5, c.rails[k] = .off ∨ c.rails[k] = .stuck ∨ c.rails[k] = .discharging

/-- The latest fault record of a CPC. -/
def Cpc.records (c : Cpc) (cause rail : Nat) : Prop :=
  c.cause = BitVec.ofNat 4 cause ∧ c.rail = BitVec.ofNat 3 rail ∧ c.valid = true

/-- A TMP request is answered by its inlet, with a status and a payload: the reply leaves, the mailbox's also stands in
TM_MB_RSP (18 R474, R478). -/
def Replied (h : TmpHdr) (command status : Nat) (payload : List Byte) (s t : State) : Prop :=
  (∃ sent, t.sys.out = s.sys.out ++ sent ∧ .tmp h.inlet (replyFrame h command status payload) ∈ sent) ∧
    (h.inlet = .host →
      t.sys.tray.card.mailbox.rsp = replyFrame h command status payload ∧ t.sys.tray.card.mailbox.rspReady = true ∧
      t.sys.tray.card.mailbox.busy = false)

/-- HIGH and the reply of a state-changing request are kept (18 R475). -/
def Noted (h : TmpHdr) (command status : Nat) (payload : List Byte) (t : State) : Prop :=
  ∃ r, t.sys.tray.requester h.reqId = some r ∧ r.high = h.seq ∧ (h.seq, replyFrame h command status payload) ∈ r.replies

/-- No frame of a port is still in its receive pad. -/
def Port.padOver (x : Port) : Prop := ∀ i ∈ x.ingress, i.gate.isSome = true

/-- The chip as an access finds it. -/
def State.waked (s : State) : State := s.withChip (wakeAccess s.sys.now)

/-- The MAP registers are as before but for the trace, which records what passes. -/
def sameMap (c d : Chip) : Prop := d.map = { c.map with trace := d.map.trace, traceFull := d.map.traceFull }

/-- All but port p, the collector, the time base, the clocks and the trace is as before. -/
def onlyLink (p : PortId) (s t : State) : Prop :=
  let c := s.sys.chip
  let d := t.sys.chip
  keepsMemory s t ∧ t.sys.tray = s.sys.tray ∧ t.sys.out = s.sys.out ∧ (∀ q, q ≠ p → d.port q = c.port q) ∧
    d.cmp.tiles = c.cmp.tiles ∧ sameMap c d ∧ d.hif = c.hif ∧ d.mgt = c.mgt ∧ d.pwr = c.pwr

/-- The collector source of a port that is DOWN: 18 for port 0. -/
def downSource (p : PortId) : SourceId := ⟨18 + p.val, by omega⟩

/-- Port p is DOWN for a reason: its queues are empty, its scheduled lines, those on their way to the egress included, counted
as lost, and its level line is up unless DETECT has raised it before. -/
def wentDown (p : PortId) (reason : Nat) (s t : State) : Prop :=
  let x := s.sys.chip.port p
  let y := t.sys.chip.port p
  onlyLink p s t ∧ y.st = .down ∧ y.reason = BitVec.ofNat 4 reason ∧ y.width = 0 ∧ y.peerValid = false ∧
    y.sched = [] ∧ y.pipe = [] ∧ y.replay = [] ∧ y.ingress = [] ∧
    y.dropCount = satAdd x.dropCount (x.sched.length + x.pipe.length) ∧
    (x.st ≠ .detect ∨ x.detectRaised = false → t.sys.chip.fc.src[downSource p].line = true)

end Sys2Proof.Machine
end

