-- ==== Sys2Proof/Certificates/Slice0/Obligations.lean ====
section
/-! DEFINITION. The statements for the provers. -/

open Sys2Proof Sys2Proof.Machine

/-- A step on a queue that is not empty is exec of the front command on the state with the queue's rest (the block's form of
fetch and execute; 95_what_each_step_holds). -/
def Obligations.StepRunsFrontCommand : Prop :=
  ∀ (c : Instr) (rest : List Instr) (s : State), s.pending = c :: rest → step s = exec c { s with pending := rest }

/-- Every command answers a next state, and none touches the queue. -/
def Obligations.EveryCommandLeavesQueue : Prop :=
  ∀ (c : Instr) (s : State), ∃ t, exec c s = .next t ∧ t.pending = s.pending

/-- Memory as reset leaves it is in canonical form. -/
def Obligations.ResetMemoryCanonical : Prop :=
  State.reset.canonical

/-- Every step, a command's or a tick, keeps memory in canonical form. -/
def Obligations.StepKeepsMemoryCanonical : Prop :=
  ∀ (s t : State), s.canonical → step s = .next t → t.canonical

/-- No step changes what fuses and straps fix.
No step takes back what the block has put out. -/
def Obligations.StepKeepsFixedStateAndOutputs : Prop :=
  (∀ (s t : State), step s = .next t → t.sys.chip.fixed = s.sys.chip.fixed) ∧
  (∀ (s t : State), step s = .next t → s.continues t)

/-- Memory: a byte reads as last written, and the others are as before. -/
def Obligations.MemoryReadsAsWritten : Prop :=
  ∀ (m : List Host.Cell) (a : Nat) (bs : List Byte), Memory.wf m = true →
    ∀ i, Memory.get (Memory.write m a bs) i = if a ≤ i ∧ i < a + bs.length then bs.getD (i - a) 0 else Memory.get m i

/-- Predicate operations of the C slot land one bundle later.
A-register arithmetic lands one bundle later, a multiply three: 32-bit results, shifts by the low five bits of b.
Compares write a predicate one bundle later, signed but for CMPLTU and CMPLEU; the A-register moves land their values. -/
def Obligations.ScalarOpsLand : Prop :=
  (∀ (s : State) (v : TileId) (p : Fin 320) (pred d a b : PReg), Issues s v p pred [.pd d] →
     let x := (s.sys.chip.tile p).pd[a]
     let y := (s.sys.chip.tile p).pd[b]
     Flies (exec (.pand v pred d a b) s) s p [(1, .pd d (x && y))] ∧
     Flies (exec (.por v pred d a b) s) s p [(1, .pd d (x || y))] ∧
     Flies (exec (.pxor v pred d a b) s) s p [(1, .pd d (x != y))] ∧
     Flies (exec (.pandn v pred d a b) s) s p [(1, .pd d (x && !y))]) ∧
  (∀ (s : State) (v : TileId) (p : Fin 320) (pred : PReg) (d a : AReg) (b : BOperand), Issues s v p pred [.a d] →
     let x := (s.sys.chip.tile p).a[a]
     let y := bValue (s.sys.chip.tile p) b
     Flies (exec (.aadd v pred d a b) s) s p [(1, .a d (x + y))] ∧
     Flies (exec (.asub v pred d a b) s) s p [(1, .a d (x - y))] ∧
     Flies (exec (.amul v pred d a b) s) s p [(3, .a d (x * y))] ∧
     Flies (exec (.aand v pred d a b) s) s p [(1, .a d (x &&& y))] ∧
     Flies (exec (.aor v pred d a b) s) s p [(1, .a d (x ||| y))] ∧
     Flies (exec (.axor v pred d a b) s) s p [(1, .a d (x ^^^ y))] ∧
     Flies (exec (.ashl v pred d a b) s) s p [(1, .a d (x <<< (y.toNat % 32)))] ∧
     Flies (exec (.ashr v pred d a b) s) s p [(1, .a d (x >>> (y.toNat % 32)))] ∧
     Flies (exec (.asra v pred d a b) s) s p [(1, .a d (x.sshiftRight (y.toNat % 32)))] ∧
     Flies (exec (.amin v pred d a b) s) s p [(1, .a d (if y.toInt < x.toInt then y else x))] ∧
     Flies (exec (.amax v pred d a b) s) s p [(1, .a d (if x.toInt < y.toInt then y else x))]) ∧
  ((∀ (s : State) (v : TileId) (p : Fin 320) (pred d : PReg) (a : AReg) (b : BOperand), Issues s v p pred [.pd d] →
     let x := (s.sys.chip.tile p).a[a]
     let y := bValue (s.sys.chip.tile p) b
     Flies (exec (.cmpeq v pred d a b) s) s p [(1, .pd d (decide (x = y)))] ∧
     Flies (exec (.cmpne v pred d a b) s) s p [(1, .pd d (x != y))] ∧
     Flies (exec (.cmplt v pred d a b) s) s p [(1, .pd d (decide (x.toInt < y.toInt)))] ∧
     Flies (exec (.cmple v pred d a b) s) s p [(1, .pd d (decide (x.toInt ≤ y.toInt)))] ∧
     Flies (exec (.cmpltu v pred d a b) s) s p [(1, .pd d (decide (x.toNat < y.toNat)))] ∧
     Flies (exec (.cmpleu v pred d a b) s) s p [(1, .pd d (decide (x.toNat ≤ y.toNat)))]) ∧
   (∀ (s : State) (v : TileId) (p : Fin 320) (pred : PReg) (d : AReg), Issues s v p pred [.a d] →
     (∀ imm, Flies (exec (.amovi v pred d imm) s) s p [(1, .a d imm)]) ∧
     (∀ k, Flies (exec (.movka v pred d k) s) s p [(1, .a d (s.sys.chip.tile p).k[k])]) ∧
     (∀ (vs : VReg) (w : BitVec 6), Flies (exec (.aget v pred d vs w) s) s p
       [(2, .a d (BitVec.ofNat 32 ((s.sys.chip.tile p).v[vs].leNat (4 * w.toNat) 4)))])))

/-- Loads: the line at the effective address, as memory holds it where its port fits and zeros otherwise, lands in V after 4
bundles, 5 from far SRAM; a nonzero INC lands in A one bundle later.
Stores: the words of V that the mask selects are on their way to the line at the effective address, after 3 bundles, 4
to far SRAM, where the port fits, and nothing otherwise; a nonzero INC lands in A one bundle later. Memory itself is
unchanged until they land. -/
def Obligations.LoadsAndStoresLand : Prop :=
  (∀ (s : State) (v : TileId) (p : Fin 320) (pred : PReg) (r : VReg),
     let t := s.sys.chip.tile p
     let line := fun off => if portFits (s.sys.chip.useNow p) (subBank off) false
       then Memory.line s.mem (tileBase p.val + off) else Line.zero
     (∀ a, Issues s v p pred (.v r :: lineDests a) → Flies (exec (.ld v pred r a) s) s p
       ((if isFar (lineEA t a) then 5 else 4, .v r [(0, (line (lineEA t a)).bytes)]) :: (lineInc t a).map fun d => (1, d))) ∧
     (∀ a, Issues s v p pred (.v r :: bankDests a) → Flies (exec (.ldb v pred r a) s) s p
       ((if isFar (bankEA t a) then 5 else 4, .v r [(0, (line (bankEA t a)).bytes)]) :: (bankInc t a).map fun d => (1, d)))) ∧
  (∀ (s : State) (v : TileId) (p : Fin 320) (pred : PReg) (r : VReg),
     let t := s.sys.chip.tile p
     let store := fun (off : Nat) (mask : Word) => if portFits (s.sys.chip.useNow p) (subBank off) true
       then [(if isFar off then 4 else 3, Dest.sram off t.v[r] mask)] else []
     (∀ a, Issues s v p pred (lineDests a) → Flies (exec (.st v pred r a) s) s p
       (store (lineEA t a) 0xFFFFFFFF#32 ++ (lineInc t a).map fun d => (1, d))) ∧
     (∀ a am, Issues s v p pred (lineDests a) → Flies (exec (.stm v pred r a am) s) s p
       (store (lineEA t a) t.a[am] ++ (lineInc t a).map fun d => (1, d))) ∧
     (∀ a, Issues s v p pred (bankDests a) → Flies (exec (.stb v pred r a) s) s p
       (store (bankEA t a) 0xFFFFFFFF#32 ++ (bankInc t a).map fun d => (1, d))))

/-- Weight loads land rows G × n onward, or a plane, with the format tag, after 5 bundles, 6 from far SRAM; MXSCL lands
32 column scales after 2.
Accumulator moves land after 2 bundles: half of a V register, an accumulator, or zeros. -/
def Obligations.WeightAndAccumulatorOpsLand : Prop :=
  (∀ (s : State) (v : TileId) (p : Fin 320) (pred : PReg) (wb : Fin 2),
     let t := s.sys.chip.tile p
     let line := fun off => if portFits (s.sys.chip.useNow p) (subBank off) false
       then Memory.line s.mem (tileBase p.val + off) else Line.zero
     let rows := fun (fmt : FmtCode) (g : BitVec 4) (off : Nat) =>
       Dest.wRows wb (g.toNat * (rowsPerLine fmt).getD 1) (rowsOfLine fmt (line off)) fmt
     (∀ a fmt g, Issues s v p pred (.w wb :: lineDests a) → wldLegal fmt g → Flies (exec (.wld v pred wb a fmt g) s) s p
       ((if isFar (lineEA t a) then 6 else 5, rows fmt g (lineEA t a)) :: (lineInc t a).map fun d => (1, d))) ∧
     (∀ a fmt g, Issues s v p pred (.w wb :: bankDests a) → wldLegal fmt g → Flies (exec (.wldb v pred wb a fmt g) s) s p
       ((if isFar (bankEA t a) then 6 else 5, rows fmt g (bankEA t a)) :: (bankInc t a).map fun d => (1, d))) ∧
     (∀ a fmt (plane : BitVec 2) (k : Fin 3), Issues s v p pred (.w wb :: lineDests a) → plane.toNat = k.val →
       mxwldLegal fmt plane → Flies (exec (.mxwld v pred wb a fmt plane) s) s p
       ((if isFar (lineEA t a) then 6 else 5, .wPlane wb k (line (lineEA t a)) fmt) ::
         (lineInc t a).map fun d => (1, d))) ∧
     (∀ (vs : VReg) (part : BitVec 3), Issues s v p pred [.w wb] → Flies (exec (.mxscl v pred wb vs part) s) s p
       [(2, .wScales wb (Vector.ofFn fun j => t.v[vs].byte (32 * part.toNat + j.val)))])) ∧
  (∀ (s : State) (v : TileId) (p : Fin 320) (pred : PReg) (ma : MReg) (x : VReg) (half : Fin 2),
     let t := s.sys.chip.tile p
     (Issues s v p pred [.v x] → Flies (exec (.mamv v pred ma x half) s) s p
       [(2, .v x [(128 * half.val, t.ma[ma].toList.flatMap fun w => leBytes 4 w.toNat)])]) ∧
     (Issues s v p pred [.ma ma] → Flies (exec (.mald v pred ma x half) s) s p
       [(2, .ma ma (Vector.ofFn fun j => BitVec.ofNat 32 (t.v[x].leNat (128 * half.val + 4 * j.val) 4)))]) ∧
     (Issues s v p pred [.ma ma] → Flies (exec (.maclr v pred ma) s) s p [(2, .ma ma Acc.zero)]))

/-- An operation whose predicate reads 0 issues and does nothing, whichever operation of the five slots it is: no result, no
transfer, no loop, no wait, no forecast, no line sent or taken. -/
def Obligations.UnpredicatedOpsDoNothing : Prop :=
  ∀ (s : State) (v : TileId) (p : Fin 320) (pred : PReg), s.sys.chip.canIssue v = some p →
    (s.sys.chip.useNow p).void = false → (s.sys.chip.tile p).pd[pred] = false →
    let idle := fun (i : Instr) (ds : List RegName) =>
      duplicateDest (s.sys.chip.useNow p).named ds = false → Flies (exec i s) s p []
    (∀ d a b, idle (.pand v pred d a b) [.pd d] ∧ idle (.por v pred d a b) [.pd d] ∧ idle (.pxor v pred d a b) [.pd d] ∧
      idle (.pandn v pred d a b) [.pd d]) ∧
    (∀ (target : BitVec 16) pop, target.toNat < 32768 → idle (.br v pred target pop) []) ∧
    (∀ len k n, idle (.loop v pred len k n) [.k k]) ∧ idle (.endProgram v pred) [] ∧
    (∀ a, idle (.waitGtc v pred a) []) ∧ (∀ q l e, idle (.ramp v pred q l e) []) ∧
    (∀ r a, idle (.ld v pred r a) (.v r :: lineDests a) ∧ idle (.st v pred r a) (lineDests a)) ∧
    (∀ r a, idle (.ldb v pred r a) (.v r :: bankDests a) ∧ idle (.stb v pred r a) (bankDests a)) ∧
    (∀ r a m, idle (.stm v pred r a m) (lineDests a)) ∧
    (∀ d a b, idle (.aadd v pred d a b) [.a d] ∧ idle (.asub v pred d a b) [.a d] ∧ idle (.amul v pred d a b) [.a d] ∧
      idle (.aand v pred d a b) [.a d] ∧ idle (.aor v pred d a b) [.a d] ∧ idle (.axor v pred d a b) [.a d] ∧
      idle (.ashl v pred d a b) [.a d] ∧ idle (.ashr v pred d a b) [.a d] ∧ idle (.asra v pred d a b) [.a d] ∧
      idle (.amin v pred d a b) [.a d] ∧ idle (.amax v pred d a b) [.a d]) ∧
    (∀ d a b, idle (.cmpeq v pred d a b) [.pd d] ∧ idle (.cmpne v pred d a b) [.pd d] ∧
      idle (.cmplt v pred d a b) [.pd d] ∧ idle (.cmple v pred d a b) [.pd d] ∧
      idle (.cmpltu v pred d a b) [.pd d] ∧ idle (.cmpleu v pred d a b) [.pd d]) ∧
    (∀ d x, idle (.amovi v pred d x) [.a d]) ∧ (∀ d k, idle (.movka v pred d k) [.a d]) ∧
    (∀ d x n, idle (.aget v pred d x n) [.a d]) ∧
    (∀ m, idle (.maclr v pred m) [.ma m]) ∧ (∀ m d h, idle (.mamv v pred m d h) [.v d]) ∧
    (∀ m x h, idle (.mald v pred m x h) [.ma m]) ∧ (∀ w x part, idle (.mxscl v pred w x part) [.w w]) ∧
    (∀ w a b f g, wldLegal f g → idle (.wld v pred w a f g) (.w w :: lineDests a) ∧
      idle (.wldb v pred w b f g) (.w w :: bankDests b)) ∧
    (∀ w a f k, mxwldLegal f k → idle (.mxwld v pred w a f k) (.w w :: lineDests a)) ∧
    (∀ w m x (seg : BitVec 5) (f : FmtCode) z, mmulLegal f seg m → idle (.mmul v pred w m x seg f z)
      (if f.toNat == 11 then [.ma m, .ma (nextMa m)] else [.ma m])) ∧
    (∀ w m x (seg : BitVec 2) f z, mxmulLegal f seg m → idle (.mxmul v pred w m x seg f z) [.ma m, .ma (nextMa m)]) ∧
    (∀ d a b c f r t, arithFmt f → rndSatLegal f r t →
      idle (.vadd v pred d a b f r t) [.v d] ∧ idle (.vsub v pred d a b f r t) [.v d] ∧
      idle (.vmul v pred d a b f r t) [.v d] ∧ idle (.vfma v pred d a b c f r t) [.v d]) ∧
    (∀ d a b f t, arithFmt f →
      idle (.vmin v pred d a b f) [.v d] ∧ idle (.vmax v pred d a b f) [.v d] ∧
      idle (.vcmpeq v pred d a b f) [.v d] ∧ idle (.vcmplt v pred d a b f) [.v d] ∧
      idle (.vcmple v pred d a b f) [.v d] ∧ idle (.vrsum v pred d a f) [.v d] ∧ idle (.vrmax v pred d a f) [.v d] ∧
      idle (.vrmin v pred d a f) [.v d] ∧ idle (.vrargmax v pred d a f) [.v d] ∧
      (rndSatLegal f 0 t → idle (.vabs v pred d a f t) [.v d] ∧ idle (.vneg v pred d a f t) [.v d])) ∧
    (∀ d a b f, intFmt f →
      idle (.vand v pred d a b f) [.v d] ∧ idle (.vor v pred d a b f) [.v d] ∧ idle (.vxor v pred d a b f) [.v d] ∧
      idle (.vshl v pred d a b f) [.v d] ∧ idle (.vshr v pred d a b f) [.v d] ∧ idle (.vsra v pred d a b f) [.v d]) ∧
    (∀ d a b c f, selFmt f → idle (.vsel v pred d a b c f) [.v d]) ∧
    (∀ d a f g i j r, vcvtLegal f g i j r → idle (.vcvt v pred d a f g i j r) [.v d]) ∧
    (∀ d a f g i j r, vmxqLegal f g i j r → idle (.vmxq v pred d a f g i j r) [.v d]) ∧
    (∀ d a, idle (.vany v pred d a) [.pd d]) ∧
    (∀ d a f, transFmt f →
      idle (.vexp v pred d a f) [.v d] ∧ idle (.vlog v pred d a f) [.v d] ∧ idle (.vrcp v pred d a f) [.v d] ∧
      idle (.vrsq v pred d a f) [.v d] ∧ idle (.vtanh v pred d a f) [.v d] ∧ idle (.vsig v pred d a f) [.v d]) ∧
    (∀ d a c, idle (.vmov v pred d a) [.v d] ∧ idle (.vpermb v pred d a c) [.v d]) ∧
    (∀ d a f, moveFmt f → idle (.vbca v pred d a f) [.v d]) ∧ (∀ d x f, moveFmt f → idle (.vimm v pred d x f) [.v d]) ∧
    (∀ src row (col : BitVec 5) ch, col.toNat < s.sys.chip.map.vc →
      idle (.msend v pred src row col ch) (srcDests src)) ∧
    (∀ src part port (ac ar : AReg), part = .only ∨ part = .first ∨ (ac = 0 ∧ ar = 0) →
      idle (.fsend v pred src part port ac ar) (srcDests src)) ∧
    (∀ src (h : AReg) cnt cmpl aq, h.val % 2 = 0 → (cmpl = true ∨ aq = 0) →
      idle (.hwrite v pred src h cnt cmpl aq) (srcDests src)) ∧
    (∀ src a ch, idle (.sreq v pred src a ch) (srcDests src)) ∧
    (∀ cls ch, cls = .mesh ∨ isMailbox s.sys.chip.map v.val ch = false →
      (∀ d, idle (.recv v pred cls ch (.vreg d)) [.v d]) ∧ ∀ a, idle (.recv v pred cls ch (.sram a)) (lineDests a))

/-- Matrix multiplies: with a format tag that FMT allows (for MXMUL an MX tag, 5 to 7) the accumulators land after 5 bundles;
otherwise nothing is in flight and source 7 is raised.
The MMUL of integer formats: column j of the accumulator is the old word, or 0 with ZERO, plus the exact sum of the
products, modulo 2³². -/
def Obligations.MatrixMultipliesLand : Prop :=
  ((∀ (s : State) (v : TileId) (p : Fin 320) (pred : PReg) (wb : Fin 2) (ma : MReg) (vs : VReg) (seg : BitVec 5)
     (fmt : FmtCode) (zero : Bool), mmulLegal fmt seg ma →
     Issues s v p pred (if fmt.toNat == 11 then [.ma ma, .ma (nextMa ma)] else [.ma ma]) →
     let t := s.sys.chip.tile p
     let r := exec (.mmul v pred wb ma vs seg fmt zero) s
     (formatsMatch t.w[wb].tag fmt → Flies r s p ((mmulResult t wb ma vs seg.toNat fmt zero).map fun d => (5, d))) ∧
     (formatsMatch t.w[wb].tag fmt = false → Flies r s p [] ∧
       ∃ u, r = .next u ∧ ⟨7, .tile v.val⟩ ∈ u.sys.chip.fc.raised)) ∧
   (∀ (s : State) (v : TileId) (p : Fin 320) (pred : PReg) (wb : Fin 2) (ma : MReg) (vs : VReg) (seg : BitVec 2)
     (fmt : FmtCode) (zero : Bool), mxmulLegal fmt seg ma → Issues s v p pred [.ma ma, .ma (nextMa ma)] →
     let t := s.sys.chip.tile p
     let r := exec (.mxmul v pred wb ma vs seg fmt zero) s
     (∀ tag, t.w[wb].tag = some tag → 5 ≤ tag.toNat → tag.toNat ≤ 7 → Flies r s p
       [(5, .ma ma (mxAcc fmt tag t.w[wb] t.v[vs] (64 * seg.toNat) (192 + 2 * seg.toNat) t.ma[ma] zero)),
        (5, .ma (nextMa ma)
          (mxAcc fmt tag t.w[wb] t.v[vs] (64 * seg.toNat + 32) (193 + 2 * seg.toNat) t.ma[nextMa ma] zero))]) ∧
     ((∀ tag, t.w[wb].tag = some tag → tag.toNat < 5 ∨ 7 < tag.toNat) → Flies r s p [] ∧
       ∃ u, r = .next u ∧ ⟨7, .tile v.val⟩ ∈ u.sys.chip.fc.raised))) ∧
  (∀ (fmt : FmtCode) (b : WBuf) (l : Line) (base n row w : Nat) (acc : Acc) (zero : Bool) (j : Fin 32),
     fmtOf fmt = some (.int w) →
     (mmulAcc fmt b l base n row acc zero)[j] = (if zero then 0 else acc[j]) + BitVec.ofInt 32
       (((List.range n).map fun i => sInt w (elemAt l base w i) * sInt w (cellCode b w (row + i) j.val)).sum))

/-- Vector arithmetic: elements of the format, VADD and VSUB after 2 bundles, VMUL and VFMA after 4;
a condition of R137 raises source 8. -/
def Obligations.VectorArithmeticLands : Prop :=
  ∀ (s : State) (v : TileId) (p : Fin 320) (pred : PReg) (vd va vb vc : VReg) (fmt : FmtCode) (rnd : BitVec 2) (sat : Bool),
    Issues s v p pred [.v vd] → arithFmt fmt → rndSatLegal fmt rnd sat →
    let t := s.sys.chip.tile p
    let x : VCtx := ⟨s.sys.chip.time.seed, s.sys.chip.cmp.pcc, v.val⟩
    let lands := fun (r : Result) (lam : Nat) (y : List (Nat × List Byte) × Bool) =>
      Flies r s p [(lam, .v vd y.1)] ∧ (y.2 → ∃ u, r = .next u ∧ ⟨8, .tile v.val⟩ ∈ u.sys.chip.fc.raised)
    lands (exec (.vadd v pred vd va vb fmt rnd sat) s) 2
      (arith2 FVal.add (fun p q => p + q) fmt rnd sat x t.v[va] t.v[vb]) ∧
    lands (exec (.vsub v pred vd va vb fmt rnd sat) s) 2
      (arith2 (fun p q => p.add q.neg) (fun p q => p - q) fmt rnd sat x t.v[va] t.v[vb]) ∧
    lands (exec (.vmul v pred vd va vb fmt rnd sat) s) 4
      (arith2 FVal.mul (fun p q => p * q) fmt rnd sat x t.v[va] t.v[vb]) ∧
    lands (exec (.vfma v pred vd va vb vc fmt rnd sat) s) 4 (fma3 fmt rnd sat x t.v[va] t.v[vb] t.v[vc])

/-- Minimum, maximum, sign operations and compares, each after 2 bundles.
Bitwise operations and shifts on integer formats, a shift by the element of Vb modulo the width, and VSEL, each after 2
bundles. -/
def Obligations.VectorComparesAndLogicLand : Prop :=
  (∀ (s : State) (v : TileId) (p : Fin 320) (pred : PReg) (vd va vb : VReg) (fmt : FmtCode) (sat : Bool),
     Issues s v p pred [.v vd] → arithFmt fmt →
     let t := s.sys.chip.tile p
     let pair := fun (g : Fmt → Nat → Nat → Nat) => (exact2 g fmt t.v[va] t.v[vb]).1
     Flies (exec (.vmin v pred vd va vb fmt) s) s p [(2, .v vd (pair minCode))] ∧
     Flies (exec (.vmax v pred vd va vb fmt) s) s p [(2, .v vd (pair maxCode))] ∧
     Flies (exec (.vcmpeq v pred vd va vb fmt) s) s p [(2, .v vd (pair (cmpCode FVal.eqv fun x y => x == y)))] ∧
     Flies (exec (.vcmplt v pred vd va vb fmt) s) s p [(2, .v vd (pair (cmpCode FVal.lt fun x y => decide (x < y))))] ∧
     Flies (exec (.vcmple v pred vd va vb fmt) s) s p
       [(2, .v vd (pair (cmpCode (fun x y => x.lt y || x.eqv y) fun x y => decide (x ≤ y))))] ∧
     (rndSatLegal fmt 0 sat →
       Flies (exec (.vabs v pred vd va fmt sat) s) s p
         [(2, .v vd (sign1 (fun f x => x % 2 ^ (f.width - 1)) (fun x => x.natAbs) fmt sat t.v[va]).1)] ∧
       Flies (exec (.vneg v pred vd va fmt sat) s) s p
         [(2, .v vd (sign1 (fun f x => x ^^^ 2 ^ (f.width - 1)) (fun x => -x) fmt sat t.v[va]).1)])) ∧
  ((∀ (s : State) (v : TileId) (p : Fin 320) (pred : PReg) (vd va vb : VReg) (fmt : FmtCode),
     Issues s v p pred [.v vd] → intFmt fmt →
     let t := s.sys.chip.tile p
     let pair := fun (g : Nat → Nat → Nat → Nat) => (exact2 (fun f => g f.width) fmt t.v[va] t.v[vb]).1
     Flies (exec (.vand v pred vd va vb fmt) s) s p [(2, .v vd (pair fun _ x y => x &&& y))] ∧
     Flies (exec (.vor v pred vd va vb fmt) s) s p [(2, .v vd (pair fun _ x y => x ||| y))] ∧
     Flies (exec (.vxor v pred vd va vb fmt) s) s p [(2, .v vd (pair fun _ x y => x ^^^ y))] ∧
     Flies (exec (.vshl v pred vd va vb fmt) s) s p [(2, .v vd (pair fun w x y => (x <<< (y % w)) % 2 ^ w))] ∧
     Flies (exec (.vshr v pred vd va vb fmt) s) s p [(2, .v vd (pair fun w x y => x >>> (y % w)))] ∧
     Flies (exec (.vsra v pred vd va vb fmt) s) s p [(2, .v vd (pair fun w x y => uInt w (sInt w x >>> (y % w))))]) ∧
   (∀ (s : State) (v : TileId) (p : Fin 320) (pred : PReg) (vd va vb vc : VReg) (fmt : FmtCode),
     Issues s v p pred [.v vd] → selFmt fmt →
     let t := s.sys.chip.tile p
     let w := fmtWidth fmt
     Flies (exec (.vsel v pred vd va vb vc fmt) s) s p [(2, .v vd [(0, packElems w
       ((((elems t.v[va] w).zip (elems t.v[vb] w)).zip (elems t.v[vc] w)).map fun x =>
         if x.2 = 0 then x.1.2 else x.1.1))])]))

/-- Conversions land in the destination's chunk after 3 bundles, and VMXQ also its two scales. -/
def Obligations.ConversionsLand : Prop :=
  ∀ (s : State) (v : TileId) (p : Fin 320) (pred : PReg) (vd va : VReg) (fmt fmt2 : FmtCode) (sp dp : BitVec 3)
    (rnd : BitVec 2), Issues s v p pred [.v vd] →
    let t := s.sys.chip.tile p
    let x : VCtx := ⟨s.sys.chip.time.seed, s.sys.chip.cmp.pcc, v.val⟩
    (∀ f g, vcvtLegal fmt fmt2 sp dp rnd → fmtOf fmt = some f → fmtOf fmt2 = some g →
      let n := 2048 / max f.width g.width
      Flies (exec (.vcvt v pred vd va fmt fmt2 sp dp rnd) s) s p [(3, .v vd [(dp.toNat * n * g.width / 8, packElems g.width
        (destCodes f g (fun i => x.rnd rnd (dp.toNat * n + i)) (sourceValues f t.v[va] (sp.toNat * n) n)).1)])]) ∧
    (∀ f g, vmxqLegal fmt fmt2 sp dp rnd → fmtOf fmt = some f → fmtOf fmt2 = some (.flt g) →
      let vs := sourceValues f t.v[va] (64 * sp.toNat) 64
      let b0 := mxBlock fmt2 g (vs.take 32) fun i => x.rnd rnd (64 * dp.toNat + i)
      let b1 := mxBlock fmt2 g (vs.drop 32) fun i => x.rnd rnd (64 * dp.toNat + 32 + i)
      Flies (exec (.vmxq v pred vd va fmt fmt2 sp dp rnd) s) s p [(3, .v vd
        [(64 * dp.toNat, (b0.2.1 ++ b1.2.1).map fun c => BitVec.ofNat 8 c),
         (192 + 2 * dp.toNat, [BitVec.ofNat 8 b0.1, BitVec.ofNat 8 b1.1])])])

/-- Reductions land in the low bytes, the others 0, after 6 bundles; VANY lands its predicate.
The transcendentals land after 8 bundles, each element a fixed function of operation, format and operand; where one of them
meets a condition of R137, source 8 is raised. Table 05-13 element by element: a NaN gives the canonical NaN; infinities give
what the table gives them; a zero and a negative number are the table's special cases of VLOG and VRSQ, a zero of VRCP; every
other operand gives a code within the table's ulps of the exact result, which one being free. -/
def Obligations.ReductionsAndTranscendentalsLand : Prop :=
  ((∀ (s : State) (v : TileId) (p : Fin 320) (pred : PReg) (vd va : VReg) (fmt : FmtCode),
     Issues s v p pred [.v vd] → arithFmt fmt →
     let l := (s.sys.chip.tile p).v[va]
     (∀ w, fmtOf fmt = some (.int w) → Flies (exec (.vrsum v pred vd va fmt) s) s p [(6, .v vd
       (lowBytes 4 (uInt 32 ((elems l w).map fun x => sInt w x).sum)))]) ∧
     (∀ f, fmtOf fmt = some (.flt f) → Flies (exec (.vrsum v pred vd va fmt) s) s p [(6, .v vd
       (lowBytes 4 (sumTree 8 ((elems l f.width).map fun x => fBinary32.encode .nearest (f.decode x))).1))]) ∧
     Flies (exec (.vrmax v pred vd va fmt) s) s p [(6, .v vd (reduceCode maxCode fmt l).1)] ∧
     Flies (exec (.vrmin v pred vd va fmt) s) s p [(6, .v vd (reduceCode minCode fmt l).1)] ∧
     (∀ f, fmtOf fmt = some f → Flies (exec (.vrargmax v pred vd va fmt) s) s p [(6, .v vd
       (lowBytes 4 (argMax f (elems l f.width))))])) ∧
   (∀ (s : State) (v : TileId) (p : Fin 320) (pred d : PReg) (va : VReg), Issues s v p pred [.pd d] →
     Flies (exec (.vany v pred d va) s) s p [(6, .pd d ((s.sys.chip.tile p).v[va].toList.any fun b => b != 0))])) ∧
  (∀ (s : State) (v : TileId) (p : Fin 320) (pred : PReg) (vd va : VReg) (fmt : FmtCode) (f : FFmt),
     Issues s v p pred [.v vd] → transFmt fmt → fmtOf fmt = some (.flt f) →
     let lands := fun (op : Config.Trans) (r : Result) =>
       let y := elemOp1 f.width (fun _ x => transResult op fmt f x) (s.sys.chip.tile p).v[va]
       Flies r s p [(8, .v vd y.1)] ∧ (y.2 → ∃ u, r = .next u ∧ ⟨8, .tile v.val⟩ ∈ u.sys.chip.fc.raised)
     lands .exp (exec (.vexp v pred vd va fmt) s) ∧ lands .log (exec (.vlog v pred vd va fmt) s) ∧
     lands .rcp (exec (.vrcp v pred vd va fmt) s) ∧ lands .rsq (exec (.vrsq v pred vd va fmt) s) ∧
     lands .tanh (exec (.vtanh v pred vd va fmt) s) ∧ lands .sig (exec (.vsig v pred vd va fmt) s) ∧
     ∀ x,
       let gives := fun (op : Config.Trans) (code : Nat) (raises : Bool) => transResult op fmt f x = (code, raises)
       let one := f.round .nearest false 1 0
       (f.decode x = .nan → ∀ op, gives op f.nanCode false) ∧
       (f.decode x = .inf false → gives .exp (f.infCode false) false ∧ gives .log (f.infCode false) false ∧
         gives .rcp 0 false ∧ gives .rsq 0 false ∧ gives .tanh one false ∧ gives .sig one false) ∧
       (f.decode x = .inf true → gives .exp 0 false ∧ gives .log f.nanCode true ∧
         gives .rcp (f.signBit true) false ∧ gives .rsq f.nanCode true ∧ gives .tanh (f.signBit true + one) false ∧
         gives .sig 0 false) ∧
       ∀ neg m e, f.decode x = .fin neg m e →
         let within := fun (op : Config.Trans) =>
           let b := transRange op f neg m e
           ∃ n, gives op (codeBetween f b.1 b.2 n) false
         within .exp ∧ within .tanh ∧ within .sig ∧
         (m = 0 → gives .log (f.infCode true) true ∧ gives .rcp (f.infCode neg) true ∧ gives .rsq (f.infCode neg) true) ∧
         (m ≠ 0 → within .rcp) ∧
         (m ≠ 0 → neg = true → gives .log f.nanCode true ∧ gives .rsq f.nanCode true) ∧
         (m ≠ 0 → neg = false → within .log ∧ within .rsq))

/-- Moves, each after 2 bundles: VMOV the line itself; VBCA every element the low bits of A, VIMM every element the
immediate; VPERMB byte i the byte of Va that byte i of Vc numbers. -/
def Obligations.VectorMovesLand : Prop :=
  ∀ (s : State) (v : TileId) (p : Fin 320) (pred : PReg) (vd : VReg), Issues s v p pred [.v vd] →
    let t := s.sys.chip.tile p
    (∀ va, Flies (exec (.vmov v pred vd va) s) s p [(2, .v vd [(0, t.v[va].bytes)])]) ∧
    (∀ aa fmt, moveFmt fmt → Flies (exec (.vbca v pred vd aa fmt) s) s p [(2, .v vd [(0, packElems (fmtWidth fmt)
      (List.replicate (2048 / fmtWidth fmt) (t.a[aa].toNat % 2 ^ fmtWidth fmt)))])]) ∧
    (∀ imm fmt, moveFmt fmt → Flies (exec (.vimm v pred vd imm fmt) s) s p [(2, .v vd [(0, packElems (fmtWidth fmt)
      (List.replicate (2048 / fmtWidth fmt) (immElem fmt imm)))])]) ∧
    (∀ va vc, Flies (exec (.vpermb v pred vd va vc) s) s p
      [(2, .v vd [(0, t.v[vc].bytes.map fun i => t.v[va].byte i.toNat)])])

/-- Control: NOP changes nothing; a taken BR is a transfer to TARGET with its POP; LOOP sets K and starts the innermost loop
from the next bundle to LEN bundles after it; END is the tile's last bundle; WAIT_GTC adds a wait for A.
RAMP puts a forecast of LEVEL, due LEAD cycles later, on every quadrant of QMASK that is on and has none from this
bundle; the other quadrants keep theirs. -/
def Obligations.ControlOpsAndRampsTakeEffect : Prop :=
  ((∀ (s : State) (v : TileId) (slot : SlotName), exec (.nop v slot) s = .next s) ∧
   (∀ (s : State) (v : TileId) (p : Fin 320) (pred : PReg), Issues s v p pred [] →
     let now := s.sys.chip.cmp.pcc
     (∀ (target : BitVec 16) (pop : BitVec 3), target.toNat < 32768 →
       FliesWith (fun t => { t with transfers := t.transfers ++ [⟨now, target.toNat, pop.toNat⟩] })
         (exec (.br v pred target pop) s) s p []) ∧
     FliesWith (fun t => { t with ended := true }) (exec (.endProgram v pred) s) s p [] ∧
     (∀ a : AReg, Gives (exec (.waitGtc v pred a) s) fun t => onlyTiles s t ∧
       (∀ q, q ≠ p → t.sys.chip.tile q = s.sys.chip.tile q) ∧
       sameTile (s.sys.chip.tile p) (t.sys.chip.tile p) ∧
       (t.sys.chip.tile p).flight = (s.sys.chip.tile p).flight ∧
       t.sys.chip.cmp.waits = s.sys.chip.cmp.waits ++ [⟨v.val, now, (s.sys.chip.tile p).a[a]⟩])) ∧
   (∀ (s : State) (v : TileId) (p : Fin 320) (pred : PReg) (len : BitVec 8) (k : KReg) (n : LoopCount),
     Issues s v p pred [.k k] →
     let now := s.sys.chip.cmp.pcc
     let start := (s.sys.chip.tile p).addr + 1
     FliesWith (fun t => { t with
         loops := bundleLoops t { s.sys.chip.useNow p with begun := some ⟨k, start, start + len.toNat⟩ },
         flight := t.flight.filter fun f => !(f.issued == now && f.dest.reg == some (.k k)) })
       (exec (.loop v pred len k n) s) s p [(1, .k k (loopCount (s.sys.chip.tile p) n))])) ∧
  (∀ (s : State) (v : TileId) (p : Fin 320) (pred : PReg) (qmask : BitVec 4) (level : BitVec 6) (lead : BitVec 10),
     Issues s v p pred [] → Gives (exec (.ramp v pred qmask level lead) s) fun t =>
       let c := s.sys.chip
       let d := t.sys.chip
       onlyTiles s t ∧ d.cmp.waits = c.cmp.waits ∧ (∀ q, q ≠ p → d.tile q = c.tile q) ∧
       sameTile (c.tile p) (d.tile p) ∧ (d.tile p).flight = (c.tile p).flight ∧
       ∀ q : QuadId,
         (qmask.toNat.testBit q.val = false → d.pwr.gov[q].forecast = c.pwr.gov[q].forecast) ∧
         (qmask.toNat.testBit q.val = true → c.domOn (bitQ q.val) = true →
           (∀ f, c.pwr.gov[q].forecast = some f → f.issued ≠ c.cmp.pcc) →
           d.pwr.gov[q].forecast = some ⟨level, c.cmp.pcc + lead.toNat, c.cmp.pcc⟩))

/-- The loop test of a bundle is made once, on the loops before it: the K registers it writes land one bundle later, but
for one that the bundle's LOOP sets; loops whose K is at most 1 end, and the innermost other one that ends here repeats. -/
def Obligations.LoopTestIsMadeOnce : Prop :=
  ∀ (s : State) (v : TileId) (p : Fin 320), s.sys.chip.canIssue v = some p →
    let u := s.sys.chip.useNow p
    let t := s.sys.chip.tile p
    let r := loopTest t t.addr u.before
    (u.tested = true → exec (.loopEnd v) s = .next s) ∧
    (u.tested = false → FliesWith (fun t => { t with
        loops := bundleLoops t { u with tested := true },
        repeats := r.2.2.map fun a => (s.sys.chip.cmp.pcc, a) })
      (exec (.loopEnd v) s) s p
      ((r.1.filter fun x => (u.begun.map fun l => l.k) != some x.1).map fun x => (1, .k x.1 x.2)))

/-- The N slot's sends: with fewer than 8 lines in the send queue the source line joins it one bundle later, for its
destination, to leave at t + s; with 8 lines there the line is lost, with source 1. -/
def Obligations.SendsJoinQueue : Prop :=
  ∀ (s : State) (v : TileId) (p : Fin 320) (pred : PReg) (src : LineSrc), Issues s v p pred (srcDests src) →
    let c := s.sys.chip
    let t := c.tile p
    let leave := c.cmp.pcc + sentDelay s p src
    let joins := fun (r : Result) (dst : SendDst) =>
      (t.sendq.length < 8 → Flies r s p (sentInc s p src ++ [(1, .send ⟨sentLine s p src, dst, leave, c.cmp.cycles⟩)])) ∧
      (8 ≤ t.sendq.length → Flies r s p (sentInc s p src) ∧ ∃ u, r = .next u ∧ ⟨1, .tile v.val⟩ ∈ u.sys.chip.fc.raised)
    (∀ row (col : BitVec 5) ch, col.toNat < c.map.vc →
      joins (exec (.msend v pred src row col ch) s) (.mesh row col ch)) ∧
    (∀ (h h1 : AReg) cnt cmpl aq, h.val % 2 = 0 → h1.val = h.val + 1 → (cmpl = true ∨ aq = 0) →
      joins (exec (.hwrite v pred src h cnt cmpl aq) s)
        (.host (t.a[h1] ++ t.a[h]) cnt (if cmpl then some (t.a[aq], c.time.coreView) else none))) ∧
    (∀ ad rch, joins (exec (.sreq v pred src ad rch) s) (.search t.a[ad] rch))

/-- FSEND: an ONLY or FIRST line with an accepted route joins the send queue under the header that the chip map and the two
words give, and FIRST opens a message of LEN further lines; MIDDLE and LAST carry the open message's header. A line that finds
the send queue full is lost with source 1, whatever it is. A refused route raises source 27 and sends nothing, and FIRST opens a
message whose further lines are discarded. A line that breaks the framing is discarded with source 27; a message that was open
ends with it, and the port is to send its lines still due as zeros, behind the message's lines under way. -/
def Obligations.ScheduledSendsKeepFraming : Prop :=
  ∀ (s : State) (v : TileId) (p : Fin 320) (pred : PReg) (src : LineSrc) (port : PortId) (ac ar : AReg),
    Issues s v p pred (srcDests src) →
    let c := s.sys.chip
    let t := c.tile p
    let len := natField t.a[ac].toNat 24 6
    let out := fun (h : Dword) (part : Part) => sentInc s p src ++
      [(1, Dest.send ⟨sentLine s p src, .port port (withPart h part), c.cmp.pcc + sentDelay s p src, c.cmp.cycles⟩)]
    let opens := fun (m : Option OpenMsg) (t : Tile) => { t with openMsg := t.openMsg.set port m }
    let legal := fun (part : Part) => part = .only ∨ part = .first ∨ (ac = 0 ∧ ar = 0)
    let refused := fun (r : Result) (m : Option OpenMsg) => Gives r fun u =>
      (u.sys.chip.tile p).flight = t.flight ++ (sentInc s p src).map (fun x => ⟨c.cmp.pcc, c.cmp.pcc + x.1, x.2⟩) ∧
      (u.sys.chip.tile p).openMsg = t.openMsg.set port m ∧ ⟨27, .chip⟩ ∈ u.sys.chip.fc.raised
    (8 ≤ t.sendq.length → ∀ part, legal part → let r := exec (.fsend v pred src part port ac ar) s
      Flies r s p (sentInc s p src) ∧ ∃ u, r = .next u ∧ ⟨1, .tile v.val⟩ ∈ u.sys.chip.fc.raised) ∧
    (t.sendq.length < 8 →
    (∀ h, t.openMsg[port] = none → checkRoute c port t.a[ac] t.a[ar] = .inr h →
      (len = 0 → Flies (exec (.fsend v pred src .only port ac ar) s) s p (out h .only)) ∧
      (1 ≤ len → FliesWith (opens (some ⟨len, h, false⟩)) (exec (.fsend v pred src .first port ac ar) s) s p
        (out h .first))) ∧
    (∀ m, t.openMsg[port] = some m → ac = 0 → ar = 0 →
      let line := fun part => if m.discard then sentInc s p src else out m.header part
      (2 ≤ m.due → FliesWith (opens (some { m with due := m.due - 1 }))
        (exec (.fsend v pred src .middle port ac ar) s) s p (line .middle)) ∧
      (m.due = 1 → FliesWith (opens none) (exec (.fsend v pred src .last port ac ar) s) s p (line .last))) ∧
    (∀ cause, t.openMsg[port] = none → checkRoute c port t.a[ac] t.a[ar] = .inl cause →
      (len = 0 → refused (exec (.fsend v pred src .only port ac ar) s) none) ∧
      (1 ≤ len → refused (exec (.fsend v pred src .first port ac ar) s) (some ⟨len, 0, true⟩))) ∧
    (∀ part, legal part → framingOk t.openMsg[port] part len = false →
      let r := exec (.fsend v pred src part port ac ar) s
      refused r none ∧ ∀ m, t.openMsg[port] = some m → Gives r fun u =>
        (u.sys.chip.port port).fills = (c.port port).fills ++
          (if m.discard then [] else [⟨v.val, linesUnderWay v.val p port c, m.due, m.header⟩])))

/-- RECV of a channel that is not the mailbox takes its oldest line, or zeros with source 2 when it is empty, to V after one
bundle, or to SRAM after 3 bundles, 4 to far SRAM. Of the mailbox channel it takes the oldest line readable now, or zeros;
class WAIT makes the bundle illegal there, source 4. -/
def Obligations.ReceiveTakesOldestLine : Prop :=
  ∀ (s : State) (v : TileId) (p : Fin 320) (pred : PReg) (cls : RecvClass) (ch : Chan),
    let c := s.sys.chip
    let t := c.tile p
    let takes := fun (t : Tile) => { t with ch := t.ch.set ch (t.ch[ch].drop 1) }
    let ready := fun (x : MailLine) => decide (x.readyAt ≤ c.cmp.cycles)
    let flies := fun (line : Line) (dst : LineDst) => match dst with
      | .vreg d => [(1, Dest.v d [(0, line.bytes)])]
      | .sram a => (if portFits (c.useNow p) (subBank (lineEA t a)) true
          then [(if isFar (lineEA t a) then 4 else 3, Dest.sram (lineEA t a) line 0xFFFFFFFF#32)] else []) ++
          (lineInc t a).map fun d => (1, d)
    let dests := fun (dst : LineDst) => match dst with | .vreg d => [.v d] | .sram a => lineDests a
    (isMailbox c.map v.val ch = false → ∀ dst, Issues s v p pred (dests dst) →
      FliesWith takes (exec (.recv v pred cls ch dst) s) s p (flies (t.ch[ch].headD Line.zero) dst) ∧
      (t.ch[ch] = [] → ∃ u, exec (.recv v pred cls ch dst) s = .next u ∧ ⟨2, .tile v.val⟩ ∈ u.sys.chip.fc.raised)) ∧
    (isMailbox c.map v.val ch = true → ∀ dst, Issues s v p pred (dests dst) →
      (Gives (exec (.recv v pred .mesh ch dst) s) fun u =>
        keepsMemory s u ∧ u.sys.tray = s.sys.tray ∧ u.sys.out = s.sys.out ∧
        u.sys.chip.hif.mailbox = c.hif.mailbox.eraseP ready ∧
        (∀ q, q ≠ p → u.sys.chip.tile q = c.tile q) ∧ sameTile t (u.sys.chip.tile p) ∧
        (u.sys.chip.tile p).flight = t.flight ++ (flies (((c.hif.mailbox.find? ready).map (·.line)).getD Line.zero) dst).map
          fun x => ⟨c.cmp.pcc, c.cmp.pcc + x.1, x.2⟩) ∧
      Gives (exec (.recv v pred .wait ch dst) s) fun u =>
        keepsMemory s u ∧ u.sys.chip.hif.mailbox = c.hif.mailbox ∧ ⟨4, .tile v.val⟩ ∈ u.sys.chip.fc.raised)

/-- RESULT_LANDING lands every due result of the tile and keeps the others in flight; a register result writes its register,
and a store writes to memory exactly the words that its mask selects.
The look-ahead check of a WAIT receive, in run state and where its predicate reads 1: a line that is present changes
nothing; an absent one holds the chip at the receive's bundle, or with STRICT set aborts the run with cause LATE and
source 28.
HOLD_RELEASE ends the hold requests of the present bundle, or of an earlier one, whose line is present, and keeps the others;
WAIT_GTC_END ends the waits whose T the core view has reached, and no others. -/
def Obligations.LandingsAndWaitsEnd : Prop :=
  (∀ (s : State) (v : TileId) (p : Fin 320), s.sys.chip.liveTile v.val = some p →
     let c := s.sys.chip
     let r := exec (.resultLanding v) s
     let early := (c.tile p).flight.filter fun f => !flightDue c f
     Gives r (fun t => (t.sys.chip.tile p).flight = early ∧ (∀ q, q ≠ p → t.sys.chip.tile q = c.tile q) ∧
       t.sys.out = s.sys.out ∧ t.sys.tray = s.sys.tray) ∧
     (∀ f, (c.tile p).flight.filter (flightDue c) = [f] →
       ((∀ off l mask, f.dest ≠ .sram off l mask) →
         r = .next (s.withChip fun c => c.onTile p fun t => landReg f.dest { t with flight := early })) ∧
       (∀ off l mask, f.dest = .sram off l mask → Gives r fun t =>
         t.mem = Memory.writeLine s.mem (tileBase p.val + off) l mask ∧
         t.sys.chip.tile p = { c.tile p with flight := early, scrub := (t.sys.chip.tile p).scrub }))) ∧
  (∀ (s : State) (v : TileId) (p : Fin 320) (pred : PReg) (ch : Chan),
     let c := s.sys.chip
     let t := c.tile p
     let r := exec (.waitReceiveCheck v pred ch) s
     c.map.run = true → c.liveTile v.val = some p → t.ended = false → t.blocked = false → t.pd[pred] = true →
     isMailbox c.map v.val ch = false →
     (t.ch[ch] ≠ [] → r = .next s) ∧
     (t.ch[ch] = [] → c.time.strict = false → r = .next (s.withChip fun c => { c with cmp := { c.cmp with
       holds := c.cmp.holds ++ [⟨v.val, ch, if c.cmp.started then c.cmp.pcc + 2 else early c, none⟩] } })) ∧
     (t.ch[ch] = [] → c.time.strict = true → Gives r fun u => u.sys.chip.map.run = false ∧
       u.sys.chip.time.abortCause = 7 ∧ u.sys.chip.time.abortValid = true ∧ ⟨28, .chip⟩ ∈ u.sys.chip.fc.raised)) ∧
  (∀ (s : State),
     let c := s.sys.chip
     Gives (exec .holdRelease s) (fun t => keepsMemory s t ∧ t.sys.tray = s.sys.tray ∧
       t.sys.chip.cmp.holds = (c.cmp.holds.map (markPresent c)).filter (fun h => !(holdsNow c h && h.resume.isSome)) ∧
       t.sys.chip.cmp.tiles = c.cmp.tiles ∧ t.sys.chip.cmp.waits = c.cmp.waits) ∧
     Gives (exec .waitGtcEnd s) (fun t => keepsMemory s t ∧ t.sys.tray = s.sys.tray ∧
       t.sys.chip.cmp.waits = c.cmp.waits.filter (fun w => !gtcReached t.sys.chip.time.coreView w.t) ∧
       ((∀ w ∈ c.cmp.waits, gtcReached c.time.coreView w.t = true) →
         t.sys.now = s.sys.now ∧ t.sys.chip.cmp.waits = []) ∧
       t.sys.chip.cmp.tiles = c.cmp.tiles ∧ t.sys.chip.cmp.holds = c.cmp.holds))

/-- The one line under way that has reached a tile enters its channel behind the lines there; a full channel loses it, with
source 1.
The scrubber reads the line at the pointer of the next sub-bank, and the pointer advances; a correctable word is
counted, with source 5, and its line is due for write-back, which rewrites its check bits once no access takes the sub-bank's
write port; a pointer that has not wrapped within PERIOD × 65,536 cycles raises source 9 and is recorded. -/
def Obligations.LinesArriveAndScrubberCorrects : Prop :=
  (∀ (s : State) (v : TileId) (p : Fin 320) (ch : Chan) (l : MeshLine),
     let c := s.sys.chip
     (∀ q, (c.tile q).sendq = []) → c.cmp.mesh.lines = [l] → l.dst = .tile v.val ch → arrived c l = true →
     c.liveTile v.val = some p → isMailbox c.map v.val ch = false →
     Gives (exec (.meshLineArrival v) s) fun t =>
       t.sys.chip.cmp.mesh.lines = [] ∧ keepsMemory s t ∧ (∀ q, q ≠ p → t.sys.chip.tile q = c.tile q) ∧
       let kept := { c.tile p with fabricCh := (c.tile p).fabricCh.set ch (l.fabric || (c.tile p).fabricCh[ch]) }
       ((c.tile p).ch[ch].length < 16 → t.sys.chip.tile p =
         { kept with ch := (c.tile p).ch.set ch ((c.tile p).ch[ch] ++ [l.line]) }) ∧
       (16 ≤ (c.tile p).ch[ch].length → t.sys.chip.tile p = kept ∧ ⟨1, .tile v.val⟩ ∈ t.sys.chip.fc.raised)) ∧
  (∀ (s : State) (v : TileId) (p : Fin 320), s.sys.chip.liveTile v.val = some p →
     let c := s.sys.chip
     let x := (c.tile p).scrub
     (∀ b : Fin 16, c.chk.scrubEnable = true →
       (∀ a, x.readAt = some a → a + max 1 c.chk.gap.toNat ≤ c.cmp.cycles) →
       nextSub c.cmp.cycles (c.tile p) (c.useNow p) = some b →
       let off := b.val * 0x40000 + x.ptr[b].val * 256
       Gives (exec (.scrubRead v) s) fun t =>
         let y := (t.sys.chip.tile p).scrub
         t.mem = s.mem ∧ t.sys.ecc = s.sys.ecc ∧
         y.ptr = x.ptr.set b (x.ptr[b] + 1) ∧ y.last = b ∧ y.readAt = some c.cmp.cycles ∧
         (Ecc.check s.sys.ecc ((tileBase p.val + off) / 8) 32 = (0, 0) → y.pending = x.pending) ∧
         (Ecc.check s.sys.ecc ((tileBase p.val + off) / 8) 32 = (1, 0) → y.pending = x.pending ++ [(b, x.ptr[b])] ∧
           t.sys.chip.chk.corrected = satAdd c.chk.corrected 1 ∧ ⟨5, .tile v.val⟩ ∈ t.sys.chip.fc.raised)) ∧
     (∀ b l rest, x.pending = (b, l) :: rest → b.val ∉ (c.useNow p).writes →
       (c.cmp.cycles, b.val) ∉ (c.useNow p).ext →
       Gives (exec (.scrubWriteback v) s) fun t => t.mem = s.mem ∧
         t.sys.ecc = Ecc.clear s.sys.ecc ((tileBase p.val + b.val * 0x40000 + l.val * 256) / 8) 32 0xFFFFFFFF ∧
         (t.sys.chip.tile p).scrub.pending = rest.filter (fun z => z != (b, l))) ∧
     (∀ b : Fin 16, c.chk.period ≠ 0 → x.wrapAt[b] + c.chk.period.toNat * 65536 < c.cmp.cycles →
       Gives (exec (.scrubCoverageLow v b) s) fun t => ⟨9, .tile v.val⟩ ∈ t.sys.chip.fc.raised ∧
         t.sys.chip.cmp = c.cmp ∧
         (c.chk.lowValid = false → t.sys.chip.chk = { c.chk with
           lowValid := true, lowTile := BitVec.ofNat 9 v.val, lowSub := BitVec.ofNat 4 b.val }) ∧
         (c.chk.lowValid = true → t.sys.chip.chk = c.chk)))

/-- A run-locked set-up write out of run state sets its fields, and one that would change a field in run state is discarded:
counted in MAP_CFG_DISCARD, with source 33: shown for the column map, the trace (where the DBG domain goes off, its buffer's
contents are lost) and, in run state, the chip map. A chip in RETENTION-ONLY answers any of these writes as unsupported. -/
def Obligations.RunLockedWritesAreDiscarded : Prop :=
  ∀ (s : State) (value : Word),
    let c := s.sys.chip
    let discards := fun (off : Nat) => Host.Outcome.next (s.waked.withChip (Chip.cfgDiscard off))
    (c.pwr.retention = true → (∀ reg, exec (.columnMapWrite reg value) s = .next (s.puts .unsupported)) ∧
      exec (.traceEnable value) s = .next (s.puts .unsupported) ∧
      ∀ k : Fin 4096, exec (.registerWrite .chip (0x8000 + 4 * k.val) 4 value) s = .next (s.puts .unsupported).settled) ∧
    (c.pwr.retention = false →
      let target : BitVec 2 := BitVec.ofNat 2 (value.toNat / 2 ^ 8)
      let cols := fun (k : Fin 5) => setCols k.val value c.map.vcol
      (c.map.run = false →
        exec (.columnMapWrite 0 value) s = .next (s.waked.withChip fun c => { c with map := { c.map with target := target } }) ∧
        (∀ k : Fin 5, exec (.columnMapWrite k.succ value) s =
          .next (s.waked.withChip fun c => { c with map := { c.map with vcol := cols k } })) ∧
        Gives (exec (.traceEnable value) s) fun t => onlyChip s t ∧
          t.sys.chip.map = { c.map with
            traceEnable := value.toNat.testBit 0
            traceTile := BitVec.ofNat 9 (value.toNat / 2 ^ 4)
            traceWrap := value.toNat.testBit 16
            trace := t.sys.chip.map.trace }) ∧
      (c.map.run = true →
        (∀ k : Fin 4096,
          let low := setChipMap (2 * k.val) (BitVec.ofNat 16 value.toNat) c.fab.chipMap
          let both := setChipMap (2 * k.val + 1) (BitVec.ofNat 16 (value.toNat / 2 ^ 16)) low
          exec (.registerWrite .chip (0x8000 + 4 * k.val) 4 value) s = .next
            (if both = c.fab.chipMap then s.waked else s.waked.withChip (Chip.cfgDiscard (0x8000 + 4 * k.val))).settled) ∧
        (exec (.columnMapWrite 0 value) s = if target = c.map.target then .next s.waked else discards 0x6008) ∧
        (∀ k : Fin 5, exec (.columnMapWrite k.succ value) s =
          if cols k = c.map.vcol then .next s.waked else discards (0x600C + 4 * k.val)) ∧
        (value.toNat.testBit 0 ≠ c.map.traceEnable ∨ BitVec.ofNat 9 (value.toNat / 2 ^ 4) ≠ c.map.traceTile ∨
          value.toNat.testBit 16 ≠ c.map.traceWrap → exec (.traceEnable value) s = discards 0x6028)))

/-- REGISTER_WRITE: BAR0 and the mailbox take aligned 32-bit writes only; a chip-map word sets two entries out of run
state; the register bus reaches CA_BY_FULL and the drives' limits; each write leaves the base board's hardware settled.
A write to PWR_COMMIT outside run state makes the group's shadow the fields in force; in run state it waits for the run's
end.
A read of the low word of a 64-bit count answers it and latches the high word; the trace read answers the high word of
record INDEX and advances INDEX. -/
def Obligations.RegisterAccessesTakeEffect : Prop :=
  (∀ (s : State) (o size : Nat) (value : Word),
     let c := s.sys.chip
     (¬(size = 4 ∧ o % 4 = 0) → exec (.registerWrite .chip o size value) s = .next (s.puts .unsupported).settled ∧
       exec (.registerWrite .mailbox o size value) s = .next (s.puts .unsupported).settled) ∧
     (∀ k : Fin 4096, c.pwr.retention = false → c.map.run = false →
       let low := setChipMap (2 * k.val) (BitVec.ofNat 16 value.toNat) c.fab.chipMap
       let both := setChipMap (2 * k.val + 1) (BitVec.ofNat 16 (value.toNat / 2 ^ 16)) low
       exec (.registerWrite .chip (0x8000 + 4 * k.val) 4 value) s =
         .next (s.waked.withChip fun c => { c with fab := { c.fab with chipMap := both } }).settled) ∧
     exec (.registerWrite .tray 0x290C 4 value) s =
       .next (s.withTray fun t => { t with byFull := BitVec.ofNat 14 value.toNat }).settled ∧
     (∀ k : DriveId, exec (.registerWrite .tray (0x2804 + 0x10 * k.val) 4 value) s =
       .next (s.withTray (Tray.onDrive k fun d => { d with maxRpm := BitVec.ofNat 16 value.toNat })).settled)) ∧
  (∀ (s : State), s.sys.chip.pwr.retention = false →
     (s.sys.chip.map.run = false →
       (s.sys.chip.pwr.monPending = false → exec .steepCommit s = .next (s.waked.withChip fun c =>
         { c with pwr := { c.pwr with steep := c.pwr.steepShadow, steepPending := false } })) ∧
       (s.sys.chip.pwr.steepPending = false → exec .monCommit s = .next (s.waked.withChip fun c =>
         { c with pwr := { c.pwr with mon := c.pwr.monShadow, monPending := false } }))) ∧
     (s.sys.chip.map.run = true →
       exec .steepCommit s = .next (s.waked.withChip fun c => { c with pwr := { c.pwr with steepPending := true } }) ∧
       exec .monCommit s = .next (s.waked.withChip fun c => { c with pwr := { c.pwr with monPending := true } }))) ∧
  ((∀ (s : State), s.sys.chip.pwr.retention = false →
     let c := s.sys.chip
     let low := fun (d : Dword) => Output.readData (leBytes 4 (d.toNat % 2 ^ 32))
     let high := fun (d : Dword) => BitVec.ofNat 32 (d.toNat / 2 ^ 32)
     exec .gtcRead s = .next ((s.waked.withChip fun c => { c with time := { c.time with gtcHi := high c.time.gtc } }).puts
       (low c.time.gtc)) ∧
     exec .lagRead s = .next ((s.waked.withChip fun c => { c with time := { c.time with lagHi := high c.time.lag } }).puts
       (low c.time.lag)) ∧
     exec .srchWorkRead s = .next ((s.waked.withChip fun c =>
       { c with srch := { c.srch with workHi := high c.srch.work } }).puts (low c.srch.work)) ∧
     (∀ q, exec (.steepBalRead q) s = .next ((s.waked.withChip fun c =>
       c.onPwr (onGov q fun g => { g with balHi := high g.bal })).puts (low c.pwr.gov[q].bal))) ∧
     exec .traceDataRead s = .next ((s.waked.withChip fun c =>
       { c with map := { c.map with traceIndex := c.map.traceIndex + 1 } }).puts
         (.readData (leBytes 4 ((c.map.trace.getD c.map.traceIndex.toNat 0).toNat / 2 ^ 32))))) ∧
   (∀ (s : State),
     let n := s.sys.tray.micros s.sys.now
     exec .bbTimeRead s = .next ((s.withTray fun t => { t with timeHi := BitVec.ofNat 32 (n / 2 ^ 32) }).puts
       (.readData (leBytes 4 n))).settled))

/-- Full training, from DETECT, where the port can see a partner, to UP: each phase's command moves the port to the next
phase, with what it brings; no lane left, wrong wiring or too much delay takes it DOWN with the phase's REASON; Confirm enters
UP at sequence number 0, at the width of the healthy lanes. A port that can see no partner stays as it is. -/
def Obligations.LinkTrainingRuns : Prop :=
  ∀ (s : State) (p : PortId),
    let now := s.sys.now
    let c := s.sys.chip
    let x := c.port p
    let sets := fun (r : Result) (f : Port → Port) => r = .next (s.withChip (Chip.onPort p f))
    (x.st = .detect →
      (canSee s.sys p = true → sets (exec (.partnerDetected p) s) fun x =>
        { x with st := .train, phase := .lock, since := now, failed := 0, peerFailed := 0 }) ∧
      (canSee s.sys p = false → exec (.partnerDetected p) s = .next s)) ∧
    (x.st = .train →
      (∀ m, x.phase = .lock →
        (m ≠ 0 → sets (exec (.lock p m) s) fun x =>
          { x with failed := x.failed ||| ~~~m, phase := .equalise, since := now }) ∧
        (m = 0 → Gives (exec (.lock p m) s) (wentDown p 2 s))) ∧
      (∀ m, x.phase = .equalise → c.mgt.cscReset = false →
        (x.failed ||| ~~~m ≠ 0xFF → sets (exec (.equalise p m) s) fun x =>
          { x with failed := x.failed ||| ~~~m, phase := .align, since := now }) ∧
        (x.failed ||| ~~~m = 0xFF → Gives (exec (.equalise p m) s) (wentDown p 3 s))) ∧
      (∀ chip port dsn m, x.phase = .align →
        (oppositePort p port = false ∨ dsn = c.mgt.dsn → Gives (exec (.align p chip port dsn m) s) (wentDown p 5 s)) ∧
        (oppositePort p port = true → dsn ≠ c.mgt.dsn → x.failed ||| m = 0xFF →
          Gives (exec (.align p chip port dsn m) s) (wentDown p 4 s)) ∧
        (oppositePort p port = true → dsn ≠ c.mgt.dsn → x.failed ||| m ≠ 0xFF →
          sets (exec (.align p chip port dsn m) s) fun x =>
            { x with peerChip := chip, peerPort := port, peerValid := true, peerFailed := m, phase := .measure, since := now })) ∧
      (∀ d, x.phase = .measure →
        (dMax x.cls < d.toNat → Gives (exec (.measure p d) s) fun t =>
          wentDown p 6 s t ∧ (t.sys.chip.port p).d = d) ∧
        (d.toNat ≤ dMax x.cls → sets (exec (.measure p d) s) fun x =>
          { x with d := d, pad := BitVec.ofNat 8 (dMax x.cls - d.toNat), phase := .confirm, since := now })) ∧
      (x.phase = .confirm → Gives (exec (.confirm p) s) fun t =>
        let y := t.sys.chip.port p
        onlyLink p s t ∧ y.st = .up ∧ y.txSeq = 0 ∧ y.rxSeq = 0 ∧ y.since = now ∧
        y.width = BitVec.ofNat 4 (widthFor (healthySet x).length) ∧ y.sched = [] ∧ y.replay = [] ∧
        t.sys.chip.fc.src[downSource p].line = false))

/-- The time limits of the link: each takes its port DOWN with its REASON, no earlier than the limit; a port that is DOWN
and enabled looks for a partner again after 1 s.
Lane failures: a lane in use that fails, and a retrain pattern, send a port that is UP to RETRAIN, or in an operating-point
transition have it owe the retrain; at its end the healthy lanes give the width and all unacknowledged frames are sent again,
or with no lane left the port goes DOWN for REASON 9.
Replays: 1 µs without an acknowledgement begins one, and NAK_MAX of them for one frame lead to RETRAIN (the replay after a
retrain counting as one is the model's choice, log entry 100); an interval with more replay events than LIMIT raises source 26,
once. -/
def Obligations.LinkLimitsAndRetrains : Prop :=
  (∀ (s : State) (p : PortId),
     let c := s.sys.chip
     let x := c.port p
     let late := fun (d reason : Nat) (t : State) => wentDown p reason s t ∧ x.since + d ≤ t.sys.now
     (x.st = .detect → Gives (exec (.detectTimeout p) s) (late (Config.ms 100) 1)) ∧
     (x.st = .train → Gives (exec (.trainPhaseTimeout p) s) (late (phaseLimit x).1 (phaseLimit x).2)) ∧
     (x.st = .retrain → Gives (exec (.retrainTimeout p) s)
       (late (Config.us 20) (if x.failed ||| x.peerFailed = 0xFF then 9 else 8))) ∧
     (x.st = .down → x.enable = true → c.domOn (portDomain p) = true → classAllowed p x.cls = true →
       Gives (exec (.downTimeout p) s) fun t => onlyLink p s t ∧ x.since + Config.sec 1 ≤ t.sys.now ∧
         (t.sys.chip.port p).st = .detect)) ∧
  (∀ (s : State) (p : PortId),
     let now := s.sys.now
     let c := s.sys.chip
     let x := c.port p
     let retrains := fun (x : Port) => if c.pwr.busy then { x with retrainDue := true } else
       { x with st := .retrain, since := now, nakDue := false, nakOut := false, rejectAt := none, late := (0, 0),
                nakRun := 0, retrainDue := false }
     (∀ lane : LaneId, x.st = .up → x.used.toNat.testBit lane.val = true →
       exec (.laneFail p lane) s = .next (s.withChip (Chip.onPort p fun x =>
         retrains { x with failed := x.failed ||| BitVec.ofNat 8 (2 ^ lane.val) }))) ∧
     (x.st = .up → exec (.retrainPatternSeen p) s = .next (s.withChip (Chip.onPort p retrains))) ∧
     (∀ m, x.st = .retrain →
       (x.failed ||| (x.peerFailed ||| m) = 0xFF → Gives (exec (.retrainDone p m) s) (wentDown p 9 s)) ∧
       (x.failed ||| (x.peerFailed ||| m) ≠ 0xFF → Gives (exec (.retrainDone p m) s) fun t =>
         let y := t.sys.chip.port p
         onlyLink p s t ∧ y.peerFailed = x.peerFailed ||| m ∧ y.replay = x.replay ∧
         y.width = BitVec.ofNat 4 (widthFor (healthySet { x with peerFailed := x.peerFailed ||| m }).length) ∧
         (x.replay ≠ [] → y.resend = x.replay.length ∧ y.rplDue = true ∧ y.retryCount = satInc x.retryCount) ∧
         (2 ≤ x.nakMax.toNat ∨ x.replay = [] → y.st = .up))) ∧
     (x.st = .up → x.replay ≠ [] → Gives (exec (.replayTimeout p) s) fun t =>
       let y := t.sys.chip.port p
       onlyLink p s t ∧ x.ackAt + Config.us 1 ≤ t.sys.now ∧ y.resend = x.replay.length ∧ y.rplDue = true ∧
       y.retryCount = satInc x.retryCount ∧
       y.st = if max 1 x.nakMax.toNat ≤ x.nakRun + 1 ∧ c.pwr.busy = false then .retrain else .up) ∧
     (x.retryInterval ≠ 0 → Gives (exec (.fabRetryRate p) s) fun t =>
       onlyLink p s t ∧ x.intervalAt + Config.ms x.retryInterval.toNat ≤ t.sys.now ∧
       (t.sys.chip.port p).intervalEvents = 0 ∧
       t.sys.chip.fc.raised = c.fc.raised ++
         if x.retryLimit.toNat < x.intervalEvents ∧ x.rateRaised = false then [⟨26, .port p⟩] else []))

/-- The port's control fields are run-locked; outside run state ENABLE 0 disables the port, ENABLE 1, RETRAIN and a
changed CLASS start it at DETECT, and a new tray index is owed to the partner of every port that is UP or in RETRAIN. -/
def Obligations.PortControlWrites : Prop :=
  ∀ (s : State) (p : PortId),
    let c := s.sys.chip
    let x := c.port p
    let ready := c.domOn (portDomain p) = true
    let discards := Host.Outcome.next (s.withChip (Chip.cfgDiscard (0x4000 + p.val * 0x200)))
    let enters := fun (r : Result) (st : PortState) => Gives r fun t => onlyLink p s t ∧ (t.sys.chip.port p).st = st
    (∀ e, e = x.enable → exec (.portEnable p e) s = .next s) ∧
    (c.map.run = true → exec (.portEnable p (!x.enable)) s = discards ∧ exec (.retrain p) s = discards ∧
      ∀ k, 4 ≤ p.val → k ≠ x.cls → exec (.classWrite p k) s = discards) ∧
    (∀ k, p.val < 4 ∨ k = x.cls → exec (.classWrite p k) s = .next s) ∧
    (c.map.run = false →
      (x.enable = true → enters (exec (.portEnable p false) s) .disabled) ∧
      (x.enable = false → ready → classAllowed p x.cls = true → enters (exec (.portEnable p true) s) .detect) ∧
      (x.st ≠ .disabled → x.enable = true → ready → classAllowed p x.cls = true → enters (exec (.retrain p) s) .detect) ∧
      (∀ k, 4 ≤ p.val → k ≠ x.cls → x.enable = true → ready → classAllowed p k = true →
        enters (exec (.classWrite p k) s) .detect)) ∧
    (∀ v : Word, c.pwr.retention = false → c.map.run = false → c.fab.trayIdx ≠ BitVec.ofNat 9 (v.toNat / 16) →
      Gives (exec (.trayIndexWrite v) s) fun t => keepsMemory s t ∧ t.sys.out = s.sys.out ∧
        t.sys.chip.map = c.map ∧ t.sys.chip.cmp.tiles = c.cmp.tiles ∧
        t.sys.chip.fab.trayIdx = BitVec.ofNat 9 (v.toNat / 16) ∧
        ∀ q, t.sys.chip.port q = { c.port q with linkDue := (c.port q).linkDue || (c.port q).carries })

/-- A frame that a port sends passes the receiver's two codes and its CRC against the same sequence number. -/
def Obligations.SentFramePassesChecks : Prop :=
  ∀ (seq : BitVec 10) (l : Lctl) (payload : Line) (msg : Dword),
    let f := encodeFrame seq l payload msg
    fecDecode f = ⟨f, [], true⟩ ∧ crcPasses seq f = true ∧ frameLctl f = l ∧ frameOf f = ⟨l.typ, payload, msg⟩

/-- A port that is UP and has nothing to repeat sends one frame a turn: numbered txSeq, acknowledging rxSeq − 1, kept for
replay; a scheduled line that is due goes first, then time frames in the order ABORT, LAG, LAUNCH, SYNC, then host frames,
then management frames, and otherwise the LINK frame that the partner is owed or an IDLE frame (the LINK frame's rank is the
model's choice, log entry 39).
A received frame that a code or the CRC refuses is rejected: counted, with a NAK due, unless one is outstanding; one
that passes advances the receive sequence number, and a scheduled line joins the ingress, where it waits out the receive
pad. -/
def Obligations.FramesLeaveAndArrive : Prop :=
  (∀ (s : State) (p : PortId),
     let c := s.sys.chip
     let x := c.port p
     x.st = .up → x.resend = 0 → x.replay.length < 128 → (∀ q, (c.tile q).sendq = []) → c.cmp.mesh.lines = [] →
     (∀ q, (c.port q).pipe = [] ∧ (c.port q).fills = []) →
     (c.map.run = false ∨ c.time.strict = false) → c.pwr.busy = false →
     let rest := if x.linkDue then linkFrame c else idleFrame
     let sends := fun (f : Frame) => Gives (exec (.egressArbitration p) s) fun t =>
       let y := t.sys.chip.port p
       keepsMemory s t ∧ (∀ q, q ≠ p → t.sys.chip.port q = c.port q) ∧ t.sys.chip.cmp.tiles = c.cmp.tiles ∧
       y.txSeq = x.txSeq + 1 ∧ y.replay = x.replay ++ [f] ∧ y.nakDue = false ∧ y.rxSeq = x.rxSeq ∧
       t.sys.out = s.sys.out ++ [.link p (encodeFrame x.txSeq ⟨x.rxSeq - 1, x.nakDue, x.xoffOut, f.typ, false⟩ f.payload f.msg)]
     (x.xoffIn = true → sends rest) ∧
     (x.xoffIn = false →
       (∀ l, x.sched = [l] → l.due ≤ c.cmp.cycles → l.behindLag = false → sends l.frame) ∧
       (x.sched = [] →
         (∀ f, x.time[(2 : Fin 4)] = some f → sends f) ∧
         (∀ f, x.time[(2 : Fin 4)] = none → x.time[(3 : Fin 4)] = some f → sends f) ∧
         (∀ f, x.time[(2 : Fin 4)] = none → x.time[(3 : Fin 4)] = none → x.time[(1 : Fin 4)] = some f → sends f) ∧
         (∀ f, x.time[(2 : Fin 4)] = none → x.time[(3 : Fin 4)] = none → x.time[(1 : Fin 4)] = none →
           x.time[(0 : Fin 4)] = some f → sends (stampSync c.time.gtc 0 f)) ∧
         (x.time = Vector.replicate 4 none →
           (∀ f fs, x.host = f :: fs → sends f) ∧
           (∀ f fs, x.host = [] → x.mgmt = f :: fs → sends f) ∧
           (x.host = [] → x.mgmt = [] → sends rest))))) ∧
  (∀ (s : State) (p : PortId) (bytes : List Byte),
     let c := s.sys.chip
     let x := c.port p
     let r := fecDecode bytes
     let l := frameLctl r.bytes
     x.st = .up → (c.map.run = false ∨ c.time.strict = false) →
     lanesOver (r.fixed.foldl countCorrection (rollLaneMs s.sys.now x)) = 0 →
     (r.ok = false ∨ crcPasses x.rxSeq r.bytes = false ∨ (x.nakOut = true ∧ l.rpl = false) →
       Gives (exec (.frameReceive p bytes) s) fun t =>
       let y := t.sys.chip.port p
       keepsMemory s t ∧ (∀ q, q ≠ p → t.sys.chip.port q = c.port q) ∧ y.rxSeq = x.rxSeq ∧ y.ingress = x.ingress ∧
       (x.nakOut = true → y.rejectCount = x.rejectCount ∧ y.nakDue = x.nakDue) ∧
       (x.nakOut = false → y.rejectCount = satInc x.rejectCount ∧ y.nakDue = true ∧ y.nakOut = true)) ∧
     (r.ok = true → crcPasses x.rxSeq r.bytes = true → (x.nakOut = false ∨ l.rpl = true) → l.nak = false →
       Gives (exec (.frameReceive p bytes) s) fun t =>
         let y := t.sys.chip.port p
         keepsMemory s t ∧ (∀ q, q ≠ p → t.sys.chip.port q = c.port q) ∧ y.rxSeq = x.rxSeq + 1 ∧
         y.rejectCount = x.rejectCount ∧ y.nakOut = false ∧
         (l.typ ≠ 1 → y.ingress = x.ingress) ∧
         (l.typ = 1 → kindOf (frameOf r.bytes).msg = 0 →
           y.ingress.map (·.frame) = x.ingress.map (·.frame) ++ [frameOf r.bytes] ∧
           (c.time.strict = false → y.ingress.getLast?.map (·.ready) = some (s.sys.now + Config.ns x.pad.toNat)))))

/-- The oldest scheduled line whose arrival gate is open leaves the ingress: through the transit switch, 30 core cycles later,
to the egress of its next hop, with the hop taken off its route, or, where that port carries no lines, discarded and counted
there; or, at its destination in run state, 10 core cycles later, into the mesh for its channel; out of run state it is
discarded and counted. Closed gates keep every line. Its arrival and its gate's release do the same, once the receive pad is
over; an arrival does not come before its end. -/
def Obligations.ScheduledLinesPassOn : Prop :=
  (∀ (s : State) (p : PortId) (r : Result),
    r = exec (.scheduledLineArrival p) s ∨ r = exec (.arrivalGateRelease p) s →
    let c := s.sys.chip
    let isOpen := fun (i : InFrame) => kindOf i.frame.msg == 0 && i.gate == some 0
    let taken := fun (t : State) => keepsMemory s t ∧ t.sys.tray = s.sys.tray ∧ t.sys.out = s.sys.out ∧
      (t.sys.chip.port p).ingress = (c.port p).ingress.eraseP isOpen
    (c.port p).padOver → (c.map.run = false ∨ c.time.strict = false) →
    ((c.port p).ingress.find? isOpen = none → r = .next s) ∧
    (∀ i, (c.port p).ingress.find? isOpen = some i →
      let m := i.frame.msg
      (∀ out route, nextHop (routeOf m) = some (out, route) →
        ((c.port out).carries = true → Gives r fun t => taken t ∧
          ∃ l, (t.sys.chip.port out).pipe = (c.port out).pipe ++ [l] ∧ l.transit = true ∧
            l.frame = ⟨1, i.frame.payload, withRoute m route⟩ ∧ l.due = c.cmp.cycles + 30) ∧
        ((c.port out).carries = false → Gives r fun t => taken t ∧
          (t.sys.chip.port out).pipe = (c.port out).pipe ∧
          (t.sys.chip.port out).dropCount = satInc (c.port out).dropCount)) ∧
      (nextHop (routeOf m) = none → c.map.run = false → Gives r fun t => taken t ∧
        t.sys.chip.cmp = c.cmp ∧ (t.sys.chip.port p).dropCount = satInc (c.port p).dropCount) ∧
      (nextHop (routeOf m) = none → c.map.run = true → natField m.toNat 4 13 = c.self →
        natField m.toNat 21 5 < c.map.vc → Gives r fun t => taken t ∧
          ∃ l, t.sys.chip.cmp.mesh.lines = c.cmp.mesh.lines ++ [l] ∧ l.line = i.frame.payload ∧
            l.due = some (c.cmp.cycles + 8) ∧
            l.dst = .tile (natField m.toNat 17 4 * c.map.vc + natField m.toNat 21 5)
              (Fin.ofNat 4 (natField m.toNat 26 2))) ∧
      (nextHop (routeOf m) = none → c.map.run = true →
        (natField m.toNat 4 13 ≠ c.self ∨ c.map.vc ≤ natField m.toNat 21 5) → Gives r fun t => taken t ∧
        t.sys.chip.cmp = c.cmp ∧ t.sys.chip.fab.routeCount = satInc c.fab.routeCount ∧
        ⟨27, .chip⟩ ∈ t.sys.chip.fc.raised))) ∧
  (∀ (s : State) (p : PortId) (i : InFrame),
    let x := s.sys.chip.port p
    x.ingress = [i] → kindOf i.frame.msg = 0 → i.gate = none → s.sys.chip.map.run = false →
    nextHop (routeOf i.frame.msg) = none → Gives (exec (.scheduledLineArrival p) s) fun t =>
      keepsMemory s t ∧ i.ready ≤ t.sys.now ∧ (t.sys.chip.port p).ingress = [] ∧
      (t.sys.chip.port p).dropCount = satInc x.dropCount)

/-- The host engine gives the oldest waiting segment the lowest free tag; its request, with the data of a write, joins the
egress of its route, with one hop counted; a segment for this chip waits for the own responder.
A host-injected frame for another chip goes on by the route of its destination with one more hop, and waits where that
egress is full. -/
def Obligations.SegmentsLeaveAndPassOn : Prop :=
  (∀ (s : State) (g : Segment) (rest : List Segment) (tag : Nat),
     let c := s.sys.chip
     c.fab.waiting = g :: rest → freeTag c.fab = some tag →
     let queued := fun (c : Chip) =>
       { c with fab := { c.fab with waiting := rest, txns := c.fab.txns ++ [⟨tag, g, none, none⟩] } }
     let req := hostFrame (if g.write then 1 else 0) g.dest.toNat c.self tag 0 1 (requestLine g)
     let frames := if g.write then [req, hostFrame 2 g.dest.toNat c.self tag 0 1 g.data] else [req]
     (g.dest.toNat = c.self → exec .segmentIssue s = .next (s.withChip queued)) ∧
     (∀ p, g.dest.toNat ≠ c.self → hostRoute c.fab g.dest.toNat = some p → (c.port p).st = .up →
       ((c.port p).host.length + frames.length ≤ 16 →
         exec .segmentIssue s = .next (s.withChip fun c => (queued c).onPort p fun x => { x with host := x.host ++ frames })) ∧
       (16 < (c.port p).host.length + frames.length → exec .segmentIssue s = .next s))) ∧
  (∀ (s : State) (p out : PortId) (f : Frame) (r : Result),
     let c := s.sys.chip
     (c.port p).padOver →
     (hostFirst 0 (c.port p) = some f ∧ r = exec (.rreq (.port p)) s) ∨
       (hostFirst 1 (c.port p) = some f ∧ r = exec (.wreq (.port p)) s) ∨
       (hostFirst 2 (c.port p) = some f ∧ r = exec (.wdata (.port p)) s) ∨
       (hostFirst 3 (c.port p) = some f ∧ r = exec (.rresp (.port p)) s) ∨
       (hostFirst 4 (c.port p) = some f ∧ r = exec (.wresp (.port p)) s) →
     destOf f ≠ c.self → hostRoute c.fab (destOf f) = some out → hopsOf f < 63 → (c.port out).st = .up →
     let on := hostFrame (opOf f.msg) (destOf f) (srcOf f) (tagOf f) (statusOf f) (hopsOf f + 1) f.payload
     ((c.port out).host.length < 16 → r = .next (s.withChip fun c =>
       (c.onPort p (popKind 1)).onPort out fun x => { x with host := x.host ++ [on] })) ∧
     (16 ≤ (c.port out).host.length → r = .next s))

/-- The responder takes the requests of frames for this chip in their order of arrival. With nothing before it, a read request
on search memory is answered at once, with its bytes in their place of the line; a write request waits for its data, which,
when it comes, is stored and answered; a read behind a write that waits for its data waits too.
The own responder takes the oldest own transaction in the same order, a read at once and a write with its data after it; the
engine takes its answer, and the transaction ends. -/
def Obligations.ResponderAndOwnTransactions : Prop :=
  (∀ (s : State) (p back : PortId) (i : InFrame),
     let c := s.sys.chip
     let f := i.frame
     let src : ChipNo := BitVec.ofNat 13 (srcOf f)
     let first := (f.payload.byte 4).toNat
     let last := (f.payload.byte 5).toNat
     let line := requestOffset f
     let inSearch := fun (line : Nat) =>
       0x70000000 ≤ line * 256 ∧ line * 256 < 0x70800000 ∧ 16 * c.map.vc * 0x400000 ≤ 0x60000000
     let answer := fun (op : Nat) (payload : Line) => hostFrame op (srcOf f) (srcOf f) (tagOf f) 0 1 payload
     let request := fun (write : Bool) => RespTxn.mk src (tagOf f) write line first last none false s.sys.now
     let joins := fun (write : Bool) => Host.Outcome.next (s.withChip fun c =>
       let c := c.onPort p (popKind 1)
       { c with fab := { c.fab with responder := c.fab.responder ++ [request write] } })
     (c.port p).padOver → firstOfKind 1 (c.port p) = some i → destOf f = c.self → comesFirst c p i = true →
     (opOf f.msg = 1 → c.fab.responder = [] → exec (.wreq (.port p)) s = joins true) ∧
     (∀ r rest, opOf f.msg = 0 → c.fab.responder = r :: rest → r.write = true → r.data = none → rest.length < 31 →
       exec (.rreq (.port p)) s = joins false) ∧
     (c.domOn bitSrch = true → s.sys.ecc = [] → hostRoute c.fab (srcOf f) = some back → (c.port back).st = .up →
       (c.port back).host.length < 16 →
       (opOf f.msg = 0 → c.fab.responder = [] → segmentOk (.search 0) first last = true → inSearch line →
         exec (.rreq (.port p)) s = .next (s.withChip fun c => (c.onPort p (popKind 1)).onPort back fun x =>
           { x with host := x.host ++ [answer 3 (lineImage first (Memory.read s.mem (line * 256 + first) (last + 1 - first)))] })) ∧
       (∀ r, opOf f.msg = 2 → c.fab.responder = [r] → r.write = true → r.data = none → r.own = false → r.src = src →
         r.tag = tagOf f → segmentOk (.search 0) r.first r.last = true → r.last < 256 → inSearch r.line →
         Gives (exec (.wdata (.port p)) s) fun t =>
           t.mem = Memory.write s.mem (r.line * 256 + r.first) ((f.payload.bytes.drop r.first).take (r.last + 1 - r.first)) ∧
           t.sys.chip.fab.responder = [] ∧
           (t.sys.chip.port back).host = (c.port back).host ++ [answer 4 Line.zero]))) ∧
  (∀ (s : State) (x : Txn),
     let c := s.sys.chip
     let now := s.sys.now
     let won := fun (c : Chip) => c.onTxns (changeTxn (fun z => z.tag == x.tag) fun z => { z with wonAt := some now })
     let answers := fun (tag status : Nat) (l : Line) (c : Chip) =>
       c.onTxns (changeTxn (fun z => z.tag == tag) fun z => { z with answer := some (xferStatus status, l) })
     (ownNext false c = some x → c.fab.responder = [] →
       let r := performRead x.seg.line x.seg.first x.seg.last s.mem (s.withChip won).sys
       exec (.rreq .own) s = .next { s with sys := r.2.2.onChip (answers x.tag r.1 r.2.1) }) ∧
     (ownNext true c = some x → c.fab.responder = [] → exec (.wreq .own) s = .next (s.withChip fun c =>
       let c := won c
       { c with fab := { c.fab with
           responder := [⟨x.seg.dest, x.tag, true, x.seg.line, x.seg.first, x.seg.last, none, true, now⟩] } })) ∧
     (∀ r, c.fab.responder = [r] → r.own = true → r.write = true → r.data = none →
       c.fab.txns.find? (fun z => z.tag == r.tag) = some x →
       let w := performWrite r.line r.first r.last x.seg.data s.mem
         { s.sys with chip := { c with fab := { c.fab with responder := [] } } }
       exec (.wdata .own) s = .next { s with mem := w.2.1, sys := w.2.2.onChip (answers r.tag w.1 Line.zero) }) ∧
     (∀ a, c.fab.txns = [x] → x.answer = some a →
       (x.seg.write = false → exec (.rresp .own) s = .next { s with sys := endTxn x a.1 a.2 s.sys }) ∧
       (x.seg.write = true → exec (.wresp .own) s = .next { s with sys := endTxn x a.1 a.2 s.sys })))

/-- A response completes the transaction of its tag, and one for a tag that waits for none is discarded and counted; a
transaction without a response ends after TIMEOUT, and a write request that waits for its data so long is dropped.
Management frames: a CSC that runs queues one for its partner, whose message field but for KIND is the firmware's, where the
port is UP with room for it, and takes the oldest that a port has received. -/
def Obligations.TransactionsEndAndManagementPasses : Prop :=
  (∀ (s : State) (p : PortId) (f : Frame),
     let c := s.sys.chip
     let popped := s.withChip fun c => c.onPort p (popKind 1)
     let ends := fun (write : Bool) (r : Result) =>
       let open_ := fun (x : Txn) => x.tag = tagOf f ∧ x.seg.write = write ∧ x.wonAt.isSome = true ∧ ownTxn c x = false
       (∀ x, c.fab.txns = [x] → open_ x →
         r = .next { popped with sys := endTxn x (xferStatus (statusOf f)) f.payload popped.sys }) ∧
       ((∀ x ∈ c.fab.txns, ¬open_ x) → r = .next (popped.withChip fun c =>
         { c with fab := { c.fab with hostDrop := satInc c.fab.hostDrop } }))
     (destOf f = c.self → (c.port p).padOver →
       (hostFirst 3 (c.port p) = some f → ends false (exec (.rresp (.port p)) s)) ∧
       (hostFirst 4 (c.port p) = some f → ends true (exec (.wresp (.port p)) s))) ∧
     (∀ (tag : Fin 256) (x : Txn) w, c.fab.txns = [x] → x.tag = tag.val → x.wonAt = some w →
       Gives (exec (.transactionTimeout tag) s) fun t => t.mem = s.mem ∧ t.sys.chip.fab.txns = [] ∧
         w + Config.us (max 1 c.fab.hostTimeout.toNat) ≤ t.sys.now ∧ t.sys.chip.cmp.tiles = c.cmp.tiles) ∧
     (∀ (src : ChipNo) (tag : Fin 256) (x : RespTxn), c.fab.responder = [x] → x.write = true → x.data = none →
       x.src = src → x.tag = tag.val →
       Gives (exec (.wreqTimeout src tag) s) fun t => t.mem = s.mem ∧
         x.at_ + Config.us (max 1 c.fab.hostTimeout.toNat) ≤ t.sys.now ∧
         t.sys.chip.fab = { c.fab with responder := [] } ∧ t.sys.chip.cmp.tiles = c.cmp.tiles)) ∧
  (∀ (s : State) (p : PortId), cscRuns s.sys.chip = true →
     let x := s.sys.chip.port p
     (∀ (msg : Dword) l, x.st = .up → x.mgmt.length < 4 → exec (.managementFrame p (some (msg, l))) s =
       .next (s.withChip (Chip.onPort p fun x => { x with mgmt := x.mgmt ++ [⟨1, l, msg ||| 3⟩] }))) ∧
     (∀ i, x.padOver → firstOfKind 3 x = some i → exec (.managementFrame p none) s =
       .next ((s.withChip (Chip.onPort p (popKind 3))).puts (.csc p i.frame.msg i.frame.payload))))

/-- SYNC_SEND, 12,500 ticks after the last one, puts a SYNC frame on every UP port, and the root advances HEARTBEAT;
SYNC_FRAME on the parent port of a locked chip steps the GTC, out of run state, to the stamp plus the link's ticks and the
ticks since the frame's link-side time ended, and by at most one tick in run state; a frame of another port is only noted as
delivered; LAG_FRAME sets the port's partner lag.
A lost parent is left for the next usable port of the list, with source 30, or the chip goes on holdover with source 31 and
any run ends; a chip on holdover, or one with a usable port before its parent in the list, locks to the first usable port, and
one on holdover with none raises source 31; a root that has fallen silent is left for the next index, with source 30, and the
chip takes its place under it: as the root, locked; locked to a port of the list; or on holdover. -/
def Obligations.TimeTreeIsKept : Prop :=
  (∀ (s : State) (p : PortId) (i : InFrame) (d : Chip),
     let c := s.sys.chip
     let f := i.frame
     (12500 ≤ (c.time.gtc - c.time.syncSentAt).toNat → c.time.skip = 0 → Gives (exec .syncSend s) fun t =>
       let beat := if c.isRoot then c.time.heartbeat + 1 else c.time.heartbeat
       keepsMemory s t ∧ t.sys.now = s.sys.now ∧
       t.sys.chip.time = { c.time with syncSentAt := c.time.gtc, heartbeat := beat } ∧
       ∀ q, t.sys.chip.port q = if (c.port q).st = .up
         then { c.port q with time := (c.port q).time.set 0 (some (syncFrame t.sys.chip.time)) } else c.port q) ∧
     ((c.port p).padOver → takeTimeFrame p 0 c = some (i, d) →
       (c.isRoot = true ∨ c.time.role ≠ 1 ∨ p ≠ c.time.parent →
         exec (.syncFrame p) s = .next (s.withChip fun _ =>
           d.onPort p fun x => { x with syncAt := some s.sys.now })) ∧
       (c.isRoot = false → c.time.role = 1 → p = c.time.parent →
         Gives (exec (.syncFrame p) s) fun t => keepsMemory s t ∧
           t.sys.chip.time.heartbeat = BitVec.ofNat 32 (frameNat f 12 4) ∧ t.sys.chip.time.syncAt = s.sys.now ∧
           (c.map.run = false → t.sys.chip.time.gtc =
             BitVec.ofNat 64 ((s.sys.now - i.ready) / 12 + frameNat f 0 8 + linkTicks (c.port p).cls)) ∧
           (c.map.run = true → t.sys.chip.time.gtc = c.time.gtc ∨ t.sys.chip.time.gtc = c.time.gtc + 1))) ∧
     ((c.port p).padOver → takeTimeFrame p 3 c = some (i, d) → exec (.lagFrame p) s = .next (s.withChip fun _ =>
       d.onPort p fun x => { x with partnerLag := BitVec.ofNat 64 (frameNat f 0 8) }))) ∧
  (∀ (s : State),
     let c := s.sys.chip
     let old := c.time.parent
     c.isRoot = false →
     (c.time.role = 1 → (c.port old).st ≠ .up → (c.port old).st ≠ .retrain →
       (∀ p, c.usableParent s.sys.now (some old) = some p → exec .parentLoss s = .next (s.withChip fun c =>
         let c := c.raise 30 .chip
         { c with time := { c.time with parent := p, role := 1, syncAt := s.sys.now, heartbeatAt := s.sys.now } })) ∧
       (c.usableParent s.sys.now (some old) = none → Gives (exec .parentLoss s) fun t => keepsMemory s t ∧
         t.sys.chip.time.role = 2 ∧ t.sys.chip.time.locked = false ∧ t.sys.chip.map.run = false ∧
         t.sys.chip.fc.src[(31 : SourceId)].line = true)) ∧
     (∀ p, c.pwr.busy = false → c.usableParent s.sys.now none = some p →
       (c.time.role ≠ 1 ∨ (p ≠ old ∧ (c.port old).st = .up ∧ s.sys.now < c.time.syncAt + Config.us 30) →
         exec .parentRelock s = .next (s.withChip fun c =>
           { c with time := { c.time with parent := p, role := 1, syncAt := s.sys.now, heartbeatAt := s.sys.now } })) ∧
       (c.time.role = 1 → p = old → exec .parentRelock s = .next s)) ∧
     (c.pwr.busy = false → c.time.role ≠ 1 → c.usableParent s.sys.now none = none →
       Gives (exec .parentRelock s) fun t => keepsMemory s t ∧ t.sys.chip.time.role = 2 ∧
         t.sys.chip.time.locked = false ∧ t.sys.chip.map.run = false ∧ t.sys.chip.fc.src[(31 : SourceId)].line = true) ∧
     (c.time.role = 1 → (c.port old).st = .up → nearTransition s.sys = false → Gives (exec .rootFailover s) fun t =>
       let d := t.sys.chip
       keepsMemory s t ∧ c.time.heartbeatAt + Config.us 30 ≤ t.sys.now ∧ d.time.rootIdx = c.time.rootIdx + 1 ∧
       ⟨30, .chip⟩ ∈ d.fc.raised ∧ (d.isRoot = true → d.time.role = 0 ∧ d.time.locked = true) ∧
       (d.isRoot = false → (d.time.role = 1 ∧ d.time.parent ∈ d.parentList) ∨
         (d.time.role = 2 ∧ d.time.locked = false))))

/-- A launch pour is forwarded once by every UP port but its own; an armed chip outside run state whose image, STRICT and
time agree enters run state for it with its tiles' program state reset (whether or not its map is valid: the model's choice,
log entry 103), and otherwise records the cause, raises source 32 and answers with an abort pour by every UP port. An abort
pour is forwarded once, too; one of the chip's launch ends the run with the pour's cause.
The run: bundle 0 begins when the core view has reached L; the run ends when every mapped tile is done and nothing is on
its way out; an unbroken hold past HOLD_LIMIT aborts it with source 29; a forecast takes effect as the quadrant's ceiling. -/
def Obligations.PoursAndRunsTakeEffect : Prop :=
  (∀ (s : State) (p : PortId) (i : InFrame) (d : Chip),
     let c := s.sys.chip
     let f := i.frame
     let launchId : PourId := ⟨BitVec.ofNat 13 (frameNat f 13 2), BitVec.ofNat 8 (frameNat f 15 1)⟩
     let abortId : PourId := ⟨BitVec.ofNat 13 (frameNat f 0 2), BitVec.ofNat 8 (frameNat f 2 1)⟩
     let forwards := fun (k : Fin 4) (t : State) => ∀ q, q ≠ p → (c.port q).st = .up →
       (t.sys.chip.port q).time[k] = some f
     ((c.port p).padOver → takeTimeFrame p 1 c = some (i, d) →
       (launchId ∈ c.time.seenLaunch → exec (.launchPour p) s = .next (s.withChip fun _ => d)) ∧
       (launchId ∉ c.time.seenLaunch →
         (c.time.arm = false → Gives (exec (.launchPour p) s) fun t => keepsMemory s t ∧ forwards 1 t ∧
           t.sys.chip.map = c.map ∧ t.sys.chip.time = { c.time with seenLaunch := c.time.seenLaunch ++ [launchId] }) ∧
         (c.time.arm = true → launchCause c f = none → Gives (exec (.launchPour p) s) fun t => keepsMemory s t ∧
           forwards 1 t ∧ t.sys.chip.map.run = true ∧ t.sys.chip.time.launch = some launchId ∧
           t.sys.chip.time.launchL = BitVec.ofNat 64 (frameNat f 0 8) ∧ t.sys.chip.time.lag = 0 ∧
           t.sys.chip.cmp.started = false ∧ t.sys.chip.cmp.tiles = c.cmp.tiles.map Tile.start) ∧
         (∀ cause, c.time.arm = true → launchCause c f = some cause → Gives (exec (.launchPour p) s) fun t =>
           keepsMemory s t ∧ forwards 1 t ∧ t.sys.chip.map = c.map ∧ t.sys.chip.time.abortCause = BitVec.ofNat 4 cause ∧
           t.sys.chip.time.abortValid = true ∧ ⟨32, .chip⟩ ∈ t.sys.chip.fc.raised ∧
           ∀ q, (c.port q).st = .up → (t.sys.chip.port q).time[(2 : Fin 4)] = some (abortFrame launchId cause c.self)))) ∧
     ((c.port p).padOver → takeTimeFrame p 2 c = some (i, d) → abortId ∈ c.time.seenAbort →
       exec (.abortPour p) s = .next (s.withChip fun _ => d)) ∧
     ((c.port p).padOver → takeTimeFrame p 2 c = some (i, d) → abortId ∉ c.time.seenAbort →
       Gives (exec (.abortPour p) s) fun t => keepsMemory s t ∧ forwards 2 t ∧
         t.sys.chip.time.seenAbort = c.time.seenAbort ++ [abortId] ∧
         (c.map.run = true → c.time.launch = some abortId → t.sys.chip.map.run = false ∧
           t.sys.chip.time.abortCause = BitVec.ofNat 4 (frameNat f 3 1 % 16)) ∧
         (c.time.launch ≠ some abortId → t.sys.chip.map = c.map))) ∧
  (∀ (s : State),
     let c := s.sys.chip
     (c.map.run = true → c.cmp.started = false → c.time.launchL.toNat ≤ c.time.coreView.toNat → s.sys.ecc = [] →
       exec .programStart s = .next (s.withChip fun c => { c with cmp := { c.cmp with started := true, pcc := 0 } })) ∧
     (c.map.run = true → c.cmp.started = true → runOver c = true → Gives (exec .runEnd s) fun t => keepsMemory s t ∧
       t.sys.chip.map.run = false ∧ t.sys.chip.time.launch = none ∧ t.sys.chip.cmp.started = false ∧
       t.sys.chip.cmp.holds = [] ∧ t.sys.chip.hif.mailbox = []) ∧
     (c.map.run = true → c.limitHold = true → Gives (exec .holdTimeout s) fun t => keepsMemory s t ∧
       t.sys.chip.map.run = false ∧ t.sys.chip.time.abortCause = 6 ∧ t.sys.chip.time.abortValid = true ∧
       ⟨29, .chip⟩ ∈ t.sys.chip.fc.raised ∧
       ∀ g, c.time.holdSince = some g → timeBaseRuns c = true →
         max 1 c.time.holdLimit.toNat * 1250 < (t.sys.chip.time.gtc - g).toNat) ∧
     (∀ (q : QuadId) f, c.pwr.gov[q].forecast = some f → c.map.run = true → f.due ≤ c.cmp.pcc →
       exec (.forecastEffect q) s = .next (s.withChip fun c => c.onPwr (onGov q fun g =>
         { g with ceiling := some (min (8 * f.level.toNat) (quadCapacity c q.val)), forecast := none }))))

/-- An idle unit takes its front request when it is of the command's kind: it is in service, with the answer that its line, its
budget, memory and the hash generation give, and memory is as before until its work ends.
With budget enough and no error marked, MEMREAD answers the header and RLINES − 1 lines of search memory, in 48 + RLINES
work cycles, and MEMWRITE writes its bytes at its offset, in 48 + n / 8.
The end of a request's work and its result: a search that its budget has cut is counted, with source 39, and an ordered one
leaves its hash generation; the lines of an answer that are due go to its tile's channel by the mesh, or outside run state to
the host write path, where the descriptor's completion is behind the last; the idle scrubber moves to the next line. -/
def Obligations.SearchUnitServes : Prop :=
  (∀ (s : State) (r : SearchReq) (rest : List SearchReq) (k : Result),
     let c := s.sys.chip
     let u := c.srch
     let clear := u.clearDue || decide (8191 ≤ u.sinceClear)
     let gen := if clear then 1 else u.generation.toNat + 1
     (k = exec .broad s ∧ (reqKind r.line = 0 ∨ 4 ≤ reqKind r.line)) ∨ (k = exec .ordered s ∧ reqKind r.line = 1) ∨
       (k = exec .memwrite s ∧ reqKind r.line = 2) ∨ (k = exec .memread s ∧ reqKind r.line = 3) →
     (∀ q, (c.tile q).sendq = []) → c.cmp.mesh.lines = [] → c.domOn bitSrch = true →
     u.active = none → u.queue = r :: rest → Gives k fun t =>
       t.mem = s.mem ∧ t.pending = s.pending ∧ t.sys.tray = s.sys.tray ∧ t.sys.chip.cmp.tiles = c.cmp.tiles ∧
       t.sys.chip.srch = { u with
         queue := rest
         active := some ⟨r, max u.freeAt r.at_, answerOf s.sys.free r.line (r.e - r.r) clear gen s.mem s.sys.ecc⟩ }) ∧
  (∀ (draw budget gen : Nat) (l : Line) (clear : Bool) (m : List Host.Cell), requestOk l = true →
     let a := answerOf draw l budget clear gen m []
     let n := l.leNat 8 2
     (reqKind l = 3 → 48 + reqLines l ≤ budget → a.status = 0 ∧ a.work = 48 + reqLines l ∧ a.writes = [] ∧
       a.lines.length = reqLines l ∧
       ∀ i, i + 1 < reqLines l → a.lines[i + 1]? = some (Memory.line m (searchBase + l.leNat 4 4 + 256 * i))) ∧
     (reqKind l = 2 → 48 ≤ budget → 48 + n / 8 ≤ budget → a.status = 0 ∧ a.work = 48 + n / 8 ∧
       a.writes = [(l.leNat 4 4, (l.bytes.drop 32).take n)])) ∧
  (∀ (s : State),
     let c := s.sys.chip
     let u := c.srch
     (∀ a, u.active = some a → a.answer.status = 1 → a.began + a.answer.work ≤ u.work.toNat →
       Gives (exec .searchBudgetEnd s) fun t =>
         let v := t.sys.chip.srch
         t.pending = s.pending ∧ (a.answer.writes = [] → a.answer.cleared = false → t.mem = s.mem) ∧
         v.active = none ∧ v.queue = u.queue ∧ v.served = satInc u.served ∧ v.partialCount = satInc u.partialCount ∧
         v.eccCount = satAdd u.eccCount a.answer.corrected ∧ v.freeAt = a.began + a.answer.work ∧
         v.outs = u.outs ++ [⟨a.req.origin, outDue c a.req.origin a.req.e (a.began + a.answer.work), a.answer, 0⟩] ∧
         (a.answer.ordered = true → v.generation = (if a.answer.cleared then 1 else u.generation + 1) ∧
           v.sinceClear = (if a.answer.cleared then 1 else u.sinceClear + 1)) ∧
         t.sys.chip.fc.raised = c.fc.raised ++ ⟨39, .srch⟩ :: (if a.answer.bad.isSome then [⟨37, .srch⟩] else [])) ∧
     (∀ o, u.outs = [o] → u.active = none → (∀ q, (c.tile q).sendq = []) → c.cmp.mesh.lines = [] →
       (∀ v rch, o.origin = .tile v rch → c.map.run = true → c.map.vc ≠ 0 →
         o.due ≤ (if c.time.strict then c.cmp.pcc else u.work.toNat) →
         Gives (exec .searchResult s) fun t => keepsMemory s t ∧ t.sys.chip.srch.outs = [] ∧
           t.sys.chip.cmp.mesh.lines.map (fun l => (l.dst, l.line)) =
             o.answer.lines.map fun l => (MeshDst.tile v rch, l)) ∧
       (∀ q i e, o.origin = .host q i → c.map.run = false → hostDue o ≤ u.work.toNat → c.hif.linkUp = true →
         o.sent = 0 → o.answer.lines.length ≤ 16 → c.hif.writes = [] →
         findEntry (c.qp q) i = some e → Gives (exec .searchResult s) fun t => keepsMemory s t ∧
           let head := o.answer.lines.headD Line.zero
           t.sys.chip.srch.outs = [] ∧ (t.sys.chip.qp q).entries = (c.qp q).entries ∧
           t.sys.chip.hif.writes.map (fun w => (w.addr, w.bytes, w.ends)) = o.answer.lines.zipIdx.map fun l =>
             (BitVec.ofNat 64 (descTaddr e.bytes + 256 * l.2), l.1.bytes,
              if l.2 + 1 = o.answer.lines.length then some (q, i, head.leNat 0 8, head.leNat 8 8) else none))) ∧
     (u.scrubEnable = true → c.domOn bitSrch = true → u.active = none → u.queue = [] → s.sys.ecc = [] →
       (∀ a, u.scrubAt = some a → a + max 1 u.gap.toNat ≤ c.cmp.cycles) →
       exec .searchScrub s = .next (s.withChip fun c => { c with srch := { c.srch with
         scrubPtr := c.srch.scrubPtr + 1
         scrubAt := some c.cmp.cycles } })))

/-- Doorbells: a tail in range moves the tail; a queue pair that is ENABLED or in ERROR takes its entries and, ENABLED, fetches
each descriptor; a tail out of range raises source 36 with cause 1; CQ_HEAD is stored; a push of 64 bytes at 0x40 moves the
tail and adds its entry to a queue pair that is ENABLED or in ERROR, and a malformed one raises source 34 and puts the queue
pair in ERROR.
A queue pair's states: ENABLE 1 with sizes in range takes it from DISABLED to ENABLED with its pointers at 0; ENABLE 0
drains it; with no DMA of its own left it is DISABLED. -/
def Obligations.DoorbellsAndQueuePairs : Prop :=
  (∀ (s : State) (q : QpId),
     let c := s.sys.chip
     let x := c.qp q
     let size := sqSize x
     let count := sqCount x
     (∀ v : Word,
       let tail := v.toNat % 4096
       let after := (tail + size - x.sqHead % size) % size
       (tail < size → count ≤ after → Gives (exec (.sqTail q v) s) fun t =>
         let n := after - count
         let fresh := (List.range n).map fun i => newEntry (x.next + i) none 0
         keepsMemory s t ∧ (∀ r, r ≠ q → t.sys.chip.qp r = c.qp r) ∧ t.sys.chip.cmp = c.cmp ∧
         (t.sys.chip.qp q).sqTail = tail ∧
         (t.sys.chip.qp q).entries = (if x.state = 1 ∨ x.state = 3 then x.entries ++ fresh else x.entries) ∧
         t.sys.out = (if x.state = 1 then s.sys.out ++ (List.range n).map fun i =>
             .hostRead (x.sqBase.toNat + 64 * ((x.next + i) % size)) 64
           else s.sys.out)) ∧
       (¬(tail < size ∧ count ≤ after) → exec (.sqTail q v) s = .next (s.withChip (Chip.hifErr 36 1 q))) ∧
       exec (.cqHead q v) s = .next (s.withChip (Chip.onQp q fun x => { x with cqHead := v.toNat % 4096 }))) ∧
     (∀ (off : Nat) (bytes : List Byte),
       let bad := fun (cause : Nat) => Host.Outcome.next (s.withChip fun c => (c.hifErr 34 cause q).onQp q fun x =>
         { x with state := 3 })
       (off < 0x40 ∨ 0x80 ≤ off → exec (.push q off bytes) s = .next s) ∧
       (0x40 < off → off < 0x80 → exec (.push q off bytes) s = bad 3) ∧
       (bytes.length ≠ 64 → exec (.push q 0x40 bytes) s = bad 3) ∧
       (bytes.length = 64 →
         (x.pushEn = false → exec (.push q 0x40 bytes) s = bad 4) ∧
         (x.pushEn = true → size - 1 ≤ count → exec (.push q 0x40 bytes) s = .next (s.withChip (Chip.hifErr 36 2 q))) ∧
         (x.pushEn = true → count < size - 1 → Gives (exec (.push q 0x40 bytes) s) fun t =>
           keepsMemory s t ∧ (∀ r, r ≠ q → t.sys.chip.qp r = c.qp r) ∧ t.sys.out = s.sys.out ∧
           (t.sys.chip.qp q).sqTail = (x.sqTail + 1) % size ∧
           (t.sys.chip.qp q).entries = (if x.state = 1 ∨ x.state = 3
             then x.entries ++ [newEntry x.next (some bytes) c.cmp.cycles] else x.entries))))) ∧
  (∀ (s : State) (q : QpId),
     let c := s.sys.chip
     let x := c.qp q
     let sized := 4 ≤ x.sqLog2.toNat ∧ x.sqLog2.toNat ≤ 12 ∧ 4 ≤ x.cqLog2.toNat ∧ x.cqLog2.toNat ≤ 12
     (x.state = 0 → sized → exec (.qpEnable q) s = .next (s.withChip (Chip.onQp q fun x =>
       { x with enable := true, state := 1, sqHead := 0, sqTail := 0, cqHead := 0, cqTail := 0, phase := true, next := 0,
                entries := [], irqCount := 0, irqSince := none }))) ∧
     (x.state ≠ 0 ∨ ¬sized → exec (.qpEnable q) s = .next s) ∧
     (x.state = 1 ∨ x.state = 3 → Gives (exec (.qpDisable q) s) fun t => keepsMemory s t ∧
       t.sys.chip.qp q = { x with enable := false, state := 2 } ∧ (∀ r, r ≠ q → t.sys.chip.qp r = c.qp r) ∧
       t.sys.chip.hif.cbuf = c.hif.cbuf.filter (fun e => e.qp != q)) ∧
     (x.state = 2 → (∀ r ∈ c.hif.reads, r.qp ≠ q) → (∀ y ∈ c.fab.txns, y.seg.qp ≠ q) →
       exec (.qpDrainEnd q) s = .next (s.withChip (Chip.onQp q fun x => { x with state := 0, entries := [] }))))

/-- The next descriptor of an ENABLED queue pair whose turn it is in the round robin, none started in this cycle, the link up and
room in the completion buffer: an invalid one completes INVALID; one that is refused completes with its status; the others
have their effect: a DMA read for the data, bytes to the host, an input line, a run, a pour, segments, or a completion.
Out of turn, or in run state in a cycle in which an entry has started, nothing starts; a FENCE waits for every earlier entry of
its queue pair.
A CANCEL that finds its transfer takes from the host engine every segment that waits without a tag. -/
def Obligations.DescriptorsAndCancelsTakeEffect : Prop :=
  (∀ (s : State) (q : QpId) (e : QEntry),
     let c := s.sys.chip
     let d := e.bytes
     let op := descOp d
     let others := (c.qp q).entries.filter fun x => x.index != e.index
     let started := (c.qp q).entries.map fun x => if x.index == e.index then { x with started := true } else x
     let ended := fun (status r0 r1 r2 : Nat) (t : State) =>
       (t.sys.chip.qp q).entries = others ∧
       t.sys.chip.hif.cbuf = c.hif.cbuf ++ [⟨q, descCid d, status, r0, r1, r2, 0⟩]
     let completes := fun (r : Result) (status r0 r1 r2 : Nat) => Gives r fun t => keepsMemory s t ∧
       t.sys.tray = s.sys.tray ∧ t.sys.out = s.sys.out ∧ t.sys.chip.cmp = c.cmp ∧ t.sys.chip.time = c.time ∧
       ended status r0 r1 r2 t
     let reads := fun (r : Result) (addr len : Nat) => Gives r fun t => keepsMemory s t ∧
       t.sys.out = s.sys.out ++ [.hostRead addr len] ∧ (t.sys.chip.qp q).entries = started ∧
       t.sys.chip.hif.reads = c.hif.reads ++ [⟨q, e.index, false, addr, len⟩]
     nextEntry (c.qp q) = some e → turnOf c = some q → startBusy c = false → c.hif.linkUp = true →
     c.hif.cbuf.length < 64 →
     (descValid c.map.vc d = false →
       (op = 0 ∨ 12 ≤ op → completes (exec (.nopDescriptor q) s) 5 0 0 0) ∧
       (op = 1 → completes (exec (.write q) s) 5 0 0 0) ∧ (op = 2 → completes (exec (.read q) s) 5 0 0 0) ∧
       (op = 3 → completes (exec (.input q) s) 5 0 0 0) ∧ (op = 4 → completes (exec (.launch q) s) 5 0 0 0) ∧
       (op = 5 → completes (exec (.stop q) s) 5 0 0 0) ∧ (op = 6 → completes (exec (.globalWrite q) s) 5 0 0 0) ∧
       (op = 7 → completes (exec (.globalRead q) s) 5 0 0 0) ∧ (op = 8 → completes (exec (.cancel q) s) 5 0 0 0) ∧
       (op = 9 → completes (exec (.fence q) s) 5 0 0 0) ∧
       (op = 10 → completes (exec (.search q) s) 5 0 0 0) ∧ (op = 11 → completes (exec (.timeQuery q) s) 5 0 0 0)) ∧
     (descValid c.map.vc d = true →
       let status := rangeStatus c (descTaddr d) (descLen d)
       let refusal := globalRefusal c d
       (op = 0 → completes (exec (.nopDescriptor q) s) 0 0 0 0) ∧
       (op = 1 → status ≠ 0 → completes (exec (.write q) s) status 0 0 0) ∧
       (op = 1 → status = 0 → reads (exec (.write q) s) (descHaddr d) (descLen d)) ∧
       (op = 2 → status ≠ 0 → completes (exec (.read q) s) status 0 0 0) ∧
       (∀ o, op = 2 → status = 0 → regionOf c.map.vc (descTaddr d) = .search o → s.sys.ecc = [] →
         Gives (exec (.read q) s) fun t => keepsMemory s t ∧ ended 0 (descLen d) 0 0 t ∧
           t.sys.out = s.sys.out ++ [.hostWrite (BitVec.ofNat 64 (descHaddr d)) (Memory.read s.mem (searchBase + o) (descLen d))]) ∧
       (op = 3 → c.map.run = false → completes (exec (.input q) s) 6 0 0 0) ∧
       (op = 3 → c.map.run = true → 16 ≤ c.hif.mailbox.length → completes (exec (.input q) s) 8 0 0 0) ∧
       (op = 3 → c.map.run = true → c.hif.mailbox.length < 16 → descInline d = false →
         reads (exec (.input q) s) (descTaddr d) (descLen d)) ∧
       (op = 3 → c.map.run = true → c.hif.mailbox.length < 16 → descInline d = true → Gives (exec (.input q) s) fun t =>
         keepsMemory s t ∧ (t.sys.chip.qp q).entries = others ∧ t.sys.chip.hif.cbuf = c.hif.cbuf ∧
         t.sys.chip.hif.inputCount = satInc c.hif.inputCount ∧
         t.sys.chip.hif.mailbox.map (fun x => x.line) = c.hif.mailbox.map (fun x => x.line) ++ [mailLine q e]) ∧
       (op = 4 → launchRefusal c (descHaddr d) ≠ 0 →
         completes (exec (.launch q) s) (launchRefusal c (descHaddr d)) 0 0 0) ∧
       (op = 4 → launchRefusal c (descHaddr d) = 0 → Gives (exec (.launch q) s) fun t => keepsMemory s t ∧
         t.sys.chip.map.run = true ∧ t.sys.chip.time.launchSeq = c.time.launchSeq + 1 ∧
         t.sys.chip.time.launchL = BitVec.ofNat 64 (descHaddr d) ∧
         t.sys.chip.time.launch = some ⟨BitVec.ofNat 13 c.self, c.time.launchSeq + 1⟩) ∧
       (op = 5 → c.map.run = false → completes (exec (.stop q) s) 6 0 0 0) ∧
       (op = 5 → c.map.run = true → Gives (exec (.stop q) s) fun t => keepsMemory s t ∧ t.sys.chip.map.run = false ∧
         t.sys.chip.time.abortCause = 1 ∧ t.sys.chip.time.abortValid = true) ∧
       (op = 6 → refusal ≠ 0 → completes (exec (.globalWrite q) s) refusal 0 0 0) ∧
       (op = 6 → refusal = 0 → reads (exec (.globalWrite q) s) (descHaddr d) (descLen d)) ∧
       (op = 7 → refusal ≠ 0 → completes (exec (.globalRead q) s) refusal 0 0 0) ∧
       (op = 7 → refusal = 0 → Gives (exec (.globalRead q) s) fun t => keepsMemory s t ∧ t.sys.out = s.sys.out ∧
         t.sys.chip.fab.waiting = c.fab.waiting ++ segmentsOf q { e with started := true } false) ∧
       (op = 8 → (∀ tq : QpId, tq.val = descByte d 26 → ∀ x ∈ (c.qp tq).entries,
         ¬((x.started = true ∨ x.index = e.index) ∧ (descOp x.bytes = 6 ∨ descOp x.bytes = 7) ∧
           descCid x.bytes = descNat d 24 2 ∧ x.cut = none)) →
         completes (exec (.cancel q) s) 21 0 0 0) ∧
       (op = 10 → c.map.run = true → completes (exec (.search q) s) 7 0 0 0) ∧
       (op = 10 → c.map.run = false → c.domOn bitSrch = false → completes (exec (.search q) s) 15 0 0 0) ∧
       (op = 10 → c.map.run = false → c.domOn bitSrch = true → reads (exec (.search q) s) (descHaddr d) 256) ∧
       (op = 9 → (∀ x ∈ (c.qp q).entries, notDone e.index x = false) ∧ completes (exec (.fence q) s) 0 0 0 0) ∧
       (op = 11 → completes (exec (.timeQuery q) s) 0 c.time.coreView.toNat c.time.lag.toNat (timeStatus c).toNat))) ∧
  (∀ (s : State) (q : QpId) (k : Result),
     let c := s.sys.chip
     k ∈ [exec (.nopDescriptor q) s, exec (.write q) s, exec (.read q) s, exec (.input q) s, exec (.launch q) s,
       exec (.stop q) s, exec (.globalWrite q) s, exec (.globalRead q) s, exec (.cancel q) s, exec (.fence q) s,
       exec (.search q) s, exec (.timeQuery q) s] →
     turnOf c ≠ some q ∨ (c.map.run = true ∧ startBusy c = true) → k = .next s) ∧
  (∀ (s : State) (q : QpId) (e x : QEntry),
     let c := s.sys.chip
     nextEntry (c.qp q) = some e → descOp e.bytes = 9 → descValid c.map.vc e.bytes = true → x ∈ (c.qp q).entries →
     notDone e.index x = true → exec (.fence q) s = .next s) ∧
  (∀ (s : State) (q tq : QpId) (e t : QEntry),
     let c := s.sys.chip
     nextEntry (c.qp q) = some e → turnOf c = some q → startBusy c = false →
     descOp e.bytes = 8 → descValid c.map.vc e.bytes = true → tq.val = descByte e.bytes 26 →
     (∀ x ∈ (c.qp q).entries, x.index = e.index → x = e) → cancelTarget (c.qp tq) (descNat e.bytes 24 2) = some t →
     (∀ r ∈ c.hif.reads, r.qp ≠ tq ∨ r.index ≠ t.index) →
     Gives (exec (.cancel q) s) fun u => keepsMemory s u ∧
       u.sys.chip.fab.waiting = c.fab.waiting.filter fun g => !ofTransfer tq t.index g)

/-- DMA data: a fetched descriptor joins its entry; the data of a WRITE to search memory is stored and the descriptor
completes; part of the data keeps the read open; a read that fails completes DMA_ERROR, or for a descriptor puts the queue
pair in ERROR, with source 35.
The host write path: the first write goes to host memory while the link is up, with behind it the completion that its HWRITE
or its SEARCH asks for, and is dropped and counted while the link is down; the oldest completion of a queue pair is written at its CQ tail, whose PHASE inverts on each pass, with the message
of THRESH; TIMER sends the message of a completion that waits. -/
def Obligations.HostTransfersComplete : Prop :=
  (∀ (s : State) (q : QpId) (r : DmaRead) (bytes : List Byte),
     let c := s.sys.chip
     let left := c.hif.reads.eraseP fun r => r.qp == q
     let arrives := exec (.hostReadCompletion q (.data bytes)) s
     c.hif.reads.find? (fun r => r.qp == q) = some r →
     (r.fetch = true → bytes.length = r.len → Gives arrives fun t => keepsMemory s t ∧ t.sys.chip.hif.reads = left ∧
       (t.sys.chip.qp q).entries = (c.qp q).entries.map fun e =>
         if e.index == r.index then { e with desc := some (e.data ++ bytes), data := [], at_ := c.cmp.cycles } else e) ∧
     (bytes.length < r.len → Gives arrives fun t => keepsMemory s t ∧
       t.sys.chip.hif.reads = { r with addr := r.addr + bytes.length, len := r.len - bytes.length } :: left ∧
       (t.sys.chip.qp q).entries = (c.qp q).entries.map fun e =>
         if e.index == r.index then { e with data := e.data ++ bytes } else e) ∧
     (∀ e o, r.fetch = false → bytes.length = r.len → findEntry (c.qp q) r.index = some e → descOp e.bytes = 1 →
       rangeStatus c (descTaddr e.bytes) (descLen e.bytes) = 0 → regionOf c.map.vc (descTaddr e.bytes) = .search o →
       1 ≤ descLen e.bytes → (e.data ++ bytes).length = descLen e.bytes → s.canonical → c.hif.linkUp = true →
       (c.qp q).state = 1 → c.hif.cbuf.length < 64 → Gives arrives fun t =>
         (∀ a, Memory.get t.mem a = if searchBase + o ≤ a ∧ a < searchBase + o + descLen e.bytes
           then (e.data ++ bytes).getD (a - (searchBase + o)) 0 else Memory.get s.mem a) ∧
         t.sys.chip.hif.cbuf = c.hif.cbuf ++ [⟨q, descCid e.bytes, 0, descLen e.bytes, 0, 0, 0⟩]) ∧
     (∀ k, k = exec (.hostReadCompletion q .unsupported) s ∨ k = exec (.hostReadCompletion q .aborted) s ∨
         k = exec (.hostReadCompletion q .poisoned) s ∨ k = exec (.completionTimeout q) s →
       (r.fetch = true → Gives k fun t => keepsMemory s t ∧ t.sys.chip.hif.reads = left ∧
         (t.sys.chip.qp q).state = (if (c.qp q).state = 1 then 3 else (c.qp q).state) ∧
         t.sys.chip.fc.raised = c.fc.raised ++ [⟨35, .hif⟩]) ∧
       (∀ e, r.fetch = false → findEntry (c.qp q) r.index = some e → c.hif.linkUp = true → (c.qp q).state = 1 →
         c.hif.cbuf.length < 64 → Gives k fun t => keepsMemory s t ∧ t.sys.chip.hif.reads = left ∧
           t.sys.chip.hif.cbuf = c.hif.cbuf ++ [⟨q, descCid e.bytes, 19, 0, 0, 0, 0⟩] ∧
           t.sys.chip.fc.raised = c.fc.raised ++ [⟨35, .hif⟩]))) ∧
  (∀ (s : State) (q : QpId),
     let c := s.sys.chip
     let x := c.qp q
     (∀ w rest, c.hif.writes = w :: rest → (c.map.run = true → w.due ≤ c.cmp.cycles) → (∀ p, (c.tile p).sendq = []) →
       c.cmp.mesh.lines = [] →
       (c.hif.linkUp = true → Gives (exec .hostWriteSend s) fun t => keepsMemory s t ∧
         t.sys.out = s.sys.out ++ [.hostWrite w.addr w.bytes] ∧ t.sys.chip.hif.writes = rest ∧
         (w.handle = none → w.ends = none → t.sys.chip.hif = { c.hif with writes := rest }) ∧
         (∀ h view, w.handle = some (h, view) → w.ends = none → h.toNat.testBit 31 = true → c.hif.cbuf.length < 64 →
           (c.qp (handleQp h)).state = 1 → t.sys.chip.hif.cbuf = c.hif.cbuf ++
             [⟨handleQp h, h.toNat % 65536, 0, view.toNat, c.self, 0, t.sys.chip.cmp.cycles + 4⟩]) ∧
         (∀ r i r0 r1 e, w.handle = none → w.ends = some (r, i, r0, r1) → findEntry (c.qp r) i = some e →
           c.hif.cbuf.length < 64 → (c.qp r).state = 1 →
           t.sys.chip.hif.cbuf = c.hif.cbuf ++ [⟨r, descCid e.bytes, 0, r0, r1, 0, 0⟩] ∧
           (t.sys.chip.qp r).entries = (c.qp r).entries.filter fun e => e.index != i)) ∧
       (c.hif.linkUp = false → w.handle = none → w.ends = none → Gives (exec .hostWriteSend s) fun t => keepsMemory s t ∧
         t.sys.out = s.sys.out ∧ t.sys.chip.hif.writes = rest ∧ t.sys.chip.hif.dropCount = satInc c.hif.dropCount) ∧
       (∀ h, c.hif.linkUp = false → w.handle = some h → w.ends = none → Gives (exec .hostWriteSend s) fun t =>
         keepsMemory s t ∧ t.sys.out = s.sys.out ∧ t.sys.chip.hif.writes = rest ∧
         t.sys.chip.hif.dropCount = satInc (satInc c.hif.dropCount))) ∧
     (∀ e (v : Fin 33), c.hif.cbuf.find? (fun e => e.qp == q) = some e → (c.map.run = true → e.due ≤ c.cmp.cycles) → cqFull x = false →
       x.state = 1 ∨ x.state = 3 →
       v.val = q.val → c.hif.msix[v].mask = false → Gives (exec (.completionPost q) s) fun t => keepsMemory s t ∧
         let fires := x.irqEn && decide (max 1 x.irqThresh.toNat ≤ x.irqCount + 1)
         t.sys.out = s.sys.out ++
           [.hostWrite (BitVec.ofNat 64 (x.cqBase.toNat + 32 * x.cqTail)) (completionBytes x e)] ++
           (if fires then [.msix c.hif.msix[v].addr c.hif.msix[v].data] else []) ∧
         (t.sys.chip.qp q).irqCount = (if fires then 0 else x.irqCount + 1) ∧
         t.sys.chip.hif.cbuf = c.hif.cbuf.eraseP (fun e => e.qp == q) ∧
         let tail := (x.cqTail + 1) % cqSize x
         (t.sys.chip.qp q).cqTail = tail ∧ (t.sys.chip.qp q).phase = (if tail = 0 then !x.phase else x.phase)) ∧
     (∀ w (v : Fin 33), x.irqSince = some w → x.irqEn = true → x.irqTimer ≠ 0 → v.val = q.val →
       Gives (exec (.interruptTimer q) s) fun t => keepsMemory s t ∧
         w + Config.us x.irqTimer.toNat ≤ t.sys.now ∧
         (t.sys.chip.qp q) = { x with irqCount := 0, irqSince := none } ∧
         (c.hif.msix[v].mask = false → t.sys.out = s.sys.out ++ [.msix c.hif.msix[v].addr c.hif.msix[v].data]) ∧
         (c.hif.msix[v].mask = true → t.sys.out = s.sys.out ∧ t.sys.chip.hif.msix[v].pending = true)))

/-- The window: without BAR4, or out of the access rules, an access is unsupported; a read of a chip that has been removed is
answered with ones; on search memory a read answers its bytes and a write stores them.
Resets of the function: every queue pair is DISABLED and empty, mailbox, waiting completions and reads are gone;
a function-level reset and D3hot also clear the registers, a fundamental reset clears them, samples BAR4_EN and takes the link
down, and the link going down keeps the registers; with the host domain on, the link trains again. -/
def Obligations.WindowAndFunctionResets : Prop :=
  (∀ (s : State) (offset : BitVec 28) (bytes : List Byte) (n o : Nat),
     let c := s.sys.chip
     let off := c.hif.winBase.toNat * 0x10000000 + offset.toNat
     let here := s.sys.tray.bays[s.ownSlot].present
     (here = false → exec (.windowAccess offset (.read n)) s = .next (s.puts (.readData (List.replicate n 0xFF)))) ∧
     (here = true → c.hif.bar4On = false ∨ c.pwr.retention = true ∨ windowOk (regionOf c.map.vc off) off n = false →
       exec (.windowAccess offset (.read n)) s = .next (s.puts .unsupported)) ∧
     (c.hif.bar4On = false ∨ c.pwr.retention = true ∨ windowOk (regionOf c.map.vc off) off bytes.length = false →
       exec (.windowAccess offset (.write bytes)) s = .next (s.puts .unsupported)) ∧
     (c.hif.bar4On = true → c.pwr.retention = false → regionOf c.map.vc off = .search o → c.domOn bitSrch = true →
       s.sys.ecc = [] →
       (here = true → windowOk (.search o) off n = true → exec (.windowAccess offset (.read n)) s =
         .next (s.puts (.readData (Memory.read s.mem (searchBase + o) n)))) ∧
       (windowOk (.search o) off bytes.length = true → exec (.windowAccess offset (.write bytes)) s =
         .next { s with mem := Memory.write s.mem (searchBase + o) bytes }))) ∧
  (∀ (s : State) (r : Result),
     let h := s.sys.chip.hif
     r = exec .functionLevelReset s ∨ r = exec .d3hot s ∨ r = exec .fundamentalReset s ∨ r = exec .linkDown s →
     Gives r (fun t =>
       let k := t.sys.chip.hif
       onlyChip s t ∧ t.sys.chip.cmp = s.sys.chip.cmp ∧ t.sys.chip.time = s.sys.chip.time ∧
       t.sys.chip.srch = s.sys.chip.srch ∧ t.sys.chip.pwr = s.sys.chip.pwr ∧ t.sys.chip.fab.waiting = [] ∧
       k.mailbox = [] ∧ k.cbuf = [] ∧ k.reads = [] ∧ k.writes = h.writes ∧
       (∀ q, (t.sys.chip.qp q).state = 0 ∧ (t.sys.chip.qp q).entries = []) ∧
       let cleared : HostIf := { HostIf.reset with
         bar4En := h.bar4En, bar4On := h.bar4On, writes := h.writes, linkUp := h.linkUp, downRaised := h.downRaised,
         pcie := h.pcie }
       (r = exec .functionLevelReset s → k = cleared) ∧
       (r = exec .d3hot s → k = { cleared with d3 := true }) ∧
       (r = exec .fundamentalReset s →
         k = { cleared with bar4On := h.bar4En, linkUp := false, downRaised := false, pcie := PcieFn.reset }) ∧
       (r = exec .linkDown s → k.linkUp = false ∧ k.winBase = h.winBase ∧ k.inputCount = h.inputCount ∧
         ∀ q, (t.sys.chip.qp q).sqBase = (s.sys.chip.qp q).sqBase ∧ (t.sys.chip.qp q).cqBase = (s.sys.chip.qp q).cqBase)) ∧
     exec .pcieLinkUp s = .next (if s.sys.chip.domOn bitHost then
       { s with sys := { s.sys with
         free := s.sys.free + 1
         chip := { s.sys.chip with hif := { h with
           linkUp := true
           downRaised := false
           pcie := trainedPcie s.sys.free h.pcie } } } } else s))

/-- The one raise that waits for an enabled source that is clear sets its latch: not acknowledged, its timer started, its
primary set applied, and the first-latch capture if that is free; the chip's NMI bit notes the source, and its INT bit
sends vector 32.
A latch that has waited its escalation time applies its escalated set once; an AUTO latch whose line has been quiet
clears, and its recovery is counted. -/
def Obligations.FaultsLatchEscalateAndClear : Prop :=
  (∀ (s : State) (i : SourceId) (o : Owner),
     let latched := fun (c : CollectorId) (x y : Source) => y.status = true ∧ y.acked = false ∧ y.esc = false ∧
       y.applied = x.primary ∧ y.timer = (if x.escTimer = 0 then none else some s.sys.now) ∧
       y.owners = [(raiseOwner c ⟨i, o⟩, false)]
     (let k := s.sys.chip.fc
      let x := k.src[i]
      let e := s.sys.chip.hif.msix[(32 : Fin 33)]
      k.raised = [⟨i, o⟩] → x.enable = true → x.status = false → x.primary.toNat.testBit 2 = false →
       x.primary.toNat.testBit 3 = false → Gives (exec (.faultLatch .chip) s) fun t =>
         let d := t.sys.chip
         keepsMemory s t ∧ latched .chip x d.fc.src[i] ∧ d.fc.raised = [] ∧
         (∀ j, j ≠ i → d.fc.src[j] = k.src[j]) ∧
         (k.firstValid = false → d.fc.firstValid = true ∧ d.fc.firstSource = BitVec.ofNat 6 i.val ∧
           d.fc.firstTime = s.sys.chip.time.gtc) ∧
         d.mgt.nmiWaiting = (if x.primary.toNat.testBit 1 then s.sys.chip.mgt.nmiWaiting ||| BitVec.ofNat 64 (2 ^ i.val)
           else s.sys.chip.mgt.nmiWaiting) ∧
         (x.primary.toNat.testBit 0 = true → e.mask = false → t.sys.out = s.sys.out ++ [.msix e.addr e.data]) ∧
         (x.primary.toNat.testBit 0 = false → t.sys.out = s.sys.out)) ∧
     (let k := s.sys.tray.fc
      let x := k.src[i]
      k.raised = [⟨i, o⟩] → x.enable = true → x.status = false → x.primary.toNat.testBit 2 = false →
       Gives (exec (.faultLatch .tray) s) fun t => keepsMemory s t ∧ latched .tray x t.sys.tray.fc.src[i] ∧
         t.sys.out = s.sys.out)) ∧
  (∀ (s : State) (c : CollectorId) (i : SourceId),
     let x := (collectorOf c s.sys).src[i]
     (∀ w, x.status = true → x.timer = some w → x.escalated.toNat.testBit 2 = false → x.escalated.toNat.testBit 3 = false →
       Gives (exec (.escalationTimerExpiry c i) s) fun t =>
         let y := (collectorOf c t.sys).src[i]
         keepsMemory s t ∧ w + escTime x.escTimer.toNat ≤ t.sys.now ∧ y.esc = true ∧ y.timer = none ∧ y.status = true ∧
         y.applied = x.applied ||| x.escalated) ∧
     (x.status = true → x.resetOnly = false → x.line = false → Gives (exec (.autoClear c i) s) fun t =>
       let k := collectorOf c t.sys
       keepsMemory s t ∧ x.lastAct + quietTime x.quiet.toNat ≤ t.sys.now ∧ k.src[i].status = false ∧
       k.src[i].applied = 0 ∧ k.recov[i] = satInc (collectorOf c s.sys).recov[i]))

/-- R404, on the chip's collector: writing 1 to the bit of a latched source acknowledges it: its timer stops and FC_ACKED is
set. The acknowledgement clears nothing by itself: the latch stays for an AUTO source, and for a RESET_ONLY one while an owner
has not been reset. A write to a clear bit has no effect. -/
def Obligations.AcknowledgementsActOnLatches : Prop :=
  ∀ (s : State) (v : Word) (i : SourceId),
    let x := s.sys.chip.fc.src[i]
    s.sys.chip.pwr.retention = false → v.toNat.testBit (i.val % 32) = true →
      Gives (exec (.fcAck .chip (decide (32 ≤ i.val)) v) s) fun t =>
        let y := t.sys.chip.fc.src[i]
        keepsMemory s t ∧
        (x.status = true → x.resetOnly = false ∨ (∃ e ∈ x.owners, e.2 = false) →
          y = { x with acked := true, timer := none }) ∧
        (x.status = false → y = x)

/-- The collectors' registers: an acknowledgement acts on the set latches its mask names; an injection raises a defined
source; a configuration write changes the source it names; nobody acknowledges a tray source while no card runs.
NMIs, the CSC and the clock: the lowest waiting NMI is recorded, up to 8 records, and a pop takes the oldest; a CSC
watchdog holds the CSC with source 49; a lost clock is source 48.
The CRC engine: START while idle begins a check, and while busy does nothing; its end answers status 2 for a bad region,
and on search memory without marks, where what it has read so far still stands, the CRC-64 of its bytes with status 0 or, where
it differs from the expected one, 1. -/
def Obligations.CollectorNmisAndCrcAct : Prop :=
  (∀ (s : State) (v : Word) (i : SourceId),
     let hi := decide (32 ≤ i.val)
     let k := s.sys.chip.fc
     let named := v.toNat.testBit (i.val % 32)
     (s.sys.chip.pwr.retention = false →
       Gives (exec (.fcAck .chip hi v) s) (fun t => keepsMemory s t ∧ t.sys.out = s.sys.out ∧
         t.sys.chip.fc.src[i] = (if named then ackSource k.src[i] else k.src[i]) ∧
         ∀ j : SourceId, decide (32 ≤ j.val) ≠ hi → t.sys.chip.fc.src[j] = k.src[j]) ∧
       Gives (exec (.fcInject .chip v) s) (fun t => keepsMemory s t ∧ t.sys.chip.fc.src = k.src ∧
         t.sys.chip.fc.raised = k.raised ++
           if h : v.toNat % 64 ≤ 52 then [⟨⟨v.toNat % 64, by omega⟩, .injected⟩] else []) ∧
       Gives (exec (.fcSrcCfgWrite .chip i v) s) (fun t => keepsMemory s t ∧ (∀ j, j ≠ i → t.sys.chip.fc.src[j] = k.src[j]) ∧
         t.sys.chip.fc.src[i] = if i.val ≤ 52 then writeCfg s.sys.now v k.src[i] else k.src[i])) ∧
     (let k := s.sys.tray.fc
      (s.sys.tray.card.running = true → Gives (exec (.fcAck .tray hi v) s) fun t => keepsMemory s t ∧
         t.sys.tray.fc.src[i].status = (if named then ackSource k.src[i] else k.src[i]).status ∧
         t.sys.tray.fc.src[i].acked = (if named then ackSource k.src[i] else k.src[i]).acked) ∧
       (s.sys.tray.card.running = false → exec (.fcAck .tray hi v) s = .next s.settled) ∧
       Gives (exec (.fcInject .tray v) s) (fun t => keepsMemory s t ∧
         ∀ h : v.toNat % 64 ≤ 55, ⟨⟨v.toNat % 64, by omega⟩, .injected⟩ ∈ t.sys.tray.fc.raised) ∧
       Gives (exec (.fcSrcCfgWrite .tray i v) s) fun t => keepsMemory s t ∧
         (i.val ≤ 55 → t.sys.tray.fc.src[i].enable = v.toNat.testBit 31 ∧
           t.sys.tray.fc.src[i].primary = BitVec.ofNat 5 (v.toNat % 16)))) ∧
  (∀ (s : State),
     let m := s.sys.chip.mgt
     (∀ i : SourceId, cscRuns s.sys.chip = true → m.nmiWaiting.toNat.testBit i.val = true →
       (∀ j : SourceId, j.val < i.val → m.nmiWaiting.toNat.testBit j.val = false) →
       Gives (exec .nmiDelivery s) fun t => onlyChip s t ∧
         t.sys.chip.mgt.nmiWaiting = m.nmiWaiting &&& ~~~(BitVec.ofNat 64 (2 ^ i.val)) ∧
         (m.nmiLog.length < 8 → t.sys.chip.mgt.nmiLog = m.nmiLog ++ [i]) ∧
         (8 ≤ m.nmiLog.length → t.sys.chip.mgt.nmiLog = m.nmiLog ∧ t.sys.chip.mgt.nmiLost = satInc m.nmiLost)) ∧
     (s.sys.chip.pwr.retention = false → exec .nmiPop s = .next (s.waked.withChip fun c =>
       { c with mgt := { c.mgt with nmiLog := c.mgt.nmiLog.drop 1 } }).settled) ∧
     exec .cscWatchdog s = .next (s.withChip fun c =>
       { c with mgt := { c.mgt with cscReset := true } }.raise 49 .csc).settled ∧
     exec .clockLoss s = .next (s.withChip fun c => c.raise 48 .chip).settled) ∧
  (∀ (s : State),
     let c := s.sys.chip
     let m := c.mgt
     let base := m.crcBase.toNat
     let len := m.crcLen.toNat
     (c.pwr.retention = false →
       (m.crcBusy = true → exec .crcStart s = .next s.waked.settled) ∧
       (m.crcBusy = false → exec .crcStart s = .next (s.waked.withChip fun c =>
         { c with mgt := { c.mgt with crcBusy := true, crcDone := false, crcAt := c.cmp.cycles, crcLine := 0,
                                      crcAcc := 2 ^ 64 - 1, crcBad := false } }).settled)) ∧
     (m.crcBusy = false → exec .crcDone s = .next s) ∧
     (m.crcBusy = true → c.map.run = true → c.cmp.cycles < m.crcAt + crcLines m + 8 → exec .crcDone s = .next s) ∧
     (m.crcBusy = true → (c.map.run = true → m.crcAt + crcLines m + 8 ≤ c.cmp.cycles) → Gives (exec .crcDone s) fun t =>
       let n := t.sys.chip.mgt
       keepsMemory s t ∧ n.crcBusy = false ∧ n.crcDone = true ∧
       (∀ p, t.sys.chip.tile p = { c.tile p with use := (t.sys.chip.tile p).use }) ∧
       (coreRuns c = true → m.crcAt + crcLines m + 8 ≤ t.sys.chip.cmp.cycles) ∧
       (crcRegionOk c.map.vc base len = false → n.crcStatus = 2) ∧
       (∀ o, crcRegionOk c.map.vc base len = true → regionOf c.map.vc base = .search o →
         (c.domOn bitSrch = false → n.crcStatus = 3) ∧
         (c.domOn bitSrch = true → s.sys.ecc = [] → m.crcBad = false →
           m.crcAcc = crc64On (2 ^ 64 - 1) (Memory.read s.mem (searchBase + o) (min len (256 * m.crcLine - base % 256))) →
           let crc := crc64 (Memory.read s.mem (searchBase + o) len)
           n.crcVal = BitVec.ofNat 64 crc ∧ n.crcStatus = if crc = m.crcExp.toNat then 0 else 1))))

/-- Domains: a request outside run state starts the 20 µs of each domain that is to go on and turns the others off at once;
their ends leave the domain on, or off with a waiting request begun; in run state a changed request is discarded.
LOW-IDLE is entered only without ARM, and stops the time base and CLK; its end restarts them; PARK takes the chip to
RETENTION-ONLY, out of run state, and its CPC turns off the first rail; the return powers HOST and CLK; the loss of VRET
loses memory. -/
def Obligations.DomainsAndPowerStatesChange : Prop :=
  (∀ (s : State) (v : Word) (d : Domain),
     let c := s.sys.chip
     let req : BitVec 7 := BitVec.setWidth 7 v
     (c.pwr.retention = false →
       (req = c.pwr.req → exec (.domainRequest v) s = .next s.waked) ∧
       (req ≠ c.pwr.req → c.map.run = true → exec (.domainRequest v) s = .next (s.waked.withChip (Chip.cfgDiscard 0x2000))) ∧
       (req ≠ c.pwr.req → c.map.run = false → c.time.arm = false → c.pwr.tripHold = false → c.pwr.lowIdle = false →
         Gives (exec (.domainRequest v) s) fun t => keepsMemory s t ∧ t.sys.chip.pwr.req = req ∧
           ∀ k, k < 7 →
             (req.toNat.testBit k = true → c.pwr.on.toNat.testBit (reqBit k) = false → transOf c (reqBit k) = none →
               transOf t.sys.chip (reqBit k) = some ⟨true, s.sys.now + Config.us 20⟩) ∧
             (req.toNat.testBit k = false → t.sys.chip.pwr.on.toNat.testBit (reqBit k) = false))) ∧
     (∀ u, transOf c (domainBit d) = some ⟨true, u⟩ → Gives (exec (.domainPowerOnEnd d) s) fun t =>
       keepsMemory s t ∧ u ≤ t.sys.now ∧ t.sys.chip.pwr.on.toNat.testBit (domainBit d) = true ∧
       transOf t.sys.chip (domainBit d) = none) ∧
     (∀ u, transOf c (domainBit d) = some ⟨false, u⟩ → c.pwr.on.toNat.testBit (domainBit d) = false →
       Gives (exec (.domainPowerOffEnd d) s) fun t => keepsMemory s t ∧ u ≤ t.sys.now ∧ t.sys.chip.pwr.on = c.pwr.on ∧
         transOf t.sys.chip (domainBit d) =
           if wanted c (domainBit d) then some ⟨true, t.sys.now + Config.us 20⟩ else none)) ∧
  (∀ (s : State),
     let c := s.sys.chip
     (c.pwr.retention = false →
       (c.time.arm = true → exec .lowIdleEntry s = .next s.waked) ∧
       (c.time.arm = false → c.pwr.lowIdle = false → c.pwr.busy = false → Gives (exec .lowIdleEntry s) fun t =>
         keepsMemory s t ∧ t.sys.chip.pwr.lowIdle = true ∧ t.sys.chip.time.locked = false ∧
         t.sys.chip.pwr.on.toNat.testBit bitClk = false ∧ timeBaseRuns t.sys.chip = false) ∧
       (c.pwr.lowIdle = true → Gives (exec .lowIdleExit s) fun t => keepsMemory s t ∧
         t.sys.chip.pwr.lowIdle = false ∧ t.sys.chip.pwr.on.toNat.testBit bitClk = true ∧
         (c.isRoot = true → t.sys.chip.time.locked = true) ∧ (c.isRoot = false → t.sys.chip.time.role = 2))) ∧
     (∀ w, c.pwr.wokenAt = some w → Gives (exec .keepAliveRateReturn s) fun t => keepsMemory s t ∧
       w + Config.ms 10 ≤ t.sys.now ∧ t.sys.chip.pwr = { c.pwr with wokenAt := none }) ∧
     (c.pwr.retention = false → s.sys.tray.input ≠ .battery → Gives (exec .park s) fun t => keepsMemory s t ∧
       t.sys.chip.pwr.retention = true ∧ t.sys.chip.pwr.on = 3 ∧ t.sys.chip.map.run = false ∧
       t.sys.chip.hif.linkUp = false ∧
       (∀ w k, s.sys.tray.bays[c.fab.slot].cpc.park = some w →
         lastRail RailState.turnedOn s.sys.tray.bays[c.fab.slot].cpc = some k →
         t.sys.tray.bays[c.fab.slot].cpc.park = none ∧ t.sys.tray.bays[c.fab.slot].cpc.rails[k] = .falling)) ∧
     (c.pwr.retention = true → Gives (exec .retentionExit s) fun t => onlyChip s t ∧
       t.sys.chip.pwr.retention = false ∧ t.sys.chip.pwr.on.toNat.testBit bitHost = true ∧
       t.sys.chip.pwr.on.toNat.testBit bitClk = true) ∧
     exec .retLost s = .next { s.withChip (Chip.onPwr fun p => { p with retLost := true }) with
       mem := [], sys := { (s.withChip (Chip.onPwr fun p => { p with retLost := true })).sys with ecc := [] } })

/-- An operating-point transition: GO makes POINT and AT pending; at AT it begins, out of run state, with the lock lost, or is
deferred; 150 µs later POINT holds, or a failed check is source 50.
Supply monitors and sensors: a rail below warning asserts its source until it recovers; below reset it ends the run with
source 41, and for VRET loses memory; the scan keeps the hottest reading, follows WARN, and trips at 110 °C; an AON reset
leaves the chip's registers as reset does. -/
def Obligations.OperatingPointAndMonitorsAct : Prop :=
  (∀ (s : State),
     let c := s.sys.chip
     (c.pwr.retention = false → c.pwr.busy = false → c.pwr.opReq ≠ 3 → exec .opGo s = .next (s.waked.withChip fun c =>
       c.onPwr fun p => { p with opGoal := some (p.opReq, p.opAt), opPending := true, deferred := false })) ∧
     (∀ g, c.pwr.opGoal = some g → c.pwr.opPending = true → c.pwr.busy = false → timeBaseRuns c = true →
       g.2.toNat ≤ c.time.coreView.toNat →
       (c.map.run = false → exec .opTransitionStart s = .next (s.withChip fun c => { c with
         pwr := { c.pwr with opPending := false, deferred := false, busy := true, opStart := some s.sys.now }
         time := { c.time with locked := false, role := 2 } })) ∧
       (c.map.run = true → exec .opTransitionStart s = .next (s.withChip fun c =>
         c.onPwr fun p => { p with opPending := false, deferred := true }))) ∧
     (∀ w g, c.pwr.busy = true → c.pwr.opStart = some w → c.pwr.opGoal = some g →
       Gives (exec (.opTransitionEnd true true) s) (fun t => keepsMemory s t ∧ w + Config.us 150 ≤ t.sys.now ∧
         t.sys.chip.pwr.busy = false ∧ t.sys.chip.pwr.point = g.1 ∧ t.sys.chip.pwr.opGoal = none) ∧
       ∀ a b, (a && b) = false → Gives (exec (.opTransitionEnd a b) s) fun t => keepsMemory s t ∧
         t.sys.chip.pwr.busy = false ∧ t.sys.chip.pwr.opFail = true ∧ t.sys.chip.map.run = false ∧
         ⟨50, .chip⟩ ∈ t.sys.chip.fc.raised)) ∧
  (∀ (s : State) (r : MonRail),
     let c := s.sys.chip
     let line := fun (t : State) (n : SourceId) => t.sys.chip.fc.src[n].line
     let warn : SourceId := if r.val = 0 then 40 else if r.val = 1 then 42 else if r.val = 2 then 43 else 44
     (monitorRuns c r = true →
       Gives (exec (.supplyWarning r) s) (fun t => onlyChip s t ∧ t.sys.chip.cmp = c.cmp ∧ line t warn = true ∧
         t.sys.chip.pwr = { c.pwr with belowWarn := c.pwr.belowWarn ||| railMask r }) ∧
       Gives (exec (.supplyRecovered r) s) (fun t => onlyChip s t ∧ line t warn = false ∧
         t.sys.chip.pwr.belowWarn = c.pwr.belowWarn &&& ~~~(railMask r) ∧
         t.sys.chip.pwr.railReset = c.pwr.railReset &&& ~~~(railMask r)) ∧
       (r.val ≠ 2 → Gives (exec (.supplyReset r) s) fun t => onlyChip s t ∧ t.sys.chip.map.run = false ∧
         t.sys.chip.pwr.resetRail = BitVec.ofNat 2 r.val ∧ ⟨41, .chip⟩ ∈ t.sys.chip.fc.raised)) ∧
     (r.val = 2 → Gives (exec (.supplyReset r) s) fun t => t.mem = [] ∧ t.sys.ecc = [] ∧
       t.sys.chip.pwr.retLost = true ∧ line t warn = true) ∧
     (∀ milliC : Vector Int 16, c.pwr.retention = false →
       let h := hottest (milliC.map halfDegrees)
       Gives (exec (.thermalScan milliC) s) fun t => keepsMemory s t ∧ t.sys.tray = s.sys.tray ∧
         (0 ≤ h → h < 512 → t.sys.chip.pwr.thermMax = BitVec.ofInt 9 h) ∧
         line t 45 = decide (2 * (c.pwr.thermWarn.toNat : Int) ≤ h) ∧
         (220 ≤ h → c.pwr.hot = false → t.sys.chip.pwr.tripped = true ∧ t.sys.chip.map.run = false ∧
           t.sys.chip.time.arm = false ∧ t.sys.chip.pwr.req = c.pwr.req &&& 0x60#7 ∧
           ⟨46, .chip⟩ ∈ t.sys.chip.fc.raised)) ∧
     Gives (exec .aonReset s) (fun t => t.mem = [] ∧ t.sys.ecc = [] ∧ t.sys.tray = s.sys.tray ∧ t.sys.out = s.sys.out ∧
       t.sys.chip.cmp = Compute.reset ∧ t.sys.chip.time = TimeRegs.reset ∧ t.sys.chip.pwr = Power.reset ∧
       t.sys.chip.hif = HostIf.reset ∧ t.sys.chip.map.run = false ∧ t.sys.chip.fixed = c.fixed))

/-- What the base board's hardware derives after every change. PWR_EN of a slot is high while the tray is in NORMAL, the
cartridge present, no reaction holds the slot, no leak is latched and the resolved order is ON; full cooling is in force while
the watchdog has expired, a reaction asks for it, or the TMC does; a drive takes a rising duty at once; the rest stays. -/
def Obligations.BaseBoardHardwareFollows : Prop :=
  ∀ (s : State),
    let t := s.sys.tray
    let u := s.settled.sys.tray
    onlyTray s s.settled ∧
    u = { t with bays := u.bays, axes := u.axes, drives := u.drives, full := u.full, fullEnded := u.fullEnded, fc := u.fc,
                 logPending := u.logPending } ∧
    (∀ n : SlotId,
      u.bays[n] = { t.bays[n] with cpc := { t.bays[n].cpc with
        pwrEn := u.bays[n].cpc.pwrEn, pwrEnAt := u.bays[n].cpc.pwrEnAt, seqFault := u.bays[n].cpc.seqFault } } ∧
      (u.bays[n].cpc.pwrEn = true ↔ t.input = .normal ∧ t.bays[n].present = true ∧ t.reactionHold n = false ∧
        t.bays[n].leak = false ∧ t.resolved n = .on) ∧
      (u.bays[n].cpc.pwrEn = t.bays[n].cpc.pwrEn → u.bays[n] = t.bays[n]) ∧
      (u.bays[n].cpc.pwrEn ≠ t.bays[n].cpc.pwrEn → u.bays[n].cpc.pwrEnAt = s.sys.now)) ∧
    (u.full = true ↔ t.card.expired = true ∨ t.fc.anyApplies 1 = true ∨ t.tmcReq = true) ∧
    (u.full = t.full → u.axes = t.axes ∧ u.fullEnded = t.fullEnded) ∧
    (t.full = true → u.full = false → u.axes = t.axes ∧ u.fullEnded = true) ∧
    (∀ k : DriveId,
      u.drives[k] = { t.drives[k] with duty := u.drives[k].duty, dutyAt := u.drives[k].dutyAt } ∧
      (t.drives[k].duty ≤ dutyGoal u k → u.drives[k].duty = dutyGoal u k) ∧ dutyGoal u k ≤ u.drives[k].duty) ∧
    (u.fc.src[(⟨s.ownSlot.val, by omega⟩ : SourceId)].line = (t.bays[s.ownSlot].present && s.sys.chip.fc.errPin))

/-- The tray's input: a warning asserts source 45; a commit takes NORMAL to BATTERY with a charged BBU carrying, every move
halted and the card down; after the dwell of 250 ms the input qualifies for 500 ms, and NORMAL returns.
A BBU's states: fitted it charges, at 95% it is READY, and below 20 Wh at full charge END_OF_LIFE is set; discharged, in
FAULT or removed it feeds nothing, and a tray without its converter loses the chip's memory; source 44 follows FAULT and
END_OF_LIFE. -/
def Obligations.InputAndBatteryStates : Prop :=
  (∀ (s : State),
     let t := s.sys.tray
     let line := fun (u : State) => u.sys.tray.fc.src[(45 : SourceId)].line
     Gives (exec .inputWarning s) (fun u => onlyTray s u ∧ line u = true) ∧
     Gives (exec .inputWarningEnd s) (fun u => onlyTray s u ∧ line u = false) ∧
     (∀ cause,
       (t.input ≠ .normal → exec (.commit cause) s = .next s.settled) ∧
       (t.input = .normal → Gives (exec (.commit cause) s) fun u =>
         memoryIf (t.bbu = .carrying ∨ t.bbu = .charging ∨ t.bbu = .ready ∨ t.bays[s.ownSlot].present = false) s u ∧
         u.sys.tray.input = .battery ∧ u.sys.tray.inputAt = s.sys.now ∧ u.sys.tray.dwellDone = false ∧
         u.sys.tray.bbu = (if t.bbu = .charging ∨ t.bbu = .ready then .carrying else t.bbu) ∧
         u.sys.tray.card.running = false ∧
         (∀ n : AxisId, u.sys.tray.axes[n].st ≠ .moving ∧ u.sys.tray.axes[n].st ≠ .stopping ∧
           u.sys.tray.axes[n].st ≠ .homing) ∧
         ∀ n : SlotId, u.sys.tray.bays[n].cpc.pwrEn = false)) ∧
     (t.input = .battery → t.dwellDone = false → Gives (exec .dwellEnd s) fun u => keepsMemory s u ∧
       t.inputAt + Config.ms 250 ≤ u.sys.now ∧ u.sys.tray.input = .battery ∧ u.sys.tray.dwellDone = true) ∧
     (t.input = .battery → t.dwellDone = true → Gives (exec .qualificationStart s) fun u => onlyTray s u ∧
       u.sys.tray.input = .qualifying ∧ u.sys.tray.inputAt = s.sys.now) ∧
     (t.input ≠ .battery ∨ t.dwellDone = false → exec .qualificationStart s = .next s.settled) ∧
     (t.input = .qualifying → Gives (exec .qualificationRestart s) fun u => onlyTray s u ∧
       u.sys.tray.input = .battery ∧ u.sys.tray.dwellDone = t.dwellDone) ∧
     (t.input = .unqualified ∨ t.input = .qualifying → Gives (exec .inputQualified s) fun u => keepsMemory s u ∧
       t.inputAt + Config.ms 500 ≤ u.sys.now ∧ u.sys.tray.input = .normal ∧
       u.sys.tray.bbu = (if t.bbu = .carrying ∨ t.bbu = .depleted then .charging else t.bbu) ∧
       u.sys.tray.orders = t.orders) ∧
     (t.input = .normal ∨ t.input = .battery → exec .inputQualified s = .next s.settled)) ∧
  (∀ (s : State) (e p : Nat),
     let t := s.sys.tray
     let b := fun (u : State) => (u.sys.tray.bbu, u.sys.tray.bbuEnergy, u.sys.tray.bbuEol, u.sys.tray.fc.src[(44 : SourceId)].line)
     let kept := t.input = .normal ∨ t.vrbUp = false ∨ t.bays[s.ownSlot].present = false
     (t.bbu = .absent → p < 95 → Gives (exec (.bbuInsert e p) s) fun u => onlyTray s u ∧
       u.sys.tray.bbuEeprom = fittedRecord 24 s.sys.now ∧ b u = (.charging, e, false, false)) ∧
     (t.bbu = .absent → 95 ≤ p → Gives (exec (.bbuInsert e p) s) fun u => onlyTray s u ∧
       u.sys.tray.bbuEeprom = fittedRecord 24 s.sys.now ∧ b u = (.ready, e, decide (e < 20000), decide (e < 20000))) ∧
     (t.bbu ≠ .absent → exec (.bbuInsert e p) s = .next s.settled) ∧
     (t.bbu = .charging → Gives (exec (.bbuCharged e) s) fun u => onlyTray s u ∧
       b u = (.ready, e, t.bbuEol || decide (e < 20000), t.bbuEol || decide (e < 20000))) ∧
     (t.bbu ≠ .charging → exec (.bbuCharged e) s = .next s.settled) ∧
     (t.bbu = .carrying → Gives (exec .bbuDepleted s) fun u => memoryIf kept s u ∧ u.sys.tray.bbu = .depleted ∧
       u.sys.tray.bbuEnergy = 0 ∧ u.sys.tray.bbuEol = t.bbuEol) ∧
     (t.bbu ≠ .absent → Gives (exec .bbuFault s) fun u => memoryIf kept s u ∧
       b u = (.fault, t.bbuEnergy, t.bbuEol, true)) ∧
     (t.bbu ≠ .absent → Gives (exec .bbuRemove s) fun u => memoryIf kept s u ∧ b u = (.absent, 0, false, false)) ∧
     (t.bbu = .absent → exec .bbuFault s = .next s.settled ∧ exec .bbuRemove s = .next s.settled))

/-- R462: while the BBU is ABSENT, DEPLETED or FAULT, a loss of input removes VRET from the cartridges: the chip of a present
cartridge loses memory, and RET_LOST is set. -/
def Obligations.NoBatteryNoRetention : Prop :=
  ∀ (s : State) (cause : CommitCause),
    let t := s.sys.tray
    t.input = .normal → t.bays[s.ownSlot].present = true → t.bbu = .absent ∨ t.bbu = .depleted ∨ t.bbu = .fault →
      Gives (exec (.commit cause) s) fun u => u.pending = s.pending ∧ u.mem = [] ∧ u.sys.ecc = [] ∧
        u.sys.chip.pwr.retLost = true ∧ u.sys.tray.vrbUp = false ∧ u.sys.tray.bbu = t.bbu

/-- A CPC's sequences: 10 ms after PWR_EN the first rail, each next one after a dwell of 1 ms, ON after the last; a rail past
its limit is a sequence fault of cause 1; then, or with PWR_EN low, PARK, and 50 µs later without an acknowledgement cause 8;
the rails go off from the last, and with VAUX the chip is in RETENTION-ONLY; one not off in time is discharged (cause 3), then
stuck (cause 4).
A rail lost while ON is cause 5 and starts a power-down, and in a power-down cause 2, every rail off at once; so do a
loss of input (cause 6) and VALVE_CLOSED (cause 7), no sequence faults; VALID written 1 clears the record. -/
def Obligations.CartridgeRailsSequence : Prop :=
  (∀ (s : State) (n : SlotId),
     let t := s.sys.tray
     let c := t.bays[n].cpc
     let gives := fun (r : Result) (P : State → Cpc → Prop) => Gives r fun u => keepsMemory s u ∧
       (∀ m : SlotId, m ≠ n → u.sys.tray.bays[m].cpc.rails = t.bays[m].cpc.rails) ∧ P u u.sys.tray.bays[n].cpc
     (t.bays[n].present = true → c.pwrEn = true → c.st = .off → c.railsOff = true → t.valveClosed n = false →
       gives (exec (.powerUpStart n) s) fun u d => c.pwrEnAt + Config.ms 10 ≤ u.sys.now ∧ d.st = .rising ∧
         d.rails = c.rails.set 0 .up) ∧
     (¬(t.bays[n].present = true ∧ c.pwrEn = true ∧ c.st = .off ∧ c.railsOff = true ∧ t.valveClosed n = false) →
       exec (.powerUpStart n) s = .next s.settled) ∧
     (∀ k, risingRail t n = some k →
       (gives (exec (.railDwellEnd n) s) fun u d => c.stepAt + Config.ms 1 ≤ u.sys.now ∧ d.rails[k] = .good ∧
         (∀ j : Fin 5, j.val = k.val + 1 → d.rails[j] = .up) ∧ (k.val = 4 → d.st = .on)) ∧
       gives (exec (.riseTimeout n) s) fun u d => c.stepAt + Config.ms (riseLimit k) ≤ u.sys.now ∧ d.records 1 k.val ∧
         d.faultDown = true ∧ d.seqCount = satInc c.seqCount ∧
         (c.seqFault = false → ⟨⟨16 + n.val, by omega⟩, .slot n⟩ ∈ u.sys.tray.fc.raised)) ∧
     (c.st = .rising ∨ c.st = .on → c.pwrEn = false ∨ c.faultDown = true → gives (exec (.powerDownStart n) s) fun u d =>
       onlyTray s u ∧ d.st = .falling ∧ d.park = some s.sys.now ∧ d.rails = c.rails) ∧
     (∀ w k, c.park = some w → lastRail RailState.turnedOn c = some k → gives (exec (.parkTimeout n) s) fun u d =>
       w + Config.us 50 ≤ u.sys.now ∧ d.park = none ∧ d.records 8 0 ∧ d.seqCount = c.seqCount ∧
       d.rails = c.rails.set k .falling) ∧
     (∀ k, c.st = .falling → c.park = none → lastRail (fun r => r == .falling || r == .discharging) c = some k →
       lastRail (fun r => r == .falling || r == .discharging) (setRail k .off c) = none →
       (n ≠ s.ownSlot ∨ k.val ≠ 0 → Gives (exec (.railOff n) s) fun u => onlyTray s u) ∧
       (n = s.ownSlot → k.val = 0 → Gives (exec (.railOff n) s) fun u => u.sys.chip.pwr.retention = true) ∧
       (∀ j, lastRail RailState.turnedOn c = some j → gives (exec (.railOff n) s) fun _ d =>
         d.rails = (c.rails.set k .off).set j .falling) ∧
       (lastRail RailState.turnedOn c = none → gives (exec (.railOff n) s) fun _ d =>
         d.rails = c.rails.set k .off ∧ (d.railsOff = true → d.st = .off))) ∧
     (∀ k, lastRail (fun r => r == .falling) c = some k → gives (exec (.dischargeTimeout n) s) fun u d =>
       c.stepAt + Config.ms (fallLimit k) ≤ u.sys.now ∧ d.records 3 k.val ∧ d.seqCount = satInc c.seqCount ∧
       d.rails = c.rails.set k .discharging) ∧
     (∀ k, lastRail (fun r => r == .discharging) c = some k → gives (exec (.stuck n) s) fun u d =>
       c.stepAt + Config.ms 5 ≤ u.sys.now ∧ d.records 4 k.val ∧ d.seqCount = satInc c.seqCount ∧ d.rails[k] = .stuck)) ∧
  (∀ (s : State) (n : SlotId) (k : CpcRail),
     let t := s.sys.tray
     let c := t.bays[n].cpc
     let gives := fun (r : Result) (P : Cpc → Prop) => Gives r fun u => keepsMemory s u ∧ u.sys.chip = s.sys.chip ∧
       u.sys.out = s.sys.out ∧
       (∀ m : SlotId, m ≠ n → u.sys.tray.bays[m].cpc.rails = t.bays[m].cpc.rails) ∧ P u.sys.tray.bays[n].cpc
     (c.rails[k].turnedOn = true →
       (c.st = .on → gives (exec (.railLost n k) s) fun d => d.records 5 k.val ∧ d.faultDown = true ∧
         d.rails = c.rails.set k .up ∧ d.seqCount = satInc c.seqCount) ∧
       (c.st = .falling → gives (exec (.railLost n k) s) fun d => d.records 2 k.val ∧ d.goesOff ∧
         d.seqCount = satInc c.seqCount) ∧
       (c.st = .rising → gives (exec (.railLost n k) s) fun d => (d.records 1 k.val ∨ d.records 5 k.val) ∧
         d.faultDown = true ∧ d.seqCount = satInc c.seqCount)) ∧
     (c.anyOn = true →
       (gives (exec (.inputLoss n) s) fun d => d.records 6 0 ∧ d.st = .falling ∧ d.goesOff ∧ d.seqCount = c.seqCount ∧
         d.inputCount = satInc c.inputCount) ∧
       (t.valveClosed n = true → gives (exec (.valveClosedRise n) s) fun d => d.records 7 0 ∧ d.st = .falling ∧
         d.goesOff ∧ d.seqCount = c.seqCount)) ∧
     (c.anyOn = false → exec (.inputLoss n) s = .next s.settled ∧ exec (.valveClosedRise n) s = .next s.settled) ∧
     (gives (exec (.cpcFaultClear n) s) fun d => d.cause = 0 ∧ d.rail = 0 ∧ d.valid = false ∧ d.seqFault = false ∧
       d.rails = c.rails))

/-- Presence and the downstream ports: a cartridge brings its record, starts from reset with its lamp test, and leaves with its valve closing, PWR_EN low and its
sources reset, the chip's own with all memory; the controls of a port set its order and its indicators; a press of 20 ms is
latched; a drive module brings its record and takes its duty, and out of range its source.
A present cartridge's segment joins its idle bus. A read of a module in a powered cage keeps what it brought; one within
R542 leaves low-power mode, any other, or a failed read, is kept there with source 55. -/
def Obligations.PresenceBuffersAndCagesAct : Prop :=
  (∀ (s : State) (n : SlotId) (m : ModuleId),
     let t := s.sys.tray
     let bay := fun (u : State) => u.sys.tray.bays[n]
     let line := fun (u : State) (i : SourceId) => u.sys.tray.fc.src[i].line
     let src : SourceId := ⟨32 + m.val, by omega⟩
     (t.bays[n].present = false → Gives (exec (.cartridgeInsert n) s) fun u => onlyTray s u ∧
       (bay u).present = true ∧ (bay u).eeprom = fittedRecord n.val s.sys.now ∧ (bay u).lampUntil = s.sys.now + Config.sec 1 ∧
       (bay u).buffer = false ∧ (bay u).cpc.rails = Cpc.reset.rails ∧ (bay u).cpc.st = .off) ∧
     (t.bays[n].present = true → exec (.cartridgeInsert n) s = .next s.settled) ∧
     (t.bays[n].present = true → Gives (exec (.cartridgeRemove n) s) fun u => memoryIf (n ≠ s.ownSlot) s u ∧
       (bay u).present = false ∧ (bay u).buffer = false ∧ (bay u).cpc.railsOff = true ∧ (bay u).cpc.pwrEn = false ∧
       (n = s.ownSlot → u.sys.chip.cmp = Compute.reset ∧ u.sys.chip.pwr.retention = true) ∧
       ∀ c : CageId, c.val / 4 = n.val → u.sys.tray.cages[c].lowPower = true) ∧
     (∀ (v : OnOff) (o : Order), (v = .on → o = .on) → (v = .off → o = .off) →
       Gives (exec (.powerControllerControl n v) s) fun u => onlyTray s u ∧ u.sys.tray.orders.host = t.orders.host.set n o ∧
         u.sys.tray.orders.rack = t.orders.rack ∧ u.sys.tray.orders.auto = t.orders.auto) ∧
     (∀ v, exec (.powerIndicatorControl n v) s =
       .next (s.withTray (Tray.onBay n fun b => { b with powerInd := v })).settled) ∧
     (∀ v, exec (.attentionIndicatorControl n v) s =
       .next (s.withTray (Tray.onBay n fun b => { b with attnInd := v })).settled) ∧
     (∀ ms, exec (.attentionButtonPressed n ms) s = .next (if 20 ≤ ms ∧ t.bays[n].present = true then
       (s.withTray (Tray.onBay n fun b => { b with button := true, buttonTmc := true })).settled else s.settled)) ∧
     Gives (exec (.moduleInsert m) s) (fun u => onlyTray s u ∧ u.sys.tray.drives[m].present = true ∧
       u.sys.tray.drives[m].eeprom = fittedRecord (16 + m.val) s.sys.now) ∧
     Gives (exec (.moduleRemove m) s) (fun u => onlyTray s u ∧ u.sys.tray.drives[m].present = false ∧
       u.sys.tray.drives[m].duty = 0 ∧ u.sys.tray.drives[m].rangeFault = false ∧ line u src = false ∧
       (u.sys.tray.full = t.full → u.sys.tray.axes = t.axes)) ∧
     (t.drives[m].present = true → 20 ≤ t.drives[m].duty → Gives (exec (.driveOutOfRange m) s) fun u => onlyTray s u ∧
       u.sys.tray.drives[m].rangeFault = true ∧ line u src = true) ∧
     (¬(t.drives[m].present = true ∧ 20 ≤ t.drives[m].duty) → exec (.driveOutOfRange m) s = .next s.settled) ∧
     Gives (exec (.driveBackInRange m) s) (fun u => onlyTray s u ∧ u.sys.tray.drives[m].rangeFault = false ∧
       line u src = false) ∧
     (∀ b, Gives (exec (.inletOverTemperature b) s) (fun u => onlyTray s u ∧ line u 46 = b) ∧
       Gives (exec (.flowLow b) s) fun u => onlyTray s u ∧ line u 47 = b)) ∧
  (∀ (s : State),
     let t := s.sys.tray
     (∀ n : SlotId,
       (t.bays[n].present = true → t.twi[busOf n].busy = false → exec (.bufferConnect n) s =
         .next (s.withTray (Tray.onBay n fun b => { b with buffer := true })).settled) ∧
       (t.bays[n].present = false ∨ t.twi[busOf n].busy = true → exec (.bufferConnect n) s = .next s.settled)) ∧
     (∀ (c : CageId) (n : SlotId), c.val / 4 = n.val →
       (t.drivesPowered = false ∨ t.bays[n].present = false → ∀ id, exec (.cmisRead c id) s = .next s.settled) ∧
       (t.drivesPowered = true → t.bays[n].present = true →
         (∀ m, cableAllowed m = true → exec (.cmisRead c (some m)) s =
           .next (s.withTray fun t => { t with cages := t.cages.set c ⟨some m, false⟩ }).settled) ∧
         (∀ m, cableAllowed m = false → Gives (exec (.cmisRead c (some m)) s) fun u => onlyTray s u ∧
           u.sys.tray.cages = t.cages.set c ⟨some m, true⟩ ∧ ⟨55, .board⟩ ∈ u.sys.tray.fc.raised) ∧
         Gives (exec (.cmisRead c none) s) fun u => onlyTray s u ∧
           u.sys.tray.cages = t.cages.set c { t.cages[c] with lowPower := true } ∧ ⟨55, .board⟩ ∈ u.sys.tray.fc.raised)))

/-- Axis commands. MOVE starts toward CA_AXn_TARGET from rest, homed, with its drive powered, no full cooling and no leak; with
rails up no lower than MIN, and a MOVE to 0 is then a pending close. STOP, RESUME, HOME, ENGAGE and DISENGAGE act in their
states; each refusal answers its result and moves nothing, the one of a FAILED axis some result other than 0. -/
def Obligations.AxisCommandsAct : Prop :=
  ∀ (s : State) (n : AxisId),
    let t := s.sys.tray
    let x := t.axes[n]
    let ax := fun (u : State) => u.sys.tray.axes[n]
    let gives := fun (r : Result) (P : Axis → Prop) => Gives r fun u => keepsMemory s u ∧ u.sys.chip = s.sys.chip ∧
      u.sys.out = s.sys.out ∧ (∀ m : AxisId, m ≠ n → u.sys.tray.axes[m] = t.axes[m]) ∧ P (ax u)
    let told := fun (r : Result) (k : Nat) => gives r fun a => a = { x with result := BitVec.ofNat 4 k }
    let floored := t.railsUp n = true ∧ x.target < x.min
    let goal := ((x.pos : Int) + x.remain).toNat
    let asked := [exec (.move n) s, exec (.axisStop n) s, exec (.resume n) s, exec (.engage n) s, exec (.disengage n) s]
    t.fullWanted = t.full →
    (t.axisLeak n = true → ∀ r, r = exec (.home n) s ∨ r ∈ asked → told r 7) ∧
    (t.axisLeak n = false → x.st = .failed → ∀ r ∈ asked, ∃ k, 0 < k ∧ k < 10 ∧ told r k) ∧
    (t.axisLeak n = false → x.st ≠ .failed →
      (t.axisAbsent n = true → told (exec (.engage n) s) 3 ∧
        (n.val < 16 ∨ 0 < x.target → told (exec (.move n) s) 3) ∧ (n.val < 16 ∨ 0 < goal → told (exec (.resume n) s) 3)) ∧
      (t.axisAbsent n = false → t.full = false → x.homed = false →
        told (exec (.move n) s) 4 ∧ told (exec (.resume n) s) 4 ∧ told (exec (.engage n) s) 4) ∧
      (t.full = false → x.st = .homing → told (exec (.axisStop n) s) 8) ∧
      (t.full = false → x.st = .stopping → told (exec (.axisStop n) s) 0)) ∧
    (t.axisLeak n = false → (t.full = false ∨ x.st = .failed) → x.closedSw = false →
      t.railsUp n = true ∨ t.drivesPowered = false → told (exec (.home n) s) 8) ∧
    (t.axisLeak n = false →
    (t.full = false → x.st ≠ .failed → t.axisAbsent n = false → x.homed = true →
      (x.st = .idle ∨ x.st = .stopped → x.target ≤ axisOpen → t.drivesPowered = true → ¬floored → x.target ≠ x.pos →
        gives (exec (.move n) s) fun a => a.st = .moving ∧ a.target = x.target ∧ a.pos = x.pos ∧ a.remain = 0 ∧
          a.result = 0 ∧ a.floor = false ∧ a.closePending = false) ∧
      (x.st = .idle ∨ x.st = .stopped → x.target ≤ axisOpen → t.drivesPowered = true → floored → x.min ≠ x.pos →
        gives (exec (.move n) s) fun a => a.st = .moving ∧ a.target = x.min ∧ a.result = 0 ∧ a.floor = true ∧
          a.closePending = decide (x.target = 0)) ∧
      (x.st = .idle ∨ x.st = .stopped → axisOpen < x.target → told (exec (.move n) s) 5) ∧
      (x.st = .idle ∨ x.st = .stopped → x.target ≤ axisOpen → t.drivesPowered = false → told (exec (.move n) s) 8) ∧
      (x.st = .moving ∨ x.st = .stopping ∨ x.st = .homing → told (exec (.move n) s) 1 ∧ told (exec (.engage n) s) 1) ∧
      (x.st = .moving → gives (exec (.axisStop n) s) fun a => a = { x with st := .stopping, due := none, result := 0 }) ∧
      (x.st = .idle ∨ x.st = .stopped → told (exec (.axisStop n) s) 8) ∧
      (x.st = .following → told (exec (.move n) s) 2 ∧ told (exec (.axisStop n) s) 2 ∧ told (exec (.resume n) s) 2 ∧
        told (exec (.engage n) s) 2) ∧
      (∀ goal : Nat, x.st = .stopped → t.drivesPowered = true → (x.pos : Int) + x.remain = goal → goal ≠ x.pos →
        ¬(t.railsUp n = true ∧ goal < x.min) → gives (exec (.resume n) s) fun a => a.st = .moving ∧ a.target = goal ∧
          a.pos = x.pos ∧ a.result = 0) ∧
      (x.st ≠ .following → x.st ≠ .stopped ∨ t.drivesPowered = false → told (exec (.resume n) s) 8) ∧
      (x.st = .idle ∨ x.st = .stopped → gives (exec (.engage n) s) fun a =>
        a = { x with st := .following, target := x.pos, remain := 0, result := 0, closePending := false }) ∧
      (x.st = .following → gives (exec (.disengage n) s) fun a => a.result = 0 ∧
        (x.pos = x.target → a.st = .idle ∧ a.remain = 0) ∧ (x.pos ≠ x.target → a.st = .stopping ∧ a.release = true)) ∧
      (x.st ≠ .following → told (exec (.disengage n) s) 8)) ∧
    (t.full = true → x.st ≠ .failed → t.axisAbsent n = false → told (exec (.move n) s) 6 ∧
      told (exec (.axisStop n) s) 6 ∧ told (exec (.resume n) s) 6 ∧ told (exec (.engage n) s) 6 ∧
      told (exec (.home n) s) 6) ∧
    (t.full = false ∨ x.st = .failed →
      (x.closedSw = true → gives (exec (.home n) s) fun a => a.st = .idle ∧ a.pos = 0 ∧ a.homed = true ∧ a.result = 0) ∧
      (x.closedSw = false → t.railsUp n = false → t.drivesPowered = true → gives (exec (.home n) s) fun a =>
        a.st = .homing ∧ a.pos = x.pos ∧ a.result = 0)))

/-- R509: the output of a cam table for a master value m, of 16 bits: P_i + (P_(i+1) − P_i) × f / 1,024, truncated toward
zero, with i = m div 1,024 and f = m mod 1,024. P64 is only the limit of segment 63. -/
def Obligations.CamOutputInterpolates : Prop :=
  ∀ (pts : Vector (BitVec 14) 65) (m : Nat) (i : Fin 64), m / 1024 = i.val →
    let p : Int := (pts[i.val]'(by omega)).toNat
    let q : Int := (pts[i.val + 1]'(by omega)).toNat
    let f : Int := (m % 1024 : Nat)
    (camOutput pts m : Int) = p + Int.tdiv ((q - p) * f) 1024 ∧
    (p < q → (camOutput pts m : Int) < q) ∧ (q < p → q < (camOutput pts m : Int))

/-- R501: SPEED is stored at most 50,000 and at least 100, ACCEL and DECEL at most 1,000,000 and at least 100, JERK at least
1. Nothing else of the axis changes but DECEL_RAISED, PROFILE and the end of a move under way. -/
def Obligations.LimitsAreStoredClamped : Prop :=
  ∀ (s : State) (n : AxisId) (v : Word),
    let t := s.sys.tray
    let x := t.axes[n]
    let gives := fun (reg : LimitReg) (P : Axis → Prop) => Gives (exec (.profileLimitWrite n reg v) s) fun u =>
      keepsMemory s u ∧ u.sys.chip = s.sys.chip ∧ u.sys.out = s.sys.out ∧
      (∀ m : AxisId, m ≠ n → u.sys.tray.axes[m] = t.axes[m]) ∧
      u.sys.tray.axes[n].pos = x.pos ∧ u.sys.tray.axes[n].target = x.target ∧ u.sys.tray.axes[n].st = x.st ∧
      P u.sys.tray.axes[n]
    t.fullWanted = t.full →
    gives .speed (fun a => a.speed = max 100 (min 50000 (v.toNat % 2 ^ 16)) ∧
      (a.accel, a.decel, a.jerk, a.sCurve) = (x.accel, x.decel, x.jerk, x.sCurve)) ∧
    gives .accel (fun a => a.accel = max 100 (min 1000000 (v.toNat % 2 ^ 20)) ∧
      (a.speed, a.decel, a.jerk, a.sCurve) = (x.speed, x.decel, x.jerk, x.sCurve)) ∧
    gives .decel (fun a => a.decel = max 100 (min 1000000 (v.toNat % 2 ^ 20)) ∧
      (a.speed, a.accel, a.jerk, a.sCurve) = (x.speed, x.accel, x.jerk, x.sCurve) ∧
      (x.inMotion = false → a.decelRaised = x.decelRaised)) ∧
    gives .jerk (fun a => a.jerk = max 1 (v.toNat % 2 ^ 16) ∧
      (a.speed, a.accel, a.decel, a.sCurve) = (x.speed, x.accel, x.decel, x.sCurve)) ∧
    gives .profile (fun a => a.sCurve = v.toNat.testBit 0 ∧
      (a.speed, a.accel, a.decel, a.jerk) = (x.speed, x.accel, x.decel, x.jerk))

/-- Axis events, where nothing more is due: a move ends IDLE at its target, no earlier than its time, and one to 0 only at its
closed switch; a halt leaves STOPPED with REMAIN, and one that would pass the target is at the target; a homing ends at 0, or FAILED with HOME_FAIL; a switch out of place sets the
position and SLIP; 256 microsteps past 0 is FAILED; RAILS_OFF starts a pending close.
A pending close starts as RAILS_OFF rises. A cam sample makes a pending buffer active where no axis follows its table or
SEG has changed, and a follower's target is the table's output, no lower than its floor; CAM_SWAP only asks. -/
def Obligations.AxisEventsAndCamsAct : Prop :=
  (∀ (s : State) (n : AxisId),
     let t := s.sys.tray
     let x := t.axes[n]
     let gives := fun (r : Result) (P : State → Axis → Prop) => Gives r fun u => keepsMemory s u ∧
       u.sys.out = s.sys.out ∧ (∀ m : AxisId, m ≠ n → u.sys.tray.axes[m] = t.axes[m]) ∧ P u u.sys.tray.axes[n]
     t.fullWanted = t.full → x.next = none → x.closePending = false →
     (x.st = .moving → x.target ≠ 0 ∨ x.closedSw = true → gives (exec (.moveEnd n) s) fun u a =>
       x.due.getD 0 ≤ u.sys.now ∧ a.st = .idle ∧ a.pos = x.target ∧ a.remain = 0 ∧
       a.openSw = decide (x.target = axisOpen)) ∧
     (x.st = .moving → x.target = 0 → x.closedSw = false → gives (exec (.moveEnd n) s) fun _ a =>
       a = { x with overrun := true }) ∧
     (∀ pos : Nat, x.st = .stopping → x.release = false → pos ≤ axisOpen →
       (if x.pos ≤ x.target then pos < x.target else x.target < pos) →
       gives (exec (.axisHalt n pos) s) fun u a => onlyTray s u ∧
         a = { x with st := .stopped, pos := pos, remain := (x.target : Int) - pos, full := false }) ∧
     (∀ pos : Nat, x.st = .stopping → x.release = false → x.target ≤ axisOpen →
       (if x.pos ≤ x.target then x.target ≤ pos else pos ≤ x.target) →
       gives (exec (.axisHalt n pos) s) fun u a => onlyTray s u ∧ a.st = .idle ∧ a.pos = x.target ∧ a.remain = 0) ∧
     (∀ pos : Nat, x.st = .stopping → pos ≤ axisOpen → x.release = true →
       gives (exec (.axisHalt n pos) s) fun u a => onlyTray s u ∧ a.st = .idle ∧ a.pos = pos ∧ a.remain = 0) ∧
     (x.st = .homing → gives (exec (.homeFail n) s) fun u a => onlyTray s u ∧ a.st = .failed ∧ a.result = 9) ∧
     (∀ pos : Int, x.st = .homing → x.boot = false → gives (exec (.closedSwitch n pos) s) fun u a => onlyTray s u ∧
       a.st = .idle ∧ a.pos = 0 ∧ a.homed = true ∧ a.closedSw = true ∧ a.slip = x.slip) ∧
     (∀ pos : Int, x.st = .moving → 64 < pos → gives (exec (.closedSwitch n pos) s) fun u a => onlyTray s u ∧
       a.st = .idle ∧ a.pos = 0 ∧ a.slip = true ∧ a.homed = x.homed) ∧
     (∀ pos : Int, x.st = .moving → x.overrun = false → 0 ≤ pos → pos ≤ 64 → x.target = 0 →
       gives (exec (.closedSwitch n pos) s) fun u a => onlyTray s u ∧ a.st = .idle ∧ a.pos = 0 ∧ a.slip = x.slip) ∧
     (∀ pos : Nat, x.st = .moving → pos < axisOpen → gives (exec (.openSwitch n pos) s) fun u a => onlyTray s u ∧
       a.st = .idle ∧ a.pos = axisOpen ∧ a.openSw = true ∧ a.slip = true) ∧
     (x.st = .moving → x.target = axisOpen → gives (exec (.openSwitch n axisOpen) s) fun u a => onlyTray s u ∧
       a.st = .idle ∧ a.pos = axisOpen ∧ a.openSw = true ∧ a.slip = x.slip) ∧
     (x.st = .moving → x.overrun = true → gives (exec (.closeOverrun n) s) fun u a => onlyTray s u ∧ a.st = .failed ∧
       a.overrun = false)) ∧
  ((∀ (s : State) (n : SlotId),
     let t := s.sys.tray
     let x := t.axes[slotAxis n]
     t.fullWanted = t.full → t.bays[n].cpc.railsOff = true → t.drivesPowered = true → x.next = none →
       (x.closePending = true → x.st = .idle ∨ x.st = .stopped → x.pos ≠ 0 → Gives (exec (.railsOffRise n) s) fun u =>
         onlyTray s u ∧ u.sys.tray.axes[slotAxis n].st = .moving ∧ u.sys.tray.axes[slotAxis n].target = 0 ∧
         u.sys.tray.axes[slotAxis n].closePending = false) ∧
       (x.closePending = false → exec (.railsOffRise n) s = .next s.settled)) ∧
   (∀ (s : State) (k : CamId), exec (.camSwap k) s = .next (s.withTray fun t =>
     { t with cams := t.cams.set k { t.cams[k] with swap := true } }).settled) ∧
   (∀ (s : State),
     let t := s.sys.tray
     t.fullWanted = t.full → Gives (exec .camSample s) fun u => onlyTray s u ∧
       (∀ k : CamId,
         let c := t.cams[k]
         let seg : Fin 64 := Fin.ofNat 64 (camMaster t c / 1024)
         let swaps := c.swap = true ∧ (t.followed k = false ∨ ∃ old, c.seg = some old ∧ old ≠ seg)
         (swaps → u.sys.tray.cams[k] =
           { c with active := c.shadow, shadow := c.active, swap := false, buf := !c.buf, seg := some seg }) ∧
         (¬swaps → u.sys.tray.cams[k] = { c with seg := some seg })) ∧
       (∀ n : AxisId,
         let x := t.axes[n]
         let a := u.sys.tray.axes[n]
         (x.st ≠ .following → a = x) ∧
         (x.st = .following → t.axisAbsent n = false → ∀ out,
           out = camOutput u.sys.tray.cams[x.cam].active (camMaster t t.cams[x.cam]) → a.st = .following ∧
           a.target = if t.railsUp n = true ∧ out < x.min then x.min else out))))

/-- A leak latches its bay, keeps PWR_EN low, asserts the source of its zone and sends the valve to closed over everything;
the latch clears only while the sensor is dry; TMC_REQ asks for full cooling, which sends present valves open at full duty;
the valve policy opens an ON slot to at least MIN and closes a dark one. -/
def Obligations.LeaksAndFullCoolingAct : Prop :=
  ∀ (s : State) (n : SlotId),
    let t := s.sys.tray
    let zone : SourceId := ⟨40 + n.val / 4, by omega⟩
    let ax := fun (u : State) => u.sys.tray.axes[slotAxis n]
    Gives (exec (.leak n) s) (fun u => onlyTray s u ∧ u.sys.tray.bays[n].leak = true ∧ u.sys.tray.bays[n].wet = true ∧
      u.sys.tray.bays[n].cpc.pwrEn = false ∧ u.sys.tray.fc.src[zone].line = true ∧
      (t.drivesPowered = true → t.axes[slotAxis n].st = .idle → t.axes[slotAxis n].pos ≠ 0 →
        (ax u).st = .moving ∧ (ax u).target = 0 ∧ (ax u).full = true)) ∧
    (∀ mask : BitVec 16, Gives (exec (.leakClear mask) s) fun u => onlyTray s u ∧
      u.sys.tray.bays[n].leak = (t.bays[n].leak && !(mask.getLsbD n.val && !t.bays[n].wet)) ∧
      u.sys.tray.bays[n].wet = t.bays[n].wet) ∧
    (t.drivesPowered = true → t.full = false → t.fullWanted = false → Gives (exec (.tmcReq true) s) fun u =>
      onlyTray s u ∧ u.sys.tray.tmcReq = true ∧ u.sys.tray.full = true ∧
      (t.bays[n].present = true → t.bays[n].leak = false → t.axes[slotAxis n].st = .idle →
        t.axes[slotAxis n].pos < axisOpen → (ax u).st = .moving ∧ (ax u).target = axisOpen ∧ (ax u).full = true) ∧
      ∀ k : DriveId, t.drives[k].present = true → t.drives[k].duty ≤ 100 → u.sys.tray.drives[k].duty = 100) ∧
    (t.full = true → t.card.expired = false → t.fc.anyApplies 1 = false → Gives (exec (.tmcReq false) s) fun u =>
      onlyTray s u ∧ u.sys.tray.full = false ∧ u.sys.tray.fullEnded = true ∧ u.sys.tray.axes = t.axes) ∧
    (∀ policy : BitVec 14,
      let x := t.axes[slotAxis n]
      t.fullWanted = t.full → t.full = false → t.card.running = true → t.bays[n].present = true → t.bays[n].leak = false →
      t.drivesPowered = true → x.homed = true → x.st = .idle → x.min ≤ axisOpen →
        (t.resolved n = .on → x.pos < x.min → Gives (exec (.valvePolicyMove n policy) s) fun u =>
          keepsMemory s u ∧ (ax u).st = .moving ∧ (ax u).target = min axisOpen (max policy.toNat x.min) ∧
          (ax u).result = 0) ∧
        (t.resolved n ≠ .on → t.bays[n].cpc.railsOff = true → x.pos ≠ 0 →
          Gives (exec (.valvePolicyMove n policy) s) fun u =>
            keepsMemory s u ∧ (ax u).st = .moving ∧ (ax u).target = 0 ∧ (ax u).result = 0))

/-- A new request is executed, answered and kept: SLOT_POWER sets its rank's order, but a rack OFF opens a notice while the
host listens; DEFER extends it once, DEFER_DONE or the end of 100 ms or 30 s applies it; COOL_DEMAND sets its rank's demand.
A repeated SEQ is answered from the cache or as STALE, and a card that does not run answers nothing. -/
def Obligations.OrdersAndNotices : Prop :=
  ∀ (s : State) (h : TmpHdr) (mask : BitVec 16) (o : Order) (b : Byte),
    let t := s.sys.tray
    let done := fun (r : Result) (command status : Nat) (payload : List Byte) (P : Tray → Prop) => Gives r fun u =>
      keepsMemory s u ∧ u.sys.chip = s.sys.chip ∧ Replied h command status payload s u ∧
      Noted h command status payload u ∧ P u.sys.tray
    let held := heldSlots t mask
    let opens := t.card.mailbox.noticeEn = true ∧ t.card.mailbox.full = false ∧ ∃ n ∈ slotsOf mask, t.resolved n = .on
    (executes h s.sys = true →
      (h.inlet = .host →
        (done (exec (.slotPower h mask o false) s) 0x10 (if overridden t .host mask o then 1 else 0) [] fun u =>
          u.orders = { t.orders with host := putOrders mask o t.orders.host }) ∧
        done (exec (.slotPower h mask o true) s) 0x10 6 [] (fun u => u.orders = t.orders ∧ u.card.notices = t.card.notices) ∧
        (∀ x, noticeNumbered b t = some x → x.deferred = false → s.sys.now < x.openedAt + Config.ms 100 →
          done (exec (.defer h b) s) 0x13 0 [] fun u => u.orders = t.orders ∧
            u.card.notices = t.card.notices.map fun z => if z.number == b then { z with deferred := true } else z) ∧
        (∀ x, noticeNumbered b t = some x → x.deferred = true ∨ x.openedAt + Config.ms 100 ≤ s.sys.now →
          done (exec (.defer h b) s) 0x13 12 [] fun u => u.card.notices = t.card.notices) ∧
        (∀ x, noticeNumbered b t = some x → done (exec (.deferDone h b) s) 0x14 0 [] fun u =>
          u.card.notices = t.card.notices.filter (fun z => z != x) ∧
          u.orders = { t.orders with rack := putOrders x.mask .off t.orders.rack }) ∧
        (noticeNumbered b t = none →
          done (exec (.defer h b) s) 0x13 12 [] (fun u => u.card.notices = t.card.notices) ∧
          done (exec (.deferDone h b) s) 0x14 12 [] fun u => u.card.notices = t.card.notices)) ∧
      (h.inlet = .rack →
        (o ≠ .off → ∀ flag, done (exec (.slotPower h mask o flag) s) 0x10 (if overridden t .rack mask o then 1 else 0) []
          fun u => u.orders = { t.orders with rack := putOrders mask o t.orders.rack } ∧
            ∀ x ∈ u.card.notices, x.mask &&& mask = 0) ∧
        (held = 0 → opens → done (exec (.slotPower h mask .off false) s) 0x10 2 (leBytes 4 100) fun u =>
          u.orders = t.orders ∧
          u.card.notices = t.card.notices ++ [⟨t.card.nextNotice, mask, s.sys.now, false, h⟩] ∧
          u.card.mailbox.tail = t.card.mailbox.tail + 1) ∧
        (held = 0 → ∀ flag, flag = true ∨ ¬opens → done (exec (.slotPower h mask .off flag) s) 0x10 0 [] fun u =>
          u.orders = { t.orders with rack := putOrders mask .off t.orders.rack } ∧ u.card.notices = t.card.notices) ∧
        done (exec (.defer h b) s) 0x13 7 [] (fun u => u.card.notices = t.card.notices) ∧
        done (exec (.deferDone h b) s) 0x14 7 [] fun u => u.card.notices = t.card.notices) ∧
      (∀ (flow : BitVec 16) (fan pump : Byte),
        let d : Demand := ⟨flow, fan.toNat, pump.toNat⟩
        let u := t.setDemand (rankOf h.inlet) d
        (fan.toNat ≤ 100 → pump.toNat ≤ 100 → done (exec (.coolDemand h flow fan pump) s) 0x20 0 u.resolvedDemand.bytes
          fun v => v.demands = u.demands) ∧
        (100 < fan.toNat ∨ 100 < pump.toNat → done (exec (.coolDemand h flow fan pump) s) 0x20 6 [] fun v =>
          v.demands = t.demands))) ∧
    (∀ x, (t.card.notices.find? fun z => z.deferred == false) = some x → Gives (exec .noticeExpiry s) fun u =>
      keepsMemory s u ∧ x.openedAt + Config.ms 100 ≤ u.sys.now ∧
      u.sys.tray.card.notices = t.card.notices.filter (fun z => z != x) ∧
      u.sys.tray.orders = { t.orders with rack := putOrders x.mask .off t.orders.rack }) ∧
    (∀ x, (t.card.notices.find? fun z => z.deferred == true) = some x → Gives (exec .deferTimeout s) fun u =>
      keepsMemory s u ∧ x.openedAt + Config.ms 30000 ≤ u.sys.now ∧
      u.sys.tray.card.notices = t.card.notices.filter (fun z => z != x) ∧
      u.sys.tray.orders = { t.orders with rack := putOrders x.mask .off t.orders.rack }) ∧
    (∀ r flag, t.card.running = true → h.reqId ≠ 0 → t.requester h.reqId = some r → h.seq.toNat ≤ r.high.toNat →
      (∀ frame, r.replies.lookup h.seq = some frame → Gives (exec (.slotPower h mask o flag) s) fun u =>
        u.sys.tray.orders = t.orders ∧ u.sys.tray.card.notices = t.card.notices ∧
        ∃ sent, u.sys.out = s.sys.out ++ sent ∧ .tmp h.inlet frame ∈ sent) ∧
      (r.replies.lookup h.seq = none → Gives (exec (.slotPower h mask o flag) s) fun u =>
        u.sys.tray.orders = t.orders ∧ u.sys.tray.card.notices = t.card.notices ∧
        Replied h 0x10 8 (leBytes 4 r.high.toNat) s u)) ∧
    (t.card.running = false → ∀ flag, exec (.slotPower h mask o flag) s = .next s.settled)

/-- Read commands of a running card: sensors by their latest valid reading, log records by number, the chip's registers,
and cable modules; a range out of bounds is BAD_FIELD, and what is absent answers its status.
FAULT_ACK acknowledges latches, CHIP_WRITE writes a register of the chip, TMC_RESTART restarts the card whose boot count it
names; DHCP gives the address, or its absence a link-local one; a scan keeps its readings; a completed record is written with
the next number. -/
def Obligations.TmcRequestsAct : Prop :=
  (∀ (s : State) (h : TmpHdr),
     let t := s.sys.tray
     let told := fun (r : Result) (command status : Nat) (payload : List Byte) => Gives r fun u =>
       keepsMemory s u ∧ Replied h command status payload s u ∧ u.sys.tray.orders = t.orders ∧ u.sys.tray.log = t.log
     t.card.running = true → h.reqId ≠ 0 →
     (∀ first count : Nat,
       (count = 0 ∨ 128 < count ∨ 212 < first + count → told (exec (.sensorRead h first count) s) 0x30 6 []) ∧
       (1 ≤ count → count ≤ 128 → first + count ≤ 212 → ∃ payload, told (exec (.sensorRead h first count) s) 0x30 0 payload ∧
         payload.length = 8 * count ∧ ∀ (i : Nat) (p : Fin 212), i < count → p.val = first + i → t.sensors[p].valid = true →
           sensorFitted t p.val = true → (payload.drop (8 * i)).take 4 = intBytes t.sensors[p].value)) ∧
     (∀ (number : Word) (count : Nat),
       let record := fun (i : Nat) => t.record ((number.toNat + i) % 2 ^ 32)
       (count = 0 ∨ 16 < count ∨ (∃ i, i < count ∧ record i = none) → told (exec (.logRead h number count) s) 0x41 6 []) ∧
       (1 ≤ count → count ≤ 16 → (∀ i, i < count → record i ≠ none) → told (exec (.logRead h number count) s) 0x41 0
         ((List.range count).flatMap fun i => ((record i).map LogRec.bytes).getD []))) ∧
     (∀ (n : SlotId) (offset : BitVec 16) (count : Nat),
       (count = 0 ∨ 16 < count ∨ 65536 < offset.toNat + 4 * count →
         told (exec (.chipRead h n offset count) s) 0x70 6 []) ∧
       (1 ≤ count → count ≤ 16 → offset.toNat + 4 * count ≤ 65536 →
         (t.bays[n].present = false → told (exec (.chipRead h n offset count) s) 0x70 9 []) ∧
         (t.bays[n].present = true → offset.toNat % 4 ≠ 0 ∨ onBus t n = false →
           told (exec (.chipRead h n offset count) s) 0x70 10 []) ∧
         (offset.toNat % 4 = 0 → onBus t n = true →
           (n ≠ s.ownSlot → ∃ payload, payload.length = 4 * count ∧
             told (exec (.chipRead h n offset count) s) 0x70 0 payload) ∧
           (n = s.ownSlot → count = 1 → s.sys.chip.pwr.retention = false → s.sys.chip.pwr.lowIdle = false →
             let c := { s.sys.chip with mgt := { s.sys.chip.mgt with wakeLast := 0 } }
             told (exec (.chipRead h n offset count) s) 0x70 0 (leBytes 4 (readReg c offset.toNat).toNat))))) ∧
     (∀ cage : Nat,
       (64 ≤ cage → told (exec (.cableInfo h cage) s) 0x72 6 []) ∧
       (∀ c : CageId, c.val = cage →
         (t.cages[c].module = none → told (exec (.cableInfo h cage) s) 0x72 9 []) ∧
         (∀ m, t.cages[c].module = some m → told (exec (.cableInfo h cage) s) 0x72 0
           (leBytes 1 (mediaCode m.media) ++ leBytes 2 m.lengthCm ++ leBytes 1 m.powerClass ++
             leBytes 1 (bit t.cages[c].lowPower 0)))))) ∧
  (∀ (s : State) (h : TmpHdr),
     let t := s.sys.tray
     (executes h s.sys = true →
       (∀ mask : Dword, Gives (exec (.faultAck h mask) s) fun u => keepsMemory s u ∧ u.sys.chip = s.sys.chip ∧
         Replied h 0x51 0 [] s u ∧ Noted h 0x51 0 [] u ∧ ∀ i : SourceId,
           (mask.getLsbD i.val = true → u.sys.tray.fc.src[i].status = true → u.sys.tray.fc.src[i].acked = true) ∧
           (mask.getLsbD i.val = false → u.sys.tray.fc.src[i].status = t.fc.src[i].status ∧
             u.sys.tray.fc.src[i].acked = t.fc.src[i].acked)) ∧
       (∀ (n : SlotId) (offset : BitVec 16) (value : Word),
         (t.bays[n].present = false → Gives (exec (.chipWrite h n offset value) s) fun u => keepsMemory s u ∧
           u.sys.chip = s.sys.chip ∧ Replied h 0x71 9 [] s u ∧ Noted h 0x71 9 [] u) ∧
         (n = s.ownSlot → onBus t n = true → offset.toNat % 4 = 0 → s.sys.chip.pwr.retention = false →
           s.sys.chip.pwr.lowIdle = false →
           let c := { s.sys.chip with mgt := { s.sys.chip.mgt with wakeLast := 0 } }
           Gives (exec (.chipWrite h n offset value) s) fun u => keepsMemory s u ∧ Replied h 0x71 0 [] s u ∧
             Noted h 0x71 0 [] u ∧ u.sys.chip = (writeReg offset.toNat value { s.sys with chip := c }).chip) ∧
         (n ≠ s.ownSlot → onBus t n = true → offset.toNat % 4 = 0 → Gives (exec (.chipWrite h n offset value) s) fun u =>
           keepsMemory s u ∧ u.sys.chip = s.sys.chip ∧ Replied h 0x71 0 [] s u ∧ Noted h 0x71 0 [] u)) ∧
       (∀ k : Word,
         (k ≠ t.card.bootCount → Gives (exec (.tmcRestart h k) s) fun u => Replied h 0x04 11 [] s u ∧
           u.sys.tray.card.running = true ∧ u.sys.tray.card.bootCount = t.card.bootCount) ∧
         (k = t.card.bootCount → Gives (exec (.tmcRestart h k) s) fun u =>
           (∃ sent, u.sys.out = s.sys.out ++ sent ∧ .tmp h.inlet (replyFrame h 0x04 0 []) ∈ sent) ∧
           u.sys.tray.card.running = false ∧ u.sys.tray.card.bootCount = t.card.bootCount + 1 ∧
           u.sys.tray.card.notices = [] ∧ u.sys.tray.card.mailbox = Mailbox.reset))) ∧
     (t.card.running = true → t.net.dhcp = true →
       (∀ a, Gives (exec (.dhcpLease a) s) fun u => onlyTray s u ∧
         u.sys.tray.net = { t.net with lease := true, linkLocal := false, address := a }) ∧
       (t.net.lease = false → t.net.linkLocal = false → Gives (exec .dhcpTimeout s) fun u => keepsMemory s u ∧
         t.card.bootAt + Config.sec 10 ≤ u.sys.now ∧ u.sys.tray.net.linkLocal = true ∧ u.sys.tray.net.lease = false ∧
         u.sys.tray.net.address.toNat / 2 ^ 16 = 0xA9FE)) ∧
     (∀ (critical : Bool) (p : Fin 212) (v : Int),
       (scans t critical p.val = true → Gives (exec (.sensorScan critical [(p, v)]) s) fun u => onlyTray s u ∧
         u.sys.tray.sensors = t.sensors.set p ⟨v, s.sys.now, true⟩) ∧
       (scans t critical p.val = false → exec (.sensorScan critical [(p, v)]) s = .next s.settled)) ∧
     (∀ due p, nextRecord t = some (due, p) → t.card.running = true → t.log.length < 32768 →
       Gives (exec .logRecordWrite s) fun u => keepsMemory s u ∧ due ≤ u.sys.now ∧
         u.sys.tray.logHead = (t.logHead + 1) % 2 ^ 32 ∧
         u.sys.tray.log = t.log ++ [{ p.record with number := t.logHead, after := p.record.points.map t.reading }]))

/-- The watchdog and the card: a service by a powered card keeps it running, the first one bringing back its automatic orders
and the gap record, and one 10 s later clearing EXPIRED and acknowledging source 48; 500 ms (1% less at the earliest) without one expires it, with source 48 and a reset; EXPIRED clears once a
service has come; a card that resets loses its notices, their orders applied; an inserted card has 60 s.
The base board's reset, and the first rise of the input: UNQUALIFIED, no orders, PWR_EN low, every collector and two-wire
controller at its reset value, the log, the tray's index, policy and replies kept; a rise also resets every CPC. -/
def Obligations.WatchdogAndResetsAct : Prop :=
  (∀ (s : State),
     let t := s.sys.tray
     let c := t.card
     let card := fun (u : State) => u.sys.tray.card
     (c.present = true → c.resetLow = none → t.drivesPowered = true →
       (c.running = true → Gives (exec .watchdogService s) fun u => onlyTray s u ∧
         ((∀ e, c.servedAt = some e → s.sys.now < e + Config.sec 10) →
           card u = { c with edgeAt := s.sys.now, edgeSince := true, allowance := none }) ∧
         ∀ e, c.servedAt = some e → e + Config.sec 10 ≤ s.sys.now →
           card u = { c with edgeAt := s.sys.now, edgeSince := true, allowance := none, expired := false, servedAt := none } ∧
           u.sys.tray.fc.src[(48 : SourceId)].status = (ackSource t.fc.src[(48 : SourceId)]).status ∧
           u.sys.tray.fc.src[(48 : SourceId)].acked = (ackSource t.fc.src[(48 : SourceId)]).acked) ∧
       (c.running = false → Gives (exec .watchdogService s) fun u => keepsMemory s u ∧ (card u).running = true ∧
         (card u).edgeAt = s.sys.now ∧ (card u).servedAt = some s.sys.now ∧ (card u).allowance = none ∧ u.sys.tray.orders.auto = autoOrders t.autoSlots ∧
         u.sys.tray.orders.rack = t.orders.rack ∧ u.sys.tray.orders.host = t.orders.host ∧
         u.sys.tray.logHead = (t.logHead + 1) % 2 ^ 32)) ∧
     (c.present = false ∨ t.drivesPowered = false → c.resetLow = none →
       exec .watchdogService s = .next s.settled) ∧
     (c.present = true → c.resetLow = none → Gives (exec .watchdogExpiry s) fun u => keepsMemory s u ∧
       wdtDue c ≤ u.sys.now ∧ (card u).expired = true ∧ (card u).running = false ∧ (card u).edgeSince = false ∧
       (card u).resetLow = some (u.sys.now + Config.ms 10) ∧ ⟨48, .tmc⟩ ∈ u.sys.tray.fc.raised ∧
       u.sys.tray.full = true) ∧
     (c.edgeSince = true → Gives (exec .expiredClear s) fun u => onlyTray s u ∧ card u = { c with expired := false }) ∧
     (c.edgeSince = false → exec .expiredClear s = .next s.settled) ∧
     (c.present = true → Gives (exec .cardReset s) fun u => onlyTray s u ∧ (card u).running = false ∧
       (card u).bootCount = c.bootCount + 1 ∧ (card u).notices = [] ∧ (card u).mailbox = Mailbox.reset ∧
       (∀ n : SlotId, t.underNotice n = true → u.sys.tray.orders.rack[n] = .off) ∧
       (∀ n : SlotId, t.underNotice n = false → u.sys.tray.orders.rack[n] = t.orders.rack[n])) ∧
     (c.present = false → exec .cardReset s = .next s.settled ∧ Gives (exec .tmcCardInsert s) fun u =>
       onlyTray s u ∧ (card u).present = true ∧ (card u).eeprom = fittedRecord 25 s.sys.now ∧ (card u).running = false ∧ (card u).allowance = some (s.sys.now + Config.sec 60))) ∧
  (∀ (s : State),
     let t := s.sys.tray
     let after := fun (u : State) =>
       u.pending = s.pending ∧ (t.bbu = .carrying ∨ t.bbu = .charging ∨ t.bbu = .ready → u.mem = s.mem) ∧
       u.sys.tray.input = .unqualified ∧ u.sys.tray.inputAt = s.sys.now ∧ u.sys.tray.bbu = foundBbu t ∧
       u.sys.tray.orders = Tray.reset.orders ∧ u.sys.tray.demands = Tray.reset.demands ∧
       u.sys.tray.log = t.log ∧ u.sys.tray.logHead = t.logHead ∧ u.sys.tray.autoSlots = t.autoSlots ∧
       u.sys.tray.trayZ = t.trayZ ∧ u.sys.tray.trayW = t.trayW ∧ u.sys.tray.trayValid = t.trayValid ∧
       u.sys.tray.requesters = t.requesters ∧ u.sys.tray.card.running = false ∧ u.sys.tray.card.present = t.card.present ∧
       (∀ n : SlotId, u.sys.tray.bays[n].present = t.bays[n].present ∧ u.sys.tray.bays[n].leak = t.bays[n].wet ∧
         u.sys.tray.bays[n].cpc.pwrEn = false) ∧
       (∀ b : BusId, u.sys.tray.twi[b].busy = false ∧ u.sys.tray.twi[b].speed = 1) ∧
       (∀ i : SourceId, u.sys.tray.fc.src[i].status = false)
     Gives (exec .baseBoardReset s) (fun u => after u ∧
       ∀ n : SlotId, u.sys.tray.bays[n].cpc.rails = t.bays[n].cpc.rails) ∧
     Gives (exec .trayInputRise s) (fun u => after u ∧ ∀ n : SlotId,
       u.sys.tray.bays[n].cpc.railsOff = true ∧ u.sys.tray.bays[n].cpc.valid = false ∧
       u.sys.tray.bays[n].cpc.seqFault = false))

/-- Register accesses over BUS0 and BUS1. At the CPC an aligned word of four bytes is written, or read as many bytes as are
clocked; at the chip's target also the PEC byte while PEC_EN is 1, a wrong one counted and the write discarded; nothing on a
bus that the slot has not joined; RETENTION-ONLY refuses its first address and starts a wake.
Sleep and the controllers: the end of a wake answers for 100 ms; a target's time-out is counted; a transaction starts while
BUSY is 0 and ends with its result and the bytes that the device brings, an identity EEPROM those of its record; a stuck bus ends STUCK with its source; a recovery releases the switches, and
while a line stays low it is repeated after a second with the source. -/
def Obligations.TwoWireBusesAct : Prop :=
  (∀ (s : State) (n : SlotId),
     let t := s.sys.tray
     let c := s.sys.chip
     let woken := { c with mgt := { c.mgt with wakeLast := 0 } }
     (∀ dev (bytes : List Byte) (o0 o1 : Byte) (k : Nat), onBus t n = false →
       exec (.twoWireRegisterWrite n dev bytes) s = .next s.settled ∧
       exec (.twoWireRegisterRead n dev o0 o1 k) s = .next s.settled) ∧
     (onBus t n = true →
       (∀ (o : BitVec 8) (b0 b1 b2 b3 : Byte), o.toNat % 4 = 0 →
         exec (.twoWireRegisterWrite n .cpc [o, 0, b0, b1, b2, b3]) s = .next (s.withTray (Tray.onCpc n
           (writeCpc o.toNat (BitVec.ofNat 32 (leNat [b0, b1, b2, b3]))))).settled) ∧
       (∀ (o : BitVec 8) (k : Nat), o.toNat % 4 = 0 → exec (.twoWireRegisterRead n .cpc o 0 k) s =
         .next (s.puts (.readData ((leBytes 4 (readCpc t n o.toNat).toNat).take k))).settled) ∧
       (n = s.ownSlot → c.pwr.retention = false → c.pwr.lowIdle = false → ∀ (o0 o1 b0 b1 b2 b3 : Byte),
         let off := leNat [o0, o1]
         let v : Word := BitVec.ofNat 32 (leNat [b0, b1, b2, b3])
         let pec := crc8 [sk2Addr n false, o0, o1, b0, b1, b2, b3]
         let written := (writeReg off v { s.sys with chip := woken }).chip
         off % 4 = 0 →
         (c.mgt.pecEn = false → Gives (exec (.twoWireRegisterWrite n .sk2 [o0, o1, b0, b1, b2, b3]) s) fun u =>
           keepsMemory s u ∧ u.sys.chip = written) ∧
         (c.mgt.pecEn = true →
           (∀ p : Byte, p.toNat = pec → Gives (exec (.twoWireRegisterWrite n .sk2 [o0, o1, b0, b1, b2, b3, p]) s) fun u =>
             keepsMemory s u ∧ u.sys.chip = written) ∧
           (∀ p : Byte, p.toNat ≠ pec → Gives (exec (.twoWireRegisterWrite n .sk2 [o0, o1, b0, b1, b2, b3, p]) s) fun u =>
             keepsMemory s u ∧
             u.sys.chip = { woken with mgt := { woken.mgt with pecErrors := satInc c.mgt.pecErrors } })) ∧
         (∀ k, Gives (exec (.twoWireRegisterRead n .sk2 o0 o1 k) s) fun u => keepsMemory s u ∧
           u.sys.out = s.sys.out ++ [.readData (readBytes n o0 o1 k (readReg woken off))] ∧
           u.sys.chip = readEffect off woken)) ∧
       (n = s.ownSlot → c.pwr.retention = true → c.mgt.awake = none → c.mgt.wakeAt = none → ∀ (o0 o1 : Byte) (k : Nat),
         exec (.twoWireRegisterRead n .sk2 o0 o1 k) s = .next (s.withChip fun c => { c with mgt := { c.mgt with
           wakeLast := 2, wakeAt := some s.sys.now, wakes := satInc c.mgt.wakes } }).settled))) ∧
  ((∀ (s : State),
     let m := s.sys.chip.mgt
     let gives := fun (r : Result) (f : Mgt → Mgt) => r =
       .next (s.withChip fun c => { c with mgt := f c.mgt }).settled
     (m.wakeAt ≠ none → gives (exec .managementWakeEnd s) fun m => { m with wakeAt := none, awake := some s.sys.now }) ∧
     (m.wakeAt = none → exec .managementWakeEnd s = .next s.settled) ∧
     (∀ w, m.awake = some w → Gives (exec .keepAliveReturn s) fun u => keepsMemory s u ∧ w + Config.ms 100 ≤ u.sys.now ∧
       u.sys.chip.mgt = { m with awake := none }) ∧
     (m.twiTimeoutEn = true → gives (exec .twoWireTimeout s) fun m => { m with twiTimeouts := satInc m.twiTimeouts }) ∧
     (m.twiTimeoutEn = false → exec .twoWireTimeout s = .next s.settled)) ∧
   (∀ (s : State) (b : BusId),
     let x := s.sys.tray.twi[b]
     let source : SourceId := ⟨49 + b.val, by omega⟩
     let gives := fun (r : Result) (P : State → Twi → Prop) => Gives r fun u => keepsMemory s u ∧ u.sys.chip = s.sys.chip ∧
       (∀ d : BusId, d ≠ b → u.sys.tray.twi[d] = s.sys.tray.twi[d]) ∧ P u u.sys.tray.twi[b]
     (x.busy = true → exec (.startTransaction b) s = .next s.settled ∧
       (gives (exec (.twoWireTransactionDone b .stuck []) s) fun u y => y.busy = false ∧ y.done = true ∧ y.result = 5 ∧
         (y.sclLow = true ∨ y.sdaLow = true) ∧ ⟨source, .bus b⟩ ∈ u.sys.tray.fc.raised) ∧
       (∀ bytes : List Byte, gives (exec (.twoWireTransactionDone b .ok bytes) s) fun _ y => y.busy = false ∧
         y.done = true ∧ y.result = 0 ∧ y.bytes = BitVec.ofNat 6 (len32 x.wlen + len32 x.rlen) ∧
         (eepromAt s.sys.tray b x.addr.toNat = none ∨ len32 x.wlen = 0 →
           ∀ i : Fin 32, y.data[i] = if i.val < len32 x.rlen then bytes.getD i.val 0 else x.data[i]) ∧
         ∀ r, eepromAt s.sys.tray b x.addr.toNat = some r → len32 x.wlen ≠ 0 → ∀ i : Fin 32,
           y.data[i] = if i.val < len32 x.rlen then r.getD ((x.data[0].toNat + i.val) % 256) 0 else x.data[i]) ∧
       (∀ result, result ≠ .ok → result ≠ .stuck → gives (exec (.twoWireTransactionDone b result []) s) fun _ y =>
         y.busy = false ∧ y.done = true ∧ y.result = twiResultCode result ∧ y.data = x.data)) ∧
     (x.busy = false →
       (gives (exec (.startTransaction b) s) fun u y => y = { x with busy := true, done := false } ∧
         u.sys.out = s.sys.out ++ [.twi b (twiBytes x)]) ∧
       ∀ result bytes, exec (.twoWireTransactionDone b result bytes) s = .next s.settled) ∧
     (gives (exec (.busStuck b) s) fun u y => y.busy = false ∧ y.done = (x.done || x.busy) ∧ y.result = 5 ∧
       (y.sclLow = true ∨ y.sdaLow = true) ∧ ⟨source, .bus b⟩ ∈ u.sys.tray.fc.raised) ∧
     (gives (exec (.recover b) s) fun _ y => (x.sclLow = false → y.sclLow = false) ∧ (x.sdaLow = false → y.sdaLow = false) ∧
       (b.val = 2 ∨ b.val = 3 → y.channels = Vector.replicate 4 0) ∧
       (y.sclLow = false → y.sdaLow = false → y.retryAt = none) ∧
       (y.sclLow = true ∨ y.sdaLow = true → y.result = 5 ∧ y.retryAt = some s.sys.now)) ∧
     (x.retryAt = none → exec (.recoveryRetry b) s = .next s.settled) ∧
     (∀ w, x.retryAt = some w → Gives (exec (.recoveryRetry b) s) fun u => keepsMemory s u ∧
       w + Config.sec 1 ≤ u.sys.now ∧ ⟨source, .bus b⟩ ∈ u.sys.tray.fc.raised)))
end

