-- ==== Sys2Proof/Laws/Exec.lean ====
section
/-! SUPPORT. The arms of exec, one equation per command: a proof cites these and does not unfold exec. -/

namespace Sys2Proof.Machine

variable (s : State)

theorem exec_nop (tile : TileId) (slot : SlotName) : exec (.nop tile slot) s = execNop tile slot s := rfl
theorem exec_br (tile : TileId) (pred : PReg) (target : BitVec 16) (pop : BitVec 3) : exec (.br tile pred target pop) s = execBr tile pred target pop s := rfl
theorem exec_loop (tile : TileId) (pred : PReg) (len : BitVec 8) (k : KReg) (n : LoopCount) : exec (.loop tile pred len k n) s = execLoop tile pred len k n s := rfl
theorem exec_loopEnd (tile : TileId) : exec (.loopEnd tile) s = execLoopEnd tile s := rfl
theorem exec_pand (tile : TileId) (pred : PReg) (d a b : PReg) : exec (.pand tile pred d a b) s = execPand tile pred d a b s := rfl
theorem exec_por (tile : TileId) (pred : PReg) (d a b : PReg) : exec (.por tile pred d a b) s = execPor tile pred d a b s := rfl
theorem exec_pxor (tile : TileId) (pred : PReg) (d a b : PReg) : exec (.pxor tile pred d a b) s = execPxor tile pred d a b s := rfl
theorem exec_pandn (tile : TileId) (pred : PReg) (d a b : PReg) : exec (.pandn tile pred d a b) s = execPandn tile pred d a b s := rfl
theorem exec_endProgram (tile : TileId) (pred : PReg) : exec (.endProgram tile pred) s = execEndProgram tile pred s := rfl
theorem exec_waitGtc (tile : TileId) (pred : PReg) (aa : AReg) : exec (.waitGtc tile pred aa) s = execWaitGtc tile pred aa s := rfl
theorem exec_waitGtcEnd : exec (.waitGtcEnd) s = execWaitGtcEnd s := rfl
theorem exec_ramp (tile : TileId) (pred : PReg) (qmask : BitVec 4) (level : BitVec 6) (lead : BitVec 10) : exec (.ramp tile pred qmask level lead) s = execRamp tile pred qmask level lead s := rfl
theorem exec_ld (tile : TileId) (pred : PReg) (v : VReg) (a : LineAddr) : exec (.ld tile pred v a) s = execLd tile pred v a s := rfl
theorem exec_st (tile : TileId) (pred : PReg) (v : VReg) (a : LineAddr) : exec (.st tile pred v a) s = execSt tile pred v a s := rfl
theorem exec_stm (tile : TileId) (pred : PReg) (v : VReg) (a : LineAddr) (am : AReg) : exec (.stm tile pred v a am) s = execStm tile pred v a am s := rfl
theorem exec_aadd (tile : TileId) (pred : PReg) (d a : AReg) (b : BOperand) : exec (.aadd tile pred d a b) s = execAadd tile pred d a b s := rfl
theorem exec_asub (tile : TileId) (pred : PReg) (d a : AReg) (b : BOperand) : exec (.asub tile pred d a b) s = execAsub tile pred d a b s := rfl
theorem exec_amul (tile : TileId) (pred : PReg) (d a : AReg) (b : BOperand) : exec (.amul tile pred d a b) s = execAmul tile pred d a b s := rfl
theorem exec_aand (tile : TileId) (pred : PReg) (d a : AReg) (b : BOperand) : exec (.aand tile pred d a b) s = execAand tile pred d a b s := rfl
theorem exec_aor (tile : TileId) (pred : PReg) (d a : AReg) (b : BOperand) : exec (.aor tile pred d a b) s = execAor tile pred d a b s := rfl
theorem exec_axor (tile : TileId) (pred : PReg) (d a : AReg) (b : BOperand) : exec (.axor tile pred d a b) s = execAxor tile pred d a b s := rfl
theorem exec_ashl (tile : TileId) (pred : PReg) (d a : AReg) (b : BOperand) : exec (.ashl tile pred d a b) s = execAshl tile pred d a b s := rfl
theorem exec_ashr (tile : TileId) (pred : PReg) (d a : AReg) (b : BOperand) : exec (.ashr tile pred d a b) s = execAshr tile pred d a b s := rfl
theorem exec_asra (tile : TileId) (pred : PReg) (d a : AReg) (b : BOperand) : exec (.asra tile pred d a b) s = execAsra tile pred d a b s := rfl
theorem exec_amin (tile : TileId) (pred : PReg) (d a : AReg) (b : BOperand) : exec (.amin tile pred d a b) s = execAmin tile pred d a b s := rfl
theorem exec_amax (tile : TileId) (pred : PReg) (d a : AReg) (b : BOperand) : exec (.amax tile pred d a b) s = execAmax tile pred d a b s := rfl
theorem exec_cmpeq (tile : TileId) (pred : PReg) (d : PReg) (a : AReg) (b : BOperand) : exec (.cmpeq tile pred d a b) s = execCmpeq tile pred d a b s := rfl
theorem exec_cmpne (tile : TileId) (pred : PReg) (d : PReg) (a : AReg) (b : BOperand) : exec (.cmpne tile pred d a b) s = execCmpne tile pred d a b s := rfl
theorem exec_cmplt (tile : TileId) (pred : PReg) (d : PReg) (a : AReg) (b : BOperand) : exec (.cmplt tile pred d a b) s = execCmplt tile pred d a b s := rfl
theorem exec_cmple (tile : TileId) (pred : PReg) (d : PReg) (a : AReg) (b : BOperand) : exec (.cmple tile pred d a b) s = execCmple tile pred d a b s := rfl
theorem exec_cmpltu (tile : TileId) (pred : PReg) (d : PReg) (a : AReg) (b : BOperand) : exec (.cmpltu tile pred d a b) s = execCmpltu tile pred d a b s := rfl
theorem exec_cmpleu (tile : TileId) (pred : PReg) (d : PReg) (a : AReg) (b : BOperand) : exec (.cmpleu tile pred d a b) s = execCmpleu tile pred d a b s := rfl
theorem exec_amovi (tile : TileId) (pred : PReg) (d : AReg) (imm : Word) : exec (.amovi tile pred d imm) s = execAmovi tile pred d imm s := rfl
theorem exec_movka (tile : TileId) (pred : PReg) (d : AReg) (k : KReg) : exec (.movka tile pred d k) s = execMovka tile pred d k s := rfl
theorem exec_aget (tile : TileId) (pred : PReg) (d : AReg) (vs : VReg) (w : BitVec 6) : exec (.aget tile pred d vs w) s = execAget tile pred d vs w s := rfl
theorem exec_ldb (tile : TileId) (pred : PReg) (v : VReg) (a : BankAddr) : exec (.ldb tile pred v a) s = execLdb tile pred v a s := rfl
theorem exec_stb (tile : TileId) (pred : PReg) (v : VReg) (a : BankAddr) : exec (.stb tile pred v a) s = execStb tile pred v a s := rfl
theorem exec_wld (tile : TileId) (pred : PReg) (wb : Fin 2) (a : LineAddr) (fmt : FmtCode) (g : BitVec 4) : exec (.wld tile pred wb a fmt g) s = execWld tile pred wb a fmt g s := rfl
theorem exec_wldb (tile : TileId) (pred : PReg) (wb : Fin 2) (a : BankAddr) (fmt : FmtCode) (g : BitVec 4) : exec (.wldb tile pred wb a fmt g) s = execWldb tile pred wb a fmt g s := rfl
theorem exec_mmul (tile : TileId) (pred : PReg) (wb : Fin 2) (ma : MReg) (vs : VReg) (seg : BitVec 5) (fmt : FmtCode) (zero : Bool) : exec (.mmul tile pred wb ma vs seg fmt zero) s = execMmul tile pred wb ma vs seg fmt zero s := rfl
theorem exec_mamv (tile : TileId) (pred : PReg) (ma : MReg) (vd : VReg) (half : Fin 2) : exec (.mamv tile pred ma vd half) s = execMamv tile pred ma vd half s := rfl
theorem exec_mald (tile : TileId) (pred : PReg) (ma : MReg) (vs : VReg) (half : Fin 2) : exec (.mald tile pred ma vs half) s = execMald tile pred ma vs half s := rfl
theorem exec_maclr (tile : TileId) (pred : PReg) (ma : MReg) : exec (.maclr tile pred ma) s = execMaclr tile pred ma s := rfl
theorem exec_mxwld (tile : TileId) (pred : PReg) (wb : Fin 2) (a : LineAddr) (fmt : FmtCode) (plane : BitVec 2) : exec (.mxwld tile pred wb a fmt plane) s = execMxwld tile pred wb a fmt plane s := rfl
theorem exec_mxscl (tile : TileId) (pred : PReg) (wb : Fin 2) (vs : VReg) (part : BitVec 3) : exec (.mxscl tile pred wb vs part) s = execMxscl tile pred wb vs part s := rfl
theorem exec_mxmul (tile : TileId) (pred : PReg) (wb : Fin 2) (ma : MReg) (vs : VReg) (seg : BitVec 2) (fmt : FmtCode) (zero : Bool) : exec (.mxmul tile pred wb ma vs seg fmt zero) s = execMxmul tile pred wb ma vs seg fmt zero s := rfl
theorem exec_vadd (tile : TileId) (pred : PReg) (vd va vb : VReg) (fmt : FmtCode) (rnd : BitVec 2) (sat : Bool) : exec (.vadd tile pred vd va vb fmt rnd sat) s = execVadd tile pred vd va vb fmt rnd sat s := rfl
theorem exec_vsub (tile : TileId) (pred : PReg) (vd va vb : VReg) (fmt : FmtCode) (rnd : BitVec 2) (sat : Bool) : exec (.vsub tile pred vd va vb fmt rnd sat) s = execVsub tile pred vd va vb fmt rnd sat s := rfl
theorem exec_vmul (tile : TileId) (pred : PReg) (vd va vb : VReg) (fmt : FmtCode) (rnd : BitVec 2) (sat : Bool) : exec (.vmul tile pred vd va vb fmt rnd sat) s = execVmul tile pred vd va vb fmt rnd sat s := rfl
theorem exec_vfma (tile : TileId) (pred : PReg) (vd va vb vc : VReg) (fmt : FmtCode) (rnd : BitVec 2) (sat : Bool) : exec (.vfma tile pred vd va vb vc fmt rnd sat) s = execVfma tile pred vd va vb vc fmt rnd sat s := rfl
theorem exec_vmin (tile : TileId) (pred : PReg) (vd va vb : VReg) (fmt : FmtCode) : exec (.vmin tile pred vd va vb fmt) s = execVmin tile pred vd va vb fmt s := rfl
theorem exec_vmax (tile : TileId) (pred : PReg) (vd va vb : VReg) (fmt : FmtCode) : exec (.vmax tile pred vd va vb fmt) s = execVmax tile pred vd va vb fmt s := rfl
theorem exec_vabs (tile : TileId) (pred : PReg) (vd va : VReg) (fmt : FmtCode) (sat : Bool) : exec (.vabs tile pred vd va fmt sat) s = execVabs tile pred vd va fmt sat s := rfl
theorem exec_vneg (tile : TileId) (pred : PReg) (vd va : VReg) (fmt : FmtCode) (sat : Bool) : exec (.vneg tile pred vd va fmt sat) s = execVneg tile pred vd va fmt sat s := rfl
theorem exec_vand (tile : TileId) (pred : PReg) (vd va vb : VReg) (fmt : FmtCode) : exec (.vand tile pred vd va vb fmt) s = execVand tile pred vd va vb fmt s := rfl
theorem exec_vor (tile : TileId) (pred : PReg) (vd va vb : VReg) (fmt : FmtCode) : exec (.vor tile pred vd va vb fmt) s = execVor tile pred vd va vb fmt s := rfl
theorem exec_vxor (tile : TileId) (pred : PReg) (vd va vb : VReg) (fmt : FmtCode) : exec (.vxor tile pred vd va vb fmt) s = execVxor tile pred vd va vb fmt s := rfl
theorem exec_vshl (tile : TileId) (pred : PReg) (vd va vb : VReg) (fmt : FmtCode) : exec (.vshl tile pred vd va vb fmt) s = execVshl tile pred vd va vb fmt s := rfl
theorem exec_vshr (tile : TileId) (pred : PReg) (vd va vb : VReg) (fmt : FmtCode) : exec (.vshr tile pred vd va vb fmt) s = execVshr tile pred vd va vb fmt s := rfl
theorem exec_vsra (tile : TileId) (pred : PReg) (vd va vb : VReg) (fmt : FmtCode) : exec (.vsra tile pred vd va vb fmt) s = execVsra tile pred vd va vb fmt s := rfl
theorem exec_vcmpeq (tile : TileId) (pred : PReg) (vd va vb : VReg) (fmt : FmtCode) : exec (.vcmpeq tile pred vd va vb fmt) s = execVcmpeq tile pred vd va vb fmt s := rfl
theorem exec_vcmplt (tile : TileId) (pred : PReg) (vd va vb : VReg) (fmt : FmtCode) : exec (.vcmplt tile pred vd va vb fmt) s = execVcmplt tile pred vd va vb fmt s := rfl
theorem exec_vcmple (tile : TileId) (pred : PReg) (vd va vb : VReg) (fmt : FmtCode) : exec (.vcmple tile pred vd va vb fmt) s = execVcmple tile pred vd va vb fmt s := rfl
theorem exec_vsel (tile : TileId) (pred : PReg) (vd va vb vc : VReg) (fmt : FmtCode) : exec (.vsel tile pred vd va vb vc fmt) s = execVsel tile pred vd va vb vc fmt s := rfl
theorem exec_vcvt (tile : TileId) (pred : PReg) (vd va : VReg) (fmt fmt2 : FmtCode) (sp dp : BitVec 3) (rnd : BitVec 2) : exec (.vcvt tile pred vd va fmt fmt2 sp dp rnd) s = execVcvt tile pred vd va fmt fmt2 sp dp rnd s := rfl
theorem exec_vrsum (tile : TileId) (pred : PReg) (vd va : VReg) (fmt : FmtCode) : exec (.vrsum tile pred vd va fmt) s = execVrsum tile pred vd va fmt s := rfl
theorem exec_vrmax (tile : TileId) (pred : PReg) (vd va : VReg) (fmt : FmtCode) : exec (.vrmax tile pred vd va fmt) s = execVrmax tile pred vd va fmt s := rfl
theorem exec_vrmin (tile : TileId) (pred : PReg) (vd va : VReg) (fmt : FmtCode) : exec (.vrmin tile pred vd va fmt) s = execVrmin tile pred vd va fmt s := rfl
theorem exec_vrargmax (tile : TileId) (pred : PReg) (vd va : VReg) (fmt : FmtCode) : exec (.vrargmax tile pred vd va fmt) s = execVrargmax tile pred vd va fmt s := rfl
theorem exec_vany (tile : TileId) (pred : PReg) (d : PReg) (va : VReg) : exec (.vany tile pred d va) s = execVany tile pred d va s := rfl
theorem exec_vexp (tile : TileId) (pred : PReg) (vd va : VReg) (fmt : FmtCode) : exec (.vexp tile pred vd va fmt) s = execVexp tile pred vd va fmt s := rfl
theorem exec_vlog (tile : TileId) (pred : PReg) (vd va : VReg) (fmt : FmtCode) : exec (.vlog tile pred vd va fmt) s = execVlog tile pred vd va fmt s := rfl
theorem exec_vrcp (tile : TileId) (pred : PReg) (vd va : VReg) (fmt : FmtCode) : exec (.vrcp tile pred vd va fmt) s = execVrcp tile pred vd va fmt s := rfl
theorem exec_vrsq (tile : TileId) (pred : PReg) (vd va : VReg) (fmt : FmtCode) : exec (.vrsq tile pred vd va fmt) s = execVrsq tile pred vd va fmt s := rfl
theorem exec_vtanh (tile : TileId) (pred : PReg) (vd va : VReg) (fmt : FmtCode) : exec (.vtanh tile pred vd va fmt) s = execVtanh tile pred vd va fmt s := rfl
theorem exec_vsig (tile : TileId) (pred : PReg) (vd va : VReg) (fmt : FmtCode) : exec (.vsig tile pred vd va fmt) s = execVsig tile pred vd va fmt s := rfl
theorem exec_vmov (tile : TileId) (pred : PReg) (vd va : VReg) : exec (.vmov tile pred vd va) s = execVmov tile pred vd va s := rfl
theorem exec_vbca (tile : TileId) (pred : PReg) (vd : VReg) (aa : AReg) (fmt : FmtCode) : exec (.vbca tile pred vd aa fmt) s = execVbca tile pred vd aa fmt s := rfl
theorem exec_vimm (tile : TileId) (pred : PReg) (vd : VReg) (imm : BitVec 16) (fmt : FmtCode) : exec (.vimm tile pred vd imm fmt) s = execVimm tile pred vd imm fmt s := rfl
theorem exec_vpermb (tile : TileId) (pred : PReg) (vd va vc : VReg) : exec (.vpermb tile pred vd va vc) s = execVpermb tile pred vd va vc s := rfl
theorem exec_vmxq (tile : TileId) (pred : PReg) (vd va : VReg) (fmt fmt2 : FmtCode) (sp dp : BitVec 3) (rnd : BitVec 2) : exec (.vmxq tile pred vd va fmt fmt2 sp dp rnd) s = execVmxq tile pred vd va fmt fmt2 sp dp rnd s := rfl
theorem exec_msend (tile : TileId) (pred : PReg) (src : LineSrc) (drow : Fin 16) (dcol : BitVec 5) (ch : Chan) : exec (.msend tile pred src drow dcol ch) s = execMsend tile pred src drow dcol ch s := rfl
theorem exec_recv (tile : TileId) (pred : PReg) (cls : RecvClass) (ch : Chan) (dst : LineDst) : exec (.recv tile pred cls ch dst) s = execRecv tile pred cls ch dst s := rfl
theorem exec_fsend (tile : TileId) (pred : PReg) (src : LineSrc) (part : Part) (port : PortId) (ac ar : AReg) : exec (.fsend tile pred src part port ac ar) s = execFsend tile pred src part port ac ar s := rfl
theorem exec_hwrite (tile : TileId) (pred : PReg) (src : LineSrc) (ah : AReg) (bcnt : Byte) (cmpl : Bool) (aq : AReg) : exec (.hwrite tile pred src ah bcnt cmpl aq) s = execHwrite tile pred src ah bcnt cmpl aq s := rfl
theorem exec_sreq (tile : TileId) (pred : PReg) (src : LineSrc) (ad : AReg) (rch : Chan) : exec (.sreq tile pred src ad rch) s = execSreq tile pred src ad rch s := rfl
theorem exec_resultLanding (tile : TileId) : exec (.resultLanding tile) s = execResultLanding tile s := rfl
theorem exec_waitReceiveCheck (tile : TileId) (pred : PReg) (ch : Chan) : exec (.waitReceiveCheck tile pred ch) s = execWaitReceiveCheck tile pred ch s := rfl
theorem exec_holdRelease : exec (.holdRelease) s = execHoldRelease s := rfl
theorem exec_meshLineArrival (tile : TileId) : exec (.meshLineArrival tile) s = execMeshLineArrival tile s := rfl
theorem exec_scrubRead (tile : TileId) : exec (.scrubRead tile) s = execScrubRead tile s := rfl
theorem exec_scrubWriteback (tile : TileId) : exec (.scrubWriteback tile) s = execScrubWriteback tile s := rfl
theorem exec_scrubCoverageLow (tile : TileId) (sb : Fin 16) : exec (.scrubCoverageLow tile sb) s = execScrubCoverageLow tile sb s := rfl
theorem exec_columnMapWrite (reg : Fin 6) (value : Word) : exec (.columnMapWrite reg value) s = execColumnMapWrite reg value s := rfl
theorem exec_traceEnable (value : Word) : exec (.traceEnable value) s = execTraceEnable value s := rfl
theorem exec_traceDataRead : exec (.traceDataRead) s = execTraceDataRead s := rfl
theorem exec_registerWrite (space : RegSpace) (offset : Nat) (size : Nat) (value : Word) : exec (.registerWrite space offset size value) s = execRegisterWrite space offset size value s := rfl
theorem exec_steepCommit : exec (.steepCommit) s = execSteepCommit s := rfl
theorem exec_monCommit : exec (.monCommit) s = execMonCommit s := rfl
theorem exec_gtcRead : exec (.gtcRead) s = execGtcRead s := rfl
theorem exec_lagRead : exec (.lagRead) s = execLagRead s := rfl
theorem exec_srchWorkRead : exec (.srchWorkRead) s = execSrchWorkRead s := rfl
theorem exec_steepBalRead (q : QuadId) : exec (.steepBalRead q) s = execSteepBalRead q s := rfl
theorem exec_bbTimeRead : exec (.bbTimeRead) s = execBbTimeRead s := rfl
theorem exec_egressArbitration (port : PortId) : exec (.egressArbitration port) s = execEgressArbitration port s := rfl
theorem exec_frameReceive (port : PortId) (bytes : List Byte) : exec (.frameReceive port bytes) s = execFrameReceive port bytes s := rfl
theorem exec_replayTimeout (port : PortId) : exec (.replayTimeout port) s = execReplayTimeout port s := rfl
theorem exec_fabRetryRate (port : PortId) : exec (.fabRetryRate port) s = execFabRetryRate port s := rfl
theorem exec_portEnable (port : PortId) (enable : Bool) : exec (.portEnable port enable) s = execPortEnable port enable s := rfl
theorem exec_retrain (port : PortId) : exec (.retrain port) s = execRetrain port s := rfl
theorem exec_classWrite (port : PortId) (cls : BitVec 2) : exec (.classWrite port cls) s = execClassWrite port cls s := rfl
theorem exec_partnerDetected (port : PortId) : exec (.partnerDetected port) s = execPartnerDetected port s := rfl
theorem exec_detectTimeout (port : PortId) : exec (.detectTimeout port) s = execDetectTimeout port s := rfl
theorem exec_lock (port : PortId) (locked : BitVec 8) : exec (.lock port locked) s = execLock port locked s := rfl
theorem exec_equalise (port : PortId) (good : BitVec 8) : exec (.equalise port good) s = execEqualise port good s := rfl
theorem exec_align (port : PortId) (peerChip : ChipNo) (peerPort : PortId) (peerDsn : Dword) (peerFailed : BitVec 8) : exec (.align port peerChip peerPort peerDsn peerFailed) s = execAlign port peerChip peerPort peerDsn peerFailed s := rfl
theorem exec_measure (port : PortId) (delayNs : BitVec 8) : exec (.measure port delayNs) s = execMeasure port delayNs s := rfl
theorem exec_confirm (port : PortId) : exec (.confirm port) s = execConfirm port s := rfl
theorem exec_trainPhaseTimeout (port : PortId) : exec (.trainPhaseTimeout port) s = execTrainPhaseTimeout port s := rfl
theorem exec_laneFail (port : PortId) (lane : LaneId) : exec (.laneFail port lane) s = execLaneFail port lane s := rfl
theorem exec_retrainPatternSeen (port : PortId) : exec (.retrainPatternSeen port) s = execRetrainPatternSeen port s := rfl
theorem exec_retrainDone (port : PortId) (peerFailed : BitVec 8) : exec (.retrainDone port peerFailed) s = execRetrainDone port peerFailed s := rfl
theorem exec_retrainTimeout (port : PortId) : exec (.retrainTimeout port) s = execRetrainTimeout port s := rfl
theorem exec_downTimeout (port : PortId) : exec (.downTimeout port) s = execDownTimeout port s := rfl
theorem exec_trayIndexWrite (value : Word) : exec (.trayIndexWrite value) s = execTrayIndexWrite value s := rfl
theorem exec_scheduledLineArrival (port : PortId) : exec (.scheduledLineArrival port) s = execScheduledLineArrival port s := rfl
theorem exec_arrivalGateRelease (port : PortId) : exec (.arrivalGateRelease port) s = execArrivalGateRelease port s := rfl
theorem exec_segmentIssue : exec (.segmentIssue) s = execSegmentIssue s := rfl
theorem exec_rreq (path : HostPath) : exec (.rreq path) s = execRreq path s := rfl
theorem exec_wreq (path : HostPath) : exec (.wreq path) s = execWreq path s := rfl
theorem exec_wdata (path : HostPath) : exec (.wdata path) s = execWdata path s := rfl
theorem exec_rresp (path : HostPath) : exec (.rresp path) s = execRresp path s := rfl
theorem exec_wresp (path : HostPath) : exec (.wresp path) s = execWresp path s := rfl
theorem exec_transactionTimeout (tag : Fin 256) : exec (.transactionTimeout tag) s = execTransactionTimeout tag s := rfl
theorem exec_wreqTimeout (src : ChipNo) (tag : Fin 256) : exec (.wreqTimeout src tag) s = execWreqTimeout src tag s := rfl
theorem exec_managementFrame (port : PortId) (send : Option (Dword × Line)) : exec (.managementFrame port send) s = execManagementFrame port send s := rfl
theorem exec_syncSend : exec (.syncSend) s = execSyncSend s := rfl
theorem exec_syncFrame (port : PortId) : exec (.syncFrame port) s = execSyncFrame port s := rfl
theorem exec_parentLoss : exec (.parentLoss) s = execParentLoss s := rfl
theorem exec_parentRelock : exec (.parentRelock) s = execParentRelock s := rfl
theorem exec_rootFailover : exec (.rootFailover) s = execRootFailover s := rfl
theorem exec_launchPour (port : PortId) : exec (.launchPour port) s = execLaunchPour port s := rfl
theorem exec_abortPour (port : PortId) : exec (.abortPour port) s = execAbortPour port s := rfl
theorem exec_lagFrame (port : PortId) : exec (.lagFrame port) s = execLagFrame port s := rfl
theorem exec_programStart : exec (.programStart) s = execProgramStart s := rfl
theorem exec_runEnd : exec (.runEnd) s = execRunEnd s := rfl
theorem exec_holdTimeout : exec (.holdTimeout) s = execHoldTimeout s := rfl
theorem exec_forecastEffect (q : QuadId) : exec (.forecastEffect q) s = execForecastEffect q s := rfl
theorem exec_broad : exec (.broad) s = execBroad s := rfl
theorem exec_ordered : exec (.ordered) s = execOrdered s := rfl
theorem exec_memwrite : exec (.memwrite) s = execMemwrite s := rfl
theorem exec_memread : exec (.memread) s = execMemread s := rfl
theorem exec_searchBudgetEnd : exec (.searchBudgetEnd) s = execSearchBudgetEnd s := rfl
theorem exec_searchResult : exec (.searchResult) s = execSearchResult s := rfl
theorem exec_searchScrub : exec (.searchScrub) s = execSearchScrub s := rfl
theorem exec_sqTail (qp : QpId) (value : Word) : exec (.sqTail qp value) s = execSqTail qp value s := rfl
theorem exec_cqHead (qp : QpId) (value : Word) : exec (.cqHead qp value) s = execCqHead qp value s := rfl
theorem exec_push (qp : QpId) (offset : Nat) (bytes : List Byte) : exec (.push qp offset bytes) s = execPush qp offset bytes s := rfl
theorem exec_hostReadCompletion (qp : QpId) (result : ReadResult) : exec (.hostReadCompletion qp result) s = execHostReadCompletion qp result s := rfl
theorem exec_completionTimeout (qp : QpId) : exec (.completionTimeout qp) s = execCompletionTimeout qp s := rfl
theorem exec_nopDescriptor (qp : QpId) : exec (.nopDescriptor qp) s = execNopDescriptor qp s := rfl
theorem exec_write (qp : QpId) : exec (.write qp) s = execWrite qp s := rfl
theorem exec_read (qp : QpId) : exec (.read qp) s = execRead qp s := rfl
theorem exec_input (qp : QpId) : exec (.input qp) s = execInput qp s := rfl
theorem exec_launch (qp : QpId) : exec (.launch qp) s = execLaunch qp s := rfl
theorem exec_stop (qp : QpId) : exec (.stop qp) s = execStop qp s := rfl
theorem exec_globalWrite (qp : QpId) : exec (.globalWrite qp) s = execGlobalWrite qp s := rfl
theorem exec_globalRead (qp : QpId) : exec (.globalRead qp) s = execGlobalRead qp s := rfl
theorem exec_cancel (qp : QpId) : exec (.cancel qp) s = execCancel qp s := rfl
theorem exec_fence (qp : QpId) : exec (.fence qp) s = execFence qp s := rfl
theorem exec_search (qp : QpId) : exec (.search qp) s = execSearch qp s := rfl
theorem exec_timeQuery (qp : QpId) : exec (.timeQuery qp) s = execTimeQuery qp s := rfl
theorem exec_hostWriteSend : exec (.hostWriteSend) s = execHostWriteSend s := rfl
theorem exec_completionPost (qp : QpId) : exec (.completionPost qp) s = execCompletionPost qp s := rfl
theorem exec_interruptTimer (qp : QpId) : exec (.interruptTimer qp) s = execInterruptTimer qp s := rfl
theorem exec_qpEnable (qp : QpId) : exec (.qpEnable qp) s = execQpEnable qp s := rfl
theorem exec_qpDisable (qp : QpId) : exec (.qpDisable qp) s = execQpDisable qp s := rfl
theorem exec_qpDrainEnd (qp : QpId) : exec (.qpDrainEnd qp) s = execQpDrainEnd qp s := rfl
theorem exec_windowAccess (offset : BitVec 28) (op : WinOp) : exec (.windowAccess offset op) s = execWindowAccess offset op s := rfl
theorem exec_functionLevelReset : exec (.functionLevelReset) s = execFunctionLevelReset s := rfl
theorem exec_d3hot : exec (.d3hot) s = execD3hot s := rfl
theorem exec_fundamentalReset : exec (.fundamentalReset) s = execFundamentalReset s := rfl
theorem exec_linkDown : exec (.linkDown) s = execLinkDown s := rfl
theorem exec_crcStart : exec (.crcStart) s = execCrcStart s := rfl
theorem exec_crcDone : exec (.crcDone) s = execCrcDone s := rfl
theorem exec_faultLatch (c : CollectorId) : exec (.faultLatch c) s = execFaultLatch c s := rfl
theorem exec_nmiDelivery : exec (.nmiDelivery) s = execNmiDelivery s := rfl
theorem exec_nmiPop : exec (.nmiPop) s = execNmiPop s := rfl
theorem exec_escalationTimerExpiry (c : CollectorId) (src : SourceId) : exec (.escalationTimerExpiry c src) s = execEscalationTimerExpiry c src s := rfl
theorem exec_autoClear (c : CollectorId) (src : SourceId) : exec (.autoClear c src) s = execAutoClear c src s := rfl
theorem exec_fcAck (c : CollectorId) (hi : Bool) (mask : Word) : exec (.fcAck c hi mask) s = execFcAck c hi mask s := rfl
theorem exec_fcInject (c : CollectorId) (value : Word) : exec (.fcInject c value) s = execFcInject c value s := rfl
theorem exec_fcSrcCfgWrite (c : CollectorId) (src : SourceId) (value : Word) : exec (.fcSrcCfgWrite c src value) s = execFcSrcCfgWrite c src value s := rfl
theorem exec_cscWatchdog : exec (.cscWatchdog) s = execCscWatchdog s := rfl
theorem exec_clockLoss : exec (.clockLoss) s = execClockLoss s := rfl
theorem exec_domainRequest (value : Word) : exec (.domainRequest value) s = execDomainRequest value s := rfl
theorem exec_domainPowerOnEnd (d : Domain) : exec (.domainPowerOnEnd d) s = execDomainPowerOnEnd d s := rfl
theorem exec_domainPowerOffEnd (d : Domain) : exec (.domainPowerOffEnd d) s = execDomainPowerOffEnd d s := rfl
theorem exec_lowIdleEntry : exec (.lowIdleEntry) s = execLowIdleEntry s := rfl
theorem exec_lowIdleExit : exec (.lowIdleExit) s = execLowIdleExit s := rfl
theorem exec_keepAliveRateReturn : exec (.keepAliveRateReturn) s = execKeepAliveRateReturn s := rfl
theorem exec_park : exec (.park) s = execPark s := rfl
theorem exec_retentionExit : exec (.retentionExit) s = execRetentionExit s := rfl
theorem exec_retLost : exec (.retLost) s = execRetLost s := rfl
theorem exec_opGo : exec (.opGo) s = execOpGo s := rfl
theorem exec_opTransitionStart : exec (.opTransitionStart) s = execOpTransitionStart s := rfl
theorem exec_opTransitionEnd (pllLocked : Bool) (vcoreInRange : Bool) : exec (.opTransitionEnd pllLocked vcoreInRange) s = execOpTransitionEnd pllLocked vcoreInRange s := rfl
theorem exec_supplyWarning (rail : MonRail) : exec (.supplyWarning rail) s = execSupplyWarning rail s := rfl
theorem exec_supplyRecovered (rail : MonRail) : exec (.supplyRecovered rail) s = execSupplyRecovered rail s := rfl
theorem exec_supplyReset (rail : MonRail) : exec (.supplyReset rail) s = execSupplyReset rail s := rfl
theorem exec_thermalScan (milliC : Vector Int 16) : exec (.thermalScan milliC) s = execThermalScan milliC s := rfl
theorem exec_aonReset : exec (.aonReset) s = execAonReset s := rfl
theorem exec_trayInputRise : exec (.trayInputRise) s = execTrayInputRise s := rfl
theorem exec_inputWarning : exec (.inputWarning) s = execInputWarning s := rfl
theorem exec_commit (cause : CommitCause) : exec (.commit cause) s = execCommit cause s := rfl
theorem exec_dwellEnd : exec (.dwellEnd) s = execDwellEnd s := rfl
theorem exec_qualificationRestart : exec (.qualificationRestart) s = execQualificationRestart s := rfl
theorem exec_inputQualified : exec (.inputQualified) s = execInputQualified s := rfl
theorem exec_powerUpStart (slot : SlotId) : exec (.powerUpStart slot) s = execPowerUpStart slot s := rfl
theorem exec_railDwellEnd (slot : SlotId) : exec (.railDwellEnd slot) s = execRailDwellEnd slot s := rfl
theorem exec_riseTimeout (slot : SlotId) : exec (.riseTimeout slot) s = execRiseTimeout slot s := rfl
theorem exec_powerDownStart (slot : SlotId) : exec (.powerDownStart slot) s = execPowerDownStart slot s := rfl
theorem exec_parkTimeout (slot : SlotId) : exec (.parkTimeout slot) s = execParkTimeout slot s := rfl
theorem exec_railOff (slot : SlotId) : exec (.railOff slot) s = execRailOff slot s := rfl
theorem exec_dischargeTimeout (slot : SlotId) : exec (.dischargeTimeout slot) s = execDischargeTimeout slot s := rfl
theorem exec_stuck (slot : SlotId) : exec (.stuck slot) s = execStuck slot s := rfl
theorem exec_railLost (slot : SlotId) (rail : CpcRail) : exec (.railLost slot rail) s = execRailLost slot rail s := rfl
theorem exec_inputLoss (slot : SlotId) : exec (.inputLoss slot) s = execInputLoss slot s := rfl
theorem exec_valveClosedRise (slot : SlotId) : exec (.valveClosedRise slot) s = execValveClosedRise slot s := rfl
theorem exec_cpcFaultClear (slot : SlotId) : exec (.cpcFaultClear slot) s = execCpcFaultClear slot s := rfl
theorem exec_cartridgeInsert (slot : SlotId) : exec (.cartridgeInsert slot) s = execCartridgeInsert slot s := rfl
theorem exec_cartridgeRemove (slot : SlotId) : exec (.cartridgeRemove slot) s = execCartridgeRemove slot s := rfl
theorem exec_bbuInsert (usableMwh : Nat) (chargePct : Nat) : exec (.bbuInsert usableMwh chargePct) s = execBbuInsert usableMwh chargePct s := rfl
theorem exec_bbuCharged (usableMwh : Nat) : exec (.bbuCharged usableMwh) s = execBbuCharged usableMwh s := rfl
theorem exec_bbuDepleted : exec (.bbuDepleted) s = execBbuDepleted s := rfl
theorem exec_bbuFault : exec (.bbuFault) s = execBbuFault s := rfl
theorem exec_bbuRemove : exec (.bbuRemove) s = execBbuRemove s := rfl
theorem exec_powerControllerControl (slot : SlotId) (v : OnOff) : exec (.powerControllerControl slot v) s = execPowerControllerControl slot v s := rfl
theorem exec_powerIndicatorControl (slot : SlotId) (v : Indicator) : exec (.powerIndicatorControl slot v) s = execPowerIndicatorControl slot v s := rfl
theorem exec_attentionIndicatorControl (slot : SlotId) (v : Indicator) : exec (.attentionIndicatorControl slot v) s = execAttentionIndicatorControl slot v s := rfl
theorem exec_attentionButtonPressed (slot : SlotId) (ms : Nat) : exec (.attentionButtonPressed slot ms) s = execAttentionButtonPressed slot ms s := rfl
theorem exec_tmcRestart (h : TmpHdr) (bootCount : Word) : exec (.tmcRestart h bootCount) s = execTmcRestart h bootCount s := rfl
theorem exec_slotPower (h : TmpHdr) (mask : BitVec 16) (order : Order) (noNotice : Bool) : exec (.slotPower h mask order noNotice) s = execSlotPower h mask order noNotice s := rfl
theorem exec_defer (h : TmpHdr) (notice : Byte) : exec (.defer h notice) s = execDefer h notice s := rfl
theorem exec_deferDone (h : TmpHdr) (notice : Byte) : exec (.deferDone h notice) s = execDeferDone h notice s := rfl
theorem exec_noticeExpiry : exec (.noticeExpiry) s = execNoticeExpiry s := rfl
theorem exec_deferTimeout : exec (.deferTimeout) s = execDeferTimeout s := rfl
theorem exec_coolDemand (h : TmpHdr) (flow : BitVec 16) (fan pump : Byte) : exec (.coolDemand h flow fan pump) s = execCoolDemand h flow fan pump s := rfl
theorem exec_sensorRead (h : TmpHdr) (first : Nat) (count : Nat) : exec (.sensorRead h first count) s = execSensorRead h first count s := rfl
theorem exec_logRead (h : TmpHdr) (number : Word) (count : Nat) : exec (.logRead h number count) s = execLogRead h number count s := rfl
theorem exec_faultAck (h : TmpHdr) (mask : Dword) : exec (.faultAck h mask) s = execFaultAck h mask s := rfl
theorem exec_chipRead (h : TmpHdr) (slot : SlotId) (offset : BitVec 16) (count : Nat) : exec (.chipRead h slot offset count) s = execChipRead h slot offset count s := rfl
theorem exec_chipWrite (h : TmpHdr) (slot : SlotId) (offset : BitVec 16) (value : Word) : exec (.chipWrite h slot offset value) s = execChipWrite h slot offset value s := rfl
theorem exec_cableInfo (h : TmpHdr) (cage : Nat) : exec (.cableInfo h cage) s = execCableInfo h cage s := rfl
theorem exec_dhcpTimeout : exec (.dhcpTimeout) s = execDhcpTimeout s := rfl
theorem exec_sensorScan (criticalOnly : Bool) (readings : List (Fin 212 × Int)) : exec (.sensorScan criticalOnly readings) s = execSensorScan criticalOnly readings s := rfl
theorem exec_logRecordWrite : exec (.logRecordWrite) s = execLogRecordWrite s := rfl
theorem exec_watchdogService : exec (.watchdogService) s = execWatchdogService s := rfl
theorem exec_watchdogExpiry : exec (.watchdogExpiry) s = execWatchdogExpiry s := rfl
theorem exec_expiredClear : exec (.expiredClear) s = execExpiredClear s := rfl
theorem exec_cardReset : exec (.cardReset) s = execCardReset s := rfl
theorem exec_baseBoardReset : exec (.baseBoardReset) s = execBaseBoardReset s := rfl
theorem exec_move (axis : AxisId) : exec (.move axis) s = execMove axis s := rfl
theorem exec_axisStop (axis : AxisId) : exec (.axisStop axis) s = execAxisStop axis s := rfl
theorem exec_resume (axis : AxisId) : exec (.resume axis) s = execResume axis s := rfl
theorem exec_home (axis : AxisId) : exec (.home axis) s = execHome axis s := rfl
theorem exec_engage (axis : AxisId) : exec (.engage axis) s = execEngage axis s := rfl
theorem exec_disengage (axis : AxisId) : exec (.disengage axis) s = execDisengage axis s := rfl
theorem exec_profileLimitWrite (axis : AxisId) (reg : LimitReg) (value : Word) : exec (.profileLimitWrite axis reg value) s = execProfileLimitWrite axis reg value s := rfl
theorem exec_moveEnd (axis : AxisId) : exec (.moveEnd axis) s = execMoveEnd axis s := rfl
theorem exec_axisHalt (axis : AxisId) (pos : Nat) : exec (.axisHalt axis pos) s = execAxisHalt axis pos s := rfl
theorem exec_homeFail (axis : AxisId) : exec (.homeFail axis) s = execHomeFail axis s := rfl
theorem exec_closedSwitch (axis : AxisId) (pos : Int) : exec (.closedSwitch axis pos) s = execClosedSwitch axis pos s := rfl
theorem exec_openSwitch (axis : AxisId) (pos : Nat) : exec (.openSwitch axis pos) s = execOpenSwitch axis pos s := rfl
theorem exec_closeOverrun (axis : AxisId) : exec (.closeOverrun axis) s = execCloseOverrun axis s := rfl
theorem exec_railsOffRise (slot : SlotId) : exec (.railsOffRise slot) s = execRailsOffRise slot s := rfl
theorem exec_camSample : exec (.camSample) s = execCamSample s := rfl
theorem exec_camSwap (cam : CamId) : exec (.camSwap cam) s = execCamSwap cam s := rfl
theorem exec_tmcReq (v : Bool) : exec (.tmcReq v) s = execTmcReq v s := rfl
theorem exec_driveOutOfRange (k : DriveId) : exec (.driveOutOfRange k) s = execDriveOutOfRange k s := rfl
theorem exec_leak (bay : SlotId) : exec (.leak bay) s = execLeak bay s := rfl
theorem exec_leakClear (mask : BitVec 16) : exec (.leakClear mask) s = execLeakClear mask s := rfl
theorem exec_valvePolicyMove (slot : SlotId) (policy : BitVec 14) : exec (.valvePolicyMove slot policy) s = execValvePolicyMove slot policy s := rfl
theorem exec_twoWireRegisterWrite (slot : SlotId) (dev : TwoWireDev) (bytes : List Byte) : exec (.twoWireRegisterWrite slot dev bytes) s = execTwoWireRegisterWrite slot dev bytes s := rfl
theorem exec_twoWireRegisterRead (slot : SlotId) (dev : TwoWireDev) (o0 o1 : Byte) (clocked : Nat) : exec (.twoWireRegisterRead slot dev o0 o1 clocked) s = execTwoWireRegisterRead slot dev o0 o1 clocked s := rfl
theorem exec_managementWakeEnd : exec (.managementWakeEnd) s = execManagementWakeEnd s := rfl
theorem exec_keepAliveReturn : exec (.keepAliveReturn) s = execKeepAliveReturn s := rfl
theorem exec_twoWireTimeout : exec (.twoWireTimeout) s = execTwoWireTimeout s := rfl
theorem exec_startTransaction (bus : BusId) : exec (.startTransaction bus) s = execStartTransaction bus s := rfl
theorem exec_twoWireTransactionDone (bus : BusId) (result : TwiResult) (bytes : List Byte) : exec (.twoWireTransactionDone bus result bytes) s = execTwoWireTransactionDone bus result bytes s := rfl
theorem exec_busStuck (bus : BusId) : exec (.busStuck bus) s = execBusStuck bus s := rfl
theorem exec_recover (bus : BusId) : exec (.recover bus) s = execRecover bus s := rfl
theorem exec_recoveryRetry (bus : BusId) : exec (.recoveryRetry bus) s = execRecoveryRetry bus s := rfl
theorem exec_bufferConnect (slot : SlotId) : exec (.bufferConnect slot) s = execBufferConnect slot s := rfl
theorem exec_cmisRead (cage : CageId) (id : Option Cmis) : exec (.cmisRead cage id) s = execCmisRead cage id s := rfl
theorem exec_qualificationStart : exec (.qualificationStart) s = execQualificationStart s := rfl
theorem exec_inputWarningEnd : exec (.inputWarningEnd) s = execInputWarningEnd s := rfl
theorem exec_pcieLinkUp : exec (.pcieLinkUp) s = execPcieLinkUp s := rfl
theorem exec_moduleInsert (m : ModuleId) : exec (.moduleInsert m) s = execModuleInsert m s := rfl
theorem exec_moduleRemove (m : ModuleId) : exec (.moduleRemove m) s = execModuleRemove m s := rfl
theorem exec_tmcCardInsert : exec .tmcCardInsert s = execTmcCardInsert s := rfl
theorem exec_driveBackInRange (k : DriveId) : exec (.driveBackInRange k) s = execDriveBackInRange k s := rfl
theorem exec_inletOverTemperature (high : Bool) : exec (.inletOverTemperature high) s = execInletOverTemperature high s := rfl
theorem exec_flowLow (low : Bool) : exec (.flowLow low) s = execFlowLow low s := rfl
theorem exec_dhcpLease (address : Word) : exec (.dhcpLease address) s = execDhcpLease address s := rfl

end Sys2Proof.Machine
end

