-- ==== Sys2Proof/Laws/Memory.lean ====
section
/-! SUPPORT. Memory: its canonical form as rising addresses with no zero byte, and that every operation keeps it. -/

namespace Sys2Proof.Machine

/-- Canonical form, as an order on addresses and a condition on bytes. -/
theorem Memory.wf_iff (m : List Host.Cell) :
    Memory.wf m = true ↔ m.Pairwise (fun x y => x.1 < y.1) ∧ ∀ c ∈ m, c.2 ≠ 0 := by
  induction m with
  | nil => simp [Memory.wf]
  | cons x xs ih =>
    cases xs with
    | nil => simp [Memory.wf]
    | cons y ys =>
      have e : Memory.wf (x :: y :: ys) = (x.2 != 0 && decide (x.1 < y.1) && Memory.wf (y :: ys)) := rfl
      rw [e, Bool.and_eq_true, Bool.and_eq_true, ih]
      simp only [bne_iff_ne, decide_eq_true_eq, List.pairwise_cons, List.mem_cons, forall_eq_or_imp]
      constructor
      · rintro ⟨⟨hb, hl⟩, ⟨h1, h2⟩, h3⟩
        exact ⟨⟨⟨hl, fun c hc => lt_trans hl (h1 c hc)⟩, h1, h2⟩, hb, h3⟩
      · rintro ⟨⟨⟨hl, -⟩, h1, h2⟩, hb, h3⟩
        exact ⟨⟨hb, hl⟩, ⟨h1, h2⟩, h3⟩

theorem Memory.cells_zero (a : Nat) (bs : List Byte) : Memory.cells a (0#8 :: bs) = Memory.cells (a + 1) bs := rfl

theorem Memory.cells_ne {b : Byte} (h : b ≠ 0#8) (a : Nat) (bs : List Byte) :
    Memory.cells a (b :: bs) = (a, b) :: Memory.cells (a + 1) bs := by
  simp [Memory.cells, h]

/-- The cells of a run of bytes lie in that run, rising, none of them zero. -/
theorem Memory.cells_bounds (bs : List Byte) :
    ∀ a, ∀ c ∈ Memory.cells a bs, a ≤ c.1 ∧ c.1 < a + bs.length ∧ c.2 ≠ 0 := by
  induction bs with
  | nil => simp [Memory.cells]
  | cons b bs ih =>
    intro a c hc
    rw [List.length_cons]
    by_cases h : b = 0#8
    · subst h
      obtain ⟨h1, h2, h3⟩ := ih (a + 1) c hc
      exact ⟨by omega, by omega, h3⟩
    · rw [Memory.cells_ne h, List.mem_cons] at hc
      rcases hc with rfl | hc
      · exact ⟨le_rfl, by simp, h⟩
      · obtain ⟨h1, h2, h3⟩ := ih (a + 1) c hc
        exact ⟨by omega, by omega, h3⟩

theorem Memory.cells_rising (bs : List Byte) : ∀ a, (Memory.cells a bs).Pairwise (fun x y => x.1 < y.1) := by
  induction bs with
  | nil => simp [Memory.cells]
  | cons b bs ih =>
    intro a
    by_cases h : b = 0#8
    · subst h; exact ih (a + 1)
    · rw [Memory.cells_ne h, List.pairwise_cons]
      exact ⟨fun c hc => (Memory.cells_bounds bs (a + 1) c hc).1, ih (a + 1)⟩

/-- Past the cells below an address, a rising list holds only cells from that address on. -/
theorem Memory.dropWhile_ge (m : List Host.Cell) (a : Nat) (h : m.Pairwise (fun x y => x.1 < y.1)) :
    ∀ c ∈ m.dropWhile (fun c => decide (c.1 < a)), a ≤ c.1 := by
  induction m with
  | nil => simp
  | cons x xs ih =>
    rw [List.pairwise_cons] at h
    by_cases hx : x.1 < a
    · simpa [List.dropWhile_cons, hx] using ih h.2
    · simp only [List.dropWhile_cons, hx, decide_false, Bool.false_eq_true, if_false]
      intro c hc
      rcases List.mem_cons.1 hc with rfl | hc
      · omega
      · have := h.1 c hc; omega

/-- A write keeps the canonical form. -/
theorem Memory.write_wf (m : List Host.Cell) (a : Nat) (bs : List Byte) (h : Memory.wf m = true) :
    Memory.wf (Memory.write m a bs) = true := by
  rw [Memory.wf_iff] at h ⊢
  obtain ⟨hp, hz⟩ := h
  have low : ∀ c ∈ m.takeWhile (fun c => decide (c.1 < a)), c.1 < a := fun c hc => by
    simpa using List.mem_takeWhile_imp hc
  have high := Memory.dropWhile_ge m (a + bs.length) hp
  have mid := Memory.cells_bounds bs a
  refine ⟨?_, ?_⟩
  · rw [Memory.write, List.pairwise_append, List.pairwise_append]
    refine ⟨⟨hp.sublist (List.takeWhile_sublist _), Memory.cells_rising bs a, fun x hx y hy => ?_⟩,
      hp.sublist (List.dropWhile_sublist _), fun x hx y hy => ?_⟩
    · have := low x hx; have := (mid y hy).1; omega
    · have := high y hy
      rcases List.mem_append.1 hx with hx | hx
      · have := low x hx; omega
      · have := (mid x hx).2.1; omega
  · intro c hc
    rcases List.mem_append.1 hc with hc | hc
    · rcases List.mem_append.1 hc with hc | hc
      · exact hz c ((List.takeWhile_sublist _).subset hc)
      · exact (mid c hc).2.2
    · exact hz c ((List.dropWhile_sublist _).subset hc)

/-- A masked write of a line keeps the canonical form. -/
theorem Memory.writeLine_wf (m : List Host.Cell) (a : Nat) (l : Line) (mask : Word) (h : Memory.wf m = true) :
    Memory.wf (Memory.writeLine m a l mask) = true := Memory.write_wf m a _ h

end Sys2Proof.Machine
end

