-- ==== Sys2Proof/Laws/State.lean ====
section
/-! SUPPORT. One lemma per field per update of the state: what an update leaves, and what it makes of its own field. -/

namespace Sys2Proof.Machine

/-! Sys: the chip, the tray, outputs, free values. -/

variable (y : Sys) (c : Chip) (t : Tray) (s : State)

@[simp] theorem Sys.onChip_now (f : Chip → Chip) : (Sys.onChip f y).now = y.now := rfl
@[simp] theorem Sys.onChip_free (f : Chip → Chip) : (Sys.onChip f y).free = y.free := rfl
@[simp] theorem Sys.onChip_tray (f : Chip → Chip) : (Sys.onChip f y).tray = y.tray := rfl
@[simp] theorem Sys.onChip_ecc (f : Chip → Chip) : (Sys.onChip f y).ecc = y.ecc := rfl
@[simp] theorem Sys.onChip_out (f : Chip → Chip) : (Sys.onChip f y).out = y.out := rfl
@[simp] theorem Sys.onChip_chip (f : Chip → Chip) : (Sys.onChip f y).chip = f y.chip := rfl
@[simp] theorem Sys.onTray_now (f : Tray → Tray) : (Sys.onTray f y).now = y.now := rfl
@[simp] theorem Sys.onTray_free (f : Tray → Tray) : (Sys.onTray f y).free = y.free := rfl
@[simp] theorem Sys.onTray_chip (f : Tray → Tray) : (Sys.onTray f y).chip = y.chip := rfl
@[simp] theorem Sys.onTray_ecc (f : Tray → Tray) : (Sys.onTray f y).ecc = y.ecc := rfl
@[simp] theorem Sys.onTray_out (f : Tray → Tray) : (Sys.onTray f y).out = y.out := rfl
@[simp] theorem Sys.onTray_tray (f : Tray → Tray) : (Sys.onTray f y).tray = f y.tray := rfl
@[simp] theorem Sys.emit_now (o : Output) : (Sys.emit o y).now = y.now := rfl
@[simp] theorem Sys.emit_free (o : Output) : (Sys.emit o y).free = y.free := rfl
@[simp] theorem Sys.emit_chip (o : Output) : (Sys.emit o y).chip = y.chip := rfl
@[simp] theorem Sys.emit_tray (o : Output) : (Sys.emit o y).tray = y.tray := rfl
@[simp] theorem Sys.emit_ecc (o : Output) : (Sys.emit o y).ecc = y.ecc := rfl
@[simp] theorem Sys.emit_out (o : Output) : (Sys.emit o y).out = y.out ++ [o] := rfl
@[simp] theorem Sys.emits_now (os : List Output) : (Sys.emits os y).now = y.now := rfl
@[simp] theorem Sys.emits_free (os : List Output) : (Sys.emits os y).free = y.free := rfl
@[simp] theorem Sys.emits_chip (os : List Output) : (Sys.emits os y).chip = y.chip := rfl
@[simp] theorem Sys.emits_tray (os : List Output) : (Sys.emits os y).tray = y.tray := rfl
@[simp] theorem Sys.emits_ecc (os : List Output) : (Sys.emits os y).ecc = y.ecc := rfl
@[simp] theorem Sys.emits_out (os : List Output) : (Sys.emits os y).out = y.out ++ os := rfl
@[simp] theorem Sys.fresh_fst : y.fresh.1 = y.free := rfl
@[simp] theorem Sys.fresh_now : y.fresh.2.now = y.now := rfl
@[simp] theorem Sys.fresh_free : y.fresh.2.free = y.free + 1 := rfl
@[simp] theorem Sys.fresh_chip : y.fresh.2.chip = y.chip := rfl
@[simp] theorem Sys.fresh_tray : y.fresh.2.tray = y.tray := rfl
@[simp] theorem Sys.fresh_ecc : y.fresh.2.ecc = y.ecc := rfl
@[simp] theorem Sys.fresh_out : y.fresh.2.out = y.out := rfl

/-! State. -/

@[simp] theorem State.withChip_mem (f : Chip → Chip) : (State.withChip f s).mem = s.mem := rfl
@[simp] theorem State.withChip_pending (f : Chip → Chip) : (State.withChip f s).pending = s.pending := rfl
@[simp] theorem State.withTray_mem (f : Tray → Tray) : (State.withTray f s).mem = s.mem := rfl
@[simp] theorem State.withTray_pending (f : Tray → Tray) : (State.withTray f s).pending = s.pending := rfl
@[simp] theorem State.puts_mem (o : Output) : (State.puts o s).mem = s.mem := rfl
@[simp] theorem State.puts_pending (o : Output) : (State.puts o s).pending = s.pending := rfl
@[simp] theorem State.passed_mem (n : Nat) : (State.passed n s).mem = s.mem := rfl
@[simp] theorem State.passed_pending (n : Nat) : (State.passed n s).pending = s.pending := rfl
@[simp] theorem State.withChip_sys (f : Chip → Chip) : (State.withChip f s).sys = s.sys.onChip f := rfl
@[simp] theorem State.withTray_sys (f : Tray → Tray) : (State.withTray f s).sys = s.sys.onTray f := rfl
@[simp] theorem State.puts_sys (o : Output) : (State.puts o s).sys = s.sys.emit o := rfl
@[simp] theorem State.passed_sys (n : Nat) : (State.passed n s).sys = s.sys.await n := rfl
@[simp] theorem State.settled_sys : s.settled.sys = settleTray s.sys := rfl
@[simp] theorem State.settled_mem : s.settled.mem = s.mem := rfl
@[simp] theorem State.settled_pending : s.settled.pending = s.pending := rfl

/-! Chip. -/

@[simp] theorem Chip.onTile_map (p : Fin 320) (f : Tile → Tile) : (Chip.onTile p f c).map = c.map := rfl
@[simp] theorem Chip.onTile_chk (p : Fin 320) (f : Tile → Tile) : (Chip.onTile p f c).chk = c.chk := rfl
@[simp] theorem Chip.onTile_fc (p : Fin 320) (f : Tile → Tile) : (Chip.onTile p f c).fc = c.fc := rfl
@[simp] theorem Chip.onTile_time (p : Fin 320) (f : Tile → Tile) : (Chip.onTile p f c).time = c.time := rfl
@[simp] theorem Chip.onTile_fab (p : Fin 320) (f : Tile → Tile) : (Chip.onTile p f c).fab = c.fab := rfl
@[simp] theorem Chip.onTile_srch (p : Fin 320) (f : Tile → Tile) : (Chip.onTile p f c).srch = c.srch := rfl
@[simp] theorem Chip.onTile_hif (p : Fin 320) (f : Tile → Tile) : (Chip.onTile p f c).hif = c.hif := rfl
@[simp] theorem Chip.onTile_pwr (p : Fin 320) (f : Tile → Tile) : (Chip.onTile p f c).pwr = c.pwr := rfl
@[simp] theorem Chip.onTile_mgt (p : Fin 320) (f : Tile → Tile) : (Chip.onTile p f c).mgt = c.mgt := rfl
@[simp] theorem Chip.onPort_cmp (p : PortId) (f : Port → Port) : (Chip.onPort p f c).cmp = c.cmp := rfl
@[simp] theorem Chip.onPort_map (p : PortId) (f : Port → Port) : (Chip.onPort p f c).map = c.map := rfl
@[simp] theorem Chip.onPort_chk (p : PortId) (f : Port → Port) : (Chip.onPort p f c).chk = c.chk := rfl
@[simp] theorem Chip.onPort_fc (p : PortId) (f : Port → Port) : (Chip.onPort p f c).fc = c.fc := rfl
@[simp] theorem Chip.onPort_time (p : PortId) (f : Port → Port) : (Chip.onPort p f c).time = c.time := rfl
@[simp] theorem Chip.onPort_srch (p : PortId) (f : Port → Port) : (Chip.onPort p f c).srch = c.srch := rfl
@[simp] theorem Chip.onPort_hif (p : PortId) (f : Port → Port) : (Chip.onPort p f c).hif = c.hif := rfl
@[simp] theorem Chip.onPort_pwr (p : PortId) (f : Port → Port) : (Chip.onPort p f c).pwr = c.pwr := rfl
@[simp] theorem Chip.onPort_mgt (p : PortId) (f : Port → Port) : (Chip.onPort p f c).mgt = c.mgt := rfl
@[simp] theorem Chip.onQp_cmp (q : QpId) (f : QueuePair → QueuePair) : (Chip.onQp q f c).cmp = c.cmp := rfl
@[simp] theorem Chip.onQp_map (q : QpId) (f : QueuePair → QueuePair) : (Chip.onQp q f c).map = c.map := rfl
@[simp] theorem Chip.onQp_chk (q : QpId) (f : QueuePair → QueuePair) : (Chip.onQp q f c).chk = c.chk := rfl
@[simp] theorem Chip.onQp_fc (q : QpId) (f : QueuePair → QueuePair) : (Chip.onQp q f c).fc = c.fc := rfl
@[simp] theorem Chip.onQp_time (q : QpId) (f : QueuePair → QueuePair) : (Chip.onQp q f c).time = c.time := rfl
@[simp] theorem Chip.onQp_fab (q : QpId) (f : QueuePair → QueuePair) : (Chip.onQp q f c).fab = c.fab := rfl
@[simp] theorem Chip.onQp_srch (q : QpId) (f : QueuePair → QueuePair) : (Chip.onQp q f c).srch = c.srch := rfl
@[simp] theorem Chip.onQp_pwr (q : QpId) (f : QueuePair → QueuePair) : (Chip.onQp q f c).pwr = c.pwr := rfl
@[simp] theorem Chip.onQp_mgt (q : QpId) (f : QueuePair → QueuePair) : (Chip.onQp q f c).mgt = c.mgt := rfl
@[simp] theorem Chip.onPwr_cmp (f : Power → Power) : (Chip.onPwr f c).cmp = c.cmp := rfl
@[simp] theorem Chip.onPwr_map (f : Power → Power) : (Chip.onPwr f c).map = c.map := rfl
@[simp] theorem Chip.onPwr_chk (f : Power → Power) : (Chip.onPwr f c).chk = c.chk := rfl
@[simp] theorem Chip.onPwr_fc (f : Power → Power) : (Chip.onPwr f c).fc = c.fc := rfl
@[simp] theorem Chip.onPwr_time (f : Power → Power) : (Chip.onPwr f c).time = c.time := rfl
@[simp] theorem Chip.onPwr_fab (f : Power → Power) : (Chip.onPwr f c).fab = c.fab := rfl
@[simp] theorem Chip.onPwr_srch (f : Power → Power) : (Chip.onPwr f c).srch = c.srch := rfl
@[simp] theorem Chip.onPwr_hif (f : Power → Power) : (Chip.onPwr f c).hif = c.hif := rfl
@[simp] theorem Chip.onPwr_mgt (f : Power → Power) : (Chip.onPwr f c).mgt = c.mgt := rfl
@[simp] theorem Chip.raise_cmp (n : Nat) (o : Owner) : (Chip.raise n o c).cmp = c.cmp := rfl
@[simp] theorem Chip.raise_map (n : Nat) (o : Owner) : (Chip.raise n o c).map = c.map := rfl
@[simp] theorem Chip.raise_chk (n : Nat) (o : Owner) : (Chip.raise n o c).chk = c.chk := rfl
@[simp] theorem Chip.raise_time (n : Nat) (o : Owner) : (Chip.raise n o c).time = c.time := rfl
@[simp] theorem Chip.raise_fab (n : Nat) (o : Owner) : (Chip.raise n o c).fab = c.fab := rfl
@[simp] theorem Chip.raise_srch (n : Nat) (o : Owner) : (Chip.raise n o c).srch = c.srch := rfl
@[simp] theorem Chip.raise_hif (n : Nat) (o : Owner) : (Chip.raise n o c).hif = c.hif := rfl
@[simp] theorem Chip.raise_pwr (n : Nat) (o : Owner) : (Chip.raise n o c).pwr = c.pwr := rfl
@[simp] theorem Chip.raise_mgt (n : Nat) (o : Owner) : (Chip.raise n o c).mgt = c.mgt := rfl
@[simp] theorem Chip.onTile_cmp_pcc (p : Fin 320) (f : Tile → Tile) : (Chip.onTile p f c).cmp.pcc = c.cmp.pcc := rfl
@[simp] theorem Chip.onTile_cmp_cycles (p : Fin 320) (f : Tile → Tile) : (Chip.onTile p f c).cmp.cycles = c.cmp.cycles := rfl
@[simp] theorem Chip.onTile_cmp_started (p : Fin 320) (f : Tile → Tile) : (Chip.onTile p f c).cmp.started = c.cmp.started := rfl
@[simp] theorem Chip.onTile_cmp_holds (p : Fin 320) (f : Tile → Tile) : (Chip.onTile p f c).cmp.holds = c.cmp.holds := rfl
@[simp] theorem Chip.onTile_cmp_waits (p : Fin 320) (f : Tile → Tile) : (Chip.onTile p f c).cmp.waits = c.cmp.waits := rfl
@[simp] theorem Chip.onTile_cmp_mesh (p : Fin 320) (f : Tile → Tile) : (Chip.onTile p f c).cmp.mesh = c.cmp.mesh := rfl
@[simp] theorem Chip.onPort_fab_slot (p : PortId) (f : Port → Port) : (Chip.onPort p f c).fab.slot = c.fab.slot := rfl
@[simp] theorem Chip.onPort_fab_trayIdx (p : PortId) (f : Port → Port) : (Chip.onPort p f c).fab.trayIdx = c.fab.trayIdx := rfl
@[simp] theorem Chip.onPort_fab_rtX (p : PortId) (f : Port → Port) : (Chip.onPort p f c).fab.rtX = c.fab.rtX := rfl
@[simp] theorem Chip.onPort_fab_rtY (p : PortId) (f : Port → Port) : (Chip.onPort p f c).fab.rtY = c.fab.rtY := rfl
@[simp] theorem Chip.onPort_fab_rtZ (p : PortId) (f : Port → Port) : (Chip.onPort p f c).fab.rtZ = c.fab.rtZ := rfl
@[simp] theorem Chip.onPort_fab_rtW (p : PortId) (f : Port → Port) : (Chip.onPort p f c).fab.rtW = c.fab.rtW := rfl
@[simp] theorem Chip.onPort_fab_chipMap (p : PortId) (f : Port → Port) : (Chip.onPort p f c).fab.chipMap = c.fab.chipMap := rfl
@[simp] theorem Chip.onPort_fab_hostTimeout (p : PortId) (f : Port → Port) : (Chip.onPort p f c).fab.hostTimeout = c.fab.hostTimeout := rfl
@[simp] theorem Chip.onPort_fab_hostDrop (p : PortId) (f : Port → Port) : (Chip.onPort p f c).fab.hostDrop = c.fab.hostDrop := rfl
@[simp] theorem Chip.onPort_fab_captCause (p : PortId) (f : Port → Port) : (Chip.onPort p f c).fab.captCause = c.fab.captCause := rfl
@[simp] theorem Chip.onPort_fab_captPort (p : PortId) (f : Port → Port) : (Chip.onPort p f c).fab.captPort = c.fab.captPort := rfl
@[simp] theorem Chip.onPort_fab_captTile (p : PortId) (f : Port → Port) : (Chip.onPort p f c).fab.captTile = c.fab.captTile := rfl
@[simp] theorem Chip.onPort_fab_captValid (p : PortId) (f : Port → Port) : (Chip.onPort p f c).fab.captValid = c.fab.captValid := rfl
@[simp] theorem Chip.onPort_fab_routeCount (p : PortId) (f : Port → Port) : (Chip.onPort p f c).fab.routeCount = c.fab.routeCount := rfl
@[simp] theorem Chip.onPort_fab_waiting (p : PortId) (f : Port → Port) : (Chip.onPort p f c).fab.waiting = c.fab.waiting := rfl
@[simp] theorem Chip.onPort_fab_txns (p : PortId) (f : Port → Port) : (Chip.onPort p f c).fab.txns = c.fab.txns := rfl
@[simp] theorem Chip.onPort_fab_responder (p : PortId) (f : Port → Port) : (Chip.onPort p f c).fab.responder = c.fab.responder := rfl
@[simp] theorem Chip.onQp_hif_bar4En (q : QpId) (f : QueuePair → QueuePair) : (Chip.onQp q f c).hif.bar4En = c.hif.bar4En := rfl
@[simp] theorem Chip.onQp_hif_bar4On (q : QpId) (f : QueuePair → QueuePair) : (Chip.onQp q f c).hif.bar4On = c.hif.bar4On := rfl
@[simp] theorem Chip.onQp_hif_winBase (q : QpId) (f : QueuePair → QueuePair) : (Chip.onQp q f c).hif.winBase = c.hif.winBase := rfl
@[simp] theorem Chip.onQp_hif_errCause (q : QpId) (f : QueuePair → QueuePair) : (Chip.onQp q f c).hif.errCause = c.hif.errCause := rfl
@[simp] theorem Chip.onQp_hif_errQp (q : QpId) (f : QueuePair → QueuePair) : (Chip.onQp q f c).hif.errQp = c.hif.errQp := rfl
@[simp] theorem Chip.onQp_hif_errValid (q : QpId) (f : QueuePair → QueuePair) : (Chip.onQp q f c).hif.errValid = c.hif.errValid := rfl
@[simp] theorem Chip.onQp_hif_inputCount (q : QpId) (f : QueuePair → QueuePair) : (Chip.onQp q f c).hif.inputCount = c.hif.inputCount := rfl
@[simp] theorem Chip.onQp_hif_dropCount (q : QpId) (f : QueuePair → QueuePair) : (Chip.onQp q f c).hif.dropCount = c.hif.dropCount := rfl
@[simp] theorem Chip.onQp_hif_msix (q : QpId) (f : QueuePair → QueuePair) : (Chip.onQp q f c).hif.msix = c.hif.msix := rfl
@[simp] theorem Chip.onQp_hif_mailbox (q : QpId) (f : QueuePair → QueuePair) : (Chip.onQp q f c).hif.mailbox = c.hif.mailbox := rfl
@[simp] theorem Chip.onQp_hif_writes (q : QpId) (f : QueuePair → QueuePair) : (Chip.onQp q f c).hif.writes = c.hif.writes := rfl
@[simp] theorem Chip.onQp_hif_cbuf (q : QpId) (f : QueuePair → QueuePair) : (Chip.onQp q f c).hif.cbuf = c.hif.cbuf := rfl
@[simp] theorem Chip.onQp_hif_reads (q : QpId) (f : QueuePair → QueuePair) : (Chip.onQp q f c).hif.reads = c.hif.reads := rfl
@[simp] theorem Chip.onQp_hif_linkUp (q : QpId) (f : QueuePair → QueuePair) : (Chip.onQp q f c).hif.linkUp = c.hif.linkUp := rfl
@[simp] theorem Chip.onQp_hif_downRaised (q : QpId) (f : QueuePair → QueuePair) : (Chip.onQp q f c).hif.downRaised = c.hif.downRaised := rfl
@[simp] theorem Chip.onQp_hif_d3 (q : QpId) (f : QueuePair → QueuePair) : (Chip.onQp q f c).hif.d3 = c.hif.d3 := rfl
@[simp] theorem Chip.onQp_hif_pcie (q : QpId) (f : QueuePair → QueuePair) : (Chip.onQp q f c).hif.pcie = c.hif.pcie := rfl
@[simp] theorem Chip.onQp_hif_turn (q : QpId) (f : QueuePair → QueuePair) : (Chip.onQp q f c).hif.turn = c.hif.turn := rfl
@[simp] theorem Chip.onQp_hif_startAt (q : QpId) (f : QueuePair → QueuePair) : (Chip.onQp q f c).hif.startAt = c.hif.startAt := rfl
@[simp] theorem Chip.onPwr_pwr (f : Power → Power) : (Chip.onPwr f c).pwr = f c.pwr := rfl

theorem Chip.onPort_same (p : PortId) (f : Port → Port) : (Chip.onPort p f c).port p = f (c.port p) := by
  simp [Chip.onPort, Chip.port]

theorem Chip.onPort_other {p q : PortId} (h : q ≠ p) (f : Port → Port) : (Chip.onPort p f c).port q = c.port q := by
  simp [Chip.onPort, Chip.port, Fin.val_ne_of_ne h.symm]

theorem Chip.onQp_same (p : QpId) (f : QueuePair → QueuePair) : (Chip.onQp p f c).qp p = f (c.qp p) := by
  simp [Chip.onQp, Chip.qp]

theorem Chip.onQp_other {p q : QpId} (h : q ≠ p) (f : QueuePair → QueuePair) : (Chip.onQp p f c).qp q = c.qp q := by
  simp [Chip.onQp, Chip.qp, Fin.val_ne_of_ne h.symm]

/-! Tray. -/

@[simp] theorem Tray.onBay_input (n : SlotId) (f : Bay → Bay) : (Tray.onBay n f t).input = t.input := rfl
@[simp] theorem Tray.onBay_inputAt (n : SlotId) (f : Bay → Bay) : (Tray.onBay n f t).inputAt = t.inputAt := rfl
@[simp] theorem Tray.onBay_dwellDone (n : SlotId) (f : Bay → Bay) : (Tray.onBay n f t).dwellDone = t.dwellDone := rfl
@[simp] theorem Tray.onBay_bbu (n : SlotId) (f : Bay → Bay) : (Tray.onBay n f t).bbu = t.bbu := rfl
@[simp] theorem Tray.onBay_bbuEnergy (n : SlotId) (f : Bay → Bay) : (Tray.onBay n f t).bbuEnergy = t.bbuEnergy := rfl
@[simp] theorem Tray.onBay_bbuEol (n : SlotId) (f : Bay → Bay) : (Tray.onBay n f t).bbuEol = t.bbuEol := rfl
@[simp] theorem Tray.onBay_drives (n : SlotId) (f : Bay → Bay) : (Tray.onBay n f t).drives = t.drives := rfl
@[simp] theorem Tray.onBay_axes (n : SlotId) (f : Bay → Bay) : (Tray.onBay n f t).axes = t.axes := rfl
@[simp] theorem Tray.onBay_cams (n : SlotId) (f : Bay → Bay) : (Tray.onBay n f t).cams = t.cams := rfl
@[simp] theorem Tray.onBay_full (n : SlotId) (f : Bay → Bay) : (Tray.onBay n f t).full = t.full := rfl
@[simp] theorem Tray.onBay_tmcReq (n : SlotId) (f : Bay → Bay) : (Tray.onBay n f t).tmcReq = t.tmcReq := rfl
@[simp] theorem Tray.onBay_fullEnded (n : SlotId) (f : Bay → Bay) : (Tray.onBay n f t).fullEnded = t.fullEnded := rfl
@[simp] theorem Tray.onBay_byFull (n : SlotId) (f : Bay → Bay) : (Tray.onBay n f t).byFull = t.byFull := rfl
@[simp] theorem Tray.onBay_boardEeprom (n : SlotId) (f : Bay → Bay) : (Tray.onBay n f t).boardEeprom = t.boardEeprom := rfl
@[simp] theorem Tray.onBay_bbuEeprom (n : SlotId) (f : Bay → Bay) : (Tray.onBay n f t).bbuEeprom = t.bbuEeprom := rfl
@[simp] theorem Tray.onBay_twi (n : SlotId) (f : Bay → Bay) : (Tray.onBay n f t).twi = t.twi := rfl
@[simp] theorem Tray.onBay_cages (n : SlotId) (f : Bay → Bay) : (Tray.onBay n f t).cages = t.cages := rfl
@[simp] theorem Tray.onBay_fc (n : SlotId) (f : Bay → Bay) : (Tray.onBay n f t).fc = t.fc := rfl
@[simp] theorem Tray.onBay_orders (n : SlotId) (f : Bay → Bay) : (Tray.onBay n f t).orders = t.orders := rfl
@[simp] theorem Tray.onBay_demands (n : SlotId) (f : Bay → Bay) : (Tray.onBay n f t).demands = t.demands := rfl
@[simp] theorem Tray.onBay_sensors (n : SlotId) (f : Bay → Bay) : (Tray.onBay n f t).sensors = t.sensors := rfl
@[simp] theorem Tray.onBay_log (n : SlotId) (f : Bay → Bay) : (Tray.onBay n f t).log = t.log := rfl
@[simp] theorem Tray.onBay_logHead (n : SlotId) (f : Bay → Bay) : (Tray.onBay n f t).logHead = t.logHead := rfl
@[simp] theorem Tray.onBay_logPending (n : SlotId) (f : Bay → Bay) : (Tray.onBay n f t).logPending = t.logPending := rfl
@[simp] theorem Tray.onBay_logSel (n : SlotId) (f : Bay → Bay) : (Tray.onBay n f t).logSel = t.logSel := rfl
@[simp] theorem Tray.onBay_trayZ (n : SlotId) (f : Bay → Bay) : (Tray.onBay n f t).trayZ = t.trayZ := rfl
@[simp] theorem Tray.onBay_trayW (n : SlotId) (f : Bay → Bay) : (Tray.onBay n f t).trayW = t.trayW := rfl
@[simp] theorem Tray.onBay_trayValid (n : SlotId) (f : Bay → Bay) : (Tray.onBay n f t).trayValid = t.trayValid := rfl
@[simp] theorem Tray.onBay_net (n : SlotId) (f : Bay → Bay) : (Tray.onBay n f t).net = t.net := rfl
@[simp] theorem Tray.onBay_autoSlots (n : SlotId) (f : Bay → Bay) : (Tray.onBay n f t).autoSlots = t.autoSlots := rfl
@[simp] theorem Tray.onBay_autoCool (n : SlotId) (f : Bay → Bay) : (Tray.onBay n f t).autoCool = t.autoCool := rfl
@[simp] theorem Tray.onBay_requesters (n : SlotId) (f : Bay → Bay) : (Tray.onBay n f t).requesters = t.requesters := rfl
@[simp] theorem Tray.onBay_card (n : SlotId) (f : Bay → Bay) : (Tray.onBay n f t).card = t.card := rfl
@[simp] theorem Tray.onBay_timeBase (n : SlotId) (f : Bay → Bay) : (Tray.onBay n f t).timeBase = t.timeBase := rfl
@[simp] theorem Tray.onBay_timeHi (n : SlotId) (f : Bay → Bay) : (Tray.onBay n f t).timeHi = t.timeHi := rfl
@[simp] theorem Tray.onBay_revision (n : SlotId) (f : Bay → Bay) : (Tray.onBay n f t).revision = t.revision := rfl
@[simp] theorem Tray.onBay_busErr (n : SlotId) (f : Bay → Bay) : (Tray.onBay n f t).busErr = t.busErr := rfl
@[simp] theorem Tray.onBay_indicator (n : SlotId) (f : Bay → Bay) : (Tray.onBay n f t).indicator = t.indicator := rfl
@[simp] theorem Tray.onCpc_input (n : SlotId) (f : Cpc → Cpc) : (Tray.onCpc n f t).input = t.input := rfl
@[simp] theorem Tray.onCpc_inputAt (n : SlotId) (f : Cpc → Cpc) : (Tray.onCpc n f t).inputAt = t.inputAt := rfl
@[simp] theorem Tray.onCpc_dwellDone (n : SlotId) (f : Cpc → Cpc) : (Tray.onCpc n f t).dwellDone = t.dwellDone := rfl
@[simp] theorem Tray.onCpc_bbu (n : SlotId) (f : Cpc → Cpc) : (Tray.onCpc n f t).bbu = t.bbu := rfl
@[simp] theorem Tray.onCpc_bbuEnergy (n : SlotId) (f : Cpc → Cpc) : (Tray.onCpc n f t).bbuEnergy = t.bbuEnergy := rfl
@[simp] theorem Tray.onCpc_bbuEol (n : SlotId) (f : Cpc → Cpc) : (Tray.onCpc n f t).bbuEol = t.bbuEol := rfl
@[simp] theorem Tray.onCpc_drives (n : SlotId) (f : Cpc → Cpc) : (Tray.onCpc n f t).drives = t.drives := rfl
@[simp] theorem Tray.onCpc_axes (n : SlotId) (f : Cpc → Cpc) : (Tray.onCpc n f t).axes = t.axes := rfl
@[simp] theorem Tray.onCpc_cams (n : SlotId) (f : Cpc → Cpc) : (Tray.onCpc n f t).cams = t.cams := rfl
@[simp] theorem Tray.onCpc_full (n : SlotId) (f : Cpc → Cpc) : (Tray.onCpc n f t).full = t.full := rfl
@[simp] theorem Tray.onCpc_tmcReq (n : SlotId) (f : Cpc → Cpc) : (Tray.onCpc n f t).tmcReq = t.tmcReq := rfl
@[simp] theorem Tray.onCpc_fullEnded (n : SlotId) (f : Cpc → Cpc) : (Tray.onCpc n f t).fullEnded = t.fullEnded := rfl
@[simp] theorem Tray.onCpc_byFull (n : SlotId) (f : Cpc → Cpc) : (Tray.onCpc n f t).byFull = t.byFull := rfl
@[simp] theorem Tray.onCpc_boardEeprom (n : SlotId) (f : Cpc → Cpc) : (Tray.onCpc n f t).boardEeprom = t.boardEeprom := rfl
@[simp] theorem Tray.onCpc_bbuEeprom (n : SlotId) (f : Cpc → Cpc) : (Tray.onCpc n f t).bbuEeprom = t.bbuEeprom := rfl
@[simp] theorem Tray.onCpc_twi (n : SlotId) (f : Cpc → Cpc) : (Tray.onCpc n f t).twi = t.twi := rfl
@[simp] theorem Tray.onCpc_cages (n : SlotId) (f : Cpc → Cpc) : (Tray.onCpc n f t).cages = t.cages := rfl
@[simp] theorem Tray.onCpc_fc (n : SlotId) (f : Cpc → Cpc) : (Tray.onCpc n f t).fc = t.fc := rfl
@[simp] theorem Tray.onCpc_orders (n : SlotId) (f : Cpc → Cpc) : (Tray.onCpc n f t).orders = t.orders := rfl
@[simp] theorem Tray.onCpc_demands (n : SlotId) (f : Cpc → Cpc) : (Tray.onCpc n f t).demands = t.demands := rfl
@[simp] theorem Tray.onCpc_sensors (n : SlotId) (f : Cpc → Cpc) : (Tray.onCpc n f t).sensors = t.sensors := rfl
@[simp] theorem Tray.onCpc_log (n : SlotId) (f : Cpc → Cpc) : (Tray.onCpc n f t).log = t.log := rfl
@[simp] theorem Tray.onCpc_logHead (n : SlotId) (f : Cpc → Cpc) : (Tray.onCpc n f t).logHead = t.logHead := rfl
@[simp] theorem Tray.onCpc_logPending (n : SlotId) (f : Cpc → Cpc) : (Tray.onCpc n f t).logPending = t.logPending := rfl
@[simp] theorem Tray.onCpc_logSel (n : SlotId) (f : Cpc → Cpc) : (Tray.onCpc n f t).logSel = t.logSel := rfl
@[simp] theorem Tray.onCpc_trayZ (n : SlotId) (f : Cpc → Cpc) : (Tray.onCpc n f t).trayZ = t.trayZ := rfl
@[simp] theorem Tray.onCpc_trayW (n : SlotId) (f : Cpc → Cpc) : (Tray.onCpc n f t).trayW = t.trayW := rfl
@[simp] theorem Tray.onCpc_trayValid (n : SlotId) (f : Cpc → Cpc) : (Tray.onCpc n f t).trayValid = t.trayValid := rfl
@[simp] theorem Tray.onCpc_net (n : SlotId) (f : Cpc → Cpc) : (Tray.onCpc n f t).net = t.net := rfl
@[simp] theorem Tray.onCpc_autoSlots (n : SlotId) (f : Cpc → Cpc) : (Tray.onCpc n f t).autoSlots = t.autoSlots := rfl
@[simp] theorem Tray.onCpc_autoCool (n : SlotId) (f : Cpc → Cpc) : (Tray.onCpc n f t).autoCool = t.autoCool := rfl
@[simp] theorem Tray.onCpc_requesters (n : SlotId) (f : Cpc → Cpc) : (Tray.onCpc n f t).requesters = t.requesters := rfl
@[simp] theorem Tray.onCpc_card (n : SlotId) (f : Cpc → Cpc) : (Tray.onCpc n f t).card = t.card := rfl
@[simp] theorem Tray.onCpc_timeBase (n : SlotId) (f : Cpc → Cpc) : (Tray.onCpc n f t).timeBase = t.timeBase := rfl
@[simp] theorem Tray.onCpc_timeHi (n : SlotId) (f : Cpc → Cpc) : (Tray.onCpc n f t).timeHi = t.timeHi := rfl
@[simp] theorem Tray.onCpc_revision (n : SlotId) (f : Cpc → Cpc) : (Tray.onCpc n f t).revision = t.revision := rfl
@[simp] theorem Tray.onCpc_busErr (n : SlotId) (f : Cpc → Cpc) : (Tray.onCpc n f t).busErr = t.busErr := rfl
@[simp] theorem Tray.onCpc_indicator (n : SlotId) (f : Cpc → Cpc) : (Tray.onCpc n f t).indicator = t.indicator := rfl
@[simp] theorem Tray.onAxis_input (n : AxisId) (f : Axis → Axis) : (Tray.onAxis n f t).input = t.input := rfl
@[simp] theorem Tray.onAxis_inputAt (n : AxisId) (f : Axis → Axis) : (Tray.onAxis n f t).inputAt = t.inputAt := rfl
@[simp] theorem Tray.onAxis_dwellDone (n : AxisId) (f : Axis → Axis) : (Tray.onAxis n f t).dwellDone = t.dwellDone := rfl
@[simp] theorem Tray.onAxis_bbu (n : AxisId) (f : Axis → Axis) : (Tray.onAxis n f t).bbu = t.bbu := rfl
@[simp] theorem Tray.onAxis_bbuEnergy (n : AxisId) (f : Axis → Axis) : (Tray.onAxis n f t).bbuEnergy = t.bbuEnergy := rfl
@[simp] theorem Tray.onAxis_bbuEol (n : AxisId) (f : Axis → Axis) : (Tray.onAxis n f t).bbuEol = t.bbuEol := rfl
@[simp] theorem Tray.onAxis_bays (n : AxisId) (f : Axis → Axis) : (Tray.onAxis n f t).bays = t.bays := rfl
@[simp] theorem Tray.onAxis_drives (n : AxisId) (f : Axis → Axis) : (Tray.onAxis n f t).drives = t.drives := rfl
@[simp] theorem Tray.onAxis_cams (n : AxisId) (f : Axis → Axis) : (Tray.onAxis n f t).cams = t.cams := rfl
@[simp] theorem Tray.onAxis_full (n : AxisId) (f : Axis → Axis) : (Tray.onAxis n f t).full = t.full := rfl
@[simp] theorem Tray.onAxis_tmcReq (n : AxisId) (f : Axis → Axis) : (Tray.onAxis n f t).tmcReq = t.tmcReq := rfl
@[simp] theorem Tray.onAxis_fullEnded (n : AxisId) (f : Axis → Axis) : (Tray.onAxis n f t).fullEnded = t.fullEnded := rfl
@[simp] theorem Tray.onAxis_byFull (n : AxisId) (f : Axis → Axis) : (Tray.onAxis n f t).byFull = t.byFull := rfl
@[simp] theorem Tray.onAxis_boardEeprom (n : AxisId) (f : Axis → Axis) : (Tray.onAxis n f t).boardEeprom = t.boardEeprom := rfl
@[simp] theorem Tray.onAxis_bbuEeprom (n : AxisId) (f : Axis → Axis) : (Tray.onAxis n f t).bbuEeprom = t.bbuEeprom := rfl
@[simp] theorem Tray.onAxis_twi (n : AxisId) (f : Axis → Axis) : (Tray.onAxis n f t).twi = t.twi := rfl
@[simp] theorem Tray.onAxis_cages (n : AxisId) (f : Axis → Axis) : (Tray.onAxis n f t).cages = t.cages := rfl
@[simp] theorem Tray.onAxis_fc (n : AxisId) (f : Axis → Axis) : (Tray.onAxis n f t).fc = t.fc := rfl
@[simp] theorem Tray.onAxis_orders (n : AxisId) (f : Axis → Axis) : (Tray.onAxis n f t).orders = t.orders := rfl
@[simp] theorem Tray.onAxis_demands (n : AxisId) (f : Axis → Axis) : (Tray.onAxis n f t).demands = t.demands := rfl
@[simp] theorem Tray.onAxis_sensors (n : AxisId) (f : Axis → Axis) : (Tray.onAxis n f t).sensors = t.sensors := rfl
@[simp] theorem Tray.onAxis_log (n : AxisId) (f : Axis → Axis) : (Tray.onAxis n f t).log = t.log := rfl
@[simp] theorem Tray.onAxis_logHead (n : AxisId) (f : Axis → Axis) : (Tray.onAxis n f t).logHead = t.logHead := rfl
@[simp] theorem Tray.onAxis_logPending (n : AxisId) (f : Axis → Axis) : (Tray.onAxis n f t).logPending = t.logPending := rfl
@[simp] theorem Tray.onAxis_logSel (n : AxisId) (f : Axis → Axis) : (Tray.onAxis n f t).logSel = t.logSel := rfl
@[simp] theorem Tray.onAxis_trayZ (n : AxisId) (f : Axis → Axis) : (Tray.onAxis n f t).trayZ = t.trayZ := rfl
@[simp] theorem Tray.onAxis_trayW (n : AxisId) (f : Axis → Axis) : (Tray.onAxis n f t).trayW = t.trayW := rfl
@[simp] theorem Tray.onAxis_trayValid (n : AxisId) (f : Axis → Axis) : (Tray.onAxis n f t).trayValid = t.trayValid := rfl
@[simp] theorem Tray.onAxis_net (n : AxisId) (f : Axis → Axis) : (Tray.onAxis n f t).net = t.net := rfl
@[simp] theorem Tray.onAxis_autoSlots (n : AxisId) (f : Axis → Axis) : (Tray.onAxis n f t).autoSlots = t.autoSlots := rfl
@[simp] theorem Tray.onAxis_autoCool (n : AxisId) (f : Axis → Axis) : (Tray.onAxis n f t).autoCool = t.autoCool := rfl
@[simp] theorem Tray.onAxis_requesters (n : AxisId) (f : Axis → Axis) : (Tray.onAxis n f t).requesters = t.requesters := rfl
@[simp] theorem Tray.onAxis_card (n : AxisId) (f : Axis → Axis) : (Tray.onAxis n f t).card = t.card := rfl
@[simp] theorem Tray.onAxis_timeBase (n : AxisId) (f : Axis → Axis) : (Tray.onAxis n f t).timeBase = t.timeBase := rfl
@[simp] theorem Tray.onAxis_timeHi (n : AxisId) (f : Axis → Axis) : (Tray.onAxis n f t).timeHi = t.timeHi := rfl
@[simp] theorem Tray.onAxis_revision (n : AxisId) (f : Axis → Axis) : (Tray.onAxis n f t).revision = t.revision := rfl
@[simp] theorem Tray.onAxis_busErr (n : AxisId) (f : Axis → Axis) : (Tray.onAxis n f t).busErr = t.busErr := rfl
@[simp] theorem Tray.onAxis_indicator (n : AxisId) (f : Axis → Axis) : (Tray.onAxis n f t).indicator = t.indicator := rfl
@[simp] theorem Tray.onDrive_input (k : DriveId) (f : Drive → Drive) : (Tray.onDrive k f t).input = t.input := rfl
@[simp] theorem Tray.onDrive_inputAt (k : DriveId) (f : Drive → Drive) : (Tray.onDrive k f t).inputAt = t.inputAt := rfl
@[simp] theorem Tray.onDrive_dwellDone (k : DriveId) (f : Drive → Drive) : (Tray.onDrive k f t).dwellDone = t.dwellDone := rfl
@[simp] theorem Tray.onDrive_bbu (k : DriveId) (f : Drive → Drive) : (Tray.onDrive k f t).bbu = t.bbu := rfl
@[simp] theorem Tray.onDrive_bbuEnergy (k : DriveId) (f : Drive → Drive) : (Tray.onDrive k f t).bbuEnergy = t.bbuEnergy := rfl
@[simp] theorem Tray.onDrive_bbuEol (k : DriveId) (f : Drive → Drive) : (Tray.onDrive k f t).bbuEol = t.bbuEol := rfl
@[simp] theorem Tray.onDrive_bays (k : DriveId) (f : Drive → Drive) : (Tray.onDrive k f t).bays = t.bays := rfl
@[simp] theorem Tray.onDrive_axes (k : DriveId) (f : Drive → Drive) : (Tray.onDrive k f t).axes = t.axes := rfl
@[simp] theorem Tray.onDrive_cams (k : DriveId) (f : Drive → Drive) : (Tray.onDrive k f t).cams = t.cams := rfl
@[simp] theorem Tray.onDrive_full (k : DriveId) (f : Drive → Drive) : (Tray.onDrive k f t).full = t.full := rfl
@[simp] theorem Tray.onDrive_tmcReq (k : DriveId) (f : Drive → Drive) : (Tray.onDrive k f t).tmcReq = t.tmcReq := rfl
@[simp] theorem Tray.onDrive_fullEnded (k : DriveId) (f : Drive → Drive) : (Tray.onDrive k f t).fullEnded = t.fullEnded := rfl
@[simp] theorem Tray.onDrive_byFull (k : DriveId) (f : Drive → Drive) : (Tray.onDrive k f t).byFull = t.byFull := rfl
@[simp] theorem Tray.onDrive_boardEeprom (k : DriveId) (f : Drive → Drive) : (Tray.onDrive k f t).boardEeprom = t.boardEeprom := rfl
@[simp] theorem Tray.onDrive_bbuEeprom (k : DriveId) (f : Drive → Drive) : (Tray.onDrive k f t).bbuEeprom = t.bbuEeprom := rfl
@[simp] theorem Tray.onDrive_twi (k : DriveId) (f : Drive → Drive) : (Tray.onDrive k f t).twi = t.twi := rfl
@[simp] theorem Tray.onDrive_cages (k : DriveId) (f : Drive → Drive) : (Tray.onDrive k f t).cages = t.cages := rfl
@[simp] theorem Tray.onDrive_fc (k : DriveId) (f : Drive → Drive) : (Tray.onDrive k f t).fc = t.fc := rfl
@[simp] theorem Tray.onDrive_orders (k : DriveId) (f : Drive → Drive) : (Tray.onDrive k f t).orders = t.orders := rfl
@[simp] theorem Tray.onDrive_demands (k : DriveId) (f : Drive → Drive) : (Tray.onDrive k f t).demands = t.demands := rfl
@[simp] theorem Tray.onDrive_sensors (k : DriveId) (f : Drive → Drive) : (Tray.onDrive k f t).sensors = t.sensors := rfl
@[simp] theorem Tray.onDrive_log (k : DriveId) (f : Drive → Drive) : (Tray.onDrive k f t).log = t.log := rfl
@[simp] theorem Tray.onDrive_logHead (k : DriveId) (f : Drive → Drive) : (Tray.onDrive k f t).logHead = t.logHead := rfl
@[simp] theorem Tray.onDrive_logPending (k : DriveId) (f : Drive → Drive) : (Tray.onDrive k f t).logPending = t.logPending := rfl
@[simp] theorem Tray.onDrive_logSel (k : DriveId) (f : Drive → Drive) : (Tray.onDrive k f t).logSel = t.logSel := rfl
@[simp] theorem Tray.onDrive_trayZ (k : DriveId) (f : Drive → Drive) : (Tray.onDrive k f t).trayZ = t.trayZ := rfl
@[simp] theorem Tray.onDrive_trayW (k : DriveId) (f : Drive → Drive) : (Tray.onDrive k f t).trayW = t.trayW := rfl
@[simp] theorem Tray.onDrive_trayValid (k : DriveId) (f : Drive → Drive) : (Tray.onDrive k f t).trayValid = t.trayValid := rfl
@[simp] theorem Tray.onDrive_net (k : DriveId) (f : Drive → Drive) : (Tray.onDrive k f t).net = t.net := rfl
@[simp] theorem Tray.onDrive_autoSlots (k : DriveId) (f : Drive → Drive) : (Tray.onDrive k f t).autoSlots = t.autoSlots := rfl
@[simp] theorem Tray.onDrive_autoCool (k : DriveId) (f : Drive → Drive) : (Tray.onDrive k f t).autoCool = t.autoCool := rfl
@[simp] theorem Tray.onDrive_requesters (k : DriveId) (f : Drive → Drive) : (Tray.onDrive k f t).requesters = t.requesters := rfl
@[simp] theorem Tray.onDrive_card (k : DriveId) (f : Drive → Drive) : (Tray.onDrive k f t).card = t.card := rfl
@[simp] theorem Tray.onDrive_timeBase (k : DriveId) (f : Drive → Drive) : (Tray.onDrive k f t).timeBase = t.timeBase := rfl
@[simp] theorem Tray.onDrive_timeHi (k : DriveId) (f : Drive → Drive) : (Tray.onDrive k f t).timeHi = t.timeHi := rfl
@[simp] theorem Tray.onDrive_revision (k : DriveId) (f : Drive → Drive) : (Tray.onDrive k f t).revision = t.revision := rfl
@[simp] theorem Tray.onDrive_busErr (k : DriveId) (f : Drive → Drive) : (Tray.onDrive k f t).busErr = t.busErr := rfl
@[simp] theorem Tray.onDrive_indicator (k : DriveId) (f : Drive → Drive) : (Tray.onDrive k f t).indicator = t.indicator := rfl
@[simp] theorem Tray.onTwi_input (b : BusId) (f : Twi → Twi) : (Tray.onTwi b f t).input = t.input := rfl
@[simp] theorem Tray.onTwi_inputAt (b : BusId) (f : Twi → Twi) : (Tray.onTwi b f t).inputAt = t.inputAt := rfl
@[simp] theorem Tray.onTwi_dwellDone (b : BusId) (f : Twi → Twi) : (Tray.onTwi b f t).dwellDone = t.dwellDone := rfl
@[simp] theorem Tray.onTwi_bbu (b : BusId) (f : Twi → Twi) : (Tray.onTwi b f t).bbu = t.bbu := rfl
@[simp] theorem Tray.onTwi_bbuEnergy (b : BusId) (f : Twi → Twi) : (Tray.onTwi b f t).bbuEnergy = t.bbuEnergy := rfl
@[simp] theorem Tray.onTwi_bbuEol (b : BusId) (f : Twi → Twi) : (Tray.onTwi b f t).bbuEol = t.bbuEol := rfl
@[simp] theorem Tray.onTwi_bays (b : BusId) (f : Twi → Twi) : (Tray.onTwi b f t).bays = t.bays := rfl
@[simp] theorem Tray.onTwi_drives (b : BusId) (f : Twi → Twi) : (Tray.onTwi b f t).drives = t.drives := rfl
@[simp] theorem Tray.onTwi_axes (b : BusId) (f : Twi → Twi) : (Tray.onTwi b f t).axes = t.axes := rfl
@[simp] theorem Tray.onTwi_cams (b : BusId) (f : Twi → Twi) : (Tray.onTwi b f t).cams = t.cams := rfl
@[simp] theorem Tray.onTwi_full (b : BusId) (f : Twi → Twi) : (Tray.onTwi b f t).full = t.full := rfl
@[simp] theorem Tray.onTwi_tmcReq (b : BusId) (f : Twi → Twi) : (Tray.onTwi b f t).tmcReq = t.tmcReq := rfl
@[simp] theorem Tray.onTwi_fullEnded (b : BusId) (f : Twi → Twi) : (Tray.onTwi b f t).fullEnded = t.fullEnded := rfl
@[simp] theorem Tray.onTwi_byFull (b : BusId) (f : Twi → Twi) : (Tray.onTwi b f t).byFull = t.byFull := rfl
@[simp] theorem Tray.onTwi_boardEeprom (b : BusId) (f : Twi → Twi) : (Tray.onTwi b f t).boardEeprom = t.boardEeprom := rfl
@[simp] theorem Tray.onTwi_bbuEeprom (b : BusId) (f : Twi → Twi) : (Tray.onTwi b f t).bbuEeprom = t.bbuEeprom := rfl
@[simp] theorem Tray.onTwi_cages (b : BusId) (f : Twi → Twi) : (Tray.onTwi b f t).cages = t.cages := rfl
@[simp] theorem Tray.onTwi_fc (b : BusId) (f : Twi → Twi) : (Tray.onTwi b f t).fc = t.fc := rfl
@[simp] theorem Tray.onTwi_orders (b : BusId) (f : Twi → Twi) : (Tray.onTwi b f t).orders = t.orders := rfl
@[simp] theorem Tray.onTwi_demands (b : BusId) (f : Twi → Twi) : (Tray.onTwi b f t).demands = t.demands := rfl
@[simp] theorem Tray.onTwi_sensors (b : BusId) (f : Twi → Twi) : (Tray.onTwi b f t).sensors = t.sensors := rfl
@[simp] theorem Tray.onTwi_log (b : BusId) (f : Twi → Twi) : (Tray.onTwi b f t).log = t.log := rfl
@[simp] theorem Tray.onTwi_logHead (b : BusId) (f : Twi → Twi) : (Tray.onTwi b f t).logHead = t.logHead := rfl
@[simp] theorem Tray.onTwi_logPending (b : BusId) (f : Twi → Twi) : (Tray.onTwi b f t).logPending = t.logPending := rfl
@[simp] theorem Tray.onTwi_logSel (b : BusId) (f : Twi → Twi) : (Tray.onTwi b f t).logSel = t.logSel := rfl
@[simp] theorem Tray.onTwi_trayZ (b : BusId) (f : Twi → Twi) : (Tray.onTwi b f t).trayZ = t.trayZ := rfl
@[simp] theorem Tray.onTwi_trayW (b : BusId) (f : Twi → Twi) : (Tray.onTwi b f t).trayW = t.trayW := rfl
@[simp] theorem Tray.onTwi_trayValid (b : BusId) (f : Twi → Twi) : (Tray.onTwi b f t).trayValid = t.trayValid := rfl
@[simp] theorem Tray.onTwi_net (b : BusId) (f : Twi → Twi) : (Tray.onTwi b f t).net = t.net := rfl
@[simp] theorem Tray.onTwi_autoSlots (b : BusId) (f : Twi → Twi) : (Tray.onTwi b f t).autoSlots = t.autoSlots := rfl
@[simp] theorem Tray.onTwi_autoCool (b : BusId) (f : Twi → Twi) : (Tray.onTwi b f t).autoCool = t.autoCool := rfl
@[simp] theorem Tray.onTwi_requesters (b : BusId) (f : Twi → Twi) : (Tray.onTwi b f t).requesters = t.requesters := rfl
@[simp] theorem Tray.onTwi_card (b : BusId) (f : Twi → Twi) : (Tray.onTwi b f t).card = t.card := rfl
@[simp] theorem Tray.onTwi_timeBase (b : BusId) (f : Twi → Twi) : (Tray.onTwi b f t).timeBase = t.timeBase := rfl
@[simp] theorem Tray.onTwi_timeHi (b : BusId) (f : Twi → Twi) : (Tray.onTwi b f t).timeHi = t.timeHi := rfl
@[simp] theorem Tray.onTwi_revision (b : BusId) (f : Twi → Twi) : (Tray.onTwi b f t).revision = t.revision := rfl
@[simp] theorem Tray.onTwi_busErr (b : BusId) (f : Twi → Twi) : (Tray.onTwi b f t).busErr = t.busErr := rfl
@[simp] theorem Tray.onTwi_indicator (b : BusId) (f : Twi → Twi) : (Tray.onTwi b f t).indicator = t.indicator := rfl
@[simp] theorem Tray.onCard_input (f : Card → Card) : (Tray.onCard f t).input = t.input := rfl
@[simp] theorem Tray.onCard_inputAt (f : Card → Card) : (Tray.onCard f t).inputAt = t.inputAt := rfl
@[simp] theorem Tray.onCard_dwellDone (f : Card → Card) : (Tray.onCard f t).dwellDone = t.dwellDone := rfl
@[simp] theorem Tray.onCard_bbu (f : Card → Card) : (Tray.onCard f t).bbu = t.bbu := rfl
@[simp] theorem Tray.onCard_bbuEnergy (f : Card → Card) : (Tray.onCard f t).bbuEnergy = t.bbuEnergy := rfl
@[simp] theorem Tray.onCard_bbuEol (f : Card → Card) : (Tray.onCard f t).bbuEol = t.bbuEol := rfl
@[simp] theorem Tray.onCard_bays (f : Card → Card) : (Tray.onCard f t).bays = t.bays := rfl
@[simp] theorem Tray.onCard_drives (f : Card → Card) : (Tray.onCard f t).drives = t.drives := rfl
@[simp] theorem Tray.onCard_axes (f : Card → Card) : (Tray.onCard f t).axes = t.axes := rfl
@[simp] theorem Tray.onCard_cams (f : Card → Card) : (Tray.onCard f t).cams = t.cams := rfl
@[simp] theorem Tray.onCard_full (f : Card → Card) : (Tray.onCard f t).full = t.full := rfl
@[simp] theorem Tray.onCard_tmcReq (f : Card → Card) : (Tray.onCard f t).tmcReq = t.tmcReq := rfl
@[simp] theorem Tray.onCard_fullEnded (f : Card → Card) : (Tray.onCard f t).fullEnded = t.fullEnded := rfl
@[simp] theorem Tray.onCard_byFull (f : Card → Card) : (Tray.onCard f t).byFull = t.byFull := rfl
@[simp] theorem Tray.onCard_boardEeprom (f : Card → Card) : (Tray.onCard f t).boardEeprom = t.boardEeprom := rfl
@[simp] theorem Tray.onCard_bbuEeprom (f : Card → Card) : (Tray.onCard f t).bbuEeprom = t.bbuEeprom := rfl
@[simp] theorem Tray.onCard_twi (f : Card → Card) : (Tray.onCard f t).twi = t.twi := rfl
@[simp] theorem Tray.onCard_cages (f : Card → Card) : (Tray.onCard f t).cages = t.cages := rfl
@[simp] theorem Tray.onCard_fc (f : Card → Card) : (Tray.onCard f t).fc = t.fc := rfl
@[simp] theorem Tray.onCard_orders (f : Card → Card) : (Tray.onCard f t).orders = t.orders := rfl
@[simp] theorem Tray.onCard_demands (f : Card → Card) : (Tray.onCard f t).demands = t.demands := rfl
@[simp] theorem Tray.onCard_sensors (f : Card → Card) : (Tray.onCard f t).sensors = t.sensors := rfl
@[simp] theorem Tray.onCard_log (f : Card → Card) : (Tray.onCard f t).log = t.log := rfl
@[simp] theorem Tray.onCard_logHead (f : Card → Card) : (Tray.onCard f t).logHead = t.logHead := rfl
@[simp] theorem Tray.onCard_logPending (f : Card → Card) : (Tray.onCard f t).logPending = t.logPending := rfl
@[simp] theorem Tray.onCard_logSel (f : Card → Card) : (Tray.onCard f t).logSel = t.logSel := rfl
@[simp] theorem Tray.onCard_trayZ (f : Card → Card) : (Tray.onCard f t).trayZ = t.trayZ := rfl
@[simp] theorem Tray.onCard_trayW (f : Card → Card) : (Tray.onCard f t).trayW = t.trayW := rfl
@[simp] theorem Tray.onCard_trayValid (f : Card → Card) : (Tray.onCard f t).trayValid = t.trayValid := rfl
@[simp] theorem Tray.onCard_net (f : Card → Card) : (Tray.onCard f t).net = t.net := rfl
@[simp] theorem Tray.onCard_autoSlots (f : Card → Card) : (Tray.onCard f t).autoSlots = t.autoSlots := rfl
@[simp] theorem Tray.onCard_autoCool (f : Card → Card) : (Tray.onCard f t).autoCool = t.autoCool := rfl
@[simp] theorem Tray.onCard_requesters (f : Card → Card) : (Tray.onCard f t).requesters = t.requesters := rfl
@[simp] theorem Tray.onCard_timeBase (f : Card → Card) : (Tray.onCard f t).timeBase = t.timeBase := rfl
@[simp] theorem Tray.onCard_timeHi (f : Card → Card) : (Tray.onCard f t).timeHi = t.timeHi := rfl
@[simp] theorem Tray.onCard_revision (f : Card → Card) : (Tray.onCard f t).revision = t.revision := rfl
@[simp] theorem Tray.onCard_busErr (f : Card → Card) : (Tray.onCard f t).busErr = t.busErr := rfl
@[simp] theorem Tray.onCard_indicator (f : Card → Card) : (Tray.onCard f t).indicator = t.indicator := rfl
@[simp] theorem Tray.raise_input (n : Nat) (o : Owner) : (Tray.raise n o t).input = t.input := rfl
@[simp] theorem Tray.raise_inputAt (n : Nat) (o : Owner) : (Tray.raise n o t).inputAt = t.inputAt := rfl
@[simp] theorem Tray.raise_dwellDone (n : Nat) (o : Owner) : (Tray.raise n o t).dwellDone = t.dwellDone := rfl
@[simp] theorem Tray.raise_bbu (n : Nat) (o : Owner) : (Tray.raise n o t).bbu = t.bbu := rfl
@[simp] theorem Tray.raise_bbuEnergy (n : Nat) (o : Owner) : (Tray.raise n o t).bbuEnergy = t.bbuEnergy := rfl
@[simp] theorem Tray.raise_bbuEol (n : Nat) (o : Owner) : (Tray.raise n o t).bbuEol = t.bbuEol := rfl
@[simp] theorem Tray.raise_bays (n : Nat) (o : Owner) : (Tray.raise n o t).bays = t.bays := rfl
@[simp] theorem Tray.raise_drives (n : Nat) (o : Owner) : (Tray.raise n o t).drives = t.drives := rfl
@[simp] theorem Tray.raise_axes (n : Nat) (o : Owner) : (Tray.raise n o t).axes = t.axes := rfl
@[simp] theorem Tray.raise_cams (n : Nat) (o : Owner) : (Tray.raise n o t).cams = t.cams := rfl
@[simp] theorem Tray.raise_full (n : Nat) (o : Owner) : (Tray.raise n o t).full = t.full := rfl
@[simp] theorem Tray.raise_tmcReq (n : Nat) (o : Owner) : (Tray.raise n o t).tmcReq = t.tmcReq := rfl
@[simp] theorem Tray.raise_fullEnded (n : Nat) (o : Owner) : (Tray.raise n o t).fullEnded = t.fullEnded := rfl
@[simp] theorem Tray.raise_byFull (n : Nat) (o : Owner) : (Tray.raise n o t).byFull = t.byFull := rfl
@[simp] theorem Tray.raise_boardEeprom (n : Nat) (o : Owner) : (Tray.raise n o t).boardEeprom = t.boardEeprom := rfl
@[simp] theorem Tray.raise_bbuEeprom (n : Nat) (o : Owner) : (Tray.raise n o t).bbuEeprom = t.bbuEeprom := rfl
@[simp] theorem Tray.raise_twi (n : Nat) (o : Owner) : (Tray.raise n o t).twi = t.twi := rfl
@[simp] theorem Tray.raise_cages (n : Nat) (o : Owner) : (Tray.raise n o t).cages = t.cages := rfl
@[simp] theorem Tray.raise_orders (n : Nat) (o : Owner) : (Tray.raise n o t).orders = t.orders := rfl
@[simp] theorem Tray.raise_demands (n : Nat) (o : Owner) : (Tray.raise n o t).demands = t.demands := rfl
@[simp] theorem Tray.raise_sensors (n : Nat) (o : Owner) : (Tray.raise n o t).sensors = t.sensors := rfl
@[simp] theorem Tray.raise_log (n : Nat) (o : Owner) : (Tray.raise n o t).log = t.log := rfl
@[simp] theorem Tray.raise_logHead (n : Nat) (o : Owner) : (Tray.raise n o t).logHead = t.logHead := rfl
@[simp] theorem Tray.raise_logPending (n : Nat) (o : Owner) : (Tray.raise n o t).logPending = t.logPending := rfl
@[simp] theorem Tray.raise_logSel (n : Nat) (o : Owner) : (Tray.raise n o t).logSel = t.logSel := rfl
@[simp] theorem Tray.raise_trayZ (n : Nat) (o : Owner) : (Tray.raise n o t).trayZ = t.trayZ := rfl
@[simp] theorem Tray.raise_trayW (n : Nat) (o : Owner) : (Tray.raise n o t).trayW = t.trayW := rfl
@[simp] theorem Tray.raise_trayValid (n : Nat) (o : Owner) : (Tray.raise n o t).trayValid = t.trayValid := rfl
@[simp] theorem Tray.raise_net (n : Nat) (o : Owner) : (Tray.raise n o t).net = t.net := rfl
@[simp] theorem Tray.raise_autoSlots (n : Nat) (o : Owner) : (Tray.raise n o t).autoSlots = t.autoSlots := rfl
@[simp] theorem Tray.raise_autoCool (n : Nat) (o : Owner) : (Tray.raise n o t).autoCool = t.autoCool := rfl
@[simp] theorem Tray.raise_requesters (n : Nat) (o : Owner) : (Tray.raise n o t).requesters = t.requesters := rfl
@[simp] theorem Tray.raise_card (n : Nat) (o : Owner) : (Tray.raise n o t).card = t.card := rfl
@[simp] theorem Tray.raise_timeBase (n : Nat) (o : Owner) : (Tray.raise n o t).timeBase = t.timeBase := rfl
@[simp] theorem Tray.raise_timeHi (n : Nat) (o : Owner) : (Tray.raise n o t).timeHi = t.timeHi := rfl
@[simp] theorem Tray.raise_revision (n : Nat) (o : Owner) : (Tray.raise n o t).revision = t.revision := rfl
@[simp] theorem Tray.raise_busErr (n : Nat) (o : Owner) : (Tray.raise n o t).busErr = t.busErr := rfl
@[simp] theorem Tray.raise_indicator (n : Nat) (o : Owner) : (Tray.raise n o t).indicator = t.indicator := rfl
@[simp] theorem Tray.assert_input (n : Nat) (o : Owner) (now : Nat) : (Tray.assert n o now t).input = t.input := rfl
@[simp] theorem Tray.assert_inputAt (n : Nat) (o : Owner) (now : Nat) : (Tray.assert n o now t).inputAt = t.inputAt := rfl
@[simp] theorem Tray.assert_dwellDone (n : Nat) (o : Owner) (now : Nat) : (Tray.assert n o now t).dwellDone = t.dwellDone := rfl
@[simp] theorem Tray.assert_bbu (n : Nat) (o : Owner) (now : Nat) : (Tray.assert n o now t).bbu = t.bbu := rfl
@[simp] theorem Tray.assert_bbuEnergy (n : Nat) (o : Owner) (now : Nat) : (Tray.assert n o now t).bbuEnergy = t.bbuEnergy := rfl
@[simp] theorem Tray.assert_bbuEol (n : Nat) (o : Owner) (now : Nat) : (Tray.assert n o now t).bbuEol = t.bbuEol := rfl
@[simp] theorem Tray.assert_bays (n : Nat) (o : Owner) (now : Nat) : (Tray.assert n o now t).bays = t.bays := rfl
@[simp] theorem Tray.assert_drives (n : Nat) (o : Owner) (now : Nat) : (Tray.assert n o now t).drives = t.drives := rfl
@[simp] theorem Tray.assert_axes (n : Nat) (o : Owner) (now : Nat) : (Tray.assert n o now t).axes = t.axes := rfl
@[simp] theorem Tray.assert_cams (n : Nat) (o : Owner) (now : Nat) : (Tray.assert n o now t).cams = t.cams := rfl
@[simp] theorem Tray.assert_full (n : Nat) (o : Owner) (now : Nat) : (Tray.assert n o now t).full = t.full := rfl
@[simp] theorem Tray.assert_tmcReq (n : Nat) (o : Owner) (now : Nat) : (Tray.assert n o now t).tmcReq = t.tmcReq := rfl
@[simp] theorem Tray.assert_fullEnded (n : Nat) (o : Owner) (now : Nat) : (Tray.assert n o now t).fullEnded = t.fullEnded := rfl
@[simp] theorem Tray.assert_byFull (n : Nat) (o : Owner) (now : Nat) : (Tray.assert n o now t).byFull = t.byFull := rfl
@[simp] theorem Tray.assert_boardEeprom (n : Nat) (o : Owner) (now : Nat) : (Tray.assert n o now t).boardEeprom = t.boardEeprom := rfl
@[simp] theorem Tray.assert_bbuEeprom (n : Nat) (o : Owner) (now : Nat) : (Tray.assert n o now t).bbuEeprom = t.bbuEeprom := rfl
@[simp] theorem Tray.assert_twi (n : Nat) (o : Owner) (now : Nat) : (Tray.assert n o now t).twi = t.twi := rfl
@[simp] theorem Tray.assert_cages (n : Nat) (o : Owner) (now : Nat) : (Tray.assert n o now t).cages = t.cages := rfl
@[simp] theorem Tray.assert_orders (n : Nat) (o : Owner) (now : Nat) : (Tray.assert n o now t).orders = t.orders := rfl
@[simp] theorem Tray.assert_demands (n : Nat) (o : Owner) (now : Nat) : (Tray.assert n o now t).demands = t.demands := rfl
@[simp] theorem Tray.assert_sensors (n : Nat) (o : Owner) (now : Nat) : (Tray.assert n o now t).sensors = t.sensors := rfl
@[simp] theorem Tray.assert_log (n : Nat) (o : Owner) (now : Nat) : (Tray.assert n o now t).log = t.log := rfl
@[simp] theorem Tray.assert_logHead (n : Nat) (o : Owner) (now : Nat) : (Tray.assert n o now t).logHead = t.logHead := rfl
@[simp] theorem Tray.assert_logPending (n : Nat) (o : Owner) (now : Nat) : (Tray.assert n o now t).logPending = t.logPending := rfl
@[simp] theorem Tray.assert_logSel (n : Nat) (o : Owner) (now : Nat) : (Tray.assert n o now t).logSel = t.logSel := rfl
@[simp] theorem Tray.assert_trayZ (n : Nat) (o : Owner) (now : Nat) : (Tray.assert n o now t).trayZ = t.trayZ := rfl
@[simp] theorem Tray.assert_trayW (n : Nat) (o : Owner) (now : Nat) : (Tray.assert n o now t).trayW = t.trayW := rfl
@[simp] theorem Tray.assert_trayValid (n : Nat) (o : Owner) (now : Nat) : (Tray.assert n o now t).trayValid = t.trayValid := rfl
@[simp] theorem Tray.assert_net (n : Nat) (o : Owner) (now : Nat) : (Tray.assert n o now t).net = t.net := rfl
@[simp] theorem Tray.assert_autoSlots (n : Nat) (o : Owner) (now : Nat) : (Tray.assert n o now t).autoSlots = t.autoSlots := rfl
@[simp] theorem Tray.assert_autoCool (n : Nat) (o : Owner) (now : Nat) : (Tray.assert n o now t).autoCool = t.autoCool := rfl
@[simp] theorem Tray.assert_requesters (n : Nat) (o : Owner) (now : Nat) : (Tray.assert n o now t).requesters = t.requesters := rfl
@[simp] theorem Tray.assert_card (n : Nat) (o : Owner) (now : Nat) : (Tray.assert n o now t).card = t.card := rfl
@[simp] theorem Tray.assert_timeBase (n : Nat) (o : Owner) (now : Nat) : (Tray.assert n o now t).timeBase = t.timeBase := rfl
@[simp] theorem Tray.assert_timeHi (n : Nat) (o : Owner) (now : Nat) : (Tray.assert n o now t).timeHi = t.timeHi := rfl
@[simp] theorem Tray.assert_revision (n : Nat) (o : Owner) (now : Nat) : (Tray.assert n o now t).revision = t.revision := rfl
@[simp] theorem Tray.assert_busErr (n : Nat) (o : Owner) (now : Nat) : (Tray.assert n o now t).busErr = t.busErr := rfl
@[simp] theorem Tray.assert_indicator (n : Nat) (o : Owner) (now : Nat) : (Tray.assert n o now t).indicator = t.indicator := rfl
@[simp] theorem Tray.lower_input (n now : Nat) : (Tray.lower n now t).input = t.input := rfl
@[simp] theorem Tray.lower_inputAt (n now : Nat) : (Tray.lower n now t).inputAt = t.inputAt := rfl
@[simp] theorem Tray.lower_dwellDone (n now : Nat) : (Tray.lower n now t).dwellDone = t.dwellDone := rfl
@[simp] theorem Tray.lower_bbu (n now : Nat) : (Tray.lower n now t).bbu = t.bbu := rfl
@[simp] theorem Tray.lower_bbuEnergy (n now : Nat) : (Tray.lower n now t).bbuEnergy = t.bbuEnergy := rfl
@[simp] theorem Tray.lower_bbuEol (n now : Nat) : (Tray.lower n now t).bbuEol = t.bbuEol := rfl
@[simp] theorem Tray.lower_bays (n now : Nat) : (Tray.lower n now t).bays = t.bays := rfl
@[simp] theorem Tray.lower_drives (n now : Nat) : (Tray.lower n now t).drives = t.drives := rfl
@[simp] theorem Tray.lower_axes (n now : Nat) : (Tray.lower n now t).axes = t.axes := rfl
@[simp] theorem Tray.lower_cams (n now : Nat) : (Tray.lower n now t).cams = t.cams := rfl
@[simp] theorem Tray.lower_full (n now : Nat) : (Tray.lower n now t).full = t.full := rfl
@[simp] theorem Tray.lower_tmcReq (n now : Nat) : (Tray.lower n now t).tmcReq = t.tmcReq := rfl
@[simp] theorem Tray.lower_fullEnded (n now : Nat) : (Tray.lower n now t).fullEnded = t.fullEnded := rfl
@[simp] theorem Tray.lower_byFull (n now : Nat) : (Tray.lower n now t).byFull = t.byFull := rfl
@[simp] theorem Tray.lower_boardEeprom (n now : Nat) : (Tray.lower n now t).boardEeprom = t.boardEeprom := rfl
@[simp] theorem Tray.lower_bbuEeprom (n now : Nat) : (Tray.lower n now t).bbuEeprom = t.bbuEeprom := rfl
@[simp] theorem Tray.lower_twi (n now : Nat) : (Tray.lower n now t).twi = t.twi := rfl
@[simp] theorem Tray.lower_cages (n now : Nat) : (Tray.lower n now t).cages = t.cages := rfl
@[simp] theorem Tray.lower_orders (n now : Nat) : (Tray.lower n now t).orders = t.orders := rfl
@[simp] theorem Tray.lower_demands (n now : Nat) : (Tray.lower n now t).demands = t.demands := rfl
@[simp] theorem Tray.lower_sensors (n now : Nat) : (Tray.lower n now t).sensors = t.sensors := rfl
@[simp] theorem Tray.lower_log (n now : Nat) : (Tray.lower n now t).log = t.log := rfl
@[simp] theorem Tray.lower_logHead (n now : Nat) : (Tray.lower n now t).logHead = t.logHead := rfl
@[simp] theorem Tray.lower_logPending (n now : Nat) : (Tray.lower n now t).logPending = t.logPending := rfl
@[simp] theorem Tray.lower_logSel (n now : Nat) : (Tray.lower n now t).logSel = t.logSel := rfl
@[simp] theorem Tray.lower_trayZ (n now : Nat) : (Tray.lower n now t).trayZ = t.trayZ := rfl
@[simp] theorem Tray.lower_trayW (n now : Nat) : (Tray.lower n now t).trayW = t.trayW := rfl
@[simp] theorem Tray.lower_trayValid (n now : Nat) : (Tray.lower n now t).trayValid = t.trayValid := rfl
@[simp] theorem Tray.lower_net (n now : Nat) : (Tray.lower n now t).net = t.net := rfl
@[simp] theorem Tray.lower_autoSlots (n now : Nat) : (Tray.lower n now t).autoSlots = t.autoSlots := rfl
@[simp] theorem Tray.lower_autoCool (n now : Nat) : (Tray.lower n now t).autoCool = t.autoCool := rfl
@[simp] theorem Tray.lower_requesters (n now : Nat) : (Tray.lower n now t).requesters = t.requesters := rfl
@[simp] theorem Tray.lower_card (n now : Nat) : (Tray.lower n now t).card = t.card := rfl
@[simp] theorem Tray.lower_timeBase (n now : Nat) : (Tray.lower n now t).timeBase = t.timeBase := rfl
@[simp] theorem Tray.lower_timeHi (n now : Nat) : (Tray.lower n now t).timeHi = t.timeHi := rfl
@[simp] theorem Tray.lower_revision (n now : Nat) : (Tray.lower n now t).revision = t.revision := rfl
@[simp] theorem Tray.lower_busErr (n now : Nat) : (Tray.lower n now t).busErr = t.busErr := rfl
@[simp] theorem Tray.lower_indicator (n now : Nat) : (Tray.lower n now t).indicator = t.indicator := rfl
@[simp] theorem Tray.ownerReset_input (o : Owner) : (Tray.ownerReset o t).input = t.input := by unfold Tray.ownerReset; rfl
@[simp] theorem Tray.ownerReset_inputAt (o : Owner) : (Tray.ownerReset o t).inputAt = t.inputAt := by unfold Tray.ownerReset; rfl
@[simp] theorem Tray.ownerReset_dwellDone (o : Owner) : (Tray.ownerReset o t).dwellDone = t.dwellDone := by unfold Tray.ownerReset; rfl
@[simp] theorem Tray.ownerReset_bbu (o : Owner) : (Tray.ownerReset o t).bbu = t.bbu := by unfold Tray.ownerReset; rfl
@[simp] theorem Tray.ownerReset_bbuEnergy (o : Owner) : (Tray.ownerReset o t).bbuEnergy = t.bbuEnergy := by unfold Tray.ownerReset; rfl
@[simp] theorem Tray.ownerReset_bbuEol (o : Owner) : (Tray.ownerReset o t).bbuEol = t.bbuEol := by unfold Tray.ownerReset; rfl
@[simp] theorem Tray.ownerReset_bays (o : Owner) : (Tray.ownerReset o t).bays = t.bays := by unfold Tray.ownerReset; rfl
@[simp] theorem Tray.ownerReset_drives (o : Owner) : (Tray.ownerReset o t).drives = t.drives := by unfold Tray.ownerReset; rfl
@[simp] theorem Tray.ownerReset_axes (o : Owner) : (Tray.ownerReset o t).axes = t.axes := by unfold Tray.ownerReset; rfl
@[simp] theorem Tray.ownerReset_cams (o : Owner) : (Tray.ownerReset o t).cams = t.cams := by unfold Tray.ownerReset; rfl
@[simp] theorem Tray.ownerReset_full (o : Owner) : (Tray.ownerReset o t).full = t.full := by unfold Tray.ownerReset; rfl
@[simp] theorem Tray.ownerReset_tmcReq (o : Owner) : (Tray.ownerReset o t).tmcReq = t.tmcReq := by unfold Tray.ownerReset; rfl
@[simp] theorem Tray.ownerReset_fullEnded (o : Owner) : (Tray.ownerReset o t).fullEnded = t.fullEnded := by unfold Tray.ownerReset; rfl
@[simp] theorem Tray.ownerReset_byFull (o : Owner) : (Tray.ownerReset o t).byFull = t.byFull := by unfold Tray.ownerReset; rfl
@[simp] theorem Tray.ownerReset_boardEeprom (o : Owner) : (Tray.ownerReset o t).boardEeprom = t.boardEeprom := by unfold Tray.ownerReset; rfl
@[simp] theorem Tray.ownerReset_bbuEeprom (o : Owner) : (Tray.ownerReset o t).bbuEeprom = t.bbuEeprom := by unfold Tray.ownerReset; rfl
@[simp] theorem Tray.ownerReset_twi (o : Owner) : (Tray.ownerReset o t).twi = t.twi := by unfold Tray.ownerReset; rfl
@[simp] theorem Tray.ownerReset_cages (o : Owner) : (Tray.ownerReset o t).cages = t.cages := by unfold Tray.ownerReset; rfl
@[simp] theorem Tray.ownerReset_orders (o : Owner) : (Tray.ownerReset o t).orders = t.orders := by unfold Tray.ownerReset; rfl
@[simp] theorem Tray.ownerReset_demands (o : Owner) : (Tray.ownerReset o t).demands = t.demands := by unfold Tray.ownerReset; rfl
@[simp] theorem Tray.ownerReset_sensors (o : Owner) : (Tray.ownerReset o t).sensors = t.sensors := by unfold Tray.ownerReset; rfl
@[simp] theorem Tray.ownerReset_log (o : Owner) : (Tray.ownerReset o t).log = t.log := by unfold Tray.ownerReset; rfl
@[simp] theorem Tray.ownerReset_logHead (o : Owner) : (Tray.ownerReset o t).logHead = t.logHead := by unfold Tray.ownerReset; rfl
@[simp] theorem Tray.ownerReset_logPending (o : Owner) : (Tray.ownerReset o t).logPending = t.logPending := by unfold Tray.ownerReset; rfl
@[simp] theorem Tray.ownerReset_logSel (o : Owner) : (Tray.ownerReset o t).logSel = t.logSel := by unfold Tray.ownerReset; rfl
@[simp] theorem Tray.ownerReset_trayZ (o : Owner) : (Tray.ownerReset o t).trayZ = t.trayZ := by unfold Tray.ownerReset; rfl
@[simp] theorem Tray.ownerReset_trayW (o : Owner) : (Tray.ownerReset o t).trayW = t.trayW := by unfold Tray.ownerReset; rfl
@[simp] theorem Tray.ownerReset_trayValid (o : Owner) : (Tray.ownerReset o t).trayValid = t.trayValid := by unfold Tray.ownerReset; rfl
@[simp] theorem Tray.ownerReset_net (o : Owner) : (Tray.ownerReset o t).net = t.net := by unfold Tray.ownerReset; rfl
@[simp] theorem Tray.ownerReset_autoSlots (o : Owner) : (Tray.ownerReset o t).autoSlots = t.autoSlots := by unfold Tray.ownerReset; rfl
@[simp] theorem Tray.ownerReset_autoCool (o : Owner) : (Tray.ownerReset o t).autoCool = t.autoCool := by unfold Tray.ownerReset; rfl
@[simp] theorem Tray.ownerReset_requesters (o : Owner) : (Tray.ownerReset o t).requesters = t.requesters := by unfold Tray.ownerReset; rfl
@[simp] theorem Tray.ownerReset_card (o : Owner) : (Tray.ownerReset o t).card = t.card := by unfold Tray.ownerReset; rfl
@[simp] theorem Tray.ownerReset_timeBase (o : Owner) : (Tray.ownerReset o t).timeBase = t.timeBase := by unfold Tray.ownerReset; rfl
@[simp] theorem Tray.ownerReset_timeHi (o : Owner) : (Tray.ownerReset o t).timeHi = t.timeHi := by unfold Tray.ownerReset; rfl
@[simp] theorem Tray.ownerReset_revision (o : Owner) : (Tray.ownerReset o t).revision = t.revision := by unfold Tray.ownerReset; rfl
@[simp] theorem Tray.ownerReset_busErr (o : Owner) : (Tray.ownerReset o t).busErr = t.busErr := by unfold Tray.ownerReset; rfl
@[simp] theorem Tray.ownerReset_indicator (o : Owner) : (Tray.ownerReset o t).indicator = t.indicator := by unfold Tray.ownerReset; rfl
@[simp] theorem Tray.onCard_card (f : Card → Card) : (Tray.onCard f t).card = f t.card := rfl

@[simp] theorem Tray.onBay_same (n : SlotId) (f : Bay → Bay) : (Tray.onBay n f t).bays[n] = f t.bays[n] := by
  simp [Tray.onBay]

theorem Tray.onBay_other {n m : SlotId} (h : m ≠ n) (f : Bay → Bay) : (Tray.onBay n f t).bays[m] = t.bays[m] := by
  simp [Tray.onBay, Fin.val_ne_of_ne h.symm]

@[simp] theorem Tray.onAxis_same (n : AxisId) (f : Axis → Axis) : (Tray.onAxis n f t).axes[n] = f t.axes[n] := by
  simp [Tray.onAxis]

theorem Tray.onAxis_other {n m : AxisId} (h : m ≠ n) (f : Axis → Axis) : (Tray.onAxis n f t).axes[m] = t.axes[m] := by
  simp [Tray.onAxis, Fin.val_ne_of_ne h.symm]

@[simp] theorem Tray.onDrive_same (n : DriveId) (f : Drive → Drive) : (Tray.onDrive n f t).drives[n] = f t.drives[n] := by
  simp [Tray.onDrive]

theorem Tray.onDrive_other {n m : DriveId} (h : m ≠ n) (f : Drive → Drive) : (Tray.onDrive n f t).drives[m] = t.drives[m] := by
  simp [Tray.onDrive, Fin.val_ne_of_ne h.symm]

@[simp] theorem Tray.onTwi_same (n : BusId) (f : Twi → Twi) : (Tray.onTwi n f t).twi[n] = f t.twi[n] := by
  simp [Tray.onTwi]

theorem Tray.onTwi_other {n m : BusId} (h : m ≠ n) (f : Twi → Twi) : (Tray.onTwi n f t).twi[m] = t.twi[m] := by
  simp [Tray.onTwi, Fin.val_ne_of_ne h.symm]

end Sys2Proof.Machine
end

