-- ==== Sys2Proof/Laws/Tile.lean ====
section
/-! SUPPORT. What the shared tile operations can do: tile updates, raised events, results put in flight, SRAM ports and
reads, and the issue of a slot operation. -/

namespace Sys2Proof.Machine

/-- What an operation of tile p may change of the chip, the waits apart. -/
structure TileStep (p : Fin 320) (c d : Chip) : Prop where
  eq : d = { c with cmp := { c.cmp with tiles := d.cmp.tiles }, fc := { c.fc with raised := d.fc.raised }, chk := d.chk,
                    pwr := { c.pwr with gov := d.pwr.gov } }
  others : ∀ q, q ≠ p → d.tile q = c.tile q
  same : sameTile (c.tile p) (d.tile p)

theorem TileStep.refl (p : Fin 320) (c : Chip) : TileStep p c c := ⟨rfl, fun _ _ => rfl, rfl⟩

theorem TileStep.trans {p : Fin 320} {c d e : Chip} (h : TileStep p c d) (k : TileStep p d e) : TileStep p c e := by
  obtain ⟨h1, h2, h3⟩ := h
  obtain ⟨k1, k2, k3⟩ := k
  refine ⟨?_, fun q hq => (k2 q hq).trans (h2 q hq), ?_⟩
  · rw [k1, h1]
  · unfold sameTile at *; rw [k3, h3]

theorem TileStep.pcc {p : Fin 320} {c d : Chip} (h : TileStep p c d) : d.cmp.pcc = c.cmp.pcc := by rw [h.eq]

theorem tile_onTile (c : Chip) (p q : Fin 320) (f : Tile → Tile) :
    (c.onTile p f).tile q = if q = p then f (c.tile p) else c.tile q := by
  simp only [Chip.onTile, Chip.tile]
  by_cases h : q = p
  · subst h; simp
  · have h' : p.val ≠ q.val := fun e => h (Fin.ext e.symm)
    simp [h, h']

@[simp] theorem tile_onTile_self (c : Chip) (p : Fin 320) (f : Tile → Tile) : (c.onTile p f).tile p = f (c.tile p) := by
  simp [tile_onTile]

theorem tile_onTile_other (c : Chip) (p q : Fin 320) (f : Tile → Tile) (h : q ≠ p) :
    (c.onTile p f).tile q = c.tile q := by simp [tile_onTile, h]

theorem tileStep_onTile (c : Chip) (p : Fin 320) (f : Tile → Tile) (h : sameTile (c.tile p) (f (c.tile p))) :
    TileStep p c (c.onTile p f) :=
  ⟨rfl, fun q hq => tile_onTile_other c p q f hq, by simpa using h⟩

/-- A change outside the tiles. -/
theorem tileStep_flat {c d : Chip} (p : Fin 320)
    (h : d = { c with fc := { c.fc with raised := d.fc.raised }, chk := d.chk, pwr := { c.pwr with gov := d.pwr.gov } }) :
    TileStep p c d ∧ d.cmp = c.cmp := by
  have hc : d.cmp = c.cmp := by rw [h]
  exact ⟨⟨by rw [h], fun q _ => by simp [Chip.tile, hc], by simp [Chip.tile, hc, sameTile]⟩, hc⟩

/-- A raise changes the raised sources alone. -/
theorem raise_eq (n : Nat) (o : Owner) (c : Chip) :
    c.raise n o = { c with fc := { c.fc with raised := (c.raise n o).fc.raised } } := by
  unfold Chip.raise Collector.raise; split <;> rfl

theorem tileStep_raise (p : Fin 320) (n : Nat) (o : Owner) (c : Chip) : TileStep p c (c.raise n o) ∧ (c.raise n o).cmp = c.cmp :=
  tileStep_flat p (by rw [raise_eq])

theorem tileStep_tileEvent (p : Fin 320) (v src info : Nat) (c : Chip) :
    TileStep p c (c.tileEvent v src info) ∧ (c.tileEvent v src info).cmp = c.cmp := by
  apply tileStep_flat
  unfold Chip.tileEvent
  simp only
  have h := raise_eq src (.tile v) c
  split <;> rw [h]

theorem tileStep_eccReport (p : Fin 320) (v off corr bad : Nat) (c : Chip) :
    TileStep p c (c.eccReport v off corr bad) ∧ (c.eccReport v off corr bad).cmp = c.cmp := by
  have h : TileStep p c (c.eccCorrected v corr) ∧ (c.eccCorrected v corr).cmp = c.cmp := by
    apply tileStep_flat
    unfold Chip.eccCorrected
    split
    · rfl
    · rw [raise_eq]
  have k : TileStep p (c.eccCorrected v corr) (c.eccReport v off corr bad) ∧
      (c.eccReport v off corr bad).cmp = (c.eccCorrected v corr).cmp := by
    apply tileStep_flat
    unfold Chip.eccReport Chip.eccUncorrectable
    split
    · rfl
    · split <;> rw [raise_eq]
  exact ⟨h.1.trans k.1, k.2.trans h.2⟩

theorem tileStep_strainReads (v : TileId) (p : Fin 320) (rs : List RegName) (c : Chip) :
    TileStep p c (strainReads v p rs c) ∧ (strainReads v p rs c).cmp = c.cmp := by
  unfold strainReads
  split
  · split
    · exact tileStep_tileEvent ..
    · exact ⟨TileStep.refl .., rfl⟩
  · exact ⟨TileStep.refl .., rfl⟩

/-- A result put in flight. -/
theorem addFlight_spec (p : Fin 320) (d : Dest) (l : Nat) (c : Chip) :
    TileStep p c (addFlight p d l c) ∧
      ((addFlight p d l c).tile p).flight = (c.tile p).flight ++ [⟨c.cmp.pcc, c.cmp.pcc + l, d⟩] ∧
      ((addFlight p d l c).tile p).use = (c.tile p).use := by
  unfold addFlight
  refine ⟨tileStep_onTile _ _ _ rfl, ?_, ?_⟩ <;> rw [tile_onTile_self]

/-- Several results put in flight, in order. -/
theorem addFlights_spec (p : Fin 320) (l : Nat) (ds : List Dest) (c : Chip) :
    TileStep p c (ds.foldl (fun c d => addFlight p d l c) c) ∧
      ((ds.foldl (fun c d => addFlight p d l c) c).tile p).flight =
        (c.tile p).flight ++ ds.map fun d => ⟨c.cmp.pcc, c.cmp.pcc + l, d⟩ := by
  induction ds generalizing c with
  | nil => exact ⟨TileStep.refl .., by simp⟩
  | cons d ds ih =>
    obtain ⟨h1, h2, -⟩ := addFlight_spec p d l c
    obtain ⟨k1, k2⟩ := ih (addFlight p d l c)
    refine ⟨h1.trans k1, ?_⟩
    simp only [List.foldl_cons]
    rw [k2, h2, h1.pcc]
    simp

/-- A port claim changes the record of the bundle and the raised sources. -/
theorem claimPort_spec (v : TileId) (p : Fin 320) (slot off : Nat) (w : Bool) (c : Chip) :
    TileStep p c (claimPort v p slot off w c).2 ∧ ((claimPort v p slot off w c).2.tile p).flight = (c.tile p).flight ∧
      (claimPort v p slot off w c).1 = portFits (c.useNow p) (subBank off) w := by
  unfold claimPort
  simp only
  split
  · next h =>
    refine ⟨?_, by simp, h.symm⟩
    dsimp only
    apply tileStep_onTile
    rfl
  · next h =>
    have k := tileStep_tileEvent p v.val 0 (subBank off + slot * 16 + if w = true then 128 else 0) c
    exact ⟨k.1, by simp [Chip.tile, k.2], by simpa using h⟩

/-- A read of a line: the line as memory holds it where its port fits, else zeros. -/
theorem readLine_spec (mem : List Host.Cell) (ecc : List (Nat × EccMark)) (v : TileId) (p : Fin 320) (slot off : Nat)
    (c : Chip) :
    TileStep p c (readLine mem ecc v p slot off c).2 ∧
      ((readLine mem ecc v p slot off c).2.tile p).flight = (c.tile p).flight ∧
      (readLine mem ecc v p slot off c).1 =
        if portFits (c.useNow p) (subBank off) false then Memory.line mem (tileBase p.val + off) else Line.zero := by
  obtain ⟨h1, h2, h3⟩ := claimPort_spec v p slot off false c
  unfold readLine
  split
  · next d e => rw [e] at h1 h2 h3; simp only at h3; exact ⟨h1, h2, by simp [← h3]⟩
  · next d e =>
    rw [e] at h1 h2 h3
    simp only at h3
    have k := tileStep_eccReport p v.val off (Ecc.check ecc ((tileBase p.val + off) / 8) 32).1
      (Ecc.check ecc ((tileBase p.val + off) / 8) 32).2 d
    exact ⟨h1.trans k.1, by simpa [Chip.tile, k.2] using h2, by simp [← h3]⟩

theorem tileStep_onActivity (p q : Fin 320) (f : Nat → Nat) (c : Chip) :
    TileStep p c (onActivity q f c) ∧ (onActivity q f c).cmp = c.cmp := by
  apply tileStep_flat
  unfold onActivity
  split <;> rfl

theorem tileStep_addActivity (p : Fin 320) (k : LatClass) (c : Chip) :
    TileStep p c (addActivity p k c) ∧ ((addActivity p k c).tile p).flight = (c.tile p).flight := by
  unfold addActivity
  have a := tileStep_onTile c p (fun t => { t with use := { t.use with activity := t.use.activity + activityOf k } })
    (by unfold sameTile; rfl)
  have g := tileStep_onActivity p p (fun n => n + activityOf k)
    (c.onTile p fun t => { t with use := { t.use with activity := t.use.activity + activityOf k } })
  refine ⟨a.trans g.1, ?_⟩
  have e := tile_onTile_self c p fun t => { t with use := { t.use with activity := t.use.activity + activityOf k } }
  simp only [Chip.tile, g.2] at e ⊢
  rw [e]

theorem issued_spec (v : TileId) (p : Fin 320) (slot : Nat) (pred : PReg) (k : LatClass) (dests reads : List RegName)
    (c : Chip) :
    TileStep p c (issued v p slot pred k dests reads c) ∧
      ((issued v p slot pred k dests reads c).tile p).flight = (c.tile p).flight := by
  unfold issued
  extract_lets u d
  have a : TileStep p c d := tileStep_onTile c p _ (by unfold sameTile; rfl)
  have h := tileStep_strainReads v p (.pd pred :: reads) d
  have g := tileStep_addActivity p k (strainReads v p (.pd pred :: reads) d)
  refine ⟨(a.trans h.1).trans g.1, ?_⟩
  rw [g.2]
  have e := tile_onTile_self c p fun t => { t with use :=
    { u with named := u.named ++ countedDests dests, namedBy := u.namedBy ++ (countedDests dests).map fun d => (d, slot) } }
  simp only [Chip.tile, h.2] at e ⊢
  simp only [d]
  rw [e]

/-- The registers of a tile do not change while its operation issues. -/
theorem issued_tile (v : TileId) (p : Fin 320) (slot : Nat) (pred : PReg) (k : LatClass) (dests reads : List RegName)
    (c : Chip) : sameTile (c.tile p) ((issued v p slot pred k dests reads c).tile p) :=
  (issued_spec v p slot pred k dests reads c).1.same

/-- Noting a bundle's events changes its record alone. -/
theorem noteEvents_spec (v : TileId) (p : Fin 320) (b c : Chip) :
    TileStep p c (noteEvents v p b c) ∧ ((noteEvents v p b c).tile p).flight = (c.tile p).flight := by
  unfold noteEvents
  extract_lets new k u kept
  split
  · exact ⟨TileStep.refl .., rfl⟩
  · exact ⟨tileStep_onTile _ _ _ rfl, by rw [tile_onTile_self]⟩

@[simp] theorem noteEvents_fc (v : TileId) (p : Fin 320) (b c : Chip) : (noteEvents v p b c).fc = c.fc := by
  unfold noteEvents
  extract_lets new k u kept
  split <;> rfl

/-- An operation that issues runs its body. -/
theorem issue_runs (s : State) (v : TileId) (p : Fin 320) (slot : Nat) (pred : PReg) (k : LatClass)
    (dests reads : List RegName) (body : Fin 320 → Chip → Chip) (h : Issues s v p pred dests) :
    issue v slot pred k true dests reads body s.sys.chip =
      noteEvents v p s.sys.chip (body p (issued v p slot pred k dests reads s.sys.chip)) := by
  obtain ⟨h1, h2, h3, h4⟩ := h
  have ht := issued_tile v p slot pred k dests reads s.sys.chip
  have hp : ((issued v p slot pred k dests reads s.sys.chip).tile p).pd[pred] = true := by
    rw [ht]; exact h3
  unfold issue
  simp only [h1, h2, h4, Bool.not_true, Bool.or_self, Bool.false_eq_true, if_false, hp, if_true]

/-- A step of one tile that only puts results in flight. -/
theorem flies_of_step {s : State} {p : Fin 320} {d : Chip} {ds : List (Nat × Dest)} (h : TileStep p s.sys.chip d)
    (hf : (d.tile p).flight = (s.sys.chip.tile p).flight ++
      ds.map fun x => { issued := s.sys.chip.cmp.pcc, land := s.sys.chip.cmp.pcc + x.1, dest := x.2 }) :
    Flies (.next { s with sys := { s.sys with chip := d } }) s p ds := by
  have hw : d.cmp.waits = s.sys.chip.cmp.waits := by rw [h.eq]
  refine ⟨_, rfl, ?_, hw, h.others, h.same, hf⟩
  unfold onlyTiles
  have e := h.eq
  simp only
  rw [hw]
  exact congrArg (fun c => { s with sys := { s.sys with chip := c } }) e

/-- As `flies_of_step`, once the bundle's events are noted. -/
theorem flies_noted {s : State} {v : TileId} {p : Fin 320} {d : Chip} {ds : List (Nat × Dest)} (h : TileStep p s.sys.chip d)
    (hf : (d.tile p).flight = (s.sys.chip.tile p).flight ++
      ds.map fun x => { issued := s.sys.chip.cmp.pcc, land := s.sys.chip.cmp.pcc + x.1, dest := x.2 }) :
    Flies (.next { s with sys := { s.sys with chip := noteEvents v p s.sys.chip d } }) s p ds :=
  have n := noteEvents_spec v p s.sys.chip d
  flies_of_step (h.trans n.1) (n.2.trans hf)

/-- An operation whose effect is results of one latency. -/
theorem issueResult_flies (s : State) (v : TileId) (p : Fin 320) (slot : Nat) (pred : PReg) (k : LatClass)
    (dests reads : List RegName) (result : Tile → List Dest) (h : Issues s v p pred dests)
    (hr : ∀ t u, sameTile t u → result u = result t) :
    Flies (onChip (issueResult v slot pred k true dests reads result) s) s p
      ((result (s.sys.chip.tile p)).map fun d => (latency k false, d)) := by
  have hi := issued_spec v p slot pred k dests reads s.sys.chip
  have e : issueResult v slot pred k true dests reads result s.sys.chip =
      noteEvents v p s.sys.chip ((result (s.sys.chip.tile p)).foldl (fun c d => addFlight p d (latency k false) c)
        (issued v p slot pred k dests reads s.sys.chip)) := by
    unfold issueResult
    rw [issue_runs s v p slot pred k dests reads _ h, hr _ _ hi.1.same]
  have hs := addFlights_spec p (latency k false) (result (s.sys.chip.tile p))
    (issued v p slot pred k dests reads s.sys.chip)
  have : onChip (issueResult v slot pred k true dests reads result) s =
      .next { s with sys := { s.sys with chip := issueResult v slot pred k true dests reads result s.sys.chip } } := rfl
  rw [this, e]
  refine flies_noted (hi.1.trans hs.1) ?_
  rw [hs.2, hi.2, hi.1.pcc]
  simp [List.map_map, Function.comp_def]

theorem latency_al : latency .al false = 1 := rfl

theorem latency_st (far : Bool) : latency .st far = if far then 4 else 3 := by cases far <;> rfl

theorem foldl_flights_one (p : Fin 320) (l : Nat) (ds : List Dest) (c : Chip) :
    ((ds.foldl (fun c d => addFlight p d l c) c).tile p).flight =
      (c.tile p).flight ++ (ds.map fun d => (l, d)).map fun x => ⟨c.cmp.pcc, c.cmp.pcc + x.1, x.2⟩ := by
  rw [(addFlights_spec p l ds c).2]; simp

/-- The record of the issuing bundle after an operation has issued. -/
theorem issued_useNow (v : TileId) (p : Fin 320) (slot : Nat) (pred : PReg) (k : LatClass) (dests reads : List RegName)
    (c : Chip) : (issued v p slot pred k dests reads c).useNow p =
      { notes slot (c.useNow p) with
        named := (c.useNow p).named ++ countedDests dests,
        namedBy := (c.useNow p).namedBy ++ (countedDests dests).map fun d => (d, slot),
        activity := (c.useNow p).activity + activityOf k } := by
  have h := (issued_spec v p slot pred k dests reads c).1.pcc
  have hu : ((issued v p slot pred k dests reads c).tile p).use =
      { notes slot (c.useNow p) with
        named := (c.useNow p).named ++ countedDests dests,
        namedBy := (c.useNow p).namedBy ++ (countedDests dests).map fun d => (d, slot),
        activity := (c.useNow p).activity + activityOf k } := by
    unfold issued
    extract_lets u d
    have a := tileStep_strainReads v p (.pd pred :: reads) d
    unfold addActivity
    have g := tileStep_onActivity p p (fun n => n + activityOf k)
      ((strainReads v p (.pd pred :: reads) d).onTile p fun t =>
        { t with use := { t.use with activity := t.use.activity + activityOf k } })
    have e : ∀ c d : Chip, d.cmp = c.cmp → d.tile p = c.tile p := fun c d h => by simp [Chip.tile, h]
    rw [e _ _ g.2, tile_onTile_self, e _ _ a.2]
    simp only [d, tile_onTile_self, u, notes]
  have hc : (c.useNow p).pcc = c.cmp.pcc := by
    unfold Chip.useNow; simp only; split
    · next h => simpa using h
    · rfl
  have e2 : (issued v p slot pred k dests reads c).useNow p = ((issued v p slot pred k dests reads c).tile p).use := by
    unfold Chip.useNow
    simp only [h]
    rw [if_pos]
    rw [hu]; simp [notes, hc]
  rw [e2, hu]

/-- The record of the issuing bundle as to its ports: an operation that issues changes none. -/
theorem issued_ports (v : TileId) (p : Fin 320) (slot : Nat) (pred : PReg) (k : LatClass) (dests reads : List RegName)
    (c : Chip) (sub : Nat) (w : Bool) :
    portFits ((issued v p slot pred k dests reads c).useNow p) sub w = portFits (c.useNow p) sub w := by
  rw [issued_useNow]; rfl

/-- An operation that reads a line of SRAM and lands a result made of it, and an INC update. -/
theorem reads_flies (s : State) (v : TileId) (p : Fin 320) (slot : Nat) (pred : PReg) (k : LatClass)
    (dests reads : List RegName) (ea : Tile → Nat) (inc : Tile → List Dest) (dest : Line → Dest)
    (h : Issues s v p pred dests) (he : ∀ t u, sameTile t u → ea u = ea t) (hi : ∀ t u, sameTile t u → inc u = inc t) :
    Flies (onSysMem (fun mem y => y.onChip fun c => issue v slot pred k true dests reads (fun p c =>
        let t := c.tile p
        let off := ea t
        let x := readLine mem y.ecc v p slot off c
        let c := addFlight p (dest x.1) (latency k (isFar off)) x.2
        (inc t).foldl (fun c d => addFlight p d (latency .al false) c) c) c) s) s p
      ((latency k (isFar (ea (s.sys.chip.tile p))),
          dest (if portFits (s.sys.chip.useNow p) (subBank (ea (s.sys.chip.tile p))) false
            then Memory.line s.mem (tileBase p.val + ea (s.sys.chip.tile p)) else Line.zero)) ::
        (inc (s.sys.chip.tile p)).map fun d => (1, d)) := by
  obtain ⟨i1, i2⟩ := issued_spec v p slot pred k dests reads s.sys.chip
  have ip := issued_ports v p slot pred k dests reads s.sys.chip
  obtain ⟨r1, r2, r3⟩ := readLine_spec s.mem s.sys.ecc v p slot (ea (s.sys.chip.tile p))
    (issued v p slot pred k dests reads s.sys.chip)
  rw [ip] at r3
  have a := addFlight_spec p (dest (if portFits (s.sys.chip.useNow p) (subBank (ea (s.sys.chip.tile p))) false
    then Memory.line s.mem (tileBase p.val + ea (s.sys.chip.tile p)) else Line.zero))
    (latency k (isFar (ea (s.sys.chip.tile p))))
    (readLine s.mem s.sys.ecc v p slot (ea (s.sys.chip.tile p)) (issued v p slot pred k dests reads s.sys.chip)).2
  have b := addFlights_spec p (latency .al false) (inc (s.sys.chip.tile p)) (addFlight p
    (dest (if portFits (s.sys.chip.useNow p) (subBank (ea (s.sys.chip.tile p))) false
      then Memory.line s.mem (tileBase p.val + ea (s.sys.chip.tile p)) else Line.zero))
    (latency k (isFar (ea (s.sys.chip.tile p))))
    (readLine s.mem s.sys.ecc v p slot (ea (s.sys.chip.tile p)) (issued v p slot pred k dests reads s.sys.chip)).2)
  show Flies (.next { s with sys := { s.sys with chip := issue v slot pred k true dests reads _ s.sys.chip } }) s p _
  rw [issue_runs s v p slot pred k dests reads _ h]
  simp only [he _ _ i1.same, hi _ _ i1.same, r3]
  refine flies_noted (((i1.trans r1).trans a.1).trans b.1) ?_
  rw [b.2, a.2.1, r2, i2, a.1.pcc, r1.pcc, i1.pcc]
  simp [Function.comp_def, latency_al]

/-- A claim of a write port where the operation issues. -/
theorem claim_issued (v : TileId) (p : Fin 320) (slot slot' : Nat) (pred : PReg) (k : LatClass) (dests reads : List RegName)
    (off : Nat) (c : Chip) :
    (claimPort v p slot' off true (issued v p slot pred k dests reads c)).1 =
      portFits (c.useNow p) (subBank off) true := by
  rw [(claimPort_spec v p slot' off true _).2.2, issued_ports]

/-- An operation that stores a line where its port fits, and an INC update. -/
theorem storeOp_flies (s : State) (v : TileId) (p : Fin 320) (pred : PReg) (r : VReg) (dests reads : List RegName)
    (ea : Tile → Nat) (inc : Tile → List Dest) (mask : Tile → Word) (h : Issues s v p pred dests)
    (he : ∀ t u, sameTile t u → ea u = ea t) (hi : ∀ t u, sameTile t u → inc u = inc t)
    (hm : ∀ t u, sameTile t u → mask u = mask t) :
    Flies (storeOp v pred r dests reads ea inc mask s) s p
      ((if portFits (s.sys.chip.useNow p) (subBank (ea (s.sys.chip.tile p))) true
        then [(if isFar (ea (s.sys.chip.tile p)) then 4 else 3,
          Dest.sram (ea (s.sys.chip.tile p)) (s.sys.chip.tile p).v[r] (mask (s.sys.chip.tile p)))] else []) ++
        (inc (s.sys.chip.tile p)).map fun d => (1, d)) := by
  obtain ⟨i1, i2⟩ := issued_spec v p 1 pred .st dests (.v r :: reads) s.sys.chip
  have hv : ((issued v p 1 pred .st dests (.v r :: reads) s.sys.chip).tile p).v = (s.sys.chip.tile p).v := by
    rw [i1.same]
  obtain ⟨r1, r2, -⟩ := claimPort_spec v p 1 (ea (s.sys.chip.tile p)) true
    (issued v p 1 pred .st dests (.v r :: reads) s.sys.chip)
  have a := addFlight_spec p (.sram (ea (s.sys.chip.tile p)) (s.sys.chip.tile p).v[r] (mask (s.sys.chip.tile p)))
    (latency .st (isFar (ea (s.sys.chip.tile p))))
    (claimPort v p 1 (ea (s.sys.chip.tile p)) true (issued v p 1 pred .st dests (.v r :: reads) s.sys.chip)).2
  show Flies (.next { s with sys := { s.sys with chip := issue v 1 pred .st true dests (.v r :: reads) _ s.sys.chip } })
    s p _
  rw [issue_runs s v p 1 pred .st dests (.v r :: reads) _ h]
  simp only [he _ _ i1.same, hi _ _ i1.same, hm _ _ i1.same, hv, claim_issued]
  by_cases hp : portFits (s.sys.chip.useNow p) (subBank (ea (s.sys.chip.tile p))) true = true
  · simp only [hp, if_true]
    have b := addFlights_spec p (latency .al false) (inc (s.sys.chip.tile p)) (addFlight p
      (.sram (ea (s.sys.chip.tile p)) (s.sys.chip.tile p).v[r] (mask (s.sys.chip.tile p)))
      (latency .st (isFar (ea (s.sys.chip.tile p))))
      (claimPort v p 1 (ea (s.sys.chip.tile p)) true (issued v p 1 pred .st dests (.v r :: reads) s.sys.chip)).2)
    refine flies_noted (((i1.trans r1).trans a.1).trans b.1) ?_
    rw [b.2, a.2.1, r2, i2, a.1.pcc, r1.pcc, i1.pcc]
    simp [Function.comp_def, latency_al, latency_st]
  · simp only [hp, if_false, Bool.false_eq_true]
    have b := addFlights_spec p (latency .al false) (inc (s.sys.chip.tile p))
      (claimPort v p 1 (ea (s.sys.chip.tile p)) true (issued v p 1 pred .st dests (.v r :: reads) s.sys.chip)).2
    refine flies_noted ((i1.trans r1).trans b.1) ?_
    rw [b.2, r2, i2, r1.pcc, i1.pcc]
    simp [Function.comp_def, latency_al]

/-- A V-slot operation that writes pieces of Vd. -/
theorem vecOp_flies (s : State) (v : TileId) (p : Fin 320) (pred : PReg) (k : LatClass) (vd : VReg) (reads : List RegName)
    (f : VCtx → Tile → List (Nat × List Byte) × Bool) (h : Issues s v p pred [.v vd])
    (hf : ∀ x t u, sameTile t u → f x u = f x t) :
    let y := f ⟨s.sys.chip.time.seed, s.sys.chip.cmp.pcc, v.val⟩ (s.sys.chip.tile p)
    Flies (vecOp v pred k true vd reads f s) s p [(latency k false, .v vd y.1)] ∧
      (y.2 → ∃ u, vecOp v pred k true vd reads f s = .next u ∧ ⟨8, .tile v.val⟩ ∈ u.sys.chip.fc.raised) := by
  intro y
  obtain ⟨i1, i2⟩ := issued_spec v p 3 pred k [.v vd] reads s.sys.chip
  have ht : (issued v p 3 pred k [.v vd] reads s.sys.chip).time = s.sys.chip.time := by rw [i1.eq]
  have a := addFlight_spec p (.v vd y.1) (latency k false) (issued v p 3 pred k [.v vd] reads s.sys.chip)
  have hx : vecOp v pred k true vd reads f s = .next { s with sys := { s.sys with
      chip := noteEvents v p s.sys.chip (if y.2 then (addFlight p (.v vd y.1) (latency k false)
          (issued v p 3 pred k [.v vd] reads s.sys.chip)).raise 8 (.tile v.val)
        else addFlight p (.v vd y.1) (latency k false) (issued v p 3 pred k [.v vd] reads s.sys.chip)) } } := by
    show Host.Outcome.next { s with sys := { s.sys with chip := issue v 3 pred k true [.v vd] reads _ s.sys.chip } } = _
    rw [issue_runs s v p 3 pred k [.v vd] reads _ h]
    simp only [hf _ _ _ i1.same, ht, i1.pcc, y]
  rw [hx]
  have g := tileStep_raise p 8 (.tile v.val) (addFlight p (.v vd y.1) (latency k false)
    (issued v p 3 pred k [.v vd] reads s.sys.chip))
  by_cases hy : y.2 = true
  · simp only [hy, if_true]
    refine ⟨flies_noted ((i1.trans a.1).trans g.1) ?_, fun _ => ⟨_, rfl, ?_⟩⟩
    · have : ∀ c d : Chip, d.cmp = c.cmp → d.tile p = c.tile p := fun c d h => by simp [Chip.tile, h]
      rw [this _ _ g.2, a.2.1, i2, i1.pcc]
      rfl
    · rw [noteEvents_fc]; simp [Chip.raise, Collector.raise, finOf]
  · simp only [hy, Bool.false_eq_true, if_false]
    refine ⟨flies_noted (i1.trans a.1) ?_, fun h => h.elim⟩
    rw [a.2.1, i2, i1.pcc]
    rfl

/-- A change of a tile after steps that are the tile's. -/
theorem fliesWith_onTile {s : State} {p : Fin 320} {c1 : Chip} (f g : Tile → Tile) (ds : List (Nat × Dest))
    (h : TileStep p s.sys.chip c1) (hg : sameTile (g (s.sys.chip.tile p)) (f (c1.tile p)))
    (hf : (f (c1.tile p)).flight = (g (s.sys.chip.tile p)).flight ++
      ds.map fun x => { issued := s.sys.chip.cmp.pcc, land := s.sys.chip.cmp.pcc + x.1, dest := x.2 }) :
    FliesWith g (.next { s with sys := { s.sys with chip := c1.onTile p f } }) s p ds := by
  have hw : (c1.onTile p f).cmp.waits = s.sys.chip.cmp.waits := by
    simp only [Chip.onTile]; rw [h.eq]
  have eq : c1.onTile p f = { s.sys.chip with
      cmp := { s.sys.chip.cmp with tiles := (c1.onTile p f).cmp.tiles },
      fc := { s.sys.chip.fc with raised := (c1.onTile p f).fc.raised }, chk := (c1.onTile p f).chk,
      pwr := { s.sys.chip.pwr with gov := (c1.onTile p f).pwr.gov } } := by
    simp only [Chip.onTile]; rw [h.eq]
  refine ⟨_, rfl, ?_, hw, ?_, ?_, ?_⟩
  · unfold onlyTiles
    simp only
    rw [hw]
    exact congrArg (fun c => { s with sys := { s.sys with chip := c } }) eq
  · intro q hq; simp only; rw [tile_onTile_other _ _ _ _ hq, h.others q hq]
  · simpa using hg
  · simpa using hf

theorem onChip_next (f : Chip → Chip) (s : State) : onChip f s = .next { s with sys := { s.sys with chip := f s.sys.chip } } := rfl

theorem bundleLoops_congr (t u : Tile) (x y : BundleUse) (h1 : t.k = u.k) (h2 : t.addr = u.addr)
    (h3 : x.before = y.before) (h4 : x.tested = y.tested) (h5 : x.begun = y.begun) : bundleLoops t x = bundleLoops u y := by
  have : ∀ ls, loopTest t t.addr ls = loopTest u u.addr ls := by
    intro ls
    induction ls with
    | nil => rfl
    | cons l rest ih => unfold loopTest; rw [ih, h1, h2]
  unfold bundleLoops
  rw [this, h3, h4, h5]

/-- The record of the issuing bundle depends on the tile's record and loops, and on PCC. -/
theorem useNow_congr {p : Fin 320} {c d : Chip} (h1 : (d.tile p).use = (c.tile p).use)
    (h2 : (d.tile p).loops = (c.tile p).loops) (h3 : d.cmp.pcc = c.cmp.pcc) : d.useNow p = c.useNow p := by
  unfold Chip.useNow; simp only [h1, h2, h3]

end Sys2Proof.Machine
end

