-- ==== Sys2Proof/Laws/Tray.lean ====
section
/-! SUPPORT. What the tray's shared operations can do: the forms of its meanings, time that passes, and the settling of what
the base board's hardware derives. -/

namespace Sys2Proof.Machine

variable (s : State) (y : Sys) (t : Tray)

/-! The forms of a meaning. -/

theorem onSys_eq (f : Sys → Sys) : onSys f s = .next { s with sys := f s.sys } := rfl
theorem onChip_eq (f : Chip → Chip) : onChip f s = .next (s.withChip f) := rfl
theorem onTray_eq (f : Nat → Tray → Tray) : onTray f s = .next (s.withTray (f s.sys.now)).settled := rfl
theorem onBoard_eq (f : Sys → Sys) : onBoard f s = .next { s with sys := settleTray (f s.sys) } := rfl

theorem onTrayAt_none {due : Tray → Option Nat} (f : Nat → Tray → Tray) (h : due s.sys.tray = none) :
    onTrayAt due f s = .next s.settled := by
  simp [onTrayAt, onBoard_eq, h, State.settled]

theorem onTrayAt_some {due : Tray → Option Nat} {n : Nat} (f : Nat → Tray → Tray) (h : due s.sys.tray = some n) :
    onTrayAt due f s = .next ((s.passed n).withTray (f (s.passed n).sys.now)).settled := by
  simp [onTrayAt, onBoard_eq, h, State.settled, State.passed, State.withTray, Sys.onTray]

/-! Time that passes. -/

theorem await_le (n : Nat) (h : n ≤ y.now) : y.await n = y := if_pos h

theorem le_await (n : Nat) : n ≤ (y.await n).now := by
  unfold Sys.await
  split
  · assumption
  · show n ≤ y.now + 12 * ((n - y.now + 11) / 12); omega

theorem now_le_await (n : Nat) : y.now ≤ (y.await n).now := by
  unfold Sys.await
  split
  · exact le_rfl
  · exact Nat.le_add_right _ _

@[simp] theorem await_tray (n : Nat) : (y.await n).tray = y.tray := by unfold Sys.await; split <;> rfl
@[simp] theorem await_out (n : Nat) : (y.await n).out = y.out := by unfold Sys.await; split <;> rfl
@[simp] theorem await_free (n : Nat) : (y.await n).free = y.free := by unfold Sys.await; split <;> rfl
@[simp] theorem await_ecc (n : Nat) : (y.await n).ecc = y.ecc := by unfold Sys.await; split <;> rfl

theorem traceHeld_eq (n : Nat) (c : Chip) : ∃ tr full, traceHeld n c =
    { c with map := { c.map with trace := tr, traceFull := full } } := by
  unfold traceHeld
  split <;> exact ⟨_, _, rfl⟩

theorem passTicks_eq (k : Nat) (c : Chip) : ∃ time, passTicks k c = { c with time := time } := by
  unfold passTicks
  split <;> exact ⟨_, rfl⟩

/-- Of the chip, time only moves the count of core cycles, the time base, the trace and the search unit's work. -/
theorem await_chip (n : Nat) : ∃ k time tr full work, (y.await n).chip =
    { y.chip with cmp := { y.chip.cmp with cycles := k }, time := time,
                  map := { y.chip.map with trace := tr, traceFull := full }, srch := { y.chip.srch with work := work } } := by
  unfold Sys.await
  split
  · exact ⟨_, _, _, _, _, rfl⟩
  · extract_lets k n c w l
    obtain ⟨time, ht⟩ := passTicks_eq k y.chip
    obtain ⟨tr, full, hc⟩ := traceHeld_eq n (passTicks k y.chip)
    have hcc : c = { y.chip with time := time, map := { y.chip.map with trace := tr, traceFull := full } } := by
      rw [show c = traceHeld n (passTicks k y.chip) from rfl, hc, ht]
    clear_value w l c
    subst hcc
    exact ⟨y.chip.cmp.cycles + n, { time with lag := time.lag + l }, tr, full, y.chip.srch.work + w, rfl⟩

/-! Settling. -/

@[simp] theorem settleTray_chip : (settleTray y).chip = y.chip := rfl
@[simp] theorem settleTray_out : (settleTray y).out = y.out := rfl
@[simp] theorem settleTray_now : (settleTray y).now = y.now := rfl
@[simp] theorem settleTray_free : (settleTray y).free = y.free := rfl
@[simp] theorem settleTray_ecc : (settleTray y).ecc = y.ecc := rfl

/-- PWR_EN is set in every bay, and nothing else changes. -/
theorem foldl_onCpc (g : SlotId → Cpc → Cpc) (l : List SlotId) (hl : l.Nodup) : ∀ t : Tray,
    l.foldl (fun u n => u.onCpc n (g n)) t =
      { t with bays := Vector.ofFn fun m => if m ∈ l then { t.bays[m] with cpc := g m t.bays[m].cpc } else t.bays[m] } := by
  induction l with
  | nil => intro t; simp
  | cons n l ih =>
    intro t
    rw [List.nodup_cons] at hl
    rw [List.foldl_cons, ih hl.2]
    simp only [Tray.onCpc, Tray.onBay]
    congr 1
    apply Vector.ext
    intro i hi
    simp only [Vector.getElem_ofFn, Vector.getElem_set, List.mem_cons, Fin.getElem_fin]
    by_cases hn : (⟨i, hi⟩ : SlotId) = n
    · subst hn; simp [hl.1]
    · have : n.val ≠ i := fun h => hn (Fin.ext h.symm)
      simp [this, hn]

theorem settlePwrEn_eq (now : Nat) : settlePwrEn now t =
    { t with bays := Vector.ofFn fun m => { t.bays[m] with cpc := setPwrEn (t.pwrEn m) now t.bays[m].cpc } } := by
  have h := foldl_onCpc (fun n => setPwrEn (t.pwrEn n) now) allSlots (List.nodup_finRange 16) t
  simpa [settlePwrEn, allSlots] using h

theorem foldl_onDrive (g : DriveId → Drive → Drive) (l : List DriveId) (hl : l.Nodup) : ∀ t : Tray,
    l.foldl (fun u k => u.onDrive k (g k)) t =
      { t with drives := Vector.ofFn fun k => if k ∈ l then g k t.drives[k] else t.drives[k] } := by
  induction l with
  | nil => intro t; simp
  | cons n l ih =>
    intro t
    rw [List.nodup_cons] at hl
    rw [List.foldl_cons, ih hl.2]
    simp only [Tray.onDrive]
    congr 1
    apply Vector.ext
    intro i hi
    simp only [Vector.getElem_ofFn, Vector.getElem_set, List.mem_cons, Fin.getElem_fin]
    by_cases hn : (⟨i, hi⟩ : DriveId) = n
    · subst hn; simp [hl.1]
    · have : n.val ≠ i := fun h => hn (Fin.ext h.symm)
      simp [this, hn]

theorem settleDrives_eq (now : Nat) : settleDrives now t =
    { t with drives := Vector.ofFn fun k =>
        settleDrive (!t.drives[k].present || !t.drivesPowered) (dutyGoal t k) now t.drives[k] } := by
  simp [settleDrives, foldl_onDrive _ (List.finRange 8) (List.nodup_finRange 8)]

end Sys2Proof.Machine
end

