-- ==== Sys2Proof/WellFormed.lean ====
section
/-! DEFINITION. The operands that the world outside can give a command, where the operand's type is wider than the wire or
the field that carries it. The meanings are total: an ill-formed command answers a next state too. -/

namespace Sys2Proof

/-- The checks, by name. -/
inductive Ill where
  /-- A link frame is 272 bytes (09 Table 09-3). -/
  | frameLength
  /-- An access of a register space carries 1, 2, 4 or 8 bytes (03 R83, 13 R345). -/
  | registerSize
  /-- A doorbell page is 4 KiB, and a write into it moves at least one byte and stays within it (13 Table 13-2). -/
  | pushRange
  /-- An access through the window moves at least one byte (13 R345). -/
  | emptyAccess
  /-- A base-board transaction moves at most 64 bytes, 32 each way (20 Table 20-8). -/
  | transactionLength
  /-- A charge is a percentage (17 R460). -/
  | chargePercent
  /-- A scan reads a point once (18 R485). -/
  | pointTwice
  deriving DecidableEq, Repr

/-- The check that a command fails, if any. -/
def Instr.ill : Instr → Option Ill
  | .frameReceive _ bytes => if bytes.length == 272 then none else some .frameLength
  | .registerWrite _ _ size _ => if [1, 2, 4, 8].contains size then none else some .registerSize
  | .push _ offset bytes => if 1 ≤ bytes.length && offset + bytes.length ≤ 4096 then none else some .pushRange
  | .windowAccess _ (.read len) => if 1 ≤ len then none else some .emptyAccess
  | .windowAccess _ (.write bytes) => if 1 ≤ bytes.length then none else some .emptyAccess
  | .twoWireTransactionDone _ _ bytes => if bytes.length ≤ 64 then none else some .transactionLength
  | .bbuInsert _ charge => if charge ≤ 100 then none else some .chargePercent
  | .sensorScan _ readings => if (readings.map fun r => r.1).Nodup then none else some .pointTwice
  | _ => none

def Instr.wf (i : Instr) : Bool := i.ill.isNone

end Sys2Proof
end

