-- ==== Sys2Proof/Tests/Slice0.lean ====
section
/-! SUPPORT. The authors' own tests: commands that the checks of WellFormed refuse, states that meet the hypotheses of the
statements, and a few single steps against the spec's own figures. -/

namespace Sys2Proof.Tests

open Sys2Proof.Machine

set_option maxRecDepth 100000

/-! States to test on. -/

/-- After reset, in run state, every domain on. -/
def run : State := State.reset.withChip fun c =>
  { c with map := { c.map with run := true }, cmp := { c.cmp with started := true }, pwr := { c.pwr with on := 0xFFF } }

/-- After reset, out of run state, every domain on. -/
def idle : State := State.reset.withChip (Chip.onPwr fun p => { p with on := 0xFFF })

/-- Tile 0 of a running chip in another state. -/
def tile (f : Tile → Tile) : State := run.withChip (Chip.onTile 0 f)

def port (f : Port → Port) : State := idle.withChip (Chip.onPort 4 f)

/-- Port 4 of a state's chip. -/
def px (s : State) : Port := s.sys.chip.port 4

def qp (f : QueuePair → QueuePair) : State := idle.withChip (Chip.onQp 0 f)

def hif (f : HostIf → HostIf) : State := idle.withChip fun c => { c with hif := f c.hif }

def tray (f : Tray → Tray) : State := State.reset.withTray f

def axis (f : Axis → Axis) : State := tray fun t => { t with input := .normal, axes := t.axes.set 0 (f t.axes[0]) }

def cpc (f : Cpc → Cpc) : State := tray (Tray.onCpc 0 f)

def card (f : Card → Card) : State := tray (Tray.onCard f)

def hdr (i : Inlet) : TmpHdr := ⟨i, 5, 9, 1⟩

def line0 : LineAddr := ⟨1, 0, 1⟩
def bank0 : BankAddr := ⟨1, 15, 0, 0xFF⟩

/-! The checks of WellFormed refuse an ill-formed command of each kind. -/

theorem test_ill_frame : (Instr.frameReceive 0 [0]).ill = some .frameLength := by decide
theorem test_ill_register : (Instr.registerWrite .chip 0 3 0).ill = some .registerSize := by decide
theorem test_ill_push : (Instr.push 0 4090 (List.replicate 8 0)).ill = some .pushRange := by decide
theorem test_ill_window : (Instr.windowAccess 0 (.read 0)).ill = some .emptyAccess := by decide
theorem test_ill_transaction :
    (Instr.twoWireTransactionDone 0 .ok (List.replicate 65 0)).ill = some .transactionLength := by decide
theorem test_ill_charge : (Instr.bbuInsert 20000 101).ill = some .chargePercent := by decide
theorem test_ill_scan : (Instr.sensorScan false [(3, 1), (3, 2)]).ill = some .pointTwice := by decide
theorem test_wf_nop : (Instr.nop 0 .c).wf = true := by decide

/-! States that meet the hypotheses of the statements. -/

theorem test_hyp_StepRunsFrontCommand : ({ run with pending := [.nop 0 .c] } : State).pending = .nop 0 .c :: [] := rfl

/-- A step that meets the hypotheses of the statements about every step. -/
theorem test_hyp_StepKeepsMemoryCanonical : run.canonical ∧ step { run with pending := [.nop 0 .c] } = .next run :=
  ⟨by unfold State.canonical; decide, rfl⟩

theorem test_hyp_StepKeepsFixedStateAndOutputs : ∃ t, step run = .next t := ⟨_, rfl⟩

theorem test_hyp_MemoryReadsAsWritten : Memory.wf [(3, 1), (7, 255)] = true := by decide

theorem test_hyp_ScalarOpsLand : Issues run 0 0 0 [.pd 1] ∧ Issues run 0 0 0 [.a 15] := by unfold Issues; decide

theorem test_hyp_LoadsAndStoresLand :
    Issues run 0 0 0 (.v 31 :: lineDests line0) ∧ Issues run 0 0 0 (.v 0 :: bankDests bank0) ∧
    Issues run 0 0 0 (lineDests line0) ∧ Issues run 0 0 0 (bankDests bank0) := by unfold Issues; decide

theorem test_hyp_WeightAndAccumulatorOpsLand :
    Issues run 0 0 0 (.w 1 :: lineDests line0) ∧ wldLegal 0 0 = true ∧ Issues run 0 0 0 (.w 0 :: bankDests bank0) ∧
    mxwldLegal 5 2 = true ∧ Issues run 0 0 0 [.w 1] ∧ Issues run 0 0 0 [.v 31] ∧ Issues run 0 0 0 [.ma 7] := by
  unfold Issues; decide

def mml_s := tile fun t => { t with w := t.w.set 0 { t.w[0] with tag := some 5 } }

theorem test_hyp_MatrixMultipliesLand :
    mmulLegal 0 0 0 = true ∧ Issues run 0 0 0 [.ma 0] ∧
    mmulLegal 11 0 0 = true ∧ Issues run 0 0 0 [.ma 0, .ma (nextMa 0)] ∧
    mxmulLegal 5 0 0 = true ∧ Issues mml_s 0 0 0 [.ma 0, .ma (nextMa 0)] ∧ (mml_s.sys.chip.tile 0).w[0].tag = some 5 ∧
    formatsMatch (some 0) 0 = true ∧ formatsMatch none 0 = false := by unfold Issues; decide

theorem test_hyp_IntegerMultiplyIsExact : fmtOf 10 = some (.int 8) ∧ fmtOf 11 = some (.int 4) := by decide

theorem test_hyp_VectorArithmeticLands :
    Issues run 0 0 0 [.v 31] ∧ arithFmt 0 = true ∧ rndSatLegal 0 2 false = true ∧ arithFmt 10 = true ∧
    rndSatLegal 10 0 true = true := by unfold Issues; decide

theorem test_hyp_VectorComparesAndLogicLand :
    Issues run 0 0 0 [.v 0] ∧ arithFmt 2 = true ∧ rndSatLegal 2 0 false = true ∧ intFmt 8 = true ∧ selFmt 11 = true := by
  unfold Issues; decide

theorem test_hyp_ConversionsLand :
    Issues run 0 0 0 [.v 0] ∧ vcvtLegal 0 1 0 1 2 = true ∧ fmtOf 0 = some (.flt fBinary32) ∧
    fmtOf 1 = some (.flt fBinary16) ∧ vmxqLegal 1 5 1 2 0 = true ∧ fmtOf 5 = some (.flt fE3M2) := by unfold Issues; decide

theorem test_hyp_ReductionsAndTranscendentalsLand :
    Issues run 0 0 0 [.v 0] ∧ arithFmt 10 = true ∧ fmtOf 10 = some (.int 8) ∧ arithFmt 0 = true ∧
    fmtOf 0 = some (.flt fBinary32) ∧ Issues run 0 0 0 [.pd 1] ∧ transFmt 0 = true ∧
    fBinary32.decode 0x7FC00000 = .nan ∧ fBinary32.decode 0x7F800000 = .inf false ∧
    (match fBinary32.decode 0x80000000 with
     | .fin neg m _ => neg && m == 0
     | _ => false) = true := by unfold Issues; decide

theorem test_hyp_VectorMovesLand : Issues run 0 0 0 [.v 31] ∧ moveFmt 10 = true := by unfold Issues; decide

theorem test_hyp_ControlOpsAndRampsTakeEffect :
    Issues run 0 0 0 [] ∧ (32767#16).toNat < 32768 ∧ Issues run 0 0 0 [.k 7] ∧
    (15#4).toNat.testBit 3 = true ∧ (0#4).toNat.testBit 3 = false ∧ run.sys.chip.domOn (bitQ 3) = true ∧
    run.sys.chip.pwr.gov[(3 : QuadId)].forecast = none := by unfold Issues; decide

def ltimo_tested := tile fun t => { t with use := { t.use with pcc := 0, tested := true } }

theorem test_hyp_LoopTestIsMadeOnce :
    run.sys.chip.canIssue 0 = some 0 ∧ (run.sys.chip.useNow 0).tested = false ∧
    ltimo_tested.sys.chip.canIssue 0 = some 0 ∧ (ltimo_tested.sys.chip.useNow 0).tested = true := by decide

def full : List SendLine := List.replicate 8 ⟨Line.zero, .mesh 0 0 0, 0, 0⟩

def sjq_s := tile fun t => { t with sendq := full }

theorem test_hyp_SendsJoinQueue :
    Issues run 0 0 0 (srcDests (.vreg 31)) ∧ Issues run 0 0 0 (srcDests (.sram line0)) ∧
    (run.sys.chip.tile 0).sendq.length < 8 ∧ Issues sjq_s 0 0 0 (srcDests (.vreg 31)) ∧ 8 ≤ (sjq_s.sys.chip.tile 0).sendq.length ∧
    (15#5).toNat < run.sys.chip.map.vc ∧ (14 : AReg).val % 2 = 0 := by unfold Issues; decide

def sskf_opened := fun (due : Nat) => tile fun t => { t with openMsg := t.openMsg.set 1 (some ⟨due, 1, false⟩) }

theorem test_hyp_ScheduledSendsKeepFraming :
    Issues run 0 0 0 (srcDests (.vreg 0)) ∧ (run.sys.chip.tile 0).openMsg[(1 : PortId)] = none ∧
    Issues (sskf_opened 2) 0 0 0 (srcDests (.vreg 0)) ∧
    ((sskf_opened 2).sys.chip.tile 0).openMsg[(1 : PortId)] = some ⟨2, 1, false⟩ ∧
    Issues (sskf_opened 1) 0 0 0 (srcDests (.vreg 0)) ∧
    ((sskf_opened 1).sys.chip.tile 0).openMsg[(1 : PortId)] = some ⟨1, 1, false⟩ := by unfold Issues; decide

theorem test_hyp_ReceiveTakesOldestLine :
    isMailbox run.sys.chip.map 0 2 = false ∧ Issues run 0 0 0 [.v 31] ∧ Issues run 0 0 0 (lineDests line0) ∧
    (run.sys.chip.tile 0).ch[(2 : Chan)] = [] ∧ isMailbox run.sys.chip.map 160 3 = true ∧
    Issues run 160 160 0 [.v 31] ∧ Issues run 160 160 0 (lineDests line0) := by unfold Issues; decide

def uodn_s := tile fun t => { t with pd := t.pd.set 1 false }

theorem test_hyp_UnpredicatedOpsDoNothing :
    uodn_s.sys.chip.canIssue 0 = some 0 ∧ (uodn_s.sys.chip.useNow 0).void = false ∧ (uodn_s.sys.chip.tile 0).pd[(1 : PReg)] = false ∧
    duplicateDest (uodn_s.sys.chip.useNow 0).named [.a 3] = false ∧ duplicateDest (uodn_s.sys.chip.useNow 0).named (srcDests (.sram line0)) = false ∧
    (32767#16).toNat < 32768 ∧ arithFmt 0 = true ∧ rndSatLegal 0 2 false = true ∧ (15#5).toNat < uodn_s.sys.chip.map.vc := by
  decide

def lawe_reg := tile fun t => { t with flight := [⟨0, 0, .a 1 7⟩] }
def lawe_mem := tile fun t => { t with flight := [⟨0, 0, .sram 0 Line.zero 1⟩] }
def lawe_strict := run.withChip fun c => { c with time := { c.time with strict := true } }
def lawe_there := tile fun t => { t with ch := t.ch.set 0 [Line.zero] }

theorem test_hyp_LandingsAndWaitsEnd :
    run.sys.chip.liveTile 0 = some 0 ∧
    (lawe_reg.sys.chip.tile 0).flight.filter (flightDue lawe_reg.sys.chip) = [⟨0, 0, .a 1 7⟩] ∧
    (lawe_mem.sys.chip.tile 0).flight.filter (flightDue lawe_mem.sys.chip) = [⟨0, 0, .sram 0 Line.zero 1⟩] ∧
    run.sys.chip.map.run = true ∧ (run.sys.chip.tile 0).ended = false ∧ (run.sys.chip.tile 0).blocked = false ∧
    (run.sys.chip.tile 0).pd[(0 : PReg)] = true ∧ isMailbox run.sys.chip.map 0 0 = false ∧
    (run.sys.chip.tile 0).ch[(0 : Chan)] = [] ∧ run.sys.chip.time.strict = false ∧
    (lawe_there.sys.chip.tile 0).ch[(0 : Chan)] ≠ [] ∧ lawe_strict.sys.chip.time.strict = true ∧
    lawe_strict.sys.chip.liveTile 0 = some 0 := by
  and_intros <;> first | rfl | decide

def laasc_l : MeshLine := ⟨.tile 0 1, 3, Line.zero, 0, false, none, true, 0⟩
def laasc_s := run.withChip fun c => { c with cmp := { c.cmp with mesh := { c.cmp.mesh with lines := [laasc_l] } } }
def laasc_e := run.withChip fun c => { c with
  chk := { c.chk with scrubEnable := true, period := 1 }, cmp := { c.cmp with cycles := 65537 } }
def laasc_w := tile fun t => { t with scrub := { t.scrub with pending := [(15, 1023)] } }

theorem test_hyp_LinesArriveAndScrubberCorrects :
    laasc_s.sys.chip.cmp.mesh.lines = [laasc_l] ∧ arrived laasc_s.sys.chip laasc_l = true ∧ laasc_s.sys.chip.liveTile 0 = some 0 ∧
    isMailbox laasc_s.sys.chip.map 0 1 = false ∧
    (laasc_s.sys.chip.tile 0).sendq = [] ∧ laasc_e.sys.chip.chk.scrubEnable = true ∧ (laasc_e.sys.chip.tile 0).scrub.readAt = none ∧
    (nextSub laasc_e.sys.chip.cmp.cycles (laasc_e.sys.chip.tile 0) (laasc_e.sys.chip.useNow 0)).isSome = true ∧
    (laasc_w.sys.chip.tile 0).scrub.pending = (15, 1023) :: [] ∧ (laasc_w.sys.chip.useNow 0).writes = [] ∧
    (laasc_w.sys.chip.useNow 0).ext = [] ∧
    laasc_e.sys.chip.chk.period ≠ 0 ∧ (laasc_e.sys.chip.tile 0).scrub.wrapAt[(15 : Fin 16)] + laasc_e.sys.chip.chk.period.toNat * 65536 < laasc_e.sys.chip.cmp.cycles := by
  and_intros <;> first | rfl | decide

def laasc_queues_l : MeshLine := ⟨.tile 0 1, 3, Line.zero, 0, false, none, true, 0⟩
def laasc_queues_s := run.withChip fun c => { c with cmp := { c.cmp with mesh := { c.cmp.mesh with lines := [laasc_queues_l] } } }

theorem test_hyp_LinesArriveAndScrubberCorrects_queues :
    ∀ q, (laasc_queues_s.sys.chip.tile q).sendq = [] := by decide +kernel

/-! Set-up registers. -/

def rlwad_ret := idle.withChip (Chip.onPwr fun p => { p with retention := true })

theorem test_hyp_RunLockedWritesAreDiscarded :
    idle.sys.chip.pwr.retention = false ∧ idle.sys.chip.map.run = false ∧ run.sys.chip.pwr.retention = false ∧
    run.sys.chip.map.run = true ∧ (1 : Word).toNat.testBit 0 ≠ run.sys.chip.map.traceEnable ∧
    rlwad_ret.sys.chip.pwr.retention = true := by decide

theorem test_hyp_RegisterAccessesTakeEffect :
    idle.sys.chip.pwr.retention = false ∧ idle.sys.chip.map.run = false ∧ idle.sys.chip.pwr.monPending = false ∧
    idle.sys.chip.pwr.steepPending = false ∧ run.sys.chip.map.run = true ∧ ¬((2 : Nat) = 4 ∧ 0 % 4 = 0) ∧
    ¬((4 : Nat) = 4 ∧ 2 % 4 = 0) := by decide

/-! Links and fabric messages. -/

def phase (ph : Phase) : State := port fun x => { x with st := .train, phase := ph }

def ltr_px := fun (s : State) => s.sys.chip.port 4

theorem test_hyp_LinkTrainingRuns :
    (ltr_px (port fun x => { x with st := .detect })).st = .detect ∧
    (∀ ph ∈ [Phase.lock, .equalise, .align, .measure, .confirm], (ltr_px (phase ph)).st = .train ∧ (ltr_px (phase ph)).phase = ph) ∧
    (phase .equalise).sys.chip.mgt.cscReset = false ∧ (ltr_px (phase .equalise)).failed ||| ~~~(1 : BitVec 8) ≠ 0xFF ∧
    (ltr_px (phase .equalise)).failed ||| ~~~(0 : BitVec 8) = 0xFF ∧
    oppositePort 4 5 = true ∧ oppositePort 4 4 = false ∧ (1 : Dword) ≠ (phase .align).sys.chip.mgt.dsn ∧
    (ltr_px (phase .align)).failed ||| (0x7F : BitVec 8) ≠ 0xFF ∧
    dMax (ltr_px (phase .measure)).cls < (255 : BitVec 8).toNat ∧ (0 : BitVec 8).toNat ≤ dMax (ltr_px (phase .measure)).cls := by
  decide

def llar_px := fun (s : State) => s.sys.chip.port 4
def llar_up := port fun x => { x with st := .up, used := 0x80 }
def llar_down := port fun x => { x with st := .down }
def llar_rt := fun n => port fun x => { x with st := .retrain, replay := List.replicate n idleFrame }
def llar_sent := port fun x => { x with st := .up, replay := [idleFrame] }

theorem test_hyp_LinkLimitsAndRetrains :
    (llar_px (port fun x => { x with st := .detect })).st = .detect ∧ (llar_px (phase .confirm)).st = .train ∧
    (llar_px (llar_rt 0)).st = .retrain ∧ (llar_px llar_down).st = .down ∧ (llar_px llar_down).enable = true ∧
    llar_down.sys.chip.domOn (portDomain 4) = true ∧ classAllowed 4 (llar_px llar_down).cls = true ∧
    (llar_px llar_up).st = .up ∧ (llar_px llar_up).used.toNat.testBit 7 = true ∧ llar_up.sys.chip.pwr.busy = false ∧
    (llar_px (llar_rt 0)).failed ||| ((llar_px (llar_rt 0)).peerFailed ||| (0xFF : BitVec 8)) = 0xFF ∧
    (llar_px (llar_rt 1)).failed ||| ((llar_px (llar_rt 1)).peerFailed ||| (0xFE : BitVec 8)) ≠ 0xFF ∧ (llar_px (llar_rt 1)).replay ≠ [] ∧
    2 ≤ (llar_px (llar_rt 1)).nakMax.toNat ∧ (llar_px (llar_rt 0)).replay = [] ∧ (llar_px llar_sent).st = .up ∧ (llar_px llar_sent).replay ≠ [] ∧
    (llar_px llar_sent).retryInterval ≠ 0 := by decide

def pcw_px := fun (s : State) => s.sys.chip.port 4
def pcw_off := port fun x => { x with enable := false }
def pcw_up := port fun x => { x with st := .up }

theorem test_hyp_PortControlWrites :
    run.sys.chip.map.run = true ∧ idle.sys.chip.map.run = false ∧ (pcw_px pcw_up).enable = true ∧ (pcw_px pcw_off).enable = false ∧
    pcw_off.sys.chip.domOn (portDomain 4) = true ∧ classAllowed 4 (pcw_px pcw_off).cls = true ∧ (pcw_px pcw_up).st ≠ .disabled ∧
    (2 : BitVec 2) ≠ (pcw_px pcw_up).cls ∧ (1 : BitVec 2) = (pcw_px pcw_up).cls ∧ classAllowed 4 2 = true ∧
    idle.sys.chip.pwr.retention = false ∧ idle.sys.chip.fab.trayIdx ≠ BitVec.ofNat 9 ((0x1FF0 : Word).toNat / 16) := by
  decide

def aFrame : Frame := ⟨2, Line.zero, 5⟩
def upPort (f : Port → Port) : State := port fun x => f { x with st := .up }

def flaa_px := fun (s : State) => s.sys.chip.port 4
def flaa_s := upPort id
def flaa_timed := upPort fun x => { x with time := x.time.set 0 (some aFrame) }

theorem test_hyp_FramesLeaveAndArrive :
    (flaa_px flaa_s).st = .up ∧ (flaa_px flaa_s).resend = 0 ∧ (flaa_px flaa_s).replay.length < 128 ∧ flaa_s.sys.chip.cmp.mesh.lines = [] ∧
    flaa_s.sys.chip.map.run = false ∧ flaa_s.sys.chip.pwr.busy = false ∧ (flaa_px (upPort fun x => { x with xoffIn := true })).xoffIn = true ∧
    (flaa_px flaa_s).xoffIn = false ∧ (flaa_px flaa_s).sched = [] ∧ (flaa_px flaa_s).time = Vector.replicate 4 none ∧
    (flaa_px (upPort fun x => { x with sched := [⟨aFrame, false, 0, 0, false⟩] })).sched = [⟨aFrame, false, 0, 0, false⟩] ∧
    (flaa_px flaa_timed).time[(2 : Fin 4)] = none ∧ (flaa_px flaa_timed).time[(3 : Fin 4)] = none ∧ (flaa_px flaa_timed).time[(1 : Fin 4)] = none ∧
    (flaa_px flaa_timed).time[(0 : Fin 4)] = some aFrame ∧
    (flaa_px (upPort fun x => { x with host := [aFrame] })).host = aFrame :: [] ∧
    (flaa_px (upPort fun x => { x with mgmt := [aFrame] })).mgmt = aFrame :: [] ∧
    (flaa_px flaa_s).nakOut = false ∧ (flaa_px (upPort fun x => { x with nakOut := true })).nakOut = true := by
  and_intros <;> first | rfl | decide

theorem test_hyp_FramesLeaveAndArrive_codes :
    (fecDecode ([1, 0, 1] ++ List.replicate 269 0)).ok = false := by decide +kernel

def flaa_accepts_bytes := encodeFrame 0 ⟨0, false, false, 1, false⟩ Line.zero 0

def flaa_accepts (r : FecResult) : Bool :=
  r.ok && crcPasses 0 r.bytes && !(frameLctl r.bytes).nak && (frameLctl r.bytes).typ == 1 && kindOf (frameOf r.bytes).msg == 0

theorem test_hyp_FramesLeaveAndArrive_accepts : flaa_accepts (fecDecode flaa_accepts_bytes) = true := by decide +kernel

theorem test_hyp_FramesLeaveAndArrive_quiet :
    (lanesOver ((fecDecode flaa_accepts_bytes).fixed.foldl countCorrection (rollLaneMs 0 (flaa_px flaa_s))) == 0) = true := by
  decide +kernel

def sched (route : Nat) (dest : Nat) : Frame := ⟨1, Line.zero, schedHeader dest 0 (BitVec.ofNat 32 route)⟩

/-- An ingress with one frame, its receive pad over. -/
def got (f : Frame) (gate : Nat) : State := upPort fun x => { x with ingress := [⟨f, 0, some gate⟩] }

def slpo_isOpen := fun (i : InFrame) => kindOf i.frame.msg == 0 && i.gate == some 0

def slpo_on := got (sched 0x1E4 1) 0
def slpo_here := (got (sched 0xE4 0) 0).withChip fun c => { c with map := { c.map with run := true } }
def slpo_astray := (got (sched 0xE4 1) 0).withChip fun c => { c with map := { c.map with run := true } }

theorem test_hyp_ScheduledLinesPassOn :
    (slpo_on.sys.chip.port 4).ingress.find? slpo_isOpen = some ⟨sched 0x1E4 1, 0, some 0⟩ ∧ slpo_on.sys.chip.map.run = false ∧
    ((got (sched 0xE4 0) 3).sys.chip.port 4).ingress.find? slpo_isOpen = none ∧ (slpo_on.sys.chip.port 4).padOver ∧
    (nextHop (routeOf (sched 0x1E4 1).msg)).isSome = true ∧ nextHop (routeOf (sched 0xE4 0).msg) = none ∧
    slpo_here.sys.chip.map.run = true ∧ slpo_here.sys.chip.time.strict = false ∧
    natField (sched 0xE4 0).msg.toNat 4 13 = slpo_here.sys.chip.self ∧ natField (sched 0xE4 0).msg.toNat 21 5 < slpo_here.sys.chip.map.vc ∧
    (slpo_astray.sys.chip.port 4).ingress.find? slpo_isOpen = some ⟨sched 0xE4 1, 0, some 0⟩ ∧
    (slpo_on.sys.chip.port 0).carries = false ∧ (flaa_s.sys.chip.port 4).carries = true ∧
    natField (sched 0xE4 1).msg.toNat 4 13 ≠ slpo_astray.sys.chip.self := by
  unfold Port.padOver; and_intros <;> first | rfl | decide

def slpo_padded := upPort fun x => { x with ingress := [⟨sched 0xE4 0, 5, none⟩] }

theorem test_hyp_ScheduledLinesPassOn_pad :
    (slpo_padded.sys.chip.port 4).ingress = [⟨sched 0xE4 0, 5, none⟩] ∧ kindOf (sched 0xE4 0).msg = 0 ∧
    slpo_padded.sys.chip.map.run = false := by decide

theorem test_hyp_ScheduledLinesPassOn_hop :
    nextHop (routeOf (sched 0x1E4 1).msg) = some (0, 0xE4) ∧
    ((upPort id).withChip (Chip.onPort 0 fun x => { x with st := .up })).sys.chip.fab.ports[0].sched.length < 8 := by decide

def seg (write : Bool) (dest : ChipNo) : Segment := ⟨0, 0, write, dest, 0x700000, 0, 7, Line.zero, 0⟩

/-- Port 0 up and on the route to chip 1, with `n` frames in its egress; the fabric in another state. -/
def routed (n : Nat) (f : Fabric → Fabric) (s : State) : State := s.withChip fun c =>
  let c := c.onPort 0 fun x => { x with st := .up, host := List.replicate n idleFrame }
  { c with fab := f { c.fab with rtX := c.fab.rtX.set 1 1 } }

def slapo_s := fun n => routed n (fun f => { f with waiting := [seg true 1] }) idle
def slapo_own := idle.withChip fun c => { c with fab := { c.fab with waiting := [seg true 0] } }
def slapo_req := hostFrame 0 1 2 7 0 62 Line.zero
def slapo_t := fun n => routed n id (got slapo_req 0)

theorem test_hyp_SegmentsLeaveAndPassOn :
    (slapo_s 14).sys.chip.fab.waiting = seg true 1 :: [] ∧ freeTag (slapo_s 14).sys.chip.fab = some 0 ∧
    (seg true 1).dest.toNat ≠ (slapo_s 14).sys.chip.self ∧ hostRoute (slapo_s 14).sys.chip.fab 1 = some 0 ∧
    ((slapo_s 14).sys.chip.port 0).st = .up ∧ ((slapo_s 14).sys.chip.port 0).host.length + 2 ≤ 16 ∧
    16 < ((slapo_s 15).sys.chip.port 0).host.length + 2 ∧ (seg true 0).dest.toNat = slapo_own.sys.chip.self ∧
    hostFirst 0 ((slapo_t 15).sys.chip.port 4) = some slapo_req ∧ ((slapo_t 15).sys.chip.port 4).padOver ∧ destOf slapo_req ≠ (slapo_t 15).sys.chip.self ∧
    hostRoute (slapo_t 15).sys.chip.fab (destOf slapo_req) = some 0 ∧ hopsOf slapo_req < 63 ∧ ((slapo_t 15).sys.chip.port 0).st = .up ∧
    ((slapo_t 15).sys.chip.port 0).host.length < 16 ∧ 16 ≤ ((slapo_t 16).sys.chip.port 0).host.length := by
  unfold Port.padOver; and_intros <;> first | rfl | decide

def slapo_kinds_f := fun op => hostFrame op 1 2 7 0 1 Line.zero

theorem test_hyp_SegmentsLeaveAndPassOn_kinds :
    hostFirst 1 ((got (slapo_kinds_f 1) 0).sys.chip.port 4) = some (slapo_kinds_f 1) ∧ hostFirst 2 ((got (slapo_kinds_f 2) 0).sys.chip.port 4) = some (slapo_kinds_f 2) ∧
    hostFirst 3 ((got (slapo_kinds_f 3) 0).sys.chip.port 4) = some (slapo_kinds_f 3) ∧
    hostFirst 4 ((got (slapo_kinds_f 4) 0).sys.chip.port 4) = some (slapo_kinds_f 4) := by and_intros <;> rfl

def raot_req := fun op => hostFrame op 0 1 7 0 1 (requestLine (seg false 0))
def raot_held : RespTxn := ⟨1, 7, true, 0x700000, 0, 7, none, false, 0⟩
def raot_s := fun held op => routed 0 (fun f => { f with responder := held }) (got (raot_req op) 0)
def raot_in := fun op => (⟨raot_req op, 0, some 0⟩ : InFrame)

theorem test_hyp_ResponderAndOwnTransactions :
    (∀ op ∈ [0, 1, 2], firstOfKind 1 ((raot_s [] op).sys.chip.port 4) = some (raot_in op) ∧
      comesFirst (raot_s [] op).sys.chip 4 (raot_in op) = true ∧ opOf (raot_req op).msg = op) ∧
    ((raot_s [] 0).sys.chip.port 4).padOver ∧ (raot_s [] 1).sys.chip.fab.responder = [] ∧
    (raot_s [raot_held] 2).sys.chip.fab.responder = [raot_held] ∧ raot_held.src = BitVec.ofNat 13 (srcOf (raot_req 2)) ∧
    raot_held.tag = tagOf (raot_req 2) ∧ raot_held.write = true ∧ raot_held.data = none ∧ raot_held.own = false ∧
    destOf (raot_req 0) = (raot_s [] 0).sys.chip.self ∧ (raot_s [] 0).sys.chip.domOn bitSrch = true ∧ (raot_s [] 0).sys.ecc = [] ∧
    hostRoute (raot_s [] 0).sys.chip.fab (srcOf (raot_req 0)) = some 0 ∧ ((raot_s [] 0).sys.chip.port 0).st = .up ∧
    ((raot_s [] 0).sys.chip.port 0).host.length < 16 ∧
    segmentOk (.search 0) ((raot_req 0).payload.byte 4).toNat ((raot_req 0).payload.byte 5).toNat = true ∧
    0x70000000 ≤ requestOffset (raot_req 0) * 256 ∧ requestOffset (raot_req 0) * 256 < 0x70800000 ∧
    16 * (raot_s [] 0).sys.chip.map.vc * 0x400000 ≤ 0x60000000 ∧
    segmentOk (.search 0) raot_held.first raot_held.last = true ∧ raot_held.last < 256 ∧ raot_held.line * 256 < 0x70800000 := by
  unfold Port.padOver; and_intros <;> first | rfl | decide

def raot_own_x := fun w won => (⟨3, seg w 0, won, none⟩ : Txn)
def raot_own_s := fun raot_own_x => idle.withChip fun c => { c with fab := { c.fab with txns := [raot_own_x], responder :=
    if raot_own_x.wonAt.isSome then [⟨0, 3, true, 0x700000, 0, 7, none, true, 0⟩] else [] } }
def raot_own_done : Txn := ⟨3, seg false 0, some 0, some (0, Line.zero)⟩

theorem test_hyp_ResponderAndOwnTransactions_own :
    ownNext false (raot_own_s (raot_own_x false none)).sys.chip = some (raot_own_x false none) ∧ ownNext true (raot_own_s (raot_own_x true none)).sys.chip = some (raot_own_x true none) ∧
    (raot_own_s (raot_own_x true (some 0))).sys.chip.fab.txns = [raot_own_x true (some 0)] ∧ ownTxn (raot_own_s (raot_own_x true (some 0))).sys.chip (raot_own_x true (some 0)) = true ∧
    (raot_own_x true (some 0)).wonAt.isSome = true ∧ (raot_own_x true (some 0)).answer = none ∧
    (raot_own_s (raot_own_x true none)).sys.chip.fab.responder = [] ∧
    (raot_own_s (raot_own_x true (some 0))).sys.chip.fab.responder = [⟨0, 3, true, 0x700000, 0, 7, none, true, 0⟩] ∧
    (raot_own_s raot_own_done).sys.chip.fab.txns = [raot_own_done] ∧ raot_own_done.answer = some (0, Line.zero) := by
  and_intros <;> rfl

def teamp_r := fun op => hostFrame op 0 0 7 0 1 Line.zero
def teamp_x : Txn := ⟨7, seg false 1, some 0, none⟩
def teamp_s := (got (teamp_r 3) 0).withChip fun c => { c with fab := { c.fab with txns := [teamp_x], responder := [⟨1, 255, true, 0, 0, 7, none, false, 0⟩] } }
def teamp_m := got ⟨1, Line.zero, 3⟩ 0

theorem test_hyp_TransactionsEndAndManagementPasses :
    destOf (teamp_r 3) = teamp_s.sys.chip.self ∧ hostFirst 3 (teamp_s.sys.chip.port 4) = some (teamp_r 3) ∧
    hostFirst 4 ((got (teamp_r 4) 0).sys.chip.port 4) = some (teamp_r 4) ∧ teamp_s.sys.chip.fab.txns = [teamp_x] ∧ teamp_x.tag = tagOf (teamp_r 3) ∧
    teamp_x.seg.write = false ∧ teamp_x.wonAt.isSome = true ∧ ownTxn teamp_s.sys.chip teamp_x = false ∧ (got (teamp_r 3) 0).sys.chip.fab.txns = [] ∧
    (teamp_s.sys.chip.port 4).padOver ∧
    teamp_s.sys.chip.fab.responder = [⟨1, 255, true, 0, 0, 7, none, false, 0⟩] ∧ cscRuns teamp_m.sys.chip = true ∧ (teamp_m.sys.chip.port 4).st = .up ∧
    (teamp_m.sys.chip.port 4).mgmt.length < 4 ∧ firstOfKind 3 (teamp_m.sys.chip.port 4) = some ⟨⟨1, Line.zero, 3⟩, 0, some 0⟩ := by
  unfold Port.padOver; and_intros <;> first | rfl | decide

/-! Time and runs. -/

def timeFrame (ttype : Nat) : Frame := ⟨1, Line.zero, BitVec.ofNat 64 (2 + 4 * ttype)⟩

/-- A chip that is no root, with role `role`, whose port 4 has received a time frame of a TTYPE. -/
def tree (ttype : Nat) (role : BitVec 2) : State := (got (timeFrame ttype) 0).withChip fun c =>
  let c := c.onPort 4 fun teamp_x => { teamp_x with syncAt := some 0 }
  { c with time := { c.time with rootOrder := c.time.rootOrder.set 0 ⟨9, true⟩, role := role, parent := 4,
                                 seenLaunch := [⟨1, 1⟩] } }

def ttik_late := idle.withChip fun c => { c with time := { c.time with gtc := 12500 } }
def ttik_lost := tree 0 1

theorem test_hyp_TimeTreeIsKept :
    12500 ≤ (ttik_late.sys.chip.time.gtc - ttik_late.sys.chip.time.syncSentAt).toNat ∧ ttik_late.sys.chip.time.skip = 0 ∧
    (takeTimeFrame 4 0 (tree 0 1).sys.chip).isSome = true ∧ (tree 0 1).sys.chip.isRoot = false ∧
    (tree 0 1).sys.chip.time.role = 1 ∧ (4 : PortId) = (tree 0 1).sys.chip.time.parent ∧ idle.sys.chip.isRoot = true ∧
    (takeTimeFrame 4 0 (got (timeFrame 0) 0).sys.chip).isSome = true ∧ (tree 0 1).sys.chip.map.run = false ∧
    (takeTimeFrame 4 3 (tree 3 1).sys.chip).isSome = true ∧ nearTransition ttik_lost.sys = false ∧
    (ttik_lost.sys.chip.port ttik_lost.sys.chip.time.parent).st = .up := by decide

def ttik_parents_lost := fun (k : PortId) => (tree 0 1).withChip fun c => { c with
  time := { c.time with parent := 5, parents := c.time.parents.set 0 (Vector.replicate 4 ⟨k, true⟩) } }
def ttik_parents_hold := (ttik_parents_lost 4).withChip fun c => { c with time := { c.time with role := 2 } }
def ttik_parents_two := (ttik_parents_lost 4).withChip fun c => c.onPort 5 fun x => { x with st := .up }

theorem test_hyp_TimeTreeIsKept_parents :
    (ttik_parents_lost 4).sys.chip.isRoot = false ∧ (ttik_parents_lost 4).sys.chip.time.role = 1 ∧ ((ttik_parents_lost 4).sys.chip.port 5).st ≠ .up ∧
    ((ttik_parents_lost 4).sys.chip.port 5).st ≠ .retrain ∧ (ttik_parents_lost 4).sys.chip.usableParent 0 (some 5) = some 4 ∧
    (ttik_parents_lost 5).sys.chip.usableParent 0 (some 5) = none ∧ ttik_parents_hold.sys.chip.time.role ≠ 1 ∧ ttik_parents_hold.sys.chip.pwr.busy = false ∧
    ttik_parents_hold.sys.chip.usableParent 0 none = some 4 ∧ (ttik_parents_lost 4).sys.now = 0 ∧ (4 : PortId) ≠ 5 ∧
    (ttik_parents_two.sys.chip.port 5).st = .up ∧ ttik_parents_two.sys.now < ttik_parents_two.sys.chip.time.syncAt + Config.us 30 ∧
    ttik_parents_two.sys.chip.usableParent 0 none = some 4 ∧ ttik_parents_two.sys.chip.pwr.busy = false := by decide

def armed (image : Word) : State := (tree 1 1).withChip fun c =>
  { c with time := { c.time with arm := true, imageId := image, seenLaunch := [] } }

def parte_soon := fun (l : Line) => got ⟨1, l, 6⟩ 0
def parte_l1 : Line := Line.ofBytes [1]
def parte_ok := (parte_soon parte_l1).withChip fun c => { c with time := { c.time with arm := true } }
def parte_seen := (tree 1 1).withChip fun c => { c with time := { c.time with seenLaunch := [⟨0, 0⟩] } }

theorem test_hyp_PoursAndRunsTakeEffect :
    (takeTimeFrame 4 1 (armed 7).sys.chip).isSome = true ∧ (armed 7).sys.chip.time.arm = true ∧
    launchCause (armed 7).sys.chip (timeFrame 1) = some 2 ∧ launchCause (armed 0).sys.chip (timeFrame 1) = some 4 ∧
    (takeTimeFrame 4 1 parte_ok.sys.chip).isSome = true ∧ launchCause parte_ok.sys.chip ⟨1, parte_l1, 6⟩ = none ∧
    (takeTimeFrame 4 1 (parte_soon parte_l1).sys.chip).isSome = true ∧ (parte_soon parte_l1).sys.chip.time.arm = false ∧
    (parte_soon parte_l1).sys.chip.time.seenLaunch = [] ∧ parte_seen.sys.chip.time.seenLaunch = [⟨0, 0⟩] ∧
    (takeTimeFrame 4 2 (tree 2 1).sys.chip).isSome = true ∧ (tree 2 1).sys.chip.time.seenAbort = [] ∧
    (tree 2 1).sys.chip.time.launch ≠ some ⟨0, 0⟩ := by and_intros <;> first | rfl | decide

def parte_runs_entered := run.withChip fun c => { c with cmp := { c.cmp with started := false } }
def parte_runs_done := run.withChip fun c => { c with cmp := { c.cmp with
  tiles := Vector.replicate 320 { Tile.reset with ended := true } } }
def parte_runs_held := (port fun x => { x with holdReq := true }).withChip fun c => { c with map := { c.map with run := true } }
def parte_runs_told := run.withChip fun c => c.onPwr (onGov 0 fun g => { g with forecast := some ⟨63, 0, 0⟩ })

theorem test_hyp_PoursAndRunsTakeEffect_runs :
    parte_runs_entered.sys.chip.map.run = true ∧ parte_runs_entered.sys.chip.cmp.started = false ∧
    parte_runs_entered.sys.chip.time.launchL.toNat ≤ parte_runs_entered.sys.chip.time.coreView.toNat ∧ parte_runs_entered.sys.ecc = [] ∧
    parte_runs_done.sys.chip.map.run = true ∧ parte_runs_done.sys.chip.cmp.started = true ∧ runOver parte_runs_done.sys.chip = true ∧
    parte_runs_held.sys.chip.map.run = true ∧ parte_runs_held.sys.chip.limitHold = true ∧
    parte_runs_told.sys.chip.pwr.gov[(0 : QuadId)].forecast = some ⟨63, 0, 0⟩ ∧ parte_runs_told.sys.chip.map.run = true := by decide +kernel

/-! The search unit. -/

def unit (f : SearchUnit → SearchUnit) : State := idle.withChip fun c => { c with srch := f c.srch }
def asks (kind : Byte) : Line := Line.ofBytes [kind, 1]

def sus_q := fun kind => unit fun u => { u with queue := [⟨asks kind, 0, 0, 100, 0, .host 0 0⟩] }
def sus_out : SearchOut := ⟨.host 0 0, 0, ⟨[Line.zero], 0, 0, [], 0, none, false, false⟩, 0⟩
def sus_outT : SearchOut := ⟨.tile 0 1, 0, ⟨[Line.zero], 0, 0, [], 0, none, false, false⟩, 0⟩
def sus_done := ((unit fun u => { u with outs := [sus_out], work := 4 }).withChip (Chip.onQp 0 fun x =>
  { x with entries := [newEntry 0 none 0] })).withChip fun c => { c with hif := { c.hif with linkUp := true } }
def sus_tiled := run.withChip fun c => { c with srch := { c.srch with outs := [sus_outT] } }
def sus_cut := unit fun u => { u with active := some ⟨⟨asks 0, 0, 0, 1, 0, .host 0 0⟩, 0, ⟨[], 0, 1, [], 0, none, false, false⟩⟩ }

theorem test_hyp_SearchUnitServes :
    reqKind (asks 0) = 0 ∧ reqKind (asks 1) = 1 ∧ reqKind (asks 2) = 2 ∧ reqKind (asks 3) = 3 ∧ 4 ≤ reqKind (asks 7) ∧
    (sus_q 0).sys.chip.map.run = false ∧ (sus_q 0).sys.chip.cmp.mesh.lines = [] ∧ (sus_q 0).sys.chip.domOn bitSrch = true ∧
    (sus_q 0).sys.chip.srch.active = none ∧ (sus_q 0).sys.chip.srch.queue = ⟨asks 0, 0, 0, 100, 0, .host 0 0⟩ :: [] ∧
    (sus_cut.sys.chip.srch.active.map fun a => a.answer.status) = some 1 ∧
    sus_done.sys.chip.srch.outs = [sus_out] ∧ sus_done.sys.chip.srch.active = none ∧ sus_done.sys.chip.map.run = false ∧
    hostDue sus_out ≤ sus_done.sys.chip.srch.work.toNat ∧ sus_done.sys.chip.hif.linkUp = true ∧
    sus_out.sent = 0 ∧ sus_out.answer.lines.length ≤ 16 ∧ sus_done.sys.chip.hif.writes = [] ∧
    sus_outT.due ≤ sus_tiled.sys.chip.srch.work.toNat ∧
    findEntry (sus_done.sys.chip.qp 0) 0 = some (newEntry 0 none 0) ∧ sus_tiled.sys.chip.srch.outs = [sus_outT] ∧
    sus_tiled.sys.chip.map.run = true ∧ sus_tiled.sys.chip.time.strict = false ∧ sus_tiled.sys.chip.map.vc ≠ 0 ∧
    idle.sys.chip.srch.scrubEnable = true ∧ idle.sys.chip.srch.queue = [] ∧ idle.sys.ecc = [] ∧
    idle.sys.chip.srch.scrubAt = none := by and_intros <;> first | rfl | decide

theorem test_hyp_SearchUnitServes_memory :
    requestOk (Line.ofBytes [3, 12]) = true ∧ reqKind (Line.ofBytes [3, 12]) = 3 ∧ 48 + reqLines (Line.ofBytes [3, 12]) ≤ 60 ∧
    requestOk (Line.ofBytes [2, 1, 0, 0, 0, 0, 0, 0, 224]) = true ∧
    48 + (Line.ofBytes [2, 1, 0, 0, 0, 0, 0, 0, 224]).leNat 8 2 / 8 ≤ 76 := by decide +kernel

/-! The host interface. -/

def desc (bs : List Byte) : List Byte := (bs ++ List.replicate 64 0).take 64
def entry (i : Nat) (bs : List Byte) : QEntry := newEntry i (some (desc bs)) 0

/-- Queue pair 0 ENABLED with a descriptor, the link up. -/
def serves (bs : List Byte) : State :=
  (qp fun x => { x with state := 1, cqHead := 5, entries := [entry 0 bs] }).withChip fun c =>
    { c with hif := { c.hif with linkUp := true } }

def daqp_e := qp fun x => { x with state := 1, pushEn := true }
def daqp_full := qp fun x => { x with state := 1, pushEn := true, sqTail := 15 }
def daqp_drain := qp fun x => { x with state := 2 }
def daqp_x := fun (s : State) => s.sys.chip.qp 0

theorem test_hyp_DoorbellsAndQueuePairs :
    sqSize (daqp_x daqp_e) = 16 ∧ sqCount (daqp_x daqp_e) = 0 ∧ (15 + sqSize (daqp_x daqp_e) - (daqp_x daqp_e).sqHead % sqSize (daqp_x daqp_e)) % sqSize (daqp_x daqp_e) = 15 ∧
    (daqp_x daqp_e).state = 1 ∧ ¬(16 < sqSize (daqp_x daqp_e)) ∧ (daqp_x daqp_e).pushEn = true ∧ sqCount (daqp_x daqp_e) < sqSize (daqp_x daqp_e) - 1 ∧
    sqSize (daqp_x daqp_full) - 1 ≤ sqCount (daqp_x daqp_full) ∧ (daqp_x idle).pushEn = false ∧ (desc []).length = 64 ∧ (daqp_x idle).state = 0 ∧
    4 ≤ (daqp_x idle).sqLog2.toNat ∧ (daqp_x idle).sqLog2.toNat ≤ 12 ∧ (daqp_x idle).cqLog2.toNat ≤ 12 ∧ (daqp_x daqp_drain).state = 2 ∧
    daqp_drain.sys.chip.hif.reads = [] ∧ daqp_drain.sys.chip.fab.txns = [] := by decide

/-- A descriptor of each opcode as a queue pair finds it, and whether it is valid. -/
def offered (bs : List Byte) (op : Nat) (valid : Bool) : Bool :=
  let s := serves bs
  (nextEntry (s.sys.chip.qp 0)).map (fun daqp_e => daqp_e.bytes) == some (desc bs) && s.sys.chip.hif.linkUp &&
    descOp (desc bs) == op && descValid s.sys.chip.map.vc (desc bs) == valid

def searchAddr : List Byte := [0, 0, 0, 0x70, 0, 0, 0, 0]

theorem test_hyp_DescriptorsAndCancelsTakeEffect_valid :
    offered [0] 0 true = true ∧ offered ([1, 0, 0, 0, 8, 0, 0, 0] ++ List.replicate 8 0 ++ searchAddr) 1 true = true ∧
    offered ([2, 0, 0, 0, 8, 0, 0, 0] ++ List.replicate 8 0 ++ searchAddr) 2 true = true ∧
    offered [3, 2, 0, 0, 48] 3 true = true ∧ offered [3, 0, 0, 0, 224] 3 true = true ∧ offered [4] 4 true = true ∧
    offered [5] 5 true = true ∧ offered [6, 0, 0, 0, 8] 6 true = true ∧ offered [7, 0, 0, 0, 8] 7 true = true ∧
    offered [8] 8 true = true ∧ offered [9] 9 true = true ∧ offered [10] 10 true = true ∧ offered [11] 11 true = true := by
  decide

theorem test_hyp_DescriptorsAndCancelsTakeEffect_invalid :
    offered [12] 12 false = true ∧ offered [0, 1] 0 false = true ∧ offered [1] 1 false = true ∧ offered [2] 2 false = true ∧
    offered [3, 2, 0, 0, 49] 3 false = true ∧ offered [4, 2] 4 false = true ∧ offered [5, 1] 5 false = true ∧
    offered [6] 6 false = true ∧ offered [7] 7 false = true ∧ offered [8, 1] 8 false = true ∧
    offered [9, 1] 9 false = true ∧ offered [10, 1] 10 false = true ∧ offered [11, 1] 11 false = true := by decide

def dacte_effects_c := (serves []).sys.chip
def dacte_effects_r := { dacte_effects_c with map := { dacte_effects_c.map with run := true } }
def dacte_effects_a := { dacte_effects_c with time := { dacte_effects_c.time with arm := true } }
def dacte_effects_strict := { dacte_effects_r with time := { dacte_effects_r.time with strict := true } }
def dacte_effects_cut : QEntry := { entry 3 [7, 0, 5, 0, 8] with started := true }
def dacte_effects_two := (qp fun x => { x with entries := [dacte_effects_cut] }).withChip (Chip.onQp 1 fun x =>
  { x with state := 1, cqHead := 5, entries := [entry 0 ([8] ++ List.replicate 23 0 ++ [5])] })

theorem test_hyp_DescriptorsAndCancelsTakeEffect_effects :
    rangeStatus dacte_effects_c 0x70000000 8 = 0 ∧ rangeStatus dacte_effects_c 0x68000000 8 = 14 ∧ regionOf dacte_effects_c.map.vc 0x70000000 = .search 0 ∧
    dacte_effects_c.map.run = false ∧ dacte_effects_r.map.run = true ∧ dacte_effects_r.hif.mailbox.length < 16 ∧ launchRefusal dacte_effects_c 0 = 9 ∧
    launchRefusal dacte_effects_a (dacte_effects_a.time.coreView.toNat + 50000) = 0 ∧ globalRefusal dacte_effects_strict (desc [6, 0, 0, 0, 8]) = 15 ∧
    globalRefusal dacte_effects_c (desc [6, 0, 0, 0, 8]) = 0 ∧ dacte_effects_c.domOn bitSrch = true ∧
    (State.reset.sys.chip).domOn bitSrch = false ∧ (cancelTarget (dacte_effects_two.sys.chip.qp 0) 5).isSome = true ∧
    (nextEntry (dacte_effects_two.sys.chip.qp 1)).isSome = true ∧
    cancelTarget ((serves [8]).sys.chip.qp 0) 0 = none := by decide

def htc_reads := fun (r : DmaRead) => (serves ([1, 0, 0, 0, 8, 0, 0, 0] ++ List.replicate 8 0 ++ searchAddr)).withChip fun c =>
  { c with hif := { c.hif with reads := [r] } }
def htc_s := htc_reads ⟨0, 0, false, 0, 8⟩
def htc_e := entry 0 ([1, 0, 0, 0, 8, 0, 0, 0] ++ List.replicate 8 0 ++ searchAddr)

theorem test_hyp_HostTransfersComplete :
    (htc_s.sys.chip.hif.reads.find? fun r => r.qp == (0 : QpId)) = some ⟨0, 0, false, 0, 8⟩ ∧
    ((htc_reads ⟨0, 0, true, 0, 64⟩).sys.chip.hif.reads.find? fun r => r.qp == (0 : QpId)) = some ⟨0, 0, true, 0, 64⟩ ∧
    findEntry (htc_s.sys.chip.qp 0) 0 = some htc_e ∧ descOp htc_e.bytes = 1 ∧
    rangeStatus htc_s.sys.chip (descTaddr htc_e.bytes) (descLen htc_e.bytes) = 0 ∧
    regionOf htc_s.sys.chip.map.vc (descTaddr htc_e.bytes) = .search 0 ∧ (htc_e.data ++ List.replicate 8 1).length = descLen htc_e.bytes ∧
    Memory.wf htc_s.mem = true ∧ htc_s.sys.chip.hif.linkUp = true ∧ (htc_s.sys.chip.qp 0).state = 1 ∧
    cqFull (htc_s.sys.chip.qp 0) = false := by decide

def htc_writes_out : HostWrite := ⟨0, [1], none, 0, 0, 0, none⟩
def htc_writes_s := hif fun h => { h with writes := [htc_writes_out], cbuf := [⟨0, 1, 0, 0, 0, 0, 0⟩], linkUp := true, msix := h.msix.set 0 ⟨8, 9, false, false⟩ }
def htc_writes_t := qp fun x => { x with state := 1, cqHead := 5, irqSince := some 0, irqEn := true, irqTimer := 65535 }
def htc_writes_u := htc_writes_t.withChip fun c => { c with hif := { c.hif with cbuf := [⟨0, 1, 0, 0, 0, 0, 0⟩], msix := c.hif.msix.set 0 ⟨8, 9, false, false⟩ } }

theorem test_hyp_HostTransfersComplete_writes :
    htc_writes_s.sys.chip.hif.writes = htc_writes_out :: [] ∧ htc_writes_out.handle = none ∧ htc_writes_s.sys.chip.cmp.mesh.lines = [] ∧ htc_writes_s.sys.chip.hif.linkUp = true ∧
    idle.sys.chip.hif.linkUp = false ∧
    (htc_writes_u.sys.chip.hif.cbuf.find? fun e => e.qp == (0 : QpId)) = some ⟨0, 1, 0, 0, 0, 0, 0⟩ ∧ cqFull (htc_writes_u.sys.chip.qp 0) = false ∧
    (htc_writes_u.sys.chip.qp 0).state = 1 ∧ htc_writes_u.sys.chip.hif.msix[(0 : Fin 33)].mask = false ∧ (htc_writes_t.sys.chip.qp 0).irqSince = some 0 ∧
    (htc_writes_t.sys.chip.qp 0).irqEn = true ∧ (htc_writes_t.sys.chip.qp 0).irqTimer ≠ 0 ∧ htc_writes_t.sys.chip.hif.msix[(0 : Fin 33)].mask = true := by
  decide

def wafr_s := hif fun h => { h with bar4On := true, winBase := 7 }

theorem test_hyp_WindowAndFunctionResets :
    idle.sys.chip.hif.bar4On = false ∧ wafr_s.sys.chip.hif.bar4On = true ∧ wafr_s.sys.chip.pwr.retention = false ∧
    regionOf wafr_s.sys.chip.map.vc (wafr_s.sys.chip.hif.winBase.toNat * 0x10000000 + (0x7FFF00 : BitVec 28).toNat) = .search 0x7FFF00 ∧
    wafr_s.sys.chip.domOn bitSrch = true ∧ wafr_s.sys.ecc = [] ∧ windowOk (.search 0x7FFF00) 0x707FFF00 256 = true ∧
    windowOk (.search 0) 0x70000000 8 = true := by decide

/-! Faults and power. -/

/-- The chip'wafr_s source 5 in another state. -/
def source (f : Source → Source) : State := idle.withChip fun c => { c with fc := { c.fc with src := c.fc.src.set 5 (f c.fc.src[5]) } }

def fleac_r := idle.withChip fun c => { c with fc := { c.fc with raised := [⟨0, .tile 3⟩] } }
def fleac_t := tray fun t => { t with fc := { t.fc with raised := [⟨32, .board⟩] } }
def fleac_x := fun (s : State) => s.sys.chip.fc.src[(5 : SourceId)]
def fleac_esc := source fun fleac_x => { fleac_x with status := true, timer := some 7 }

theorem test_hyp_FaultsLatchEscalateAndClear :
    fleac_r.sys.chip.fc.raised = [⟨0, .tile 3⟩] ∧ fleac_r.sys.chip.fc.src[(0 : SourceId)].enable = true ∧
    fleac_r.sys.chip.fc.src[(0 : SourceId)].status = false ∧ fleac_r.sys.chip.fc.src[(0 : SourceId)].primary = 1 ∧
    fleac_t.sys.tray.fc.raised = [⟨32, .board⟩] ∧ fleac_t.sys.tray.fc.src[(32 : SourceId)].enable = true ∧
    fleac_t.sys.tray.fc.src[(32 : SourceId)].status = false ∧ fleac_t.sys.tray.fc.src[(32 : SourceId)].primary = 3 ∧
    fleac_r.sys.chip.fc.firstValid = false ∧ (fleac_x fleac_esc).status = true ∧ (fleac_x fleac_esc).timer = some 7 ∧ (fleac_x fleac_esc).escalated = 0x10 ∧
    (fleac_x fleac_esc).resetOnly = false ∧ (fleac_x fleac_esc).line = false := by decide

def aaol_latched := source fun x => { x with status := true }

theorem test_hyp_AcknowledgementsActOnLatches :
    aaol_latched.sys.chip.pwr.retention = false ∧ (32 : Word).toNat.testBit ((5 : SourceId).val % 32) = true ∧
    aaol_latched.sys.chip.fc.src[(5 : SourceId)].status = true ∧ aaol_latched.sys.chip.fc.src[(5 : SourceId)].resetOnly = false ∧
    idle.sys.chip.fc.src[(5 : SourceId)].status = false := by decide

def cnaca_n := idle.withChip fun c => { c with mgt := { c.mgt with nmiWaiting := 0x30, crcBusy := true, crcLen := 8, crcBase := 0x70000000 } }
def cnaca_up := card fun c => { c with running := true }

theorem test_hyp_CollectorNmisAndCrcAct :
    cnaca_n.sys.chip.pwr.retention = false ∧ cnaca_up.sys.tray.card.running = true ∧ idle.sys.tray.card.running = false ∧
    cscRuns cnaca_n.sys.chip = true ∧ cnaca_n.sys.chip.mgt.nmiWaiting.toNat.testBit 4 = true ∧
    (∀ j : SourceId, j.val < 4 → cnaca_n.sys.chip.mgt.nmiWaiting.toNat.testBit j.val = false) ∧
    cnaca_n.sys.chip.mgt.nmiLog.length < 8 ∧ cnaca_n.sys.chip.mgt.crcBusy = true ∧ idle.sys.chip.mgt.crcBusy = false ∧
    crcRegionOk 20 0 0 = false ∧ crcRegionOk cnaca_n.sys.chip.map.vc 0x70000000 8 = true ∧
    regionOf cnaca_n.sys.chip.map.vc 0x70000000 = .search 0 ∧ cnaca_n.sys.chip.domOn bitSrch = true ∧ cnaca_n.sys.ecc = [] ∧
    (State.reset.sys.chip).domOn bitSrch = false := by decide

def dapsc_c := State.reset.sys.chip
def dapsc_on := fun (d : Domain) (k : Bool) => State.reset.withChip fun dapsc_c => setTrans (domainBit d) (some ⟨k, 9⟩) dapsc_c
def dapsc_pw := fun (f : Power → Power) => State.reset.withChip (Chip.onPwr f)
def dapsc_armed := State.reset.withChip fun dapsc_c => { dapsc_c with time := { dapsc_c.time with arm := true } }

theorem test_hyp_DomainsAndPowerStatesChange :
    dapsc_c.pwr.retention = false ∧ (0x60 : BitVec 7) = dapsc_c.pwr.req ∧ (0x7F : BitVec 7) ≠ dapsc_c.pwr.req ∧ run.sys.chip.map.run = true ∧
    dapsc_c.map.run = false ∧ dapsc_c.time.arm = false ∧ dapsc_c.pwr.tripHold = false ∧ dapsc_c.pwr.lowIdle = false ∧
    dapsc_c.pwr.on.toNat.testBit (reqBit 0) = false ∧ transOf dapsc_c (reqBit 0) = none ∧
    transOf (dapsc_on (.q 3) true).sys.chip (domainBit (.q 3)) = some ⟨true, 9⟩ ∧
    transOf (dapsc_on .dbg false).sys.chip (domainBit .dbg) = some ⟨false, 9⟩ ∧
    (dapsc_on .dbg false).sys.chip.pwr.on.toNat.testBit (domainBit .dbg) = false ∧ dapsc_armed.sys.chip.time.arm = true ∧
    dapsc_c.pwr.busy = false ∧ (dapsc_pw fun p => { p with lowIdle := true }).sys.chip.pwr.lowIdle = true ∧
    (dapsc_pw fun p => { p with wokenAt := some 3 }).sys.chip.pwr.wokenAt = some 3 ∧ State.reset.sys.tray.input ≠ .battery ∧
    (dapsc_pw fun p => { p with retention := true }).sys.chip.pwr.retention = true := by decide

def dapsc_park_s := (cpc fun c => { c with park := some 0, rails := Vector.replicate 5 .good })

theorem test_hyp_DomainsAndPowerStatesChange_park :
    dapsc_park_s.sys.tray.bays[dapsc_park_s.sys.chip.fab.slot].cpc.park = some 0 ∧
    lastRail RailState.turnedOn dapsc_park_s.sys.tray.bays[dapsc_park_s.sys.chip.fab.slot].cpc = some 4 := by decide

def opama_pw := fun (f : Power → Power) => State.reset.withChip (Chip.onPwr f)
def opama_goal := opama_pw fun p => { p with opGoal := some (0, 0), opPending := true }
def opama_busy := opama_pw fun p => { p with opGoal := some (0, 0), busy := true, opStart := some 0 }
def opama_c := State.reset.sys.chip

theorem test_hyp_OperatingPointAndMonitorsAct :
    opama_c.pwr.retention = false ∧ opama_c.pwr.busy = false ∧ opama_c.pwr.opReq ≠ 3 ∧ opama_goal.sys.chip.pwr.opGoal = some (0, 0) ∧
    opama_goal.sys.chip.pwr.opPending = true ∧ timeBaseRuns opama_goal.sys.chip = true ∧
    (0 : Dword).toNat ≤ opama_goal.sys.chip.time.coreView.toNat ∧ opama_c.map.run = false ∧ run.sys.chip.map.run = true ∧
    opama_busy.sys.chip.pwr.busy = true ∧ opama_busy.sys.chip.pwr.opStart = some 0 ∧ opama_busy.sys.chip.pwr.opGoal = some (0, 0) ∧
    (true && false) = false ∧ (∀ r : MonRail, monitorRuns opama_c r = true) ∧
    opama_c.pwr.hot = false := by decide

theorem test_hyp_OperatingPointAndMonitorsAct_trip :
    hottest ((Vector.replicate 16 110000).map halfDegrees) = 220 := by
  rw [Vector.map_replicate]
  decide

/-! The tray. -/

/-- Slot 0's cartridge power controller while its rails rise: rail 0 is up. -/
def rising : State := cpc fun c => { c with st := .rising, pwrEn := true, rails := c.rails.set 0 .up }

def iabs_t := fun (i : InputState) (b : BbuState) (d : Bool) => tray fun t => { t with input := i, bbu := b, dwellDone := d }

theorem test_hyp_InputAndBatteryStates :
    (iabs_t .normal .ready false).sys.tray.input = .normal ∧ (iabs_t .normal .ready false).sys.tray.bbu = .ready ∧
    (iabs_t .battery .carrying false).sys.tray.input = .battery ∧ (iabs_t .battery .carrying false).sys.tray.dwellDone = false ∧
    (iabs_t .battery .carrying true).sys.tray.dwellDone = true ∧ (iabs_t .qualifying .depleted true).sys.tray.input = .qualifying ∧
    State.reset.sys.tray.input = .unqualified ∧ (iabs_t .battery .carrying true).sys.tray.bbu = .carrying ∧
    State.reset.sys.tray.bbu = .absent ∧ (94 : Nat) < 95 ∧ 95 ≤ (95 : Nat) ∧
    (iabs_t .normal .charging false).sys.tray.bbu = .charging ∧ (iabs_t .normal .fault false).sys.tray.bbu ≠ .absent := by decide

def nbnr_t := tray fun t => { t with input := .normal, bbu := .depleted }

theorem test_hyp_NoBatteryNoRetention :
    nbnr_t.sys.tray.input = .normal ∧ nbnr_t.sys.tray.bays[nbnr_t.ownSlot].present = true ∧ nbnr_t.sys.tray.bbu = .depleted := by decide

def crs_wants := (cpc fun c => { c with pwrEn := true }).withTray fun t => { t with axes := t.axes.set 0 { t.axes[0] with pos := 6400, closedSw := false } }
def crs_on := cpc fun c => { c with st := .on, rails := Vector.replicate 5 .good }
def crs_parked := cpc fun c => { c with st := .falling, park := some 3, rails := Vector.replicate 5 .good }
def crs_falls := cpc fun c => { c with st := .falling, rails := (Vector.replicate 5 .good).set 4 .falling }
def crs_slow := cpc fun c => { c with st := .falling, rails := c.rails.set 0 .discharging }
def crs_x := fun (s : State) => s.sys.tray.bays[(0 : SlotId)].cpc

theorem test_hyp_CartridgeRailsSequence :
    crs_wants.sys.tray.bays[(0 : SlotId)].present = true ∧ (crs_x crs_wants).pwrEn = true ∧ (crs_x crs_wants).st = .off ∧ (crs_x crs_wants).railsOff = true ∧
    crs_wants.sys.tray.valveClosed 0 = false ∧ risingRail rising.sys.tray 0 = some 0 ∧ (crs_x rising).seqFault = false ∧
    (crs_x crs_on).st = .on ∧ (crs_x crs_on).pwrEn = false ∧ (crs_x crs_parked).park = some 3 ∧ lastRail RailState.turnedOn (crs_x crs_parked) = some 4 ∧
    (crs_x crs_falls).st = .falling ∧ (crs_x crs_falls).park = none ∧
    lastRail (fun r => r == .falling || r == .discharging) (crs_x crs_falls) = some 4 ∧
    lastRail (fun r => r == .falling || r == .discharging) (setRail 4 .off (crs_x crs_falls)) = none ∧
    lastRail RailState.turnedOn (crs_x crs_falls) = some 3 ∧ lastRail (fun r => r == .falling) (crs_x crs_falls) = some 4 ∧
    lastRail (fun r => r == .discharging) (crs_x crs_slow) = some 0 ∧ lastRail RailState.turnedOn (crs_x crs_slow) = none ∧
    (crs_x crs_on).rails[(4 : CpcRail)].turnedOn = true ∧ (crs_x crs_falls).rails[(3 : CpcRail)].turnedOn = true ∧
    (crs_x rising).rails[(0 : CpcRail)].turnedOn = true ∧ (crs_x crs_on).anyOn = true ∧ (crs_x State.reset).anyOn = false := by decide

def pbaca_d := tray fun t => { t with input := .normal, drives := t.drives.set 7 { t.drives[7] with present := true, duty := 20 } }
def pbaca_m : Cmis := ⟨true, .passiveCopper, 0, 0, 1, [], [], []⟩
def pbaca_far : Cmis := ⟨false, .other, 100000, 100000, 8, [], [], []⟩

theorem test_hyp_PresenceBuffersAndCagesAct :
    pbaca_d.sys.tray.bays[(15 : SlotId)].present = false ∧ pbaca_d.sys.tray.bays[(0 : SlotId)].present = true ∧
    pbaca_d.sys.tray.drives[(7 : ModuleId)].present = true ∧ 20 ≤ pbaca_d.sys.tray.drives[(7 : ModuleId)].duty ∧
    ¬(pbaca_d.sys.tray.drives[(0 : ModuleId)].present = true) ∧ pbaca_d.sys.tray.twi[busOf 0].busy = false ∧ (0 : CageId).val / 4 = (0 : SlotId).val ∧
    pbaca_d.sys.tray.drivesPowered = true ∧ cableAllowed pbaca_m = true ∧ cableAllowed pbaca_far = false ∧
    (tray fun t => { t with input := .battery }).sys.tray.drivesPowered = false := by decide

def aca_x := fun (f : Axis → Axis) => axis f
def aca_s := aca_x fun a => { a with target := 6400 }
def aca_up := (axis fun a => { a with pos := 6400, target := 0, closedSw := false }).withTray
  (Tray.onCpc 0 fun c => { c with st := .on, rails := Vector.replicate 5 .good })
def aca_full := (tray fun t => { t with input := .normal, full := true, tmcReq := true })
def aca_rest := aca_x fun a => { a with st := .stopped, pos := 100, remain := 200, closedSw := false }

theorem test_hyp_AxisCommandsAct :
    aca_s.sys.tray.fullWanted = aca_s.sys.tray.full ∧ aca_s.sys.tray.axisLeak 0 = false ∧ aca_s.sys.tray.full = false ∧
    aca_s.sys.tray.axes[(0 : AxisId)].st = .idle ∧ aca_s.sys.tray.axisAbsent 0 = false ∧ aca_s.sys.tray.axes[(0 : AxisId)].homed = true ∧
    6400 ≤ axisOpen ∧ axisOpen < 16383 ∧ aca_s.sys.tray.drivesPowered = true ∧ aca_s.sys.tray.railsUp 0 = false ∧
    aca_up.sys.tray.railsUp 0 = true ∧ aca_up.sys.tray.axes[(0 : AxisId)].target < aca_up.sys.tray.axes[(0 : AxisId)].min ∧
    aca_up.sys.tray.fullWanted = aca_up.sys.tray.full ∧ aca_up.sys.tray.axes[(0 : AxisId)].min ≠ aca_up.sys.tray.axes[(0 : AxisId)].pos ∧
    aca_full.sys.tray.fullWanted = aca_full.sys.tray.full ∧ aca_full.sys.tray.full = true ∧ aca_full.sys.tray.axisAbsent 0 = false ∧
    aca_full.sys.tray.axisLeak 0 = false ∧ aca_rest.sys.tray.axes[(0 : AxisId)].st = .stopped ∧
    (aca_rest.sys.tray.axes[(0 : AxisId)].pos : Int) + aca_rest.sys.tray.axes[(0 : AxisId)].remain = (300 : Nat) ∧
    aca_rest.sys.tray.axes[(0 : AxisId)].closedSw = false ∧ aca_s.sys.tray.axes[(0 : AxisId)].closedSw = true := by decide

def aeaca_x := fun (f : Axis → Axis) => axis f
def aeaca_moves := aeaca_x fun a => { a with st := .moving, target := axisOpen, closedSw := false }
def aeaca_stops := aeaca_x fun a => { a with st := .stopping, target := 6400 }
def aeaca_follows := aeaca_x fun a => { a with st := .following }
def aeaca_closes := aeaca_x fun a => { a with pos := 1280, closePending := true }
def aeaca_ax := fun (s : State) => s.sys.tray.axes[(0 : AxisId)]

theorem test_hyp_AxisEventsAndCamsAct :
    aeaca_moves.sys.tray.fullWanted = aeaca_moves.sys.tray.full ∧ (aeaca_ax aeaca_moves).next = none ∧ (aeaca_ax aeaca_moves).closePending = false ∧
    (aeaca_ax aeaca_moves).st = .moving ∧ (aeaca_ax aeaca_moves).target ≠ 0 ∧ (aeaca_ax (aeaca_x fun a => { a with st := .moving, closedSw := false })).target = 0 ∧
    (aeaca_ax aeaca_stops).st = .stopping ∧ (aeaca_ax aeaca_stops).release = false ∧
    (aeaca_ax aeaca_stops).pos ≤ (aeaca_ax aeaca_stops).target ∧ 6399 < (aeaca_ax aeaca_stops).target ∧
    (aeaca_ax aeaca_stops).target ≤ 6400 ∧ (aeaca_ax aeaca_stops).target ≤ axisOpen ∧
    (aeaca_ax (aeaca_x fun a => { a with st := .stopping, release := true })).release = true ∧
    (aeaca_ax (aeaca_x fun a => { a with st := .homing })).boot = false ∧ (aeaca_ax aeaca_moves).overrun = false ∧ (64 : Int) < 65 ∧
    (aeaca_ax aeaca_moves).target = axisOpen ∧ (aeaca_ax (aeaca_x fun a => { a with st := .moving, overrun := true })).overrun = true ∧
    (aeaca_ax aeaca_closes).closePending = true ∧ (aeaca_ax aeaca_closes).st = .idle ∧ (aeaca_ax aeaca_closes).pos ≠ 0 ∧ slotAxis 0 = 0 ∧
    aeaca_closes.sys.tray.bays[(0 : SlotId)].cpc.railsOff = true ∧ aeaca_closes.sys.tray.drivesPowered = true ∧
    (aeaca_ax aeaca_follows).st = .following ∧ aeaca_follows.sys.tray.axisAbsent 0 = false ∧ aeaca_follows.sys.tray.followed 0 = true ∧
    aeaca_moves.sys.tray.followed 0 = false := by decide

def lasc_s := axis id

theorem test_hyp_LimitsAreStoredClamped :
    lasc_s.sys.tray.fullWanted = lasc_s.sys.tray.full ∧ lasc_s.sys.tray.axes[(0 : AxisId)].inMotion = false := by decide

theorem test_hyp_CamOutputInterpolates : 65535 / 1024 = (63 : Fin 64).val ∧ 0 / 1024 = (0 : Fin 64).val := by decide

def lafca_s := (axis fun a => { a with pos := 100, closedSw := false }).withTray (Tray.onCard fun c => { c with running := true })
def lafca_on := lafca_s.withTray fun t => { t with orders := { t.orders with rack := t.orders.rack.set 0 .on } }
def lafca_full := tray fun t => { t with full := true, tmcReq := true }

theorem test_hyp_LeaksAndFullCoolingAct :
    lafca_s.sys.tray.drivesPowered = true ∧ lafca_s.sys.tray.axes[slotAxis 0].st = .idle ∧ lafca_s.sys.tray.axes[slotAxis 0].pos ≠ 0 ∧
    lafca_s.sys.tray.full = false ∧ lafca_s.sys.tray.fullWanted = false ∧ lafca_s.sys.tray.bays[(0 : SlotId)].present = true ∧
    lafca_s.sys.tray.bays[(0 : SlotId)].leak = false ∧ lafca_s.sys.tray.axes[slotAxis 0].pos < axisOpen ∧ lafca_full.sys.tray.full = true ∧
    lafca_full.sys.tray.card.expired = false ∧ lafca_full.sys.tray.fc.anyApplies 1 = false ∧ lafca_s.sys.tray.card.running = true ∧
    lafca_s.sys.tray.axes[slotAxis 0].homed = true ∧ lafca_s.sys.tray.axes[slotAxis 0].min ≤ axisOpen ∧ lafca_on.sys.tray.resolved 0 = .on ∧
    lafca_on.sys.tray.axes[slotAxis 0].pos < lafca_on.sys.tray.axes[slotAxis 0].min ∧ lafca_s.sys.tray.resolved 0 ≠ .on ∧
    lafca_s.sys.tray.bays[(0 : SlotId)].cpc.railsOff = true := by decide

/-! The Tray Management Controller and the two-wire buses. -/

def serving (f : Card → Card) : State := card fun c => f { c with present := true, running := true }

def oan_s := serving id
def oan_n : Notice := ⟨7, 0x8000, 0, false, hdr .rack⟩
def oan_open_ := fun (d : Bool) => serving fun c => { c with notices := [{ oan_n with deferred := d }] }
def oan_listens := (serving fun c => { c with mailbox := { c.mailbox with noticeEn := true } }).withTray fun t =>
  { t with orders := { t.orders with rack := t.orders.rack.set 15 .on } }
def oan_again := oan_s.withTray fun t => { t with requesters := [⟨9, 6, [(5, [1])]⟩] }

theorem test_hyp_OrdersAndNotices :
    executes (hdr .host) oan_s.sys = true ∧ executes (hdr .rack) oan_s.sys = true ∧
    noticeNumbered 7 (oan_open_ false).sys.tray = some oan_n ∧ oan_n.deferred = false ∧ (oan_open_ false).sys.now < oan_n.openedAt + Config.ms 100 ∧
    noticeNumbered 7 (oan_open_ true).sys.tray = some { oan_n with deferred := true } ∧ noticeNumbered 7 oan_s.sys.tray = none ∧
    executes (hdr .host) (oan_open_ true).sys = true ∧ heldSlots oan_s.sys.tray 0x8000 = 0 ∧
    oan_listens.sys.tray.card.mailbox.noticeEn = true ∧ oan_listens.sys.tray.card.mailbox.full = false ∧
    oan_listens.sys.tray.resolved 15 = .on ∧ (15 : SlotId) ∈ slotsOf 0x8000 ∧ executes (hdr .rack) oan_listens.sys = true ∧
    (100 : Byte).toNat ≤ 100 ∧ 100 < (101 : Byte).toNat ∧
    ((oan_open_ false).sys.tray.card.notices.find? fun z => z.deferred == false) = some oan_n ∧
    ((oan_open_ true).sys.tray.card.notices.find? fun z => z.deferred == true) = some { oan_n with deferred := true } ∧
    oan_again.sys.tray.card.running = true ∧ (hdr .rack).reqId ≠ 0 ∧ oan_again.sys.tray.requester 9 = some ⟨9, 6, [(5, [1])]⟩ ∧
    (hdr .rack).seq.toNat ≤ (6 : Word).toNat ∧ [((5 : Word), [(1 : Byte)])].lookup (hdr .rack).seq = some [1] ∧
    State.reset.sys.tray.card.running = false := by decide

def tra_s := (serving id).withTray fun t => { t with input := .normal, bays := t.bays.set 0 { t.bays[0] with buffer := true } }
def tra_awake := tra_s
def tra_caged := tra_s.withTray fun t => { t with cages := t.cages.set 63 ⟨some ⟨true, .other, 1, 1, 1, [], [], []⟩, true⟩ }

theorem test_hyp_TmcRequestsAct :
    tra_s.sys.tray.card.running = true ∧ (hdr .host).reqId ≠ 0 ∧ 1 + 128 ≤ 212 ∧ 212 < 85 + 128 ∧ executes (hdr .host) tra_s.sys = true ∧
    tra_s.sys.tray.bays[(15 : SlotId)].present = false ∧ tra_s.sys.tray.bays[(0 : SlotId)].present = true ∧ onBus tra_awake.sys.tray 0 = true ∧
    tra_s.ownSlot = 0 ∧ tra_s.sys.chip.pwr.retention = false ∧ tra_s.sys.chip.pwr.lowIdle = false ∧
    tra_caged.sys.tray.cages[(63 : CageId)].module = some ⟨true, .other, 1, 1, 1, [], [], []⟩ ∧ tra_s.sys.tray.cages[(63 : CageId)].module = none ∧
    (0 : Word) = tra_s.sys.tray.card.bootCount ∧ (1 : Word) ≠ tra_s.sys.tray.card.bootCount ∧ tra_s.sys.tray.net.dhcp = true ∧
    tra_s.sys.tray.net.lease = false ∧ tra_s.sys.tray.net.linkLocal = false ∧ tra_s.sys.tray.log.length < 32768 := by decide

def wara_s := (card fun c => { c with present := true }).withTray fun t => { t with input := .normal }
def wara_up := wara_s.withTray (Tray.onCard fun c => { c with running := true, edgeSince := true })

theorem test_hyp_WatchdogAndResetsAct :
    wara_s.sys.tray.card.present = true ∧ wara_s.sys.tray.card.resetLow = none ∧ wara_s.sys.tray.drivesPowered = true ∧
    wara_s.sys.tray.card.running = false ∧ wara_up.sys.tray.card.running = true ∧ wara_up.sys.tray.card.edgeSince = true ∧
    wara_s.sys.tray.card.edgeSince = false ∧ State.reset.sys.tray.card.present = false ∧
    State.reset.sys.tray.card.resetLow = none ∧ (tray fun t => { t with input := .battery }).sys.tray.drivesPowered = false := by decide

def twba_joined := tray fun t => { t with bays := t.bays.set 0 { t.bays[0] with buffer := true } }
def twba_checks := twba_joined.withChip fun c => { c with mgt := { c.mgt with pecEn := true } }
def twba_asleep := twba_joined.withChip (Chip.onPwr fun p => { p with retention := true })
def twba_busy := tray fun t => { t with twi := t.twi.set 5 { t.twi[5] with busy := true } }
def twba_low := tray fun t => { t with twi := t.twi.set 2 { t.twi[2] with retryAt := some 9, sclLow := true } }

theorem test_hyp_TwoWireBusesAct :
    onBus twba_joined.sys.tray 0 = true ∧ onBus twba_joined.sys.tray 15 = false ∧ twba_joined.ownSlot = 0 ∧ (0xFC : BitVec 8).toNat % 4 = 0 ∧
    twba_joined.sys.chip.pwr.retention = false ∧ twba_joined.sys.chip.pwr.lowIdle = false ∧ leNat [(0xFC : Byte), 0xFF] % 4 = 0 ∧
    twba_joined.sys.chip.mgt.pecEn = false ∧ twba_checks.sys.chip.mgt.pecEn = true ∧ twba_asleep.sys.chip.pwr.retention = true ∧
    twba_asleep.sys.chip.mgt.awake = none ∧ twba_asleep.sys.chip.mgt.wakeAt = none ∧ twba_busy.sys.tray.twi[(5 : BusId)].busy = true ∧
    twba_joined.sys.tray.twi[(5 : BusId)].busy = false ∧ twba_low.sys.tray.twi[(2 : BusId)].retryAt = some 9 ∧
    twba_low.sys.tray.twi[(2 : BusId)].sclLow = true ∧ twba_joined.sys.chip.mgt.twiTimeoutEn = true := by decide

def twba_sleep_woken := State.reset.withChip fun c => { c with mgt := { c.mgt with wakeAt := some 0, awake := some 4, twiTimeoutEn := false } }

theorem test_hyp_TwoWireBusesAct_sleep :
    twba_sleep_woken.sys.chip.mgt.wakeAt ≠ none ∧ twba_sleep_woken.sys.chip.mgt.awake = some 4 ∧ twba_sleep_woken.sys.chip.mgt.twiTimeoutEn = false := by
  decide

/-! States that meet the hypotheses of the clauses on refused, waiting and out-of-turn work. -/

/-- The chip map has an entry for chip 0, chip index 0, and A1 and A2 hold a message word and a route of one hop by port 0. -/
def mapped (route : Word) : State := (tile fun t => { t with a := (t.a.set 1 0).set 2 route }).withChip fun c =>
  { c with fab := { c.fab with chipMap := [(0, 0x8000)] } }

theorem test_hyp_ScheduledSendsKeepFraming_routes :
    (checkRoute (mapped 0x1E4).sys.chip 0 0 0x1E4).isRight = true ∧ checkRoute (mapped 0x1E4).sys.chip 1 0 0x1E4 = .inl 4 ∧
    checkRoute (mapped 0xE4).sys.chip 0 0 0xE4 = .inl 3 ∧ checkRoute run.sys.chip 0 0 0x1E4 = .inl 2 ∧
    Issues (mapped 0x1E4) 0 0 0 (srcDests (.vreg 0)) ∧ ((mapped 0x1E4).sys.chip.tile 0).openMsg[(0 : PortId)] = none ∧
    Issues sjq_s 0 0 0 (srcDests (.vreg 0)) ∧ 8 ≤ (sjq_s.sys.chip.tile 0).sendq.length ∧
    framingOk none .middle 0 = false ∧ framingOk (some ⟨2, 1, false⟩) .last 0 = false ∧ framingOk none .only 1 = false := by
  unfold Issues; decide

theorem test_hyp_LinkTrainingRuns_partners :
    canSee idle.sys 0 = false ∧ canSee idle.sys 4 = false ∧
    canSee (tray (Tray.onBay (facingSlot 0 0) fun b => { b with present := true })).sys 0 = true ∧
    canSee (tray fun t => { t with cages := t.cages.set (cageOf 0 4) ⟨some pbaca_m, false⟩ }).sys 4 = true := by decide

theorem test_hyp_LinkLimitsAndRetrains_transition :
    (llar_up.withChip (Chip.onPwr fun p => { p with busy := true })).sys.chip.pwr.busy = true ∧
    (llar_px (llar_up.withChip (Chip.onPwr fun p => { p with busy := true }))).st = .up := by decide

theorem test_hyp_FramesLeaveAndArrive_owed :
    (flaa_px (upPort fun x => { x with linkDue := true })).linkDue = true ∧ (flaa_px flaa_s).pipe = [] ∧
    (flaa_px flaa_s).fills = [] ∧ (∀ q : PortId, (flaa_s.sys.chip.port q).pipe = [] ∧ (flaa_s.sys.chip.port q).fills = []) := by
  decide

theorem test_hyp_FramesLeaveAndArrive_sendq : ∀ q, (flaa_s.sys.chip.tile q).sendq = [] := by decide +kernel

theorem test_hyp_TimeTreeIsKept_pads :
    ((tree 0 1).sys.chip.port 4).padOver ∧ ((got (timeFrame 0) 0).sys.chip.port 4).padOver ∧ ((tree 3 1).sys.chip.port 4).padOver := by
  unfold Port.padOver; decide

def ttik_alone := (ttik_parents_lost 5).withChip fun c => { c with time := { c.time with role := 2 } }

theorem test_hyp_TimeTreeIsKept_alone :
    ttik_alone.sys.chip.isRoot = false ∧ ttik_alone.sys.chip.time.role ≠ 1 ∧ ttik_alone.sys.chip.pwr.busy = false ∧
    ttik_alone.sys.chip.usableParent 0 none = none := by decide

theorem test_hyp_PoursAndRunsTakeEffect_pads :
    ((armed 7).sys.chip.port 4).padOver ∧ (parte_ok.sys.chip.port 4).padOver ∧ ((tree 2 1).sys.chip.port 4).padOver := by
  unfold Port.padOver; decide

def parte_held := (parte_runs_held.withChip fun c => { c with time := { c.time with holdSince := some 0 } })

theorem test_hyp_PoursAndRunsTakeEffect_holds :
    parte_held.sys.chip.time.holdSince = some 0 ∧ timeBaseRuns parte_held.sys.chip = true ∧ parte_held.sys.chip.limitHold = true := by
  decide

def sus_cutA : SearchRun := ⟨⟨asks 0, 0, 0, 1, 0, .host 0 0⟩, 0, ⟨[], 0, 1, [], 0, none, false, false⟩⟩

theorem test_hyp_SearchUnitServes_cut :
    sus_cut.sys.chip.srch.active = some sus_cutA ∧ sus_cutA.answer.status = 1 ∧
    sus_cutA.began + sus_cutA.answer.work ≤ sus_cut.sys.chip.srch.work.toNat ∧ sus_cutA.answer.writes = [] ∧
    sus_cutA.answer.cleared = false := by decide

/-- Queue pair 0 has a fence behind a WRITE that is not done. -/
def dacte_fences := (serves []).withChip (Chip.onQp 0 fun x =>
  { x with entries := [{ entry 0 [1, 0, 0, 0, 8] with started := true }, entry 1 [9]] })

theorem test_hyp_DescriptorsAndCancelsTakeEffect_turns :
    turnOf (serves [0]).sys.chip = some 0 ∧ startBusy (serves [0]).sys.chip = false ∧ (serves [0]).sys.chip.hif.cbuf.length < 64 ∧
    turnOf (serves [0]).sys.chip ≠ some 1 ∧ turnOf dacte_effects_two.sys.chip = some 1 ∧ startBusy dacte_effects_two.sys.chip = false ∧
    startBusy { dacte_effects_r with hif := { dacte_effects_r.hif with startAt := some 9 } } = true ∧
    nextEntry (dacte_fences.sys.chip.qp 0) = some (entry 1 [9]) ∧ descOp (entry 1 [9]).bytes = 9 ∧
    notDone 1 { entry 0 [1, 0, 0, 0, 8] with started := true } = true ∧ notDone 0 (entry 0 [9]) = false ∧
    dacte_effects_two.sys.chip.hif.reads = [] := by decide

def htc_handled : HostWrite := ⟨0, [1], some (0x80000005, 9), 0, 0, 0, none⟩
def htc_ended : HostWrite := ⟨0, [1], none, 0, 0, 0, some (0, 0, 1, 2)⟩
def htc_links := (serves [10]).withChip fun c => { c with hif := { c.hif with writes := [htc_handled] } }

theorem test_hyp_HostTransfersComplete_behind :
    htc_links.sys.chip.hif.writes = htc_handled :: [] ∧ htc_links.sys.chip.hif.linkUp = true ∧ htc_links.sys.chip.hif.cbuf.length < 64 ∧
    htc_handled.handle = some (0x80000005, 9) ∧ (0x80000005 : Word).toNat.testBit 31 = true ∧
    (htc_links.sys.chip.qp (handleQp 0x80000005)).state = 1 ∧ htc_ended.ends = some (0, 0, 1, 2) ∧
    findEntry (htc_links.sys.chip.qp 0) 0 = some (entry 0 [10]) := by decide

theorem test_hyp_WindowAndFunctionResets_here :
    wafr_s.sys.tray.bays[wafr_s.ownSlot].present = true ∧
    (wafr_s.withTray (Tray.onBay 0 fun b => { b with present := false })).sys.tray.bays[wafr_s.ownSlot].present = false ∧
    windowOk (.search 0) 0x70000000 257 = false ∧ idle.sys.chip.domOn bitHost = true ∧ State.reset.sys.chip.domOn bitHost = true := by
  decide

def cnaca_fresh := cnaca_n.withChip fun c => { c with mgt := { c.mgt with crcAcc := 2 ^ 64 - 1 } }

theorem test_hyp_CollectorNmisAndCrcAct_crc :
    cnaca_fresh.sys.chip.mgt.crcBad = false ∧ cnaca_fresh.sys.chip.mgt.crcLine = 0 ∧ cnaca_fresh.sys.chip.map.run = false ∧
    cnaca_fresh.sys.chip.mgt.crcAcc = crc64On (2 ^ 64 - 1) (Memory.read cnaca_fresh.mem (searchBase + 0) (min 8 (256 * 0 - 0x70000000 % 256))) := by
  decide

/-- The last rail, rail 0 of the chip's own slot, falls. -/
def crs_last := cpc fun c => { c with st := .falling, rails := (Vector.replicate 5 .off).set 0 .falling }

theorem test_hyp_CartridgeRailsSequence_last :
    (crs_x crs_last).st = .falling ∧ (crs_x crs_last).park = none ∧ (0 : SlotId) = crs_last.ownSlot ∧
    lastRail (fun r => r == .falling || r == .discharging) (crs_x crs_last) = some 0 ∧
    lastRail (fun r => r == .falling || r == .discharging) (setRail 0 .off (crs_x crs_last)) = none ∧
    lastRail RailState.turnedOn (crs_x crs_last) = none ∧ (crs_x crs_falls).rails[(0 : CpcRail)].turnedOn = true ∧
    (crs_x (cpc fun c => { c with rails := c.rails.set 0 .good })).anyOn = true := by decide

def aca_leaks := aca_s.withTray (Tray.onBay 0 fun b => { b with leak := true })

theorem test_hyp_AxisCommandsAct_refusals :
    aca_leaks.sys.tray.axisLeak 0 = true ∧ (aca_x fun a => { a with st := .failed }).sys.tray.axes[(0 : AxisId)].st = .failed ∧
    (tray id).sys.tray.axisAbsent 31 = true ∧ (tray id).sys.tray.axisLeak 31 = false ∧
    (aca_x fun a => { a with homed := false }).sys.tray.axes[(0 : AxisId)].homed = false ∧
    (aca_x fun a => { a with homed := false }).sys.tray.axisAbsent 0 = false ∧
    (tray fun t => { t with input := .battery }).sys.tray.drivesPowered = false ∧
    (aca_x fun a => { a with st := .homing }).sys.tray.axes[(0 : AxisId)].st = .homing ∧
    (aca_x fun a => { a with st := .stopping }).sys.tray.axes[(0 : AxisId)].st = .stopping ∧
    (aca_x fun a => { a with st := .following }).sys.tray.axes[(0 : AxisId)].st = .following := by decide

def wara_gap := wara_up.withTray (Tray.onCard fun c => { c with servedAt := some 0 })

theorem test_hyp_WatchdogAndResetsAct_gap :
    wara_gap.sys.tray.card.servedAt = some 0 ∧ wara_gap.sys.now < 0 + Config.sec 10 ∧
    ({ wara_gap with sys := { wara_gap.sys with now := Config.sec 10 } } : State).sys.now = 0 + Config.sec 10 ∧
    wara_up.sys.tray.card.servedAt = none := by decide

theorem test_hyp_TwoWireBusesAct_records :
    (eepromAt State.reset.sys.tray 5 0x50).isSome = true ∧ eepromAt State.reset.sys.tray 2 0x50 = none ∧
    (eepromAt twba_joined.sys.tray (busOf 0) (eepromAddress 0)).isSome = true ∧ len32 1 ≠ 0 ∧ len32 0 = 0 := by
  decide

/-! The spec's worked examples. -/

/-- Worked example 05-2: the bundle whose words the example gives, slot by slot. -/
def aBundle : Nat :=
  0x0010860800000000 + 0x00000508A4100010 * 2 ^ 64 + 0x0000000040941C08 * 2 ^ 128 + 0x000008A600003008 * 2 ^ 192

theorem test_decode_bundle : decodeBundle 9 aBundle =
    [(.c, some (.nop 9 .c)), (.l, some (.ld 9 0 3 ⟨2, 4, 1⟩)), (.m, some (.mmul 9 0 0 1 5 2 10 false)),
     (.v, some (.vadd 9 0 7 8 9 1 0 false)), (.n, some (.msend 9 0 (.vreg 12) 3 5 2))] := by decide

/-- Worked examples 06-1, 06-2 and 06-8. -/
theorem test_decode_far_scaled_and_forecast :
    decodeSlot 0 .l 0x00100024C500 = some (.ldb 0 0 2 ⟨3, 9, 0, 1⟩) ∧
    decodeSlot 0 .m 0x00C4C918 = some (.mxmul 0 0 0 2 6 1 6 false) ∧
    decodeSlot 0 .c 0x04030688 = some (.ramp 0 0 6 48 256) := by decide

/-- Worked examples 06-4, 06-5 and 06-6. -/
theorem test_decode_sends :
    decodeSlot 0 .n 0x0019620200020280 = some (.fsend 0 0 (.sram ⟨4, 0, 1⟩) .first 4 5 6) ∧
    decodeSlot 0 .n 0x0000240200020280 = some (.fsend 0 0 (.sram ⟨4, 0, 1⟩) .middle 4 0 0) ∧
    decodeSlot 0 .n 0x0000260200020280 = some (.fsend 0 0 (.sram ⟨4, 0, 1⟩) .last 4 0 0) ∧
    decodeSlot 0 .n 0x02A4F00000005088 = some (.hwrite 0 0 (.vreg 20) 8 39 true 10) ∧
    decodeSlot 0 .n 0x00006E0000010290 = some (.sreq 0 0 (.sram ⟨2, 0, 0⟩) 7 3) := by decide

/-- 05 R130, R131: an all-zero slot is a NOP; opcode 0 with PRED 1, a reserved opcode, and a reserved bit are illegal. -/
theorem test_decode_illegal :
    decodeSlot 0 .v 0 = some (.nop 0 .v) ∧ decodeSlot 0 .v 1 = none ∧ decodeSlot 0 .c 0x40 = none ∧
    decodeSlot 0 .l (0x001000108608 + 2 ^ 44) = none := by decide

/-- Worked example 03-1: the map of Table 03-5, where virtual tile 89 is physical tile (5, 12). -/
def _of_sk2_288_m : MapRegs := { MapRegs.reset with
  target := 2, disabled := 0x4010,
  vcol := setCols 3 0x13121110 (setCols 2 0x0F0D0C0B (setCols 1 0x09070605 (setCols 0 0x03020100 MapRegs.reset.vcol))) }

theorem test_map_of_sk2_288 :
    _of_sk2_288_m.phys 89 = some 112 ∧ _of_sk2_288_m.vc = 16 ∧ _of_sk2_288_m.phys 256 = none := by decide

/-- Worked example 04-2: the third read of a bundle is dropped, and so is one of a sub-bank in use. -/
def _read_dropped_u := { BundleUse.none with reads := [subBank 0x42300, subBank 0x1C0000] }

theorem test_third_read_dropped :
    portFits _read_dropped_u (subBank 0x50000) false = false ∧ portFits { _read_dropped_u with reads := [1] } (subBank 0x1C0000) false = true := by decide

/-- Worked example 05-1: at the end of its body K1 goes from 3 to 2 and bundle 101 follows; from 1 to 0 the loop ends. -/
def _of_three_passes_t := fun (n : Word) => { Tile.reset with k := Tile.reset.k.set 1 n }

theorem test_loop_of_three_passes :
    loopTest (_of_three_passes_t 3) 103 [⟨1, 101, 103⟩] = ([(1, 2)], [⟨1, 101, 103⟩], some 101) ∧
    loopTest (_of_three_passes_t 1) 103 [⟨1, 101, 103⟩] = ([(1, 0)], [], none) := by decide

/-- 05 R152: under RND 0, 127.3 to INT8 gives 127 and raises nothing; 127.6 gives 127 and raises invalid. -/
theorem test_convert_saturates :
    toInt 8 .nearest (fBinary32.decode 0x42FE999A) = (127, false) ∧
    toInt 8 .nearest (fBinary32.decode 0x42FF3333) = (127, true) := by decide

/-- Worked example 06-1: the last line of sub-bank 9, and the pointer that wraps to its first. -/
def _pointer_wraps_t := { Tile.reset with a := Tile.reset.a.set 3 0x0003FF00 }
def _pointer_wraps_a : BankAddr := ⟨3, 9, 0, 1⟩

theorem test_bank_pointer_wraps :
    bankEA _pointer_wraps_t _pointer_wraps_a = 0x27FF00 ∧ bankInc _pointer_wraps_t _pointer_wraps_a = [.a 3 0] := by decide

/-- Worked example 06-2: the products of one column, with both scales, and the accumulation. -/
def _column_x := [(0x0C, 0x10), (0x25, 0x0C), (0x04, 0x12)].map fun y => (fE2M3.decode y.1).mul (fE2M3.decode y.2)

theorem test_scaled_column :
    sumProducts _column_x [(0x0C, 0x10), (0x25, 0x0C), (0x04, 0x12)] (126 - 127 + (129 - 127)) = 0x40D40000 ∧
    addBinary32 0x3FA00000 0x40D40000 = 0x40FC0000 := by decide

/-- Worked example 06-3: 5.0, 0.3 and −7.9 as a block of E2M3. -/
def _block_vs := ([0x40A00000, 0x3E99999A, 0xC0FCCCCD] ++ List.replicate 29 0).map fBinary32.decode

theorem test_quantise_block :
    mxBlock 6 fE2M3 _block_vs (fun _ => .nearest) = (127, [0x1A, 0x02, 0x3F] ++ List.replicate 29 0, false) := by decide

/-- Worked example 07-1: 3.0, −0.7 and 0.001 as a block of BX12. -/
def _blockx_vs := ([0x40400000, 0xBF333333, 0x3A83126F] ++ List.replicate 13 0).map fBinary32.decode

theorem test_convert_block :
    bxEncodeBlock _blockx_vs (fun _ => .nearest) = ([0x0600, 0x8E9A, 0x0001] ++ List.replicate 13 0, false) := by decide

/-- Worked example 07-2: the products are rounded once, and then the accumulation. -/
def _rounding_per_issue_f := fBinary32.decode
def _rounding_per_issue_p := sumProducts [(_rounding_per_issue_f 0x45800000).mul (_rounding_per_issue_f 0x45800000), (_rounding_per_issue_f 0x3F800000).mul (_rounding_per_issue_f 0x3F800000)] [] 0

theorem test_one_rounding_per_issue :
    _rounding_per_issue_p = 0x4B800000 ∧ addBinary32 0x3F800000 _rounding_per_issue_p = 0x4B800000 := by decide

/-- Worked example 09-2: seven healthy lanes make a width of 4. -/
theorem test_seven_lanes : widthFor 7 = 4 ∧ widthFor 6 = 4 := by decide

/-- Worked example 10-1: the first line's message field, and Table 10-4. -/
theorem test_four_hop_route :
    withPart (schedHeader 1277 (BitVec.ofNat 32 (40 + 3 * 2 ^ 13 + 9 * 2 ^ 17 + 2 * 2 ^ 22 + 7 * 2 ^ 24)) 0xADD2) .first =
      0x0002B74879264FD4 ∧
    nextHop 0xADD2 = some (4, 0x6DD2) ∧ nextHop 0x6DD2 = some (4, 0x2DD2) ∧ nextHop 0x2DD2 = some (1, 0x2CD2) ∧
    nextHop 0x2CD2 = some (3, 0x24D2) ∧ nextHop 0x24D2 = none ∧ routeOf (afterHop 0x0002B74879264FD4) = 0x6DD2 := by decide

/-- Worked example 13-1: STATUS 1, QP 2, LEN 36 and HANDLE 0x80020051 of the mailbox line. -/
def _input_e := newEntry 0 (some ([3, 3, 0x51, 0, 36, 0, 0, 0] ++ List.replicate 56 7)) 0
def _input_l := mailLine 2 _input_e

theorem test_pushed_input :
    (_input_l.byte 0, _input_l.byte 1, _input_l.leNat 2 2, _input_l.leNat 4 4) = (1, 2, 36, 0x80020051) := by decide

/-- 14 R389: the CRC of the nine ASCII bytes "123456789". -/
theorem test_crc64 : crc64 [0x31, 0x32, 0x33, 0x34, 0x35, 0x36, 0x37, 0x38, 0x39] = 0x995DC9BBDF1939FA := by decide

/-- Worked example 19-2: the outputs of the old table at 30,000 and of the new one at 31,000. -/
theorem test_cam_output :
    camOutput (Vector.ofFn fun i => BitVec.ofNat 14 (2000 + 160 * i.val)) 30000 = 6687 ∧
    camOutput (Vector.ofFn fun i => BitVec.ofNat 14 (2400 + 160 * i.val)) 31000 = 7243 := by decide

end Sys2Proof.Tests
end

section
/-! PROOFS. Acknowledgement at the fault collector (15 R404): what it makes of one source, what a write of FC_ACK_LO or
FC_ACK_HI makes of the collector, and the command on the chip's collector. -/

namespace Sys2Proof.Machine

section Acknowledgement

variable (x : Source) (k : Collector) (hi : Bool) (v : Word)

/-! One source. -/

theorem ackSource_of_clear (h : x.status = false) : ackSource x = x := by
  simp [ackSource, h]

/-- An acknowledged latch stays unless it is RESET_ONLY and every owner has been reset (15 R406). -/
theorem settle_of_not_cleared (h : x.resetOnly = false ∨ ∃ e ∈ x.owners, e.2 = false) : settle x = x := by
  rcases h with h | ⟨e, he, hr⟩
  · simp [settle, h]
  · have hall : x.owners.all (fun e => e.2) = false := List.all_eq_false.2 ⟨e, he, by simp [hr]⟩
    simp [settle, hall]

theorem ackSource_of_latched (hs : x.status = true) (h : x.resetOnly = false ∨ ∃ e ∈ x.owners, e.2 = false) :
    ackSource x = { x with acked := true, timer := none } := by
  rw [ackSource, if_pos hs]
  exact settle_of_not_cleared _ h

/-! The collector. -/

/-- FC_ACK_LO acts on sources 0 to 31 and FC_ACK_HI on 32 to 63: on those whose bit is written 1. -/
theorem Collector.ack_src (i : SourceId) : (k.ack hi v).src[i] =
    if hi = decide (32 ≤ i.val) ∧ v.toNat.testBit (i.val % 32) = true then ackSource k.src[i] else k.src[i] := by
  cases hi <;> simp [Collector.ack]

/-! The register write and the command on the chip. -/

@[simp] theorem wakeAccess_fc (now : Nat) (c : Chip) : (wakeAccess now c).fc = c.fc := by
  unfold wakeAccess
  split <;> rfl

theorem writeReg_fcAck (y : Sys) : writeReg (0x1000 + if hi then 0x0C else 0x08) v y =
    y.onChip fun c => { c with fc := c.fc.ack hi v } := by
  cases hi <;> rfl

theorem exec_fcAck_chip (s : State) (h : s.sys.chip.pwr.retention = false) : exec (.fcAck .chip hi v) s =
    .next (s.waked.withChip fun c => { c with fc := c.fc.ack hi v }).settled := by
  have hr : reachable s.sys.chip = true := by simp [reachable, h]
  rw [exec_fcAck, execFcAck, onBoard_eq, collectorWrite, chipWrite, if_pos hr, accessWrite, writeReg_fcAck]
  rfl

/-- The chip's sources after the command: what the collector's acknowledgement makes of them, waking and settling aside. -/
theorem fcAck_chip_src (s : State) (i : SourceId) :
    (s.waked.withChip fun c => { c with fc := c.fc.ack hi v }).settled.sys.chip.fc.src[i] =
      if hi = decide (32 ≤ i.val) ∧ v.toNat.testBit (i.val % 32) = true then ackSource s.sys.chip.fc.src[i]
      else s.sys.chip.fc.src[i] := by
  have hfc : (s.waked.withChip fun c => { c with fc := c.fc.ack hi v }).settled.sys.chip.fc =
      s.sys.chip.fc.ack hi v := congrArg (Collector.ack hi v) (wakeAccess_fc _ _)
  rw [hfc, Collector.ack_src]

end Acknowledgement

/-- Settles O43: the named source becomes `ackSource` of itself, which stops the timer of a latch that has to stay and
leaves a clear source as it is. -/
theorem acknowledgementsActOnLatches : Obligations.AcknowledgementsActOnLatches := by
  intro s v i x hret hbit
  have hsrc := fcAck_chip_src (decide (32 ≤ i.val)) v s i
  rw [if_pos ⟨rfl, hbit⟩] at hsrc
  rw [exec_fcAck_chip _ _ _ hret]
  exact ⟨_, rfl, ⟨rfl, rfl⟩, fun hs hstays => hsrc.trans (ackSource_of_latched x hs hstays),
    fun hs => hsrc.trans (ackSource_of_clear x hs)⟩

end Sys2Proof.Machine
end

section
/-! PROOFS. A commit without a charged battery (17 R462, R463): what the tray's operations make of the inputs, the battery
and the cartridges fitted, what a commit makes of them, and what the fall of VRET takes from the chip. -/

namespace Sys2Proof.Machine

section Supply

variable (t u : Tray) (y : Sys) (s : State) (now : Nat)

/-! What decides whether VRET reaches a cartridge. -/

/-- The input state, the battery's state, and where a cartridge is fitted (17 R451, R462). -/
def Tray.supply : InputState × BbuState × (SlotId → Bool) := (t.input, t.bbu, fun n => t.bays[n].present)

theorem supply_eq_iff {i : InputState} {b : BbuState} {p : SlotId → Bool} :
    t.supply = (i, b, p) ↔ t.input = i ∧ t.bbu = b ∧ (fun n => t.bays[n].present) = p := by
  simp [Tray.supply]

theorem vrbUp_of_normal (h : t.input = .normal) : t.vrbUp = true := by
  simp [Tray.vrbUp, h]

/-- An input away from NORMAL with no battery able to carry leaves the retention bus down (17 R462). -/
theorem vrbUp_of_no_battery (hi : t.input ≠ .normal) (hb : t.bbu = .absent ∨ t.bbu = .depleted ∨ t.bbu = .fault) :
    t.vrbUp = false := by
  rcases hb with hb | hb | hb <;> simp [Tray.vrbUp, hi, hb]

/-! What leaves the supply as it is. -/

theorem foldl_keeps {σ τ β : Type} (p : σ → τ) (f : σ → β → σ) (h : ∀ x b, p (f x b) = p x) (l : List β) (x : σ) :
    p (l.foldl f x) = p x :=
  (List.foldl_hom p fun x b => (h x b).symm).symm.trans (List.foldl_fixed l)

@[simp] theorem supply_onAxis (n : AxisId) (f : Axis → Axis) : (t.onAxis n f).supply = t.supply := rfl
@[simp] theorem supply_assert (n : Nat) (o : Owner) : (t.assert n o now).supply = t.supply := rfl
@[simp] theorem supply_lower (n : Nat) : (t.lower n now).supply = t.supply := rfl

theorem supply_withLog (l : List LogRec) (head : Nat) : { t with log := l, logHead := head }.supply = t.supply := rfl

@[simp] theorem supply_logPower (typ : Nat) : (t.logPower typ now).supply = t.supply := by
  unfold Tray.logPower Tray.logEvent Tray.appendRec
  exact supply_withLog t _ _

@[simp] theorem supply_darkModules (f : CageId → Bool) : (darkModules f t).supply = t.supply := by
  simp only [Tray.supply, darkModules]

@[simp] theorem supply_settleLog : (settleLog now t).supply = t.supply := rfl

@[simp] theorem supply_logLater (typ origin status target arg slot : Nat) (req : Word × Word) (wait : LogWait) :
    (t.logLater typ origin status target arg slot req wait now).supply = t.supply := rfl

@[simp] theorem supply_setOrder (r : Rank) (mask : BitVec 16) (o : Order) : (t.setOrder r mask o).supply = t.supply := by
  cases r <;> rfl

@[simp] theorem supply_applyOrder (r : Rank) (mask : BitVec 16) (o : Order) (origin status : Nat) (req : Word × Word) :
    (applyOrder r mask o origin status req now t).supply = t.supply := by
  unfold applyOrder
  extract_lets v ch
  split_ifs <;> simp [v]

/-- A reset of the card touches its notices' orders, the lease and the card alone. -/
@[simp] theorem supply_resetCard : (resetCard now t).supply = t.supply :=
  foldl_keeps Tray.supply _ (fun v _ => supply_applyOrder v now _ _ _ _ _ _) t.card.notices t

@[simp] theorem supply_settlePwrEn : (settlePwrEn now t).supply = t.supply := by
  simp [settlePwrEn_eq, Tray.supply]

@[simp] theorem supply_settleDrives : (settleDrives now t).supply = t.supply := by
  rw [settleDrives_eq]; rfl

@[simp] theorem supply_startFullAxis (n : AxisId) : (startFullAxis t now n u).supply = u.supply := rfl

theorem supply_withFull (b e : Bool) (axes : Vector Axis 20) :
    { t with full := b, fullEnded := e, axes := axes }.supply = t.supply := rfl

@[simp] theorem supply_settleFull : (settleFull now t).supply = t.supply := by
  have hstart : ∀ v : Tray, ((List.finRange 20).foldl (fun w n => startFullAxis t now n w) v).supply = v.supply :=
    foldl_keeps Tray.supply _ (fun w n => supply_startFullAxis t w now n) _
  simp only [settleFull]
  split_ifs <;> simp only [supply_logLater, hstart, supply_withFull]

@[simp] theorem supply_settleTray : (settleTray y).tray.supply = y.tray.supply := by
  have herr : (settleErr y).tray.supply = y.tray.supply := by
    simp only [settleErr, Sys.onTray_tray]
    split <;> simp
  simp [settleTray, herr]

/-! A commit. -/

/-- The halt of the axes reaches neither the supply nor the chip. -/
theorem haltAxes_keeps : ((haltAxes y).tray.supply, (haltAxes y).chip) = (y.tray.supply, y.chip) := by
  unfold haltAxes
  exact foldl_keeps (fun z : Sys => (z.tray.supply, z.chip)) _ (fun z n => by simp) _ y

@[simp] theorem supply_haltAxes : (haltAxes y).tray.supply = y.tray.supply := congrArg Prod.fst (haltAxes_keeps y)
@[simp] theorem haltAxes_chip : (haltAxes y).chip = y.chip := congrArg Prod.snd (haltAxes_keeps y)
@[simp] theorem commitTray_chip : (commitTray y).chip = y.chip := haltAxes_chip _

@[simp] theorem supply_setBbu (st : BbuState) :
    (setBbu st now t).supply = (t.input, st, fun n => t.bays[n].present) := by
  unfold setBbu
  split
  next h => rw [← eq_of_beq h]; rfl
  next => exact supply_logPower _ _ _

/-- The step of a commit in which a charged battery takes over the bus (17 R459, R463). -/
theorem supply_carry {i : InputState} {b : BbuState} {p : SlotId → Bool} (h : t.supply = (i, b, p)) :
    (if t.bbu == .charging || t.bbu == .ready then setBbu .carrying now t else t).supply =
      (i, if b = .charging ∨ b = .ready then .carrying else b, p) := by
  obtain ⟨rfl, rfl, rfl⟩ := (supply_eq_iff t).1 h
  by_cases hc : t.bbu = .charging ∨ t.bbu = .ready
  · simp [hc]
  · simp [hc, h]

/-- A commit takes the input to BATTERY; a charged battery carries, any other stays as it is (17 R448, R459, R463). -/
@[simp] theorem supply_commitTray : (commitTray y).tray.supply =
    (.battery, if y.tray.bbu = .charging ∨ y.tray.bbu = .ready then .carrying else y.tray.bbu,
      fun n => y.tray.bays[n].present) := by
  have hcarry := supply_carry _ y.now
    (supply_logPower { y.tray with input := .battery, inputAt := y.now, dwellDone := false } y.now 0x10)
  simp only [commitTray, supply_haltAxes, Sys.onTray_tray, apply_ite Tray.supply, supply_resetCard, supply_darkModules,
    ite_self]
  simp only [apply_ite Tray.supply] at hcarry
  exact hcarry

/-! VRET falls. -/

theorem loseVret_cases : loseVret y = loseRet y ∨ loseVret y = (loseRet y).onChip unpowered := by
  simp only [loseVret]
  split_ifs
  · exact .inr rfl
  · exact .inl rfl

@[simp] theorem loseVret_tray : (loseVret y).tray = y.tray := by
  rcases loseVret_cases y with h | h <;> rw [h] <;> rfl

@[simp] theorem loseVret_ecc : (loseVret y).ecc = [] := by
  rcases loseVret_cases y with h | h <;> rw [h] <;> rfl

/-- RET_LOST is set in a chip that keeps its AON registers, and is the reset value where these go too (16 R424). -/
@[simp] theorem loseVret_retLost : (loseVret y).chip.pwr.retLost = true := by
  rcases loseVret_cases y with h | h <;> rw [h] <;> rfl

variable {s} in
/-- Where the step takes VRET from the chip's own cartridge, memory goes with it. -/
theorem onSupply_of_vretFalls {f : Sys → Sys} (h : vretFalls s.sys (settleTray (f s.sys)) = true) :
    onSupply f s = .next { s with mem := [], sys := settleTray (loseVret (settleTray (f s.sys))) } := by
  simp [onSupply, onMemSys, h]

variable {s} in
theorem exec_commit_of_normal (cause : CommitCause) (h : s.sys.tray.input = .normal) :
    exec (.commit cause) s = onSupply commitTray s := by
  rw [exec_commit, execCommit, onSupply, onSupply]
  simp [onMemSys, h]

/-- Without a battery that can carry, the board after a commit: in BATTERY, with the battery as it was (17 R462). -/
theorem supply_commit_of_no_battery (hb : y.tray.bbu = .absent ∨ y.tray.bbu = .depleted ∨ y.tray.bbu = .fault) :
    (settleTray (commitTray y)).tray.supply = (.battery, y.tray.bbu, fun n => y.tray.bays[n].present) := by
  have hcarry : ¬(y.tray.bbu = .charging ∨ y.tray.bbu = .ready) := by
    rcases hb with hb | hb | hb <;> simp [hb]
  rw [supply_settleTray, supply_commitTray, if_neg hcarry]

end Supply

/-- Settles O49: the commit leaves the battery's state and the cartridges fitted as they are, so that the bus falls in this
step, and `loseVret` takes memory. -/
theorem noBatteryNoRetention : Obligations.NoBatteryNoRetention := by
  intro s cause t hin hpres hbbu
  have hsupply := supply_commit_of_no_battery s.sys hbbu
  have hdown {u : Tray} (hu : u.supply = (.battery, t.bbu, fun n => t.bays[n].present)) : u.vrbUp = false := by
    obtain ⟨hi, hb, -⟩ := (supply_eq_iff u).1 hu
    exact vrbUp_of_no_battery u (by simp [hi]) (hb ▸ hbbu)
  have hfalls : vretFalls s.sys (settleTray (commitTray s.sys)) = true := by
    obtain ⟨-, -, hp⟩ := (supply_eq_iff _).1 hsupply
    have hfit : (settleTray (commitTray s.sys)).tray.bays[s.ownSlot].present = true := (congrFun hp s.ownSlot).trans hpres
    simpa [vretFalls, vrbUp_of_normal s.sys.tray hin, hdown hsupply, State.ownSlot] using hfit
  have hafter : (settleTray (loseVret (settleTray (commitTray s.sys)))).tray.supply =
      (.battery, t.bbu, fun n => t.bays[n].present) := by
    rw [supply_settleTray, loseVret_tray, hsupply]
  rw [exec_commit_of_normal cause hin, onSupply_of_vretFalls hfalls]
  exact ⟨_, rfl, rfl, rfl, loseVret_ecc _, loseVret_retLost _, hdown hafter, ((supply_eq_iff _).1 hafter).2.1⟩

end Sys2Proof.Machine
end

section
/-! PROOFS. Valve motion (19): the output of a cam table (R509), the settling of a step that leaves the causes of full
cooling as they are, and the limits of an axis as written (R501). -/

namespace Sys2Proof.Machine

section CamTables

variable (pts : Vector (BitVec 14) 65)

/-- The f of 1,024 parts of a rise d, rounded down, stop short of d. -/
theorem tdiv_part_of_pos {d f : Int} (hd : 0 < d) (hf0 : 0 ≤ f) (hf : f < 1024) :
    0 ≤ Int.tdiv (d * f) 1024 ∧ Int.tdiv (d * f) 1024 < d := by
  have hnn : 0 ≤ d * f := Int.mul_nonneg hd.le hf0
  have hlt : d * f < d * 1024 := Int.mul_lt_mul_of_pos_left hf hd
  rw [Int.tdiv_eq_ediv_of_nonneg hnn]
  omega

/-- Truncation toward zero makes a fall the mirror of a rise. -/
theorem tdiv_part_of_neg {d f : Int} (hd : d < 0) (hf0 : 0 ≤ f) (hf : f < 1024) :
    d < Int.tdiv (d * f) 1024 ∧ Int.tdiv (d * f) 1024 ≤ 0 := by
  have h := tdiv_part_of_pos (Int.neg_pos_of_neg hd) hf0 hf
  rw [Int.neg_mul, Int.neg_tdiv] at h
  omega

/-- Between two points, where neither is negative, an interpolated value is not negative. -/
theorem interpolation_nonneg {p q f : Int} (hp : 0 ≤ p) (hq : 0 ≤ q) (hf0 : 0 ≤ f) (hf : f < 1024) :
    0 ≤ p + Int.tdiv ((q - p) * f) 1024 := by
  rcases lt_trichotomy p q with h | rfl | h
  · have := tdiv_part_of_pos (Int.sub_pos_of_lt h) hf0 hf
    omega
  · simpa using hp
  · have := tdiv_part_of_neg (Int.sub_neg_of_lt h) hf0 hf
    omega

/-- In segment i the output is the interpolated value itself: it is never below 0, where a `Nat` would cut it off. -/
theorem camOutput_of_segment {m : Nat} {i : Fin 64} (h : m / 1024 = i.val) :
    (camOutput pts m : Int) = (pts[i.val]'(by omega)).toNat +
      Int.tdiv (((pts[i.val + 1]'(by omega)).toNat - (pts[i.val]'(by omega)).toNat) * (m % 1024 : Nat)) 1024 := by
  have hi : i.val < 65 := by omega
  have hj : i.val + 1 < 65 := by omega
  simp only [camOutput, h, Vector.getElem?_eq_getElem hi, Vector.getElem?_eq_getElem hj, Option.map_some,
    Option.getD_some]
  exact Int.toNat_of_nonneg (interpolation_nonneg (by omega) (by omega) (by omega) (by omega))

end CamTables

/-- Settles O53: the step from P_i is less than the whole way to P_(i+1), in either direction. -/
theorem camOutputInterpolates : Obligations.CamOutputInterpolates := by
  intro pts m i hi p q f
  have hf0 : 0 ≤ f := by omega
  have hf : f < 1024 := by omega
  have hout : (camOutput pts m : Int) = p + Int.tdiv ((q - p) * f) 1024 := camOutput_of_segment pts hi
  refine ⟨hout, fun hpq => ?_, fun hqp => ?_⟩
  · have := tdiv_part_of_pos (Int.sub_pos_of_lt hpq) hf0 hf
    omega
  · have := tdiv_part_of_neg (Int.sub_neg_of_lt hqp) hf0 hf
    omega

section Settling

variable (k : Collector) (t : Tray) (y : Sys) (now : Nat)

/-! What a line's level leaves of a collector: the latches, and with them the reactions that apply. -/

/-- Of every source, whether it is latched and the reactions applied to its latch. -/
def Collector.latches : Vector (Bool × BitVec 5) 64 := k.src.map fun x => (x.status, x.applied)

theorem Collector.anyApplies_eq (bit : Nat) :
    k.anyApplies bit = k.latches.toList.any fun e => e.1 && e.2.toNat.testBit bit := by
  simp [Collector.anyApplies, Collector.latches]

theorem Collector.latches_set (i : SourceId) {x : Source} (h : (x.status, x.applied) = (k.src[i].status, k.src[i].applied))
    (raised : List Raise) : { k with src := k.src.set i x, raised := raised }.latches = k.latches := by
  refine Vector.ext fun j hj => ?_
  simp only [Collector.latches, Vector.getElem_map]
  by_cases hij : i.val = j
  · subst hij; simpa using h
  · simp [hij]

@[simp] theorem Collector.latches_assert (n : Nat) (o : Owner) : (k.assert n o now).latches = k.latches := by
  unfold Collector.assert
  split
  next i _ =>
    extract_lets x
    split
    · rfl
    · exact k.latches_set i (x := { x with line := true, lastAct := now }) rfl _
  next => rfl

@[simp] theorem Collector.latches_lower (n : Nat) : (k.lower n now).latches = k.latches := by
  unfold Collector.lower
  split
  next i _ =>
    extract_lets x
    split
    · exact k.latches_set i (x := { x with line := false, lastAct := now }) rfl _
    · rfl
  next => rfl

/-! Full cooling as a step settles. -/

/-- What decides whether the axes are sent anywhere as a step settles: the watchdog, the latches of the tray's collector, the
TMC's request, and whether full cooling is in force (19 R514). -/
def Tray.cooling : (Bool × Vector (Bool × BitVec 5) 64 × Bool) × Bool :=
  ((t.card.expired, t.fc.latches, t.tmcReq), t.full)

theorem fullWanted_eq_full_congr {t u : Tray} (h : u.cooling = t.cooling) :
    u.fullWanted = u.full ↔ t.fullWanted = t.full := by
  simp only [Tray.cooling, Prod.mk.injEq] at h
  obtain ⟨⟨hcard, hfc, hreq⟩, hfull⟩ := h
  simp only [Tray.fullWanted, Tray.fullCause, Collector.anyApplies_eq, hcard, hfc, hreq, hfull]

theorem settleFull_of_wanted (h : t.fullWanted = t.full) : settleFull now t = t := by
  simp [settleFull, h]

theorem settleErr_keeps : ((settleErr y).tray.cooling, (settleErr y).tray.axes) = (y.tray.cooling, y.tray.axes) := by
  simp only [settleErr, Sys.onTray_tray]
  split <;> simp [Tray.cooling, Tray.assert, Tray.lower]

/-- Settling sends no axis anywhere while full cooling is in force just where it is wanted: ERR_N and PWR_EN, which come
first, change neither. -/
theorem settleTray_axes (h : y.tray.fullWanted = y.tray.full) : (settleTray y).tray.axes = y.tray.axes := by
  obtain ⟨hcool, haxes⟩ := Prod.mk.inj (settleErr_keeps y)
  have hwant : (settlePwrEn y.now (settleErr y).tray).fullWanted = (settlePwrEn y.now (settleErr y).tray).full := by
    rw [fullWanted_eq_full_congr (t := y.tray)]
    · exact h
    · rw [settlePwrEn_eq]; exact hcool
  calc (settleTray y).tray.axes
    _ = (settleDrives y.now (settleFull y.now (settlePwrEn y.now (settleErr y).tray))).axes := rfl
    _ = (settlePwrEn y.now (settleErr y).tray).axes := by rw [settleDrives_eq, settleFull_of_wanted _ _ hwant]
    _ = y.tray.axes := by rw [settlePwrEn_eq, haxes]

end Settling

section Limits

variable (n : AxisId) (v free : Nat) (x : Axis)

/-! A write of each limit (19 R501). -/

/-- The time at which a move ends, once a limit has been written: during a move the formulas no longer give one. -/
def Axis.dueAfterWrite : Option Nat := if x.inMotion then none else x.due

theorem limitWrite_speed : limitWrite .speed v free x =
    { x with due := x.dueAfterWrite, speed := clampTo 100 50000 (v % 2 ^ 16) } := by
  cases h : x.inMotion <;> simp [limitWrite, Axis.dueAfterWrite, h]

theorem limitWrite_accel : limitWrite .accel v free x =
    { x with due := x.dueAfterWrite, accel := clampTo 100 1000000 (v % 2 ^ 20) } := by
  cases h : x.inMotion <;> simp [limitWrite, Axis.dueAfterWrite, h]

theorem inMotion_withDue (d : Option Nat) : { x with due := d }.inMotion = x.inMotion := rfl

theorem limitWrite_decel : limitWrite .decel v free x =
    { x with due := x.dueAfterWrite, decel := clampTo 100 1000000 (v % 2 ^ 20),
             decelRaised := x.decelRaised ||
               (x.inMotion && clampTo 100 1000000 (v % 2 ^ 20) < x.decel && Config.freeBool free) } := by
  cases h : x.inMotion <;> simp [limitWrite, Axis.dueAfterWrite, inMotion_withDue, h]

theorem limitWrite_jerk : limitWrite .jerk v free x = { x with due := x.dueAfterWrite, jerk := max 1 (v % 2 ^ 16) } := by
  cases h : x.inMotion <;> simp [limitWrite, Axis.dueAfterWrite, h]

theorem limitWrite_profile : limitWrite .profile v free x = { x with due := x.dueAfterWrite, sCurve := v.testBit 0 } := by
  cases h : x.inMotion <;> simp [limitWrite, Axis.dueAfterWrite, h, Nat.testBit_zero, beq_eq_decide]

/-- A limit does not say where the axis stands, where it goes, nor what it does. -/
theorem limitWrite_keeps_motion (reg : LimitReg) :
    (limitWrite reg v free x).pos = x.pos ∧ (limitWrite reg v free x).target = x.target ∧
      (limitWrite reg v free x).st = x.st := by
  cases reg with
  | speed => rw [limitWrite_speed]; exact ⟨rfl, rfl, rfl⟩
  | accel => rw [limitWrite_accel]; exact ⟨rfl, rfl, rfl⟩
  | decel => rw [limitWrite_decel]; exact ⟨rfl, rfl, rfl⟩
  | jerk => rw [limitWrite_jerk]; exact ⟨rfl, rfl, rfl⟩
  | profile => rw [limitWrite_profile]; exact ⟨rfl, rfl, rfl⟩

/-! The command. -/

/-- PROFILE_LIMIT_WRITE writes the limit of its axis, and neither another axis nor the chip sees it. -/
theorem gives_profileLimitWrite {s : State} (hw : s.sys.tray.fullWanted = s.sys.tray.full) (reg : LimitReg) (w : Word)
    {P : Axis → Prop} (hP : P (limitWrite reg w.toNat s.sys.free s.sys.tray.axes[n])) :
    Gives (exec (.profileLimitWrite n reg w) s) fun u =>
      keepsMemory s u ∧ u.sys.chip = s.sys.chip ∧ u.sys.out = s.sys.out ∧
      (∀ m : AxisId, m ≠ n → u.sys.tray.axes[m] = s.sys.tray.axes[m]) ∧
      u.sys.tray.axes[n].pos = s.sys.tray.axes[n].pos ∧ u.sys.tray.axes[n].target = s.sys.tray.axes[n].target ∧
      u.sys.tray.axes[n].st = s.sys.tray.axes[n].st ∧ P u.sys.tray.axes[n] := by
  have haxes := settleTray_axes (s.sys.fresh.2.onTray (Tray.onAxis n (limitWrite reg w.toNat s.sys.free))) hw
  obtain ⟨hpos, htarget, hst⟩ := limitWrite_keeps_motion w.toNat s.sys.free s.sys.tray.axes[n] reg
  refine ⟨_, rfl, ⟨rfl, rfl⟩, rfl, rfl, ?_⟩
  simp only [Sys.fresh_fst, haxes, Sys.onTray_tray, Sys.fresh_tray, Tray.onAxis_same]
  exact ⟨fun m hm => Tray.onAxis_other _ hm _, hpos, htarget, hst, hP⟩

end Limits

/-- Settles O54: each register by the equation of its write; full cooling, in force just where it is wanted, moves no axis as
the step settles. -/
theorem limitsAreStoredClamped : Obligations.LimitsAreStoredClamped := by
  intro s n v t x gives hw
  have hwrite (reg : LimitReg) (P : Axis → Prop) : P (limitWrite reg v.toNat s.sys.free x) → gives reg P :=
    gives_profileLimitWrite n hw reg v
  clear_value gives
  refine ⟨hwrite .speed _ ?_, hwrite .accel _ ?_, hwrite .decel _ ?_, hwrite .jerk _ ?_, hwrite .profile _ ?_⟩
  · rw [limitWrite_speed]; exact ⟨rfl, rfl⟩
  · rw [limitWrite_accel]; exact ⟨rfl, rfl⟩
  · rw [limitWrite_decel]; exact ⟨rfl, rfl, fun hrest => by simp [hrest]⟩
  · rw [limitWrite_jerk]; exact ⟨rfl, rfl⟩
  · rw [limitWrite_profile]; exact ⟨rfl, rfl⟩

end Sys2Proof.Machine
end

section
/-! PROOFS. The operations whose only effect is one result: predicates, A-register arithmetic, compares and the A-register
moves (05 sections 3 and 4). -/

namespace Sys2Proof.Machine

section OneResult

variable {s : State} {v : TileId} {p : Fin 320} {pred : PReg}

/-- An operation that lands one value, made of the tile's registers. -/
theorem issueResult_lands {k : LatClass} {slot : Nat} {d : RegName} {reads : List RegName} {result : Tile → Dest}
    (h : Issues s v p pred [d]) (hr : ∀ t u, sameTile t u → result u = result t) :
    Flies (onChip (issueResult v slot pred k true [d] reads fun t => [result t]) s) s p
      [(latency k false, result (s.sys.chip.tile p))] :=
  issueResult_flies s v p slot pred k [d] reads (fun t => [result t]) h fun t u e => congrArg (fun x => [x]) (hr t u e)

theorem predOp_flies (f : Bool → Bool → Bool) {d : PReg} (a b : PReg) (h : Issues s v p pred [.pd d]) :
    Flies (predOp f v pred d a b s) s p [(1, .pd d (f (s.sys.chip.tile p).pd[a] (s.sys.chip.tile p).pd[b]))] :=
  issueResult_lands (k := .pl) h fun _ _ e => by rw [e]

theorem bValue_same {t u : Tile} (e : sameTile t u) (b : BOperand) : bValue u b = bValue t b := by
  cases b with
  | reg r => simp only [bValue]; rw [e]
  | imm x => rfl

theorem aluOp_flies (k : LatClass) (f : Word → Word → Word) {d : AReg} (a : AReg) (b : BOperand)
    (h : Issues s v p pred [.a d]) :
    Flies (aluOp k f v pred d a b s) s p
      [(latency k false, .a d (f (s.sys.chip.tile p).a[a] (bValue (s.sys.chip.tile p) b)))] :=
  issueResult_lands h fun _ _ e => by rw [bValue_same e, e]

theorem cmpOp_flies (f : Word → Word → Bool) {d : PReg} (a : AReg) (b : BOperand) (h : Issues s v p pred [.pd d]) :
    Flies (cmpOp f v pred d a b s) s p [(1, .pd d (f (s.sys.chip.tile p).a[a] (bValue (s.sys.chip.tile p) b)))] :=
  issueResult_lands (k := .pc) h fun _ _ e => by rw [bValue_same e, e]

/-- The signed minimum, whichever of two equal operands is named. -/
theorem signedMin_eq (x y : Word) : (if x.toInt ≤ y.toInt then x else y) = if y.toInt < x.toInt then y else x := by
  simp only [← not_lt, ite_not]

theorem signedMax_eq (x y : Word) : (if x.toInt ≤ y.toInt then y else x) = if x.toInt < y.toInt then y else x := by
  rcases lt_trichotomy x.toInt y.toInt with h | h | h
  · rw [if_pos h.le, if_pos h]
  · rw [if_pos h.le, if_neg h.not_lt, BitVec.eq_of_toInt_eq h]
  · rw [if_neg h.not_ge, if_neg h.asymm]

end OneResult

/-- Settles O7: each operation is a predicate operation, an A-register operation, a compare or a move, and lands what its
function makes of the registers. -/
theorem scalarOpsLand : Obligations.ScalarOpsLand := by
  refine ⟨fun s v p pred d a b h => ?_, fun s v p pred d a b h => ?_, fun s v p pred d a b h => ?_, fun s v p pred d h => ?_⟩
  · simp only [exec_pand, exec_por, exec_pxor, exec_pandn]
    exact ⟨predOp_flies _ a b h, predOp_flies _ a b h, predOp_flies _ a b h, predOp_flies _ a b h⟩
  · have alu (k : LatClass) (f : Word → Word → Word) := aluOp_flies k f a b h
    simp only [exec_aadd, exec_asub, exec_amul, exec_aand, exec_aor, exec_axor, exec_ashl, exec_ashr, exec_asra, exec_amin,
      exec_amax, ← signedMin_eq, ← signedMax_eq]
    exact ⟨alu .al _, alu .al _, alu .am _, alu .al _, alu .al _, alu .al _, alu .al _, alu .al _, alu .al _, alu .al _,
      alu .al _⟩
  · have cmp (f : Word → Word → Bool) := cmpOp_flies f a b h
    simp only [exec_cmpeq, exec_cmpne, exec_cmplt, exec_cmple, exec_cmpltu, exec_cmpleu]
    exact ⟨cmp _, cmp _, cmp _, cmp _, cmp _, cmp _⟩
  · simp only [exec_amovi, exec_movka, exec_aget]
    exact ⟨fun imm => issueResult_lands (k := .al) h fun _ _ _ => rfl,
      fun k => issueResult_lands (k := .al) h fun _ _ e => by rw [e],
      fun vs w => issueResult_lands (k := .ag) h fun _ _ e => by rw [e]⟩

end Sys2Proof.Machine
end

section
/-! PROOFS. Loads, stores, weight loads and accumulator moves (05 sections 4 and 5; 06 sections 3 and 4). -/

namespace Sys2Proof.Machine

section Accesses

variable {s : State} {v : TileId} {p : Fin 320} {pred : PReg}

/-! An address, and the register update that goes with it, are made of the tile's registers. -/

theorem lineEA_same (a : LineAddr) (t u : Tile) (e : sameTile t u) : lineEA u a = lineEA t a := by rw [e]; rfl
theorem lineInc_same (a : LineAddr) (t u : Tile) (e : sameTile t u) : lineInc u a = lineInc t a := by rw [e]; rfl
theorem bankEA_same (a : BankAddr) (t u : Tile) (e : sameTile t u) : bankEA u a = bankEA t a := by rw [e]; rfl
theorem bankInc_same (a : BankAddr) (t u : Tile) (e : sameTile t u) : bankInc u a = bankInc t a := by rw [e]; rfl

theorem latency_ld (far : Bool) : latency .ld far = if far then 5 else 4 := by cases far <;> rfl
theorem latency_wl (far : Bool) : latency .wl far = if far then 6 else 5 := by cases far <;> rfl

/-- The line that an operation of tile p reads: as memory holds it where its port fits, zeros otherwise. -/
def readableLine (s : State) (p : Fin 320) (off : Nat) : Line :=
  if portFits (s.sys.chip.useNow p) (subBank off) false then Memory.line s.mem (tileBase p.val + off) else Line.zero

theorem loadOp_flies (r : VReg) (aa : AReg) {dests : List RegName} {ea : Tile → Nat} {inc : Tile → List Dest}
    (he : ∀ t u, sameTile t u → ea u = ea t) (hi : ∀ t u, sameTile t u → inc u = inc t)
    (h : Issues s v p pred (.v r :: dests)) :
    Flies (loadOp v pred r aa dests ea inc s) s p
      ((if isFar (ea (s.sys.chip.tile p)) then 5 else 4, .v r [(0, (readableLine s p (ea (s.sys.chip.tile p))).bytes)]) ::
        (inc (s.sys.chip.tile p)).map fun d => (1, d)) := by
  have hread := reads_flies s v p 1 pred .ld _ [.a aa] ea inc (fun l => .v r [(0, l.bytes)]) h he hi
  rwa [latency_ld] at hread

theorem weightLoad_flies (wb : Fin 2) (aa : AReg) {dests : List RegName} {ea : Tile → Nat} {inc : Tile → List Dest}
    {legal : Bool} (dest : Line → Dest) (he : ∀ t u, sameTile t u → ea u = ea t)
    (hi : ∀ t u, sameTile t u → inc u = inc t) (h : Issues s v p pred (.w wb :: dests)) (hl : legal = true) :
    Flies (weightLoad v pred wb aa dests ea inc legal dest s) s p
      ((if isFar (ea (s.sys.chip.tile p)) then 6 else 5, dest (readableLine s p (ea (s.sys.chip.tile p)))) ::
        (inc (s.sys.chip.tile p)).map fun d => (1, d)) := by
  subst hl
  have hread := reads_flies s v p 2 pred .wl _ [.a aa] ea inc dest h he hi
  rwa [latency_wl] at hread

end Accesses

/-- Settles O8: a load is a read of a line, a store a claim of a port, each with its address and its INC. -/
theorem loadsAndStoresLand : Obligations.LoadsAndStoresLand := by
  refine ⟨fun s v p pred r => ⟨fun a h => ?_, fun a h => ?_⟩,
    fun s v p pred r => ⟨fun a h => ?_, fun a am h => ?_, fun a h => ?_⟩⟩
  · rw [exec_ld]
    exact loadOp_flies r a.aa (lineEA_same a) (lineInc_same a) h
  · rw [exec_ldb]
    exact loadOp_flies r a.aa (bankEA_same a) (bankInc_same a) h
  · rw [exec_st]
    exact storeOp_flies s v p pred r _ _ _ _ _ h (lineEA_same a) (lineInc_same a) fun _ _ _ => rfl
  · rw [exec_stm]
    exact storeOp_flies s v p pred r _ _ _ _ _ h (lineEA_same a) (lineInc_same a) fun _ _ e => by rw [e]
  · rw [exec_stb]
    exact storeOp_flies s v p pred r _ _ _ _ _ h (bankEA_same a) (bankInc_same a) fun _ _ _ => rfl

/-- Settles O9: a weight load is a read of a line, the rest are operations with one result. -/
theorem weightAndAccumulatorOpsLand : Obligations.WeightAndAccumulatorOpsLand := by
  refine ⟨fun s v p pred wb => ⟨fun a fmt g h hl => ?_, fun a fmt g h hl => ?_, fun a fmt plane k h hk hl => ?_,
    fun vs part h => ?_⟩, fun s v p pred ma x half => ⟨fun h => ?_, fun h => ?_, fun h => ?_⟩⟩
  · rw [exec_wld]
    exact weightLoad_flies wb a.aa _ (lineEA_same a) (lineInc_same a) h hl
  · rw [exec_wldb]
    exact weightLoad_flies wb a.aa _ (bankEA_same a) (bankInc_same a) h hl
  · have hplane : (finOf 3 plane.toNat).getD 0 = k := by simp [hk, finOf]
    rw [exec_mxwld, execMxwld, hplane]
    exact weightLoad_flies wb a.aa _ (lineEA_same a) (lineInc_same a) h hl
  · rw [exec_mxscl]
    exact issueResult_lands (k := .mv) h fun _ _ e => by rw [e]
  · rw [exec_mamv]
    exact issueResult_lands (k := .mv) h fun _ _ e => by rw [e]
  · rw [exec_mald]
    exact issueResult_lands (k := .mv) h fun _ _ e => by rw [e]
  · rw [exec_maclr]
    exact issueResult_lands (k := .mv) h fun _ _ _ => rfl

end Sys2Proof.Machine
end

section
/-! PROOFS. The V slot (05 section 6; 06 section 5): every operation writes pieces of Vd made of the tile's registers. -/

namespace Sys2Proof.Machine

section Vector

variable {s : State} {v : TileId} {p : Fin 320} {pred : PReg}

/-- A legal V-slot operation lands its pieces, and reports a condition of R137. -/
theorem vecOp_lands {k : LatClass} {legal : Bool} {vd : VReg} {reads : List RegName}
    {f : VCtx → Tile → List (Nat × List Byte) × Bool} (h : Issues s v p pred [.v vd]) (hl : legal = true)
    (hf : ∀ x t u, sameTile t u → f x u = f x t) :
    let y := f ⟨s.sys.chip.time.seed, s.sys.chip.cmp.pcc, v.val⟩ (s.sys.chip.tile p)
    Flies (vecOp v pred k legal vd reads f s) s p [(latency k false, .v vd y.1)] ∧
      (y.2 → ∃ u, vecOp v pred k legal vd reads f s = .next u ∧ ⟨8, .tile v.val⟩ ∈ u.sys.chip.fc.raised) := by
  subst hl
  exact vecOp_flies s v p pred k vd reads f h hf

/-- As `vecOp_lands`, for an operation of which only the result matters. -/
theorem vecOp_result {k : LatClass} {legal : Bool} {vd : VReg} {reads : List RegName}
    {f : VCtx → Tile → List (Nat × List Byte) × Bool} (h : Issues s v p pred [.v vd]) (hl : legal = true)
    (hf : ∀ x t u, sameTile t u → f x u = f x t) :
    Flies (vecOp v pred k legal vd reads f s) s p
      [(latency k false, .v vd (f ⟨s.sys.chip.time.seed, s.sys.chip.cmp.pcc, v.val⟩ (s.sys.chip.tile p)).1)] :=
  (vecOp_lands h hl hf).1

/-- A transcendental of an accepted format works element by element. -/
theorem transOp_lands (op : Config.Trans) {vd : VReg} (va : VReg) {fmt : FmtCode} {f : FFmt} (h : Issues s v p pred [.v vd])
    (hl : transFmt fmt = true) (hfmt : fmtOf fmt = some (.flt f)) :
    let y := elemOp1 f.width (fun _ x => transResult op fmt f x) (s.sys.chip.tile p).v[va]
    Flies (transOp op v pred vd va fmt s) s p [(8, .v vd y.1)] ∧
      (y.2 → ∃ u, transOp op v pred vd va fmt s = .next u ∧ ⟨8, .tile v.val⟩ ∈ u.sys.chip.fc.raised) := by
  rw [transOp]
  simp only [hfmt]
  exact vecOp_lands (k := .vt) h hl fun _ _ _ e => by rw [e]

end Vector

/-! Table 05-13, one element. -/

section Transcendental

variable {op : Config.Trans} {fmt : FmtCode} {f : FFmt} {x m : Nat} {neg : Bool} {e : Int}

/-- A finite operand gives its table's special case, or a code within the table's ulps. -/
theorem transResult_fin (h : f.decode x = .fin neg m e)
    (hspecial : m = 0 ∧ op ≠ .log ∧ op ≠ .rcp ∧ op ≠ .rsq ∨ m ≠ 0 ∧ (neg = true → op ≠ .log ∧ op ≠ .rsq)) :
    ∃ n, transResult op fmt f x =
      (codeBetween f (transRange op f neg m e).1 (transRange op f neg m e).2 n, false) := by
  refine ⟨Config.transBits op fmt.toNat x, ?_⟩
  rcases hspecial with ⟨rfl, hlog, hrcp, hrsq⟩ | ⟨hm, hneg⟩
  · cases op <;> simp_all [transResult]
  · cases neg with
    | false => simp [transResult, h, hm]
    | true => cases op <;> simp_all [transResult]

end Transcendental

/-- Settles O12: each operation is an element operation of its class. -/
theorem vectorArithmeticLands : Obligations.VectorArithmeticLands := by
  intro s v p pred vd va vb vc fmt rnd sat h hfmt hrnd
  have hl : (arithFmt fmt && rndSatLegal fmt rnd sat) = true := by rw [hfmt, hrnd]; rfl
  simp only [exec_vadd, exec_vsub, exec_vmul, exec_vfma]
  exact ⟨vecOp_lands (k := .vs) h hl fun _ _ _ e => by rw [e], vecOp_lands (k := .vs) h hl fun _ _ _ e => by rw [e],
    vecOp_lands (k := .vf) h hl fun _ _ _ e => by rw [e], vecOp_lands (k := .vf) h hl fun _ _ _ e => by rw [e]⟩

/-- Settles O13: compares, sign operations, bitwise operations, shifts and VSEL are element operations of class VS. -/
theorem vectorComparesAndLogicLand : Obligations.VectorComparesAndLogicLand := by
  refine ⟨fun s v p pred vd va vb fmt sat h hl => ?_, fun s v p pred vd va vb fmt h hl => ?_,
    fun s v p pred vd va vb vc fmt h hl => ?_⟩
  · have pair (g : Fmt → Nat → Nat → Nat) := vecOp_result (k := .vs) (reads := [.v va, .v vb])
      (f := fun _ t => exact2 g fmt t.v[va] t.v[vb]) h hl fun _ _ _ e => by rw [e]
    simp only [exec_vmin, exec_vmax, exec_vcmpeq, exec_vcmplt, exec_vcmple, exec_vabs, exec_vneg]
    refine ⟨pair _, pair _, pair _, pair _, pair _, fun hsat => ?_⟩
    have hs : (arithFmt fmt && rndSatLegal fmt 0 sat) = true := by rw [hl, hsat]; rfl
    exact ⟨vecOp_result (k := .vs) h hs fun _ _ _ e => by rw [e], vecOp_result (k := .vs) h hs fun _ _ _ e => by rw [e]⟩
  · have pair (g : Fmt → Nat → Nat → Nat) := vecOp_result (k := .vs) (reads := [.v va, .v vb])
      (f := fun _ t => exact2 g fmt t.v[va] t.v[vb]) h hl fun _ _ _ e => by rw [e]
    simp only [exec_vand, exec_vor, exec_vxor, exec_vshl, exec_vshr, exec_vsra]
    exact ⟨pair _, pair _, pair _, pair _, pair _, pair _⟩
  · rw [exec_vsel, execVsel]
    simp only [beq_iff_eq]
    exact vecOp_result (k := .vs) h hl fun _ _ _ e => by rw [e]

/-- Settles O14: VCVT and VMXQ are operations of class VC. -/
theorem conversionsLand : Obligations.ConversionsLand := by
  intro s v p pred vd va fmt fmt2 sp dp rnd h
  refine ⟨fun f g hl hf hg => ?_, fun f g hl hf hg => ?_⟩
  · rw [exec_vcvt, execVcvt]
    simp only [hf, hg]
    exact vecOp_result (k := .vc) h hl fun _ _ _ e => by rw [e]
  · rw [exec_vmxq, execVmxq]
    simp only [hf, hg]
    exact vecOp_result (k := .vc) h hl fun _ _ _ e => by rw [e]

/-- Settles O15: reductions are operations of class VR, the transcendentals of class VT; Table 05-13 is the case analysis of
`transResult`. -/
theorem reductionsAndTranscendentalsLand : Obligations.ReductionsAndTranscendentalsLand := by
  refine ⟨⟨fun s v p pred vd va fmt h hl => ⟨fun w hw => ?_, fun f hf => ?_, ?_, ?_, fun f hf => ?_⟩,
    fun s v p pred d va h => ?_⟩, fun s v p pred vd va fmt f h hl hf => ?_⟩
  · rw [exec_vrsum, execVrsum, List.sum_eq_foldl, List.foldl_map]
    simp only [hw]
    exact vecOp_result (k := .vr) h hl fun _ _ _ e => by rw [e]
  · rw [exec_vrsum, execVrsum]
    simp only [hf]
    exact vecOp_result (k := .vr) h hl fun _ _ _ e => by rw [e]
  · rw [exec_vrmax]
    exact vecOp_result (k := .vr) h hl fun _ _ _ e => by rw [e]
  · rw [exec_vrmin]
    exact vecOp_result (k := .vr) h hl fun _ _ _ e => by rw [e]
  · rw [exec_vrargmax, execVrargmax]
    simp only [hf]
    exact vecOp_result (k := .vr) h hl fun _ _ _ e => by rw [e]
  · rw [exec_vany]
    exact issueResult_lands (k := .vr) h fun _ _ e => by rw [e]
  · simp only [exec_vexp, exec_vlog, exec_vrcp, exec_vrsq, exec_vtanh, exec_vsig]
    have lands (op : Config.Trans) := transOp_lands op va h hl hf
    refine ⟨lands _, lands _, lands _, lands _, lands _, lands _, fun x => ⟨fun hx op => ?_, fun hx => ?_, fun hx => ?_,
      fun neg m e hx => ⟨?_, ?_, ?_, fun hm => ?_, fun hm => ?_, fun hm hneg => ?_, fun hm hneg => ?_⟩⟩⟩
    · simp [transResult, hx]
    · simp [transResult, hx, FFmt.signBit]
    · simp [transResult, hx]
    · exact transResult_fin hx (by by_cases hm : m = 0 <;> simp [hm])
    · exact transResult_fin hx (by by_cases hm : m = 0 <;> simp [hm])
    · exact transResult_fin hx (by by_cases hm : m = 0 <;> simp [hm])
    · simp [transResult, hx, hm]
    · exact transResult_fin hx (by simp [hm])
    · simp [transResult, hx, hm, hneg]
    · exact ⟨transResult_fin hx (by simp [hm, hneg]), transResult_fin hx (by simp [hm, hneg])⟩

/-- Settles O16: VMOV is of class VS, the other moves of class VP. -/
theorem vectorMovesLand : Obligations.VectorMovesLand := by
  intro s v p pred vd h
  refine ⟨fun va => ?_, fun aa fmt hl => ?_, fun imm fmt hl => ?_, fun va vc => ?_⟩
  · rw [exec_vmov]
    exact vecOp_result (k := .vs) h rfl fun _ _ _ e => by rw [e]
  · rw [exec_vbca]
    exact vecOp_result (k := .vp) h hl fun _ _ _ e => by rw [e]
  · rw [exec_vimm]
    exact vecOp_result (k := .vp) h hl fun _ _ _ _ => rfl
  · rw [exec_vpermb]
    exact vecOp_result (k := .vp) h rfl fun _ _ _ e => by rw [e]

end Sys2Proof.Machine
end

section
/-! PROOFS. An operation whose predicate reads 0 (04 R98, 05 R129). -/

namespace Sys2Proof.Machine

section Idle

variable {s : State} {v : TileId} {p : Fin 320} {pred : PReg}

/-- A legal operation whose predicate reads 0 only issues. -/
theorem issue_idle {slot : Nat} {k : LatClass} {legal : Bool} {dests reads : List RegName} {body : Fin 320 → Chip → Chip}
    (hp : s.sys.chip.canIssue v = some p) (hvoid : (s.sys.chip.useNow p).void = false)
    (hpd : (s.sys.chip.tile p).pd[pred] = false) (hl : legal = true)
    (hd : duplicateDest (s.sys.chip.useNow p).named dests = false) :
    issue v slot pred k legal dests reads body s.sys.chip =
      noteEvents v p s.sys.chip (issued v p slot pred k dests reads s.sys.chip) := by
  have hsame := issued_tile v p slot pred k dests reads s.sys.chip
  have hread : ((issued v p slot pred k dests reads s.sys.chip).tile p).pd[pred] = false := by rw [hsame]; exact hpd
  simp [issue, hp, hvoid, hl, hd, hread]

/-- Such an operation puts nothing in flight and changes nothing else of its tile. -/
theorem issue_idle_flies {slot : Nat} {k : LatClass} {legal : Bool} {dests reads : List RegName}
    {body : Fin 320 → Chip → Chip} (hp : s.sys.chip.canIssue v = some p) (hvoid : (s.sys.chip.useNow p).void = false)
    (hpd : (s.sys.chip.tile p).pd[pred] = false) (hl : legal = true)
    (hd : duplicateDest (s.sys.chip.useNow p).named dests = false) :
    Flies (.next { s with sys := { s.sys with chip := issue v slot pred k legal dests reads body s.sys.chip } }) s p [] := by
  rw [issue_idle hp hvoid hpd hl hd]
  obtain ⟨hstep, hflight⟩ := issued_spec v p slot pred k dests reads s.sys.chip
  exact flies_noted hstep (by simpa using hflight)

end Idle

/-- Settles O10: every operation of the five slots issues by `issue`. -/
theorem unpredicatedOpsDoNothing : Obligations.UnpredicatedOpsDoNothing := by
  intro s v p pred hp hvoid hpd
  have off {slot : Nat} {k : LatClass} {legal : Bool} {ds reads : List RegName} {body : Fin 320 → Chip → Chip}
      (hl : legal = true) (hd : duplicateDest (s.sys.chip.useNow p).named ds = false) :=
    issue_idle_flies (slot := slot) (k := k) (reads := reads) (body := body) hp hvoid hpd hl hd
  have on {a b : Bool} (ha : a = true) (hb : b = true) : (a && b) = true := by rw [ha, hb]; rfl
  simp only [exec_pand, exec_por, exec_pxor, exec_pandn, exec_br, exec_loop, exec_endProgram, exec_waitGtc, exec_ramp, exec_ld,
    exec_st, exec_ldb, exec_stb, exec_stm, exec_aadd, exec_asub, exec_amul, exec_aand, exec_aor, exec_axor, exec_ashl,
    exec_ashr, exec_asra, exec_amin, exec_amax, exec_cmpeq, exec_cmpne, exec_cmplt, exec_cmple, exec_cmpltu, exec_cmpleu,
    exec_amovi, exec_movka, exec_aget, exec_maclr, exec_mamv, exec_mald, exec_mxscl, exec_wld, exec_wldb, exec_mxwld,
    exec_mmul, exec_mxmul, exec_vadd, exec_vsub, exec_vmul, exec_vfma, exec_vmin, exec_vmax, exec_vcmpeq, exec_vcmplt,
    exec_vcmple, exec_vrsum, exec_vrmax, exec_vrmin, exec_vrargmax, exec_vabs, exec_vneg, exec_vand, exec_vor, exec_vxor,
    exec_vshl, exec_vshr, exec_vsra, exec_vsel, exec_vcvt, exec_vmxq, exec_vany, exec_vexp, exec_vlog, exec_vrcp,
    exec_vrsq, exec_vtanh, exec_vsig, exec_vmov, exec_vpermb, exec_vbca, exec_vimm, exec_msend, exec_fsend, exec_hwrite,
    exec_sreq, exec_recv]
  refine ⟨fun _ _ _ => ⟨off rfl, off rfl, off rfl, off rfl⟩, fun _ _ h => off (decide_eq_true h), fun _ _ _ => off rfl,
    off rfl, fun _ => off rfl, fun _ _ _ => off rfl, fun _ _ => ⟨off rfl, off rfl⟩, fun _ _ => ⟨off rfl, off rfl⟩,
    fun _ _ _ => off rfl,
    fun _ _ _ => ⟨off rfl, off rfl, off rfl, off rfl, off rfl, off rfl, off rfl, off rfl, off rfl, off rfl, off rfl⟩,
    fun _ _ _ => ⟨off rfl, off rfl, off rfl, off rfl, off rfl, off rfl⟩, fun _ _ => off rfl, fun _ _ => off rfl,
    fun _ _ _ => off rfl, fun _ => off rfl, fun _ _ _ => off rfl, fun _ _ _ => off rfl, fun _ _ _ => off rfl,
    fun _ _ _ _ _ h => ⟨off h, off h⟩, fun _ _ _ _ h => off h, fun _ _ _ _ _ _ h => off h, fun _ _ _ _ _ _ h => off h,
    fun _ _ _ _ _ _ _ h h' => ⟨off (on h h'), off (on h h'), off (on h h'), off (on h h')⟩,
    fun _ _ _ _ _ h => ⟨off h, off h, off h, off h, off h, off h, off h, off h, off h,
      fun h' => ⟨off (on h h'), off (on h h')⟩⟩,
    fun _ _ _ _ h => ⟨off h, off h, off h, off h, off h, off h⟩, fun _ _ _ _ _ h => off h, fun _ _ _ _ _ _ _ h => off h,
    fun _ _ _ _ _ _ _ h => off h, fun _ _ => off rfl, fun _ _ _ h => ⟨off h, off h, off h, off h, off h, off h⟩,
    fun _ _ _ => ⟨off rfl, off rfl⟩, fun _ _ _ h => off h, fun _ _ _ h => off h, fun _ _ _ _ h => off (decide_eq_true h),
    fun _ _ _ _ _ h => off ?_, fun _ _ _ _ _ h h' => off ?_, fun _ _ _ => off rfl,
    fun cls ch h => ⟨fun _ => off ?_, fun _ => off ?_⟩⟩
  · rcases h with rfl | rfl | ⟨rfl, rfl⟩ <;> simp
  · rcases h' with rfl | rfl <;> simp [h]
  · rcases h with rfl | h <;> simp [*]
  · rcases h with rfl | h <;> simp [*]

end Sys2Proof.Machine
end

section
/-! PROOFS. Matrix multiplies (05 R147, R148; 06 R165, R166; 07 R198). -/

namespace Sys2Proof.Machine

section Multiply

variable {s : State} {v : TileId} {p : Fin 320} {pred : PReg} {slot : Nat} {k : LatClass} {dests reads : List RegName}
  {body : Fin 320 → Chip → Chip}

/-- An operation whose effect, on the chip in which it has issued, is a step of its tile that puts results in flight. -/
theorem issue_flies {ds : List (Nat × Dest)} (h : Issues s v p pred dests)
    (hb : ∀ d, d = issued v p slot pred k dests reads s.sys.chip → TileStep p d (body p d) ∧
      ((body p d).tile p).flight = (d.tile p).flight ++ ds.map fun x => ⟨d.cmp.pcc, d.cmp.pcc + x.1, x.2⟩) :
    Flies (onChip (issue v slot pred k true dests reads body) s) s p ds := by
  obtain ⟨hstep, hflight⟩ := issued_spec v p slot pred k dests reads s.sys.chip
  obtain ⟨hbody, hbodyFlight⟩ := hb _ rfl
  rw [onChip_next, issue_runs s v p slot pred k dests reads body h]
  refine flies_noted (hstep.trans hbody) ?_
  rw [hbodyFlight, hflight, hstep.pcc]

/-- An operation that only raises a source of its tile. -/
theorem issue_raises (n : SourceId) (h : Issues s v p pred dests)
    (hb : ∀ d, d = issued v p slot pred k dests reads s.sys.chip → body p d = d.raise n.val (.tile v.val)) :
    let r := onChip (issue v slot pred k true dests reads body) s
    Flies r s p [] ∧ ∃ u, r = .next u ∧ ⟨n, .tile v.val⟩ ∈ u.sys.chip.fc.raised := by
  refine ⟨issue_flies h fun d hd => ?_, _, rfl, ?_⟩
  · obtain ⟨hstep, -⟩ := tileStep_raise p n.val (.tile v.val) d
    rw [hb d hd]
    exact ⟨hstep, by simp [Chip.tile]⟩
  · show _ ∈ (issue v slot pred k true dests reads body s.sys.chip).fc.raised
    rw [issue_runs s v p slot pred k dests reads body h, hb _ rfl, noteEvents_fc]
    simp [Chip.raise, Collector.raise, finOf]

end Multiply

theorem mmulResult_same {t u : Tile} (e : sameTile t u) (wb : Fin 2) (ma : MReg) (vs : VReg) (seg : Nat) (fmt : FmtCode)
    (zero : Bool) : mmulResult u wb ma vs seg fmt zero = mmulResult t wb ma vs seg fmt zero := by
  rw [e]; rfl

theorem fmtWidth_of_fmtOf {fmt : FmtCode} {f : Fmt} (h : fmtOf fmt = some f) : fmtWidth fmt = f.width := by
  simp [fmtWidth, h]

theorem foldl_add_eq_sum {α : Type} (f : α → Int) (l : List α) (a : Int) :
    l.foldl (fun a x => a + f x) a = a + (l.map f).sum := by
  induction l generalizing a with
  | nil => simp
  | cons x xs ih => rw [List.foldl_cons, ih, List.map_cons, List.sum_cons, Int.add_assoc]

theorem zipIdx_range_map {α : Type} (f : Nat → α) (n : Nat) :
    ((List.range n).map f).zipIdx = (List.range n).map fun i => (f i, i) := by
  refine List.ext_getElem (by simp) fun i h _ => ?_
  simp

/-- Column j of an integer MMUL: the exact sum of the products, modulo 2³² (07 R198). -/
theorem mmulAcc_int (fmt : FmtCode) (b : WBuf) (l : Line) (base n row w : Nat) (acc : Acc) (zero : Bool) (j : Fin 32)
    (h : fmtOf fmt = some (.int w)) :
    (mmulAcc fmt b l base n row acc zero)[j] = (if zero then 0 else acc[j]) + BitVec.ofInt 32
      (((List.range n).map fun i => sInt w (elemAt l base w i) * sInt w (cellCode b w (row + i) j.val)).sum) := by
  have hw : fmtWidth fmt = w := fmtWidth_of_fmtOf h
  simp only [mmulAcc, hw, h, Fin.getElem_fin, Vector.getElem_ofFn, mmulInt, zipIdx_range_map]
  rw [foldl_add_eq_sum (fun x : Nat × Nat => sInt w x.1 * sInt w (cellCode b w (row + x.2) j.val)), zero_add, List.map_map]
  rfl

/-- Settles O11: an allowed format tag lands what the multiply makes of the tile, another raises source 7. -/
theorem matrixMultipliesLand : Obligations.MatrixMultipliesLand := by
  refine ⟨⟨fun s v p pred wb ma vs seg fmt zero hl h => ?_, fun s v p pred wb ma vs seg fmt zero hl h => ?_⟩,
    fun fmt b l base n row w acc zero j hfmt => mmulAcc_int fmt b l base n row w acc zero j hfmt⟩
  · have hsame (d : Chip) (hd : d = issued v p 2 pred .mm (if fmt.toNat == 11 then [.ma ma, .ma (nextMa ma)] else [.ma ma])
        (.w wb :: .v vs :: (if zero then [] else if fmt.toNat == 11 then [.ma ma, .ma (nextMa ma)] else [.ma ma]))
        s.sys.chip) : sameTile (s.sys.chip.tile p) (d.tile p) := hd ▸ issued_tile ..
    simp only [exec_mmul, execMmul, hl]
    refine ⟨fun hmatch => issue_flies h fun d hd => ?_, fun hmatch => issue_raises 7 h fun d hd => ?_⟩
    · have htag : formatsMatch ((d.tile p).w[wb]).tag fmt = true := by rw [hsame d hd]; exact hmatch
      simp only [htag, if_true, mmulResult_same (hsame d hd)]
      obtain ⟨hstep, hflight⟩ := addFlights_spec p (latency .mm false)
        (mmulResult (s.sys.chip.tile p) wb ma vs seg.toNat fmt zero) d
      exact ⟨hstep, by rw [hflight, List.map_map]; rfl⟩
    · have htag : formatsMatch ((d.tile p).w[wb]).tag fmt = false := by rw [hsame d hd]; exact hmatch
      simp only [htag, Bool.false_eq_true, if_false]
      rfl
  · have hsame (d : Chip) (hd : d = issued v p 2 pred .mm [.ma ma, .ma (nextMa ma)]
        (.w wb :: .v vs :: (if zero then [] else [.ma ma, .ma (nextMa ma)])) s.sys.chip) :
        sameTile (s.sys.chip.tile p) (d.tile p) := hd ▸ issued_tile ..
    simp only [exec_mxmul, execMxmul, hl]
    refine ⟨fun tag htag h5 h7 => issue_flies h fun d hd => ?_, fun hno => issue_raises 7 h fun d hd => ?_⟩
    · have hd' : (d.tile p).w[wb].tag = some tag := by rw [hsame d hd]; exact htag
      simp only [hd', h5, h7, decide_true, Bool.and_self, if_true]
      rw [hsame d hd]
      obtain ⟨hstep, hflight⟩ := addFlights_spec p (latency .mm false)
        [Dest.ma ma (mxAcc fmt tag (s.sys.chip.tile p).w[wb] (s.sys.chip.tile p).v[vs] (64 * seg.toNat)
          (192 + 2 * seg.toNat) (s.sys.chip.tile p).ma[ma] zero),
        Dest.ma (nextMa ma) (mxAcc fmt tag (s.sys.chip.tile p).w[wb] (s.sys.chip.tile p).v[vs] (64 * seg.toNat + 32)
          (193 + 2 * seg.toNat) (s.sys.chip.tile p).ma[nextMa ma] zero)] d
      exact ⟨hstep, hflight⟩
    · have hd' : (d.tile p).w[wb].tag = (s.sys.chip.tile p).w[wb].tag := by rw [hsame d hd]
      simp only [hd']
      cases htag : (s.sys.chip.tile p).w[wb].tag with
      | none => rfl
      | some tag =>
        have hout : (decide (5 ≤ tag.toNat) && decide (tag.toNat ≤ 7)) = false := by
          rcases hno tag htag with hlow | hhigh
          · simp [Nat.not_le.2 hlow]
          · simp [Nat.not_le.2 hhigh]
        simp only [hout, Bool.false_eq_true, if_false]
        rfl

end Sys2Proof.Machine
end

section
/-! PROOFS. The C slot's control operations and RAMP (05 R138 to R142; 06 R177, R179). -/

namespace Sys2Proof.Machine

section OtherState

variable {s : State} {v : TileId} {p : Fin 320} {pred : PReg} {g : Tile → Tile} {c d e : Chip}

/-- As `TileStep`, where the tile's other state becomes `g` of it. -/
structure TileStepWith (g : Tile → Tile) (p : Fin 320) (c d : Chip) : Prop where
  eq : d = { c with cmp := { c.cmp with tiles := d.cmp.tiles }, fc := { c.fc with raised := d.fc.raised }, chk := d.chk,
                    pwr := { c.pwr with gov := d.pwr.gov } }
  others : ∀ q, q ≠ p → d.tile q = c.tile q
  same : sameTile (g (c.tile p)) (d.tile p)

theorem TileStep.withId (h : TileStep p c d) : TileStepWith id p c d := ⟨h.eq, h.others, h.same⟩

/-- Steps of the tile may follow. -/
theorem TileStepWith.trans (h : TileStepWith g p c d) (k : TileStep p d e) : TileStepWith g p c e := by
  obtain ⟨heq, hothers, hsame⟩ := h
  obtain ⟨keq, kothers, ksame⟩ := k
  refine ⟨by rw [keq, heq], fun q hq => (kothers q hq).trans (hothers q hq), ?_⟩
  unfold sameTile at *
  rw [ksame, hsame]

/-- Steps of the tile, and then a change of it. -/
theorem TileStep.onTile (h : TileStep p c d) (f : Tile → Tile) (hf : sameTile (g (c.tile p)) (f (d.tile p))) :
    TileStepWith g p c (d.onTile p f) := by
  refine ⟨?_, fun q hq => ?_, ?_⟩
  · simp only [Chip.onTile]
    rw [h.eq]
  · rw [tile_onTile_other _ _ _ _ hq, h.others q hq]
  · rwa [tile_onTile_self]

/-- What the effect of an operation of tile p finds in the chip in which the operation has issued. -/
structure IssuedFrom (p : Fin 320) (c d : Chip) : Prop where
  step : TileStep p c d
  flight : (d.tile p).flight = (c.tile p).flight
  before : (d.useNow p).before = (c.useNow p).before
  tested : (d.useNow p).tested = (c.useNow p).tested
  begun : (d.useNow p).begun = (c.useNow p).begun
  ports : ∀ sub w, portFits (d.useNow p) sub w = portFits (c.useNow p) sub w

theorem issued_from (v : TileId) (p : Fin 320) (slot : Nat) (pred : PReg) (k : LatClass) (dests reads : List RegName)
    (c : Chip) : IssuedFrom p c (issued v p slot pred k dests reads c) := by
  obtain ⟨hstep, hflight⟩ := issued_spec v p slot pred k dests reads c
  refine ⟨hstep, hflight, ?_, ?_, ?_, issued_ports v p slot pred k dests reads c⟩ <;> rw [issued_useNow] <;> rfl

/-- The issue of an operation and the noting of its events, around an effect that is a step of the tile. -/
theorem issue_fliesWith {slot : Nat} {k : LatClass} {dests reads : List RegName} {body : Fin 320 → Chip → Chip}
    {ds : List (Nat × Dest)} (h : Issues s v p pred dests)
    (hb : ∀ d, IssuedFrom p s.sys.chip d → TileStepWith g p s.sys.chip (body p d) ∧
        ((body p d).tile p).flight = (g (s.sys.chip.tile p)).flight ++
          ds.map fun x => ⟨s.sys.chip.cmp.pcc, s.sys.chip.cmp.pcc + x.1, x.2⟩) :
    FliesWith g (onChip (issue v slot pred k true dests reads body) s) s p ds := by
  obtain ⟨hbody, hbodyFlight⟩ := hb _ (issued_from v p slot pred k dests reads s.sys.chip)
  obtain ⟨hnote, hnoteFlight⟩ := noteEvents_spec v p s.sys.chip (body p (issued v p slot pred k dests reads s.sys.chip))
  obtain ⟨heq, hothers, hsame⟩ := hbody.trans hnote
  rw [onChip_next, issue_runs s v p slot pred k dests reads body h]
  have hwaits : (noteEvents v p s.sys.chip (body p (issued v p slot pred k dests reads s.sys.chip))).cmp.waits =
      s.sys.chip.cmp.waits := by rw [heq]
  refine ⟨_, rfl, ?_, hwaits, hothers, hsame, hnoteFlight.trans hbodyFlight⟩
  unfold onlyTiles
  simp only
  rw [hwaits]
  exact congrArg (fun c => { s with sys := { s.sys with chip := c } }) heq

/-- An operation whose whole effect is a change of its tile. -/
theorem issue_onTile {slot : Nat} {k : LatClass} {dests reads : List RegName} (f : Fin 320 → Chip → Tile → Tile)
    (h : Issues s v p pred dests) (hg : (g (s.sys.chip.tile p)).flight = (s.sys.chip.tile p).flight)
    (hf : ∀ d, IssuedFrom p s.sys.chip d → sameTile (g (s.sys.chip.tile p)) (f p d (d.tile p)) ∧
      (f p d (d.tile p)).flight = (d.tile p).flight) :
    FliesWith g (onChip (issue v slot pred k true dests reads fun p c => c.onTile p (f p c)) s) s p [] := by
  refine issue_fliesWith h fun d hd => ?_
  obtain ⟨hsame, hkeep⟩ := hf d hd
  refine ⟨hd.step.onTile _ hsame, ?_⟩
  rw [tile_onTile_self, hkeep, hd.flight, hg]
  simp

end OtherState

section Loop

variable {s : State} {v : TileId} {p : Fin 320} {pred : PReg}

/-- The record of the issuing bundle is kept by a change of the tile's flights. -/
theorem useNow_onFlight (f : Tile → List Flight) (c : Chip) :
    (c.onTile p fun t => { t with flight := f t }).useNow p = c.useNow p := by
  refine useNow_congr ?_ ?_ rfl <;> rw [tile_onTile_self]

theorem useNow_addFlight (d : Dest) (lam : Nat) (c : Chip) : (addFlight p d lam c).useNow p = c.useNow p :=
  useNow_onFlight (p := p) (fun t => t.flight ++ [({ issued := c.cmp.pcc, land := c.cmp.pcc + lam, dest := d } : Flight)]) c

/-- The chip once a LOOP on k has put its count in flight, in place of what the loop test has put there for k. -/
def loopCounted (p : Fin 320) (k : KReg) (x : Word) (c : Chip) : Chip :=
  addFlight p (.k k x) (latency .ku false) (c.onTile p fun t => { t with flight := t.flight.filter fun f =>
    !(f.issued == c.cmp.pcc && f.dest.reg == some (.k k)) })

theorem loopCounted_spec (k : KReg) (x : Word) (c : Chip) :
    TileStep p c (loopCounted p k x c) ∧ (loopCounted p k x c).useNow p = c.useNow p ∧
      ((loopCounted p k x c).tile p).flight =
        ((c.tile p).flight.filter fun f => !(f.issued == c.cmp.pcc && f.dest.reg == some (.k k))) ++
          [⟨c.cmp.pcc, c.cmp.pcc + 1, .k k x⟩] := by
  obtain ⟨hadd, hflight, -⟩ := addFlight_spec p (.k k x) (latency .ku false) (c.onTile p fun t =>
    { t with flight := t.flight.filter fun f => !(f.issued == c.cmp.pcc && f.dest.reg == some (.k k)) })
  refine ⟨(tileStep_onTile c p _ (by unfold sameTile; rfl)).trans hadd, ?_, ?_⟩
  · rw [loopCounted, useNow_addFlight, useNow_onFlight]
  · rw [loopCounted, hflight, tile_onTile_self]
    rfl

/-- LOOP (05 R140). -/
theorem execLoop_flies (len : BitVec 8) (k : KReg) (n : LoopCount) (h : Issues s v p pred [.k k]) :
    FliesWith (fun t => { t with
        loops := bundleLoops t { s.sys.chip.useNow p with begun := some ⟨k, (s.sys.chip.tile p).addr + 1,
          (s.sys.chip.tile p).addr + 1 + len.toNat⟩ },
        flight := t.flight.filter fun f => !(f.issued == s.sys.chip.cmp.pcc && f.dest.reg == some (.k k)) })
      (execLoop v pred len k n s) s p [(1, .k k (loopCount (s.sys.chip.tile p) n))] := by
  refine issue_fliesWith h fun d hd => ?_
  have haddr : (d.tile p).addr = (s.sys.chip.tile p).addr := by rw [hd.step.same]
  have hcount : loopCount (d.tile p) n = loopCount (s.sys.chip.tile p) n := by
    cases n with
    | count x => rfl
    | areg a => simp only [loopCount]; rw [hd.step.same]
  obtain ⟨hstep, huse, hflight⟩ := loopCounted_spec (p := p) k (loopCount (d.tile p) n) d
  change TileStepWith _ p _ (onUse p _ (loopCounted p k (loopCount (d.tile p) n) d)) ∧
    ((onUse p _ (loopCounted p k (loopCount (d.tile p) n) d)).tile p).flight = _
  rw [onUse, huse]
  refine ⟨(hd.step.trans hstep).onTile _ ?_, ?_⟩
  · have hsame := (hd.step.trans hstep).same
    have hloops (u w : BundleUse) (h1 : u.before = w.before) (h2 : u.tested = w.tested) (h3 : u.begun = w.begun) :
        bundleLoops ((loopCounted p k (loopCount (d.tile p) n) d).tile p) u = bundleLoops (s.sys.chip.tile p) w :=
      bundleLoops_congr _ _ _ _ (by rw [hsame]) (by rw [hsame]) h1 h2 h3
    unfold sameTile
    rw [hloops { d.useNow p with begun := some ⟨k, (d.tile p).addr + 1, (d.tile p).addr + 1 + len.toNat⟩ }
      { s.sys.chip.useNow p with begun := some ⟨k, (s.sys.chip.tile p).addr + 1,
          (s.sys.chip.tile p).addr + 1 + len.toNat⟩ } hd.before hd.tested (by rw [haddr]), hsame]
  · rw [tile_onTile_self, hflight, hd.flight, hd.step.pcc, hcount]
    rfl

end Loop

section Ramp

variable {p : Fin 320} {level : BitVec 6} {lead : Nat}

theorem tile_congr {c d : Chip} (h : d.cmp = c.cmp) (q : Fin 320) : d.tile q = c.tile q := by simp [Chip.tile, h]

/-- A RAMP's forecast for one quadrant: put on it where it is on and has none of this bundle, and no other quadrant's is
touched. -/
theorem rampQuad_spec (q : QuadId) (c : Chip) :
    TileStep p c (rampQuad p level lead q c) ∧ ((rampQuad p level lead q c).tile p).flight = (c.tile p).flight ∧
      (rampQuad p level lead q c).pwr.on = c.pwr.on ∧ (rampQuad p level lead q c).pwr.held = c.pwr.held ∧
      (∀ r : QuadId, r ≠ q → (rampQuad p level lead q c).pwr.gov[r] = c.pwr.gov[r]) ∧
      (c.domOn (bitQ q.val) = true → (∀ f, c.pwr.gov[q].forecast = some f → f.issued ≠ c.cmp.pcc) →
        (rampQuad p level lead q c).pwr.gov[q].forecast = some ⟨level, c.cmp.pcc + lead, c.cmp.pcc⟩) := by
  unfold rampQuad
  split
  next hon =>
    extract_lets g f keep u c1
    split
    next hkeep =>
      refine ⟨TileStep.refl p c, rfl, rfl, rfl, fun _ _ => rfl, fun _ hnone => ?_⟩
      cases hg : c.pwr.gov[q].forecast with
      | none =>
        simp only [keep, g, hg] at hkeep
        exact absurd hkeep Bool.false_ne_true
      | some o =>
        simp only [keep, g, hg, beq_eq_false_iff_ne.2 (hnone o hg), Bool.false_and] at hkeep
        exact absurd hkeep Bool.false_ne_true
    next =>
      have hc1 : TileStep p c c1 := tileStep_onTile c p _ (by unfold sameTile; rfl)
      have hstep := tileStep_flat (c := c1) (d := { c1 with pwr := { c1.pwr with
        gov := c1.pwr.gov.set q ({ g with forecast := some f } : Governor) } }) p rfl
      refine ⟨hc1.trans hstep.1, ?_, rfl, rfl, fun r hr => ?_, fun _ _ => ?_⟩
      · exact (congrArg Tile.flight (tile_congr hstep.2 p)).trans (by rw [tile_onTile_self])
      · have hne : q.val ≠ r.val := fun h => hr (Fin.ext h.symm)
        simp [c1, hne]
      · simp [c1, f]
  next hoff => exact ⟨TileStep.refl p c, rfl, rfl, rfl, fun _ _ => rfl, fun hon => absurd hon hoff⟩

theorem domOn_congr {c d : Chip} (hon : d.pwr.on = c.pwr.on) (hheld : d.pwr.held = c.pwr.held) (bit : Nat) :
    d.domOn bit = c.domOn bit := by
  simp only [Chip.domOn, hon, hheld]

/-- A RAMP's forecasts, for a list of different quadrants. -/
theorem rampQuads_spec (l : List QuadId) (hl : l.Nodup) (c : Chip) :
    let d := l.foldl (fun c q => rampQuad p level lead q c) c
    TileStep p c d ∧ (d.tile p).flight = (c.tile p).flight ∧ (∀ r : QuadId, r ∉ l → d.pwr.gov[r] = c.pwr.gov[r]) ∧
      (∀ r : QuadId, r ∈ l → c.domOn (bitQ r.val) = true → (∀ f, c.pwr.gov[r].forecast = some f → f.issued ≠ c.cmp.pcc) →
        d.pwr.gov[r].forecast = some ⟨level, c.cmp.pcc + lead, c.cmp.pcc⟩) := by
  induction l generalizing c with
  | nil => exact ⟨TileStep.refl p c, rfl, fun _ _ => rfl, fun r hr => absurd hr (List.not_mem_nil)⟩
  | cons q l ih =>
    obtain ⟨hq, hl⟩ := List.nodup_cons.1 hl
    obtain ⟨hstep, hflight, hon, hheld, hother, hput⟩ := rampQuad_spec (p := p) (level := level) (lead := lead) q c
    obtain ⟨kstep, kflight, kother, kput⟩ := ih hl (rampQuad p level lead q c)
    refine ⟨hstep.trans kstep, kflight.trans hflight, fun r hr => ?_, fun r hr hdom hnone => ?_⟩
    · obtain ⟨hrq, hrl⟩ := not_or.1 (mt List.mem_cons.2 hr)
      exact (kother r hrl).trans (hother r hrq)
    · rcases List.mem_cons.1 hr with rfl | hrl
      · exact (congrArg Governor.forecast (kother r hq)).trans (hput hdom hnone)
      · have hrq : r ≠ q := fun h => hq (h ▸ hrl)
        refine (kput r hrl ((domOn_congr hon hheld _).trans hdom) fun f hf => ?_).trans (by rw [hstep.pcc])
        rw [hstep.pcc]
        exact hnone f (by rw [← hother r hrq]; exact hf)

end Ramp

section Issue

variable {s : State} {v : TileId} {p : Fin 320} {pred : PReg}

/-! Forecasts: neither an operation's issue nor the noting of its events touches one. -/

theorem strainReads_pwr (rs : List RegName) (c : Chip) : (strainReads v p rs c).pwr = c.pwr := by
  have hevent (n info : Nat) : (c.tileEvent v.val n info).pwr = c.pwr := by
    unfold Chip.tileEvent
    dsimp only
    split <;> rfl
  unfold strainReads
  split
  · split
    · exact hevent ..
    · rfl
  · rfl

theorem onActivity_forecast (f : Nat → Nat) (c : Chip) (q : QuadId) :
    (onActivity p f c).pwr.gov[q].forecast = c.pwr.gov[q].forecast := by
  unfold onActivity
  split
  next r _ =>
    by_cases h : r.val = q.val
    · simp [h]
    · simp [h]
  next => rfl

theorem issued_forecast (slot : Nat) (k : LatClass) (dests reads : List RegName) (c : Chip) (q : QuadId) :
    (issued v p slot pred k dests reads c).pwr.gov[q].forecast = c.pwr.gov[q].forecast := by
  rw [issued, addActivity, onActivity_forecast, Chip.onTile_pwr, strainReads_pwr, Chip.onTile_pwr]

theorem noteEvents_pwr (b c : Chip) : (noteEvents v p b c).pwr = c.pwr := by
  unfold noteEvents
  extract_lets new k u kept
  split <;> rfl

theorem issued_dom (slot : Nat) (k : LatClass) (dests reads : List RegName) (c : Chip) (bit : Nat) :
    (issued v p slot pred k dests reads c).domOn bit = c.domOn bit := by
  have hstep := (issued_spec v p slot pred k dests reads c).1
  apply domOn_congr <;> rw [hstep.eq]

/-- The chip with one wait more. -/
def Chip.addWait (w : GtcWait) (c : Chip) : Chip := { c with cmp := { c.cmp with waits := c.cmp.waits ++ [w] } }

/-- WAIT_GTC adds its wait, and nothing else happens (06 R177). -/
theorem execWaitGtc_spec (a : AReg) (h : Issues s v p pred []) :
    Gives (execWaitGtc v pred a s) fun t => onlyTiles s t ∧ (∀ q, q ≠ p → t.sys.chip.tile q = s.sys.chip.tile q) ∧
      sameTile (s.sys.chip.tile p) (t.sys.chip.tile p) ∧
      (t.sys.chip.tile p).flight = (s.sys.chip.tile p).flight ∧
      t.sys.chip.cmp.waits = s.sys.chip.cmp.waits ++ [⟨v.val, s.sys.chip.cmp.pcc, (s.sys.chip.tile p).a[a]⟩] := by
  rw [execWaitGtc, onChip_next, issue_runs s v p 0 pred .al [] [.a a] _ h]
  have hd := issued_from v p 0 pred .al [] [.a a] s.sys.chip
  generalize issued v p 0 pred .al [] [.a a] s.sys.chip = d at hd
  have ha : (d.tile p).a[a] = (s.sys.chip.tile p).a[a] := by rw [hd.step.same]
  let e := d.addWait ⟨v.val, d.cmp.pcc, (d.tile p).a[a]⟩
  obtain ⟨hnote, hnoteFlight⟩ := noteEvents_spec v p s.sys.chip e
  refine ⟨{ s with sys := { s.sys with chip := noteEvents v p s.sys.chip e } }, rfl, ?_, fun q hq => ?_, ?_, ?_, ?_⟩
  · have heq : noteEvents v p s.sys.chip e = { s.sys.chip with
        cmp := { s.sys.chip.cmp with tiles := (noteEvents v p s.sys.chip e).cmp.tiles
                                     waits := (noteEvents v p s.sys.chip e).cmp.waits }
        fc := { s.sys.chip.fc with raised := (noteEvents v p s.sys.chip e).fc.raised }
        chk := (noteEvents v p s.sys.chip e).chk
        pwr := { s.sys.chip.pwr with gov := (noteEvents v p s.sys.chip e).pwr.gov } } := by
      rw [hnote.eq]
      simp only [e, Chip.addWait]
      rw [hd.step.eq]
    exact congrArg (fun c => ({ s with sys := { s.sys with chip := c } } : State)) heq
  · exact (hnote.others q hq).trans (hd.step.others q hq)
  · have hsame := hd.step.same
    have hnoted : sameTile (d.tile p) _ := hnote.same
    unfold sameTile at *
    exact hnoted.trans (by rw [hsame])
  · exact hnoteFlight.trans hd.flight
  · show (noteEvents v p s.sys.chip e).cmp.waits = _
    rw [hnote.eq]
    show d.cmp.waits ++ [⟨v.val, d.cmp.pcc, (d.tile p).a[a]⟩] = _
    rw [ha, hd.step.eq]

/-- RAMP (06 R179, 16 R440). -/
theorem execRamp_spec (qmask : BitVec 4) (level : BitVec 6) (lead : BitVec 10) (h : Issues s v p pred []) :
    Gives (execRamp v pred qmask level lead s) fun t =>
      let c := s.sys.chip
      let d := t.sys.chip
      onlyTiles s t ∧ d.cmp.waits = c.cmp.waits ∧ (∀ q, q ≠ p → d.tile q = c.tile q) ∧
      sameTile (c.tile p) (d.tile p) ∧ (d.tile p).flight = (c.tile p).flight ∧
      ∀ q : QuadId,
        (qmask.toNat.testBit q.val = false → d.pwr.gov[q].forecast = c.pwr.gov[q].forecast) ∧
        (qmask.toNat.testBit q.val = true → c.domOn (bitQ q.val) = true →
          (∀ f, c.pwr.gov[q].forecast = some f → f.issued ≠ c.cmp.pcc) →
          d.pwr.gov[q].forecast = some ⟨level, c.cmp.pcc + lead.toNat, c.cmp.pcc⟩) := by
  let l := (List.finRange 4).filter fun q => qmask.toNat.testBit q.val
  have hmem (q : QuadId) : q ∈ l ↔ qmask.toNat.testBit q.val = true := by simp [l]
  have hl : l.Nodup := (List.nodup_finRange 4).filter _
  have hrun := issue_runs s v p 0 pred .pl [] [] (fun p c => l.foldl (fun c q => rampQuad p level lead.toNat q c) c) h
  have hforecast := issued_forecast (v := v) (p := p) (pred := pred) 0 .pl [] [] s.sys.chip
  have hdom := issued_dom (v := v) (p := p) (pred := pred) 0 .pl [] [] s.sys.chip
  have hpcc := (issued_spec v p 0 pred .pl [] [] s.sys.chip).1.pcc
  obtain ⟨t, ht, honly, hwaits, hothers, hsame, hflight⟩ : Flies (execRamp v pred qmask level lead s) s p [] :=
    issue_flies h fun d _ => by
      obtain ⟨hstep, hflight, -⟩ := rampQuads_spec (p := p) (level := level) (lead := lead.toNat) l hl d
      exact ⟨hstep, by rw [hflight]; simp⟩
  refine ⟨t, ht, honly, hwaits, hothers, hsame, by simpa using hflight, fun q => ?_⟩
  have hchip : t.sys.chip = issue v 0 pred .pl true [] [] (fun p c =>
      l.foldl (fun c q => rampQuad p level lead.toNat q c) c) s.sys.chip := by
    rw [execRamp, onChip_next] at ht
    exact (congrArg (fun u : State => u.sys.chip) (Host.Outcome.next.inj ht)).symm
  rw [hchip, hrun, noteEvents_pwr]
  obtain ⟨-, -, hother, hput⟩ := rampQuads_spec (p := p) (level := level) (lead := lead.toNat) l hl
    (issued v p 0 pred .pl [] [] s.sys.chip)
  refine ⟨fun hq => ?_, fun hq hon hnone => ?_⟩
  · rw [hother q fun hin => Bool.false_ne_true (hq.symm.trans ((hmem q).1 hin)), hforecast]
  · rw [hput q ((hmem q).2 hq) ((hdom _).trans hon) fun f hf => by rw [hpcc]; exact hnone f ((hforecast q).symm.trans hf),
      hpcc]

end Issue

/-- Settles O17: BR, LOOP and END change their tile alone, WAIT_GTC the waits, RAMP the forecasts. -/
theorem controlOpsAndRampsTakeEffect : Obligations.ControlOpsAndRampsTakeEffect := by
  refine ⟨⟨fun s v slot => ?_, fun s v p pred h => ⟨fun target pop ht => ?_, ?_, fun a => ?_⟩,
    fun s v p pred len k n h => ?_⟩, fun s v p pred qmask level lead h => ?_⟩
  · rw [exec_nop]
    rfl
  · rw [exec_br, execBr, decide_eq_true ht]
    refine issue_onTile (fun p c t => { t with transfers := t.transfers ++ [⟨c.cmp.pcc, target.toNat, pop.toNat⟩] }) h rfl
      fun d hd => ⟨?_, rfl⟩
    unfold sameTile
    rw [hd.step.pcc, hd.step.same]
  · rw [exec_endProgram, execEndProgram]
    refine issue_onTile (fun p c t => { t with ended := true, use := { c.useNow p with ends := true } }) h rfl
      fun d hd => ⟨?_, rfl⟩
    unfold sameTile
    rw [hd.step.same]
  · rw [exec_waitGtc]
    exact execWaitGtc_spec a h
  · rw [exec_loop]
    exact execLoop_flies len k n h
  · rw [exec_ramp]
    exact execRamp_spec qmask level lead h

end Sys2Proof.Machine
end

section
/-! PROOFS. The loop test of a bundle (05 R139, R140). -/

namespace Sys2Proof.Machine

section LoopTest

variable {s : State} {p : Fin 320} {g h : Tile → Tile} {c d : Chip}

/-- A further change of the tile. -/
theorem TileStepWith.onTile (hd : TileStepWith g p c d) (f : Tile → Tile)
    (hf : sameTile (h (c.tile p)) (f (d.tile p))) : TileStepWith h p c (d.onTile p f) := by
  refine ⟨?_, fun q hq => ?_, ?_⟩
  · simp only [Chip.onTile]
    rw [hd.eq]
  · rw [tile_onTile_other _ _ _ _ hq, hd.others q hq]
  · rwa [tile_onTile_self]

theorem fliesWith_of_step {ds : List (Nat × Dest)} (hd : TileStepWith g p s.sys.chip d)
    (hflight : (d.tile p).flight = (g (s.sys.chip.tile p)).flight ++
      ds.map fun x => ⟨s.sys.chip.cmp.pcc, s.sys.chip.cmp.pcc + x.1, x.2⟩) :
    FliesWith g (.next { s with sys := { s.sys with chip := d } }) s p ds := by
  obtain ⟨heq, hothers, hsame⟩ := hd
  have hwaits : d.cmp.waits = s.sys.chip.cmp.waits := by rw [heq]
  refine ⟨_, rfl, ?_, hwaits, hothers, hsame, hflight⟩
  unfold onlyTiles
  simp only
  rw [hwaits]
  exact congrArg (fun c => { s with sys := { s.sys with chip := c } }) heq

theorem latency_ku : latency .ku false = 1 := rfl

/-- Results in K registers, put in flight one after another. -/
theorem addCounts_spec (l : List (KReg × Word)) (c : Chip) :
    let d := l.foldl (fun c kx => addFlight p (.k kx.1 kx.2) (latency .ku false) c) c
    TileStep p c d ∧ d.useNow p = c.useNow p ∧
      (d.tile p).flight = (c.tile p).flight ++ l.map fun x => ⟨c.cmp.pcc, c.cmp.pcc + 1, .k x.1 x.2⟩ := by
  induction l generalizing c with
  | nil => exact ⟨TileStep.refl p c, rfl, by simp⟩
  | cons x l ih =>
    obtain ⟨hstep, hflight, -⟩ := addFlight_spec p (.k x.1 x.2) (latency .ku false) c
    obtain ⟨kstep, kuse, kflight⟩ := ih (addFlight p (.k x.1 x.2) (latency .ku false) c)
    refine ⟨hstep.trans kstep, kuse.trans (useNow_addFlight _ _ c), ?_⟩
    rw [List.foldl_cons, kflight, hflight, hstep.pcc]
    simp [latency_ku]

/-- A loop test that is still to be made (05 R140). -/
theorem makeLoopTest_flies (hu : (s.sys.chip.useNow p).tested = false) :
    let u := s.sys.chip.useNow p
    let t := s.sys.chip.tile p
    let r := loopTest t t.addr u.before
    FliesWith (fun t => { t with
        loops := bundleLoops t { u with tested := true },
        repeats := r.2.2.map fun a => (s.sys.chip.cmp.pcc, a) })
      (.next { s with sys := { s.sys with chip := makeLoopTest p s.sys.chip } }) s p
      ((r.1.filter fun x => (u.begun.map fun l => l.k) != some x.1).map fun x => (1, .k x.1 x.2)) := by
  intro u t r
  obtain ⟨hstep, huse, hflight⟩ := addCounts_spec (p := p)
    (r.1.filter fun x => (u.begun.map fun l => l.k) != some x.1) s.sys.chip
  have hpcc := hstep.pcc
  have hmake : makeLoopTest p s.sys.chip = (onUse p (fun u => { u with tested := true })
      (testFlights p u s.sys.chip)).onTile p fun t =>
        { t with repeats := r.2.2.map fun a => ((testFlights p u s.sys.chip).cmp.pcc, a) } := by
    simp only [makeLoopTest, hu, Bool.false_eq_true, if_false]
    rfl
  change TileStep p s.sys.chip (testFlights p u s.sys.chip) at hstep
  change (testFlights p u s.sys.chip).useNow p = _ at huse
  change ((testFlights p u s.sys.chip).tile p).flight = _ at hflight
  change (testFlights p u s.sys.chip).cmp.pcc = _ at hpcc
  rw [hmake, onUse, huse, hpcc]
  generalize testFlights p u s.sys.chip = d at hstep hflight
  have hloops : bundleLoops (d.tile p) { u with tested := true } = bundleLoops t { u with tested := true } :=
    bundleLoops_congr _ _ _ _ (by rw [hstep.same]) (by rw [hstep.same]) rfl rfl rfl
  have htested : TileStepWith (fun t => { t with loops := bundleLoops t { u with tested := true } }) p s.sys.chip
      (d.onTile p fun t => { t with use := { u with tested := true }, loops := bundleLoops t { u with tested := true } }) :=
    hstep.onTile _ (by unfold sameTile; rw [hloops, hstep.same])
  refine fliesWith_of_step (htested.onTile _ ?_) ?_
  · unfold sameTile
    rw [tile_onTile_self, hloops, hstep.same]
  · rw [tile_onTile_self, tile_onTile_self]
    show (d.tile p).flight = _
    rw [hflight, List.map_map]
    rfl

end LoopTest

/-- Settles O18: LOOP_END makes the test of the bundle that issues, unless it is made. -/
theorem loopTestIsMadeOnce : Obligations.LoopTestIsMadeOnce := by
  intro s v p hp
  have hexec : exec (.loopEnd v) s = .next { s with sys := { s.sys with chip := makeLoopTest p s.sys.chip } } := by
    rw [exec_loopEnd, execLoopEnd, onChip_next]
    simp only [hp]
  refine ⟨fun hu => ?_, fun hu => ?_⟩
  · rw [hexec, makeLoopTest, if_pos hu]
  · rw [hexec]
    exact makeLoopTest_flies hu

end Sys2Proof.Machine
end

section
/-! PROOFS. The N slot's sends (05 R155; 06 R172, R175): what an operation with a source line finds, and what becomes of
the line. -/

namespace Sys2Proof.Machine

section Send

variable {s : State} {v : TileId} {p : Fin 320} {pred : PReg} {src : LineSrc} {e : Chip}

/-- The chip in which the effect of an operation with a source line happens: the operation has issued, its source line is
read, and the INC of its source is in flight. -/
structure SourceRead (s : State) (p : Fin 320) (src : LineSrc) (e : Chip) : Prop where
  step : TileStep p s.sys.chip e
  flight : (e.tile p).flight = (s.sys.chip.tile p).flight ++
    (sentInc s p src).map fun x => ⟨s.sys.chip.cmp.pcc, s.sys.chip.cmp.pcc + x.1, x.2⟩

theorem sentInc_sram (a : LineAddr) :
    sentInc s p (.sram a) = (lineInc (s.sys.chip.tile p) a).map fun d => (1, d) := rfl

theorem sourceLine_spec {d : Chip} (hd : IssuedFrom p s.sys.chip d) :
    let x := sourceLine s.mem s.sys.ecc v p src d
    x.1 = sentLine s p src ∧ x.2.1 = sentDelay s p src ∧ SourceRead s p src x.2.2 := by
  cases src with
  | vreg r =>
    refine ⟨?_, rfl, hd.step, ?_⟩
    · show (d.tile p).v[r] = (s.sys.chip.tile p).v[r]
      rw [hd.step.same]
    · exact hd.flight.trans (List.append_nil _).symm
  | sram a =>
    have hea : lineEA (d.tile p) a = lineEA (s.sys.chip.tile p) a := lineEA_same a _ _ hd.step.same
    have hinc : lineInc (d.tile p) a = lineInc (s.sys.chip.tile p) a := lineInc_same a _ _ hd.step.same
    obtain ⟨hread, hflight, hline⟩ := readLine_spec s.mem s.sys.ecc v p 4 (lineEA (s.sys.chip.tile p) a) d
    obtain ⟨hadd, haddFlight⟩ := addFlights_spec p (latency .al false) (lineInc (s.sys.chip.tile p) a)
      (readLine s.mem s.sys.ecc v p 4 (lineEA (s.sys.chip.tile p) a) d).2
    simp only [sourceLine, hea, hinc, sentLine, sentDelay]
    refine ⟨by rw [hline, hd.ports], trivial, (hd.step.trans hread).trans hadd, ?_⟩
    rw [haddFlight, hflight, hd.flight, hread.pcc, hd.step.pcc, sentInc_sram, List.map_map]
    rfl

/-- A legal operation with a source line runs its effect on the line. -/
theorem sendOp_runs (legal : Chip → Bool) (reads : List RegName) (body : Fin 320 → Line → Nat → Chip → Chip)
    (h : Issues s v p pred (srcDests src)) (hl : legal s.sys.chip = true) :
    ∃ e, SourceRead s p src e ∧ sendOp v pred src legal reads body s = .next { s with sys := { s.sys with
      chip := noteEvents v p s.sys.chip (body p (sentLine s p src) (sentDelay s p src) e) } } := by
  have hd := issued_from v p 4 pred .ns (srcDests src) (srcReads src ++ reads) s.sys.chip
  have hrun := issue_runs s v p 4 pred .ns (srcDests src) (srcReads src ++ reads) (fun p c =>
    body p (sourceLine s.mem s.sys.ecc v p src c).1 (sourceLine s.mem s.sys.ecc v p src c).2.1
      (sourceLine s.mem s.sys.ecc v p src c).2.2) h
  obtain ⟨hline, hdelay, hread⟩ := sourceLine_spec (v := v) (src := src) hd
  refine ⟨_, hread, ?_⟩
  show Host.Outcome.next { s with sys := { s.sys with
    chip := issue v 4 pred .ns (legal s.sys.chip) (srcDests src) (srcReads src ++ reads) _ s.sys.chip } } = _
  rw [hl, hrun, hline, hdelay]

/-- A tile event is a step of any tile. -/
theorem SourceRead.event (h : SourceRead s p src e) (n info : Nat) :
    TileStep p s.sys.chip (e.tileEvent v.val n info) ∧ ((e.tileEvent v.val n info).tile p).flight = (e.tile p).flight := by
  obtain ⟨hstep, hcmp⟩ := tileStep_tileEvent p v.val n info e
  exact ⟨h.step.trans hstep, congrArg Tile.flight (tile_congr hcmp p)⟩

/-- A tile event raises its source. -/
theorem tileEvent_raised (n : SourceId) (info : Nat) (c : Chip) :
    ⟨n, .tile v.val⟩ ∈ (c.tileEvent v.val n.val info).fc.raised := by
  unfold Chip.tileEvent
  dsimp only
  split <;> simp [Chip.raise, Collector.raise, finOf]

/-- A line that finds the send queue full is lost, with source 1. -/
theorem lost_flies (h : SourceRead s p src e) {r : Result} {info : Nat} (hr : r = .next { s with sys := { s.sys with
      chip := noteEvents v p s.sys.chip (e.tileEvent v.val 1 info) } }) :
    Flies r s p (sentInc s p src) ∧ ∃ u, r = .next u ∧ ⟨1, .tile v.val⟩ ∈ u.sys.chip.fc.raised := by
  obtain ⟨hstep, hflight⟩ := h.event (v := v) 1 info
  subst hr
  refine ⟨flies_noted hstep (hflight.trans h.flight), _, rfl, ?_⟩
  rw [noteEvents_fc]
  exact tileEvent_raised 1 info e

theorem sendLine_full {t : Nat} {line : Line} {dst : SendDst} (h : 8 ≤ (e.tile p).sendq.length) :
    sendLine v p t line dst e = e.tileEvent v.val 1 4 := if_pos h

/-- The send queue of the tile has room where it had before the operation. -/
theorem SourceRead.sendq (h : SourceRead s p src e) : (e.tile p).sendq = (s.sys.chip.tile p).sendq := by rw [h.step.same]

/-- What an operation that sends its source line to `dst` has put in flight. -/
def sentFlights (s : State) (p : Fin 320) (src : LineSrc) (dst : SendDst) : List (Nat × Dest) :=
  sentInc s p src ++
    [(1, .send ⟨sentLine s p src, dst, s.sys.chip.cmp.pcc + sentDelay s p src, s.sys.chip.cmp.cycles⟩)]

/-- With room in the send queue, the line is in flight to it. -/
theorem sendLine_room (h : SourceRead s p src e) (dst : SendDst) (hq : (s.sys.chip.tile p).sendq.length < 8) :
    TileStep p s.sys.chip (sendLine v p (sentDelay s p src) (sentLine s p src) dst e) ∧
      ((sendLine v p (sentDelay s p src) (sentLine s p src) dst e).tile p).flight = (s.sys.chip.tile p).flight ++
        (sentFlights s p src dst).map fun x => ⟨s.sys.chip.cmp.pcc, s.sys.chip.cmp.pcc + x.1, x.2⟩ := by
  have hcycles : e.cmp.cycles = s.sys.chip.cmp.cycles := by rw [h.step.eq]
  have hroom : ¬8 ≤ (e.tile p).sendq.length := by rw [h.sendq]; omega
  obtain ⟨hstep, hflight, -⟩ := addFlight_spec p (.send ⟨sentLine s p src, dst, e.cmp.pcc + sentDelay s p src,
    e.cmp.cycles⟩) (latency .ns false) e
  rw [sendLine, if_neg hroom]
  refine ⟨h.step.trans hstep, ?_⟩
  rw [hflight, h.flight, h.step.pcc, hcycles, sentFlights, List.map_append, List.append_assoc]
  rfl

/-- A send with the destination that the tile's registers give. -/
theorem send_joins {legal : Chip → Bool} {reads : List RegName} {body : Fin 320 → Line → Nat → Chip → Chip} (dst : SendDst)
    (h : Issues s v p pred (srcDests src)) (hl : legal s.sys.chip = true)
    (hbody : ∀ e line t, TileStep p s.sys.chip e → body p line t e = sendLine v p t line dst e) :
    let r := sendOp v pred src legal reads body s
    ((s.sys.chip.tile p).sendq.length < 8 → Flies r s p (sentFlights s p src dst)) ∧
      (8 ≤ (s.sys.chip.tile p).sendq.length →
        Flies r s p (sentInc s p src) ∧ ∃ u, r = .next u ∧ ⟨1, .tile v.val⟩ ∈ u.sys.chip.fc.raised) := by
  obtain ⟨e, he, hr⟩ := sendOp_runs legal reads body h hl
  rw [hbody e _ _ he.step] at hr
  refine ⟨fun hq => ?_, fun hq => ?_⟩
  · obtain ⟨hstep, hflight⟩ := sendLine_room (v := v) he dst hq
    rw [hr]
    exact flies_noted hstep hflight
  · rw [sendLine_full (by rw [he.sendq]; exact hq)] at hr
    exact lost_flies he hr

theorem addr_append (a b : Word) : (BitVec.ofNat 64 (a.toNat * 2 ^ 32 + b.toNat) : Dword) = a ++ b := by
  apply BitVec.eq_of_toNat_eq
  have := a.isLt
  have := b.isLt
  rw [BitVec.toNat_append, ← Nat.shiftLeft_add_eq_or_of_lt b.isLt, Nat.shiftLeft_eq, BitVec.toNat_ofNat]
  exact Nat.mod_eq_of_lt (by omega)

end Send

/-- Settles O19: each send is `sendLine` with its destination. -/
theorem sendsJoinQueue : Obligations.SendsJoinQueue := by
  intro s v p pred src h
  refine ⟨fun row col ch hcol => ?_, fun a a1 cnt cmpl aq hev ha1 hcm => ?_, fun ad rch => ?_⟩
  · rw [exec_msend]
    exact send_joins _ h (decide_eq_true hcol) fun e line t _ => rfl
  · obtain rfl : (finOf 16 (a.val + 1)).getD 0 = a1 := by
      have := a1.isLt
      rw [finOf, dif_pos (by omega)]
      exact Fin.ext ha1.symm
    have hlegal : (a.val % 2 == 0 && (cmpl || aq == 0)) = true := by
      rcases hcm with rfl | rfl <;> simp [hev]
    rw [exec_hwrite, execHwrite]
    refine send_joins _ h hlegal fun e line t he => ?_
    have htime : e.time = s.sys.chip.time := by rw [he.eq]
    dsimp only
    rw [addr_append, htime, he.same]
  · rw [exec_sreq]
    refine send_joins _ h rfl fun e line t he => ?_
    rw [he.same]

end Sys2Proof.Machine
end

section
/-! PROOFS. FSEND (06 R169 to R171; 10 R253): what one line of a message does, by the state of its framing. -/

namespace Sys2Proof.Machine

section Fsend

variable {s : State} {v : TileId} {p : Fin 320} {pred : PReg} {src : LineSrc} {port : PortId} {ac ar : AReg} {e : Chip}

/-- The tile with the message open to a port set. -/
def Tile.setOpen (port : PortId) (m : Option OpenMsg) (t : Tile) : Tile := { t with openMsg := t.openMsg.set port m }

/-- FSEND runs `fsendLine` on its source line. -/
theorem execFsend_runs (part : Part) (h : Issues s v p pred (srcDests src))
    (hl : part = .only ∨ part = .first ∨ (ac = 0 ∧ ar = 0)) :
    ∃ e, SourceRead s p src e ∧ exec (.fsend v pred src part port ac ar) s = .next { s with sys := { s.sys with
      chip := noteEvents v p s.sys.chip (fsendLine v p (sentLine s p src) (sentDelay s p src) part port ac ar e) } } := by
  rw [exec_fsend, execFsend]
  refine sendOp_runs (fun _ => _) _ _ h ?_
  rcases hl with rfl | rfl | ⟨rfl, rfl⟩ <;> simp

/-! What a line finds is as it was before the operation. -/

theorem SourceRead.word (h : SourceRead s p src e) (a : AReg) : (e.tile p).a[a] = (s.sys.chip.tile p).a[a] := by
  rw [h.step.same]

theorem SourceRead.openMsg (h : SourceRead s p src e) : (e.tile p).openMsg = (s.sys.chip.tile p).openMsg := by
  rw [h.step.same]

theorem SourceRead.route (h : SourceRead s p src e) (a b : Word) :
    checkRoute e port a b = checkRoute s.sys.chip port a b := by
  have hfab : e.fab = s.sys.chip.fab := by rw [h.step.eq]
  simp only [checkRoute, hfab]

theorem sentInc_notSend (x : Nat × Dest) (h : x ∈ sentInc s p src) (l : SendLine) : x.2 ≠ .send l := by
  cases src with
  | vreg r => exact absurd h List.not_mem_nil
  | sram a =>
    rw [sentInc_sram, lineInc] at h
    split at h
    · exact absurd h List.not_mem_nil
    · rw [List.map_cons, List.map_nil, List.mem_singleton] at h
      rw [h]
      exact Dest.noConfusion

/-- The line that a flight brings to the send queue, if any. -/
def sentIn (f : Flight) : Option SendLine :=
  match f.dest with
  | .send x => some x
  | _ => none

theorem queuedLines_eq (t : Tile) : queuedLines t = t.sendq ++ t.flight.filterMap sentIn := rfl

/-- The INC of a source is no line on its way to a port. -/
theorem SourceRead.underWay (h : SourceRead s p src e) :
    linesUnderWay v.val p port e = linesUnderWay v.val p port s.sys.chip := by
  have hmesh : e.cmp.mesh = s.sys.chip.cmp.mesh := by rw [h.step.eq]
  have hinc : ((sentInc s p src).map fun x => (⟨s.sys.chip.cmp.pcc, s.sys.chip.cmp.pcc + x.1, x.2⟩ : Flight)).filterMap
      sentIn = [] := by
    rw [List.filterMap_eq_nil_iff]
    intro f hf
    obtain ⟨x, hx, rfl⟩ := List.mem_map.1 hf
    have hsend := sentInc_notSend x hx
    unfold sentIn
    split
    next l hl => exact absurd hl (hsend l)
    next => rfl
  simp only [linesUnderWay, queuedLines_eq, h.sendq, h.flight, hmesh, List.filterMap_append, hinc, List.append_nil]

/-! The line, by the state of its framing. -/

theorem fsendLine_first {line : Line} {t : Nat} {part : Part} (hq : (e.tile p).sendq.length < 8)
    (hm : (e.tile p).openMsg[port] = none) (hf : framingOk none part (natField (e.tile p).a[ac].toNat 24 6) = true) :
    fsendLine v p line t part port ac ar e = fsendFirst v p line t part port (e.tile p).a[ac] (e.tile p).a[ar] e := by
  rw [fsendLine, if_neg (by omega)]
  simp only [hm, hf, if_true]

theorem fsendLine_next {line : Line} {t : Nat} {part : Part} {m : OpenMsg} (hq : (e.tile p).sendq.length < 8)
    (hm : (e.tile p).openMsg[port] = some m)
    (hf : framingOk (some m) part (natField (e.tile p).a[ac].toNat 24 6) = true) :
    fsendLine v p line t part port ac ar e = fsendNext v p line t part port m e := by
  rw [fsendLine, if_neg (by omega)]
  simp only [hm, hf, if_true]

theorem fsendLine_broken {line : Line} {t : Nat} {part : Part} (hq : (e.tile p).sendq.length < 8)
    (hf : framingOk (e.tile p).openMsg[port] part (natField (e.tile p).a[ac].toNat 24 6) = false) :
    fsendLine v p line t part port ac ar e =
      if (e.tile p).openMsg[port].isSome then completeOpen v.val p port e else e.routeError 1 port.val v.val := by
  rw [fsendLine, if_neg (by omega)]
  simp only [hf, Bool.false_eq_true, if_false]

/-- A refused line: a route error, and the message left open, if any. -/
theorem routeError_raised (cause port tile : Nat) (c : Chip) : ⟨27, .chip⟩ ∈ (c.routeError cause port tile).fc.raised := by
  simp [Chip.routeError, Chip.raise, Collector.raise, finOf]

theorem tile_routeError (cause port tile : Nat) (c : Chip) (q : Fin 320) :
    (c.routeError cause port tile).tile q = c.tile q := rfl

theorem port_routeError (cause port tile : Nat) (c : Chip) (q : PortId) :
    (c.routeError cause port tile).port q = c.port q := by
  unfold Chip.routeError
  dsimp only
  split <;> rfl

/-! The zeros that a port is to send for a message that ends (06 R171). -/

theorem tile_addFill (tile n : Nat) (m : OpenMsg) (c : Chip) (q : Fin 320) : (addFill tile port n m c).tile q = c.tile q := by
  unfold addFill
  split <;> rfl

theorem addFill_fc (tile n : Nat) (m : OpenMsg) (c : Chip) : (addFill tile port n m c).fc = c.fc := by
  unfold addFill
  split <;> rfl

theorem addFill_fills (tile n : Nat) (m : OpenMsg) (c : Chip) : ((addFill tile port n m c).port port).fills =
    (c.port port).fills ++ (if m.discard then [] else [⟨tile, n, m.due, m.header⟩]) := by
  unfold addFill
  split
  · rw [List.append_nil]
  · rw [Chip.onPort_same]

/-- What the text asks of a line that is refused or breaks the framing. -/
def RefusedLine (s : State) (p : Fin 320) (src : LineSrc) (port : PortId) (m : Option OpenMsg) (u : State) : Prop :=
  (u.sys.chip.tile p).flight = (s.sys.chip.tile p).flight ++
    (sentInc s p src).map (fun x => ⟨s.sys.chip.cmp.pcc, s.sys.chip.cmp.pcc + x.1, x.2⟩) ∧
  (u.sys.chip.tile p).openMsg = (s.sys.chip.tile p).openMsg.set port m ∧ ⟨27, .chip⟩ ∈ u.sys.chip.fc.raised

theorem refusedLine_of {m : Option OpenMsg} {d : Chip} {t : State} (he : SourceRead s p src e)
    (hd : d.tile p = (e.tile p).setOpen port m) (hr : ⟨27, .chip⟩ ∈ d.fc.raised)
    (ht : t = { s with sys := { s.sys with chip := noteEvents v p s.sys.chip d } }) : RefusedLine s p src port m t := by
  obtain ⟨hstep, hflight⟩ := noteEvents_spec v p s.sys.chip d
  subst ht
  refine ⟨?_, ?_, by rw [noteEvents_fc]; exact hr⟩
  · show ((noteEvents v p s.sys.chip d).tile p).flight = _
    rw [hflight, hd]
    exact he.flight
  · show ((noteEvents v p s.sys.chip d).tile p).openMsg = _
    rw [hstep.same, hd]
    exact congrArg (fun o => o.set port m) he.openMsg

theorem setOpen_none {t : Tile} (h : t.openMsg[port] = none) : t.setOpen port none = t := by
  have hset : t.openMsg.set port none = t.openMsg := by rw [← h]; exact Vector.set_getElem_self port.isLt
  rw [Tile.setOpen, hset]

/-- A message with a line sent, or left out where the message is discarded, and a change of the messages open. -/
theorem fliesWith_setOpen {d : Chip} {ds : List (Nat × Dest)} (m : Option OpenMsg) (hd : TileStep p s.sys.chip d)
    (hflight : (d.tile p).flight = (s.sys.chip.tile p).flight ++
      ds.map fun x => ⟨s.sys.chip.cmp.pcc, s.sys.chip.cmp.pcc + x.1, x.2⟩) :
    FliesWith (Tile.setOpen port m) (.next { s with sys := { s.sys with
      chip := noteEvents v p s.sys.chip (d.onTile p (Tile.setOpen port m)) } }) s p ds := by
  obtain ⟨hnote, hnoteFlight⟩ := noteEvents_spec v p s.sys.chip (d.onTile p (Tile.setOpen port m))
  have hopen : TileStepWith (Tile.setOpen port m) p s.sys.chip (d.onTile p (Tile.setOpen port m)) := hd.onTile _ (by
    unfold sameTile Tile.setOpen
    rw [hd.same])
  refine fliesWith_of_step (hopen.trans hnote) ?_
  rw [hnoteFlight, tile_onTile_self]
  exact hflight

end Fsend

section Parts

variable {s : State} {v : TileId} {p : Fin 320} {pred : PReg} {src : LineSrc} {port : PortId} {ac ar : AReg} {e : Chip}

/-- FIRST opens a message, ONLY does not. -/
def openIfFirst (part : Part) (port : PortId) (p : Fin 320) (m : OpenMsg) (c : Chip) : Chip :=
  if part == .first then c.onTile p (Tile.setOpen port (some m)) else c

theorem fsendFirst_accepted {line : Line} {t : Nat} {part : Part} {a b : Word} {hd : Dword}
    (h : checkRoute e port a b = .inr hd) : fsendFirst v p line t part port a b e =
      openIfFirst part port p ⟨natField a.toNat 24 6, hd, false⟩ (sendLine v p t line (.port port (withPart hd part)) e) := by
  simp only [fsendFirst, h]
  rfl

theorem fsendFirst_refused {line : Line} {t : Nat} {part : Part} {a b : Word} {cause : Nat}
    (h : checkRoute e port a b = .inl cause) : fsendFirst v p line t part port a b e =
      openIfFirst part port p ⟨natField a.toNat 24 6, 0, true⟩ (e.routeError cause port.val v.val) := by
  simp only [fsendFirst, h]
  rfl

/-- ONLY, or FIRST, on a port to which no message is open. -/
theorem fsend_first {part : Part} (hpart : part = .only ∧ natField (s.sys.chip.tile p).a[ac].toNat 24 6 = 0 ∨
      part = .first ∧ 1 ≤ natField (s.sys.chip.tile p).a[ac].toNat 24 6)
    (h : Issues s v p pred (srcDests src)) (hq : (s.sys.chip.tile p).sendq.length < 8)
    (hnone : (s.sys.chip.tile p).openMsg[port] = none) :
    ∃ e, SourceRead s p src e ∧ exec (.fsend v pred src part port ac ar) s = .next { s with sys := { s.sys with
      chip := noteEvents v p s.sys.chip (fsendFirst v p (sentLine s p src) (sentDelay s p src) part port
        (s.sys.chip.tile p).a[ac] (s.sys.chip.tile p).a[ar] e) } } := by
  obtain ⟨e, he, hr⟩ := execFsend_runs (port := port) (ac := ac) (ar := ar) part h (by
    rcases hpart with ⟨rfl, -⟩ | ⟨rfl, -⟩ <;> simp)
  refine ⟨e, he, ?_⟩
  have hframe : framingOk none part (natField (e.tile p).a[ac].toNat 24 6) = true := by
    rw [he.word]
    rcases hpart with ⟨rfl, hlen⟩ | ⟨rfl, hlen⟩
    · simpa [framingOk] using hlen
    · simpa [framingOk] using hlen
  rw [hr, fsendLine_first (by rwa [he.sendq]) (by rwa [he.openMsg]) hframe, he.word, he.word]

/-- MIDDLE, or LAST, of the message open to a port. -/
theorem fsend_next {part : Part} {m : OpenMsg} (hpart : part = .middle ∧ 2 ≤ m.due ∨ part = .last ∧ m.due = 1)
    (h : Issues s v p pred (srcDests src)) (hq : (s.sys.chip.tile p).sendq.length < 8)
    (hsome : (s.sys.chip.tile p).openMsg[port] = some m) (hac : ac = 0) (har : ar = 0) :
    FliesWith (Tile.setOpen port (if m.due ≤ 1 then none else some { m with due := m.due - 1 }))
      (exec (.fsend v pred src part port ac ar) s) s p
      (if m.discard then sentInc s p src else sentFlights s p src (.port port (withPart m.header part))) := by
  obtain ⟨e, he, hr⟩ := execFsend_runs (port := port) (ac := ac) (ar := ar) part h (.inr (.inr ⟨hac, har⟩))
  have hframe : framingOk (some m) part (natField (e.tile p).a[ac].toNat 24 6) = true := by
    rcases hpart with ⟨rfl, hdue⟩ | ⟨rfl, hdue⟩
    · simp [framingOk, hdue]
    · simp [framingOk, hdue]
  rw [hr, fsendLine_next (by rwa [he.sendq]) (by rwa [he.openMsg]) hframe]
  cases hdiscard : m.discard with
  | true =>
    simp only [fsendNext, hdiscard, if_true]
    exact fliesWith_setOpen _ he.step he.flight
  | false =>
    obtain ⟨hstep, hflight⟩ := sendLine_room (v := v) he (.port port (withPart m.header part)) hq
    simp only [fsendNext, hdiscard, Bool.false_eq_true, if_false]
    exact fliesWith_setOpen _ hstep hflight

/-- A line that breaks the framing: source 27; an open message ends, and its port is to send its lines still due. -/
theorem fsend_broken {part : Part} (hl : part = .only ∨ part = .first ∨ (ac = 0 ∧ ar = 0))
    (h : Issues s v p pred (srcDests src)) (hq : (s.sys.chip.tile p).sendq.length < 8)
    (hf : framingOk (s.sys.chip.tile p).openMsg[port] part (natField (s.sys.chip.tile p).a[ac].toNat 24 6) = false) :
    Gives (exec (.fsend v pred src part port ac ar) s) (RefusedLine s p src port none) ∧
      ∀ m, (s.sys.chip.tile p).openMsg[port] = some m → Gives (exec (.fsend v pred src part port ac ar) s) fun u =>
        (u.sys.chip.port port).fills = (s.sys.chip.port port).fills ++
          (if m.discard then [] else [⟨v.val, linesUnderWay v.val p port s.sys.chip, m.due, m.header⟩]) := by
  obtain ⟨e, he, hr⟩ := execFsend_runs (port := port) (ac := ac) (ar := ar) part h hl
  rw [fsendLine_broken (by rwa [he.sendq]) (by rwa [he.openMsg, he.word]), he.openMsg] at hr
  cases hopen : (s.sys.chip.tile p).openMsg[port] with
  | none =>
    rw [hopen, if_neg (by simp)] at hr
    refine ⟨⟨_, hr, refusedLine_of he ?_ (routeError_raised 1 port.val v.val e) rfl⟩, fun m hm => nomatch hm⟩
    rw [setOpen_none (by rwa [he.openMsg])]
    rfl
  | some m =>
    have hcomplete : completeOpen v.val p port e = addFill v.val port (linesUnderWay v.val p port s.sys.chip) m
        ((e.routeError 1 port.val v.val).onTile p (Tile.setOpen port none)) := by
      rw [completeOpen, he.openMsg, hopen, ← he.underWay]
      rfl
    rw [hopen, if_pos (by simp), hcomplete] at hr
    refine ⟨⟨_, hr, refusedLine_of he ?_ ?_ rfl⟩, fun z hz => ⟨_, hr, ?_⟩⟩
    · rw [tile_addFill, tile_onTile_self]
      rfl
    · rw [addFill_fc]
      exact routeError_raised 1 port.val v.val e
    · cases hz
      have hnote (d : Chip) : (noteEvents v p s.sys.chip d).port port = d.port port := by
        rw [Chip.port, (noteEvents_spec v p s.sys.chip d).1.eq]
        rfl
      have hport : ((e.routeError 1 port.val v.val).onTile p (Tile.setOpen port none)).port port =
          s.sys.chip.port port := by
        refine (port_routeError 1 port.val v.val e port).trans ?_
        rw [Chip.port, he.step.eq]
        rfl
      show ((noteEvents v p s.sys.chip _).port port).fills = _
      rw [hnote, addFill_fills, hport]

end Parts

/-- Settles O20, by the state of the send queue and of the framing. -/
theorem scheduledSendsKeepFraming : Obligations.ScheduledSendsKeepFraming := by
  intro s v p pred src port ac ar h
  refine ⟨fun hq part hl => ?_, fun hq => ⟨fun hd hnone hroute => ⟨fun hlen => ?_, fun hlen => ?_⟩,
    fun m hsome hac har => ⟨fun hdue => ?_, fun hdue => ?_⟩, fun cause hnone hroute => ⟨fun hlen => ?_, fun hlen => ?_⟩,
    fun part hl hf => fsend_broken hl h hq hf⟩⟩
  · obtain ⟨e, he, hr⟩ := execFsend_runs (port := port) (ac := ac) (ar := ar) part h hl
    rw [fsendLine, if_pos (by rwa [he.sendq])] at hr
    exact lost_flies he hr
  · obtain ⟨e, he, hr⟩ := fsend_first (ar := ar) (.inl ⟨rfl, hlen⟩) h hq hnone
    obtain ⟨hstep, hflight⟩ := sendLine_room (v := v) he (.port port (withPart hd .only)) hq
    rw [hr, fsendFirst_accepted (by rwa [he.route])]
    exact flies_noted hstep hflight
  · obtain ⟨e, he, hr⟩ := fsend_first (ar := ar) (.inr ⟨rfl, hlen⟩) h hq hnone
    obtain ⟨hstep, hflight⟩ := sendLine_room (v := v) he (.port port (withPart hd .first)) hq
    rw [hr, fsendFirst_accepted (by rwa [he.route])]
    exact fliesWith_setOpen _ hstep hflight
  · have hnext := fsend_next (.inl ⟨rfl, hdue⟩) h hq hsome hac har
    rwa [if_neg (by omega)] at hnext
  · have hnext := fsend_next (.inr ⟨rfl, hdue⟩) h hq hsome hac har
    rwa [if_pos (by omega)] at hnext
  · obtain ⟨e, he, hr⟩ := fsend_first (ar := ar) (.inl ⟨rfl, hlen⟩) h hq hnone
    rw [fsendFirst_refused (by rwa [he.route])] at hr
    refine ⟨_, hr, refusedLine_of he ?_ (routeError_raised cause port.val v.val e) rfl⟩
    rw [setOpen_none (by rwa [he.openMsg])]
    rfl
  · obtain ⟨e, he, hr⟩ := fsend_first (ar := ar) (.inr ⟨rfl, hlen⟩) h hq hnone
    rw [fsendFirst_refused (by rwa [he.route])] at hr
    refine ⟨_, hr, refusedLine_of he ?_ ?_ rfl⟩
    · exact tile_onTile_self ..
    · exact routeError_raised cause port.val v.val e

end Sys2Proof.Machine
end

section
/-! PROOFS. RECV (05 R156; 04 R105, R111; 13 R360). -/

namespace Sys2Proof.Machine

section Receive

variable {s : State} {v : TileId} {p : Fin 320} {pred : PReg} {cls : RecvClass} {ch : Chan} {c d : Chip}

/-- The registers that a receive names as destinations. -/
def recvDests : LineDst → List RegName
  | .vreg r => [.v r]
  | .sram a => lineDests a

/-- The registers that a receive reads. -/
def recvReads : LineDst → List RegName
  | .vreg _ => []
  | .sram a => [.a a.aa]

/-- A receive puts its line in flight to its destination. -/
def putLine (v : TileId) (p : Fin 320) (dst : LineDst) (r : Line × Chip) : Chip :=
  match dst with
  | .vreg d => addFlight p (.v d [(0, r.1.bytes)]) (latency .nr false) r.2
  | .sram a =>
    let t := r.2.tile p
    let off := lineEA t a
    let x := claimPort v p 4 off true r.2
    let c := if x.1 then addFlight p (.sram off r.1 0xFFFFFFFF#32) (latency .nrSram (isFar off)) x.2 else x.2
    (lineInc t a).foldl (fun c d => addFlight p d (latency .al false) c) c

theorem execRecv_eq (dst : LineDst) : exec (.recv v pred cls ch dst) s =
    onChip (fun c => issue v 4 pred .nr (cls == .mesh || !isMailbox c.map v.val ch) (recvDests dst) (recvReads dst)
      (fun p c => putLine v p dst (recvLine v p ch c)) c) s := by
  rw [exec_recv]
  cases dst with
  | vreg d => rfl
  | sram a => rfl

/-- The results of a receive of a line. -/
def recvFlights (c : Chip) (p : Fin 320) (line : Line) : LineDst → List (Nat × Dest)
  | .vreg d => [(1, Dest.v d [(0, line.bytes)])]
  | .sram a => (if portFits (c.useNow p) (subBank (lineEA (c.tile p) a)) true
      then [(if isFar (lineEA (c.tile p) a) then 4 else 3, Dest.sram (lineEA (c.tile p) a) line 0xFFFFFFFF#32)] else []) ++
      (lineInc (c.tile p) a).map fun d => (1, d)

theorem latency_nrSram (far : Bool) : latency .nrSram far = if far then 4 else 3 := by cases far <;> rfl

/-- The line in flight to its destination: a step of the tile. -/
theorem putLine_spec (dst : LineDst) (l : Line) (c : Chip) : TileStep p c (putLine v p dst (l, c)) ∧
    ((putLine v p dst (l, c)).tile p).flight = (c.tile p).flight ++
      (recvFlights c p l dst).map fun x => ⟨c.cmp.pcc, c.cmp.pcc + x.1, x.2⟩ := by
  cases dst with
  | vreg r =>
    obtain ⟨hstep, hflight, -⟩ := addFlight_spec p (.v r [(0, l.bytes)]) (latency .nr false) c
    exact ⟨hstep, hflight⟩
  | sram a =>
    obtain ⟨hclaim, hclaimFlight, hfits⟩ := claimPort_spec v p 4 (lineEA (c.tile p) a) true c
    simp only [putLine, recvFlights, hfits]
    generalize (claimPort v p 4 (lineEA (c.tile p) a) true c).2 = e at hclaim hclaimFlight
    have hstore : ∃ f, f = (if portFits (c.useNow p) (subBank (lineEA (c.tile p) a)) true = true
          then addFlight p (.sram (lineEA (c.tile p) a) l 0xFFFFFFFF#32) (latency .nrSram (isFar (lineEA (c.tile p) a))) e
          else e) ∧ TileStep p c f ∧ (f.tile p).flight = (c.tile p).flight ++
        (if portFits (c.useNow p) (subBank (lineEA (c.tile p) a)) true = true
          then [(if isFar (lineEA (c.tile p) a) then 4 else 3, Dest.sram (lineEA (c.tile p) a) l 0xFFFFFFFF#32)]
          else []).map fun x => ⟨c.cmp.pcc, c.cmp.pcc + x.1, x.2⟩ := by
      refine ⟨_, rfl, ?_⟩
      split
      · obtain ⟨hadd, haddFlight, -⟩ := addFlight_spec p (.sram (lineEA (c.tile p) a) l 0xFFFFFFFF#32)
          (latency .nrSram (isFar (lineEA (c.tile p) a))) e
        refine ⟨hclaim.trans hadd, ?_⟩
        rw [haddFlight, hclaimFlight, hclaim.pcc, latency_nrSram]
        rfl
      · exact ⟨hclaim, by simpa using hclaimFlight⟩
    obtain ⟨f, hf, hstep, hflight⟩ := hstore
    obtain ⟨hinc, hincFlight⟩ := addFlights_spec p (latency .al false) (lineInc (c.tile p) a) f
    rw [← hf]
    refine ⟨hstep.trans hinc, ?_⟩
    rw [hincFlight, hflight, hstep.pcc, List.map_append, List.map_map, List.append_assoc]
    rfl

/-- The results depend on the tile's registers and the bundle's ports alone. -/
theorem recvFlights_congr {dst : LineDst} {l : Line} (ht : sameTile (c.tile p) (d.tile p))
    (hports : ∀ sub w, portFits (d.useNow p) sub w = portFits (c.useNow p) sub w) :
    recvFlights d p l dst = recvFlights c p l dst := by
  cases dst with
  | vreg r => rfl
  | sram a => simp only [recvFlights, lineEA_same a _ _ ht, lineInc_same a _ _ ht, hports]

/-! What has been raised stays raised while a line is put in flight. -/

theorem raised_tileEvent (r : Raise) (n info : Nat) (h : r ∈ c.fc.raised) : r ∈ (c.tileEvent v.val n info).fc.raised := by
  have hraise : r ∈ (c.raise n (.tile v.val)).fc.raised := by
    unfold Chip.raise Collector.raise
    split
    · exact List.mem_append_left _ h
    · exact h
  unfold Chip.tileEvent
  dsimp only
  split
  · exact hraise
  · exact hraise

theorem addFlights_fc (lam : Nat) (ds : List Dest) (c : Chip) :
    (ds.foldl (fun c d => addFlight p d lam c) c).fc = c.fc := by
  induction ds generalizing c with
  | nil => rfl
  | cons d ds ih => exact (ih _).trans rfl

theorem raised_putLine (r : Raise) (dst : LineDst) (l : Line) (h : r ∈ c.fc.raised) :
    r ∈ (putLine v p dst (l, c)).fc.raised := by
  cases dst with
  | vreg x => exact h
  | sram a =>
    have hclaim : r ∈ (claimPort v p 4 (lineEA (c.tile p) a) true c).2.fc.raised := by
      unfold claimPort
      dsimp only
      split
      · exact h
      · exact raised_tileEvent r _ _ h
    simp only [putLine, addFlights_fc]
    split
    · exact hclaim
    · exact hclaim

end Receive

section Channel

variable {s : State} {v : TileId} {p : Fin 320} {pred : PReg} {cls : RecvClass} {ch : Chan} {c d : Chip}

/-- The tile with the oldest line of a channel taken. -/
def Tile.takeLine (ch : Chan) (t : Tile) : Tile := { t with ch := t.ch.set ch (t.ch[ch].drop 1) }

/-- A receive of a channel that is not the mailbox. -/
theorem recvLine_channel (hmail : isMailbox c.map v.val ch = false) : recvLine v p ch c =
    (((c.tile p).ch[ch]).headD Line.zero,
      (if ((c.tile p).ch[ch]).isEmpty then c.tileEvent v.val 2 ch.val else c).onTile p (Tile.takeLine ch)) := by
  have htake (e : Chip) (he : e.tile p = c.tile p) :
      e.onTile p (fun t => { t with ch := t.ch.set ch (((c.tile p).ch[ch]).drop 1) }) = e.onTile p (Tile.takeLine ch) := by
    have : e.cmp.tiles[p] = c.tile p := he
    simp only [Chip.onTile, Tile.takeLine, this]
  rw [recvLine, hmail]
  simp only [Bool.false_eq_true, if_false]
  rw [htake]
  split
  · exact tile_congr (tileStep_tileEvent p v.val 2 ch.val c).2 p
  · rfl

end Channel

section Mailbox

variable {s : State} {v : TileId} {p : Fin 320} {pred : PReg} {ch : Chan} {c d : Chip}

theorem hifDrop_mailbox (q : QpId) (c : Chip) :
    (c.hifDrop q).hif.mailbox = c.hif.mailbox ∧ (c.hifDrop q).cmp = c.cmp := by
  unfold Chip.hifDrop Chip.hifErr
  dsimp only
  split
  · exact ⟨rfl, rfl⟩
  · simp only [Chip.raise_hif, Chip.raise_cmp, and_true]
    split <;> rfl

/-- A completion waits in the completion buffer or is dropped: neither touches the mailbox or a tile. -/
theorem postCompletion_mailbox (q : QpId) (cid status r0 r1 r2 : Nat) (c : Chip) :
    (postCompletion q cid status r0 r1 r2 c).hif.mailbox = c.hif.mailbox ∧
      (postCompletion q cid status r0 r1 r2 c).cmp = c.cmp := by
  unfold postCompletion postFrom
  dsimp only
  split
  · exact ⟨rfl, rfl⟩
  · split
    · exact hifDrop_mailbox q c
    · split
      · unfold Chip.hifErr
        simp only [Chip.raise_hif, Chip.raise_cmp, and_true]
        split <;> rfl
      · exact ⟨rfl, rfl⟩

/-- A line of the mailbox that a receive can take now. -/
def mailReady (c : Chip) (x : MailLine) : Bool := decide (x.readyAt ≤ c.cmp.cycles)

/-- A receive of a mailbox channel takes the oldest line readable now, and touches no tile. -/
theorem mailPop_spec (c : Chip) :
    (mailPop c).1 = ((c.hif.mailbox.find? (mailReady c)).map (·.line)).getD Line.zero ∧
      (mailPop c).2.hif.mailbox = c.hif.mailbox.eraseP (mailReady c) ∧ (mailPop c).2.cmp = c.cmp := by
  generalize hr : mailPop c = r
  unfold mailPop at hr
  extract_lets ready at hr
  split at hr
  next hnone =>
    have hnone : c.hif.mailbox.find? (mailReady c) = none := hnone
    subst hr
    refine ⟨by rw [hnone]; rfl, ?_, rfl⟩
    exact (List.eraseP_of_forall_not fun a ha => by simpa using List.find?_eq_none.1 hnone a ha).symm
  next x hsome =>
    have hsome : c.hif.mailbox.find? (mailReady c) = some x := hsome
    subst hr
    rw [hsome]
    refine ⟨rfl, ?_⟩
    dsimp only
    split
    · exact postCompletion_mailbox ..
    · exact ⟨rfl, rfl⟩

/-- A receive of a mailbox channel is of the mailbox. -/
theorem recvLine_mailbox (hmail : isMailbox c.map v.val ch = true) : recvLine v p ch c = mailPop c := by
  rw [recvLine, hmail]
  rfl

/-! An illegal bundle leaves the mailbox alone. -/

theorem undoEvents_hif (v : TileId) (u : BundleUse) (c : Chip) : (undoEvents v u c).hif = c.hif := by
  refine foldl_keeps Chip.hif _ (fun x n => ?_) u.raised c
  unfold unraise
  split <;> rfl

theorem undoRamp_hif (x : QuadId × Forecast × Option Forecast) (c : Chip) : (undoRamp x c).hif = c.hif := by
  unfold undoRamp
  dsimp only
  split <;> rfl

theorem onActivity_hif (f : Nat → Nat) (c : Chip) : (onActivity p f c).hif = c.hif := by
  unfold onActivity
  split <;> rfl

theorem tileEvent_hif (v n info : Nat) (c : Chip) : (c.tileEvent v n info).hif = c.hif := by
  unfold Chip.tileEvent
  dsimp only
  split <;> rfl

theorem testFlights_hif (u : BundleUse) (c : Chip) : (testFlights p u c).hif = c.hif :=
  foldl_keeps Chip.hif (fun (c : Chip) (kx : KReg × Word) => addFlight p (.k kx.1 kx.2) (latency .ku false) c)
    (fun _ _ => rfl) _ c

theorem illegalBundle_hif (slot : Nat) (c : Chip) : (illegalBundle v p slot c).hif = c.hif := by
  unfold illegalBundle
  extract_lets u none u' c1 c2 cmp c3 c4
  have h1 : c1.hif = c.hif := (foldl_keeps Chip.hif _ (fun x y => undoRamp_hif y x) u.ramps _).trans
    ((onActivity_hif _ _).trans (undoEvents_hif v u c))
  have h4 : c4.hif = c3.hif := by
    unfold c4
    split
    · exact testFlights_hif ..
    · rfl
  rw [tileEvent_hif, h4]
  exact h1

theorem illegalBundle_raised (slot : Nat) (c : Chip) : ⟨4, .tile v.val⟩ ∈ (illegalBundle v p slot c).fc.raised :=
  tileEvent_raised (v := v) 4 _ _

end Mailbox

section Settle

variable {s : State} {v : TileId} {p : Fin 320} {pred : PReg} {cls : RecvClass} {ch : Chan} {c d : Chip}

/-- A receive of a channel that is not the mailbox. -/
theorem recv_channel (hmail : isMailbox s.sys.chip.map v.val ch = false) (dst : LineDst)
    (h : Issues s v p pred (recvDests dst)) :
    FliesWith (Tile.takeLine ch) (exec (.recv v pred cls ch dst) s) s p
        (recvFlights s.sys.chip p (((s.sys.chip.tile p).ch[ch]).headD Line.zero) dst) ∧
      ((s.sys.chip.tile p).ch[ch] = [] →
        ∃ u, exec (.recv v pred cls ch dst) s = .next u ∧ ⟨2, .tile v.val⟩ ∈ u.sys.chip.fc.raised) := by
  have hmailOf {d : Chip} (hd : IssuedFrom p s.sys.chip d) : isMailbox d.map v.val ch = false := by
    rw [hd.step.eq]
    exact hmail
  have hqueue {d : Chip} (hd : IssuedFrom p s.sys.chip d) : (d.tile p).ch = (s.sys.chip.tile p).ch := by
    rw [hd.step.same]
  have hexec : exec (.recv v pred cls ch dst) s = onChip (issue v 4 pred .nr true (recvDests dst) (recvReads dst)
      (fun p c => putLine v p dst (recvLine v p ch c))) s := by
    rw [execRecv_eq]
    simp only [onChip_next, hmail, Bool.not_false, Bool.or_true]
  rw [hexec]
  refine ⟨issue_fliesWith h fun d hd => ?_, fun hempty => ⟨_, rfl, ?_⟩⟩
  · simp only [recvLine_channel (hmailOf hd), hqueue hd]
    obtain ⟨e, he, hstep, huse⟩ : ∃ e, e = (if ((s.sys.chip.tile p).ch[ch]).isEmpty then d.tileEvent v.val 2 ch.val
        else d) ∧ TileStep p s.sys.chip e ∧ e.cmp = d.cmp := by
      refine ⟨_, rfl, ?_⟩
      split
      · obtain ⟨hevent, hcmp⟩ := tileStep_tileEvent p v.val 2 ch.val d
        exact ⟨hd.step.trans hevent, hcmp⟩
      · exact ⟨hd.step, rfl⟩
    rw [← he]
    have htile : (e.tile p) = d.tile p := tile_congr huse p
    have htake : TileStepWith (Tile.takeLine ch) p s.sys.chip (e.onTile p (Tile.takeLine ch)) := by
      refine hstep.onTile _ ?_
      have hsame := hstep.same
      unfold sameTile at hsame ⊢
      rw [hsame]
      rfl
    obtain ⟨hput, hflight⟩ := putLine_spec (v := v) (p := p) dst (((s.sys.chip.tile p).ch[ch]).headD Line.zero)
      (e.onTile p (Tile.takeLine ch))
    refine ⟨htake.trans hput, ?_⟩
    have huseNow : (e.onTile p (Tile.takeLine ch)).useNow p = d.useNow p := by
      refine useNow_congr ?_ ?_ (by rw [Chip.onTile_cmp_pcc, huse])
      · rw [tile_onTile_self, htile]; rfl
      · rw [tile_onTile_self, htile]; rfl
    have htaken : (e.onTile p (Tile.takeLine ch)).tile p = Tile.takeLine ch (e.tile p) := tile_onTile_self ..
    have hflights (l : Line) : recvFlights (e.onTile p (Tile.takeLine ch)) p l dst = recvFlights s.sys.chip p l dst := by
      rw [show recvFlights (e.onTile p (Tile.takeLine ch)) p l dst = recvFlights d p l dst from ?_]
      · exact recvFlights_congr hd.step.same hd.ports
      · cases dst with
        | vreg r => rfl
        | sram a => simp only [recvFlights, huseNow, htaken, htile]; rfl
    rw [hflight, hflights, htaken, htile, Chip.onTile_cmp_pcc, hstep.pcc]
    exact congrArg (· ++ _) hd.flight
  · simp only [Sys.onChip]
    rw [issue_runs s v p 4 pred .nr (recvDests dst) (recvReads dst) _ h, noteEvents_fc]
    have hd := issued_from v p 4 pred .nr (recvDests dst) (recvReads dst) s.sys.chip
    generalize issued v p 4 pred .nr (recvDests dst) (recvReads dst) s.sys.chip = d at hd
    simp only [recvLine_channel (hmailOf hd), hqueue hd, hempty]
    exact raised_putLine _ dst _ (tileEvent_raised (v := v) 2 ch.val d)

/-- A receive of the mailbox whose class is not WAIT. -/
theorem recv_mailbox (hmail : isMailbox s.sys.chip.map v.val ch = true) (dst : LineDst)
    (h : Issues s v p pred (recvDests dst)) :
    Gives (exec (.recv v pred .mesh ch dst) s) fun u =>
      keepsMemory s u ∧ u.sys.tray = s.sys.tray ∧ u.sys.out = s.sys.out ∧
      u.sys.chip.hif.mailbox = s.sys.chip.hif.mailbox.eraseP (mailReady s.sys.chip) ∧
      (∀ q, q ≠ p → u.sys.chip.tile q = s.sys.chip.tile q) ∧ sameTile (s.sys.chip.tile p) (u.sys.chip.tile p) ∧
      (u.sys.chip.tile p).flight = (s.sys.chip.tile p).flight ++ (recvFlights s.sys.chip p
        (((s.sys.chip.hif.mailbox.find? (mailReady s.sys.chip)).map (·.line)).getD Line.zero) dst).map
          fun x => ⟨s.sys.chip.cmp.pcc, s.sys.chip.cmp.pcc + x.1, x.2⟩ := by
  have hexec : exec (.recv v pred .mesh ch dst) s = onChip (issue v 4 pred .nr true (recvDests dst) (recvReads dst)
      (fun p c => putLine v p dst (recvLine v p ch c))) s := by
    rw [execRecv_eq]
    rfl
  have hd := issued_from v p 4 pred .nr (recvDests dst) (recvReads dst) s.sys.chip
  have hrun := issue_runs s v p 4 pred .nr (recvDests dst) (recvReads dst)
    (fun p c => putLine v p dst (recvLine v p ch c)) h
  generalize issued v p 4 pred .nr (recvDests dst) (recvReads dst) s.sys.chip = d at hd hrun
  have hmailD : isMailbox d.map v.val ch = true := by rw [hd.step.eq]; exact hmail
  obtain ⟨hline, hbox, hcmp⟩ := mailPop_spec d
  have hhif : d.hif = s.sys.chip.hif := by rw [hd.step.eq]
  have hready : mailReady d = mailReady s.sys.chip := by
    funext x
    rw [mailReady, mailReady, hd.step.eq]
  rw [recvLine_mailbox hmailD, show mailPop d = ((mailPop d).1, (mailPop d).2) from rfl, hline, hready, hhif] at hrun
  rw [hready, hhif] at hbox
  generalize (mailPop d).2 = e at hbox hcmp hrun
  obtain ⟨hput, hflight⟩ := putLine_spec (v := v) (p := p) dst
    (((s.sys.chip.hif.mailbox.find? (mailReady s.sys.chip)).map (·.line)).getD Line.zero) e
  obtain ⟨hnote, hnoteFlight⟩ := noteEvents_spec v p s.sys.chip (putLine v p dst
    (((s.sys.chip.hif.mailbox.find? (mailReady s.sys.chip)).map (·.line)).getD Line.zero, e))
  have hstep := hput.trans hnote
  have htile (q : Fin 320) : e.tile q = d.tile q := tile_congr hcmp q
  rw [hexec, onChip_next, hrun]
  refine ⟨_, rfl, ⟨rfl, rfl⟩, rfl, rfl, ?_, fun q hq => ?_, ?_, ?_⟩
  · rw [← hbox, hstep.eq]
  · exact (hstep.others q hq).trans ((htile q).trans (hd.step.others q hq))
  · have hs1 := hd.step.same
    have hs2 := hstep.same
    rw [htile] at hs2
    unfold sameTile at *
    rw [hs2, hs1]
  · have huse : e.useNow p = d.useNow p := useNow_congr (by rw [htile]) (by rw [htile]) (by rw [hcmp])
    rw [hnoteFlight, hflight, htile, hd.flight, hcmp, hd.step.pcc]
    rw [recvFlights_congr (c := s.sys.chip) (by rw [htile]; exact hd.step.same) (by rw [huse]; exact hd.ports)]

/-- A receive of the mailbox with class WAIT makes the bundle illegal. -/
theorem recv_mailbox_wait (hmail : isMailbox s.sys.chip.map v.val ch = true) (dst : LineDst)
    (h : Issues s v p pred (recvDests dst)) :
    Gives (exec (.recv v pred .wait ch dst) s) fun u =>
      keepsMemory s u ∧ u.sys.chip.hif.mailbox = s.sys.chip.hif.mailbox ∧ ⟨4, .tile v.val⟩ ∈ u.sys.chip.fc.raised := by
  obtain ⟨hp, hvoid, -, -⟩ := h
  have hexec : exec (.recv v pred .wait ch dst) s = .next { s with sys := { s.sys with
      chip := illegalBundle v p (illegalSlot (s.sys.chip.useNow p) 4 false (recvDests dst))
        (s.sys.chip.onTile p fun t => { t with use := s.sys.chip.useNow p }) } } := by
    rw [execRecv_eq, onChip_next, hmail]
    simp [issue, hp, hvoid, show (RecvClass.wait == RecvClass.mesh) = false from rfl]
  rw [hexec]
  exact ⟨_, rfl, ⟨rfl, rfl⟩, congrArg HostIf.mailbox (illegalBundle_hif _ _), illegalBundle_raised _ _⟩

/-- Settles O21: of a channel a receive takes the oldest line, of the mailbox the oldest one readable now. -/
theorem receiveTakesOldestLine : Obligations.ReceiveTakesOldestLine := by
  intro s v p pred cls ch
  refine ⟨fun hmail dst h => ?_, fun hmail dst h => ?_⟩
  · cases dst with
    | vreg r => exact recv_channel hmail (.vreg r) h
    | sram a => exact recv_channel hmail (.sram a) h
  · cases dst with
    | vreg r => exact ⟨recv_mailbox hmail (.vreg r) h, recv_mailbox_wait hmail (.vreg r) h⟩
    | sram a => exact ⟨recv_mailbox hmail (.sram a) h, recv_mailbox_wait hmail (.sram a) h⟩

end Settle

end Sys2Proof.Machine
end

section
/-! PROOFS. What waiting changes (03 section 9; 11 section 2), and what a frame poured by the ports changes (11 R291, R292). -/

namespace Sys2Proof.Machine

section Waiting

variable (y : Sys) (n : Nat)

/-! Every way of waiting is a wait up to some time. -/

theorem awaitIf_eq (b : Bool) : ∃ m, y.awaitIf b n = y.await m := by
  cases b with
  | false => exact ⟨y.now, (await_le y y.now le_rfl).symm⟩
  | true => exact ⟨n, rfl⟩

theorem awaitCores_eq : ∃ m, y.awaitCores n = y.await m := awaitIf_eq ..

theorem awaitCycle_eq : ∃ m, y.awaitCycle n = y.await m := awaitCores_eq ..

theorem awaitView_eq : ∃ m, y.awaitView n = y.await m := awaitIf_eq ..

theorem awaitWork_eq : ∃ m, y.awaitWork n = y.await m := by
  unfold Sys.awaitWork
  split
  · exact ⟨y.now, (await_le y y.now le_rfl).symm⟩
  · exact awaitCores_eq ..

/-- A count that has been reached is not waited for. -/
theorem awaitCycle_of_le (h : n ≤ y.chip.cmp.cycles) : y.awaitCycle n = y := by
  have : n - y.chip.cmp.cycles = 0 := Nat.sub_eq_zero_of_le h
  simp [Sys.awaitCycle, Sys.awaitCores, Sys.awaitIf, this]

/-- A core view that has been reached is not waited for. -/
theorem awaitView_of_le (h : n ≤ y.chip.time.coreView.toNat) : y.awaitView n = y := by
  have : ¬y.chip.time.coreView.toNat < n := Nat.not_lt.2 h
  simp [Sys.awaitView, Sys.awaitIf, this]

/-! What waiting leaves of the chip. -/

@[simp] theorem await_fc : (y.await n).chip.fc = y.chip.fc := by
  obtain ⟨_, _, _, _, _, h⟩ := await_chip y n; rw [h]
@[simp] theorem await_chk : (y.await n).chip.chk = y.chip.chk := by
  obtain ⟨_, _, _, _, _, h⟩ := await_chip y n; rw [h]
@[simp] theorem await_fab : (y.await n).chip.fab = y.chip.fab := by
  obtain ⟨_, _, _, _, _, h⟩ := await_chip y n; rw [h]
@[simp] theorem await_hif : (y.await n).chip.hif = y.chip.hif := by
  obtain ⟨_, _, _, _, _, h⟩ := await_chip y n; rw [h]
@[simp] theorem await_pwr : (y.await n).chip.pwr = y.chip.pwr := by
  obtain ⟨_, _, _, _, _, h⟩ := await_chip y n; rw [h]
@[simp] theorem await_mgt : (y.await n).chip.mgt = y.chip.mgt := by
  obtain ⟨_, _, _, _, _, h⟩ := await_chip y n; rw [h]
@[simp] theorem await_cmp_tiles : (y.await n).chip.cmp.tiles = y.chip.cmp.tiles := by
  obtain ⟨_, _, _, _, _, h⟩ := await_chip y n; rw [h]
@[simp] theorem await_cmp_holds : (y.await n).chip.cmp.holds = y.chip.cmp.holds := by
  obtain ⟨_, _, _, _, _, h⟩ := await_chip y n; rw [h]
@[simp] theorem await_cmp_waits : (y.await n).chip.cmp.waits = y.chip.cmp.waits := by
  obtain ⟨_, _, _, _, _, h⟩ := await_chip y n; rw [h]
@[simp] theorem await_cmp_pcc : (y.await n).chip.cmp.pcc = y.chip.cmp.pcc := by
  obtain ⟨_, _, _, _, _, h⟩ := await_chip y n; rw [h]
@[simp] theorem await_cmp_started : (y.await n).chip.cmp.started = y.chip.cmp.started := by
  obtain ⟨_, _, _, _, _, h⟩ := await_chip y n; rw [h]
@[simp] theorem await_cmp_mesh : (y.await n).chip.cmp.mesh = y.chip.cmp.mesh := by
  obtain ⟨_, _, _, _, _, h⟩ := await_chip y n; rw [h]

theorem await_sameMap : sameMap y.chip (y.await n).chip := by
  obtain ⟨_, _, _, _, _, h⟩ := await_chip y n
  unfold sameMap
  rw [h]

@[simp] theorem await_map_run : (y.await n).chip.map.run = y.chip.map.run := by rw [await_sameMap y n]

end Waiting

section Pour

variable (c : Chip)

/-- Every port of a list changed by itself. -/
theorem foldl_onPort (g : PortId → Port → Port) (l : List PortId) (hl : l.Nodup) : ∀ c : Chip,
    l.foldl (fun d p => d.onPort p (g p)) c = { c with fab := { c.fab with
      ports := Vector.ofFn fun q => if q ∈ l then g q (c.port q) else c.port q } } := by
  induction l with
  | nil => intro c; simp [Chip.port, Vector.ofFn_getElem]
  | cons p ps ih =>
    intro c
    obtain ⟨hp, hps⟩ := List.nodup_cons.1 hl
    rw [List.foldl_cons, ih hps]
    have : (Vector.ofFn fun q => if q ∈ ps then g q ((c.onPort p (g p)).port q) else (c.onPort p (g p)).port q) =
        Vector.ofFn fun q => if q ∈ p :: ps then g q (c.port q) else c.port q := by
      congr 1
      funext q
      by_cases hq : q = p
      · subst hq
        simp [hp, Chip.onPort_same]
      · simp [hq, Chip.onPort_other]
    simp only [this]
    rfl

theorem onPort_congr {p : PortId} {f g : Port → Port} (h : f (c.port p) = g (c.port p)) : c.onPort p f = c.onPort p g := by
  unfold Chip.onPort
  rw [show f c.fab.ports[p] = g c.fab.ports[p] from h]

theorem onPort_id {p : PortId} {f : Port → Port} (h : f (c.port p) = c.port p) : c.onPort p f = c := by
  rw [onPort_congr c (g := fun x => x) h]
  simp [Chip.onPort]

/-- A port as a pour of a frame leaves it. -/
def poured (k : Fin 4) (f : Frame) (except : Option PortId) (p : PortId) (x : Port) : Port :=
  if x.st == .up && except != some p then { x with time := x.time.set k (some f) } else x

/-- A pour puts its frame on every UP port but one, and changes nothing else. -/
theorem pourOn_eq (k : Fin 4) (f : Frame) (except : Option PortId) : pourOn k f except c =
    { c with fab := { c.fab with ports := Vector.ofFn fun q => poured k f except q (c.port q) } } := by
  have hstep : pourOn k f except c = allPorts.foldl (fun d p => d.onPort p (poured k f except p)) c := by
    unfold pourOn
    congr 1
    funext d p
    split
    next h => exact onPort_congr d (if_pos h).symm
    next h => exact (onPort_id d (if_neg h)).symm
  rw [hstep, allPorts, foldl_onPort _ _ (List.nodup_finRange 8)]
  simp

end Pour

end Sys2Proof.Machine
end

section
/-! PROOFS. What the end of a run leaves (03 R88; 06 R171; 11 R299, R300; 13 R356, R362). -/

namespace Sys2Proof.Machine

section RunEnd

variable {c d e : Chip}

/-- Of the chip only the tiles, the fabric, the host interface, and what is raised, which grows; the bay stays. -/
structure Completes (c d : Chip) : Prop where
  eq : d = { c with cmp := { c.cmp with tiles := d.cmp.tiles }, fc := { c.fc with raised := d.fc.raised }, fab := d.fab,
                    hif := d.hif }
  raised : ∀ r ∈ c.fc.raised, r ∈ d.fc.raised
  slot : d.fab.slot = c.fab.slot

theorem Completes.refl (c : Chip) : Completes c c := ⟨rfl, fun _ h => h, rfl⟩

theorem Completes.trans (h : Completes c d) (k : Completes d e) : Completes c e :=
  ⟨by rw [k.eq, h.eq], fun r hr => k.raised r (h.raised r hr), k.slot.trans h.slot⟩

theorem completes_hif (h : HostIf) (c : Chip) : Completes c { c with hif := h } := ⟨rfl, fun _ h => h, rfl⟩

theorem completes_fab (f : Fabric) (c : Chip) (h : f.slot = c.fab.slot) : Completes c { c with fab := f } :=
  ⟨rfl, fun _ h => h, h⟩

/-- A list of steps. -/
theorem completes_foldl {β : Type} (f : Chip → β → Chip) (h : ∀ c b, Completes c (f c b)) (l : List β) (c : Chip) :
    Completes c (l.foldl f c) := by
  induction l generalizing c with
  | nil => exact .refl c
  | cons b l ih => exact (h c b).trans (ih _)

theorem completes_ite {p : Prop} [Decidable p] {a b : Chip} (ha : Completes c a) (hb : Completes c b) :
    Completes c (if p then a else b) := by
  split
  · exact ha
  · exact hb

theorem raised_raise (n : Nat) (o : Owner) (c : Chip) (r : Raise) (h : r ∈ c.fc.raised) : r ∈ (c.raise n o).fc.raised := by
  unfold Chip.raise Collector.raise
  split
  · exact List.mem_append_left _ h
  · exact h

theorem completes_raise (n : Nat) (o : Owner) (c : Chip) : Completes c (c.raise n o) := by
  refine ⟨?_, raised_raise n o c, rfl⟩
  unfold Chip.raise Collector.raise
  split <;> rfl

theorem completes_routeError (cause port tile : Nat) (c : Chip) : Completes c (c.routeError cause port tile) := by
  unfold Chip.routeError
  extract_lets f f1 f2
  have hslot : f2.slot = c.fab.slot := by
    unfold f2
    split <;> rfl
  exact (completes_fab f2 c hslot).trans (completes_raise ..)

theorem completes_completeOpen (v : Nat) (p : Fin 320) (port : PortId) (c : Chip) : Completes c (completeOpen v p port c) := by
  unfold completeOpen
  split
  · exact .refl c
  next m _ =>
    refine (completes_routeError 1 port.val v c).trans (Completes.trans (d := (c.routeError 1 port.val v).onTile p
      fun t => { t with openMsg := t.openMsg.set port none }) ⟨rfl, fun _ h => h, rfl⟩ ?_)
    unfold addFill
    split
    · exact .refl _
    · exact ⟨rfl, fun _ h => h, rfl⟩

theorem completes_completeAllOpen (v : Nat) (p : Fin 320) (c : Chip) : Completes c (completeAllOpen v p c) :=
  completes_foldl (fun c port => completeOpen v p port c) (fun c port => completes_completeOpen v p port c) _ c

theorem completes_completeEveryOpen (c : Chip) : Completes c (completeEveryOpen c) := by
  refine completes_foldl _ (fun c v => ?_) _ c
  split
  · exact completes_completeAllOpen ..
  · exact .refl c

theorem completes_hifErr (src cause : Nat) (q : QpId) (c : Chip) : Completes c (c.hifErr src cause q) :=
  (completes_hif _ c).trans (completes_raise src .hif _)

theorem completes_hifDrop (q : QpId) (c : Chip) : Completes c (c.hifDrop q) := by
  unfold Chip.hifDrop
  exact completes_ite (completes_hif _ c) ((completes_hif _ c).trans ((completes_hif _ _).trans (completes_hifErr ..)))

theorem completes_postCompletion (q : QpId) (cid status r0 r1 r2 : Nat) (c : Chip) :
    Completes c (postCompletion q cid status r0 r1 r2 c) := by
  unfold postCompletion postFrom
  exact completes_ite (.refl c) (completes_ite (completes_hifDrop q c)
    (completes_ite (completes_hifErr ..) (completes_hif _ c)))

theorem completes_endEntry (q : QpId) (e : QEntry) (status r0 r1 r2 : Nat) (c : Chip) :
    Completes c (endEntry q e status r0 r1 r2 c) :=
  (completes_hif _ c).trans (completes_postCompletion ..)

theorem completes_endLaunch (aborted : Bool) (c : Chip) : Completes c (endLaunch aborted c) :=
  completes_foldl _ (fun c _ => completes_foldl _ (fun _ _ => completes_ite (completes_endEntry ..) (completes_endEntry ..)) _ c)
    _ c

theorem completes_hifRunEnd (aborted : Bool) (c : Chip) : Completes c (hifRunEnd aborted c) :=
  ((completes_endLaunch aborted c).trans (completes_foldl _ (fun _ _ => completes_postCompletion ..) _ _)).trans
    (completes_hif _ _)

/-- What is left when a run has ended. -/
structure RunLeft (c d : Chip) : Prop where
  map : d.map = { c.map with run := false, tracing := false }
  time : d.time = { c.time with launch := none, holdSince := none }
  raised : ∀ r ∈ c.fc.raised, r ∈ d.fc.raised
  fc : d.fc = { c.fc with raised := d.fc.raised }
  slot : d.fab.slot = c.fab.slot
  chk : d.chk = c.chk
  mgt : d.mgt = c.mgt

theorem applyGroups_eq (c : Chip) : ∃ pwr, applyGroups c = { c with pwr := pwr } := ⟨_, rfl⟩

theorem leaveRun_left (aborted : Bool) (h : c.map.run = true) : RunLeft c (leaveRun aborted c) := by
  obtain ⟨heq, hraised, hslot⟩ := (completes_completeEveryOpen c).trans (completes_hifRunEnd aborted _)
  unfold leaveRun
  rw [if_neg (by rw [h]; exact Bool.false_ne_true)]
  dsimp only
  generalize hifRunEnd aborted (completeEveryOpen c) = d at heq hraised hslot ⊢
  have hmap : d.map = c.map := by rw [heq]
  have htime : d.time = c.time := by rw [heq]
  have hfc : d.fc = { c.fc with raised := d.fc.raised } := by rw [heq]
  have hchk : d.chk = c.chk := by rw [heq]
  have hmgt : d.mgt = c.mgt := by rw [heq]
  constructor
  case map => rw [← hmap]; rfl
  case time => rw [← htime]; rfl
  case raised => exact hraised
  case fc => exact hfc
  case slot => exact hslot
  case chk => exact hchk
  case mgt => exact hmgt

/-- An abort of the own run leaves it, with its cause recorded. -/
theorem startAbort_left (cause : Nat) (h : c.map.run = true) : (startAbort cause c).map.run = false ∧
    (startAbort cause c).time.abortCause = BitVec.ofNat 4 cause ∧ (startAbort cause c).time.abortValid = true ∧
    ∀ r ∈ c.fc.raised, r ∈ (startAbort cause c).fc.raised := by
  have hrecorded (d : Chip) (hrun : d.map.run = true) (hcause : d.time.abortCause = BitVec.ofNat 4 cause)
      (hvalid : d.time.abortValid = true) (hfc : d.fc = c.fc) : (leaveRun true d).map.run = false ∧
      (leaveRun true d).time.abortCause = BitVec.ofNat 4 cause ∧ (leaveRun true d).time.abortValid = true ∧
      ∀ r ∈ c.fc.raised, r ∈ (leaveRun true d).fc.raised := by
    obtain ⟨hmap, htime, hraised, -⟩ := leaveRun_left true hrun
    rw [hmap, htime]
    exact ⟨rfl, hcause, hvalid, fun r hr => hraised r (hfc ▸ hr)⟩
  unfold startAbort
  rw [h]
  split
  next id _ _ _ _ =>
    unfold pourAbort
    rw [pourOn_eq]
    exact hrecorded _ h rfl rfl rfl
  next => exact hrecorded _ h rfl rfl rfl
  next => contradiction

end RunEnd

end Sys2Proof.Machine
end

section
/-! PROOFS. Landings, the look-ahead check, and the ends of holds and waits (04 R99 to R105; 06 R177). -/

namespace Sys2Proof.Machine

section Landing

variable {s : State} {p : Fin 320} {y z : Sys} {m m' : List Host.Cell}

/-- What lands in tile p leaves the other tiles, what is in flight, the outputs and the tray. -/
structure LandsIn (p : Fin 320) (y z : Sys) : Prop where
  flight : (z.chip.tile p).flight = (y.chip.tile p).flight
  others : ∀ q, q ≠ p → z.chip.tile q = y.chip.tile q
  out : z.out = y.out
  tray : z.tray = y.tray

theorem landReg_flight (d : Dest) (t : Tile) : (landReg d t).flight = t.flight := by
  cases d with
  | pd r x => unfold landReg; dsimp only; split <;> rfl
  | _ => rfl

theorem landOne_sram (off : Nat) (l : Line) (mask : Word) (m : List Host.Cell) (y : Sys) :
    landOne p (.sram off l mask) m y = landStore p off l mask m y := rfl

theorem landOne_reg {d : Dest} (h : ∀ off l mask, d ≠ .sram off l mask) (m : List Host.Cell) (y : Sys) :
    landOne p d m y = (m, y.onChip fun c => c.onTile p (landReg d)) := by
  cases d with
  | sram off l mask => exact absurd rfl (h off l mask)
  | _ => rfl

theorem landOne_landsIn (d : Dest) (m : List Host.Cell) (y : Sys) : LandsIn p y (landOne p d m y).2 := by
  have hreg : LandsIn p y (y.onChip fun c => c.onTile p (landReg d)) := by
    refine ⟨?_, fun q hq => tile_onTile_other _ _ _ _ hq, rfl, rfl⟩
    show ((y.chip.onTile p (landReg d)).tile p).flight = _
    rw [tile_onTile_self, landReg_flight]
  cases d with
  | sram off l mask =>
    refine ⟨?_, fun q hq => tile_onTile_other _ _ _ _ hq, rfl, rfl⟩
    exact (congrArg Tile.flight (tile_onTile_self _ _ _)).trans rfl
  | _ => exact hreg

theorem foldl_landOne_landsIn (fs : List Flight) (m : List Host.Cell) (y : Sys) :
    LandsIn p y (fs.foldl (fun acc f => landOne p f.dest acc.1 acc.2) (m, y)).2 := by
  induction fs generalizing m y with
  | nil => exact ⟨rfl, fun _ _ => rfl, rfl, rfl⟩
  | cons f fs ih =>
    obtain ⟨hflight, hothers, hout, htray⟩ := landOne_landsIn (p := p) f.dest m y
    obtain ⟨kflight, kothers, kout, ktray⟩ := ih (landOne p f.dest m y).1 (landOne p f.dest m y).2
    exact ⟨kflight.trans hflight, fun q hq => (kothers q hq).trans (hothers q hq), kout.trans hout, ktray.trans htray⟩

/-- The system with the due results of a tile taken from its flights. -/
def Sys.takeDue (p : Fin 320) (y : Sys) : Sys :=
  y.onChip fun c => c.onTile p fun t => { t with flight := (y.chip.tile p).flight.filter fun f => !flightDue c f }

theorem landDue_eq (m : List Host.Cell) (y : Sys) : landDue p m y =
    (sortFlights ((y.chip.tile p).flight.filter (flightDue y.chip))).foldl
      (fun acc f => landOne p f.dest acc.1 acc.2) (m, y.takeDue p) := rfl

theorem exec_resultLanding_live {v : TileId} (h : s.sys.chip.liveTile v.val = some p) :
    exec (.resultLanding v) s =
      .next { s with mem := (landDue p s.mem s.sys).1, sys := (landDue p s.mem s.sys).2 } := by
  rw [exec_resultLanding, execResultLanding, onMemSys]
  simp only [h]

theorem landDue_landsIn (m : List Host.Cell) (y : Sys) : LandsIn p (y.takeDue p) (landDue p m y).2 := by
  rw [landDue_eq]
  exact foldl_landOne_landsIn ..

theorem takeDue_tile (y : Sys) : (y.takeDue p).chip.tile p =
    { y.chip.tile p with flight := (y.chip.tile p).flight.filter fun f => !flightDue y.chip f } := by
  show (y.chip.onTile p _).tile p = _
  rw [tile_onTile_self]

/-- One due result lands by itself. -/
theorem landDue_one {f : Flight} (h : (y.chip.tile p).flight.filter (flightDue y.chip) = [f]) :
    landDue p m y = landOne p f.dest m (y.takeDue p) := by
  rw [landDue_eq, h]
  rfl

/-- RESULT_LANDING: every due result lands, and the others stay in flight. -/
theorem resultLanding_takes {v : TileId} (h : s.sys.chip.liveTile v.val = some p) :
    Gives (exec (.resultLanding v) s) fun t =>
      (t.sys.chip.tile p).flight = (s.sys.chip.tile p).flight.filter (fun f => !flightDue s.sys.chip f) ∧
      (∀ q, q ≠ p → t.sys.chip.tile q = s.sys.chip.tile q) ∧ t.sys.out = s.sys.out ∧ t.sys.tray = s.sys.tray := by
  obtain ⟨hflight, hothers, hout, htray⟩ := landDue_landsIn (p := p) s.mem s.sys
  rw [exec_resultLanding_live h]
  refine ⟨_, rfl, hflight.trans ?_, fun q hq => (hothers q hq).trans (tile_onTile_other _ _ _ _ hq), hout, htray⟩
  rw [takeDue_tile]

/-- One due register result writes its register. -/
theorem resultLanding_reg {v : TileId} {f : Flight} (h : s.sys.chip.liveTile v.val = some p)
    (hf : (s.sys.chip.tile p).flight.filter (flightDue s.sys.chip) = [f]) (hreg : ∀ off l mask, f.dest ≠ .sram off l mask) :
    exec (.resultLanding v) s = .next (s.withChip fun c => c.onTile p fun t => landReg f.dest
      { t with flight := (s.sys.chip.tile p).flight.filter fun f => !flightDue s.sys.chip f }) := by
  rw [exec_resultLanding_live h, landDue_one hf, landOne_reg hreg]
  simp [Sys.takeDue, State.withChip, Sys.onChip, Chip.onTile]

/-- One due store writes to memory the words that its mask selects. -/
theorem resultLanding_store {v : TileId} {f : Flight} {off : Nat} {l : Line} {mask : Word}
    (h : s.sys.chip.liveTile v.val = some p) (hf : (s.sys.chip.tile p).flight.filter (flightDue s.sys.chip) = [f])
    (hdest : f.dest = .sram off l mask) : Gives (exec (.resultLanding v) s) fun t =>
      t.mem = Memory.writeLine s.mem (tileBase p.val + off) l mask ∧
      t.sys.chip.tile p = { s.sys.chip.tile p with
        flight := (s.sys.chip.tile p).flight.filter fun f => !flightDue s.sys.chip f
        scrub := (t.sys.chip.tile p).scrub } := by
  rw [exec_resultLanding_live h, landDue_one hf, hdest, landOne_sram]
  refine ⟨_, rfl, rfl, ?_⟩
  unfold landStore
  simp only [tile_onTile_self, takeDue_tile]

end Landing

section LookAhead

variable {s : State} {v : TileId} {p : Fin 320} {pred : PReg} {ch : Chan}

/-- The look-ahead check in run state, of a receive that will issue: only an absent line changes anything. -/
theorem exec_waitReceiveCheck_live (hrun : s.sys.chip.map.run = true) (hp : s.sys.chip.liveTile v.val = some p)
    (hended : (s.sys.chip.tile p).ended = false) (hblocked : (s.sys.chip.tile p).blocked = false)
    (hpd : (s.sys.chip.tile p).pd[pred] = true) (hmail : isMailbox s.sys.chip.map v.val ch = false) :
    exec (.waitReceiveCheck v pred ch) s = .next (s.withChip fun c =>
      if !((s.sys.chip.tile p).ch[ch]).isEmpty then c
      else if c.time.strict then startAbort 7 (c.raise 28 .chip)
      else { c with cmp := { c.cmp with
        holds := c.cmp.holds ++ [⟨v.val, ch, if c.cmp.started then c.cmp.pcc + 2 else early c, none⟩] } }) := by
  rw [exec_waitReceiveCheck, execWaitReceiveCheck, onChip_eq]
  simp [State.withChip, hrun, hp, hended, hblocked, hpd, hmail]

theorem waitReceiveCheck_outcomes (hrun : s.sys.chip.map.run = true) (hp : s.sys.chip.liveTile v.val = some p)
    (hended : (s.sys.chip.tile p).ended = false) (hblocked : (s.sys.chip.tile p).blocked = false)
    (hpd : (s.sys.chip.tile p).pd[pred] = true) (hmail : isMailbox s.sys.chip.map v.val ch = false) :
    let c := s.sys.chip
    let r := exec (.waitReceiveCheck v pred ch) s
    ((c.tile p).ch[ch] ≠ [] → r = .next s) ∧
    ((c.tile p).ch[ch] = [] → c.time.strict = false → r = .next (s.withChip fun c => { c with cmp := { c.cmp with
      holds := c.cmp.holds ++ [⟨v.val, ch, if c.cmp.started then c.cmp.pcc + 2 else early c, none⟩] } })) ∧
    ((c.tile p).ch[ch] = [] → c.time.strict = true → Gives r fun u => u.sys.chip.map.run = false ∧
      u.sys.chip.time.abortCause = 7 ∧ u.sys.chip.time.abortValid = true ∧ ⟨28, .chip⟩ ∈ u.sys.chip.fc.raised) := by
  intro c r
  have hr : r = _ := exec_waitReceiveCheck_live hrun hp hended hblocked hpd hmail
  refine ⟨fun hline => ?_, fun hline hstrict => ?_, fun hline hstrict => ?_⟩
  · have hsome : ((s.sys.chip.tile p).ch[ch]).isEmpty = false := List.isEmpty_eq_false_iff.2 hline
    rw [hr]
    simp only [State.withChip, hsome, Bool.not_false, if_true]
  · have hnone : ((s.sys.chip.tile p).ch[ch]).isEmpty = true := List.isEmpty_iff.2 hline
    rw [hr]
    simp only [State.withChip, hnone, show s.sys.chip.time.strict = false from hstrict, Bool.not_true, Bool.false_eq_true,
      if_false]
  · have hnone : ((s.sys.chip.tile p).ch[ch]).isEmpty = true := List.isEmpty_iff.2 hline
    have hraised : ⟨28, .chip⟩ ∈ (s.sys.chip.raise 28 .chip).fc.raised := by
      simp [Chip.raise, Collector.raise, finOf]
    obtain ⟨kmap, kcause, kvalid, kraised⟩ := startAbort_left (c := s.sys.chip.raise 28 .chip) 7 hrun
    rw [hr]
    refine ⟨_, rfl, ?_⟩
    simp only [State.withChip, hnone, show s.sys.chip.time.strict = true from hstrict]
    exact ⟨kmap, kcause, kvalid, kraised _ hraised⟩

end LookAhead

section Release

variable {s : State}

/-- Issue that resumes leaves the tiles, the holds, the waits and the core view. -/
theorem resumeIssue_eq (c : Chip) : ∃ time fab, resumeIssue c = { c with time := time, fab := fab } ∧
    time.coreView = c.time.coreView := by
  unfold resumeIssue
  split
  · exact ⟨c.time, c.fab, rfl, rfl⟩
  · dsimp only
    split
    · exact ⟨_, c.fab, rfl, rfl⟩
    · rw [pourOn_eq]
      exact ⟨_, _, rfl, rfl⟩

/-- The hold requests with those whose line is present marked. -/
def markedHolds (c : Chip) : List HoldReq := c.cmp.holds.map (markPresent c)

/-- The end of the holds of a list that stop issue now and whose line is present. -/
def endHolds (hs : List HoldReq) (c : Chip) : Chip :=
  resumeIssue { c with cmp := { c.cmp with holds := hs.filter fun h => !(holdsNow c h && h.resume.isSome) } }

theorem exec_holdRelease_eq (s : State) : ∃ n, exec .holdRelease s =
    .next { s with sys := (s.sys.await n).onChip (endHolds (markedHolds s.sys.chip)) } := by
  obtain ⟨n, hn⟩ := awaitCycle_eq s.sys
    ((((markedHolds s.sys.chip).filter (holdsNow s.sys.chip)).filterMap fun h => h.resume).foldl max 0)
  exact ⟨n, by rw [← hn]; rfl⟩

theorem holdRelease_ends (s : State) : Gives (exec .holdRelease s) fun t =>
    keepsMemory s t ∧ t.sys.tray = s.sys.tray ∧
    t.sys.chip.cmp.holds = (s.sys.chip.cmp.holds.map (markPresent s.sys.chip)).filter
      (fun h => !(holdsNow s.sys.chip h && h.resume.isSome)) ∧
    t.sys.chip.cmp.tiles = s.sys.chip.cmp.tiles ∧ t.sys.chip.cmp.waits = s.sys.chip.cmp.waits := by
  obtain ⟨n, hn⟩ := exec_holdRelease_eq s
  have hnow (h : HoldReq) : holdsNow (s.sys.await n).chip h = holdsNow s.sys.chip h := by simp [holdsNow]
  obtain ⟨time, fab, hc, -⟩ := resumeIssue_eq { (s.sys.await n).chip with cmp := { (s.sys.await n).chip.cmp with
    holds := (markedHolds s.sys.chip).filter fun h => !(holdsNow (s.sys.await n).chip h && h.resume.isSome) } }
  rw [hn]
  refine ⟨_, rfl, ⟨rfl, rfl⟩, ?_⟩
  simp only [Sys.onChip, endHolds]
  rw [hc]
  simp only [hnow, await_tray, await_cmp_tiles, await_cmp_waits]
  exact ⟨trivial, rfl, trivial, trivial⟩

/-- A T that is reached lies behind the core view, or at it. -/
theorem gtcReached_left {view : Dword} {t : Word} (h : gtcReached view t = true)
    (hlow : (t - BitVec.setWidth 32 view).toNat < 2 ^ 31) : (t - BitVec.setWidth 32 view).toNat = 0 := by
  have h : (BitVec.setWidth 32 view - t).toNat < 2 ^ 31 := by simpa [gtcReached] using h
  generalize BitVec.setWidth 32 view = x at h hlow ⊢
  bv_omega

/-- The ticks of the core view until the T of a wait. -/
def ticksLeft (view : Dword) (w : GtcWait) : Nat := (w.t - BitVec.setWidth 32 view).toNat

/-- The ticks until the first T that is ahead of the core view. -/
def firstAhead (c : Chip) : Nat :=
  (((c.cmp.waits.map (ticksLeft c.time.coreView)).filter fun d => d < 2 ^ 31).min?).getD 0

theorem firstAhead_of_reached (c : Chip) (h : ∀ w ∈ c.cmp.waits, gtcReached c.time.coreView w.t = true) :
    firstAhead c = 0 := by
  unfold firstAhead
  generalize hl : (c.cmp.waits.map (ticksLeft c.time.coreView)).filter (fun d => d < 2 ^ 31) = l
  cases hm : l.min? with
  | none => rfl
  | some m =>
    have hmem : m ∈ l := List.min?_mem hm
    rw [← hl] at hmem
    obtain ⟨hmap, hlow⟩ := List.mem_filter.1 hmem
    obtain ⟨w, hw, rfl⟩ := List.mem_map.1 hmap
    exact gtcReached_left (h w hw) (of_decide_eq_true hlow)

/-- The end of the waits whose T is reached. -/
def endWaits (c : Chip) : Chip :=
  resumeIssue { c with cmp := { c.cmp with waits := c.cmp.waits.filter fun w => !gtcReached c.time.coreView w.t } }

theorem exec_waitGtcEnd_eq (s : State) : exec .waitGtcEnd s = .next { s with
    sys := (s.sys.awaitView (s.sys.chip.time.coreView.toNat + firstAhead s.sys.chip)).onChip endWaits } := rfl

/-- Waits that have ended, on a system that has waited. -/
theorem endWaits_spec (y : Sys) :
    let z := y.onChip endWaits
    z.now = y.now ∧ z.tray = y.tray ∧
      z.chip.cmp.waits = y.chip.cmp.waits.filter (fun w => !gtcReached y.chip.time.coreView w.t) ∧
      z.chip.time.coreView = y.chip.time.coreView ∧
      z.chip.cmp.tiles = y.chip.cmp.tiles ∧ z.chip.cmp.holds = y.chip.cmp.holds := by
  obtain ⟨time, fab, hc, hview⟩ := resumeIssue_eq { y.chip with cmp := { y.chip.cmp with
    waits := y.chip.cmp.waits.filter fun w => !gtcReached y.chip.time.coreView w.t } }
  simp only [Sys.onChip, endWaits, hc]
  exact ⟨trivial, trivial, trivial, hview, trivial, trivial⟩

theorem waitGtcEnd_ends (s : State) : Gives (exec .waitGtcEnd s) fun t =>
    keepsMemory s t ∧ t.sys.tray = s.sys.tray ∧
    t.sys.chip.cmp.waits = s.sys.chip.cmp.waits.filter (fun w => !gtcReached t.sys.chip.time.coreView w.t) ∧
    ((∀ w ∈ s.sys.chip.cmp.waits, gtcReached s.sys.chip.time.coreView w.t = true) →
      t.sys.now = s.sys.now ∧ t.sys.chip.cmp.waits = []) ∧
    t.sys.chip.cmp.tiles = s.sys.chip.cmp.tiles ∧ t.sys.chip.cmp.holds = s.sys.chip.cmp.holds := by
  obtain ⟨n, hn⟩ := awaitView_eq s.sys (s.sys.chip.time.coreView.toNat + firstAhead s.sys.chip)
  obtain ⟨know, ktray, kwaits, kview, ktiles, kholds⟩ := endWaits_spec (s.sys.await n)
  rw [exec_waitGtcEnd_eq, hn]
  refine ⟨_, rfl, ⟨rfl, rfl⟩, ktray.trans (await_tray ..), ?_, fun hall => ?_, ktiles.trans (await_cmp_tiles ..),
    kholds.trans (await_cmp_holds ..)⟩
  · rw [kview, ← await_cmp_waits s.sys n]
    exact kwaits
  · have hstay : s.sys.await n = s.sys := by
      rw [← hn, firstAhead_of_reached _ hall]
      exact awaitView_of_le _ _ le_rfl
    rw [hstay] at know kwaits ⊢
    refine ⟨know, kwaits.trans (List.filter_eq_nil_iff.2 fun w hw => ?_)⟩
    simp [hall w hw]

end Release

/-- Settles O22: results land by `landDue`, and each event ends what it is for. -/
theorem landingsAndWaitsEnd : Obligations.LandingsAndWaitsEnd := by
  refine ⟨fun s v p hp => ⟨resultLanding_takes hp, fun f hf => ⟨resultLanding_reg hp hf, fun off l mask hdest =>
    resultLanding_store hp hf hdest⟩⟩, fun s v p pred ch => ?_, fun s => ⟨holdRelease_ends s, waitGtcEnd_ends s⟩⟩
  intro c t r hrun hp hended hblocked hpd hmail
  exact waitReceiveCheck_outcomes hrun hp hended hblocked hpd hmail

end Sys2Proof.Machine
end

section
/-! PROOFS. Lines that reach a channel, and the scrubber (04 R108 to R110, R116 to R119). -/

namespace Sys2Proof.Machine

section Arrival

variable {c d : Chip} {l : MeshLine} {v : Nat} {p : Fin 320} {ch : Chan}

/-- What the mesh does with its only line while no tile sends: it stays the only line, on its way to the same end; in run
state one that has arrived stays as it is. -/
structure LoneLine (l : MeshLine) (c d : Chip) (k : MeshLine) : Prop where
  eq : d = { c with cmp := { c.cmp with mesh := d.cmp.mesh } }
  lines : d.cmp.mesh.lines = [k]
  same : k = { l with arrive := k.arrive, due := k.due }
  due : l.due = none → k = l

theorem LoneLine.tile {k : MeshLine} (h : LoneLine l c d k) (q : Fin 320) : d.tile q = c.tile q := by
  rw [h.eq]; rfl

theorem edgeEnter_lone (c : Chip) (src : Nat) (m : Mesh) (k : MeshLine) : ∃ a due,
    (edgeEnter c src { m with lines := [] } k).lines = [{ k with arrive := a, due := due }] ∧
      (k.due = none → a = k.arrive ∧ due = none) := by
  unfold edgeEnter
  split
  next hnone => exact ⟨k.arrive, none, by simp [← hnone], fun _ => ⟨rfl, rfl⟩⟩
  next t hsome =>
    extract_lets way now wall r
    split
    · exact ⟨_, none, rfl, fun h => absurd h (by simp [hsome])⟩
    · exact ⟨k.arrive, k.due, rfl, fun h => ⟨rfl, h⟩⟩

theorem enterEdges_lone {k : MeshLine} (h : LoneLine l c d k) : ∃ k', LoneLine l c (enterEdges v d) k' := by
  obtain ⟨heq, hlines, hsame, hdue⟩ := h
  unfold enterEdges
  split
  next =>
    obtain ⟨a, due, hk, hnone⟩ := edgeEnter_lone d v d.cmp.mesh k
    refine ⟨{ k with arrive := a, due := due }, ?_, ?_, ?_, fun hl => ?_⟩
    · generalize d.cmp.mesh.lines.foldl (edgeEnter d v) { d.cmp.mesh with lines := [] } = m
      rw [heq]
    · simpa [hlines] using hk
    · rw [hsame]
    · have := hdue hl
      subst this
      obtain ⟨ha, hd⟩ := hnone hl
      rw [ha, hd, ← hl]
  next => exact ⟨k, heq, hlines, hsame, hdue⟩

theorem sendHead_of_empty (h : ∀ q, (c.tile q).sendq = []) : sendHead v c = c := by
  unfold sendHead
  split
  · rfl
  next q _ => simp [headReady, headEntry, h q]

/-- The mesh advances by one cycle while no tile sends. -/
theorem meshAdvance_lone (hq : ∀ q, (c.tile q).sendq = []) (hl : c.cmp.mesh.lines = [l]) :
    ∃ k, LoneLine l c (meshAdvance c) k := by
  have hpass : LoneLine l c { c with cmp := { c.cmp with mesh := passLinks c c.cmp.mesh } } l := by
    refine ⟨rfl, ?_, rfl, fun _ => rfl⟩
    unfold passLinks
    dsimp only
    split <;> exact hl
  unfold meshAdvance
  extract_lets cmp d
  have hd : LoneLine l c d l := hpass
  generalize List.range (16 * d.map.vc) = vs
  clear_value d
  have : ∀ k d, LoneLine l c d k → ∃ k, LoneLine l c (vs.foldl (fun c v => sendHead v (enterEdges v c)) d) k := by
    induction vs with
    | nil => exact fun k d h => ⟨k, h⟩
    | cons v vs ih =>
      intro k d h
      obtain ⟨k', h'⟩ := enterEdges_lone (v := v) h
      rw [List.foldl_cons, sendHead_of_empty fun q => by rw [h'.tile]; exact hq q]
      exact ih k' _ h'
  exact this l d hd

theorem LoneLine.arrived {k : MeshLine} (h : LoneLine l c d k) (ha : arrived c l = true) : arrived d k = true := by
  have hd : Machine.arrived d k = Machine.arrived c k := by rw [h.eq]; rfl
  rw [hd]
  unfold Machine.arrived at ha ⊢
  cases hrun : c.map.run with
  | false => rfl
  | true =>
    rw [hrun] at ha
    have hnone : l.due = none := by
      have := (Bool.and_eq_true_iff.1 ha).1
      simpa using this
    rw [h.due hnone]
    exact ha

/-- The one line that has reached the tile enters its channel. -/
theorem deliverTile_lone {k : MeshLine} (hlines : c.cmp.mesh.lines = [k]) (hdst : k.dst = .tile v ch)
    (ha : arrived c k = true) : deliverTile v c =
      enterChannel { c with cmp := { c.cmp with mesh := { c.cmp.mesh with lines := [] } } } k := by
  unfold deliverTile
  simp [hlines, hdst, ha, byArrival, insertArrival]

theorem cmp_ite {b : Prop} [Decidable b] {x y : Chip} {z : Compute} (hx : x.cmp = z) (hy : y.cmp = z) :
    (if b then x else y).cmp = z := by
  split
  · exact hx
  · exact hy

/-- What enters a channel with room, and what a full one loses. -/
theorem channelPut_spec (line : Line) (fabric : Bool) (hmail : isMailbox c.map v ch = false) :
    let kept := { c.tile p with fabricCh := (c.tile p).fabricCh.set ch (fabric || (c.tile p).fabricCh[ch]) }
    let d := channelPut v p ch line fabric c
    d.cmp.mesh = c.cmp.mesh ∧ (∀ q, q ≠ p → d.tile q = c.tile q) ∧
      ((c.tile p).ch[ch].length < 16 → d.tile p = { kept with ch := (c.tile p).ch.set ch ((c.tile p).ch[ch] ++ [line]) }) ∧
      (16 ≤ (c.tile p).ch[ch].length → d.tile p = kept ∧ d = (c.onTile p fun _ => kept).tileEvent v 1 ch.val) := by
  intro kept d
  have hevent (n info : Nat) (e : Chip) : (e.tileEvent v n info).cmp = e.cmp := (tileStep_tileEvent p v n info e).2
  have hkept : (c.onTile p fun t => { t with fabricCh := t.fabricCh.set ch (fabric || (c.tile p).fabricCh[ch]) }) =
      c.onTile p fun _ => kept := rfl
  by_cases hfull : 16 ≤ (c.tile p).ch[ch].length
  · have hd : d = (c.onTile p fun _ => kept).tileEvent v 1 ch.val := by
      simp only [d, channelPut, hkept]
      exact if_pos (by rw [Bool.or_eq_true]; exact Or.inl (decide_eq_true hfull))
    refine ⟨by rw [hd, hevent]; rfl, fun q hq => ?_, fun h => absurd hfull (by omega), fun _ => ⟨?_, hd⟩⟩
    · rw [hd, tile_congr (hevent ..), tile_onTile_other _ _ _ _ hq]
    · rw [hd, tile_congr (hevent ..), tile_onTile_self]
  · have hd : ∃ e, d = e ∧ e.cmp = ((c.onTile p fun _ => kept).onTile p fun t => { t with
        ch := t.ch.set ch ((c.tile p).ch[ch] ++ [line]) }).cmp := by
      refine ⟨d, rfl, ?_⟩
      have hmail' : isMailbox (c.onTile p fun _ => kept).map v ch = false := hmail
      simp only [d, channelPut, hkept, hmail', hfull, decide_false, Bool.or_false, Bool.false_eq_true, if_false]
      exact cmp_ite (hevent ..) rfl
    obtain ⟨e, hde, he⟩ := hd
    rw [hde]
    refine ⟨by rw [he]; rfl, fun q hq => ?_, fun _ => ?_, fun h => absurd h hfull⟩
    · rw [tile_congr he, tile_onTile_other _ _ _ _ hq, tile_onTile_other _ _ _ _ hq]
    · rw [tile_congr he, tile_onTile_self, tile_onTile_self]

/-- MESH_LINE_ARRIVAL of the one line under way. -/
theorem meshLineArrival_enters {s : State} {v : TileId} (hq : ∀ q, (s.sys.chip.tile q).sendq = [])
    (hl : s.sys.chip.cmp.mesh.lines = [l]) (hdst : l.dst = .tile v.val ch) (ha : arrived s.sys.chip l = true)
    (hp : s.sys.chip.liveTile v.val = some p) (hmail : isMailbox s.sys.chip.map v.val ch = false) :
    Gives (exec (.meshLineArrival v) s) fun t =>
      t.sys.chip.cmp.mesh.lines = [] ∧ keepsMemory s t ∧
      (∀ q, q ≠ p → t.sys.chip.tile q = s.sys.chip.tile q) ∧
      let c := s.sys.chip
      let kept := { c.tile p with fabricCh := (c.tile p).fabricCh.set ch (l.fabric || (c.tile p).fabricCh[ch]) }
      ((c.tile p).ch[ch].length < 16 → t.sys.chip.tile p =
        { kept with ch := (c.tile p).ch.set ch ((c.tile p).ch[ch] ++ [l.line]) }) ∧
      (16 ≤ (c.tile p).ch[ch].length → t.sys.chip.tile p = kept ∧ ⟨1, .tile v.val⟩ ∈ t.sys.chip.fc.raised) := by
  obtain ⟨k, hk⟩ := meshAdvance_lone hq hl
  have harrived := hk.arrived ha
  obtain ⟨heq, hlines, hsame, -⟩ := hk
  have hkdst : k.dst = .tile v.val ch := by rw [hsame]; exact hdst
  have hline : k.line = l.line := by rw [hsame]
  have hfabric : k.fabric = l.fabric := by rw [hsame]
  rw [exec_meshLineArrival, execMeshLineArrival, onChip_eq, State.withChip]
  simp only
  rw [deliverTile_lone hlines hkdst harrived, heq]
  unfold enterChannel
  rw [hkdst]
  have hlive : Chip.liveTile { s.sys.chip with cmp := { s.sys.chip.cmp with
    mesh := { (meshAdvance s.sys.chip).cmp.mesh with lines := [] } } } v.val = some p := hp
  obtain ⟨kmesh, kothers, kroom, kfull⟩ := channelPut_spec (c := { s.sys.chip with cmp := { s.sys.chip.cmp with
    mesh := { (meshAdvance s.sys.chip).cmp.mesh with lines := [] } } }) (v := v.val) (p := p) (ch := ch) l.line l.fabric hmail
  simp only [hlive, hline, hfabric]
  refine ⟨_, rfl, by rw [kmesh], ⟨rfl, rfl⟩, kothers, kroom, fun h => ?_⟩
  obtain ⟨htile, hput⟩ := kfull h
  refine ⟨htile, ?_⟩
  show _ ∈ (channelPut v.val p ch l.line l.fabric _).fc.raised
  rw [hput]
  exact tileEvent_raised (v := v) 1 _ _

end Arrival

section Scrubber

variable {s : State} {c : Chip} {v : TileId} {p : Fin 320} {b : Fin 16}

/-- A change of the tiles that leaves each its scrubber's reads and write-backs. -/
structure ScrubKept (c d : Chip) : Prop where
  fc : d.fc = c.fc
  corrected : d.chk.corrected = c.chk.corrected
  scrub : ∀ q, (d.tile q).scrub = { (c.tile q).scrub with wrapped := (d.tile q).scrub.wrapped }

theorem countPass_keeps (c : Chip) : ScrubKept c (countPass c) := by
  have hclear (l : List (Fin 320)) : ∀ e, ScrubKept c e → ScrubKept c (l.foldl (fun c p =>
      c.onTile p fun t => { t with scrub := { t.scrub with wrapped := Vector.replicate 16 false } }) e) := by
    induction l with
    | nil => exact fun e h => h
    | cons p l ih =>
      intro e h
      refine ih _ ⟨h.fc, h.corrected, fun q => ?_⟩
      by_cases hq : q = p
      · subst hq
        rw [tile_onTile_self, h.scrub]
      · rw [tile_onTile_other _ _ _ _ hq]
        exact h.scrub q
  unfold countPass
  dsimp only
  split
  · obtain ⟨hfc, hcorrected, hscrub⟩ := hclear _ c ⟨rfl, rfl, fun _ => rfl⟩
    exact ⟨hfc, hcorrected, hscrub⟩
  · exact ⟨rfl, rfl, fun _ => rfl⟩

theorem eccReport_none (v off : Nat) (c : Chip) : c.eccReport v off 0 0 = c := rfl

theorem eccReport_one (v off : Nat) (c : Chip) : c.eccReport v off 1 0 =
    { c.raise 5 (.tile v) with chk := { c.chk with corrected := satAdd c.chk.corrected 1 } } := rfl

theorem eccReport_cmp (v off corr bad : Nat) (c : Chip) : (c.eccReport v off corr bad).cmp = c.cmp := by
  unfold Chip.eccReport Chip.eccUncorrectable Chip.eccCorrected
  refine cmp_ite ?_ (cmp_ite ?_ ?_)
  · exact cmp_ite rfl rfl
  · exact cmp_ite (x := c) rfl rfl
  · exact cmp_ite (x := c) rfl rfl

/-- Offset in the tile of the line at the pointer of a sub-bank. -/
def scrubOff (x : Scrub) (b : Fin 16) : Nat := b.val * 0x40000 + x.ptr[b].val * 256

/-- What the words of that line read as. -/
def scrubCheck (ecc : List (Nat × EccMark)) (p : Fin 320) (b : Fin 16) (x : Scrub) : Nat × Nat :=
  Ecc.check ecc ((tileBase p.val + scrubOff x b) / 8) 32

/-- The scrubber once it has read a line, which is due for write-back where `fix`. -/
def scrubbed (b : Fin 16) (fix : Bool) (line : Fin 1024) (now : Nat) (x : Scrub) : Scrub :=
  if fix then { advancePtr b now x with pending := (advancePtr b now x).pending ++ [(b, line)] } else advancePtr b now x

/-- What the read of the line reports. -/
def scrubReport (ecc : List (Nat × EccMark)) (v : TileId) (p : Fin 320) (b : Fin 16) (c : Chip) : Chip :=
  let r := scrubCheck ecc p b (c.tile p).scrub
  c.eccReport v.val (scrubOff (c.tile p).scrub b) r.1 r.2

theorem scrubLine_eq (ecc : List (Nat × EccMark)) (v : TileId) (p : Fin 320) (b : Fin 16) (c : Chip) :
    let r := scrubCheck ecc p b (c.tile p).scrub
    scrubLine ecc v p b c = countPass ((scrubReport ecc v p b c).onTile p fun t => { t with
      scrub := scrubbed b (r.1 != 0 && r.2 == 0) (c.tile p).scrub.ptr[b] (scrubReport ecc v p b c).cmp.cycles t.scrub }) := rfl

/-- A scrub read advances the pointer, reports what the line reads as, and has a corrected line written back. -/
theorem scrubLine_spec (ecc : List (Nat × EccMark)) (v : TileId) (p : Fin 320) (b : Fin 16) (c : Chip) :
    let x := (c.tile p).scrub
    let r := scrubCheck ecc p b x
    let d := scrubLine ecc v p b c
    let y := (d.tile p).scrub
    d.fc = (scrubReport ecc v p b c).fc ∧ d.chk.corrected = (scrubReport ecc v p b c).chk.corrected ∧
      y.ptr = x.ptr.set b (x.ptr[b] + 1) ∧ y.last = b ∧ y.readAt = some c.cmp.cycles ∧
      y.pending = if r.1 != 0 && r.2 == 0 then x.pending ++ [(b, x.ptr[b])] else x.pending := by
  intro x r d y
  have hcmp : (scrubReport ecc v p b c).cmp = c.cmp := eccReport_cmp ..
  have hd : d = countPass ((scrubReport ecc v p b c).onTile p fun t => { t with
      scrub := scrubbed b (r.1 != 0 && r.2 == 0) x.ptr[b] c.cmp.cycles t.scrub }) := by
    rw [← hcmp]
    exact scrubLine_eq ecc v p b c
  obtain ⟨hfc, hcorrected, hscrub⟩ := countPass_keeps ((scrubReport ecc v p b c).onTile p fun t => { t with
      scrub := scrubbed b (r.1 != 0 && r.2 == 0) x.ptr[b] c.cmp.cycles t.scrub })
  have hy : y = { scrubbed b (r.1 != 0 && r.2 == 0) x.ptr[b] c.cmp.cycles x with wrapped := y.wrapped } := by
    have h := hscrub p
    rw [← hd, tile_onTile_self, tile_congr hcmp] at h
    exact h
  rw [hd, hfc, hcorrected, hy]
  refine ⟨rfl, rfl, ?_⟩
  dsimp only [scrubbed]
  split
  · exact ⟨rfl, rfl, rfl, rfl⟩
  · exact ⟨rfl, rfl, rfl, rfl⟩

/-- SCRUB_READ of a sub-bank that is next, once GAP cycles have passed. -/
theorem exec_scrubRead_next (hp : s.sys.chip.liveTile v.val = some p) (hon : s.sys.chip.chk.scrubEnable = true)
    (hgap : ∀ a, (s.sys.chip.tile p).scrub.readAt = some a → a + max 1 s.sys.chip.chk.gap.toNat ≤ s.sys.chip.cmp.cycles)
    (hnext : nextSub s.sys.chip.cmp.cycles (s.sys.chip.tile p) (s.sys.chip.useNow p) = some b) :
    exec (.scrubRead v) s = .next (s.withChip (scrubLine s.sys.ecc v p b)) := by
  have hwait : s.sys.awaitCycle ((((s.sys.chip.tile p).scrub.readAt).map
      fun a => a + max 1 s.sys.chip.chk.gap.toNat).getD 0) = s.sys := by
    refine awaitCycle_of_le _ _ ?_
    cases h : (s.sys.chip.tile p).scrub.readAt with
    | none => exact Nat.zero_le _
    | some a => exact hgap a h
  rw [exec_scrubRead, execScrubRead, onSys_eq]
  simp only [hp, hwait, ite_self, Sys.onChip, hon, hnext]
  cases h : (s.sys.chip.tile p).scrub.readAt with
  | none => rfl
  | some a =>
    simp only [decide_eq_true (hgap a h)]
    rfl

theorem scrubRead_reads (hp : s.sys.chip.liveTile v.val = some p) (hon : s.sys.chip.chk.scrubEnable = true)
    (hgap : ∀ a, (s.sys.chip.tile p).scrub.readAt = some a → a + max 1 s.sys.chip.chk.gap.toNat ≤ s.sys.chip.cmp.cycles)
    (hnext : nextSub s.sys.chip.cmp.cycles (s.sys.chip.tile p) (s.sys.chip.useNow p) = some b) :
    let c := s.sys.chip
    let x := (c.tile p).scrub
    let off := b.val * 0x40000 + x.ptr[b].val * 256
    Gives (exec (.scrubRead v) s) fun t =>
      let y := (t.sys.chip.tile p).scrub
      t.mem = s.mem ∧ t.sys.ecc = s.sys.ecc ∧
      y.ptr = x.ptr.set b (x.ptr[b] + 1) ∧ y.last = b ∧ y.readAt = some c.cmp.cycles ∧
      (Ecc.check s.sys.ecc ((tileBase p.val + off) / 8) 32 = (0, 0) → y.pending = x.pending) ∧
      (Ecc.check s.sys.ecc ((tileBase p.val + off) / 8) 32 = (1, 0) → y.pending = x.pending ++ [(b, x.ptr[b])] ∧
        t.sys.chip.chk.corrected = satAdd c.chk.corrected 1 ∧ ⟨5, .tile v.val⟩ ∈ t.sys.chip.fc.raised) := by
  intro c x off
  obtain ⟨hfc, hcorrected, hptr, hlast, hread, hpending⟩ := scrubLine_spec s.sys.ecc v p b s.sys.chip
  rw [exec_scrubRead_next hp hon hgap hnext]
  refine ⟨_, rfl, rfl, rfl, hptr, hlast, hread, fun hcheck => ?_, fun hcheck => ?_⟩
  · have hcheck : scrubCheck s.sys.ecc p b x = (0, 0) := hcheck
    rw [hcheck] at hpending
    exact hpending
  · have hcheck : scrubCheck s.sys.ecc p b x = (1, 0) := hcheck
    have hreport : scrubReport s.sys.ecc v p b s.sys.chip = s.sys.chip.eccReport v.val (scrubOff x b) 1 0 := by
      unfold scrubReport
      rw [hcheck]
    rw [hcheck] at hpending
    rw [hreport, eccReport_one] at hfc hcorrected
    refine ⟨hpending, hcorrected, ?_⟩
    show _ ∈ (scrubLine s.sys.ecc v p b s.sys.chip).fc.raised
    rw [hfc]
    simp [Chip.raise, Collector.raise, finOf]

/-- SCRUB_WRITEBACK of the oldest line, whose sub-bank's write port is free. -/
theorem scrubWriteback_writes {l : Fin 1024} {rest : List (Fin 16 × Fin 1024)} (hp : s.sys.chip.liveTile v.val = some p)
    (hpending : (s.sys.chip.tile p).scrub.pending = (b, l) :: rest) (hwrites : b.val ∉ (s.sys.chip.useNow p).writes)
    (hext : (s.sys.chip.cmp.cycles, b.val) ∉ (s.sys.chip.useNow p).ext) :
    Gives (exec (.scrubWriteback v) s) fun t => t.mem = s.mem ∧
      t.sys.ecc = Ecc.clear s.sys.ecc ((tileBase p.val + b.val * 0x40000 + l.val * 256) / 8) 32 0xFFFFFFFF ∧
      (t.sys.chip.tile p).scrub.pending = rest.filter (fun z => z != (b, l)) := by
  rw [exec_scrubWriteback, execScrubWriteback, onSys_eq]
  simp only [hp, hpending]
  rw [List.find?_cons_of_pos (by simp [hwrites, hext])]
  refine ⟨_, rfl, rfl, rfl, ?_⟩
  simp [Sys.onChip, tile_onTile_self, hpending]

/-- SCRUB_COVERAGE_LOW of a pointer that has not wrapped in time. -/
theorem scrubCoverageLow_raises (hp : s.sys.chip.liveTile v.val = some p) (hperiod : s.sys.chip.chk.period ≠ 0)
    (hlate : (s.sys.chip.tile p).scrub.wrapAt[b] + s.sys.chip.chk.period.toNat * 65536 < s.sys.chip.cmp.cycles) :
    Gives (exec (.scrubCoverageLow v b) s) fun t => ⟨9, .tile v.val⟩ ∈ t.sys.chip.fc.raised ∧
      t.sys.chip.cmp = s.sys.chip.cmp ∧
      (s.sys.chip.chk.lowValid = false → t.sys.chip.chk = { s.sys.chip.chk with
        lowValid := true
        lowTile := BitVec.ofNat 9 v.val
        lowSub := BitVec.ofNat 4 b.val }) ∧
      (s.sys.chip.chk.lowValid = true → t.sys.chip.chk = s.sys.chip.chk) := by
  have hraised : ⟨9, .tile v.val⟩ ∈ (s.sys.chip.raise 9 (.tile v.val)).fc.raised := by
    simp [Chip.raise, Collector.raise, finOf]
  rw [exec_scrubCoverageLow, execScrubCoverageLow, onSys_eq]
  simp only [hp, beq_eq_false_iff_ne.2 hperiod, awaitCycle_of_le _ _ hlate, Sys.onChip]
  refine ⟨_, rfl, ?_⟩
  cases hvalid : s.sys.chip.chk.lowValid with
  | true =>
    simp only [Bool.false_eq_true, if_false, Chip.raise_chk, hvalid, if_true]
    exact ⟨hraised, rfl, fun h => absurd h (by decide), fun _ => trivial⟩
  | false =>
    simp only [Bool.false_eq_true, if_false, Chip.raise_chk, hvalid]
    exact ⟨hraised, rfl, fun _ => trivial, fun h => absurd h (by decide)⟩

end Scrubber

/-- Settles O23: the mesh keeps its one line until it arrives, and each scrubber command acts on its own line. -/
theorem linesArriveAndScrubberCorrects : Obligations.LinesArriveAndScrubberCorrects := by
  refine ⟨fun s v p ch l hq hl hdst ha hp hmail => meshLineArrival_enters hq hl hdst ha hp hmail, fun s v p hp => ⟨?_, ?_, ?_⟩⟩
  · exact fun b hon hgap hnext => scrubRead_reads hp hon hgap hnext
  · exact fun b l rest hpending hwrites hext => scrubWriteback_writes hp hpending hwrites hext
  · exact fun b hperiod hlate => scrubCoverageLow_raises hp hperiod hlate

end Sys2Proof.Machine
end

section
/-! PROOFS. The queue and memory (95; 03 section 4). -/

namespace Sys2Proof.Machine

/-- Settles O1: it is how a step is defined. -/
theorem stepRunsFrontCommand : Obligations.StepRunsFrontCommand := by
  intro c rest s h
  rw [step, h]

/-- Settles O3: memory after reset lists no byte. -/
theorem resetMemoryCanonical : Obligations.ResetMemoryCanonical := rfl

section Lookup

variable {m : List Host.Cell} {a i : Nat}

/-- Below an address, a byte is found among the cells below it. -/
theorem lookup_takeWhile (h : m.Pairwise fun x y => x.1 < y.1) :
    (m.takeWhile fun c => decide (c.1 < a)).lookup i = if i < a then m.lookup i else none := by
  have hsplit := List.takeWhile_append_dropWhile (p := fun c : Host.Cell => decide (c.1 < a)) (l := m)
  split
  next hi =>
    have hnone : (m.dropWhile fun c => decide (c.1 < a)).lookup i = none := by
      refine List.lookup_eq_none_iff.2 fun c hc => ?_
      have := Memory.dropWhile_ge m a h c hc
      simp; omega
    conv_rhs => rw [← hsplit, List.lookup_append, hnone, Option.or_none]
  next hi =>
    refine List.lookup_eq_none_iff.2 fun c hc => ?_
    have := List.mem_takeWhile_imp hc
    simp at this ⊢; omega

/-- From an address on, a byte is found among the cells from it on. -/
theorem lookup_dropWhile (h : m.Pairwise fun x y => x.1 < y.1) :
    (m.dropWhile fun c => decide (c.1 < a)).lookup i = if a ≤ i then m.lookup i else none := by
  have hsplit := List.takeWhile_append_dropWhile (p := fun c : Host.Cell => decide (c.1 < a)) (l := m)
  split
  next hi =>
    have hnone : (m.takeWhile fun c => decide (c.1 < a)).lookup i = none := by
      rw [lookup_takeWhile h, if_neg (by omega)]
    conv_rhs => rw [← hsplit, List.lookup_append, hnone, Option.none_or]
  next hi =>
    refine List.lookup_eq_none_iff.2 fun c hc => ?_
    have := Memory.dropWhile_ge m a h c hc
    simp; omega

/-- The cells of a run of bytes hold its bytes, and nothing outside it. -/
theorem lookup_cells (bs : List Byte) (a : Nat) :
    ((Memory.cells a bs).lookup i).getD 0 = if a ≤ i ∧ i < a + bs.length then bs.getD (i - a) 0 else 0 := by
  induction bs generalizing a with
  | nil => simp [Memory.cells]
  | cons b bs ih =>
    have hrest : i ≠ a → (if a + 1 ≤ i ∧ i < a + 1 + bs.length then bs.getD (i - (a + 1)) 0 else 0) =
        if a ≤ i ∧ i < a + (b :: bs).length then (b :: bs).getD (i - a) 0 else 0 := by
      intro hne
      by_cases hin : a + 1 ≤ i ∧ i < a + 1 + bs.length
      · rw [if_pos hin, if_pos (by rw [List.length_cons]; omega), show i - a = (i - (a + 1)) + 1 by omega]
        rfl
      · rw [if_neg hin, if_neg (by rw [List.length_cons]; omega)]
    have hself : i = a → (if a ≤ i ∧ i < a + (b :: bs).length then (b :: bs).getD (i - a) 0 else 0) = b := by
      rintro rfl
      simp
    by_cases hb : b = 0#8
    · subst hb
      rw [Memory.cells_zero, ih]
      by_cases hi : i = a
      · rw [hself hi, if_neg (by omega)]
        rfl
      · exact hrest hi
    · rw [Memory.cells_ne hb, List.lookup_cons]
      by_cases hi : i = a
      · rw [hself hi, hi]
        simp
      · rw [beq_eq_false_iff_ne.2 hi]
        exact (ih (a + 1)).trans (hrest hi)

/-- Outside a run of bytes nothing is found among its cells. -/
theorem lookup_cells_out (bs : List Byte) (h : ¬(a ≤ i ∧ i < a + bs.length)) : (Memory.cells a bs).lookup i = none := by
  refine List.lookup_eq_none_iff.2 fun c hc => ?_
  obtain ⟨hlo, hhi, -⟩ := Memory.cells_bounds bs a c hc
  simp; omega

end Lookup

/-- Settles O6: the byte is looked up below, in, or past the run that is written. -/
theorem memoryReadsAsWritten : Obligations.MemoryReadsAsWritten := by
  intro m a bs hwf i
  obtain ⟨hrising, -⟩ := (Memory.wf_iff m).1 hwf
  rw [Memory.get, Memory.get, Memory.write, List.lookup_append, List.lookup_append, lookup_takeWhile hrising,
    lookup_dropWhile hrising]
  by_cases hin : a ≤ i ∧ i < a + bs.length
  · rw [if_neg (by omega), if_neg (by omega), if_pos hin, Option.none_or, Option.or_none, lookup_cells, if_pos hin]
  · rw [lookup_cells_out bs hin, Option.or_none, if_neg hin]
    by_cases hlo : i < a
    · rw [if_pos hlo, if_neg (by omega), Option.or_none]
    · rw [if_neg hlo, if_pos (by omega), Option.none_or]

end Sys2Proof.Machine
end

section
/-! PROOFS. What fuses and straps fix (02 R42, 03 R69): no function of the chip changes it. -/

namespace Sys2Proof.Machine

/-! Choices, lists, and changes of other fields. -/

theorem fixed_ite {p : Prop} [Decidable p] {a b c : Chip} (ha : a.fixed = c.fixed) (hb : b.fixed = c.fixed) :
    (if p then a else b).fixed = c.fixed := by
  split
  · exact ha
  · exact hb

theorem fixed_foldl {β : Type} {f : Chip → β → Chip} (h : ∀ c b, (f c b).fixed = c.fixed) (l : List β) (c : Chip) :
    (l.foldl f c).fixed = c.fixed := foldl_keeps Chip.fixed f h l c

theorem fixed_with {c d e : Chip} (h : d.fixed = c.fixed) (hslot : e.fab.slot = d.fab.slot)
    (hgrade : e.map.grade = d.map.grade) (hdisabled : e.map.disabled = d.map.disabled) : e.fixed = c.fixed := by
  rw [← h, Chip.fixed, Chip.fixed, hslot, hgrade, hdisabled]

theorem Completes.fixed {c d : Chip} (h : Completes c d) : d.fixed = c.fixed := by
  have hmap : d.map = c.map := by rw [h.eq]
  exact fixed_with (d := c) rfl h.slot (by rw [hmap]) (by rw [hmap])

/-! The functions of the chip, in the model's order. -/

theorem fixed_onTile (p : Fin 320) (f : Tile → Tile) (c : Chip) : (Chip.onTile p f c).fixed = c.fixed := rfl

theorem fixed_onPort (p : PortId) (f : Port → Port) (c : Chip) : (Chip.onPort p f c).fixed = c.fixed := rfl

theorem fixed_raise (n : Nat) (o : Owner) (c : Chip) : (Chip.raise n o c).fixed = c.fixed := rfl

theorem fixed_lower (n now : Nat) (c : Chip) : (Chip.lower n now c).fixed = c.fixed := rfl

theorem fixed_tileEvent (v src info : Nat) (c : Chip) : (Chip.tileEvent v src info c).fixed = c.fixed := by
  unfold Chip.tileEvent
  exact fixed_ite rfl rfl

theorem fixed_eccCorrected (v corr : Nat) (c : Chip) : (Chip.eccCorrected v corr c).fixed = c.fixed := by
  unfold Chip.eccCorrected
  exact fixed_ite rfl rfl

theorem fixed_eccUncorrectable (v off bad : Nat) (c : Chip) :
  (Chip.eccUncorrectable v off bad c).fixed = c.fixed := by
  unfold Chip.eccUncorrectable
  exact fixed_ite rfl (fixed_ite rfl rfl)

theorem fixed_eccReport (v off corr bad : Nat) (c : Chip) : (Chip.eccReport v off corr bad c).fixed = c.fixed := by
  unfold Chip.eccReport
  exact (fixed_eccUncorrectable ..).trans (fixed_eccCorrected ..)

theorem fixed_cfgDiscard (off : Nat) (c : Chip) : (Chip.cfgDiscard off c).fixed = c.fixed := by
  unfold Chip.cfgDiscard
  extract_lets m m'
  have hgrade : m'.grade = c.map.grade := by unfold m'; split <;> rfl
  have hdisabled : m'.disabled = c.map.disabled := by unfold m'; split <;> rfl
  exact fixed_with (d := c) rfl rfl hgrade hdisabled

theorem fixed_routeError (cause port tile : Nat) (c : Chip) : (Chip.routeError cause port tile c).fixed = c.fixed :=
  (completes_routeError cause port tile c).fixed

theorem fixed_passTicks (k : Nat) (c : Chip) : (passTicks k c).fixed = c.fixed := by
  unfold passTicks
  exact fixed_ite rfl rfl

theorem fixed_hifErr (src cause : Nat) (q : QpId) (c : Chip) : (Chip.hifErr src cause q c).fixed = c.fixed :=
  (completes_hifErr src cause q c).fixed

theorem fixed_hifDrop (q : QpId) (c : Chip) : (Chip.hifDrop q c).fixed = c.fixed := (completes_hifDrop q c).fixed

theorem fixed_postFrom (due : Nat) (q : QpId) (cid status r0 r1 r2 : Nat) (c : Chip) :
    (postFrom due q cid status r0 r1 r2 c).fixed = c.fixed := by
  unfold postFrom
  exact fixed_ite rfl (fixed_ite (fixed_hifDrop ..) (fixed_ite rfl rfl))

theorem fixed_postCompletion (q : QpId) (cid status r0 r1 r2 : Nat) (c : Chip) :
    (postCompletion q cid status r0 r1 r2 c).fixed = c.fixed :=
  (completes_postCompletion q cid status r0 r1 r2 c).fixed

theorem fixed_dropWrite (handle : Option (Word × Dword)) (c : Chip) : (dropWrite handle c).fixed = c.fixed := by
  unfold dropWrite
  split
  · exact (fixed_hifDrop ..).trans (fixed_hifDrop ..)
  · exact fixed_hifDrop ..

theorem fixed_onEntry (q : QpId) (index : Nat) (f : QEntry → QEntry) (c : Chip) :
    (Chip.onEntry q index f c).fixed = c.fixed :=
  rfl

theorem fixed_endEntry (q : QpId) (e : QEntry) (status r0 r1 r2 : Nat) (c : Chip) :
    (endEntry q e status r0 r1 r2 c).fixed = c.fixed :=
  (completes_endEntry q e status r0 r1 r2 c).fixed

theorem fixed_refuseSearch (q : QpId) (index : Nat) (c : Chip) : (refuseSearch q index c).fixed = c.fixed := by
  unfold refuseSearch
  split
  · exact fixed_endEntry ..
  · rfl

theorem fixed_refuseReq (r : SearchReq) (c : Chip) : (refuseReq r c).fixed = c.fixed := by
  unfold refuseReq
  split
  · exact fixed_refuseSearch ..
  · rfl

theorem fixed_hifRefuseSearches (c : Chip) : (hifRefuseSearches c).fixed = c.fixed := by
  unfold hifRefuseSearches
  dsimp only
  split
  · exact (fixed_refuseReq ..).trans (fixed_foldl (fun c b => fixed_refuseReq ..) _ _)
  · exact fixed_foldl (fun c b => fixed_refuseReq ..) _ _

theorem fixed_strainReads (v : TileId) (p : Fin 320) (reads : List RegName) (c : Chip) :
    (strainReads v p reads c).fixed = c.fixed := by
  unfold strainReads
  refine fixed_ite ?_ rfl
  split
  · exact fixed_tileEvent ..
  · rfl

theorem fixed_strainLandings (v : TileId) (p : Fin 320) (c : Chip) : (strainLandings v p c).fixed = c.fixed := by
  unfold strainLandings
  refine fixed_ite ?_ rfl
  split
  · exact fixed_tileEvent ..
  · rfl

theorem fixed_onActivity (p : Fin 320) (f : Nat → Nat) (c : Chip) : (onActivity p f c).fixed = c.fixed := by
  unfold onActivity
  split
  · rfl
  · rfl

theorem fixed_addActivity (p : Fin 320) (k : LatClass) (c : Chip) : (addActivity p k c).fixed = c.fixed := by
  unfold addActivity
  exact fixed_onActivity ..

theorem fixed_testFlights (p : Fin 320) (u : BundleUse) (c : Chip) : (testFlights p u c).fixed = c.fixed :=
  foldl_keeps Chip.fixed _ (fun _ _ => by rfl) _ c

theorem fixed_undoRamp (x : QuadId × Forecast × Option Forecast) (c : Chip) : (undoRamp x c).fixed = c.fixed := by
  unfold undoRamp
  exact fixed_ite rfl rfl

theorem fixed_unraise (v : TileId) (src : Nat) (c : Chip) : (unraise v src c).fixed = c.fixed := by
  unfold unraise
  split
  · rfl
  · rfl

theorem fixed_noteEvents (v : TileId) (p : Fin 320) (before c : Chip) :
  (noteEvents v p before c).fixed = c.fixed := by
  unfold noteEvents
  exact fixed_ite rfl rfl

theorem fixed_undoEvents (v : TileId) (u : BundleUse) (c : Chip) : (undoEvents v u c).fixed = c.fixed := by
  unfold undoEvents
  exact fixed_with (fixed_foldl (fun c b => fixed_unraise ..) _ _) rfl rfl rfl

theorem fixed_illegalBundle (v : TileId) (p : Fin 320) (slot : Nat) (c : Chip) :
    (illegalBundle v p slot c).fixed = c.fixed := by
  unfold illegalBundle
  extract_lets u none u' c1 c2 cmp c3 c4
  have h1 : c1.fixed = c.fixed := (fixed_foldl (fun c x => fixed_undoRamp x c) _ _).trans
    ((fixed_onActivity ..).trans (fixed_undoEvents ..))
  have h3 : c3.fixed = c.fixed := h1
  exact (fixed_tileEvent ..).trans (fixed_ite ((fixed_testFlights ..).trans h3) h3)

theorem fixed_fetchBundle (ecc : List (Nat × EccMark)) (c : Chip) (v : TileId) :
    (fetchBundle ecc c v).fixed = c.fixed := by
  unfold fetchBundle
  split
  · rfl
  · exact fixed_ite rfl (fixed_ite (fixed_eccReport ..) ((fixed_illegalBundle ..).trans (fixed_eccReport ..)))

theorem fixed_fetchBundles (ecc : List (Nat × EccMark)) (c : Chip) : (fetchBundles ecc c).fixed = c.fixed := by
  unfold fetchBundles
  exact fixed_ite rfl (fixed_foldl (fun c b => fixed_fetchBundle ..) _ _)

theorem fixed_issued (v : TileId) (p : Fin 320) (slot : Nat) (pred : PReg) (k : LatClass) (dests reads : List RegName)
    (c : Chip) : (issued v p slot pred k dests reads c).fixed = c.fixed := by
  unfold issued
  exact (fixed_addActivity ..).trans (fixed_strainReads ..)

theorem fixed_issue {v : TileId} {slot : Nat} {pred : PReg} {k : LatClass} {legal : Bool} {dests reads : List RegName}
    {body : Fin 320 → Chip → Chip} (h : ∀ p c, (body p c).fixed = c.fixed) (c : Chip) :
    (issue v slot pred k legal dests reads body c).fixed = c.fixed := by
  unfold issue
  split
  · rfl
  · exact fixed_ite rfl (fixed_ite (fixed_illegalBundle ..) ((fixed_noteEvents ..).trans
      (fixed_ite ((h ..).trans (fixed_issued ..)) (fixed_issued ..))))

theorem fixed_issueResult (v : TileId) (slot : Nat) (pred : PReg) (k : LatClass) (legal : Bool)
    (dests reads : List RegName) (result : Tile → List Dest) (c : Chip) :
    (issueResult v slot pred k legal dests reads result c).fixed = c.fixed :=
  fixed_issue (fun _ _ => foldl_keeps Chip.fixed _ (fun _ _ => by rfl) _ _) c

theorem fixed_sendLine (v : TileId) (p : Fin 320) (s : Nat) (line : Line) (dst : SendDst) (c : Chip) :
    (sendLine v p s line dst c).fixed = c.fixed := by
  unfold sendLine
  exact fixed_ite (fixed_tileEvent ..) rfl

theorem fixed_addFill (v : Nat) (port : PortId) (ahead : Nat) (m : OpenMsg) (c : Chip) :
    (addFill v port ahead m c).fixed = c.fixed := by
  unfold addFill
  exact fixed_ite rfl rfl

theorem fixed_completeOpen (v : Nat) (p : Fin 320) (port : PortId) (c : Chip) :
    (completeOpen v p port c).fixed = c.fixed :=
  (completes_completeOpen v p port c).fixed

theorem fixed_completeAllOpen (v : Nat) (p : Fin 320) (c : Chip) : (completeAllOpen v p c).fixed = c.fixed :=
  (completes_completeAllOpen v p c).fixed

theorem fixed_enterEdges (v : Nat) (c : Chip) : (enterEdges v c).fixed = c.fixed := by
  unfold enterEdges
  exact fixed_ite rfl rfl

theorem fixed_sendHead (v : Nat) (c : Chip) : (sendHead v c).fixed = c.fixed := by
  unfold sendHead
  dsimp only
  split
  · rfl
  · split
    · rfl
    · rfl

theorem fixed_meshAdvance (c : Chip) : (meshAdvance c).fixed = c.fixed := by
  unfold meshAdvance
  exact fixed_foldl (fun c b => (fixed_sendHead ..).trans (fixed_enterEdges ..)) _ _

theorem fixed_channelPut (v : Nat) (p : Fin 320) (ch : Chan) (line : Line) (fabric : Bool) (c : Chip) :
    (channelPut v p ch line fabric c).fixed = c.fixed := by
  unfold channelPut
  exact fixed_ite (fixed_tileEvent ..) (fixed_ite (fixed_tileEvent ..) rfl)

theorem fixed_enterChannel (c : Chip) (l : MeshLine) : (enterChannel c l).fixed = c.fixed := by
  unfold enterChannel
  split
  · split
    · exact fixed_channelPut ..
    · rfl
  · rfl

theorem fixed_portPut (port : PortId) (transit : Bool) (tile : Nat) (line : Line) (msg : Dword) (ago : Nat)
  (c : Chip) :
    (portPut port transit tile line msg ago c).fixed = c.fixed := by
  unfold portPut
  exact fixed_ite rfl rfl

theorem fixed_enterEgress (port : PortId) (l : SchedLine) (c : Chip) : (enterEgress port l c).fixed = c.fixed := by
  unfold enterEgress
  exact fixed_ite (fixed_tileEvent ..) ((fixed_onPort ..).trans (fixed_ite (fixed_tileEvent ..) rfl))

theorem fixed_advancePipe (c : Chip) (port : PortId) : (advancePipe c port).fixed = c.fixed := by
  unfold advancePipe
  exact fixed_ite rfl (fixed_foldl (fun c b => fixed_enterEgress ..) _ _)

theorem fixed_fillCycle (c : Chip) (port : PortId) : (fillCycle c port).fixed = c.fixed := by
  unfold fillCycle
  dsimp only
  split
  · rfl
  · exact fixed_ite rfl (fixed_ite (fixed_enterEgress ..) rfl)

theorem fixed_edgeSend (wall fabric : Bool) (r1 c1 v : Nat) (ch : Chan) (line : Line) (wait : Nat) (c : Chip) :
    (edgeSend wall fabric r1 c1 v ch line wait c).fixed = c.fixed := by
  unfold edgeSend
  exact fixed_ite rfl rfl

theorem fixed_markWon (f : Frame) (now : Nat) (c : Chip) : (markWon f now c).fixed = c.fixed := by
  unfold markWon
  exact fixed_ite rfl rfl

theorem fixed_clearPort (p : PortId) (now : Nat) (c : Chip) : (clearPort p now c).fixed = c.fixed := by
  unfold clearPort
  exact (fixed_onPort ..).trans (fixed_foldl (fun c b => fixed_markWon ..) _ _)

theorem fixed_enterDisabled (p : PortId) (now : Nat) (c : Chip) : (enterDisabled p now c).fixed = c.fixed := by
  unfold enterDisabled
  exact (fixed_lower ..).trans ((fixed_onPort ..).trans (fixed_clearPort ..))

theorem fixed_enterDetect (p : PortId) (now : Nat) (c : Chip) : (enterDetect p now c).fixed = c.fixed := by
  unfold enterDetect
  exact fixed_ite (fixed_enterDisabled ..) (fixed_ite ((fixed_onPort ..).trans (fixed_enterDisabled ..))
    ((fixed_onPort ..).trans (fixed_clearPort ..)))

theorem fixed_wakePort (p : PortId) (now : Nat) (c : Chip) : (wakePort p now c).fixed = c.fixed := by
  unfold wakePort
  exact fixed_ite (fixed_enterDetect ..) rfl

theorem fixed_degradeCheck (p : PortId) (c : Chip) : (degradeCheck p c).fixed = c.fixed := by
  unfold degradeCheck
  exact fixed_ite rfl rfl

theorem fixed_raiseDown (p : PortId) (now : Nat) (c : Chip) : (raiseDown p now c).fixed = c.fixed := by
  unfold raiseDown
  split
  · rfl
  · rfl

theorem fixed_enterDown (p : PortId) (reason now : Nat) (c : Chip) : (enterDown p reason now c).fixed = c.fixed := by
  unfold enterDown
  exact fixed_ite ((fixed_raiseDown ..).trans ((fixed_onPort ..).trans ((fixed_clearPort ..).trans (fixed_ite rfl
    (fixed_degradeCheck ..))))) ((fixed_onPort ..).trans ((fixed_clearPort ..).trans (fixed_ite rfl
    (fixed_degradeCheck ..))))

theorem fixed_enterUp (p : PortId) (now : Nat) (c : Chip) : (enterUp p now c).fixed = c.fixed := by
  unfold enterUp
  exact (fixed_lower ..).trans ((fixed_degradeCheck ..).trans (fixed_ite rfl rfl))

theorem fixed_goRetrain (p : PortId) (now : Nat) (c : Chip) : (goRetrain p now c).fixed = c.fixed := by
  unfold goRetrain
  exact fixed_ite rfl (fixed_ite rfl rfl)

theorem fixed_checkRate (p : PortId) (c : Chip) : (checkRate p c).fixed = c.fixed := by
  unfold checkRate
  exact fixed_ite rfl rfl

theorem fixed_replayEvent (p : PortId) (now : Nat) (c : Chip) : (replayEvent p now c).fixed = c.fixed := by
  unfold replayEvent
  exact fixed_ite rfl (fixed_ite ((fixed_goRetrain ..).trans (fixed_checkRate ..)) (fixed_checkRate ..))

theorem fixed_writePortEnable (p : PortId) (enable : Bool) (now : Nat) (c : Chip) :
    (writePortEnable p enable now c).fixed = c.fixed := by
  unfold writePortEnable
  exact fixed_ite rfl (fixed_ite (fixed_cfgDiscard ..) (fixed_ite (fixed_enterDetect ..) (fixed_enterDisabled ..)))

theorem fixed_writePortRetrain (p : PortId) (now : Nat) (c : Chip) : (writePortRetrain p now c).fixed = c.fixed := by
  unfold writePortRetrain
  exact fixed_ite (fixed_cfgDiscard ..) (fixed_ite rfl ((fixed_onPort ..).trans (fixed_enterDetect ..)))

theorem fixed_writePortClass (p : PortId) (cls : BitVec 2) (now : Nat) (c : Chip) :
    (writePortClass p cls now c).fixed = c.fixed := by
  unfold writePortClass
  exact fixed_ite rfl (fixed_ite (fixed_cfgDiscard ..) (fixed_enterDetect ..))

theorem fixed_inState (p : PortId) (st : PortState) (f : Chip → Chip) (c : Chip) (h : ∀ c, (f c).fixed = c.fixed) :
    (inState p st f c).fixed = c.fixed :=
  fixed_ite (h c) rfl

theorem fixed_inPhase (p : PortId) (ph : Phase) (f : Chip → Chip) (c : Chip) (h : ∀ c, (f c).fixed = c.fixed) :
    (inPhase p ph f c).fixed = c.fixed :=
  fixed_ite (h c) rfl

theorem fixed_tellPartners (c : Chip) : (tellPartners c).fixed = c.fixed :=
  foldl_keeps Chip.fixed _ (fun _ _ => by rfl) _ c

theorem fixed_admitPort (now : Nat) (p : PortId) (c : Chip) : (admitPort now p c).fixed = c.fixed := by
  unfold admitPort
  exact fixed_ite rfl rfl

theorem fixed_takeMessage (p : PortId) (f : Frame) (now : Nat) (c : Chip) :
    (takeMessage p f now c).fixed = c.fixed := by
  unfold takeMessage
  exact fixed_ite (fixed_routeError ..) (fixed_ite rfl (fixed_admitPort ..))

theorem fixed_receiveFrame (p : PortId) (frame : List Byte) (now : Nat) (c : Chip) :
    (receiveFrame p frame now c).fixed = c.fixed := by
  unfold receiveFrame
  exact fixed_ite ((fixed_onPort ..).trans (fixed_ite ((fixed_takeMessage ..).trans (fixed_ite
    (fixed_replayEvent ..) rfl)) (fixed_ite ((fixed_onPort ..).trans (fixed_ite (fixed_replayEvent ..) rfl))
    (fixed_ite (fixed_replayEvent ..) rfl)))) rfl

theorem fixed_deliverPorts (c : Chip) : (deliverPorts c).fixed = c.fixed := by
  unfold deliverPorts
  refine (fixed_foldl (fun c b => (fixed_fillCycle ..).trans (fixed_advancePipe ..)) _ _).trans ?_
  refine (fixed_foldl (fun c b => ?_) _ _).trans ?_
  · split
    · exact (fixed_onPort ..).trans (fixed_portPut ..)
    · rfl
  · exact fixed_with (fixed_meshAdvance ..) rfl rfl rfl

theorem fixed_pourOn (k : Fin 4) (f : Frame) (except : Option PortId) (c : Chip) :
    (pourOn k f except c).fixed = c.fixed := by
  rw [pourOn_eq]
  rfl

theorem fixed_clearLags (c : Chip) : (clearLags c).fixed = c.fixed := rfl

theorem fixed_enterRun (l : Dword) (id : PourId) (c : Chip) : (enterRun l id c).fixed = c.fixed :=
  (fixed_clearLags _).trans (fixed_hifRefuseSearches _)

theorem fixed_leaveRun (aborted : Bool) (c : Chip) : (leaveRun aborted c).fixed = c.fixed := by
  by_cases h : c.map.run = true
  · have hleft := leaveRun_left aborted h
    exact fixed_with (d := c) rfl hleft.slot (by rw [hleft.map]) (by rw [hleft.map])
  · simp [leaveRun, h]

theorem fixed_pourAbort (id : PourId) (cause : Nat) (c : Chip) : (pourAbort id cause c).fixed = c.fixed := by
  unfold pourAbort
  exact fixed_pourOn ..

theorem fixed_startAbort (cause : Nat) (c : Chip) : (startAbort cause c).fixed = c.fixed := by
  unfold startAbort
  split
  · exact (fixed_leaveRun ..).trans (fixed_pourAbort ..)
  · exact fixed_leaveRun ..
  · rfl

theorem fixed_resumeIssue (c : Chip) : (resumeIssue c).fixed = c.fixed := by
  unfold resumeIssue
  refine fixed_ite rfl (fixed_ite rfl ?_)
  rw [pourOn_eq]
  rfl

theorem fixed_loseLock (now : Nat) (c : Chip) : (loseLock now c).fixed = c.fixed := by
  unfold loseLock
  exact fixed_startAbort ..

theorem fixed_takePlace (now : Nat) (c : Chip) : (takePlace now c).fixed = c.fixed := by
  unfold takePlace
  refine fixed_ite rfl ?_
  split
  · rfl
  · exact fixed_loseLock ..

theorem fixed_applySync (f : Frame) (p : PortId) (ago now : Nat) (c : Chip) :
    (applySync f p ago now c).fixed = c.fixed := by
  unfold applySync
  exact fixed_ite rfl (fixed_ite rfl (fixed_ite (fixed_startAbort ..) rfl))

theorem fixed_beginProgram (ecc : List (Nat × EccMark)) (c : Chip) : (beginProgram ecc c).fixed = c.fixed := by
  unfold beginProgram
  exact fixed_fetchBundles ..

theorem fixed_resetQuad (q : QuadId) (c : Chip) : (resetQuad q c).fixed = c.fixed := by
  unfold resetQuad
  exact fixed_with (d := c) rfl rfl rfl rfl

theorem fixed_restartScrubs (q : Nat) (c : Chip) : (restartScrubs q c).fixed = c.fixed := by
  unfold restartScrubs
  exact fixed_with (d := c) rfl rfl rfl rfl

theorem fixed_abandonSearch (c : Chip) : (abandonSearch c).fixed = c.fixed := by
  unfold abandonSearch
  exact fixed_with (fixed_hifRefuseSearches ..) rfl rfl rfl

theorem fixed_resetSearch (c : Chip) : (resetSearch c).fixed = c.fixed := by
  unfold resetSearch
  extract_lets c1 s
  have h1 : c1.fixed = c.fixed := by
    refine (fixed_foldl (fun c o => ?_) _ _).trans (fixed_abandonSearch c)
    split
    · exact fixed_refuseSearch ..
    · rfl
  exact h1

theorem fixed_resetHost (c : Chip) : (resetHost c).fixed = c.fixed := rfl

theorem fixed_resetPorts (bit now : Nat) (c : Chip) : (resetPorts bit now c).fixed = c.fixed := by
  unfold resetPorts
  exact fixed_foldl (fun c b => fixed_enterDisabled ..) _ _

theorem fixed_resetDomain (bit now : Nat) (c : Chip) : (resetDomain bit now c).fixed = c.fixed := by
  unfold resetDomain
  refine fixed_ite (fixed_resetSearch ..) ?_
  refine fixed_ite rfl ?_
  refine fixed_ite (fixed_resetPorts ..) ?_
  refine fixed_ite rfl ?_
  split
  · exact fixed_ite (fixed_resetQuad ..) rfl
  · rfl

theorem fixed_ownersReset (os : List Owner) (c : Chip) : (Chip.ownersReset os c).fixed = c.fixed := rfl

theorem fixed_resetDomains (bits : List Nat) (now : Nat) (c : Chip) : (resetDomains bits now c).fixed = c.fixed := by
  unfold resetDomains
  exact fixed_foldl (fun c b => fixed_resetDomain ..) _ _

theorem fixed_stopCompute (now : Nat) (c : Chip) : (stopCompute now c).fixed = c.fixed := by
  unfold stopCompute
  exact (fixed_clearLags ..).trans ((fixed_leaveRun ..).trans (fixed_resetDomains ..))

theorem fixed_resetCompute (now : Nat) (c : Chip) : (resetCompute now c).fixed = c.fixed := by
  unfold resetCompute
  exact (fixed_ownersReset ..).trans (fixed_stopCompute ..)

theorem fixed_startPorts (bit now : Nat) (c : Chip) : (startPorts bit now c).fixed = c.fixed := by
  unfold startPorts
  exact fixed_ite (fixed_foldl (fun c p => (fixed_enterDetect ..).trans (fixed_onPort ..)) _ _) rfl

theorem fixed_startDomain (bit now : Nat) (c : Chip) : (startDomain bit now c).fixed = c.fixed := by
  unfold startDomain
  exact fixed_ite (fixed_restartScrubs ..) (fixed_startPorts ..)

theorem fixed_setHeld (extra : BitVec 12) (now : Nat) (c : Chip) : (setHeld extra now c).fixed = c.fixed := by
  unfold setHeld
  exact fixed_foldl (fun c b => fixed_ite (fixed_startPorts ..) rfl) _ _

theorem fixed_setTrans (bit : Nat) (t : Option DomTrans) (c : Chip) : (setTrans bit t c).fixed = c.fixed := by
  unfold setTrans
  split
  · rfl
  · rfl

theorem fixed_setOn (bit : Nat) (on : Bool) (c : Chip) : (setOn bit on c).fixed = c.fixed := rfl

theorem fixed_domainOff (bit now : Nat) (c : Chip) : (domainOff bit now c).fixed = c.fixed := by
  unfold domainOff
  exact fixed_ite ((fixed_resetDomain ..).trans (fixed_setTrans ..)) rfl

theorem fixed_domainOnReq (bit now : Nat) (c : Chip) : (domainOnReq bit now c).fixed = c.fixed := by
  unfold domainOnReq
  exact fixed_ite rfl (fixed_setTrans ..)

theorem fixed_followRequests (now : Nat) (c : Chip) : (followRequests now c).fixed = c.fixed := by
  unfold followRequests
  exact fixed_foldl (fun c b => fixed_ite (fixed_domainOnReq ..) (fixed_domainOff ..)) _ _

theorem fixed_writeDomReq (value : Word) (now : Nat) (c : Chip) : (writeDomReq value now c).fixed = c.fixed := by
  unfold writeDomReq
  exact fixed_ite rfl (fixed_ite (fixed_cfgDiscard ..) (fixed_followRequests ..))

theorem fixed_powerOnEnd (bit now : Nat) (c : Chip) : (powerOnEnd bit now c).fixed = c.fixed := by
  unfold powerOnEnd
  split
  · exact fixed_ite ((fixed_ownersReset ..).trans ((fixed_startDomain ..).trans ((fixed_resetDomain ..).trans
    ((fixed_setOn ..).trans (fixed_setTrans ..))))) rfl
  · rfl

theorem fixed_powerOffEnd (bit now : Nat) (c : Chip) : (powerOffEnd bit now c).fixed = c.fixed := by
  unfold powerOffEnd
  split
  · exact fixed_ite (fixed_ite ((fixed_domainOnReq ..).trans (fixed_setTrans ..)) (fixed_setTrans ..)) rfl
  · rfl

theorem fixed_stopTimeBase (c : Chip) : (stopTimeBase c).fixed = c.fixed := rfl

theorem fixed_startTimeBase (now : Nat) (c : Chip) : (startTimeBase now c).fixed = c.fixed := by
  unfold startTimeBase
  exact fixed_ite rfl rfl

theorem fixed_enterLowIdle (now : Nat) (c : Chip) : (enterLowIdle now c).fixed = c.fixed := by
  unfold enterLowIdle
  exact (fixed_setOn ..).trans (fixed_followRequests ..)

theorem fixed_writeLowIdle (v : Bool) (now : Nat) (c : Chip) : (writeLowIdle v now c).fixed = c.fixed := by
  unfold writeLowIdle
  exact fixed_ite (fixed_ite rfl (fixed_ite rfl (fixed_enterLowIdle ..))) (fixed_ite ((fixed_startTimeBase ..).trans
    (fixed_followRequests ..)) rfl)

theorem fixed_wakeAccess (now : Nat) (c : Chip) : (wakeAccess now c).fixed = c.fixed := by
  unfold wakeAccess
  exact fixed_ite rfl rfl

theorem fixed_stopMonitors (now : Nat) (c : Chip) : (stopMonitors now c).fixed = c.fixed := by
  unfold stopMonitors
  exact (fixed_setHeld ..).trans (fixed_with (d := c) rfl rfl rfl rfl)

theorem fixed_enterRetention (now : Nat) (c : Chip) : (enterRetention now c).fixed = c.fixed := by
  unfold enterRetention
  refine fixed_ite rfl ?_
  exact ((fixed_stopMonitors ..).trans ((fixed_stopTimeBase ..).trans (fixed_followRequests ..))).trans
    ((fixed_resetHost ..).trans (fixed_stopCompute ..))

theorem fixed_clearFail (c : Chip) : (clearFail c).fixed = c.fixed := by
  unfold clearFail
  exact fixed_ite (fixed_ownersReset ..) rfl

theorem fixed_leaveRetention (now : Nat) (c : Chip) : (leaveRetention now c).fixed = c.fixed := by
  unfold leaveRetention
  exact fixed_ite rfl ((fixed_startTimeBase ..).trans ((fixed_followRequests ..).trans ((fixed_setHeld ..).trans
    (fixed_with (fixed_clearFail ..) rfl rfl rfl))))

theorem fixed_opGo (c : Chip) : (opGo c).fixed = c.fixed := by
  unfold opGo
  exact fixed_ite rfl rfl

theorem fixed_opStart (now : Nat) (c : Chip) : (opStart now c).fixed = c.fixed := by
  unfold opStart
  split
  · rfl
  · exact fixed_ite rfl (fixed_ite rfl rfl)

theorem fixed_retrainLost (now : Nat) (c : Chip) : (retrainLost now c).fixed = c.fixed := by
  unfold retrainLost
  exact fixed_foldl (fun c b => fixed_ite (fixed_goRetrain ..) rfl) _ _

theorem fixed_reacquire (now : Nat) (c : Chip) : (reacquire now c).fixed = c.fixed := by
  unfold reacquire
  refine fixed_ite rfl ?_
  refine fixed_ite rfl ?_
  split
  · rfl
  · exact fixed_loseLock ..

theorem fixed_opEnd (ok : Bool) (now : Nat) (c : Chip) : (opEnd ok now c).fixed = c.fixed := by
  unfold opEnd
  exact fixed_ite ((fixed_enterLowIdle ..).trans ((fixed_reacquire ..).trans ((fixed_retrainLost ..).trans
    ((fixed_tellPartners ..).trans (fixed_ite (fixed_setHeld ..) ((fixed_setHeld ..).trans
    ((fixed_resetDomains ..).trans (fixed_resetCompute ..)))))))) ((fixed_reacquire ..).trans
    ((fixed_retrainLost ..).trans ((fixed_tellPartners ..).trans (fixed_ite (fixed_setHeld ..)
    ((fixed_setHeld ..).trans ((fixed_resetDomains ..).trans (fixed_resetCompute ..)))))))

theorem fixed_chipReset (now : Nat) (c : Chip) : (chipReset now c).fixed = c.fixed := by
  unfold chipReset
  refine (fixed_foldl (fun c b => fixed_startPorts ..) _ _).trans ?_
  exact (fixed_setHeld ..).trans ((fixed_ownersReset ..).trans ((fixed_resetDomains ..).trans
    ((fixed_resetCompute ..).trans (fixed_clearFail ..))))

theorem fixed_breakMessage (v : Nat) (p : Fin 320) (q : List SendLine) (c : Chip) (port : PortId) :
    (breakMessage v p q c port).fixed = c.fixed := by
  unfold breakMessage
  dsimp only
  split
  · exact fixed_ite (fixed_ite (fixed_routeError ..) rfl) ((fixed_addFill ..).trans (fixed_ite
    (fixed_routeError ..) rfl))
  · exact (fixed_addFill ..).trans (fixed_ite (fixed_routeError ..) rfl)
  · exact fixed_ite (fixed_routeError ..) rfl

theorem fixed_blockResetTile (v : Nat) (p : Fin 320) (c : Chip) : (blockResetTile v p c).fixed = c.fixed := by
  unfold blockResetTile
  exact (fixed_onTile ..).trans (fixed_foldl (fun c b => fixed_breakMessage ..) _ _)

theorem fixed_blockReset (o : Owner) (now : Nat) (c : Chip) : (blockReset o now c).fixed = c.fixed := by
  unfold blockReset
  dsimp only
  split
  · split
    · split
      · exact fixed_blockResetTile ..
      · rfl
    · exact fixed_ite rfl ((fixed_enterDetect ..).trans (fixed_enterDisabled ..))
    · rfl
    · exact fixed_abandonSearch ..
    · rfl
    · rfl
    · rfl
  · split
    · split
      · exact fixed_blockResetTile ..
      · rfl
    · exact fixed_ite rfl ((fixed_enterDetect ..).trans (fixed_enterDisabled ..))
    · rfl
    · exact fixed_abandonSearch ..
    · rfl
    · rfl
    · rfl
  · refine (fixed_ownersReset ..).trans ?_
    split
    · split
      · exact fixed_blockResetTile ..
      · rfl
    · exact fixed_ite rfl ((fixed_enterDetect ..).trans (fixed_enterDisabled ..))
    · rfl
    · exact fixed_abandonSearch ..
    · rfl
    · rfl
    · rfl

theorem fixed_deliverNmi (c : Chip) : (deliverNmi c).fixed = c.fixed := by
  unfold deliverNmi
  refine fixed_ite rfl ?_
  split
  · rfl
  · rfl

theorem fixed_readEffect (o : Nat) (c : Chip) : (readEffect o c).fixed = c.fixed := by
  unfold readEffect
  refine fixed_ite rfl ?_
  refine fixed_ite rfl ?_
  refine fixed_ite rfl ?_
  refine fixed_ite rfl ?_
  refine fixed_ite ?_ rfl
  split
  · rfl
  · rfl

theorem fixed_lockedWrite (off : Nat) (new : Chip → Chip) (changed : Bool) (c : Chip) (h : (new c).fixed = c.fixed) :
    (lockedWrite off new changed c).fixed = c.fixed :=
  fixed_ite rfl (fixed_ite (fixed_cfgDiscard off c) h)

theorem fixed_qpDisable (q : QpId) (c : Chip) : (qpDisable q c).fixed = c.fixed := by
  unfold qpDisable
  exact fixed_ite rfl rfl

theorem fixed_writeQpCtl (q : QpId) (v : Word) (c : Chip) : (writeQpCtl q v c).fixed = c.fixed := by
  unfold writeQpCtl
  exact fixed_ite rfl (fixed_qpDisable ..)

theorem fixed_writeTileChecks (o : Nat) (v : Word) (c : Chip) : (writeTileChecks o v c).fixed = c.fixed := by
  unfold writeTileChecks
  dsimp only
  split
  · exact fixed_lockedWrite _ _ _ _ rfl
  · rfl
  · exact fixed_ite rfl rfl
  · rfl
  · exact fixed_ite rfl rfl
  · exact fixed_ite rfl rfl
  · rfl

theorem fixed_writeFc (o : Nat) (v : Word) (now : Nat) (c : Chip) : (writeFc o v now c).fixed = c.fixed := by
  unfold writeFc
  exact fixed_ite (fixed_writeTileChecks ..) rfl

theorem fixed_writeOpCtl (v : Word) (c : Chip) : (writeOpCtl v c).fixed = c.fixed := by
  unfold writeOpCtl
  exact fixed_ite ((fixed_opGo ..).trans (fixed_lockedWrite _ _ _ _ rfl)) (fixed_lockedWrite _ _ _ _ rfl)

theorem fixed_writeOpAt (off : Nat) (x : Dword) (c : Chip) : (writeOpAt off x c).fixed = c.fixed :=
  fixed_lockedWrite _ _ _ _ rfl

theorem fixed_commitGroups (steep mon : Bool) (c : Chip) : (commitGroups steep mon c).fixed = c.fixed := by
  unfold commitGroups
  exact fixed_ite rfl rfl

theorem fixed_onPwr (f : Power → Power) (c : Chip) : (Chip.onPwr f c).fixed = c.fixed := rfl

theorem fixed_writePwrTop (o : Nat) (v : Word) (now : Nat) (c : Chip) : (writePwrTop o v now c).fixed = c.fixed := by
  unfold writePwrTop
  split
  · exact fixed_writeDomReq ..
  · exact fixed_writeLowIdle ..
  · exact fixed_writeOpCtl ..
  · exact fixed_writeOpAt ..
  · exact fixed_writeOpAt ..
  · exact fixed_ite rfl rfl
  · rfl
  · exact fixed_ite rfl rfl
  · rfl
  · exact fixed_commitGroups ..
  · rfl

theorem fixed_writePwr (o : Nat) (v : Word) (now : Nat) (c : Chip) : (writePwr o v now c).fixed = c.fixed := by
  unfold writePwr
  refine fixed_ite ?_ ?_
  · split
    · rfl
    · rfl
  · refine fixed_ite rfl ?_
    refine fixed_ite ?_ ?_
    · split
      · rfl
      · rfl
    · refine fixed_ite ?_ (fixed_writePwrTop ..)
      split
      · rfl
      · rfl

theorem fixed_refreshRole (now : Nat) (c : Chip) : (refreshRole now c).fixed = c.fixed := by
  unfold refreshRole
  exact fixed_ite (fixed_ite rfl rfl) (fixed_ite (fixed_takePlace ..) rfl)

theorem fixed_lockedTime (now off : Nat) (t : TimeRegs) (c : Chip) : (lockedTime now off t c).fixed = c.fixed :=
  fixed_lockedWrite _ _ _ _ (fixed_refreshRole ..)

theorem fixed_writeTime (now o : Nat) (v : Word) (c : Chip) : (writeTime now o v c).fixed = c.fixed := by
  unfold writeTime
  split
  · exact fixed_lockedTime ..
  · exact fixed_lockedTime ..
  · exact fixed_lockedTime ..
  · exact fixed_lockedTime ..
  · exact fixed_lockedTime ..
  · exact fixed_lockedTime ..
  · exact fixed_lockedTime ..
  · exact fixed_lockedTime ..
  · exact fixed_lockedTime ..
  · exact fixed_ite rfl rfl
  · rfl

theorem fixed_writePortCtl (p : PortId) (v : Word) (now : Nat) (c : Chip) :
    (writePortCtl p v now c).fixed = c.fixed := by
  unfold writePortCtl
  exact fixed_ite (fixed_ite (fixed_cfgDiscard ..) rfl) (fixed_ite ((fixed_writePortRetrain ..).trans
    ((fixed_writePortEnable ..).trans (fixed_writePortClass ..))) ((fixed_writePortEnable ..).trans
    (fixed_writePortClass ..)))

theorem fixed_writePort (p : PortId) (r : Nat) (v : Word) (now : Nat) (c : Chip) :
    (writePort p r v now c).fixed = c.fixed := by
  unfold writePort
  refine fixed_ite ?_ ?_
  · split
    · rfl
    · rfl
  · split
    · exact fixed_writePortCtl ..
    · rfl
    · rfl
    · rfl
    · rfl
    · rfl
    · rfl
    · rfl
    · rfl
    · rfl

theorem fixed_lockedFab (off : Nat) (f : Fabric) (c : Chip) (h : f.slot = c.fab.slot) :
    (lockedFab off f c).fixed = c.fixed :=
  fixed_lockedWrite _ _ _ _ (fixed_with (d := c) rfl h rfl rfl)

theorem fixed_writeFabric (r : Nat) (v : Word) (c : Chip) : (writeFabric r v c).fixed = c.fixed := by
  unfold writeFabric
  dsimp only
  split
  · exact fixed_lockedFab _ _ _ rfl
  · exact fixed_lockedFab _ _ _ rfl
  · exact fixed_lockedFab _ _ _ rfl
  · exact fixed_lockedFab _ _ _ rfl
  · rfl
  · rfl
  · exact fixed_ite rfl rfl
  · rfl
  · rfl

theorem fixed_writeTraceCtl (v : Word) (now : Nat) (c : Chip) : (writeTraceCtl v now c).fixed = c.fixed :=
  fixed_lockedWrite _ _ _ _ (fixed_followRequests ..)

theorem fixed_writeColumnMap (o : Nat) (v : Word) (c : Chip) : (writeColumnMap o v c).fixed = c.fixed := by
  unfold writeColumnMap
  extract_lets m0 m
  have hgrade : m.grade = c.map.grade := by unfold m; split <;> rfl
  have hdisabled : m.disabled = c.map.disabled := by unfold m; split <;> rfl
  exact fixed_lockedWrite _ _ _ _ (fixed_with (d := c) rfl rfl hgrade hdisabled)

theorem fixed_writeMap (o : Nat) (v : Word) (now : Nat) (c : Chip) : (writeMap o v now c).fixed = c.fixed := by
  unfold writeMap
  refine fixed_ite (fixed_writeColumnMap ..) ?_
  split
  · exact fixed_ite rfl rfl
  · exact fixed_writeTraceCtl ..
  · rfl
  · rfl

theorem fixed_writeChipMap (o : Nat) (v : Word) (c : Chip) : (writeChipMap o v c).fixed = c.fixed :=
  fixed_lockedFab _ _ _ rfl

theorem fixed_writeMgt (o : Nat) (v : Word) (c : Chip) : (writeMgt o v c).fixed = c.fixed := by
  unfold writeMgt
  split
  · rfl
  · rfl
  · rfl
  · rfl
  · rfl
  · exact fixed_ite rfl rfl
  · rfl

theorem fixed_railRecovered (r : MonRail) (now : Nat) (c : Chip) : (railRecovered r now c).fixed = c.fixed := by
  unfold railRecovered
  exact (fixed_resumeIssue ..).trans ((fixed_setHeld ..).trans (fixed_ite (fixed_ownersReset ..) rfl))

theorem fixed_railReset (r : MonRail) (now : Nat) (c : Chip) : (railReset r now c).fixed = c.fixed := by
  unfold railReset
  exact (fixed_setHeld ..).trans ((fixed_resetDomains ..).trans (fixed_resetCompute ..))

theorem fixed_thermalTrip (now : Nat) (c : Chip) : (thermalTrip now c).fixed = c.fixed := by
  unfold thermalTrip
  exact (fixed_followRequests ..).trans ((fixed_clearLags ..).trans (fixed_leaveRun false (c.raise 46 .chip)))

theorem fixed_thermalReact (h : ℤ) (now : Nat) (c : Chip) : (thermalReact h now c).fixed = c.fixed := by
  unfold thermalReact
  exact fixed_ite ((fixed_thermalTrip ..).trans ((fixed_onPwr ..).trans (fixed_ite (fixed_ite rfl rfl)
    ((fixed_onPwr ..).trans (fixed_ite rfl rfl))))) ((fixed_onPwr ..).trans (fixed_ite (fixed_ite rfl rfl)
    ((fixed_onPwr ..).trans (fixed_ite rfl rfl))))

theorem fixed_applyForecast (q : QuadId) (c : Chip) : (applyForecast q c).fixed = c.fixed := by
  unfold applyForecast
  split
  · exact fixed_ite rfl rfl
  · rfl

theorem fixed_endWake (now : Nat) (c : Chip) : (endWake now c).fixed = c.fixed := by
  unfold endWake
  exact fixed_ite rfl rfl

theorem fixed_refuse (l : Line) (entered d at_ : Nat) (o : SearchOrigin) (c : Chip) :
    (refuse l entered d at_ o c).fixed = c.fixed := by
  unfold refuse
  split
  · exact fixed_refuseSearch ..
  · rfl

theorem fixed_submitSearch (l : Line) (d entered at_ : Nat) (o : SearchOrigin) (c : Chip) :
    (submitSearch l d entered at_ o c).fixed = c.fixed := by
  unfold submitSearch
  exact fixed_ite (fixed_refuse ..) rfl

theorem fixed_takeSearchLines (c : Chip) : (takeSearchLines c).fixed = c.fixed := by
  unfold takeSearchLines
  refine fixed_ite (fixed_with (fixed_meshAdvance ..) rfl rfl rfl) ?_
  refine (fixed_foldl (fun c b => ?_) _ _).trans ?_
  · split
    · exact fixed_submitSearch ..
    · rfl
  · exact fixed_with (fixed_meshAdvance ..) rfl rfl rfl

theorem fixed_countAnswer (a : SearchAnswer) (c : Chip) : (countAnswer a c).fixed = c.fixed := by
  unfold countAnswer
  exact fixed_ite ((fixed_raise ..).trans (fixed_ite rfl rfl)) (fixed_ite rfl rfl)

theorem fixed_deliverToTile (v : Nat) (rch : Chan) (due : Nat) (a : SearchAnswer) (c : Chip) :
    (deliverToTile v rch due a c).fixed = c.fixed := by
  unfold deliverToTile
  exact fixed_foldl (fun c b => fixed_edgeSend ..) _ _

theorem fixed_putResult (q : QpId) (e : QEntry) (o : SearchOut) (c : Chip) (i : Nat) :
    (putResult q e o c i).fixed = c.fixed := by
  unfold putResult
  exact fixed_ite rfl (fixed_ite ((fixed_endEntry ..).trans (fixed_hifDrop ..)) (fixed_hifDrop ..))

theorem fixed_sendHostOut (q : QpId) (e : QEntry) (o : SearchOut) (c : Chip) :
    (sendHostOut q e o c).fixed = c.fixed := by
  unfold sendHostOut
  exact fixed_ite (fixed_with (fixed_foldl (fun c b => fixed_putResult ..) _ _) rfl rfl rfl) (fixed_foldl
    (fun c b => fixed_putResult ..) _ _)

theorem fixed_sendHostLines (c : Chip) : (sendHostLines c).fixed = c.fixed := by
  unfold sendHostLines
  refine fixed_foldl (fun c b => ?_) _ _
  split
  · rfl
  · split
    · exact fixed_sendHostOut ..
    · rfl

theorem fixed_deliverOut (c : Chip) (o : SearchOut) : (deliverOut c o).fixed = c.fixed := by
  unfold deliverOut
  split
  · exact fixed_deliverToTile ..
  · rfl

theorem fixed_deliverReady (c : Chip) : (deliverReady c).fixed = c.fixed := by
  unfold deliverReady
  exact fixed_foldl (fun c b => fixed_deliverOut ..) _ _

theorem fixed_endGlobal (q : QpId) (e : QEntry) (c : Chip) : (endGlobal q e c).fixed = c.fixed := by
  unfold endGlobal
  split
  · exact fixed_endEntry ..
  · exact fixed_endEntry ..
  · exact fixed_endEntry ..
  · exact fixed_endEntry ..

theorem fixed_strictXoff (c : Chip) : (strictXoff c).fixed = c.fixed := by
  unfold strictXoff
  exact fixed_ite (fixed_startAbort ..) rfl

theorem fixed_countFixed (p : PortId) (fixed : List Nat) (now : Nat) (c : Chip) :
    (countFixed p fixed now c).fixed = c.fixed := by
  unfold countFixed
  exact fixed_ite rfl (fixed_goRetrain ..)

theorem fixed_passOn (p : PortId) (f : Frame) (c : Chip) : (passOn p f c).fixed = c.fixed := by
  unfold passOn
  split
  · exact fixed_portPut ..
  · exact fixed_ite rfl (fixed_ite (fixed_routeError ..) (fixed_ite (fixed_routeError ..) (fixed_edgeSend ..)))

theorem fixed_passFirst (p : PortId) (c : Chip) : (passFirst p c).fixed = c.fixed := by
  unfold passFirst
  split
  · rfl
  · exact fixed_passOn ..

theorem fixed_putHost (p : PortId) (fs : List Frame) (c : Chip) : (putHost p fs c).fixed = c.fixed := rfl

theorem fixed_sendResponse (f : Frame) (c : Chip) : ((sendResponse f c).getD c).fixed = c.fixed := by
  unfold sendResponse
  split
  · exact fixed_putHost ..
  · rfl
  · rfl

/-- A response in answer to what has been taken: it goes on, or nothing has been taken. -/
theorem fixed_answered (f : Frame) {c d : Chip} (h : d.fixed = c.fixed) :
    ((sendResponse f d).getD c).fixed = c.fixed := by
  cases hs : sendResponse f d with
  | none => rfl
  | some e =>
    have hkept := fixed_sendResponse f d
    rw [hs] at hkept
    exact hkept.trans h

theorem fixed_forwardHost (p : PortId) (f : Frame) (c : Chip) : (forwardHost p f c).fixed = c.fixed := by
  unfold forwardHost
  dsimp only
  split
  · exact fixed_putHost ..
  · rfl
  · split
    · exact fixed_answered _ rfl
    · exact fixed_answered _ rfl
    · rfl
    · rfl

theorem fixed_answerTxn (r : RespTxn) (status : Nat) (l : Line) (c : Chip) :
    (answerTxn r status l c).fixed = c.fixed := by
  unfold answerTxn
  exact fixed_ite rfl (fixed_sendResponse ..)

theorem fixed_writePush (q : QpId) (offset : Nat) (bytes : List Byte) (c : Chip) :
    (writePush q offset bytes c).fixed = c.fixed := by
  unfold writePush
  exact fixed_ite rfl (fixed_ite rfl (fixed_ite rfl (fixed_ite rfl rfl)))

theorem fixed_placeInput (q : QpId) (e : QEntry) (c : Chip) : (placeInput q e c).fixed = c.fixed := by
  unfold placeInput
  exact fixed_ite (fixed_endEntry ..) (fixed_ite (fixed_endEntry ..) rfl)

theorem fixed_acceptLaunch (q : QpId) (e : QEntry) (c : Chip) : (acceptLaunch q e c).fixed = c.fixed := by
  unfold acceptLaunch
  exact fixed_ite ((fixed_postCompletion ..).trans ((fixed_onEntry ..).trans ((fixed_pourOn ..).trans
    (fixed_enterRun ..)))) ((fixed_onEntry ..).trans ((fixed_pourOn ..).trans (fixed_enterRun ..)))

theorem fixed_takeHostLines (c : Chip) : (takeHostLines c).fixed = c.fixed := by
  unfold takeHostLines
  refine (fixed_foldl (fun c b => ?_) _ _).trans ?_
  · split
    · exact fixed_ite (fixed_dropWrite ..) (fixed_ite (fixed_tileEvent ..) rfl)
    · rfl
  · exact fixed_with (fixed_meshAdvance ..) rfl rfl rfl

theorem fixed_handleCompletion (handle : Word) (view : Dword) (c : Chip) :
    (handleCompletion handle view c).fixed = c.fixed := by
  unfold handleCompletion
  exact fixed_ite (fixed_postFrom ..) rfl

theorem fixed_drainHost (c : Chip) : (drainHost c).fixed = c.fixed := by
  unfold drainHost
  exact fixed_foldl (fun c b => fixed_takeHostLines ..) _ _

theorem fixed_endWrite (w : HostWrite) (c : Chip) : (endWrite w c).fixed = c.fixed := by
  unfold endWrite
  dsimp only
  split
  · split
    · refine (fixed_endEntry ..).trans ?_
      split
      · exact fixed_handleCompletion ..
      · rfl
    · split
      · exact fixed_handleCompletion ..
      · rfl
  · split
    · exact fixed_handleCompletion ..
    · rfl

theorem fixed_onUse (p : Fin 320) (f : BundleUse → BundleUse) (c : Chip) : (onUse p f c).fixed = c.fixed := rfl

theorem fixed_makeLoopTest (p : Fin 320) (c : Chip) : (makeLoopTest p c).fixed = c.fixed := by
  unfold makeLoopTest
  exact fixed_ite rfl ((fixed_onTile ..).trans ((fixed_onUse ..).trans (fixed_testFlights ..)))

theorem fixed_endTile (v : Nat) (p : Fin 320) (c : Chip) : (endTile v p c).fixed = c.fixed := by
  unfold endTile
  exact fixed_completeAllOpen ..

theorem fixed_rampQuad (p : Fin 320) (level : BitVec 6) (lead : Nat) (q : QuadId) (c : Chip) :
    (rampQuad p level lead q c).fixed = c.fixed := by
  unfold rampQuad
  exact fixed_ite (fixed_ite rfl rfl) rfl

theorem fixed_deliverTile (v : Nat) (c : Chip) : (deliverTile v c).fixed = c.fixed := by
  unfold deliverTile
  dsimp only
  split
  · rfl
  · exact fixed_enterChannel ..

theorem fixed_deliverMesh (c : Chip) : (deliverMesh c).fixed = c.fixed := by
  unfold deliverMesh
  exact fixed_ite (fixed_foldl (fun c b => fixed_enterChannel ..) _ _) rfl

theorem fixed_countPass (c : Chip) : (countPass c).fixed = c.fixed := by
  unfold countPass
  extract_lets mapped c1
  have h1 : c1.fixed = c.fixed := foldl_keeps Chip.fixed _ (fun _ _ => by rfl) mapped c
  exact fixed_ite h1 rfl

theorem fixed_scrubLine (ecc : List (Nat × EccMark)) (v : TileId) (p : Fin 320) (b : Fin 16) (c : Chip) :
    (scrubLine ecc v p b c).fixed = c.fixed := by
  unfold scrubLine
  exact (fixed_countPass ..).trans ((fixed_onTile ..).trans (fixed_eccReport ..))

theorem fixed_fsendFirst (v : TileId) (p : Fin 320) (line : Line) (t : Nat) (part : Part) (port : PortId)
    (msgW routeW : Word) (c : Chip) : (fsendFirst v p line t part port msgW routeW c).fixed = c.fixed := by
  unfold fsendFirst
  dsimp only
  split
  · exact fixed_ite ((fixed_onTile ..).trans (fixed_routeError ..)) (fixed_routeError ..)
  · exact fixed_ite ((fixed_onTile ..).trans (fixed_sendLine ..)) (fixed_sendLine ..)

theorem fixed_fsendNext (v : TileId) (p : Fin 320) (line : Line) (t : Nat) (part : Part) (port : PortId) (m : OpenMsg)
    (c : Chip) : (fsendNext v p line t part port m c).fixed = c.fixed := by
  unfold fsendNext
  exact (fixed_onTile ..).trans (fixed_ite rfl (fixed_sendLine ..))

theorem fixed_fsendLine (v : TileId) (p : Fin 320) (line : Line) (t : Nat) (part : Part) (port : PortId)
    (ac ar : AReg) (c : Chip) : (fsendLine v p line t part port ac ar c).fixed = c.fixed := by
  unfold fsendLine
  refine fixed_ite (fixed_tileEvent ..) ?_
  refine fixed_ite ?_ (fixed_ite (fixed_completeOpen ..) (fixed_routeError ..))
  split
  · exact fixed_fsendFirst ..
  · exact fixed_fsendNext ..

theorem fixed_steepCycle (q : QuadId) (c : Chip) : (steepCycle q c).fixed = c.fixed := by
  unfold steepCycle
  exact fixed_ite rfl (fixed_ite ((fixed_raise ..).trans ((fixed_onPwr ..).trans (fixed_applyForecast ..)))
    ((fixed_onPwr ..).trans (fixed_applyForecast ..)))

theorem fixed_traceCycle (c : Chip) : (traceCycle c).fixed = c.fixed := by
  unfold traceCycle
  split
  · rfl
  · rfl

theorem fixed_crcCycle (c : Chip) : (crcCycle c).fixed = c.fixed := by
  unfold crcCycle
  refine fixed_ite rfl ?_
  split
  · split
    · exact fixed_ite rfl rfl
    · rfl
  · rfl

theorem fixed_endBundle (c : Chip) (v : TileId) : (endBundle c v).fixed = c.fixed := by
  unfold endBundle
  split
  · rfl
  · exact fixed_ite ((fixed_endTile ..).trans ((fixed_strainLandings ..).trans (fixed_makeLoopTest ..))) (fixed_ite
    ((fixed_endTile ..).trans ((fixed_illegalBundle ..).trans ((fixed_strainLandings ..).trans
    (fixed_makeLoopTest ..)))) ((fixed_onTile ..).trans ((fixed_strainLandings ..).trans (fixed_makeLoopTest ..))))

theorem fixed_openGates (c : Chip) : (openGates c).fixed = c.fixed := rfl

theorem fixed_issueCycle (ecc : List (Nat × EccMark)) (c : Chip) : (issueCycle ecc c).fixed = c.fixed := by
  have hpast (d : Chip) (cmp : Compute) : (dropPast { d with cmp := cmp }).fixed = d.fixed := rfl
  unfold issueCycle
  extract_lets c1 cmp c2
  have h1 : c1.fixed = c.fixed := (fixed_openGates _).trans ((fixed_foldl (fun c p => fixed_endBundle c p) _ _).trans
    (fixed_resumeIssue c))
  have h2 : c2.fixed = c1.fixed := hpast c1 _
  exact (fixed_fetchBundles ..).trans ((fixed_foldl (fun c q => fixed_applyForecast q c) _ _).trans (h2.trans h1))

theorem fixed_holdCycle (c : Chip) : (holdCycle c).fixed = c.fixed := rfl

theorem fixed_coreCycle (ecc : List (Nat × EccMark)) (c : Chip) : (coreCycle ecc c).fixed = c.fixed := by
  unfold coreCycle
  exact fixed_with (fixed_with (fixed_ite ((fixed_crcCycle ..).trans ((fixed_traceCycle ..).trans (fixed_foldl
    (fun c b => fixed_steepCycle ..) _ _))) (fixed_ite ((fixed_holdCycle ..).trans ((fixed_crcCycle ..).trans
    ((fixed_traceCycle ..).trans (fixed_foldl (fun c b => fixed_steepCycle ..) _ _)))) ((fixed_issueCycle ..).trans
    ((fixed_crcCycle ..).trans ((fixed_traceCycle ..).trans (fixed_foldl
    (fun c b => fixed_steepCycle ..) _ _)))))) rfl rfl rfl) rfl rfl rfl

theorem fixed_startProgram (ecc : List (Nat × EccMark)) (c : Chip) : (startProgram ecc c).fixed = c.fixed := by
  unfold startProgram
  exact fixed_ite (fixed_beginProgram ..) rfl

theorem fixed_edgeCycle (now : Nat) (c : Chip) : (edgeCycle now c).fixed = c.fixed := by
  have hstrict (d : Chip) (cmp : Compute) : (strictXoff { d with cmp := cmp }).fixed = d.fixed := fixed_strictXoff _
  unfold edgeCycle
  extract_lets c1 c2 c3
  have h1 : c1.fixed = c.fixed := fixed_foldl (fun c p => (fixed_passFirst p _).trans (fixed_admitPort now p c)) _ _
  have h2 : c2.fixed = c1.fixed := (fixed_sendHostLines _).trans ((fixed_deliverReady _).trans
    ((fixed_takeSearchLines _).trans ((fixed_takeHostLines _).trans (fixed_deliverPorts _))))
  have h3 : c3.fixed = c2.fixed := (fixed_deliverMesh _).trans (fixed_meshAdvance _)
  exact (hstrict c3 _).trans (h3.trans (h2.trans h1))

end Sys2Proof.Machine
end

section
/-! PROOFS. What every function of the system keeps: what fuses and straps fix, what has been put out, and memory in canonical
form. -/

namespace Sys2Proof.Machine

/-- From one state of the system to a later one: what fuses and straps fix is as before, and what has been put out is not taken
back. -/
structure Moves (y z : Sys) : Prop where
  fixed : z.chip.fixed = y.chip.fixed
  out : y.out <+: z.out

theorem Moves.refl (y : Sys) : Moves y y := ⟨rfl, List.prefix_rfl⟩

theorem Moves.trans {x y z : Sys} (h : Moves x y) (k : Moves y z) : Moves x z := ⟨k.fixed.trans h.fixed, h.out.trans k.out⟩

theorem Moves.same {y z : Sys} (h : z.chip.fixed = y.chip.fixed) (ho : z.out = y.out) : Moves y z := ⟨h, ho ▸ List.prefix_rfl⟩

theorem Moves.onChip {y : Sys} {f : Chip → Chip} (h : (f y.chip).fixed = y.chip.fixed) : Moves y (y.onChip f) := .same h rfl

theorem Moves.onTray (f : Tray → Tray) (y : Sys) : Moves y (y.onTray f) := .same rfl rfl

theorem Moves.emit (o : Output) (y : Sys) : Moves y (y.emit o) := ⟨rfl, List.prefix_append _ _⟩

theorem Moves.emits (os : List Output) (y : Sys) : Moves y (y.emits os) := ⟨rfl, List.prefix_append _ _⟩

theorem Moves.ite {p : Prop} [Decidable p] {y a b : Sys} (ha : Moves y a) (hb : Moves y b) : Moves y (if p then a else b) := by
  split
  · exact ha
  · exact hb

theorem Moves.foldl {β : Type} {f : Sys → β → Sys} (h : ∀ y b, Moves y (f y b)) (l : List β) (y : Sys) :
    Moves y (l.foldl f y) := by
  induction l generalizing y with
  | nil => exact .refl y
  | cons b l ih => exact (h y b).trans (ih _)

/-- As `Moves`, of memory and the system: memory in canonical form stays in it. -/
structure Stores (m : List Host.Cell) (y : Sys) (r : List Host.Cell × Sys) : Prop where
  moves : Moves y r.2
  canonical : Memory.wf m = true → Memory.wf r.1 = true

theorem Stores.keeps {m : List Host.Cell} {y z : Sys} (h : Moves y z) : Stores m y (m, z) := ⟨h, id⟩

theorem Stores.refl (m : List Host.Cell) (y : Sys) : Stores m y (m, y) := .keeps (.refl y)

theorem Stores.trans {m : List Host.Cell} {y : Sys} {r q : List Host.Cell × Sys} (h : Stores m y r)
    (k : Stores r.1 r.2 q) : Stores m y q :=
  ⟨h.moves.trans k.moves, k.canonical ∘ h.canonical⟩

theorem Stores.andThen {m : List Host.Cell} {y z : Sys} {r : List Host.Cell × Sys} (h : Stores m y r) (k : Moves r.2 z) :
    Stores m y (r.1, z) := h.trans (.keeps k)

theorem Stores.pair {m : List Host.Cell} {y : Sys} {r : List Host.Cell × Sys} (h : Stores m y r) : Stores m y (r.1, r.2) := h

theorem Stores.ite {p : Prop} [Decidable p] {m : List Host.Cell} {y : Sys} {a b : List Host.Cell × Sys}
    (ha : Stores m y a) (hb : Stores m y b) : Stores m y (if p then a else b) := by
  split
  · exact ha
  · exact hb

theorem Stores.foldl {β : Type} {f : List Host.Cell × Sys → β → List Host.Cell × Sys} {m : List Host.Cell} {y : Sys}
    {r : List Host.Cell × Sys} (h : Stores m y r) (hf : ∀ m y b, Stores m y (f (m, y) b)) (l : List β) :
    Stores m y (l.foldl f r) := by
  induction l generalizing r with
  | nil => exact h
  | cons b l ih => exact ih (h.trans (hf r.1 r.2 b))

/-- As `Moves`, of an access that brings something: status, what it reads, the system after it. -/
def Reads {σ α : Type} (y : Sys) (r : σ × α × Sys) : Prop := Moves y r.2.2

/-- As `Stores`, of an access that writes: status, memory, the system after it. -/
def Writes (m : List Host.Cell) (y : Sys) (r : Nat × List Host.Cell × Sys) : Prop := Stores m y r.2

/-- As `Reads` and `Writes`, of a whole transaction. -/
def Performs (m : List Host.Cell) (y : Sys) (r : Nat × Line × List Host.Cell × Sys) : Prop := Stores m y r.2.2

theorem Reads.of {σ α : Type} {y z : Sys} (h : Moves y z) (status : σ) (a : α) : Reads y (status, a, z) := h

theorem Writes.of {m k : List Host.Cell} {y z : Sys} (h : Stores m y (k, z)) (status : Nat) : Writes m y (status, k, z) := h

theorem Reads.ite {σ α : Type} {p : Prop} [Decidable p] {y : Sys} {a b : σ × α × Sys} (ha : Reads y a) (hb : Reads y b) :
    Reads y (if p then a else b) := by
  split
  · exact ha
  · exact hb

theorem Writes.ite {p : Prop} [Decidable p] {m : List Host.Cell} {y : Sys} {a b : Nat × List Host.Cell × Sys}
    (ha : Writes m y a) (hb : Writes m y b) : Writes m y (if p then a else b) := by
  split
  · exact ha
  · exact hb

theorem moves_await (t : Nat) (y : Sys) : Moves y (y.await t) := by
  obtain ⟨_, _, _, _, _, h⟩ := await_chip y t
  exact .same (by rw [h]; rfl) (await_out y t)

/-! The functions of the system, in the model's order. -/

theorem moves_fresh (y : Sys) : Moves y (Sys.fresh y).2 := by
  unfold Sys.fresh
  exact .same (rfl) rfl

theorem moves_awaitIf (b : Bool) (t : Nat) (y : Sys) : Moves y (Sys.awaitIf b t y) := by
  unfold Sys.awaitIf
  exact .ite (moves_await ..) (.refl _)

theorem moves_awaitCores (n : Nat) (y : Sys) : Moves y (Sys.awaitCores n y) := by
  unfold Sys.awaitCores
  exact moves_awaitIf ..

theorem moves_awaitCycle (n : Nat) (y : Sys) : Moves y (Sys.awaitCycle n y) := by
  unfold Sys.awaitCycle
  exact moves_awaitCores ..

theorem moves_awaitWork (n : Nat) (y : Sys) : Moves y (Sys.awaitWork n y) := by
  unfold Sys.awaitWork
  exact .ite (.refl _) (moves_awaitCores ..)

theorem moves_awaitView (g : Nat) (y : Sys) : Moves y (Sys.awaitView g y) := by
  unfold Sys.awaitView
  exact moves_awaitIf ..

theorem stores_landStore (p : Fin 320) (off : Nat) (l : Line) (mask : Word) (m : List Host.Cell) (y : Sys) :
    Stores m y (landStore p off l mask m y) :=
  ⟨.same (fixed_onTile ..) rfl, Memory.writeLine_wf m _ l mask⟩

theorem stores_landOne (p : Fin 320) (d : Dest) (m : List Host.Cell) (y : Sys) : Stores m y (landOne p d m y) := by
  unfold landOne
  split
  · exact stores_landStore ..
  · exact .keeps (.onChip (fixed_onTile ..))

theorem stores_landDue (p : Fin 320) (m : List Host.Cell) (y : Sys) : Stores m y (landDue p m y) := by
  unfold landDue
  exact (Stores.keeps (.onChip (fixed_onTile ..))).foldl (fun _ _ _ => stores_landOne ..) _

theorem moves_whenState {p : PortId} {st : PortState} {f : Sys → Sys} {y : Sys} (h : Moves y (f y)) :
    Moves y (whenState p st f y) := .ite h (.refl _)

theorem moves_writeTrayIndex (value : Word) (y : Sys) : Moves y (writeTrayIndex value y) := by
  unfold writeTrayIndex
  exact .ite (.refl _) (.ite (.onChip (fixed_cfgDiscard ..)) (.onChip (fixed_tellPartners ..)))

theorem moves_awaitFrame (p : PortId) (is : InFrame → Bool) (y : Sys) : Moves y (Sys.awaitFrame p is y) := by
  unfold Sys.awaitFrame
  split
  · exact (moves_awaitIf ..).trans (.onChip (fixed_admitPort ..))
  · exact .refl _

theorem moves_egressFrame (p : PortId) (y : Sys) : Moves y (egressFrame p y) := by
  unfold egressFrame
  extract_lets c0 y1 c x pk
  have h1 : Moves y y1 := .ite (.onChip (fixed_replayEvent ..)) (.refl _)
  refine h1.trans (.ite (.refl _) (.trans (.onChip ?_) (.emit ..)))
  clear_value pk
  extract_lets
  split
  · exact (fixed_markWon ..).trans (fixed_onPort ..)
  · exact fixed_onPort ..

theorem moves_sendMsix (v : Fin 33) (y : Sys) : Moves y (sendMsix v y) := by
  unfold sendMsix
  exact .ite (.onChip (rfl)) (.emit ..)

theorem moves_applyReactions (rs : List Reaction) (y : Sys) : Moves y (applyReactions rs y) := by
  unfold applyReactions
  exact .ite ((((Moves.ite (.refl _) (moves_sendMsix ..)).trans (.onChip (rfl))).trans (.onChip (fixed_foldl
    (fun c b => fixed_blockReset ..) _ _))).trans (.onChip (fixed_chipReset ..))) (((Moves.ite (.refl _)
    (moves_sendMsix ..)).trans (.onChip (rfl))).trans (.onChip (fixed_foldl (fun c b => fixed_blockReset ..) _ _)))

theorem moves_latchChip (y : Sys) : Moves y (latchChip y) := by
  unfold latchChip
  exact (Moves.onChip (rfl)).trans (moves_applyReactions ..)

theorem moves_fireQp (q : QpId) (y : Sys) : Moves y (fireQp q y) := by
  unfold fireQp
  split
  · exact (Moves.onChip (rfl)).trans (moves_sendMsix ..)
  · exact .onChip (rfl)

theorem moves_checkThresh (q : QpId) (y : Sys) : Moves y (checkThresh q y) := by
  unfold checkThresh
  exact .ite (moves_fireQp ..) (.refl _)

theorem moves_writeQp (q : QpId) (r : Nat) (v : Word) (y : Sys) : Moves y (writeQp q r v y) := by
  unfold writeQp
  split
  · exact .onChip (rfl)
  · exact .onChip (rfl)
  · exact .onChip (rfl)
  · exact .onChip (rfl)
  · exact .onChip (fixed_writeQpCtl ..)
  · exact (Moves.onChip (rfl)).trans (moves_checkThresh ..)
  · exact .refl _

theorem moves_writeMsix (i : Fin 33) (r : Nat) (v : Word) (y : Sys) : Moves y (writeMsix i r v y) := by
  unfold writeMsix
  split
  · exact .onChip (rfl)
  · exact .onChip (rfl)
  · exact .onChip (rfl)
  · exact .ite ((Moves.onChip (rfl)).trans (moves_sendMsix ..)) (.onChip (rfl))

theorem moves_writeHif (o : Nat) (v : Word) (y : Sys) : Moves y (writeHif o v y) := by
  unfold writeHif
  split
  · split
    · exact moves_writeQp ..
    · exact .refl _
  · split
    · split
      · exact moves_writeMsix ..
      · exact .refl _
    · exact .onChip (rfl)

theorem moves_writeFab (o : Nat) (v : Word) (y : Sys) : Moves y (writeFab o v y) := by
  unfold writeFab
  split
  · exact .ite ((moves_writeTrayIndex ..).trans (.onChip (fixed_refreshRole ..))) (.ite (.onChip
    (fixed_writeFabric ..)) (.onChip (fixed_writePort ..)))
  · exact .refl _

theorem fixed_srch (s : SearchUnit) (c : Chip) : { c with srch := s }.fixed = c.fixed := rfl

theorem moves_writeReg (o : Nat) (v : Word) (y : Sys) : Moves y (writeReg o v y) := by
  unfold writeReg
  exact .ite (moves_writeHif ..) (.ite (.onChip (fixed_writeFc ..)) (.ite (.onChip (fixed_writePwr ..))
    (.ite (.onChip (fixed_writeTime ..)) (.ite (moves_writeFab ..) (.ite (.onChip (fixed_writeMap ..))
    (.ite (.onChip (fixed_writeChipMap ..)) (.ite (.onChip (fixed_srch ..)) (.ite (.onChip (fixed_writeMgt ..))
      (.refl _)))))))))

theorem moves_accessRead (o : Nat) (y : Sys) : Moves y (accessRead o y).2 := by
  unfold accessRead
  dsimp only
  exact .onChip ((fixed_readEffect ..).trans (fixed_wakeAccess ..))

theorem moves_accessWrite (o : Nat) (v : Word) (y : Sys) : Moves y (accessWrite o v y) := by
  unfold accessWrite
  exact (Moves.onChip (fixed_wakeAccess ..)).trans (moves_writeReg ..)

theorem moves_reservedAccess (y : Sys) : Moves y (reservedAccess y) := by
  unfold reservedAccess
  exact .onChip (fixed_raise ..)

theorem moves_readRegs (o n : Nat) (y : Sys) : Moves y (readRegs o n y).2 := by
  induction n generalizing o y with
  | zero => exact .refl y
  | succ k ih =>
    unfold readRegs
    exact (moves_accessRead o y).trans (ih ..)

theorem moves_writeRegs (o : Nat) (bs : List Byte) (y : Sys) : Moves y (writeRegs o bs y) := by
  induction o, bs, y using writeRegs.induct with
  | case1 o y b0 b1 b2 b3 rest ih =>
    unfold writeRegs
    exact (moves_accessWrite ..).trans ih
  | case2 o bs y h =>
    rw [writeRegs]
    · exact .refl y
    · exact h

theorem moves_usePorts (p : Fin 320) (o : Nat) (y : Sys) : Moves y (usePorts p o y) := by
  unfold usePorts
  exact .onChip (fixed_onTile ..)

theorem reads_readTile (m : List Host.Cell) (v o n : Nat) (y : Sys) : Reads y (readTile m v o n y) := by
  unfold readTile
  split
  · exact .of (.refl y) ..
  · exact .of ((moves_usePorts ..).trans (.onChip (fixed_eccReport ..))) ..

theorem reads_readSearchMem (m : List Host.Cell) (o n : Nat) (y : Sys) : Reads y (readSearchMem m o n y) := by
  unfold readSearchMem
  exact .ite (.ite (.of (.refl y) ..) (.of (.onChip (fixed_raise ..)) ..)) (.of (.refl y) ..)

theorem reads_readPiece (m : List Host.Cell) (off n : Nat) (y : Sys) : Reads y (readPiece m off n y) := by
  conv in readPiece => delta readPiece
  split
  next v o _ => exact reads_readTile ..
  next o _ => exact .of (moves_readRegs o (n / 4) y) ..
  next o _ => exact reads_readSearchMem ..
  next => exact .of (.refl y) ..

theorem stores_storeBytes (a : Nat) (bs : List Byte) (m : List Host.Cell) (y : Sys) : Stores m y
  (storeBytes a bs m y) :=
  ⟨.same rfl rfl, Memory.write_wf m a bs⟩

theorem writes_writePiece (off : Nat) (bs : List Byte) (m : List Host.Cell) (y : Sys) :
    Writes m y (writePiece off bs m y) := by
  conv in writePiece => delta writePiece
  split
  next v o _ =>
    split
    next => exact .of (.refl m y) _
    next p _ =>
      have h := (Stores.keeps (m := m) (moves_usePorts p o y)).trans (stores_storeBytes (tileBase p.val + o) bs m _)
      exact .of (h.andThen (.onChip (fixed_onTile ..))) _
  next o _ => exact .of (.keeps (moves_writeRegs o bs y)) _
  next o _ => exact .ite (.of (stores_storeBytes (searchBase + o) bs m y).pair _) (.of (.refl m y) _)
  next => exact .of (.refl m y) _

theorem Reads.more {y : Sys} {acc : Bool × List Byte × Sys} {r : Nat × List Byte × Sys} (h : Reads y acc)
    (k : Reads acc.2.2 r) : Reads y (acc.1 || r.1 == 4, acc.2.1 ++ r.2.1, r.2.2) := Moves.trans h k

theorem reads_readRange (m : List Host.Cell) (off n : Nat) (y : Sys) : Reads y (readRange m off n y) := by
  unfold readRange
  exact List.foldlRecOn (motive := Reads y) _ _ (.of (.refl y) ..) fun acc h p _ => h.more
    (reads_readPiece m p.1 p.2 acc.2.2)

theorem Writes.result {m : List Host.Cell} {y : Sys} {r : Nat × List Host.Cell × Sys} (h : Writes m y r) :
    Stores m y (r.2.1, r.2.2) := h

theorem stores_writeRange (off : Nat) (bs : List Byte) (m : List Host.Cell) (y : Sys) :
    Stores m y (writeRange off bs m y) := by
  unfold writeRange
  exact (Stores.refl m y).foldl (fun m y p => (writes_writePiece p.1 ((bs.drop (p.1 - off)).take p.2) m y).result) _

theorem Reads.crcLine {y : Sys} {r : Nat × List Byte × Sys} (h : Reads y r) (g : Mgt) :
    Moves y (r.2.2.onChip fun c => { c with mgt := { c.mgt with
      crcLine := g.crcLine + 1, crcAcc := crc64On g.crcAcc r.2.1, crcBad := g.crcBad || r.1 == 4 } }) :=
  Moves.trans h (.onChip (rfl))

theorem moves_crcStep (m : List Host.Cell) (y : Sys) : Moves y (crcStep m y) := by
  unfold crcStep
  exact (reads_readPiece ..).crcLine y.chip.mgt

theorem moves_crcSteps (m : List Host.Cell) (n : Nat) (y : Sys) : Moves y (crcSteps m n y) := by
  induction n generalizing y with
  | zero => exact .refl y
  | succ k ih =>
    unfold crcSteps
    exact (moves_crcStep m y).trans (ih _)

theorem moves_crcReadTo (m : List Host.Cell) (n : Nat) (y : Sys) : Moves y (crcReadTo m n y) :=
  .ite (moves_crcSteps ..) (.refl _)

theorem moves_crcTick (m : List Host.Cell) (y : Sys) : Moves y (crcTick m y) := by
  unfold crcTick
  exact .ite (moves_crcReadTo ..) (.refl _)

theorem moves_crcFinish (m : List Host.Cell) (y : Sys) : Moves y (crcFinish m y) := by
  unfold crcFinish
  exact .ite (.onChip (rfl)) (.ite (.onChip (rfl)) (.ite (((moves_crcReadTo ..).trans (.onChip (rfl))).trans
    (.onChip (rfl))) ((((moves_crcReadTo ..).trans (.onChip (rfl))).trans (.onChip (rfl))).trans (.onChip
    (fixed_raise ..)))))

theorem moves_deadRead (n : Nat) (y : Sys) : Moves y (deadRead n y) := by
  unfold deadRead
  exact .ite (.emit ..) (.emit ..)

theorem moves_chipRead (o : Nat) (y : Sys) : Moves y (chipRead o y) := by
  unfold chipRead
  exact .ite ((moves_accessRead ..).trans (.emit ..)) (moves_deadRead ..)

theorem moves_chipWrite (o : Nat) (v : Word) (y : Sys) : Moves y (chipWrite o v y) := by
  unfold chipWrite
  exact .ite (moves_accessWrite ..) (.emit ..)

theorem moves_awaitDomain (d : Domain) (on : Bool) (y : Sys) : Moves y (awaitDomain d on y) := by
  unfold awaitDomain
  split
  · exact moves_awaitIf ..
  · exact .refl _

theorem moves_loseRet (y : Sys) : Moves y (loseRet y) := by
  unfold loseRet
  exact .same (fixed_onPwr ..) rfl

theorem moves_recordMax (rs : Vector ℤ 16) (y : Sys) : Moves y (recordMax rs y) := by
  unfold recordMax
  exact ((moves_fresh ..).trans (moves_fresh ..)).trans (.onChip (fixed_onPwr ..))

theorem moves_settleErr (y : Sys) : Moves y (settleErr y) := by
  unfold settleErr
  exact .onTray ..

theorem moves_settleTray (y : Sys) : Moves y (settleTray y) := by
  unfold settleTray
  exact (moves_settleErr ..).trans (.onTray ..)

theorem moves_postEvent (e : Dword) (y : Sys) : Moves y (postEvent e y) := by
  unfold postEvent
  exact .ite (.refl _) (.ite ((Moves.onTray ..).trans (.emit ..)) (.onTray ..))

theorem moves_sendReply (h : TmpHdr) (frame : List Byte) (y : Sys) : Moves y (sendReply h frame y) := by
  unfold sendReply
  split
  · exact .emit ..
  · exact .ite (((Moves.onTray ..).trans (.emit ..)).trans (.emit ..)) ((Moves.onTray ..).trans (.emit ..))

/-- What a TMC command's work leaves. -/
def Works (f : TmpWork) : Prop := ∀ y, Moves y (f y).1

theorem moves_fst_ite {p : Prop} [Decidable p] {y : Sys} {a b : Sys × Nat × List Byte} (ha : Moves y a.1)
  (hb : Moves y b.1) :
    Moves y (if p then a else b).1 := by
  split
  · exact ha
  · exact hb

theorem moves_free (n : Nat) (y : Sys) : Moves y { y with free := n } := .same rfl rfl

theorem moves_fst_onTray (f : Tray → Tray) (y : Sys) (status : Nat) (reply : List Byte) :
    Moves y (y.onTray f, status, reply).1 := .onTray f y

theorem moves_tmpRun {h : TmpHdr} {command : Nat} {cache : Bool} {f : TmpWork} {y : Sys} (w : Moves y (f y).1) :
    Moves y (tmpRun h command cache f y) :=
  (w.trans (.onTray ..)).trans (moves_sendReply ..)

theorem moves_tmpCommand {h : TmpHdr} {command : Nat} {f : TmpWork} {y : Sys} (w : Moves y (f y).1) :
    Moves y (tmpCommand h command f y) := by
  unfold tmpCommand
  split
  · exact .refl y
  split
  · exact moves_sendReply ..
  split
  · exact moves_tmpRun w
  split
  · exact moves_tmpRun w
  split
  · exact (Moves.onTray ..).trans (moves_sendReply ..)
  · exact (Moves.onTray ..).trans (moves_sendReply ..)

theorem moves_tmpRead {h : TmpHdr} {command : Nat} {f : TmpWork} {y : Sys} (w : Moves y (f y).1) :
    Moves y (tmpRead h command f y) :=
  .ite (.refl y) (.ite (moves_sendReply ..) (moves_tmpRun w))

theorem moves_openNotice (h : TmpHdr) (mask : BitVec 16) (y : Sys) : Moves y (openNotice h mask y) := by
  unfold openNotice
  exact (moves_postEvent ..).trans (.onTray ..)

theorem moves_closeNotice (x : Notice) (y : Sys) : Moves y (closeNotice x y) := by
  unfold closeNotice
  exact ((Moves.onTray ..).trans (.onTray ..)).trans (moves_postEvent ..)

theorem moves_snd {α : Type} (a : α) {y z : Sys} (h : Moves y z) : Moves y (a, z).2 := h

theorem moves_addressChip (y : Sys) : Moves y (addressChip y).2 := by
  unfold addressChip
  extract_lets c last
  split
  · split
    · exact moves_snd _ (.onChip (rfl))
    · exact moves_snd _ (.onChip (rfl))
    · exact moves_snd _ (.onChip (rfl))
  · split
    · exact moves_snd _ (.onChip (fixed_wakeAccess y.now y.chip))
    · exact moves_snd _ (.onChip (rfl))

theorem moves_addressTwice (y : Sys) : Moves y (addressTwice y) := by
  unfold addressTwice
  exact .ite (moves_addressChip ..) (((moves_addressChip ..).trans (.onChip (fixed_endWake ..))).trans
    (moves_addressChip ..))

theorem moves_targetRead (o : Nat) (y : Sys) : Moves y (targetRead o y).2 := by
  unfold targetRead
  exact .onChip (fixed_readEffect ..)

theorem moves_loseVret (y : Sys) : Moves y (loseVret y) := by
  unfold loseVret
  exact .ite ((moves_loseRet ..).trans (.onChip (rfl))) (moves_loseRet ..)

theorem moves_haltAxes (y : Sys) : Moves y (haltAxes y) := by
  unfold haltAxes
  exact .foldl (fun _ _ => (moves_fresh ..).trans (.onTray ..)) _ _

theorem moves_commitTray (y : Sys) : Moves y (commitTray y) := by
  unfold commitTray
  exact (Moves.onTray ..).trans (moves_haltAxes ..)

theorem moves_retainChip (y : Sys) : Moves y (retainChip y) := by
  unfold retainChip
  exact .ite ((Moves.onChip (fixed_enterRetention ..)).trans (.onChip (rfl))) (.onChip (fixed_enterRetention ..))

theorem moves_loseVaux (n : SlotId) (x y : Sys) : Moves y (loseVaux n x y) := by
  unfold loseVaux
  exact .ite (moves_retainChip ..) (.refl _)

theorem moves_sk2Write (n : SlotId) (off : Nat) (head data : List Byte) (y : Sys) : Moves y
  (sk2Write n off head data y) := by
  unfold sk2Write
  exact .ite (.refl _) (.ite (.ite (moves_writeReg ..) (.refl _)) (.ite (moves_writeReg ..) (.ite (.onChip (rfl))
    (.refl _))))

theorem moves_startTwi (b : BusId) (y : Sys) : Moves y (startTwi b y) := by
  unfold startTwi
  exact .ite (.refl _) ((Moves.onTray ..).trans (.emit ..))

theorem moves_busStuck (b : BusId) (y : Sys) : Moves y (busStuck b y) := by
  unfold busStuck
  exact ((moves_fresh ..).trans (moves_fresh ..)).trans (.onTray ..)

theorem moves_recoverBus (b : BusId) (y : Sys) : Moves y (recoverBus b y) := by
  unfold recoverBus
  exact ((moves_fresh ..).trans (moves_fresh ..)).trans (.onTray ..)

theorem moves_retryBus (b : BusId) (y : Sys) : Moves y (retryBus b y) := by
  unfold retryBus
  split
  · exact ((moves_await ..).trans (.onTray ..)).trans (moves_recoverBus ..)
  · exact .refl y

theorem moves_badField (y : Sys) : Moves y (badField y).1 := by
  unfold badField
  exact .refl _

theorem works_orderNow (h : TmpHdr) (mask : BitVec 16) (o : Order) : Works
  (orderNow h mask o) := fun _ => moves_fst_onTray ..

theorem works_rackOff (h : TmpHdr) (mask : BitVec 16) (noNotice : Bool) : Works (rackOff h mask noNotice) := fun y =>
  moves_fst_ite (moves_openNotice ..) (moves_fst_ite (works_orderNow _ _ _ y) (moves_fst_ite (moves_fst_onTray ..)
    (works_orderNow _ _ _ y)))

theorem works_slotPower (h : TmpHdr) (mask : BitVec 16) (o : Order) (noNotice : Bool) : Works
  (slotPower h mask o noNotice) := by
  intro y
  unfold slotPower
  split
  · exact moves_fst_ite (moves_badField y) (works_orderNow _ _ _ y)
  · exact moves_fst_ite (works_rackOff _ _ _ y) ((Moves.onTray ..).trans (works_orderNow h mask o _))

theorem works_deferNotice (h : TmpHdr) (b : Byte) : Works (deferNotice h b) := by
  intro y
  unfold deferNotice
  split
  · exact .refl y
  · exact .refl y
  · exact moves_fst_ite (.refl y) (moves_fst_onTray ..)

theorem works_deferDone (h : TmpHdr) (b : Byte) : Works (deferDone h b) := by
  intro y
  unfold deferDone
  split
  · exact .refl y
  · exact .refl y
  · exact (moves_closeNotice ..).trans (.onTray ..)

theorem moves_expireNotice (deferred : Bool) (ms : Nat) (y : Sys) : Moves y (expireNotice deferred ms y) := by
  unfold expireNotice
  split
  · exact (moves_await ..).trans (moves_closeNotice ..)
  · exact .refl y

theorem works_coolDemand (h : TmpHdr) (flow : BitVec 16) (fan pump : Byte) : Works
  (coolDemand h flow fan pump) := fun y =>
  moves_fst_ite (moves_badField y) (moves_fst_onTray ..)

theorem works_sensorRead (first count : Nat) : Works (sensorRead first count) := fun y =>
  moves_fst_ite (moves_badField y) (moves_free ..)

theorem works_logRead (number : Word) (count : Nat) : Works (logRead number count) := fun y =>
  moves_fst_ite (moves_badField y) (.refl y)

theorem works_faultAck (h : TmpHdr) (mask : Dword) : Works (faultAck h mask) := fun _ => moves_fst_onTray ..

theorem moves_targetReads (o n : Nat) (y : Sys) : Moves y (targetReads o n y).2 := by
  induction n generalizing o y with
  | zero => exact .refl y
  | succ k ih =>
    unfold targetReads
    exact (moves_targetRead o y).trans (ih ..)

theorem moves_foreignWords (count : Nat) (y : Sys) : Moves y (foreignWords count y).2 := by
  unfold foreignWords
  exact .same (rfl) rfl

theorem works_chipReadWork (slot : SlotId) (offset : BitVec 16) (count : Nat) : Works
  (chipReadWork slot offset count) := fun y =>
  moves_fst_ite (moves_badField y) (moves_fst_ite (.refl y) (moves_fst_ite (.refl y) (moves_fst_ite
    (moves_foreignWords ..)
    ((moves_addressTwice y).trans (moves_targetReads ..)))))

theorem works_chipWriteWork (h : TmpHdr) (slot : SlotId) (offset : BitVec 16) (value : Word) : Works
  (chipWriteWork h slot offset value) := fun y =>
  moves_fst_ite (.refl y) (moves_fst_ite (.refl y)
    ((Moves.ite ((moves_addressTwice y).trans (moves_writeReg ..)) (.refl y)).trans (.onTray ..)))

theorem works_cableInfo (cage : Nat) : Works (cableInfo cage) := by
  intro y
  unfold cableInfo
  split
  · exact moves_badField y
  · split
    · exact .refl y
    · exact .refl y

theorem moves_awaitReset (y : Sys) : Moves y (awaitReset y) := by
  unfold awaitReset
  split
  · exact (moves_await ..).trans (.onTray ..)
  · exact .onTray ..

theorem moves_firstService (lastEdge : Nat) (y : Sys) : Moves y (firstService lastEdge y) := by
  unfold firstService
  exact ((((Moves.onTray ..).trans (moves_fresh ..)).trans (moves_fresh ..)).trans (moves_fresh ..)).trans
    (moves_postEvent ..)

theorem works_tmcRestart (h : TmpHdr) (count : Word) : Works (tmcRestart h count) := fun y =>
  moves_fst_ite (moves_fst_onTray ..) (.refl y)

theorem moves_writeTwi (b : BusId) (o : Nat) (v : Word) (y : Sys) : Moves y (writeTwi b o v y) := by
  unfold writeTwi
  split
  · exact .onTray ..
  · exact .ite ((Moves.ite ((Moves.ite (.refl _) (.onTray ..)).trans (moves_startTwi ..)) (.ite (.refl _)
    (.onTray ..))).trans (moves_recoverBus ..)) (.ite ((Moves.ite (.refl _) (.onTray ..)).trans (moves_startTwi ..))
    (.ite (.refl _) (.onTray ..)))
  · exact .ite (.onTray ..) (.refl _)
  · exact .ite (.onTray ..) (.refl _)

theorem moves_writeBoard (o : Nat) (v : Word) (y : Sys) : Moves y (writeBoard o v y) := by
  unfold writeBoard
  split
  · exact .onTray ..
  · split
    · exact .refl _
    · split
      · exact .onTray ..
      · split
        · split
          · exact (moves_fresh ..).trans (.onTray ..)
          · exact .refl _
        · split
          · split
            · exact .ite (.onTray ..) (.refl _)
            · exact .refl _
          · split
            · exact .onTray ..
            · split
              · split
                · exact .onTray ..
                · exact .refl _
              · split
                · split
                  · exact moves_writeTwi ..
                  · exact .refl _
                · exact .refl _

theorem moves_writeToCpc (n : SlotId) (o : Nat) (v : Word) (y : Sys) : Moves y (writeToCpc n o v y) := by
  unfold writeToCpc
  exact .ite (.onTray ..) (.refl _)

theorem moves_registerWrite (space : RegSpace) (o size : Nat) (v : Word) (y : Sys) : Moves y
  (registerWrite space o size v y) := by
  unfold registerWrite
  split
  · exact .ite (moves_chipWrite ..) (.emit ..)
  · exact .ite (.onTray ..) (.emit ..)
  · exact .ite (moves_writeBoard ..) (.refl _)
  · exact .ite (moves_writeToCpc ..) (.refl _)

theorem moves_boardReset (y : Sys) : Moves y (boardReset y) := by
  unfold boardReset
  exact (Moves.onTray ..).trans (.foldl (fun _ _ => moves_recoverBus ..) _ _)

theorem stores_applyWrites (ws : List (Nat × List Byte)) (m : List Host.Cell) (y : Sys) :
    Stores m y (applyWrites ws m y) :=
  (Stores.refl m y).foldl (fun _ _ _ => stores_storeBytes ..) ws

theorem clearHash_wf (m : List Host.Cell) (h : Memory.wf m = true) : Memory.wf (clearHash m) = true := by
  rw [Memory.wf_iff] at h ⊢
  exact ⟨h.1.filter _, fun c hc => h.2 c (List.mem_of_mem_filter hc)⟩

theorem stores_applyClear (m : List Host.Cell) (y : Sys) : Stores m y (applyClear m y) :=
  ⟨.same rfl rfl, clearHash_wf m⟩

theorem stores_retire (m : List Host.Cell) (y : Sys) : Stores m y (retire m y) := by
  unfold retire
  split
  · exact .refl m y
  next a _ =>
  extract_lets stop r
  have hclear : Stores m y r := .ite (stores_applyClear ..) (.refl ..)
  split
  · exact .refl m y
  · exact (hclear.trans (stores_applyWrites ..)).andThen (.onChip (fixed_with (fixed_countAnswer ..) rfl rfl rfl))

theorem moves_beginSearch (m : List Host.Cell) (y : Sys) : Moves y (beginSearch m y) := by
  unfold beginSearch
  dsimp only
  split
  · exact (moves_fresh ..).trans (.onChip (rfl))
  · exact .refl _

theorem moves_awaitEnd (y : Sys) : Moves y (awaitEnd y) := by
  unfold awaitEnd
  split
  · exact moves_awaitWork ..
  · exact .refl _

theorem moves_awaitAnswer (y : Sys) : Moves y (awaitAnswer y) := by
  unfold awaitAnswer
  split
  · exact moves_awaitWork ..
  · exact moves_awaitWork ..
  · exact .refl _

theorem moves_startOp {q : QpId} {is : Nat → Bool} {f : QEntry → Sys → Sys} (h : ∀ e y, Moves y (f e y)) (y : Sys) :
    Moves y (startOp q is f y) := by
  unfold startOp
  split
  · split
    · exact (Moves.ite (moves_awaitCycle ..) (.refl y)).trans (.trans (.onChip (f := markStart q _) rfl) (h _ _))
    · exact .refl y
  · exact .refl y

theorem moves_dmaRead (q : QpId) (index addr len : Nat) (fetch : Bool) (y : Sys) : Moves y
  (dmaRead q index addr len fetch y) := by
  unfold dmaRead
  exact (Moves.onChip (rfl)).trans (.emit ..)

theorem moves_segmentDone (g : Segment) (status : Nat) (data : Line) (y : Sys) : Moves y
  (segmentDone g status data y) := by
  unfold segmentDone
  split
  · exact .refl _
  · exact (Moves.ite (.emit ..) (.refl _)).trans (.onChip (fixed_ite ((fixed_endGlobal ..).trans (fixed_onEntry ..))
    (fixed_onEntry ..)))

theorem Reads.image {y : Sys} {r : Nat × List Byte × Sys} (h : Reads y r) (l : Line) : Reads y (r.1, l, r.2.2) := h

theorem reads_performRead (line first last : Nat) (m : List Host.Cell) (y : Sys) :
    Reads y (performRead line first last m y) := by
  unfold performRead
  exact .ite (.of (moves_reservedAccess y) ..) (.ite (.of (.refl y) ..) ((reads_readPiece ..).image _))

theorem writes_performWrite (line first last : Nat) (data : Line) (m : List Host.Cell) (y : Sys) :
    Writes m y (performWrite line first last data m y) := by
  unfold performWrite
  exact .ite (.of (.keeps (moves_reservedAccess y)) _) (.ite (.of (.refl m y) _) (writes_writePiece ..))

theorem Writes.performs {m : List Host.Cell} {y : Sys} {r : Nat × List Host.Cell × Sys} (h : Writes m y r)
  (l : Line) :
    Performs m y (r.1, l, r.2.1, r.2.2) := h

theorem Reads.performs {m : List Host.Cell} {y : Sys} {r : Nat × Line × Sys} (h : Reads y r) :
    Performs m y (r.1, r.2.1, m, r.2.2) := Stores.keeps h

theorem performs_performTxn (r : RespTxn) (m : List Host.Cell) (y : Sys) : Performs m y (performTxn r m y) := by
  unfold performTxn
  split
  · exact (writes_performWrite ..).performs _
  · exact (reads_performRead ..).performs

theorem Performs.answered {m : List Host.Cell} {y : Sys} {x : Nat × Line × List Host.Cell × Sys} (h : Performs m y x)
    (r : RespTxn) : Stores m y (x.2.2.1, x.2.2.2.onChip (answerTxn r x.1 x.2.1)) :=
  Stores.andThen h (.onChip (fixed_answerTxn ..))

theorem stores_serve (n : Nat) (m : List Host.Cell) (y : Sys) : Stores m y (serve n m y) := by
  induction n generalizing m y with
  | zero => exact .refl m y
  | succ n ih =>
    unfold serve
    split
    · exact .refl m y
    next r rest _ =>
    split
    · exact ((Stores.keeps (.onChip (rfl))).trans ((performs_performTxn ..).answered r)).trans (ih ..)
    · exact .refl m y

theorem stores_serveAll (m : List Host.Cell) (y : Sys) : Stores m y (serveAll m y) := stores_serve ..

theorem stores_takeRequest (p : PortId) (op : Nat) (m : List Host.Cell) (y : Sys) : Stores m y
  (takeRequest p op m y) := by
  unfold takeRequest
  split
  · exact .refl m y
  next i _ =>
    extract_lets f
    refine .ite (.refl m y) (.ite (.keeps (.onChip (fixed_forwardHost ..))) (.ite (.refl m y) ?_))
    refine .trans (.keeps (.onChip ?_)) (stores_serveAll ..)
    refine fixed_with (d := y.chip.onPort p (popKind 1)) (fixed_onPort ..) ?_ rfl rfl
    dsimp only
    split
    · rfl
    · rfl

theorem moves_issueSegment (y : Sys) : Moves y (issueSegment y) := by
  unfold issueSegment
  extract_lets c
  split
  next g rest tag _ _ =>
    extract_lets taken add req frames
    split
    · exact .same rfl rfl
    split
    · exact .same (fixed_putHost ..) rfl
    · exact .refl y
    · have h : Moves y { y with chip := taken } := .same rfl rfl
      exact h.trans (moves_segmentDone ..)
  · exact .refl y

theorem moves_endTxn (x : Txn) (status : Nat) (data : Line) (y : Sys) : Moves y (endTxn x status data y) := by
  unfold endTxn
  exact (Moves.onChip (rfl)).trans (moves_segmentDone ..)

theorem stores_ownRequest (write : Bool) (m : List Host.Cell) (y : Sys) : Stores m y (ownRequest write m y) := by
  unfold ownRequest
  split
  · exact .refl m y
  split
  · exact .refl m y
  · exact (Stores.keeps (.onChip (rfl))).trans (stores_serveAll ..)

theorem stores_ownData (m : List Host.Cell) (y : Sys) : Stores m y (ownData m y) := by
  unfold ownData
  extract_lets c
  split
  · exact .refl m y
  split
  · exact .refl m y
  · exact (Stores.keeps (.onChip (rfl))).trans (stores_serveAll ..)

theorem moves_ownResponse (write : Bool) (y : Sys) : Moves y (ownResponse write y) := by
  unfold ownResponse
  split
  · split
    · exact moves_endTxn ..
    · exact .refl _
  · exact .refl _

theorem moves_takeResponse (write : Bool) (p : PortId) (f : Frame) (y : Sys) : Moves y
  (takeResponse write p f y) := by
  unfold takeResponse
  dsimp only
  split
  · exact (Moves.onChip (fixed_onPort ..)).trans (moves_endTxn ..)
  · exact (Moves.onChip (fixed_onPort ..)).trans (.onChip (rfl))

theorem moves_passResponse (write : Bool) (p : PortId) (y : Sys) : Moves y (passResponse write p y) := by
  unfold passResponse
  split
  · exact .refl _
  · exact .ite (moves_takeResponse ..) (.onChip (fixed_forwardHost ..))

theorem moves_trayReact (rs : List Reaction) (y : Sys) : Moves y (trayReact rs y) := by
  unfold trayReact
  exact .foldl (fun _ _ => moves_recoverBus ..) _ _

theorem moves_latchTray (y : Sys) : Moves y (latchTray y) := by
  unfold latchTray
  exact (Moves.onTray ..).trans (moves_trayReact ..)

theorem moves_setCollector (c : CollectorId) (k : Collector) (y : Sys) : Moves y (setCollector c k y) := by
  unfold setCollector
  split
  · exact .onChip (rfl)
  · exact .onTray ..

theorem moves_escalate (c : CollectorId) (i : SourceId) (y : Sys) : Moves y (escalate c i y) := by
  unfold escalate
  extract_lets x
  split
  · extract_lets y1 r y2
    have h : Moves y y2 := (moves_await ..).trans (moves_setCollector ..)
    split
    · exact h.trans (moves_applyReactions ..)
    · exact h.trans (moves_trayReact ..)
  · exact .refl y

theorem moves_autoClear (c : CollectorId) (i : SourceId) (y : Sys) : Moves y (autoClear c i y) := by
  unfold autoClear
  exact (moves_awaitIf ..).trans (moves_setCollector ..)

theorem moves_collectorWrite (c : CollectorId) (o : Nat) (v : Word) (y : Sys) : Moves y (collectorWrite c o v y) := by
  unfold collectorWrite
  split
  · exact moves_chipWrite ..
  · exact moves_writeBoard ..

theorem moves_fetchEntry (q : QpId) (index : Nat) (y : Sys) : Moves y (fetchEntry q index y) := by
  unfold fetchEntry
  exact moves_dmaRead ..

theorem moves_writeSqTail (q : QpId) (value : Word) (y : Sys) : Moves y (writeSqTail q value y) := by
  unfold writeSqTail
  exact .ite (.ite ((Moves.onChip (rfl)).trans (.foldl (fun _ _ => moves_fetchEntry ..) _ _)) (.onChip (rfl)))
    (.onChip (fixed_hifErr ..))

theorem stores_dataArrived (q : QpId) (e : QEntry) (m : List Host.Cell) (y : Sys) : Stores m y
  (dataArrived q e m y) := by
  unfold dataArrived
  extract_lets d
  split
  · split
    · exact .keeps (.onChip (fixed_endEntry ..))
    · exact (stores_writeRange ..).andThen (.onChip (fixed_endEntry ..))
  · exact .keeps (.onChip (fixed_placeInput ..))
  · split
    · exact .keeps (.onChip rfl)
    · exact .keeps (.onChip rfl)
  · split
    · exact .keeps (.onChip rfl)
    · exact .keeps (.onChip (fixed_submitSearch ..))
  · exact .refl m y

theorem takeRead_fixed {q : QpId} {c d : Chip} {r : DmaRead} (h : takeRead q c = some
  (r, d)) : d.fixed = c.fixed := by
  unfold takeRead at h
  split at h
  · cases h
  · cases h
    rfl

theorem stores_readArrived (q : QpId) (bytes : List Byte) (m : List Host.Cell) (y : Sys) :
    Stores m y (readArrived q bytes m y) := by
  unfold readArrived
  split
  · exact .refl m y
  next r c hr =>
    extract_lets bs rest done hif c1 c2 c3 y1
    have h1 : c1.fixed = c.fixed := fixed_ite rfl rfl
    have hy : Moves y y1 := .same (h1.trans (takeRead_fixed hr)) rfl
    clear_value y1
    split
    · exact (Stores.keeps hy).trans (stores_dataArrived ..)
    · exact .keeps hy

theorem moves_readFailed (q : QpId) (y : Sys) : Moves y (readFailed q y) := by
  unfold readFailed
  split
  · exact .refl y
  next r c hr =>
    have hy : Moves y { y with chip := c } := .same (takeRead_fixed hr) rfl
    refine hy.trans (.ite (.onChip (fixed_hifErr ..)) (.onChip ?_))
    extract_lets c1
    refine (fixed_hifErr ..).trans ?_
    unfold c1
    split
    · exact fixed_endEntry ..
    · rfl

theorem stores_landAll (m : List Host.Cell) (y : Sys) : Stores m y (landAll m y) := by
  unfold landAll
  refine (Stores.refl m y).foldl (fun m y p => ?_) _
  split
  · exact .refl m y
  · exact stores_landDue ..

theorem moves_at (t : Nat) {y : Sys} {c : Chip}
  (h : c.fixed = y.chip.fixed) : Moves y { y with now := t, chip := c } :=
  ⟨h, List.prefix_rfl⟩

theorem Stores.edge {m : List Host.Cell} {y : Sys} {r : List Host.Cell × Sys} (h : Stores m y r) (now : Nat) :
    Stores m y (retire r.1 (r.2.onChip (edgeCycle now))) :=
  (h.andThen (.onChip (fixed_edgeCycle now _))).trans (stores_retire ..)

theorem stores_tick (m : List Host.Cell) (y : Sys) : Stores m y (tick m y) := by
  unfold tick
  extract_lets edge y1 y2 r1 r2 r3 r
  have h1 : Moves y y1 := moves_at _ (fixed_passTicks 1 y.chip)
  have h2 : Moves y y2 := h1.trans (.onChip (fixed_foldl (fun _ _ => fixed_wakePort ..) _ _))
  clear_value edge y1 y2
  have h3 : Moves y (crcTick m (y2.onChip (coreCycle y2.ecc))) :=
    (h2.trans (.onChip (fixed_coreCycle ..))).trans (moves_crcTick ..)
  have hr1 : Stores m y r1 := (Stores.keeps h3).trans (stores_landAll ..)
  clear_value r1
  have hr2 : Stores m y r2 := hr1.edge y2.now
  clear_value r2
  have hr3 : Stores m y r3 := hr2.trans (stores_serveAll ..)
  clear_value r3
  have hr : Stores m y r := .ite (hr3.andThen (.onChip (fixed_startProgram ..))) (.keeps h2)
  clear_value r
  exact hr.andThen ((Moves.onTray ..).trans (moves_settleTray ..))

theorem works_pingWork : Works pingWork := .refl

theorem works_getInfoWork : Works getInfoWork := .refl

theorem works_setTrayIndex (h : TmpHdr) (z w : Nat) : Works (setTrayIndex h z w) := fun y =>
  moves_fst_ite (moves_badField y) (moves_fst_onTray ..)

theorem works_netConfig (h : TmpHdr) (mode : Nat) : Works (netConfig h mode) := fun y =>
  moves_fst_ite (moves_badField y) (moves_fst_onTray ..)

theorem works_slotStatusWork (mask : BitVec 16) : Works (slotStatusWork mask) := .refl

theorem works_trayPowerStatus : Works trayPowerStatus := .refl

theorem works_autoPolicy (h : TmpHdr) (mask : BitVec 16) (cool : Nat) : Works (autoPolicy h mask cool) := fun y =>
  moves_fst_ite (moves_badField y) (moves_fst_onTray ..)

theorem works_coolStatus : Works coolStatus := .refl

theorem works_sensorListWork (first count : Nat) : Works (sensorListWork first count) := fun y =>
  moves_fst_ite (moves_badField y) (.refl y)

theorem works_logInfo : Works logInfo := .refl

theorem works_faultStatus : Works faultStatus := .refl

theorem works_faultConfig (h : TmpHdr) (source value : Nat) : Works (faultConfig h source value) := fun y =>
  moves_fst_ite (moves_badField y) (moves_fst_onTray ..)

theorem works_indicatorWork (h : TmpHdr) (v : Nat) : Works (indicatorWork h v) := fun y =>
  moves_fst_ite (moves_badField y) (moves_fst_onTray ..)

theorem works_withSlot {f : SlotId → TmpWork} (hf : ∀ n, Works (f n)) (n : Nat) : Works (withSlot n f) := by
  unfold withSlot
  split
  · exact hf _
  · exact moves_badField

theorem works_slotPowerFrame (h : TmpHdr) (mask : BitVec 16) (order flags : Nat) : Works
  (slotPowerFrame h mask order flags) := by
  unfold slotPowerFrame
  split
  · split
    · exact works_slotPower _ _ _ _
    · exact moves_badField
  · exact moves_badField

theorem works_tmpWork (h : TmpHdr) (command : Nat) (p : List Byte) : Works (tmpWork h command p) := by
  unfold tmpWork
  extract_lets f
  split
  · exact works_pingWork
  · exact works_getInfoWork
  · exact works_setTrayIndex _ _ _
  · exact works_netConfig _ _
  · exact works_tmcRestart _ _
  · exact works_slotPowerFrame _ _ _ _
  · exact works_slotStatusWork _
  · exact works_trayPowerStatus
  · exact works_deferNotice _ _
  · exact works_deferDone _ _
  · exact works_autoPolicy _ _ _
  · exact works_coolDemand _ _ _ _
  · exact works_coolStatus
  · exact works_sensorRead _ _
  · exact works_sensorListWork _ _
  · exact works_logInfo
  · exact works_logRead _ _
  · exact works_faultStatus
  · exact works_faultAck _ _
  · exact works_faultConfig _ _ _
  · exact works_indicatorWork _ _
  · exact works_withSlot (fun n => works_chipReadWork n _ _) _
  · exact works_withSlot (fun n => works_chipWriteWork h n _ _) _
  · exact works_cableInfo _
  · exact moves_badField

theorem moves_afterReply (command : Nat) (p : List Byte) (boots : Word) (y : Sys) : Moves y
  (afterReply command p boots y) := by
  unfold afterReply
  split
  · exact .ite (.onTray ..) (.refl _)
  · exact .ite (.onTray ..) (.refl _)
  · exact .refl _

theorem moves_refuseTmp (h : TmpHdr) (command status : Nat) (y : Sys) : Moves y (refuseTmp h command status y) := by
  unfold refuseTmp
  exact moves_sendReply ..

theorem moves_serveFrame (inlet : Inlet) (src : Word) (x : TmpFrame) (y : Sys) : Moves y
  (serveFrame inlet src x y) := by
  unfold serveFrame
  extract_lets h
  refine .ite (moves_refuseTmp ..) ?_
  split
  · exact moves_refuseTmp ..
  have hz := moves_tmpCommand (h := h) (command := x.command) (works_tmpWork h x.command x.payload y)
  exact .ite (moves_refuseTmp ..) (.ite (moves_refuseTmp ..) (.ite (moves_tmpRead (works_tmpWork _ _ _ y))
    (.ite (hz.trans (moves_afterReply ..)) hz)))

theorem moves_serveMailbox (y : Sys) : Moves y (serveMailbox y) := by
  unfold serveMailbox
  dsimp only
  split
  · split
    · exact (Moves.onTray ..).trans (moves_serveFrame ..)
    · exact .onTray ..
  · exact .refl _

end Sys2Proof.Machine
end

section
/-! PROOFS. Every command keeps what fuses and straps fix, the outputs so far, memory in canonical form, and the queue; and so
does a tick. -/

namespace Sys2Proof.Machine

/-- A command's meaning that keeps what `Stores` says and leaves the queue as it is. -/
structure Sound (r : State → Result) : Prop where
  goes : ∀ s, ∃ q : List Host.Cell × Sys, r s = .next { s with mem := q.1, sys := q.2 } ∧ Stores s.mem s.sys q

theorem Sound.onMemSys {f : List Host.Cell → Sys → List Host.Cell × Sys} (h : ∀ m y, Stores m y (f m y)) :
    Sound (onMemSys f) := ⟨fun s => ⟨f s.mem s.sys, rfl, h s.mem s.sys⟩⟩

theorem Sound.onSysMem {f : List Host.Cell → Sys → Sys} (h : ∀ m y, Moves y (f m y)) : Sound (onSysMem f) :=
  ⟨fun s => ⟨(s.mem, f s.mem s.sys), rfl, .keeps (h s.mem s.sys)⟩⟩

theorem Sound.onSys {f : Sys → Sys} (h : ∀ y, Moves y (f y)) : Sound (onSys f) :=
  ⟨fun s => ⟨(s.mem, f s.sys), rfl, .keeps (h s.sys)⟩⟩

theorem Sound.onChip {f : Chip → Chip} (h : ∀ c, (f c).fixed = c.fixed) : Sound (onChip f) := .onSys fun _ => .onChip (h _)

theorem Sound.onBoard {f : Sys → Sys} (h : ∀ y, Moves y (f y)) : Sound (onBoard f) :=
  .onSys fun y => (h y).trans (moves_settleTray (f y))

theorem Sound.onTray (f : Nat → Tray → Tray) : Sound (onTray f) :=
  .onSys fun y => (Moves.onTray (f y.now) y).trans (moves_settleTray (y.onTray (f y.now)))

theorem Sound.onTrayAt (due : Tray → Option Nat) (f : Nat → Tray → Tray) : Sound (onTrayAt due f) := by
  refine .onBoard fun y => ?_
  split
  · exact (moves_await ..).trans (.onTray ..)
  · exact .refl y

theorem Sound.onTrayFree (f : Nat → Nat → Tray → Tray) : Sound (onTrayFree f) :=
  .onBoard fun y => (moves_fresh y).trans (.onTray ..)

theorem Sound.onSupply {f : Sys → Sys} (h : ∀ y, Moves y (f y)) : Sound (onSupply f) := by
  unfold Machine.onSupply
  refine .onMemSys fun m y => ?_
  extract_lets z
  have hz : Moves y z := (h y).trans (moves_settleTray (f y))
  exact .ite ⟨hz.trans ((moves_loseVret z).trans (moves_settleTray (loseVret z))), fun _ => rfl⟩ (.keeps hz)

theorem takeTimeFrame_fixed {p : PortId} {ttype : Nat} {c d : Chip} {i : InFrame} (h : takeTimeFrame p ttype c = some (i, d)) :
    d.fixed = c.fixed := by
  unfold takeTimeFrame at h
  split at h
  · cases h
  · cases h
    exact fixed_onPort ..

theorem Sound.onTimeFrame {p : PortId} {ttype : Nat} {f : Nat → InFrame → Chip → Chip}
    (h : ∀ n i c, (f n i c).fixed = c.fixed) : Sound (onTimeFrame p ttype f) := by
  unfold Machine.onTimeFrame
  refine .onSys fun y => .trans (moves_awaitFrame p (isTime ttype) y) (.onChip ?_)
  split
  · rfl
  next i d hd => exact (h ..).trans (takeTimeFrame_fixed hd)

theorem fixed_claimPort (v : TileId) (p : Fin 320) (slot off : Nat) (write : Bool) (c : Chip) :
    (claimPort v p slot off write c).2.fixed = c.fixed := by
  unfold claimPort
  extract_lets u sub
  split
  · rfl
  · exact fixed_tileEvent ..

theorem fixed_readLine (m : List Host.Cell) (ecc : List (Nat × EccMark)) (v : TileId) (p : Fin 320) (slot off : Nat)
    (c : Chip) : (readLine m ecc v p slot off c).2.fixed = c.fixed := by
  have h := fixed_claimPort v p slot off false c
  unfold readLine
  split
  next d hd => rwa [hd] at h
  next d hd =>
    rw [hd] at h
    exact (fixed_eccReport ..).trans h

theorem fixed_mailPop (c : Chip) : (mailPop c).2.fixed = c.fixed := by
  unfold mailPop
  extract_lets ready
  split
  · rfl
  · exact fixed_ite (fixed_postCompletion ..) rfl

/-- What an operation puts in flight changes nothing that is fixed. -/
theorem fixed_addFlights (p : Fin 320) (ds : List Dest) (lam : Nat) (c : Chip) :
    (ds.foldl (fun c d => addFlight p d lam c) c).fixed = c.fixed := fixed_foldl (fun _ _ => by rfl) ds c

theorem sound_execPortEnable (p : PortId) (enable : Bool) : Sound
  (execPortEnable p enable) := .onSys fun _ => .onChip (fixed_writePortEnable ..)

theorem sound_execRetrain (p : PortId) : Sound (execRetrain p) := .onSys fun _ => .onChip (fixed_writePortRetrain ..)

theorem sound_execClassWrite (p : PortId) (cls : BitVec 2) : Sound (execClassWrite p cls) := .onSys fun _ => .onChip
  (fixed_writePortClass ..)

theorem sound_execPartnerDetected (p : PortId) : Sound (execPartnerDetected p) := by
  unfold execPartnerDetected
  refine .onSys fun y => .onChip ?_
  exact (fixed_inState p _ _ _ fun c => fixed_ite (fixed_onPort ..) rfl).trans (fixed_wakePort ..)

theorem sound_execDetectTimeout (p : PortId) : Sound (execDetectTimeout p) := by
  unfold execDetectTimeout
  exact .onSys fun y => .trans (.onChip (fixed_wakePort ..)) (moves_whenState ((moves_await ..).trans (.onChip
    (fixed_enterDown ..))))

theorem sound_execLock (p : PortId) (locked : BitVec 8) : Sound (execLock p locked) := by
  unfold execLock
  refine .onSys fun y => .onChip (fixed_inPhase p _ _ _ fun c => ?_)
  exact fixed_ite ((fixed_enterDown ..).trans (fixed_onPort ..)) rfl

theorem sound_execEqualise (p : PortId) (good : BitVec 8) : Sound (execEqualise p good) := by
  unfold execEqualise
  refine .onSys fun y => .onChip (fixed_inPhase p _ _ _ fun c => ?_)
  exact fixed_ite rfl (fixed_ite ((fixed_enterDown ..).trans (fixed_onPort ..)) rfl)

theorem sound_execAlign (p : PortId) (peerChip : ChipNo) (peerPort : PortId) (peerDsn : Dword)
  (peerFailed : BitVec 8) :
    Sound (execAlign p peerChip peerPort peerDsn peerFailed) := by
  unfold execAlign
  refine .onSys fun y => .onChip (fixed_inPhase p _ _ _ fun c => ?_)
  exact fixed_ite (fixed_enterDown ..) (fixed_ite ((fixed_enterDown ..).trans (fixed_onPort ..)) rfl)

theorem sound_execMeasure (p : PortId) (delayNs : BitVec 8) : Sound (execMeasure p delayNs) := by
  unfold execMeasure
  refine .onSys fun y => .onChip (fixed_inPhase p _ _ _ fun c => ?_)
  exact fixed_ite ((fixed_enterDown ..).trans (fixed_onPort ..)) rfl

theorem sound_execConfirm (p : PortId) : Sound (execConfirm p) := by
  unfold execConfirm
  refine .onSys fun y => .onChip (fixed_inPhase p _ _ _ fun c => ?_)
  exact (fixed_enterUp ..).trans (fixed_onPort ..)

theorem sound_execTrainPhaseTimeout (p : PortId) : Sound
  (execTrainPhaseTimeout p) := .onSys fun _ => moves_whenState ((moves_await ..).trans (.onChip (fixed_enterDown ..)))

theorem sound_execLaneFail (p : PortId) (lane : LaneId) : Sound (execLaneFail p lane) := by
  unfold execLaneFail
  refine .onSys fun y => ?_
  exact .onChip (fixed_ite ((fixed_goRetrain ..).trans (fixed_onPort ..)) rfl)

theorem sound_execRetrainPatternSeen (p : PortId) : Sound (execRetrainPatternSeen p) := .onSys fun _ => .onChip
  (fixed_goRetrain ..)

theorem sound_execRetrainDone (p : PortId) (peerFailed : BitVec 8) : Sound (execRetrainDone p peerFailed) := by
  unfold execRetrainDone
  refine .onSys fun y => .onChip (fixed_inState p _ _ _ fun c => ?_)
  refine fixed_ite ((fixed_enterDown ..).trans (fixed_onPort ..)) ?_
  exact (fixed_replayEvent ..).trans ((fixed_enterUp ..).trans rfl)

theorem sound_execRetrainTimeout (p : PortId) : Sound (execRetrainTimeout p) := .onSys fun _ => moves_whenState
  ((moves_await ..).trans (.onChip (fixed_enterDown ..)))

theorem sound_execDownTimeout (p : PortId) : Sound (execDownTimeout p) := .onSys fun _ => moves_whenState (.ite
  ((moves_await ..).trans (.onChip (fixed_enterDetect ..))) (.refl _))

theorem sound_execReplayTimeout (p : PortId) : Sound (execReplayTimeout p) := .onSys fun _ => moves_whenState (.ite
  (.refl _) ((moves_await ..).trans (.onChip (fixed_replayEvent ..))))

theorem sound_execFabRetryRate (p : PortId) : Sound (execFabRetryRate p) := by
  unfold execFabRetryRate
  refine .onSys fun y => ?_
  exact .ite (.refl _) (((moves_await ..).trans (.onChip (fixed_checkRate ..))).trans (.onChip (fixed_onPort ..)))

theorem sound_execParentLoss : Sound execParentLoss := by
  unfold execParentLoss
  refine .onSys fun y => .ite (.trans (moves_awaitIf ..) (.onChip ?_)) (.refl y)
  split
  · exact fixed_raise 30 .chip _
  · exact (fixed_loseLock ..).trans (fixed_raise ..)

theorem sound_execParentRelock : Sound execParentRelock := by
  unfold execParentRelock
  refine .onSys fun y => ?_
  refine .onChip (?_)
  refine fixed_ite rfl ?_
  split
  · exact fixed_ite rfl rfl
  · exact fixed_ite rfl (fixed_loseLock ..)

theorem sound_execRootFailover : Sound execRootFailover := by
  unfold execRootFailover
  refine .onSys fun y => ?_
  exact .ite ((moves_await ..).trans (.onChip ((fixed_takePlace ..).trans (fixed_raise ..)))) (.refl _)

theorem sound_execSyncSend : Sound execSyncSend := by
  unfold execSyncSend
  refine .onSys fun y => ?_
  exact (moves_awaitIf ..).trans (.onChip (fixed_ite rfl (fixed_pourOn ..)))

theorem sound_execSyncFrame (p : PortId) : Sound (execSyncFrame p) := by
  unfold execSyncFrame
  exact .onTimeFrame fun now i c => fixed_ite ((fixed_applySync ..).trans (fixed_onPort ..)) (fixed_onPort ..)

theorem sound_execLaunchPour (p : PortId) : Sound (execLaunchPour p) := by
  unfold execLaunchPour
  refine .onTimeFrame fun now i c => fixed_ite rfl (fixed_ite (fixed_pourOn ..) ?_)
  split
  · exact (fixed_pourOn ..).trans (fixed_enterRun ..)
  · exact (fixed_pourAbort ..).trans ((fixed_raise ..).trans (fixed_pourOn ..))

theorem sound_execAbortPour (p : PortId) : Sound (execAbortPour p) := by
  unfold execAbortPour
  refine .onTimeFrame fun now i c => fixed_ite rfl ?_
  extract_lets t c1 c2
  have h2 : c2.fixed = c.fixed := fixed_pourOn 2 i.frame (some p) c1
  clear_value c2
  exact fixed_ite ((fixed_leaveRun true _).trans h2) h2

theorem sound_execLagFrame (p : PortId) : Sound (execLagFrame p) := by
  unfold execLagFrame
  exact .onTimeFrame fun now i c => fixed_onPort ..

theorem sound_execProgramStart : Sound execProgramStart := by
  unfold execProgramStart
  refine .onSys fun y => ?_
  exact .ite ((moves_awaitView ..).trans (.onChip (fixed_beginProgram ..))) (.refl _)

theorem sound_execRunEnd : Sound execRunEnd := .onChip fun _ => fixed_ite (fixed_leaveRun ..) rfl

theorem sound_execHoldTimeout : Sound execHoldTimeout := by
  unfold execHoldTimeout
  refine .onSys fun y => ?_
  exact .ite ((moves_await ..).trans (.onChip ((fixed_startAbort ..).trans (fixed_raise ..)))) (.refl _)

theorem sound_execColumnMapWrite (reg : Fin 6) (value : Word) : Sound
  (execColumnMapWrite reg value) := .onSys fun _ => moves_chipWrite ..

theorem sound_execTraceEnable (value : Word) : Sound (execTraceEnable value) := .onSys fun _ => moves_chipWrite ..

theorem sound_execTraceDataRead : Sound execTraceDataRead := .onSys fun _ => moves_chipRead ..

theorem sound_execSteepCommit : Sound execSteepCommit := .onSys fun _ => moves_chipWrite ..

theorem sound_execMonCommit : Sound execMonCommit := .onSys fun _ => moves_chipWrite ..

theorem sound_execGtcRead : Sound execGtcRead := .onSys fun _ => moves_chipRead ..

theorem sound_execLagRead : Sound execLagRead := .onSys fun _ => moves_chipRead ..

theorem sound_execSrchWorkRead : Sound execSrchWorkRead := .onSys fun _ => moves_chipRead ..

theorem sound_execSteepBalRead (q : QuadId) : Sound (execSteepBalRead q) := .onSys fun _ => moves_chipRead ..

theorem sound_execTrayIndexWrite (value : Word) : Sound
  (execTrayIndexWrite value) := .onSys fun _ => moves_chipWrite ..

theorem sound_execDomainRequest (value : Word) : Sound (execDomainRequest value) := .onSys fun _ => moves_chipWrite ..

theorem sound_execDomainPowerOnEnd (d : Domain) : Sound (execDomainPowerOnEnd d) := by
  unfold execDomainPowerOnEnd
  refine .onSys fun y => ?_
  exact (moves_awaitDomain ..).trans (.onChip (fixed_powerOnEnd ..))

theorem sound_execDomainPowerOffEnd (d : Domain) : Sound (execDomainPowerOffEnd d) := by
  unfold execDomainPowerOffEnd
  refine .onSys fun y => ?_
  exact (moves_awaitDomain ..).trans (.onChip (fixed_powerOffEnd ..))

theorem sound_execLowIdleEntry : Sound execLowIdleEntry := .onSys fun _ => moves_chipWrite ..

theorem sound_execLowIdleExit : Sound execLowIdleExit := .onSys fun _ => moves_chipWrite ..

theorem sound_execKeepAliveRateReturn : Sound execKeepAliveRateReturn := by
  unfold execKeepAliveRateReturn
  refine .onSys fun y => ?_
  split
  · exact (moves_await ..).trans (.onChip (fixed_onPwr ..))
  · exact .refl _

theorem sound_execRetentionExit : Sound execRetentionExit := by
  unfold execRetentionExit
  refine .onSys fun y => ?_
  exact .onChip (fixed_ite ((fixed_ownersReset ..).trans (fixed_leaveRetention ..)) rfl)

theorem sound_execRetLost : Sound execRetLost := by
  unfold execRetLost
  refine .onMemSys fun _ y => ?_
  exact ⟨moves_loseRet y, fun _ => rfl⟩

theorem sound_execOpGo : Sound execOpGo := by
  unfold execOpGo
  refine .onSys fun y => ?_
  exact moves_chipWrite ..

theorem sound_execOpTransitionStart : Sound execOpTransitionStart := by
  unfold execOpTransitionStart
  refine .onSys fun y => ?_
  extract_lets y1
  have h1 : Moves y y1 := by
    unfold y1
    split
    · exact .ite (moves_awaitView ..) (.refl y)
    · exact .refl y
  clear_value y1
  exact .ite (h1.trans (.onChip (fixed_opStart ..))) h1

theorem sound_execOpTransitionEnd (pllLocked vcoreInRange : Bool) : Sound
  (execOpTransitionEnd pllLocked vcoreInRange) := by
  unfold execOpTransitionEnd
  refine .onSys fun y => ?_
  split
  · exact (moves_await ..).trans (.onChip (fixed_opEnd ..))
  · exact .refl _

theorem sound_execSupplyWarning (r : MonRail) : Sound (execSupplyWarning r) := by
  unfold execSupplyWarning
  refine .onSys fun y => ?_
  exact .onChip (fixed_ite rfl rfl)

theorem sound_execSupplyRecovered (r : MonRail) : Sound (execSupplyRecovered r) := by
  unfold execSupplyRecovered
  refine .onSys fun y => ?_
  exact .onChip (fixed_ite (fixed_railRecovered ..) rfl)

theorem sound_execSupplyReset (r : MonRail) : Sound (execSupplyReset r) := by
  refine ⟨fun s => ?_⟩
  unfold execSupplyReset
  split
  · refine (Sound.onMemSys fun _ y => ?_).goes s
    have h : Moves y (y.onChip (railWarn r y.now)) := .onChip rfl
    exact ⟨h.trans (moves_loseRet _), fun _ => rfl⟩
  · exact (Sound.onSys fun y => .onChip (fixed_ite (fixed_railReset ..) rfl)).goes s

theorem sound_execThermalScan (milliC : Vector ℤ 16) : Sound (execThermalScan milliC) := by
  unfold execThermalScan
  refine .onSys fun y => ?_
  exact .ite (.refl _) ((moves_recordMax ..).trans (.onChip (fixed_thermalReact ..)))

theorem sound_execForecastEffect (q : QuadId) : Sound
  (execForecastEffect q) := .onChip fun _ => fixed_applyForecast ..

theorem sound_execAonReset : Sound execAonReset := by
  unfold execAonReset
  refine .onMemSys fun _ y => ?_
  exact ⟨.same ((fixed_foldl (fun _ _ => fixed_startPorts ..) ..).trans rfl) rfl, fun _ => rfl⟩

theorem sound_execBbuDepleted : Sound execBbuDepleted := .onSupply fun _ => .onTray ..

theorem sound_execBbuFault : Sound execBbuFault := .onSupply fun _ => .onTray ..

theorem sound_execBbuRemove : Sound execBbuRemove := .onSupply fun _ => .onTray ..

theorem sound_execCommit (_cause : CommitCause) : Sound (execCommit _cause) := .onSupply fun _ => .ite
  (moves_commitTray ..) (.refl _)

theorem sound_execPark : Sound execPark := .onBoard fun _ => (moves_retainChip ..).trans (.onTray ..)

theorem sound_execRailOff (n : SlotId) : Sound (execRailOff n) := .onBoard fun _ => (Moves.onTray ..).trans
  (moves_loseVaux ..)

theorem sound_execRailLost (n : SlotId) (k : CpcRail) : Sound (execRailLost n k) := .onBoard fun _ =>
  (moves_fresh ..).trans (.onTray ..)

theorem sound_execCartridgeRemove (n : SlotId) : Sound (execCartridgeRemove n) := by
  unfold execCartridgeRemove
  refine .onMemSys fun m y => .ite (.refl m y) ?_
  have hz := (Moves.onTray (removeCartridge n y.now) y).trans (moves_settleTray (y.onTray (removeCartridge n y.now)))
  exact .ite ⟨hz.trans (((moves_loseRet _).trans (.onChip rfl)).trans (moves_settleTray _)), fun _ => rfl⟩ (.keeps hz)

theorem sound_execTwoWireRegisterWrite (n : SlotId) (dev : TwoWireDev) (bytes : List Byte) : Sound
  (execTwoWireRegisterWrite n dev bytes) := by
  unfold execTwoWireRegisterWrite
  refine .onBoard fun y => ?_
  split
  · exact .refl _
  · split
    · exact .ite (.onTray ..) (.refl _)
    · exact .ite (.refl _) (.ite ((moves_addressChip ..).trans (moves_sk2Write ..)) (moves_addressChip ..))

theorem sound_execTwoWireRegisterRead (n : SlotId) (dev : TwoWireDev) (o0 o1 : Byte) (clocked : Nat) : Sound
  (execTwoWireRegisterRead n dev o0 o1 clocked) := by
  unfold execTwoWireRegisterRead
  refine .onBoard fun y => ?_
  split
  · exact .refl _
  · split
    · exact .ite (.emit ..) (.refl _)
    · exact .ite ((moves_fresh ..).trans (.emit ..)) (.ite (moves_addressChip ..) (((moves_addressChip ..).trans
        (moves_targetRead ..)).trans (.emit ..)))

theorem sound_execManagementWakeEnd : Sound execManagementWakeEnd := .onBoard fun _ => .onChip (fixed_endWake ..)

theorem fixed_mgt (g : Mgt) (c : Chip) : { c with mgt := g }.fixed = c.fixed := rfl

theorem sound_execKeepAliveReturn : Sound execKeepAliveReturn := by
  unfold execKeepAliveReturn
  refine .onBoard fun y => ?_
  split
  · exact (moves_await ..).trans (.onChip (fixed_mgt ..))
  · exact .refl y

theorem sound_execTwoWireTimeout : Sound execTwoWireTimeout := .onBoard fun _ => .onChip (fixed_ite rfl rfl)

theorem sound_execStartTransaction (b : BusId) : Sound (execStartTransaction b) := .onBoard fun _ => moves_startTwi ..

theorem sound_execBusStuck (b : BusId) : Sound (execBusStuck b) := .onBoard fun _ => moves_busStuck ..

theorem sound_execTwoWireTransactionDone (b : BusId) (result : TwiResult) (bytes : List Byte) : Sound
  (execTwoWireTransactionDone b result bytes) := .onBoard fun _ => .ite (.refl _) (.ite (moves_busStuck ..)
  ((moves_fresh ..).trans (.onTray ..)))

theorem sound_execRecover (b : BusId) : Sound (execRecover b) := .onBoard fun _ => moves_recoverBus ..

theorem sound_execRecoveryRetry (b : BusId) : Sound (execRecoveryRetry b) := .onBoard fun _ => moves_retryBus ..

theorem sound_execSlotPower (h : TmpHdr) (mask : BitVec 16) (o : Order) (noNotice : Bool) : Sound
  (execSlotPower h mask o noNotice) := .onBoard fun _ => moves_tmpCommand (works_slotPower _ _ _ _ _)

theorem sound_execDefer (h : TmpHdr) (notice : Byte) : Sound
  (execDefer h notice) := .onBoard fun _ => moves_tmpCommand (works_deferNotice _ _ _)

theorem sound_execDeferDone (h : TmpHdr) (notice : Byte) : Sound
  (execDeferDone h notice) := .onBoard fun _ => moves_tmpCommand (works_deferDone _ _ _)

theorem sound_execNoticeExpiry : Sound execNoticeExpiry := .onBoard fun _ => moves_expireNotice ..

theorem sound_execDeferTimeout : Sound execDeferTimeout := .onBoard fun _ => moves_expireNotice ..

theorem sound_execCoolDemand (h : TmpHdr) (flow : BitVec 16) (fan pump : Byte) : Sound
  (execCoolDemand h flow fan pump) := .onBoard fun _ => moves_tmpCommand (works_coolDemand _ _ _ _ _)

theorem sound_execSensorRead (h : TmpHdr) (first count : Nat) : Sound
  (execSensorRead h first count) := .onBoard fun _ => moves_tmpRead (works_sensorRead _ _ _)

theorem sound_execLogRead (h : TmpHdr) (number : Word) (count : Nat) : Sound
  (execLogRead h number count) := .onBoard fun _ => moves_tmpRead (works_logRead _ _ _)

theorem sound_execLogRecordWrite : Sound execLogRecordWrite := by
  unfold execLogRecordWrite
  refine .onBoard fun y => ?_
  split
  · exact .ite ((moves_await ..).trans (.onTray ..)) (.refl _)
  · exact .refl _

theorem sound_execFaultAck (h : TmpHdr) (mask : Dword) : Sound
  (execFaultAck h mask) := .onBoard fun _ => moves_tmpCommand (works_faultAck _ _ _)

theorem sound_execChipRead (h : TmpHdr) (slot : SlotId) (offset : BitVec 16) (count : Nat) : Sound
  (execChipRead h slot offset count) := .onBoard fun _ => moves_tmpRead (works_chipReadWork _ _ _ _)

theorem sound_execChipWrite (h : TmpHdr) (slot : SlotId) (offset : BitVec 16) (value : Word) : Sound
  (execChipWrite h slot offset value) := .onBoard fun _ => moves_tmpCommand (works_chipWriteWork _ _ _ _ _)

theorem sound_execCableInfo (h : TmpHdr) (cage : Nat) : Sound
  (execCableInfo h cage) := .onBoard fun _ => moves_tmpRead (works_cableInfo _ _)

theorem sound_execDhcpTimeout : Sound execDhcpTimeout := .onBoard fun _ => .ite (((moves_await ..).trans
  (moves_fresh ..)).trans (.onTray ..)) (.refl _)

theorem sound_execWatchdogService : Sound execWatchdogService := .onBoard fun _ => .ite (moves_awaitReset ..) (.ite
  (((moves_awaitReset ..).trans (.onTray ..)).trans (.onTray ..)) (((moves_awaitReset ..).trans (.onTray ..)).trans
  (moves_firstService ..)))

theorem sound_execWatchdogExpiry : Sound execWatchdogExpiry := .onBoard fun _ => .ite (((moves_awaitReset ..).trans
  (moves_await ..)).trans (.onTray ..)) (moves_awaitReset ..)

theorem sound_execTmcRestart (h : TmpHdr) (bootCount : Word) : Sound
  (execTmcRestart h bootCount) := .onBoard fun _ => .ite ((moves_tmpCommand (works_tmcRestart _ _ _)).trans
  (.onTray ..)) (moves_tmpCommand (works_tmcRestart _ _ _))

theorem sound_execBbTimeRead : Sound execBbTimeRead := .onBoard fun _ => (Moves.onTray ..).trans (.emit ..)

theorem sound_execRegisterWrite (space : RegSpace) (offset size : Nat) (value : Word) : Sound
  (execRegisterWrite space offset size value) := .onBoard fun _ => moves_registerWrite ..

theorem sound_execBaseBoardReset : Sound execBaseBoardReset := .onSupply fun _ => moves_boardReset ..

theorem sound_execTrayInputRise : Sound execTrayInputRise := .onSupply fun _ => (moves_boardReset ..).trans
  (.onTray ..)

theorem sound_serveKind (is : Nat → Bool) : Sound (serveKind is) := by
  unfold serveKind
  refine .onMemSys fun m y => ?_
  extract_lets y1 r
  have h1 : Moves y y1 := (Moves.onChip (fixed_takeSearchLines ..)).trans (moves_awaitEnd _)
  have hr : Stores m y r := (Stores.keeps h1).trans (stores_retire ..)
  clear_value r
  split
  · exact .ite (hr.andThen (moves_beginSearch ..)) hr
  · exact hr

theorem sound_execSearchBudgetEnd : Sound execSearchBudgetEnd := by
  unfold execSearchBudgetEnd
  refine .onMemSys fun m y => ?_
  exact .ite ((Stores.keeps (moves_awaitEnd ..)).trans (stores_retire ..)) (.refl _ _)

theorem sound_execSearchResult : Sound execSearchResult := by
  unfold execSearchResult
  refine .onMemSys fun m y => ?_
  have h1 := (Moves.onChip (fixed_takeSearchLines y.chip)).trans (moves_awaitAnswer (y.onChip takeSearchLines))
  exact ((Stores.keeps h1).trans (stores_retire ..)).andThen (.onChip ((fixed_sendHostLines _).trans
    (fixed_deliverReady _)))

theorem moves_ecc (ecc : List (Nat × EccMark)) (y : Sys) : Moves y { y with ecc := ecc } := .same rfl rfl

theorem sound_execSearchScrub : Sound execSearchScrub := by
  unfold execSearchScrub
  refine .onSys fun y => ?_
  extract_lets y1 c u ready off w r u1 u2 y2
  have h1 : Moves y y1 := by
    unfold y1
    split
    · exact .ite (.refl y) (moves_awaitCycle ..)
    · exact .refl y
  have h2 : Moves y y2 := h1.trans (.onChip (fixed_ite ((fixed_raise ..).trans (fixed_srch ..)) (fixed_srch ..)))
  exact .ite (.ite (h2.trans (moves_ecc ..)) h2) h1

theorem sound_serveOp {q : QpId} {op : Nat} {f : QEntry → Sys → Sys} (h : ∀ e y, Moves y (f e y)) : Sound
  (serveOp q op f) :=
  .onSys (moves_startOp fun e y => .ite (h e y) (.onChip (fixed_endEntry ..)))

theorem sound_execFrameReceive (p : PortId) (bytes : List Byte) : Sound (execFrameReceive p bytes) := by
  unfold execFrameReceive
  refine .onSys fun y => ?_
  exact .onChip (fixed_ite ((fixed_strictXoff ..).trans ((fixed_countFixed ..).trans (fixed_ite rfl (fixed_ite
    (fixed_receiveFrame ..) (fixed_onPort ..))))) rfl)

theorem sound_execEgressArbitration (p : PortId) : Sound (execEgressArbitration p) := by
  unfold execEgressArbitration
  refine .onSys fun y => ?_
  exact ((Moves.onChip (fixed_deliverPorts ..)).trans (moves_egressFrame ..)).trans (.onChip (fixed_strictXoff ..))

theorem sound_execScheduledLineArrival (p : PortId) : Sound (execScheduledLineArrival p) := by
  unfold execScheduledLineArrival
  refine .onSys fun y => ?_
  exact (moves_awaitFrame ..).trans (.onChip ((fixed_strictXoff ..).trans (fixed_passFirst ..)))

theorem sound_execArrivalGateRelease (p : PortId) : Sound (execArrivalGateRelease p) := .onChip fun _ =>
  (fixed_strictXoff ..).trans (fixed_passFirst ..)

theorem sound_execSegmentIssue : Sound execSegmentIssue := .onSys fun _ => moves_issueSegment ..

theorem sound_execRreq (path : HostPath) : Sound (execRreq path) := by
  unfold execRreq
  refine .onMemSys fun m y => ?_
  split
  · exact stores_ownRequest ..
  · exact (Stores.keeps (moves_awaitFrame ..)).trans (stores_takeRequest ..)

theorem sound_execWreq (path : HostPath) : Sound (execWreq path) := by
  unfold execWreq
  refine .onMemSys fun m y => ?_
  split
  · exact stores_ownRequest ..
  · exact (Stores.keeps (moves_awaitFrame ..)).trans (stores_takeRequest ..)

theorem sound_execWdata (path : HostPath) : Sound (execWdata path) := by
  unfold execWdata
  refine .onMemSys fun m y => ?_
  split
  · exact stores_ownData ..
  · exact (Stores.keeps (moves_awaitFrame ..)).trans (stores_takeRequest ..)

theorem sound_execRresp (path : HostPath) : Sound (execRresp path) := by
  unfold execRresp
  refine .onSys fun y => ?_
  split
  · exact moves_ownResponse ..
  · exact (moves_awaitFrame ..).trans (moves_passResponse ..)

theorem sound_execWresp (path : HostPath) : Sound (execWresp path) := by
  unfold execWresp
  refine .onSys fun y => ?_
  split
  · exact moves_ownResponse ..
  · exact (moves_awaitFrame ..).trans (moves_passResponse ..)

theorem sound_execTransactionTimeout (tag : Fin 256) : Sound (execTransactionTimeout tag) := by
  unfold execTransactionTimeout
  refine .onSys fun y => ?_
  split
  · exact .refl _
  · split
    · exact (moves_await ..).trans (moves_endTxn ..)
    · exact .refl _

theorem sound_execWreqTimeout (src : ChipNo) (tag : Fin 256) : Sound (execWreqTimeout src tag) := by
  unfold execWreqTimeout
  refine .onMemSys fun m y => ?_
  dsimp only
  split
  · exact .refl _ _
  · exact (Stores.keeps ((moves_await ..).trans (.onChip (rfl)))).trans (stores_serveAll ..)

theorem sound_execManagementFrame (p : PortId) (send : Option (Dword × Line)) : Sound
  (execManagementFrame p send) := by
  unfold execManagementFrame
  refine .onSys fun y => ?_
  dsimp only
  split
  · exact .ite (.onChip (fixed_onPort ..)) (.refl _)
  · split
    · exact moves_awaitFrame ..
    · exact .ite (((moves_awaitFrame ..).trans (.onChip (fixed_onPort ..))).trans (.emit ..))
        ((moves_awaitFrame ..).trans (.onChip (fixed_onPort ..)))

theorem sound_execFaultLatch (c : CollectorId) : Sound (execFaultLatch c) := by
  unfold execFaultLatch
  refine .onBoard ?_
  split
  · exact moves_latchChip
  · exact moves_latchTray

theorem sound_execEscalationTimerExpiry (c : CollectorId) (i : SourceId) : Sound
  (execEscalationTimerExpiry c i) := .onBoard fun _ => moves_escalate ..

theorem sound_execAutoClear (c : CollectorId) (i : SourceId) : Sound
  (execAutoClear c i) := .onBoard fun _ => moves_autoClear ..

theorem sound_execFcAck (c : CollectorId) (hi : Bool) (mask : Word) : Sound
  (execFcAck c hi mask) := .onBoard fun _ => moves_collectorWrite ..

theorem sound_execFcInject (c : CollectorId) (value : Word) : Sound
  (execFcInject c value) := .onBoard fun _ => moves_collectorWrite ..

theorem sound_execFcSrcCfgWrite (c : CollectorId) (i : SourceId) (value : Word) : Sound
  (execFcSrcCfgWrite c i value) := .onBoard fun _ => moves_collectorWrite ..

theorem sound_execNmiDelivery : Sound execNmiDelivery := .onChip fun _ => fixed_deliverNmi ..

theorem sound_execNmiPop : Sound execNmiPop := .onBoard fun _ => moves_chipWrite ..

theorem sound_execCscWatchdog : Sound execCscWatchdog := .onBoard fun _ => .onChip (fixed_raise ..)

theorem sound_execClockLoss : Sound execClockLoss := .onBoard fun _ => .onChip (fixed_raise ..)

theorem sound_execCrcStart : Sound execCrcStart := .onBoard fun _ => moves_chipWrite ..

theorem sound_execCrcDone : Sound execCrcDone := by
  unfold execCrcDone
  refine .onSysMem fun m y => ?_
  exact .ite (((moves_awaitCycle ..).trans (moves_crcFinish ..)).trans (moves_settleTray ..)) (.refl _)

theorem sound_execPcieLinkUp : Sound execPcieLinkUp := by
  unfold execPcieLinkUp
  refine .onSys fun y => ?_
  exact .ite ((moves_fresh ..).trans (.onChip (rfl))) (.refl _)

theorem sound_execSqTail (q : QpId) (value : Word) : Sound
  (execSqTail q value) := .onSys fun _ => moves_writeSqTail ..

theorem sound_execCqHead (q : QpId) (value : Word) : Sound (execCqHead q value) := .onChip fun _ => rfl

theorem sound_execPush (q : QpId) (offset : Nat) (bytes : List Byte) : Sound
  (execPush q offset bytes) := .onChip fun _ => fixed_writePush ..

theorem sound_execInput (q : QpId) : Sound (execInput q) := by
  unfold execInput
  exact sound_serveOp fun e y => .ite (.onChip (fixed_endEntry ..)) (.ite (.onChip (fixed_endEntry ..))
    (.ite (.onChip (fixed_placeInput ..)) (moves_dmaRead ..)))

theorem sound_execHostReadCompletion (q : QpId) (result : ReadResult) : Sound (execHostReadCompletion q result) := by
  unfold execHostReadCompletion
  refine .onMemSys fun m y => ?_
  split
  · exact stores_readArrived ..
  · exact .keeps (moves_readFailed ..)

theorem sound_execCompletionTimeout (q : QpId) : Sound
  (execCompletionTimeout q) := .onSys fun _ => moves_readFailed ..

theorem sound_execNopDescriptor (q : QpId) : Sound (execNopDescriptor q) := by
  unfold execNopDescriptor
  exact .onSys (moves_startOp fun e y => .onChip (fixed_endEntry ..))

theorem sound_execWrite (q : QpId) : Sound (execWrite q) := by
  unfold execWrite
  exact sound_serveOp fun e y => .ite (.onChip (fixed_endEntry ..)) (moves_dmaRead ..)

theorem Reads.sent {y : Sys} {r : Bool × List Byte × Sys} (h : Reads y r) (a : Dword) (q : QpId) (e : QEntry)
  (n : Nat) :
    Moves y ((r.2.2.emit (.hostWrite a r.2.1)).onChip (endEntry q e (if r.1 then 18 else 0) n 0 0)) :=
  (Moves.trans h (.emit ..)).trans (.onChip (fixed_endEntry ..))

theorem sound_execRead (q : QpId) : Sound (execRead q) := by
  unfold execRead
  refine .onSysMem fun m y => moves_startOp (fun e y => ?_) y
  exact .ite (.onChip (fixed_endEntry ..)) (.ite (.onChip (fixed_endEntry ..))
    ((reads_readRange m _ _ y).sent _ q e _))

theorem sound_execLaunch (q : QpId) : Sound (execLaunch q) := by
  unfold execLaunch
  refine sound_serveOp fun e y => .onChip ?_
  split
  · exact fixed_acceptLaunch ..
  · exact fixed_endEntry ..

theorem sound_execStop (q : QpId) : Sound (execStop q) := by
  unfold execStop
  exact sound_serveOp fun e y => .onChip (fixed_ite ((fixed_endEntry ..).trans (fixed_startAbort ..))
    (fixed_endEntry ..))

theorem sound_execGlobalWrite (q : QpId) : Sound (execGlobalWrite q) := by
  unfold execGlobalWrite
  exact sound_serveOp fun e y => .ite (.onChip (fixed_endEntry ..)) (moves_dmaRead ..)

theorem sound_execGlobalRead (q : QpId) : Sound (execGlobalRead q) := by
  unfold execGlobalRead
  refine sound_serveOp fun e y => .onChip ?_
  exact fixed_ite (fixed_endEntry ..) rfl

theorem sound_execCancel (q : QpId) : Sound (execCancel q) := by
  unfold execCancel
  refine sound_serveOp fun e y => .onChip ?_
  extract_lets tq
  split
  · exact fixed_endEntry ..
  · refine fixed_ite (fixed_endEntry ..) ((fixed_endEntry ..).trans ?_)
    exact fixed_ite ((fixed_endGlobal ..).trans (fixed_onEntry ..)) (fixed_onEntry ..)

theorem sound_execFence (q : QpId) : Sound (execFence q) := by
  unfold execFence
  exact sound_serveOp fun e y => .onChip (fixed_endEntry ..)

theorem sound_execSearch (q : QpId) : Sound (execSearch q) := by
  unfold execSearch
  exact sound_serveOp fun e y => .ite (.onChip (fixed_endEntry ..)) (.ite (.onChip ((fixed_endEntry ..).trans rfl))
    (moves_dmaRead ..))

theorem sound_execTimeQuery (q : QpId) : Sound (execTimeQuery q) := by
  unfold execTimeQuery
  exact sound_serveOp fun e y => .onChip (fixed_endEntry ..)

theorem sound_execHostWriteSend : Sound execHostWriteSend := by
  unfold execHostWriteSend
  refine .onSys fun y => ?_
  extract_lets y1
  have h1 : Moves y y1 := .onChip (fixed_ite (fixed_takeHostLines ..) (fixed_drainHost ..))
  clear_value y1
  split
  · exact h1
  next w rest _ =>
    extract_lets y2
    have h2 : Moves y y2 := (h1.trans (moves_awaitCycle ..)).trans (.onChip (rfl))
    clear_value y2
    refine .ite h1 (.ite (h2.trans ((Moves.emit ..).trans (.onChip (fixed_endWrite ..)))) (h2.trans (.onChip ?_)))
    split
    · exact (fixed_endWrite ..).trans (fixed_dropWrite ..)
    · exact fixed_dropWrite ..

theorem sound_execCompletionPost (q : QpId) : Sound (execCompletionPost q) := by
  unfold execCompletionPost
  refine .onSys fun y => ?_
  split
  · exact .refl _
  · exact .ite (.refl _) ((((moves_awaitCycle ..).trans (.emit ..)).trans (.onChip (rfl))).trans
      (moves_checkThresh ..))

theorem sound_execInterruptTimer (q : QpId) : Sound (execInterruptTimer q) := by
  unfold execInterruptTimer
  refine .onSys fun y => ?_
  dsimp only
  split
  · exact .ite ((moves_await ..).trans (moves_fireQp ..)) (.refl _)
  · exact .refl _

theorem sound_execQpEnable (q : QpId) : Sound (execQpEnable q) := .onChip fun _ => rfl

theorem sound_execQpDisable (q : QpId) : Sound (execQpDisable q) := .onChip fun _ => fixed_qpDisable ..

theorem sound_execQpDrainEnd (q : QpId) : Sound (execQpDrainEnd q) := .onChip fun _ => fixed_ite rfl rfl

theorem Reads.answered {y : Sys} {x : Nat × List Byte × Sys} (h : Reads y x) (m : List Host.Cell) :
    Stores m y (if x.1 == 2 then (m, x.2.2.emit .unsupported)
      else if x.1 == 1 then (m, (reservedAccess x.2.2).emit (.readData x.2.1))
      else (m, x.2.2.emit (.readData x.2.1))) :=
  .ite (.keeps (Moves.trans h (.emit ..))) (.ite (.keeps ((Moves.trans h (moves_reservedAccess _)).trans (.emit ..)))
    (.keeps (Moves.trans h (.emit ..))))

theorem Writes.answered {m : List Host.Cell} {y : Sys} {x : Nat × List Host.Cell × Sys} (h : Writes m y x) :
    Stores m y (if x.1 == 2 then (x.2.1, (x.2.2.emit .unsupported).onChip Chip.aerRecord)
      else if x.1 == 1 then (x.2.1, reservedAccess x.2.2)
      else (x.2.1, x.2.2)) :=
  .ite (Stores.andThen h ((Moves.emit ..).trans (.onChip rfl))) (.ite (Stores.andThen h (moves_reservedAccess _)) h)

theorem sound_execWindowAccess (offset : BitVec 28) (op : WinOp) : Sound (execWindowAccess offset op) := by
  unfold execWindowAccess
  refine .onMemSys fun m y => ?_
  extract_lets off len r
  clear_value r
  refine .ite (.keeps (moves_deadRead ..)) (.ite (.keeps (.emit ..)) ?_)
  split
  · exact (reads_readPiece ..).answered m
  · exact (writes_writePiece ..).answered

theorem sound_execFunctionLevelReset : Sound execFunctionLevelReset := .onChip fun _ => rfl

theorem sound_execD3hot : Sound execD3hot := .onChip fun _ => rfl

theorem sound_execFundamentalReset : Sound execFundamentalReset := .onChip fun _ => rfl

theorem sound_execLinkDown : Sound execLinkDown := .onChip fun _ => rfl

theorem sound_execBr (v : TileId) (pred : PReg) (target : BitVec 16) (pop : BitVec 3) : Sound
  (execBr v pred target pop) := by
  unfold execBr
  exact .onChip (fixed_issue fun _ _ => fixed_onTile ..)

theorem sound_execLoop (v : TileId) (pred : PReg) (len : BitVec 8) (k : KReg) (n : LoopCount) :
    Sound (execLoop v pred len k n) := by
  unfold execLoop
  exact .onChip (fixed_issue fun _ _ => (fixed_onUse ..).trans rfl)

theorem sound_execLoopEnd (v : TileId) : Sound (execLoopEnd v) := .onChip fun c => by
  split
  · rfl
  · exact fixed_makeLoopTest ..

theorem sound_predOp (f : Bool → Bool → Bool) (v : TileId) (pred d a b : PReg) : Sound
  (predOp f v pred d a b) := .onChip fun _ => fixed_issueResult ..

theorem sound_execEndProgram (v : TileId) (pred : PReg) : Sound (execEndProgram v pred) := by
  unfold execEndProgram
  exact .onChip (fixed_issue fun _ _ => fixed_onTile ..)

theorem sound_execWaitGtc (v : TileId) (pred : PReg) (aa : AReg) : Sound (execWaitGtc v pred aa) := by
  unfold execWaitGtc
  exact .onChip (fixed_issue fun _ _ => rfl)

theorem sound_execRamp (v : TileId) (pred : PReg) (qmask : BitVec 4) (level : BitVec 6) (lead : BitVec 10) :
    Sound (execRamp v pred qmask level lead) := by
  unfold execRamp
  exact .onChip (fixed_issue fun _ _ => fixed_foldl (fun _ _ => fixed_rampQuad ..) ..)

theorem sound_execResultLanding (v : TileId) : Sound (execResultLanding v) := by
  unfold execResultLanding
  refine .onMemSys fun m y => ?_
  split
  · exact .refl _ _
  · exact stores_landDue ..

theorem sound_execWaitReceiveCheck (v : TileId) (pred : PReg) (ch : Chan) : Sound
  (execWaitReceiveCheck v pred ch) := .onChip fun c => by
  split
  · exact fixed_ite rfl (fixed_ite ((fixed_startAbort ..).trans (fixed_raise ..)) rfl)
  · rfl

theorem sound_execHoldRelease : Sound execHoldRelease := by
  unfold execHoldRelease
  refine .onSys fun y => ?_
  exact (moves_awaitCycle ..).trans (.onChip (fixed_resumeIssue ..))

theorem sound_execWaitGtcEnd : Sound execWaitGtcEnd := by
  unfold execWaitGtcEnd
  refine .onSys fun y => ?_
  exact (moves_awaitView ..).trans (.onChip (fixed_resumeIssue ..))

theorem sound_execMeshLineArrival (v : TileId) : Sound (execMeshLineArrival v) := .onChip fun _ =>
  (fixed_deliverTile ..).trans (fixed_meshAdvance ..)

theorem sound_execScrubRead (v : TileId) : Sound (execScrubRead v) := by
  unfold execScrubRead
  refine .onSys fun y => ?_
  dsimp only
  refine .trans ?_ (.onChip (?_))
  · split
    · exact .ite (.refl _) (moves_awaitCycle ..)
    · exact .refl _
  · split
    · split
      · exact fixed_scrubLine ..
      · rfl
    · rfl

theorem sound_execScrubWriteback (v : TileId) : Sound (execScrubWriteback v) := by
  unfold execScrubWriteback
  refine .onSys fun y => ?_
  split
  · exact .refl y
  · extract_lets u
    split
    · exact .refl y
    · exact (moves_ecc ..).trans (.onChip (fixed_onTile ..))

theorem sound_execScrubCoverageLow (v : TileId) (b : Fin 16) : Sound (execScrubCoverageLow v b) := by
  unfold execScrubCoverageLow
  refine .onSys fun y => ?_
  split
  · exact .refl y
  · refine .ite (.refl y) ((moves_awaitCycle ..).trans (.onChip ?_))
    exact fixed_ite (fixed_raise ..) (fixed_raise 9 (.tile v.val) _)

theorem sound_weightLoad (v : TileId) (pred : PReg) (wb : Fin 2) (aa : AReg) (incDests : List RegName)
  (ea : Tile → Nat)
    (inc : Tile → List Dest) (legal : Bool) (dest : Line → Dest) :
    Sound (weightLoad v pred wb aa incDests ea inc legal dest) := by
  unfold weightLoad
  exact .onSysMem fun m y => .onChip (fixed_issue (fun _ _ => (fixed_addFlights ..).trans
    ((fixed_onTile ..).trans (fixed_readLine ..))) _)

theorem sound_execMxscl (v : TileId) (pred : PReg) (wb : Fin 2) (vs : VReg) (part : BitVec 3) : Sound
  (execMxscl v pred wb vs part) := .onChip fun _ => fixed_issueResult ..

theorem sound_execMmul (v : TileId) (pred : PReg) (wb : Fin 2) (ma : MReg) (vs : VReg) (seg : BitVec 5)
  (fmt : FmtCode)
    (zero : Bool) : Sound (execMmul v pred wb ma vs seg fmt zero) := by
  unfold execMmul
  exact .onChip (fixed_issue fun _ _ => fixed_ite (fixed_addFlights ..) (fixed_raise ..))

theorem sound_execMamv (v : TileId) (pred : PReg) (ma : MReg) (vd : VReg) (half : Fin 2) : Sound
  (execMamv v pred ma vd half) := .onChip fun _ => fixed_issueResult ..

theorem sound_execMald (v : TileId) (pred : PReg) (ma : MReg) (vs : VReg) (half : Fin 2) : Sound
  (execMald v pred ma vs half) := .onChip fun _ => fixed_issueResult ..

theorem sound_execMaclr (v : TileId) (pred : PReg) (ma : MReg) : Sound
  (execMaclr v pred ma) := .onChip fun _ => fixed_issueResult ..

theorem sound_execMxmul (v : TileId) (pred : PReg) (wb : Fin 2) (ma : MReg) (vs : VReg) (seg : BitVec 2)
  (fmt : FmtCode)
    (zero : Bool) : Sound (execMxmul v pred wb ma vs seg fmt zero) := by
  unfold execMxmul
  refine .onChip (fixed_issue fun p c => ?_)
  dsimp only
  split
  · exact fixed_ite (fixed_addFlights p [_, _] _ c) (fixed_raise ..)
  · exact fixed_raise ..

theorem fixed_sourceLine (m : List Host.Cell) (ecc : List (Nat × EccMark)) (v : TileId) (p : Fin 320) (src : LineSrc)
    (c : Chip) : (sourceLine m ecc v p src c).2.2.fixed = c.fixed := by
  unfold sourceLine
  split
  · rfl
  · exact (fixed_addFlights ..).trans (fixed_readLine ..)

theorem sound_sendOp {v : TileId} {pred : PReg} {src : LineSrc} {legal : Chip → Bool} {reads : List RegName}
    {body : Fin 320 → Line → Nat → Chip → Chip} (h : ∀ p l t c, (body p l t c).fixed = c.fixed) :
    Sound (sendOp v pred src legal reads body) := by
  unfold sendOp
  exact .onSysMem fun m y => .onChip (fixed_issue (fun _ _ => (h ..).trans (fixed_sourceLine ..)) _)

theorem fixed_recvLine (v : TileId) (p : Fin 320) (ch : Chan) (c : Chip) : (recvLine v p ch c).2.fixed = c.fixed := by
  unfold recvLine
  split
  · exact fixed_mailPop c
  · exact (fixed_onTile ..).trans (fixed_ite (fixed_tileEvent ..) rfl)

theorem sound_execRecv (v : TileId) (pred : PReg) (cls : RecvClass) (ch : Chan) (dst : LineDst) :
    Sound (execRecv v pred cls ch dst) := by
  unfold execRecv
  refine .onChip fun c => fixed_issue (fun p d => ?_) c
  split
  · exact (fixed_onTile ..).trans (fixed_recvLine ..)
  next a =>
    have hx := (fixed_claimPort v p 4 (lineEA ((recvLine v p ch d).2.tile p) a) true _).trans
      (fixed_recvLine v p ch d)
    exact (fixed_addFlights ..).trans (fixed_ite ((fixed_onTile ..).trans hx) hx)

theorem sound_loadOp (v : TileId) (pred : PReg) (r : VReg) (aa : AReg) (incDests : List RegName) (ea : Tile → Nat)
    (inc : Tile → List Dest) : Sound (loadOp v pred r aa incDests ea inc) := by
  unfold loadOp
  exact .onSysMem fun m y => .onChip (fixed_issue (fun _ _ => (fixed_addFlights ..).trans
    ((fixed_onTile ..).trans (fixed_readLine ..))) _)

theorem sound_storeOp (v : TileId) (pred : PReg) (r : VReg) (incDests reads : List RegName) (ea : Tile → Nat)
    (inc : Tile → List Dest) (mask : Tile → Word) : Sound (storeOp v pred r incDests reads ea inc mask) := by
  unfold storeOp
  refine .onChip (fixed_issue fun p c => ?_)
  have hx := fixed_claimPort v p 1 (ea (c.tile p)) true c
  exact (fixed_addFlights ..).trans (fixed_ite ((fixed_onTile ..).trans hx) hx)

theorem sound_aluOp (k : LatClass) (f : Word → Word → Word) (v : TileId) (pred : PReg) (d a : AReg)
  (b : BOperand) : Sound (aluOp k f v pred d a b) := .onChip fun _ => fixed_issueResult ..

theorem sound_cmpOp (f : Word → Word → Bool) (v : TileId) (pred d : PReg) (a : AReg) (b : BOperand) : Sound
  (cmpOp f v pred d a b) := .onChip fun _ => fixed_issueResult ..

theorem sound_execAmovi (v : TileId) (pred : PReg) (d : AReg) (imm : Word) : Sound
  (execAmovi v pred d imm) := .onChip fun _ => fixed_issueResult ..

theorem sound_execMovka (v : TileId) (pred : PReg) (d : AReg) (k : KReg) : Sound
  (execMovka v pred d k) := .onChip fun _ => fixed_issueResult ..

theorem sound_execAget (v : TileId) (pred : PReg) (d : AReg) (vs : VReg) (w : BitVec 6) : Sound
  (execAget v pred d vs w) := .onChip fun _ => fixed_issueResult ..

theorem sound_vecOp (v : TileId) (pred : PReg) (k : LatClass) (legal : Bool) (vd : VReg) (reads : List RegName)
    (f : VCtx → Tile → List (Nat × List Byte) × Bool) : Sound (vecOp v pred k legal vd reads f) := by
  unfold vecOp
  exact .onChip (fixed_issue fun _ _ => fixed_ite ((fixed_raise ..).trans (fixed_onTile ..)) (fixed_onTile ..))

theorem sound_execVany (v : TileId) (pred d : PReg) (va : VReg) : Sound
  (execVany v pred d va) := .onChip fun _ => fixed_issueResult ..

theorem sound_transOp (op : Config.Trans) (v : TileId) (pred : PReg) (vd va : VReg) (fmt : FmtCode) :
    Sound (transOp op v pred vd va fmt) := ⟨fun s => (sound_vecOp ..).goes s⟩

/-- Every command's meaning is sound. -/
theorem exec_sound (c : Instr) : Sound (exec c) := by
  refine ⟨fun s => ?_⟩
  cases c with
  | nop =>
    rw [exec_nop, execNop]
    exact (Sound.onSys .refl).goes s
  | br =>
    rw [exec_br]
    exact (sound_execBr ..).goes s
  | loop =>
    rw [exec_loop]
    exact (sound_execLoop ..).goes s
  | loopEnd =>
    rw [exec_loopEnd]
    exact (sound_execLoopEnd ..).goes s
  | pand =>
    rw [exec_pand, execPand]
    exact (sound_predOp ..).goes s
  | por =>
    rw [exec_por, execPor]
    exact (sound_predOp ..).goes s
  | pxor =>
    rw [exec_pxor, execPxor]
    exact (sound_predOp ..).goes s
  | pandn =>
    rw [exec_pandn, execPandn]
    exact (sound_predOp ..).goes s
  | endProgram =>
    rw [exec_endProgram]
    exact (sound_execEndProgram ..).goes s
  | waitGtc =>
    rw [exec_waitGtc]
    exact (sound_execWaitGtc ..).goes s
  | waitGtcEnd =>
    rw [exec_waitGtcEnd]
    exact sound_execWaitGtcEnd.goes s
  | ramp =>
    rw [exec_ramp]
    exact (sound_execRamp ..).goes s
  | ld =>
    rw [exec_ld, execLd]
    exact (sound_loadOp ..).goes s
  | st =>
    rw [exec_st, execSt]
    exact (sound_storeOp ..).goes s
  | stm =>
    rw [exec_stm, execStm]
    exact (sound_storeOp ..).goes s
  | aadd =>
    rw [exec_aadd, execAadd]
    exact (sound_aluOp ..).goes s
  | asub =>
    rw [exec_asub, execAsub]
    exact (sound_aluOp ..).goes s
  | amul =>
    rw [exec_amul, execAmul]
    exact (sound_aluOp ..).goes s
  | aand =>
    rw [exec_aand, execAand]
    exact (sound_aluOp ..).goes s
  | aor =>
    rw [exec_aor, execAor]
    exact (sound_aluOp ..).goes s
  | axor =>
    rw [exec_axor, execAxor]
    exact (sound_aluOp ..).goes s
  | ashl =>
    rw [exec_ashl, execAshl]
    exact (sound_aluOp ..).goes s
  | ashr =>
    rw [exec_ashr, execAshr]
    exact (sound_aluOp ..).goes s
  | asra =>
    rw [exec_asra, execAsra]
    exact (sound_aluOp ..).goes s
  | amin =>
    rw [exec_amin, execAmin]
    exact (sound_aluOp ..).goes s
  | amax =>
    rw [exec_amax, execAmax]
    exact (sound_aluOp ..).goes s
  | cmpeq =>
    rw [exec_cmpeq, execCmpeq]
    exact (sound_cmpOp ..).goes s
  | cmpne =>
    rw [exec_cmpne, execCmpne]
    exact (sound_cmpOp ..).goes s
  | cmplt =>
    rw [exec_cmplt, execCmplt]
    exact (sound_cmpOp ..).goes s
  | cmple =>
    rw [exec_cmple, execCmple]
    exact (sound_cmpOp ..).goes s
  | cmpltu =>
    rw [exec_cmpltu, execCmpltu]
    exact (sound_cmpOp ..).goes s
  | cmpleu =>
    rw [exec_cmpleu, execCmpleu]
    exact (sound_cmpOp ..).goes s
  | amovi =>
    rw [exec_amovi]
    exact (sound_execAmovi ..).goes s
  | movka =>
    rw [exec_movka]
    exact (sound_execMovka ..).goes s
  | aget =>
    rw [exec_aget]
    exact (sound_execAget ..).goes s
  | ldb =>
    rw [exec_ldb, execLdb]
    exact (sound_loadOp ..).goes s
  | stb =>
    rw [exec_stb, execStb]
    exact (sound_storeOp ..).goes s
  | wld =>
    rw [exec_wld, execWld]
    exact (sound_weightLoad ..).goes s
  | wldb =>
    rw [exec_wldb, execWldb]
    exact (sound_weightLoad ..).goes s
  | mmul =>
    rw [exec_mmul]
    exact (sound_execMmul ..).goes s
  | mamv =>
    rw [exec_mamv]
    exact (sound_execMamv ..).goes s
  | mald =>
    rw [exec_mald]
    exact (sound_execMald ..).goes s
  | maclr =>
    rw [exec_maclr]
    exact (sound_execMaclr ..).goes s
  | mxwld =>
    rw [exec_mxwld, execMxwld]
    exact (sound_weightLoad ..).goes s
  | mxscl =>
    rw [exec_mxscl]
    exact (sound_execMxscl ..).goes s
  | mxmul =>
    rw [exec_mxmul]
    exact (sound_execMxmul ..).goes s
  | vadd =>
    rw [exec_vadd, execVadd]
    exact (sound_vecOp ..).goes s
  | vsub =>
    rw [exec_vsub, execVsub]
    exact (sound_vecOp ..).goes s
  | vmul =>
    rw [exec_vmul, execVmul]
    exact (sound_vecOp ..).goes s
  | vfma =>
    rw [exec_vfma, execVfma]
    exact (sound_vecOp ..).goes s
  | vmin =>
    rw [exec_vmin, execVmin]
    exact (sound_vecOp ..).goes s
  | vmax =>
    rw [exec_vmax, execVmax]
    exact (sound_vecOp ..).goes s
  | vabs =>
    rw [exec_vabs, execVabs]
    exact (sound_vecOp ..).goes s
  | vneg =>
    rw [exec_vneg, execVneg]
    exact (sound_vecOp ..).goes s
  | vand =>
    rw [exec_vand, execVand]
    exact (sound_vecOp ..).goes s
  | vor =>
    rw [exec_vor, execVor]
    exact (sound_vecOp ..).goes s
  | vxor =>
    rw [exec_vxor, execVxor]
    exact (sound_vecOp ..).goes s
  | vshl =>
    rw [exec_vshl, execVshl]
    exact (sound_vecOp ..).goes s
  | vshr =>
    rw [exec_vshr, execVshr]
    exact (sound_vecOp ..).goes s
  | vsra =>
    rw [exec_vsra, execVsra]
    exact (sound_vecOp ..).goes s
  | vcmpeq =>
    rw [exec_vcmpeq, execVcmpeq]
    exact (sound_vecOp ..).goes s
  | vcmplt =>
    rw [exec_vcmplt, execVcmplt]
    exact (sound_vecOp ..).goes s
  | vcmple =>
    rw [exec_vcmple, execVcmple]
    exact (sound_vecOp ..).goes s
  | vsel =>
    rw [exec_vsel, execVsel]
    exact (sound_vecOp ..).goes s
  | vcvt =>
    rw [exec_vcvt, execVcvt]
    exact (sound_vecOp ..).goes s
  | vrsum =>
    rw [exec_vrsum, execVrsum]
    exact (sound_vecOp ..).goes s
  | vrmax =>
    rw [exec_vrmax, execVrmax]
    exact (sound_vecOp ..).goes s
  | vrmin =>
    rw [exec_vrmin, execVrmin]
    exact (sound_vecOp ..).goes s
  | vrargmax =>
    rw [exec_vrargmax, execVrargmax]
    exact (sound_vecOp ..).goes s
  | vany =>
    rw [exec_vany]
    exact (sound_execVany ..).goes s
  | vexp =>
    rw [exec_vexp, execVexp]
    exact (sound_transOp ..).goes s
  | vlog =>
    rw [exec_vlog, execVlog]
    exact (sound_transOp ..).goes s
  | vrcp =>
    rw [exec_vrcp, execVrcp]
    exact (sound_transOp ..).goes s
  | vrsq =>
    rw [exec_vrsq, execVrsq]
    exact (sound_transOp ..).goes s
  | vtanh =>
    rw [exec_vtanh, execVtanh]
    exact (sound_transOp ..).goes s
  | vsig =>
    rw [exec_vsig, execVsig]
    exact (sound_transOp ..).goes s
  | vmov =>
    rw [exec_vmov, execVmov]
    exact (sound_vecOp ..).goes s
  | vbca =>
    rw [exec_vbca, execVbca]
    exact (sound_vecOp ..).goes s
  | vimm =>
    rw [exec_vimm, execVimm]
    exact (sound_vecOp ..).goes s
  | vpermb =>
    rw [exec_vpermb, execVpermb]
    exact (sound_vecOp ..).goes s
  | vmxq =>
    rw [exec_vmxq, execVmxq]
    exact (sound_vecOp ..).goes s
  | msend =>
    rw [exec_msend, execMsend]
    exact (sound_sendOp fun _ _ _ _ => fixed_sendLine ..).goes s
  | recv =>
    rw [exec_recv]
    exact (sound_execRecv ..).goes s
  | fsend =>
    rw [exec_fsend, execFsend]
    exact (sound_sendOp fun _ _ _ _ => fixed_fsendLine ..).goes s
  | hwrite =>
    rw [exec_hwrite, execHwrite]
    exact (sound_sendOp fun _ _ _ _ => fixed_sendLine ..).goes s
  | sreq =>
    rw [exec_sreq, execSreq]
    exact (sound_sendOp fun _ _ _ _ => fixed_sendLine ..).goes s
  | resultLanding =>
    rw [exec_resultLanding]
    exact (sound_execResultLanding ..).goes s
  | waitReceiveCheck =>
    rw [exec_waitReceiveCheck]
    exact (sound_execWaitReceiveCheck ..).goes s
  | holdRelease =>
    rw [exec_holdRelease]
    exact sound_execHoldRelease.goes s
  | meshLineArrival =>
    rw [exec_meshLineArrival]
    exact (sound_execMeshLineArrival ..).goes s
  | scrubRead =>
    rw [exec_scrubRead]
    exact (sound_execScrubRead ..).goes s
  | scrubWriteback =>
    rw [exec_scrubWriteback]
    exact (sound_execScrubWriteback ..).goes s
  | scrubCoverageLow =>
    rw [exec_scrubCoverageLow]
    exact (sound_execScrubCoverageLow ..).goes s
  | columnMapWrite =>
    rw [exec_columnMapWrite]
    exact (sound_execColumnMapWrite ..).goes s
  | traceEnable =>
    rw [exec_traceEnable]
    exact (sound_execTraceEnable ..).goes s
  | traceDataRead =>
    rw [exec_traceDataRead]
    exact sound_execTraceDataRead.goes s
  | registerWrite =>
    rw [exec_registerWrite]
    exact (sound_execRegisterWrite ..).goes s
  | steepCommit =>
    rw [exec_steepCommit]
    exact sound_execSteepCommit.goes s
  | monCommit =>
    rw [exec_monCommit]
    exact sound_execMonCommit.goes s
  | gtcRead =>
    rw [exec_gtcRead]
    exact sound_execGtcRead.goes s
  | lagRead =>
    rw [exec_lagRead]
    exact sound_execLagRead.goes s
  | srchWorkRead =>
    rw [exec_srchWorkRead]
    exact sound_execSrchWorkRead.goes s
  | steepBalRead =>
    rw [exec_steepBalRead]
    exact (sound_execSteepBalRead ..).goes s
  | bbTimeRead =>
    rw [exec_bbTimeRead]
    exact sound_execBbTimeRead.goes s
  | egressArbitration =>
    rw [exec_egressArbitration]
    exact (sound_execEgressArbitration ..).goes s
  | frameReceive =>
    rw [exec_frameReceive]
    exact (sound_execFrameReceive ..).goes s
  | replayTimeout =>
    rw [exec_replayTimeout]
    exact (sound_execReplayTimeout ..).goes s
  | fabRetryRate =>
    rw [exec_fabRetryRate]
    exact (sound_execFabRetryRate ..).goes s
  | portEnable =>
    rw [exec_portEnable]
    exact (sound_execPortEnable ..).goes s
  | retrain =>
    rw [exec_retrain]
    exact (sound_execRetrain ..).goes s
  | classWrite =>
    rw [exec_classWrite]
    exact (sound_execClassWrite ..).goes s
  | partnerDetected =>
    rw [exec_partnerDetected]
    exact (sound_execPartnerDetected ..).goes s
  | detectTimeout =>
    rw [exec_detectTimeout]
    exact (sound_execDetectTimeout ..).goes s
  | lock =>
    rw [exec_lock]
    exact (sound_execLock ..).goes s
  | equalise =>
    rw [exec_equalise]
    exact (sound_execEqualise ..).goes s
  | align =>
    rw [exec_align]
    exact (sound_execAlign ..).goes s
  | measure =>
    rw [exec_measure]
    exact (sound_execMeasure ..).goes s
  | confirm =>
    rw [exec_confirm]
    exact (sound_execConfirm ..).goes s
  | trainPhaseTimeout =>
    rw [exec_trainPhaseTimeout]
    exact (sound_execTrainPhaseTimeout ..).goes s
  | laneFail =>
    rw [exec_laneFail]
    exact (sound_execLaneFail ..).goes s
  | retrainPatternSeen =>
    rw [exec_retrainPatternSeen]
    exact (sound_execRetrainPatternSeen ..).goes s
  | retrainDone =>
    rw [exec_retrainDone]
    exact (sound_execRetrainDone ..).goes s
  | retrainTimeout =>
    rw [exec_retrainTimeout]
    exact (sound_execRetrainTimeout ..).goes s
  | downTimeout =>
    rw [exec_downTimeout]
    exact (sound_execDownTimeout ..).goes s
  | trayIndexWrite =>
    rw [exec_trayIndexWrite]
    exact (sound_execTrayIndexWrite ..).goes s
  | scheduledLineArrival =>
    rw [exec_scheduledLineArrival]
    exact (sound_execScheduledLineArrival ..).goes s
  | arrivalGateRelease =>
    rw [exec_arrivalGateRelease]
    exact (sound_execArrivalGateRelease ..).goes s
  | segmentIssue =>
    rw [exec_segmentIssue]
    exact sound_execSegmentIssue.goes s
  | rreq =>
    rw [exec_rreq]
    exact (sound_execRreq ..).goes s
  | wreq =>
    rw [exec_wreq]
    exact (sound_execWreq ..).goes s
  | wdata =>
    rw [exec_wdata]
    exact (sound_execWdata ..).goes s
  | rresp =>
    rw [exec_rresp]
    exact (sound_execRresp ..).goes s
  | wresp =>
    rw [exec_wresp]
    exact (sound_execWresp ..).goes s
  | transactionTimeout =>
    rw [exec_transactionTimeout]
    exact (sound_execTransactionTimeout ..).goes s
  | wreqTimeout =>
    rw [exec_wreqTimeout]
    exact (sound_execWreqTimeout ..).goes s
  | managementFrame =>
    rw [exec_managementFrame]
    exact (sound_execManagementFrame ..).goes s
  | syncSend =>
    rw [exec_syncSend]
    exact sound_execSyncSend.goes s
  | syncFrame =>
    rw [exec_syncFrame]
    exact (sound_execSyncFrame ..).goes s
  | parentLoss =>
    rw [exec_parentLoss]
    exact sound_execParentLoss.goes s
  | parentRelock =>
    rw [exec_parentRelock]
    exact sound_execParentRelock.goes s
  | rootFailover =>
    rw [exec_rootFailover]
    exact sound_execRootFailover.goes s
  | launchPour =>
    rw [exec_launchPour]
    exact (sound_execLaunchPour ..).goes s
  | abortPour =>
    rw [exec_abortPour]
    exact (sound_execAbortPour ..).goes s
  | lagFrame =>
    rw [exec_lagFrame]
    exact (sound_execLagFrame ..).goes s
  | programStart =>
    rw [exec_programStart]
    exact sound_execProgramStart.goes s
  | runEnd =>
    rw [exec_runEnd]
    exact sound_execRunEnd.goes s
  | holdTimeout =>
    rw [exec_holdTimeout]
    exact sound_execHoldTimeout.goes s
  | forecastEffect =>
    rw [exec_forecastEffect]
    exact (sound_execForecastEffect ..).goes s
  | broad =>
    rw [exec_broad, execBroad]
    exact (sound_serveKind ..).goes s
  | ordered =>
    rw [exec_ordered, execOrdered]
    exact (sound_serveKind ..).goes s
  | memwrite =>
    rw [exec_memwrite, execMemwrite]
    exact (sound_serveKind ..).goes s
  | memread =>
    rw [exec_memread, execMemread]
    exact (sound_serveKind ..).goes s
  | searchBudgetEnd =>
    rw [exec_searchBudgetEnd]
    exact sound_execSearchBudgetEnd.goes s
  | searchResult =>
    rw [exec_searchResult]
    exact sound_execSearchResult.goes s
  | searchScrub =>
    rw [exec_searchScrub]
    exact sound_execSearchScrub.goes s
  | sqTail =>
    rw [exec_sqTail]
    exact (sound_execSqTail ..).goes s
  | cqHead =>
    rw [exec_cqHead]
    exact (sound_execCqHead ..).goes s
  | push =>
    rw [exec_push]
    exact (sound_execPush ..).goes s
  | hostReadCompletion =>
    rw [exec_hostReadCompletion]
    exact (sound_execHostReadCompletion ..).goes s
  | completionTimeout =>
    rw [exec_completionTimeout]
    exact (sound_execCompletionTimeout ..).goes s
  | nopDescriptor =>
    rw [exec_nopDescriptor]
    exact (sound_execNopDescriptor ..).goes s
  | write =>
    rw [exec_write]
    exact (sound_execWrite ..).goes s
  | read =>
    rw [exec_read]
    exact (sound_execRead ..).goes s
  | input =>
    rw [exec_input]
    exact (sound_execInput ..).goes s
  | launch =>
    rw [exec_launch]
    exact (sound_execLaunch ..).goes s
  | stop =>
    rw [exec_stop]
    exact (sound_execStop ..).goes s
  | globalWrite =>
    rw [exec_globalWrite]
    exact (sound_execGlobalWrite ..).goes s
  | globalRead =>
    rw [exec_globalRead]
    exact (sound_execGlobalRead ..).goes s
  | cancel =>
    rw [exec_cancel]
    exact (sound_execCancel ..).goes s
  | fence =>
    rw [exec_fence]
    exact (sound_execFence ..).goes s
  | search =>
    rw [exec_search]
    exact (sound_execSearch ..).goes s
  | timeQuery =>
    rw [exec_timeQuery]
    exact (sound_execTimeQuery ..).goes s
  | hostWriteSend =>
    rw [exec_hostWriteSend]
    exact sound_execHostWriteSend.goes s
  | completionPost =>
    rw [exec_completionPost]
    exact (sound_execCompletionPost ..).goes s
  | interruptTimer =>
    rw [exec_interruptTimer]
    exact (sound_execInterruptTimer ..).goes s
  | qpEnable =>
    rw [exec_qpEnable]
    exact (sound_execQpEnable ..).goes s
  | qpDisable =>
    rw [exec_qpDisable]
    exact (sound_execQpDisable ..).goes s
  | qpDrainEnd =>
    rw [exec_qpDrainEnd]
    exact (sound_execQpDrainEnd ..).goes s
  | windowAccess =>
    rw [exec_windowAccess]
    exact (sound_execWindowAccess ..).goes s
  | functionLevelReset =>
    rw [exec_functionLevelReset]
    exact sound_execFunctionLevelReset.goes s
  | d3hot =>
    rw [exec_d3hot]
    exact sound_execD3hot.goes s
  | fundamentalReset =>
    rw [exec_fundamentalReset]
    exact sound_execFundamentalReset.goes s
  | linkDown =>
    rw [exec_linkDown]
    exact sound_execLinkDown.goes s
  | crcStart =>
    rw [exec_crcStart]
    exact sound_execCrcStart.goes s
  | crcDone =>
    rw [exec_crcDone]
    exact sound_execCrcDone.goes s
  | faultLatch =>
    rw [exec_faultLatch]
    exact (sound_execFaultLatch ..).goes s
  | nmiDelivery =>
    rw [exec_nmiDelivery]
    exact sound_execNmiDelivery.goes s
  | nmiPop =>
    rw [exec_nmiPop]
    exact sound_execNmiPop.goes s
  | escalationTimerExpiry =>
    rw [exec_escalationTimerExpiry]
    exact (sound_execEscalationTimerExpiry ..).goes s
  | autoClear =>
    rw [exec_autoClear]
    exact (sound_execAutoClear ..).goes s
  | fcAck =>
    rw [exec_fcAck]
    exact (sound_execFcAck ..).goes s
  | fcInject =>
    rw [exec_fcInject]
    exact (sound_execFcInject ..).goes s
  | fcSrcCfgWrite =>
    rw [exec_fcSrcCfgWrite]
    exact (sound_execFcSrcCfgWrite ..).goes s
  | cscWatchdog =>
    rw [exec_cscWatchdog]
    exact sound_execCscWatchdog.goes s
  | clockLoss =>
    rw [exec_clockLoss]
    exact sound_execClockLoss.goes s
  | domainRequest =>
    rw [exec_domainRequest]
    exact (sound_execDomainRequest ..).goes s
  | domainPowerOnEnd =>
    rw [exec_domainPowerOnEnd]
    exact (sound_execDomainPowerOnEnd ..).goes s
  | domainPowerOffEnd =>
    rw [exec_domainPowerOffEnd]
    exact (sound_execDomainPowerOffEnd ..).goes s
  | lowIdleEntry =>
    rw [exec_lowIdleEntry]
    exact sound_execLowIdleEntry.goes s
  | lowIdleExit =>
    rw [exec_lowIdleExit]
    exact sound_execLowIdleExit.goes s
  | keepAliveRateReturn =>
    rw [exec_keepAliveRateReturn]
    exact sound_execKeepAliveRateReturn.goes s
  | park =>
    rw [exec_park]
    exact sound_execPark.goes s
  | retentionExit =>
    rw [exec_retentionExit]
    exact sound_execRetentionExit.goes s
  | retLost =>
    rw [exec_retLost]
    exact sound_execRetLost.goes s
  | opGo =>
    rw [exec_opGo]
    exact sound_execOpGo.goes s
  | opTransitionStart =>
    rw [exec_opTransitionStart]
    exact sound_execOpTransitionStart.goes s
  | opTransitionEnd =>
    rw [exec_opTransitionEnd]
    exact (sound_execOpTransitionEnd ..).goes s
  | supplyWarning =>
    rw [exec_supplyWarning]
    exact (sound_execSupplyWarning ..).goes s
  | supplyRecovered =>
    rw [exec_supplyRecovered]
    exact (sound_execSupplyRecovered ..).goes s
  | supplyReset =>
    rw [exec_supplyReset]
    exact (sound_execSupplyReset ..).goes s
  | thermalScan =>
    rw [exec_thermalScan]
    exact (sound_execThermalScan ..).goes s
  | aonReset =>
    rw [exec_aonReset]
    exact sound_execAonReset.goes s
  | trayInputRise =>
    rw [exec_trayInputRise]
    exact sound_execTrayInputRise.goes s
  | inputWarning =>
    rw [exec_inputWarning, execInputWarning]
    exact (Sound.onTray ..).goes s
  | commit =>
    rw [exec_commit]
    exact (sound_execCommit ..).goes s
  | dwellEnd =>
    rw [exec_dwellEnd, execDwellEnd]
    exact (Sound.onTrayAt ..).goes s
  | qualificationRestart =>
    rw [exec_qualificationRestart, execQualificationRestart]
    exact (Sound.onTray ..).goes s
  | inputQualified =>
    rw [exec_inputQualified, execInputQualified]
    exact (Sound.onTrayAt ..).goes s
  | powerUpStart =>
    rw [exec_powerUpStart, execPowerUpStart]
    exact (Sound.onTrayAt ..).goes s
  | railDwellEnd =>
    rw [exec_railDwellEnd, execRailDwellEnd]
    exact (Sound.onTrayAt ..).goes s
  | riseTimeout =>
    rw [exec_riseTimeout, execRiseTimeout]
    exact (Sound.onTrayAt ..).goes s
  | powerDownStart =>
    rw [exec_powerDownStart, execPowerDownStart]
    exact (Sound.onTray ..).goes s
  | parkTimeout =>
    rw [exec_parkTimeout, execParkTimeout]
    exact (Sound.onTrayAt ..).goes s
  | railOff =>
    rw [exec_railOff]
    exact (sound_execRailOff ..).goes s
  | dischargeTimeout =>
    rw [exec_dischargeTimeout, execDischargeTimeout]
    exact (Sound.onTrayAt ..).goes s
  | stuck =>
    rw [exec_stuck, execStuck]
    exact (Sound.onTrayAt ..).goes s
  | railLost =>
    rw [exec_railLost]
    exact (sound_execRailLost ..).goes s
  | inputLoss =>
    rw [exec_inputLoss, execInputLoss]
    exact (Sound.onTray ..).goes s
  | valveClosedRise =>
    rw [exec_valveClosedRise, execValveClosedRise]
    exact (Sound.onTray ..).goes s
  | cpcFaultClear =>
    rw [exec_cpcFaultClear, execCpcFaultClear]
    exact (Sound.onTray ..).goes s
  | cartridgeInsert =>
    rw [exec_cartridgeInsert, execCartridgeInsert]
    exact (Sound.onTray ..).goes s
  | cartridgeRemove =>
    rw [exec_cartridgeRemove]
    exact (sound_execCartridgeRemove ..).goes s
  | bbuInsert =>
    rw [exec_bbuInsert, execBbuInsert]
    exact (Sound.onTray ..).goes s
  | bbuCharged =>
    rw [exec_bbuCharged, execBbuCharged]
    exact (Sound.onTray ..).goes s
  | bbuDepleted =>
    rw [exec_bbuDepleted]
    exact sound_execBbuDepleted.goes s
  | bbuFault =>
    rw [exec_bbuFault]
    exact sound_execBbuFault.goes s
  | bbuRemove =>
    rw [exec_bbuRemove]
    exact sound_execBbuRemove.goes s
  | powerControllerControl =>
    rw [exec_powerControllerControl]
    exact (Sound.onTray ..).goes s
  | powerIndicatorControl =>
    rw [exec_powerIndicatorControl, execPowerIndicatorControl]
    exact (Sound.onTray ..).goes s
  | attentionIndicatorControl =>
    rw [exec_attentionIndicatorControl, execAttentionIndicatorControl]
    exact (Sound.onTray ..).goes s
  | attentionButtonPressed =>
    rw [exec_attentionButtonPressed, execAttentionButtonPressed]
    exact (Sound.onTray ..).goes s
  | tmcRestart =>
    rw [exec_tmcRestart]
    exact (sound_execTmcRestart ..).goes s
  | slotPower =>
    rw [exec_slotPower]
    exact (sound_execSlotPower ..).goes s
  | defer =>
    rw [exec_defer]
    exact (sound_execDefer ..).goes s
  | deferDone =>
    rw [exec_deferDone]
    exact (sound_execDeferDone ..).goes s
  | noticeExpiry =>
    rw [exec_noticeExpiry]
    exact sound_execNoticeExpiry.goes s
  | deferTimeout =>
    rw [exec_deferTimeout]
    exact sound_execDeferTimeout.goes s
  | coolDemand =>
    rw [exec_coolDemand]
    exact (sound_execCoolDemand ..).goes s
  | sensorRead =>
    rw [exec_sensorRead]
    exact (sound_execSensorRead ..).goes s
  | logRead =>
    rw [exec_logRead]
    exact (sound_execLogRead ..).goes s
  | faultAck =>
    rw [exec_faultAck]
    exact (sound_execFaultAck ..).goes s
  | chipRead =>
    rw [exec_chipRead]
    exact (sound_execChipRead ..).goes s
  | chipWrite =>
    rw [exec_chipWrite]
    exact (sound_execChipWrite ..).goes s
  | cableInfo =>
    rw [exec_cableInfo]
    exact (sound_execCableInfo ..).goes s
  | dhcpTimeout =>
    rw [exec_dhcpTimeout]
    exact sound_execDhcpTimeout.goes s
  | sensorScan =>
    rw [exec_sensorScan, execSensorScan]
    exact (Sound.onTray ..).goes s
  | logRecordWrite =>
    rw [exec_logRecordWrite]
    exact sound_execLogRecordWrite.goes s
  | watchdogService =>
    rw [exec_watchdogService]
    exact sound_execWatchdogService.goes s
  | watchdogExpiry =>
    rw [exec_watchdogExpiry]
    exact sound_execWatchdogExpiry.goes s
  | expiredClear =>
    rw [exec_expiredClear, execExpiredClear]
    exact (Sound.onTray ..).goes s
  | cardReset =>
    rw [exec_cardReset, execCardReset]
    exact (Sound.onTray ..).goes s
  | baseBoardReset =>
    rw [exec_baseBoardReset]
    exact sound_execBaseBoardReset.goes s
  | move =>
    rw [exec_move, execMove]
    exact (Sound.onTrayFree ..).goes s
  | axisStop =>
    rw [exec_axisStop, execAxisStop]
    exact (Sound.onTrayFree ..).goes s
  | resume =>
    rw [exec_resume, execResume]
    exact (Sound.onTrayFree ..).goes s
  | home =>
    rw [exec_home, execHome]
    exact (Sound.onTray ..).goes s
  | engage =>
    rw [exec_engage, execEngage]
    exact (Sound.onTrayFree ..).goes s
  | disengage =>
    rw [exec_disengage, execDisengage]
    exact (Sound.onTrayFree ..).goes s
  | profileLimitWrite =>
    rw [exec_profileLimitWrite, execProfileLimitWrite]
    exact (Sound.onTrayFree ..).goes s
  | moveEnd =>
    rw [exec_moveEnd, execMoveEnd]
    exact (Sound.onTrayAt ..).goes s
  | axisHalt =>
    rw [exec_axisHalt, execAxisHalt]
    exact (Sound.onTray ..).goes s
  | homeFail =>
    rw [exec_homeFail, execHomeFail]
    exact (Sound.onTray ..).goes s
  | closedSwitch =>
    rw [exec_closedSwitch, execClosedSwitch]
    exact (Sound.onTray ..).goes s
  | openSwitch =>
    rw [exec_openSwitch, execOpenSwitch]
    exact (Sound.onTray ..).goes s
  | closeOverrun =>
    rw [exec_closeOverrun, execCloseOverrun]
    exact (Sound.onTray ..).goes s
  | railsOffRise =>
    rw [exec_railsOffRise, execRailsOffRise]
    exact (Sound.onTray ..).goes s
  | camSample =>
    rw [exec_camSample, execCamSample]
    exact (Sound.onTray ..).goes s
  | camSwap =>
    rw [exec_camSwap, execCamSwap]
    exact (Sound.onTray ..).goes s
  | tmcReq =>
    rw [exec_tmcReq, execTmcReq]
    exact (Sound.onTray ..).goes s
  | driveOutOfRange =>
    rw [exec_driveOutOfRange, execDriveOutOfRange]
    exact (Sound.onTray ..).goes s
  | leak =>
    rw [exec_leak, execLeak]
    exact (Sound.onTray ..).goes s
  | leakClear =>
    rw [exec_leakClear, execLeakClear]
    exact (Sound.onTray ..).goes s
  | valvePolicyMove =>
    rw [exec_valvePolicyMove, execValvePolicyMove]
    exact (Sound.onTrayFree ..).goes s
  | twoWireRegisterWrite =>
    rw [exec_twoWireRegisterWrite]
    exact (sound_execTwoWireRegisterWrite ..).goes s
  | twoWireRegisterRead =>
    rw [exec_twoWireRegisterRead]
    exact (sound_execTwoWireRegisterRead ..).goes s
  | managementWakeEnd =>
    rw [exec_managementWakeEnd]
    exact sound_execManagementWakeEnd.goes s
  | keepAliveReturn =>
    rw [exec_keepAliveReturn]
    exact sound_execKeepAliveReturn.goes s
  | twoWireTimeout =>
    rw [exec_twoWireTimeout]
    exact sound_execTwoWireTimeout.goes s
  | startTransaction =>
    rw [exec_startTransaction]
    exact (sound_execStartTransaction ..).goes s
  | twoWireTransactionDone =>
    rw [exec_twoWireTransactionDone]
    exact (sound_execTwoWireTransactionDone ..).goes s
  | busStuck =>
    rw [exec_busStuck]
    exact (sound_execBusStuck ..).goes s
  | recover =>
    rw [exec_recover]
    exact (sound_execRecover ..).goes s
  | recoveryRetry =>
    rw [exec_recoveryRetry]
    exact (sound_execRecoveryRetry ..).goes s
  | bufferConnect =>
    rw [exec_bufferConnect, execBufferConnect]
    exact (Sound.onTray ..).goes s
  | cmisRead =>
    rw [exec_cmisRead, execCmisRead]
    exact (Sound.onTray ..).goes s
  | qualificationStart =>
    rw [exec_qualificationStart, execQualificationStart]
    exact (Sound.onTray ..).goes s
  | inputWarningEnd =>
    rw [exec_inputWarningEnd, execInputWarningEnd]
    exact (Sound.onTray ..).goes s
  | pcieLinkUp =>
    rw [exec_pcieLinkUp]
    exact sound_execPcieLinkUp.goes s
  | moduleInsert =>
    rw [exec_moduleInsert, execModuleInsert]
    exact (Sound.onTray ..).goes s
  | moduleRemove =>
    rw [exec_moduleRemove, execModuleRemove]
    exact (Sound.onTray ..).goes s
  | tmcCardInsert =>
    rw [exec_tmcCardInsert, execTmcCardInsert]
    exact (Sound.onTray ..).goes s
  | driveBackInRange =>
    rw [exec_driveBackInRange, execDriveBackInRange]
    exact (Sound.onTray ..).goes s
  | inletOverTemperature =>
    rw [exec_inletOverTemperature, execInletOverTemperature]
    exact (Sound.onTray ..).goes s
  | flowLow =>
    rw [exec_flowLow, execFlowLow]
    exact (Sound.onTray ..).goes s
  | dhcpLease =>
    rw [exec_dhcpLease, execDhcpLease]
    exact (Sound.onTray ..).goes s

end Sys2Proof.Machine
end

section
/-! PROOFS. A step keeps memory in canonical form, what fuses and straps fix, and the outputs so far (O2, O4, O5). -/

namespace Sys2Proof.Machine

/-- From one state to a later one, with the same queue. -/
structure Goes (s t : State) : Prop where
  pending : t.pending = s.pending
  stores : Stores s.mem s.sys (t.mem, t.sys)

theorem Goes.refl (s : State) : Goes s s := ⟨rfl, .refl ..⟩

theorem Goes.trans {s t u : State} (h : Goes s t) (k : Goes t u) : Goes s u :=
  ⟨k.pending.trans h.pending, h.stores.trans k.stores⟩

theorem Goes.ite {p : Prop} [Decidable p] {s a b : State} (ha : Goes s a) (hb : Goes s b) : Goes s (if p then a else b) := by
  split
  · exact ha
  · exact hb

theorem Goes.foldl {β : Type} {f : State → β → State} (h : ∀ s b, Goes s (f s b)) (l : List β) (s : State) :
    Goes s (l.foldl f s) := by
  induction l generalizing s with
  | nil => exact .refl s
  | cons b l ih => exact (h s b).trans (ih _)

theorem exec_goes (c : Instr) (s : State) : ∃ t, exec c s = .next t ∧ Goes s t := by
  obtain ⟨q, hgo, hq⟩ := (exec_sound c).goes s
  exact ⟨_, hgo, rfl, hq⟩

theorem ran_goes (c : Instr) (s : State) : Goes s (ran c s) := by
  obtain ⟨t, hgo, ht⟩ := exec_goes c s
  rwa [ran, hgo]

theorem runSlot_goes (v : TileId) (s : State) (x : SlotName × Option Instr) : Goes s (runSlot v s x) := by
  unfold runSlot
  split
  · exact .refl s
  · refine .ite (.refl s) ?_
    split
    · exact ran_goes ..
    · exact ⟨rfl, .keeps (.onChip (fixed_illegalBundle ..))⟩

theorem runBundle_goes (s : State) (v : TileId) : Goes s (runBundle s v) := by
  unfold runBundle
  split
  · exact .refl s
  · exact .ite (.refl s) (.foldl (runSlot_goes v) ..)

theorem checkBundle_goes (v : TileId) (p : Fin 320) (addr : Nat) (s : State) : Goes s (checkBundle v p addr s) := by
  unfold checkBundle
  extract_lets b
  split
  · exact ran_goes ..
  · exact .refl s

theorem checkAhead_goes (s : State) (v : TileId) : Goes s (checkAhead s v) := by
  unfold checkAhead
  split
  · exact .refl s
  · split
    · exact checkBundle_goes ..
    · exact .refl s

theorem checkEarly_goes (s : State) (v : TileId) : Goes s (checkEarly s v) := by
  unfold checkEarly
  extract_lets c left period
  split
  · exact .refl s
  · exact .ite (.refl s) (.ite (checkBundle_goes ..) (.ite (.refl s) (checkBundle_goes ..)))

theorem issueBundles_goes (s : State) : Goes s (issueBundles s) :=
  .ite (.refl s) (.ite ((Goes.foldl runBundle_goes ..).trans (.foldl checkAhead_goes ..)) (.foldl checkEarly_goes ..))

theorem ticked_goes (s : State) : Goes s (ticked s) := by
  unfold ticked
  extract_lets s1 r
  have h1 : Goes s s1 := issueBundles_goes s
  clear_value s1
  have hr : Stores s1.mem s1.sys r := stores_tick ..
  clear_value r
  exact h1.trans ⟨rfl, hr.andThen ((moves_serveMailbox _).trans (moves_settleTray _))⟩

/-- A step goes on, from the queue's rest. -/
theorem step_goes (s : State) : ∃ t, step s = .next t ∧ Stores s.mem s.sys (t.mem, t.sys) := by
  unfold step
  split
  next c rest hq =>
    obtain ⟨t, hgo, ht⟩ := exec_goes c { s with pending := rest }
    exact ⟨t, hgo, ht.stores⟩
  next => exact ⟨_, rfl, (ticked_goes s).stores⟩

theorem step_stores {s t : State} (h : step s = .next t) : Stores s.mem s.sys (t.mem, t.sys) := by
  obtain ⟨u, hu, hs⟩ := step_goes s
  rw [h] at hu
  cases hu
  exact hs

/-- Settles O2: every command is a function of the system and memory. -/
theorem everyCommandLeavesQueue : Obligations.EveryCommandLeavesQueue := by
  intro c s
  obtain ⟨t, hgo, ht⟩ := exec_goes c s
  exact ⟨t, hgo, ht.pending⟩

/-- Settles O4: memory is written by `Memory.write` alone, cleared by a filter, or lost whole. -/
theorem stepKeepsMemoryCanonical : Obligations.StepKeepsMemoryCanonical :=
  fun _ _ hs h => (step_stores h).canonical hs

/-- Settles O5: no function of the chip changes what is fixed, and outputs are only appended. -/
theorem stepKeepsFixedStateAndOutputs : Obligations.StepKeepsFixedStateAndOutputs :=
  ⟨fun _ _ h => (step_stores h).moves.fixed, fun _ _ h => (step_stores h).moves.out⟩

end Sys2Proof.Machine
end

section
/-! PROOFS. The link layer's shared operations (09 R237-R244): what each makes of its port, and what it leaves unchanged. -/

namespace Sys2Proof.Machine

/-! A step of port p. -/

/-- Only port p, the transactions' records of their arbitration, the collector and the time base change. -/
structure LinkStep (p : PortId) (c d : Chip) : Prop where
  eq : d = { c with
    fab := { c.fab with
      ports := d.fab.ports
      txns := d.fab.txns }
    fc := d.fc
    time := d.time }
  others : ∀ q, q ≠ p → d.port q = c.port q

section
variable {p : PortId} {c d e : Chip}

theorem LinkStep.refl (p : PortId) (c : Chip) : LinkStep p c c := ⟨rfl, fun _ _ => rfl⟩

theorem LinkStep.trans (h : LinkStep p c d) (k : LinkStep p d e) : LinkStep p c e :=
  ⟨by rw [k.eq, h.eq], fun q hq => (k.others q hq).trans (h.others q hq)⟩

theorem LinkStep.pwr (h : LinkStep p c d) : d.pwr = c.pwr := by rw [h.eq]
theorem LinkStep.map (h : LinkStep p c d) : d.map = c.map := by rw [h.eq]
theorem LinkStep.mgt (h : LinkStep p c d) : d.mgt = c.mgt := by rw [h.eq]
theorem LinkStep.hif (h : LinkStep p c d) : d.hif = c.hif := by rw [h.eq]
theorem LinkStep.cmp (h : LinkStep p c d) : d.cmp = c.cmp := by rw [h.eq]

theorem LinkStep.domOn (h : LinkStep p c d) (bit : Nat) : d.domOn bit = c.domOn bit := by
  simp only [Chip.domOn, h.pwr]

theorem LinkStep.ite {q : Prop} [Decidable q] (hd : LinkStep p c d) (he : LinkStep p c e) :
    LinkStep p c (if q then d else e) := by
  split
  · exact hd
  · exact he

theorem linkStep_onPort (f : Port → Port) (c : Chip) : LinkStep p c (c.onPort p f) :=
  ⟨rfl, fun _ hq => Chip.onPort_other _ hq f⟩

theorem linkStep_fc (k : Collector) (c : Chip) : LinkStep p c { c with fc := k } := ⟨rfl, fun _ _ => rfl⟩

theorem linkStep_time (t : TimeRegs) (c : Chip) : LinkStep p c { c with time := t } := ⟨rfl, fun _ _ => rfl⟩

theorem linkStep_raise (n : Nat) (o : Owner) (c : Chip) : LinkStep p c (c.raise n o) := linkStep_fc ..

theorem linkStep_lower (n now : Nat) (c : Chip) : LinkStep p c (c.lower n now) := linkStep_fc ..

end

/-! The arbitration's records. -/

@[simp] theorem markWon_ports (f : Frame) (now : Nat) (c : Chip) : (markWon f now c).fab.ports = c.fab.ports := by
  unfold markWon
  extract_lets
  split <;> rfl

theorem linkStep_markWon (p : PortId) (f : Frame) (now : Nat) (c : Chip) : LinkStep p c (markWon f now c) := by
  refine ⟨?_, fun q _ => by simp [Chip.port]⟩
  unfold markWon
  extract_lets
  split <;> rfl

section
variable (p : PortId) (now : Nat) (c : Chip)

theorem linkStep_markAll (l : List Frame) : LinkStep p c (l.foldl (fun c f => markWon f now c) c) := by
  induction l generalizing c with
  | nil => exact .refl p c
  | cons f l ih => exact (linkStep_markWon p f now c).trans (ih _)

theorem markAll_port (l : List Frame) : (l.foldl (fun c f => markWon f now c) c).port p = c.port p := by
  have h := foldl_keeps (fun c : Chip => c.fab.ports) (fun c f => markWon f now c) (fun c f => markWon_ports f now c) l c
  simp only [Chip.port, h]

/-! Leaving the states that carry lines. -/

/-- The port as it leaves them: its queues empty, its scheduled lines counted as lost. -/
def Port.emptied (x : Port) : Port := { emptyPort x with dropCount := satAdd x.dropCount (x.sched.length + x.pipe.length) }

@[simp] theorem clearPort_port : (clearPort p now c).port p = (c.port p).emptied := by
  rw [clearPort, Chip.onPort_same, markAll_port]
  rfl

theorem linkStep_clearPort : LinkStep p c (clearPort p now c) := by
  unfold clearPort
  exact (linkStep_markAll p now c _).trans (linkStep_onPort ..)

@[simp] theorem lower_port (n : Nat) (q : PortId) : (c.lower n now).port q = c.port q := rfl

@[simp] theorem raise_port (n : Nat) (o : Owner) (q : PortId) : (c.raise n o).port q = c.port q := rfl

@[simp] theorem enterDisabled_port : (enterDisabled p now c).port p =
    { (c.port p).emptied with
      st := .disabled
      since := now
      width := 0
      used := 0
      peerValid := false
      detectRaised := false
      retrainReq := false } := by
  rw [enterDisabled, lower_port, Chip.onPort_same, clearPort_port]

theorem linkStep_enterDisabled : LinkStep p c (enterDisabled p now c) := by
  unfold enterDisabled
  exact ((linkStep_clearPort p now c).trans (linkStep_onPort ..)).trans (linkStep_lower ..)

theorem linkStep_enterDetect : LinkStep p c (enterDetect p now c) := by
  unfold enterDetect
  refine .ite (linkStep_enterDisabled ..) (.ite ?_ ?_)
  · exact (linkStep_enterDisabled ..).trans (linkStep_onPort ..)
  · exact (linkStep_clearPort ..).trans (linkStep_onPort ..)

/-- DETECT is entered where nothing keeps the port in DISABLED (09 Table 09-7). -/
theorem enterDetect_st (henable : (c.port p).enable = true) (hon : c.domOn (portDomain p) = true)
    (hclass : classAllowed p (c.port p).cls = true) : ((enterDetect p now c).port p).st = .detect := by
  have hoff : ¬(!(c.port p).enable || !c.domOn (portDomain p)) = true := by simp [henable, hon]
  have hbad : ¬(!classAllowed p (c.port p).cls) = true := by simp [hclass]
  rw [enterDetect, if_neg hoff, if_neg hbad, Chip.onPort_same]

theorem wakePort_of_enabled (h : (c.port p).st ≠ .disabled) : wakePort p now c = c := by
  simp [wakePort, h]

/-! The end of a training, and DOWN. -/

@[simp] theorem degradeCheck_port : (degradeCheck p c).port p =
    { c.port p with prevFailed := ((c.port p).failed, (c.port p).peerFailed) } := by
  unfold degradeCheck
  extract_lets x fresh c1
  have h1 : c1.port p = { c.port p with prevFailed := ((c.port p).failed, (c.port p).peerFailed) } := Chip.onPort_same ..
  split
  · exact h1
  · rw [raise_port]; exact h1

theorem linkStep_degradeCheck : LinkStep p c (degradeCheck p c) := by
  unfold degradeCheck
  exact .ite (linkStep_onPort ..) ((linkStep_onPort ..).trans (linkStep_raise ..))

theorem raiseDown_eq : raiseDown p now c = { c with fc := { c.fc with
    src := c.fc.src.set (downSource p) { c.fc.src[downSource p] with line := true, lastAct := now }
    raised := c.fc.raised ++ [⟨downSource p, .port p⟩] } } := by
  have hi : finOf 64 (18 + p.val) = some (downSource p) := by
    unfold finOf downSource
    rw [dif_pos (by omega)]
  unfold raiseDown
  rw [hi]

/-- The chip that `enterDown` has before it raises the line. -/
def downChip (reason : Nat) : Chip :=
  (clearPort p now (if (c.port p).st == .detect then c else degradeCheck p c)).onPort p fun x =>
    { x with
      st := .down
      since := now
      width := 0
      used := 0
      reason := BitVec.ofNat 4 reason
      peerValid := false
      detectRaised := x.detectRaised || x.st == .detect
      retrainReq := false }

theorem enterDown_eq (reason : Nat) : enterDown p reason now c =
    if (c.port p).st != .detect || !(c.port p).detectRaised then raiseDown p now (downChip p now c reason)
    else downChip p now c reason := rfl

theorem linkStep_enterDown (reason : Nat) : LinkStep p c (enterDown p reason now c) := by
  rw [enterDown_eq]
  have h : LinkStep p c (downChip p now c reason) := by
    unfold downChip
    refine LinkStep.trans ?_ ((linkStep_clearPort ..).trans (linkStep_onPort ..))
    exact .ite (.refl p c) (linkStep_degradeCheck ..)
  refine .ite ?_ h
  rw [raiseDown_eq]
  exact h.trans (linkStep_fc ..)

theorem enterDown_line (reason : Nat) (h : (c.port p).st ≠ .detect ∨ (c.port p).detectRaised = false) :
    (enterDown p reason now c).fc.src[downSource p].line = true := by
  have hcond : ((c.port p).st != .detect || !(c.port p).detectRaised) = true := by
    rcases h with h | h <;> simp [h]
  rw [enterDown_eq, if_pos hcond, raiseDown_eq]
  simp

/-- What DOWN makes of the port. -/
theorem enterDown_port (reason : Nat) : ∃ prev raised, (enterDown p reason now c).port p =
    { (c.port p).emptied with
      st := .down
      since := now
      width := 0
      used := 0
      reason := BitVec.ofNat 4 reason
      peerValid := false
      prevFailed := prev
      detectRaised := raised
      retrainReq := false } := by
  have hdown : (enterDown p reason now c).port p = (downChip p now c reason).port p := by
    rw [enterDown_eq]
    split
    · rw [raiseDown_eq]; rfl
    · rfl
  rw [hdown, downChip, Chip.onPort_same, clearPort_port]
  split
  · exact ⟨_, _, rfl⟩
  · rw [degradeCheck_port]
    exact ⟨_, _, rfl⟩

end

end Sys2Proof.Machine
end

section
/-! PROOFS. Training, time limits and retraining of a port (09 Tables 09-7 and 09-8; R242-R244, R231-R236). -/

namespace Sys2Proof.Machine

/-! Ports that go on. -/

section
variable (p : PortId) (now : Nat) (c : Chip)

/-- What UP makes of the port. -/
theorem enterUp_port : (enterUp p now c).port p =
    { mapLanes (c.port p) with
      st := .up
      since := now
      ackAt := now
      retrainReq := false
      linkDue := (c.port p).linkDue || (c.port p).st != .retrain
      syncAt := if (c.port p).st == .retrain then (c.port p).syncAt else none
      prevFailed := ((c.port p).failed, (c.port p).peerFailed) } := by
  unfold enterUp
  extract_lets c1 t1 c2
  have h1 : c1.port p = { mapLanes (c.port p) with
      st := .up
      since := now
      ackAt := now
      retrainReq := false
      linkDue := (c.port p).linkDue || (c.port p).st != .retrain
      syncAt := if (c.port p).st == .retrain then (c.port p).syncAt else none } := Chip.onPort_same ..
  have h2 : c2.port p = c1.port p := by unfold c2; split <;> rfl
  rw [lower_port, degradeCheck_port, h2, h1]
  rfl

theorem linkStep_enterUp : LinkStep p c (enterUp p now c) := by
  unfold enterUp
  refine LinkStep.trans (LinkStep.trans ?_ (linkStep_degradeCheck ..)) (linkStep_lower ..)
  exact LinkStep.trans (linkStep_onPort ..) (.ite (linkStep_time ..) (.refl ..))

/-- A level line that is lowered is down. -/
theorem lower_line : (c.lower (18 + p.val) now).fc.src[downSource p].line = false := by
  have hi : finOf 64 (18 + p.val) = some (downSource p) := by
    unfold finOf downSource
    rw [dif_pos (by omega)]
  simp only [Chip.lower, Collector.lower, hi]
  split
  · simp
  · rename_i h; simpa using h

theorem enterUp_line : (enterUp p now c).fc.src[downSource p].line = false := by
  unfold enterUp
  exact lower_line ..

/-- The port in RETRAIN, or owing it until an operating-point transition ends (09 R242, 16 R431). -/
def retrained (x : Port) : Port :=
  if c.pwr.busy then { x with retrainDue := true }
  else { x with
    st := .retrain
    since := now
    nakDue := false
    nakOut := false
    rejectAt := none
    late := (0, 0)
    nakRun := 0
    retrainDue := false }

theorem goRetrain_up (h : (c.port p).st = .up) : goRetrain p now c = c.onPort p (retrained now c) := by
  unfold goRetrain retrained
  rw [if_neg (by simp [h])]
  split <;> rfl

theorem linkStep_goRetrain : LinkStep p c (goRetrain p now c) := by
  unfold goRetrain
  exact .ite (.refl ..) (.ite (linkStep_onPort ..) (linkStep_onPort ..))

theorem linkStep_checkRate : LinkStep p c (checkRate p c) := by
  unfold checkRate
  exact .ite ((linkStep_onPort ..).trans (linkStep_raise ..)) (.refl ..)

/-- Counting a replay event marks at most that its interval has raised. -/
theorem checkRate_port : ∃ r, (checkRate p c).port p = { c.port p with rateRaised := r } := by
  unfold checkRate
  extract_lets x
  split
  · exact ⟨true, by rw [raise_port, Chip.onPort_same]⟩
  · exact ⟨(c.port p).rateRaised, rfl⟩

theorem linkStep_replayEvent : LinkStep p c (replayEvent p now c) := by
  unfold replayEvent
  extract_lets x c1
  have h1 : LinkStep p c c1 := (linkStep_onPort ..).trans (linkStep_checkRate ..)
  exact .ite (.refl ..) (.ite (h1.trans (linkStep_goRetrain ..)) h1)

theorem replayEvent_nothing (h : (c.port p).replay = []) : replayEvent p now c = c := by
  simp [replayEvent, h]

/-- What a replay event counts in its port. -/
def replaying (x x' : Port) : Port := { rollInterval now x' with
  resend := x.replay.length
  rplDue := true
  retryCount := satInc x.retryCount
  intervalEvents := (rollInterval now x').intervalEvents + 1
  nakRun := x.nakRun + 1
  ackAt := now }

/-- The running interval moves on with its own fields alone. -/
theorem rollInterval_eq (x : Port) : ∃ since events raised,
    rollInterval now x = { x with intervalAt := since, intervalEvents := events, rateRaised := raised } := by
  unfold rollInterval
  extract_lets len
  split <;> exact ⟨_, _, _, rfl⟩

/-- The chip once a replay event of port p is counted. -/
theorem replaying_port (x : Port) : ∃ since events raised,
    (checkRate p (c.onPort p (replaying now x))).port p =
      { c.port p with
        intervalAt := since
        intervalEvents := events
        rateRaised := raised
        resend := x.replay.length
        rplDue := true
        retryCount := satInc x.retryCount
        nakRun := x.nakRun + 1
        ackAt := now } := by
  obtain ⟨raised, hr⟩ := checkRate_port p (c.onPort p (replaying now x))
  obtain ⟨since, events, r, hroll⟩ := rollInterval_eq now (c.port p)
  refine ⟨since, events + 1, raised, ?_⟩
  rw [hr, Chip.onPort_same, replaying, hroll]

/-- A replay event sends all unacknowledged frames again; NAK_MAX of them for one frame lead to RETRAIN (09 R231, R233). -/
theorem replayEvent_port (h : (c.port p).replay ≠ []) (hup : (c.port p).st = .up) :
    let x := c.port p
    let y := (replayEvent p now c).port p
    y.resend = x.replay.length ∧ y.rplDue = true ∧ y.retryCount = satInc x.retryCount ∧ y.replay = x.replay ∧
      y.width = x.width ∧ y.peerFailed = x.peerFailed ∧
      y.st = if max 1 x.nakMax.toNat ≤ x.nakRun + 1 ∧ c.pwr.busy = false then .retrain else .up := by
  intro x y
  obtain ⟨since, events, raised, h1⟩ := replaying_port p now c x
  obtain ⟨c1, hc1⟩ : ∃ c1, c1 = checkRate p (c.onPort p (replaying now x)) := ⟨_, rfl⟩
  rw [← hc1] at h1
  have hbusy : c1.pwr = c.pwr := by
    rw [hc1]; exact ((linkStep_onPort ..).trans (linkStep_checkRate ..)).pwr
  have hup1 : (c1.port p).st = .up := by rw [h1]; exact hup
  have hy : y = if max 1 x.nakMax.toNat ≤ x.nakRun + 1 then retrained now c1 (c1.port p) else c1.port p := by
    have hne : ¬(c.port p).replay.isEmpty = true := by simpa using h
    have hc : replayEvent p now c = if max 1 x.nakMax.toNat ≤ x.nakRun + 1 then goRetrain p now c1 else c1 := by
      rw [replayEvent, if_neg hne, hc1]
      rfl
    unfold y
    rw [hc]
    split
    · rw [goRetrain_up p now c1 hup1, Chip.onPort_same]
    · rfl
  rw [hy, retrained, hbusy, h1]
  by_cases hmax : max 1 x.nakMax.toNat ≤ x.nakRun + 1
  · rw [if_pos hmax]
    by_cases hb : c.pwr.busy = true
    · rw [if_pos hb, if_neg (by simp [hb])]
      exact ⟨rfl, rfl, rfl, rfl, rfl, rfl, hup⟩
    · rw [if_neg hb, if_pos ⟨hmax, by simpa using hb⟩]
      exact ⟨rfl, rfl, rfl, rfl, rfl, rfl, rfl⟩
  · rw [if_neg hmax, if_neg (by simp [hmax])]
    exact ⟨rfl, rfl, rfl, rfl, rfl, rfl, hup⟩

end

/-! Frames. -/

section
variable {s t : State} {p : PortId}

/-- Time that passes, and steps of the port after it. -/
theorem onlyLink_awaited (n : Nat) (hmem : t.mem = s.mem) (hpending : t.pending = s.pending)
    (htray : t.sys.tray = s.sys.tray) (hout : t.sys.out = s.sys.out)
    (h : LinkStep p (s.sys.await n).chip t.sys.chip) : onlyLink p s t := by
  refine ⟨⟨hmem, hpending⟩, htray, hout, fun q hq => ?_, ?_, ?_, ?_, ?_, ?_⟩
  · rw [h.others q hq]; simp [Chip.port]
  · rw [h.cmp]; simp
  · unfold sameMap; rw [h.map]; exact await_sameMap ..
  · rw [h.hif]; simp
  · rw [h.mgt]; simp
  · rw [h.pwr]; simp

theorem onlyLink_step {c : Chip} (h : LinkStep p s.sys.chip c) :
    onlyLink p s { s with sys := { s.sys with chip := c } } := by
  refine onlyLink_awaited 0 rfl rfl rfl rfl ?_
  rw [await_le _ _ (Nat.zero_le _)]
  exact h

/-- DOWN, for a port whose queues, count and line are as they were. -/
theorem wentDown_awaited (n reason now : Nat) {c : Chip} (hstep : LinkStep p (s.sys.await n).chip c)
    (hsched : (c.port p).sched = (s.sys.chip.port p).sched) (hpipe : (c.port p).pipe = (s.sys.chip.port p).pipe)
    (hdrop : (c.port p).dropCount = (s.sys.chip.port p).dropCount) (hst : (c.port p).st = (s.sys.chip.port p).st)
    (hraised : (c.port p).detectRaised = (s.sys.chip.port p).detectRaised) :
    wentDown p reason s { s with sys := { s.sys.await n with chip := enterDown p reason now c } } := by
  obtain ⟨prev, raised, hport⟩ := enterDown_port p now c reason
  refine ⟨onlyLink_awaited n rfl rfl (by simp) (by simp) (hstep.trans (linkStep_enterDown ..)), ?_⟩
  dsimp only
  rw [hport]
  refine ⟨rfl, rfl, rfl, rfl, rfl, rfl, rfl, rfl, ?_, fun h => ?_⟩
  · rw [← hsched, ← hpipe, ← hdrop]; rfl
  · rw [← hst, ← hraised] at h
    exact enterDown_line p now c reason h

end

end Sys2Proof.Machine
end

section
/-! PROOFS. The set-up register file (03 R83-R94): run-locked writes, and reads and writes with an effect of their own. -/

namespace Sys2Proof.Machine

/-! An access while the register file is within reach, and out of reach. -/

section
variable {s : State}

theorem chipWrite_reached (o : Nat) (v : Word) {y : Sys} (h : y.chip.pwr.retention = false) :
    chipWrite o v y = writeReg o v (y.onChip (wakeAccess y.now)) := by
  simp [chipWrite, reachable, h, accessWrite]

theorem chipWrite_retention (o : Nat) (v : Word) {y : Sys} (h : y.chip.pwr.retention = true) :
    chipWrite o v y = y.emit .unsupported := by
  simp [chipWrite, reachable, h]

theorem chipRead_reached (o : Nat) {y : Sys} (h : y.chip.pwr.retention = false) :
    chipRead o y = (y.onChip fun c => readEffect o (wakeAccess y.now c)).emit
      (.readData (leBytes 4 (readReg y.chip o).toNat)) := by
  simp [chipRead, reachable, h, accessRead]

theorem sys_onChip_onChip (f g : Chip → Chip) (y : Sys) : (y.onChip f).onChip g = y.onChip (g ∘ f) := rfl

end

/-! Waking the management clock changes nothing that a register access reads. -/

@[simp] theorem wakeAccess_map (now : Nat) (c : Chip) : (wakeAccess now c).map = c.map := by
  unfold wakeAccess; split <;> rfl

@[simp] theorem wakeAccess_fab (now : Nat) (c : Chip) : (wakeAccess now c).fab = c.fab := by
  unfold wakeAccess; split <;> rfl

@[simp] theorem wakeAccess_time (now : Nat) (c : Chip) : (wakeAccess now c).time = c.time := by
  unfold wakeAccess; split <;> rfl

@[simp] theorem wakeAccess_srch (now : Nat) (c : Chip) : (wakeAccess now c).srch = c.srch := by
  unfold wakeAccess; split <;> rfl

@[simp] theorem wakeAccess_hif (now : Nat) (c : Chip) : (wakeAccess now c).hif = c.hif := by
  unfold wakeAccess; split <;> rfl

@[simp] theorem wakeAccess_mgt (now : Nat) (c : Chip) : (wakeAccess now c).mgt = c.mgt := by
  unfold wakeAccess; split <;> rfl

@[simp] theorem wakeAccess_cmp (now : Nat) (c : Chip) : (wakeAccess now c).cmp = c.cmp := by
  unfold wakeAccess; split <;> rfl

/-- Of the power block, waking changes the time of the wake alone. -/
theorem wakeAccess_pwr (now : Nat) (c : Chip) :
    ∃ w, (wakeAccess now c).pwr = { c.pwr with wokenAt := w } := by
  unfold wakeAccess; split <;> exact ⟨_, rfl⟩

/-! Run-locked writes (03 R86). -/

theorem lockedWrite_run (off : Nat) (new : Chip → Chip) (changed : Bool) {c : Chip} (h : c.map.run = true) :
    lockedWrite off new changed c = if changed then c.cfgDiscard off else c := by
  cases changed <;> simp [lockedWrite, h]

theorem lockedWrite_stopped (off : Nat) {new : Chip → Chip} {changed : Bool} {c : Chip} (h : c.map.run = false)
    (hsame : changed = false → new c = c) : lockedWrite off new changed c = new c := by
  cases changed with
  | false => simp [lockedWrite, hsame]
  | true => simp [lockedWrite, h]

/-! The registers of the map (03 Tables 03-12 to 03-20). -/

theorem writeReg_target (v : Word) (y : Sys) : writeReg 0x6008 v y = y.onChip (writeColumnMap 0x08 v) := rfl

theorem writeReg_vcol (k : Fin 5) (v : Word) (y : Sys) :
    writeReg (0x600C + 4 * k.val) v y = y.onChip (writeColumnMap (0x0C + 4 * k.val) v) := by
  fin_cases k <;> rfl

theorem writeReg_trace (v : Word) (y : Sys) : writeReg 0x6028 v y = y.onChip (writeTraceCtl v y.now) := rfl

theorem writeReg_chipMap (k : Fin 4096) (v : Word) (y : Sys) :
    writeReg (0x8000 + 4 * k.val) v y = y.onChip (writeChipMap (4 * k.val) v) := by
  have hk := k.isLt
  unfold writeReg
  rw [if_neg (by omega), if_neg (by omega), if_neg (by omega), if_neg (by omega), if_neg (by omega), if_neg (by simp; omega),
    if_pos (by simp; omega), Nat.add_sub_cancel_left]

/-- What a write of the target quadrant, or of four entries of the column map, makes of the map registers. -/
theorem writeColumnMap_target (v : Word) (c : Chip) : writeColumnMap 0x08 v c =
    lockedWrite 0x6008 (fun c' => { c' with map := { c.map with target := bv 2 v 8 } })
      ({ c.map with target := bv 2 v 8 } != c.map) c := rfl

theorem writeColumnMap_vcol (k : Fin 5) (v : Word) (c : Chip) : writeColumnMap (0x0C + 4 * k.val) v c =
    lockedWrite (0x600C + 4 * k.val) (fun c' => { c' with map := { c.map with vcol := setCols k.val v c.map.vcol } })
      ({ c.map with vcol := setCols k.val v c.map.vcol } != c.map) c := by
  fin_cases k <;> rfl


/-! Host searches that are given up complete, and nothing else changes. -/

theorem completes_refuseSearch (q : QpId) (index : Nat) (c : Chip) : Completes c (refuseSearch q index c) := by
  unfold refuseSearch
  split
  · exact completes_endEntry ..
  · exact .refl c

theorem completes_refuseReq (r : SearchReq) (c : Chip) : Completes c (refuseReq r c) := by
  unfold refuseReq
  split
  · exact completes_refuseSearch ..
  · exact .refl c

theorem completes_hifRefuseSearches (c : Chip) : Completes c (hifRefuseSearches c) := by
  unfold hifRefuseSearches
  have h := completes_foldl _ (fun d r => completes_refuseReq r d) c.srch.queue c
  extract_lets c1
  split
  · exact h.trans (completes_refuseReq ..)
  · exact h

/-! Domains that follow their requests: of the map registers, only a trace buffer that is lost changes (03 R90). -/

/-- The map registers but for the buffer of the trace. -/
def Chip.mapRest (c : Chip) : MapRegs := { c.map with trace := [] }

theorem Completes.mapRest {c d : Chip} (h : Completes c d) : d.mapRest = c.mapRest := by
  have hmap : d.map = c.map := by rw [h.eq]
  unfold Chip.mapRest
  rw [hmap]

theorem mapRest_resetSearch (c : Chip) : (resetSearch c).mapRest = c.mapRest := by
  unfold resetSearch
  extract_lets c1 s
  have hout : c1.mapRest = (abandonSearch c).mapRest := by
    refine foldl_keeps Chip.mapRest _ (fun d o => ?_) _ _
    split
    · exact (completes_refuseSearch ..).mapRest
    · rfl
  exact hout.trans (completes_hifRefuseSearches c).mapRest

theorem mapRest_resetDomain (bit now : Nat) (c : Chip) : (resetDomain bit now c).mapRest = c.mapRest := by
  unfold resetDomain
  split
  · exact mapRest_resetSearch c
  split
  · rfl
  split
  · exact foldl_keeps Chip.mapRest _ (fun d q => by unfold Chip.mapRest; rw [(linkStep_enterDisabled q now d).map]) _ c
  split
  · rfl
  split
  · split
    · unfold resetQuad Chip.mapRest; rfl
    · rfl
  · rfl

theorem mapRest_setTrans (bit : Nat) (t : Option DomTrans) (c : Chip) : (setTrans bit t c).mapRest = c.mapRest := by
  unfold setTrans
  split <;> rfl

theorem mapRest_domainOff (bit now : Nat) (c : Chip) : (domainOff bit now c).mapRest = c.mapRest := by
  unfold domainOff
  split
  · rw [mapRest_resetDomain, mapRest_setTrans]; rfl
  · rfl

theorem mapRest_domainOnReq (bit now : Nat) (c : Chip) : (domainOnReq bit now c).mapRest = c.mapRest := by
  unfold domainOnReq
  split
  · rfl
  · exact mapRest_setTrans ..

theorem mapRest_followRequests (now : Nat) (c : Chip) : (followRequests now c).mapRest = c.mapRest := by
  refine foldl_keeps Chip.mapRest _ (fun d b => ?_) _ c
  split
  · exact mapRest_domainOnReq ..
  · exact mapRest_domainOff ..

/-- The map registers after the trace's control: what it sets, and whatever the trace's buffer holds then. -/
theorem followRequests_map (now : Nat) (c : Chip) :
    (followRequests now c).map = { c.map with trace := (followRequests now c).map.trace } := by
  have h := mapRest_followRequests now c
  unfold Chip.mapRest at h
  rcases hm : (followRequests now c).map
  rcases hc : c.map
  simp_all

/-! The statement. -/

theorem withChip_comp (s : State) (f g : Chip → Chip) : (s.withChip f).withChip g = s.withChip (g ∘ f) := rfl

theorem withChip_congr {s : State} {f g : Chip → Chip} (h : f s.sys.chip = g s.sys.chip) : s.withChip f = s.withChip g := by
  unfold State.withChip; rw [h]

theorem exec_columnMapWrite_target (value : Word) {s : State} (h : s.sys.chip.pwr.retention = false) :
    exec (.columnMapWrite 0 value) s = .next (s.waked.withChip (writeColumnMap 0x08 value)) := by
  have hoff : (if (0 : Fin 6).val == 0 then 0x6008 else 0x600C + 4 * ((0 : Fin 6).val - 1)) = 0x6008 := rfl
  rw [exec_columnMapWrite, execColumnMapWrite, onSys_eq, chipWrite_reached _ _ h, hoff, writeReg_target]
  rfl

theorem exec_columnMapWrite_cols (k : Fin 5) (value : Word) {s : State} (h : s.sys.chip.pwr.retention = false) :
    exec (.columnMapWrite k.succ value) s = .next (s.waked.withChip (writeColumnMap (0x0C + 4 * k.val) value)) := by
  rw [exec_columnMapWrite, execColumnMapWrite, onSys_eq, chipWrite_reached _ _ h]
  have hoff : (if k.succ.val == 0 then 0x6008 else 0x600C + 4 * (k.succ.val - 1)) = 0x600C + 4 * k.val := by simp
  rw [hoff, writeReg_vcol]
  rfl

theorem exec_traceEnable_reached (value : Word) {s : State} (h : s.sys.chip.pwr.retention = false) :
    exec (.traceEnable value) s = .next (s.waked.withChip (writeTraceCtl value s.sys.now)) := by
  rw [exec_traceEnable, execTraceEnable, onSys_eq, chipWrite_reached _ _ h, writeReg_trace]
  rfl

theorem exec_chipMapWrite (k : Fin 4096) (value : Word) {s : State} (h : s.sys.chip.pwr.retention = false) :
    exec (.registerWrite .chip (0x8000 + 4 * k.val) 4 value) s =
      .next (s.waked.withChip (writeChipMap (4 * k.val) value)).settled := by
  rw [exec_registerWrite, execRegisterWrite, onBoard_eq]
  have hal : (4 == 4 && (0x8000 + 4 * k.val) % 4 == 0) = true := by simp
  rw [registerWrite, hal, if_pos rfl, chipWrite_reached _ _ h, writeReg_chipMap]
  rfl

end Sys2Proof.Machine
end

section
/-! PROOFS. O26: full training of a port (09 Tables 09-7 and 09-8). -/

namespace Sys2Proof.Machine

section
variable {s : State} {p : PortId}

/-- DOWN where no time passes and the port's queues are as they were. -/
theorem wentDown_withChip (f : Port → Port) (reason now : Nat)
    (hsched : (f (s.sys.chip.port p)).sched = (s.sys.chip.port p).sched)
    (hpipe : (f (s.sys.chip.port p)).pipe = (s.sys.chip.port p).pipe)
    (hdrop : (f (s.sys.chip.port p)).dropCount = (s.sys.chip.port p).dropCount)
    (hst : (f (s.sys.chip.port p)).st = (s.sys.chip.port p).st)
    (hraised : (f (s.sys.chip.port p)).detectRaised = (s.sys.chip.port p).detectRaised) :
    wentDown p reason s (s.withChip fun c => enterDown p reason now (c.onPort p f)) := by
  have h0 := await_le s.sys 0 (Nat.zero_le _)
  have h := wentDown_awaited (s := s) (p := p) 0 reason now (c := s.sys.chip.onPort p f)
    (by rw [h0]; exact linkStep_onPort ..) (by rw [Chip.onPort_same, hsched]) (by rw [Chip.onPort_same, hpipe])
    (by rw [Chip.onPort_same, hdrop]) (by rw [Chip.onPort_same, hst]) (by rw [Chip.onPort_same, hraised])
  rw [h0] at h
  exact h

/-- A port's step, one change after another. -/
theorem onPort_onPort (f g : Port → Port) (c : Chip) : (c.onPort p f).onPort p g = c.onPort p (g ∘ f) := by
  simp [Chip.onPort]

/-- A command of a phase, taken in that phase. -/
theorem onPhase_next {ph : Phase} (f : Sys → Chip → Chip) (hst : (s.sys.chip.port p).st = .train)
    (hph : (s.sys.chip.port p).phase = ph) :
    onSys (fun y => y.onChip (inPhase p ph (f y))) s = .next (s.withChip (f s.sys)) := by
  have h : inPhase p ph (f s.sys) s.sys.chip = f s.sys s.sys.chip := by simp [inPhase, hst, hph]
  rw [onSys_eq, Sys.onChip, h]
  rfl

/-- A step that is a change of the port. -/
theorem next_sets {f : Chip → Chip} (g : Port → Port) (h : f s.sys.chip = s.sys.chip.onPort p g) :
    (Host.Outcome.next (s.withChip f) : Result) = .next (s.withChip (Chip.onPort p g)) := by
  rw [withChip_congr h]

/-- A step that takes the port DOWN. -/
theorem gives_down {f : Chip → Chip} (g : Port → Port) {reason : Nat}
    (h : f s.sys.chip = enterDown p reason s.sys.now (s.sys.chip.onPort p g))
    (hsched : (g (s.sys.chip.port p)).sched = (s.sys.chip.port p).sched)
    (hpipe : (g (s.sys.chip.port p)).pipe = (s.sys.chip.port p).pipe)
    (hdrop : (g (s.sys.chip.port p)).dropCount = (s.sys.chip.port p).dropCount)
    (hst : (g (s.sys.chip.port p)).st = (s.sys.chip.port p).st)
    (hraised : (g (s.sys.chip.port p)).detectRaised = (s.sys.chip.port p).detectRaised) :
    Gives (.next (s.withChip f)) (wentDown p reason s) := by
  refine ⟨_, rfl, ?_⟩
  rw [withChip_congr (g := fun c => enterDown p reason s.sys.now (c.onPort p g)) h]
  exact wentDown_withChip g reason _ hsched hpipe hdrop hst hraised

/-- No lane is healthy where each is marked failed by one end. -/
theorem healthySet_isEmpty (x : Port) : (healthySet x).isEmpty = (x.failed ||| x.peerFailed == 0xFF) := by
  have hall : ∀ m : BitVec 8, ((List.range 8).filter fun k => !m.toNat.testBit k).isEmpty = (m == 0xFF) := by decide
  exact hall _

/-! The statement's parts. -/

theorem partnerDetected_settled (h : (s.sys.chip.port p).st = .detect) :
    (canSee s.sys p = true → exec (.partnerDetected p) s = .next (s.withChip (Chip.onPort p fun x =>
      { x with st := .train, phase := .lock, since := s.sys.now, failed := 0, peerFailed := 0 }))) ∧
    (canSee s.sys p = false → exec (.partnerDetected p) s = .next s) := by
  rw [exec_partnerDetected, execPartnerDetected, onSys_eq]
  have hwake : wakePort p s.sys.now s.sys.chip = s.sys.chip := wakePort_of_enabled _ _ _ (by simp [h])
  simp only [Sys.onChip, hwake, inState, h, beq_self_eq_true, if_true]
  refine ⟨fun hsee => ?_, fun hsee => ?_⟩
  · rw [if_pos hsee]; rfl
  · rw [if_neg (by simp [hsee])]

theorem lock_settled (m : BitVec 8) (hst : (s.sys.chip.port p).st = .train) (hph : (s.sys.chip.port p).phase = .lock) :
    (m ≠ 0 → exec (.lock p m) s = .next (s.withChip (Chip.onPort p fun x =>
      { x with failed := x.failed ||| ~~~m, phase := .equalise, since := s.sys.now }))) ∧
    (m = 0 → Gives (exec (.lock p m) s) (wentDown p 2 s)) := by
  rw [exec_lock, execLock, onPhase_next _ hst hph]
  refine ⟨fun hm => next_sets _ ?_, fun hm => gives_down _ (if_pos (by simp [hm])) rfl rfl rfl rfl rfl⟩
  dsimp only
  rw [if_neg (by simpa using hm), nextPhase, onPort_onPort]
  rfl

theorem equalise_settled (m : BitVec 8) (hst : (s.sys.chip.port p).st = .train)
    (hph : (s.sys.chip.port p).phase = .equalise) (hcsc : s.sys.chip.mgt.cscReset = false) :
    let x := s.sys.chip.port p
    (x.failed ||| ~~~m ≠ 0xFF → exec (.equalise p m) s = .next (s.withChip (Chip.onPort p fun x =>
      { x with failed := x.failed ||| ~~~m, phase := .align, since := s.sys.now }))) ∧
    (x.failed ||| ~~~m = 0xFF → Gives (exec (.equalise p m) s) (wentDown p 3 s)) := by
  intro x
  rw [exec_equalise, execEqualise, onPhase_next _ hst hph]
  refine ⟨fun hm => next_sets _ ?_, fun hm => gives_down (fun x => { x with failed := x.failed ||| ~~~m }) ?_ rfl rfl rfl rfl rfl⟩
  · dsimp only
    rw [if_neg (by simp [hcsc]), Chip.onPort_same, if_neg (by simpa using hm), nextPhase, onPort_onPort]
    rfl
  · dsimp only
    rw [if_neg (by simp [hcsc]), Chip.onPort_same, if_pos (by simpa using hm)]

theorem align_settled (chip : ChipNo) (port : PortId) (dsn : Dword) (m : BitVec 8) (hst : (s.sys.chip.port p).st = .train)
    (hph : (s.sys.chip.port p).phase = .align) :
    let c := s.sys.chip
    let x := c.port p
    (oppositePort p port = false ∨ dsn = c.mgt.dsn → Gives (exec (.align p chip port dsn m) s) (wentDown p 5 s)) ∧
    (oppositePort p port = true → dsn ≠ c.mgt.dsn → x.failed ||| m = 0xFF →
      Gives (exec (.align p chip port dsn m) s) (wentDown p 4 s)) ∧
    (oppositePort p port = true → dsn ≠ c.mgt.dsn → x.failed ||| m ≠ 0xFF →
      exec (.align p chip port dsn m) s = .next (s.withChip (Chip.onPort p fun x =>
        { x with
          peerChip := chip
          peerPort := port
          peerValid := true
          peerFailed := m
          phase := .measure
          since := s.sys.now }))) := by
  intro c x
  rw [exec_align, execAlign, onPhase_next _ hst hph]
  refine ⟨fun hwrong => ?_, fun hport hdsn hm => ?_, fun hport hdsn hm => next_sets _ ?_⟩
  · refine gives_down (fun x => x) ?_ rfl rfl rfl rfl rfl
    have hc : c.onPort p (fun x => x) = c := onPort_id c rfl
    rw [hc]
    exact if_pos (by rcases hwrong with h | h <;> simp [h, c])
  · refine gives_down (fun x => { x with peerChip := chip, peerPort := port, peerValid := true, peerFailed := m }) ?_
      rfl rfl rfl rfl rfl
    dsimp only
    rw [if_neg (by simpa [hport] using hdsn), Chip.onPort_same, healthySet_isEmpty, if_pos (by simpa using hm)]
  · dsimp only
    rw [if_neg (by simpa [hport] using hdsn), Chip.onPort_same, healthySet_isEmpty, if_neg (by simpa using hm), nextPhase,
      onPort_onPort]
    rfl

theorem measure_settled (d : BitVec 8) (hst : (s.sys.chip.port p).st = .train)
    (hph : (s.sys.chip.port p).phase = .measure) :
    let x := s.sys.chip.port p
    (dMax x.cls < d.toNat → Gives (exec (.measure p d) s) fun t => wentDown p 6 s t ∧ (t.sys.chip.port p).d = d) ∧
    (d.toNat ≤ dMax x.cls → exec (.measure p d) s = .next (s.withChip (Chip.onPort p fun x =>
      { x with d := d, pad := BitVec.ofNat 8 (dMax x.cls - d.toNat), phase := .confirm, since := s.sys.now }))) := by
  intro x
  rw [exec_measure, execMeasure, onPhase_next _ hst hph]
  refine ⟨fun hd => ?_, fun hd => next_sets _ ?_⟩
  · refine ⟨s.withChip fun c => enterDown p 6 s.sys.now (c.onPort p fun x => { x with d := d }), ?_,
      wentDown_withChip _ _ _ rfl rfl rfl rfl rfl, ?_⟩
    · rw [withChip_congr]
      exact if_pos hd
    · obtain ⟨prev, raised, h⟩ := enterDown_port p s.sys.now (s.sys.chip.onPort p fun x => { x with d := d }) 6
      simp only [State.withChip, h, Chip.onPort_same]
      rfl
  · dsimp only
    rw [if_neg (Nat.not_lt.mpr hd), nextPhase, onPort_onPort, onPort_onPort]
    exact onPort_congr _ rfl

theorem confirm_settled (hst : (s.sys.chip.port p).st = .train) (hph : (s.sys.chip.port p).phase = .confirm) :
    Gives (exec (.confirm p) s) fun t =>
      let x := s.sys.chip.port p
      let y := t.sys.chip.port p
      onlyLink p s t ∧ y.st = .up ∧ y.txSeq = 0 ∧ y.rxSeq = 0 ∧ y.since = s.sys.now ∧
      y.width = BitVec.ofNat 4 (widthFor (healthySet x).length) ∧ y.sched = [] ∧ y.replay = [] ∧
      t.sys.chip.fc.src[downSource p].line = false := by
  rw [exec_confirm, execConfirm, onPhase_next _ hst hph]
  refine ⟨_, rfl, onlyLink_step ((linkStep_onPort ..).trans (linkStep_enterUp ..)), ?_⟩
  dsimp only [State.withChip]
  rw [enterUp_line, enterUp_port, Chip.onPort_same]
  exact ⟨rfl, rfl, rfl, rfl, rfl, rfl, rfl, rfl⟩

end

/-- Settles O26. -/
theorem linkTrainingRuns : Obligations.LinkTrainingRuns := by
  unfold Obligations.LinkTrainingRuns
  intro s p now c x sets
  exact ⟨partnerDetected_settled, fun hst => ⟨fun m => lock_settled m hst, fun m => equalise_settled m hst,
    fun chip port dsn m => align_settled chip port dsn m hst, fun d => measure_settled d hst, confirm_settled hst⟩⟩

end Sys2Proof.Machine
end

section
/-! PROOFS. O24 and O25: run-locked writes, and register accesses with an effect of their own (03 R83-R94). -/

namespace Sys2Proof.Machine

/-! Run-locked writes of the map and of the chip map. -/

section
variable {s : State} (value : Word)

/-- The map registers as a run-locked write finds them: changed in one field, or as they are. -/
theorem lockedMap_stopped (off : Nat) {m : MapRegs} {c : Chip} (h : c.map.run = false) :
    lockedWrite off (fun c => { c with map := m }) (m != c.map) c = { c with map := m } := by
  refine lockedWrite_stopped off h fun hm => ?_
  have : m = c.map := by simpa using hm
  rw [this]

theorem lockedMap_run (off : Nat) {m : MapRegs} {c : Chip} (h : c.map.run = true) :
    lockedWrite off (fun c => { c with map := m }) (m != c.map) c = if m = c.map then c else c.cfgDiscard off := by
  rw [lockedWrite_run _ _ _ h]
  by_cases hm : m = c.map <;> simp [hm]

theorem target_eq_iff (t : BitVec 2) (m : MapRegs) : { m with target := t } = m ↔ t = m.target :=
  ⟨fun h => congrArg MapRegs.target h, fun h => by rw [h]⟩

theorem vcol_eq_iff (v : Vector (BitVec 5) 20) (m : MapRegs) : { m with vcol := v } = m ↔ v = m.vcol :=
  ⟨fun h => congrArg MapRegs.vcol h, fun h => by rw [h]⟩

theorem chipMap_eq_iff (l : List (Nat × BitVec 16)) (f : Fabric) : { f with chipMap := l } = f ↔ l = f.chipMap :=
  ⟨fun h => congrArg Fabric.chipMap h, fun h => by rw [h]⟩

theorem withChip_ite (p : Prop) [Decidable p] (f : Chip → Chip) :
    (s.withChip fun c => if p then c else f c) = if p then s else s.withChip f := by
  split <;> rfl

theorem bv_eq (w lo : Nat) (v : Word) : bv w v lo = BitVec.ofNat w (v.toNat / 2 ^ lo) := by
  simp only [bv, fld, natField]
  exact BitVec.eq_of_toNat_eq (by simp [Nat.shiftRight_eq_div_pow])

@[simp] theorem waked_map : s.waked.sys.chip.map = s.sys.chip.map := wakeAccess_map ..
@[simp] theorem waked_fab : s.waked.sys.chip.fab = s.sys.chip.fab := wakeAccess_fab ..

theorem targetWrite_stopped (hr : s.sys.chip.pwr.retention = false) (hrun : s.sys.chip.map.run = false) :
    exec (.columnMapWrite 0 value) s = .next (s.waked.withChip fun c =>
      { c with map := { c.map with target := BitVec.ofNat 2 (value.toNat / 2 ^ 8) } }) := by
  rw [exec_columnMapWrite_target value hr]
  refine congrArg _ (withChip_congr ?_)
  rw [writeColumnMap_target, bv_eq, lockedMap_stopped _ (by simpa using hrun)]

theorem targetWrite_run (hr : s.sys.chip.pwr.retention = false) (hrun : s.sys.chip.map.run = true) :
    exec (.columnMapWrite 0 value) s = if BitVec.ofNat 2 (value.toNat / 2 ^ 8) = s.sys.chip.map.target then .next s.waked
      else .next (s.waked.withChip (Chip.cfgDiscard 0x6008)) := by
  rw [exec_columnMapWrite_target value hr]
  have h : writeColumnMap 0x08 value s.waked.sys.chip =
      if BitVec.ofNat 2 (value.toNat / 2 ^ 8) = s.sys.chip.map.target then s.waked.sys.chip
      else s.waked.sys.chip.cfgDiscard 0x6008 := by
    rw [writeColumnMap_target, bv_eq, lockedMap_run _ (c := s.waked.sys.chip) (by simpa using hrun)]
    simp only [target_eq_iff, waked_map]
  rw [withChip_congr (g := fun c => if BitVec.ofNat 2 (value.toNat / 2 ^ 8) = s.sys.chip.map.target then c
    else c.cfgDiscard 0x6008) h, withChip_ite]
  split <;> rfl

theorem colsWrite_stopped (k : Fin 5) (hr : s.sys.chip.pwr.retention = false) (hrun : s.sys.chip.map.run = false) :
    exec (.columnMapWrite k.succ value) s = .next (s.waked.withChip fun c =>
      { c with map := { c.map with vcol := setCols k.val value s.sys.chip.map.vcol } }) := by
  rw [exec_columnMapWrite_cols k value hr]
  refine congrArg _ (withChip_congr ?_)
  rw [writeColumnMap_vcol, lockedMap_stopped _ (by simpa using hrun), waked_map]

theorem colsWrite_run (k : Fin 5) (hr : s.sys.chip.pwr.retention = false) (hrun : s.sys.chip.map.run = true) :
    exec (.columnMapWrite k.succ value) s = if setCols k.val value s.sys.chip.map.vcol = s.sys.chip.map.vcol
      then .next s.waked else .next (s.waked.withChip (Chip.cfgDiscard (0x600C + 4 * k.val))) := by
  rw [exec_columnMapWrite_cols k value hr]
  have h : writeColumnMap (0x0C + 4 * k.val) value s.waked.sys.chip =
      if setCols k.val value s.sys.chip.map.vcol = s.sys.chip.map.vcol then s.waked.sys.chip
      else s.waked.sys.chip.cfgDiscard (0x600C + 4 * k.val) := by
    rw [writeColumnMap_vcol, lockedMap_run _ (c := s.waked.sys.chip) (by simpa using hrun)]
    simp only [vcol_eq_iff, waked_map]
  rw [withChip_congr (g := fun c => if setCols k.val value s.sys.chip.map.vcol = s.sys.chip.map.vcol then c
    else c.cfgDiscard (0x600C + 4 * k.val)) h, withChip_ite]
  split <;> rfl

/-- The map registers with the trace's control set. -/
def traceSet (m : MapRegs) : MapRegs := { m with
  traceEnable := value.toNat.testBit 0
  traceTile := BitVec.ofNat 9 (value.toNat / 2 ^ 4)
  traceWrap := value.toNat.testBit 16 }

theorem writeTraceCtl_eq (now : Nat) (c : Chip) : writeTraceCtl value now c =
    lockedWrite 0x6028 (fun c' => followRequests now { c' with map := traceSet value c.map })
      (traceSet value c.map != c.map) c := by
  unfold writeTraceCtl traceSet
  rw [bv_eq]

theorem writeTraceCtl_stopped (now : Nat) {c : Chip} (hrun : c.map.run = false) :
    (writeTraceCtl value now c).map =
      { traceSet value c.map with trace := (writeTraceCtl value now c).map.trace } := by
  rw [writeTraceCtl_eq]
  by_cases hm : traceSet value c.map = c.map
  · have : (traceSet value c.map != c.map) = false := by simp [hm]
    rw [this, hm]
    rfl
  · have : (traceSet value c.map != c.map) = true := by simp [hm]
    rw [this, lockedWrite, if_neg (by simp), if_neg (by simp [hrun])]
    exact followRequests_map now { c with map := traceSet value c.map }

theorem traceWrite_stopped (hr : s.sys.chip.pwr.retention = false) (hrun : s.sys.chip.map.run = false) :
    Gives (exec (.traceEnable value) s) fun t => onlyChip s t ∧
      t.sys.chip.map = { traceSet value s.sys.chip.map with trace := t.sys.chip.map.trace } := by
  rw [exec_traceEnable_reached value hr]
  refine ⟨_, rfl, rfl, ?_⟩
  have h := writeTraceCtl_stopped value s.sys.now (c := s.waked.sys.chip) (by simpa using hrun)
  rw [waked_map] at h
  exact h

theorem traceWrite_run (hr : s.sys.chip.pwr.retention = false) (hrun : s.sys.chip.map.run = true)
    (h : value.toNat.testBit 0 ≠ s.sys.chip.map.traceEnable ∨
      BitVec.ofNat 9 (value.toNat / 2 ^ 4) ≠ s.sys.chip.map.traceTile ∨
      value.toNat.testBit 16 ≠ s.sys.chip.map.traceWrap) :
    exec (.traceEnable value) s = .next (s.waked.withChip (Chip.cfgDiscard 0x6028)) := by
  rw [exec_traceEnable_reached value hr]
  refine congrArg _ (withChip_congr ?_)
  have hm : traceSet value s.waked.sys.chip.map ≠ s.waked.sys.chip.map := by
    rw [waked_map]
    intro hm
    rcases h with h | h | h
    · exact h (congrArg MapRegs.traceEnable hm)
    · exact h (congrArg MapRegs.traceTile hm)
    · exact h (congrArg MapRegs.traceWrap hm)
  rw [writeTraceCtl_eq, lockedWrite_run _ _ _ (by simpa using hrun), if_pos (by simpa using hm)]

/-- The chip map after a write of its word k. -/
def chipMapSet (k : Fin 4096) (l : List (Nat × BitVec 16)) : List (Nat × BitVec 16) :=
  setChipMap (2 * k.val + 1) (BitVec.ofNat 16 (value.toNat / 2 ^ 16)) (setChipMap (2 * k.val) (BitVec.ofNat 16 value.toNat) l)

theorem writeChipMap_eq (k : Fin 4096) (c : Chip) : writeChipMap (4 * k.val) value c =
    lockedWrite (0x8000 + 4 * k.val)
      (fun c' => { c' with fab := { c.fab with chipMap := chipMapSet value k c.fab.chipMap } })
      ({ c.fab with chipMap := chipMapSet value k c.fab.chipMap } != c.fab) c := by
  have hk : 4 * k.val / 4 * 2 = 2 * k.val := by omega
  have hlow : bv 16 value 0 = BitVec.ofNat 16 value.toNat := by rw [bv_eq]; simp
  rw [writeChipMap, hk, hlow, bv_eq]
  rfl

theorem chipMapWrite_stopped (k : Fin 4096) (hr : s.sys.chip.pwr.retention = false) (hrun : s.sys.chip.map.run = false) :
    exec (.registerWrite .chip (0x8000 + 4 * k.val) 4 value) s = .next (s.waked.withChip fun c =>
      { c with fab := { c.fab with chipMap := chipMapSet value k s.sys.chip.fab.chipMap } }).settled := by
  rw [exec_chipMapWrite k value hr]
  refine congrArg (fun t : State => (Host.Outcome.next t.settled : Result)) (withChip_congr ?_)
  rw [writeChipMap_eq, waked_fab]
  refine lockedWrite_stopped _ (by simpa using hrun) fun h => ?_
  have hf : { s.sys.chip.fab with chipMap := chipMapSet value k s.sys.chip.fab.chipMap } = s.sys.chip.fab := by
    simpa using h
  rw [hf, ← waked_fab]

theorem chipMapWrite_run (k : Fin 4096) (hr : s.sys.chip.pwr.retention = false) (hrun : s.sys.chip.map.run = true) :
    exec (.registerWrite .chip (0x8000 + 4 * k.val) 4 value) s =
      .next (if chipMapSet value k s.sys.chip.fab.chipMap = s.sys.chip.fab.chipMap then s.waked
        else s.waked.withChip (Chip.cfgDiscard (0x8000 + 4 * k.val))).settled := by
  rw [exec_chipMapWrite k value hr, ← withChip_ite]
  refine congrArg (fun t : State => (Host.Outcome.next t.settled : Result)) (withChip_congr ?_)
  rw [writeChipMap_eq, waked_fab, lockedWrite_run _ _ _ (by simpa using hrun)]
  by_cases h : chipMapSet value k s.sys.chip.fab.chipMap = s.sys.chip.fab.chipMap
  · rw [if_pos h, if_neg (by simp [h])]
  · rw [if_neg h, if_pos (by simpa [chipMap_eq_iff] using h)]

/-! RETENTION-ONLY: nothing of the register file is within reach. -/

theorem setUp_retention (o : Nat) (h : s.sys.chip.pwr.retention = true) :
    onSys (chipWrite o value) s = .next (s.puts .unsupported) := by
  rw [onSys_eq, chipWrite_retention _ _ h]
  rfl

theorem chipMapWrite_retention (k : Fin 4096) (h : s.sys.chip.pwr.retention = true) :
    exec (.registerWrite .chip (0x8000 + 4 * k.val) 4 value) s = .next (s.puts .unsupported).settled := by
  rw [exec_registerWrite, execRegisterWrite, onBoard_eq]
  have hal : (4 == 4 && (0x8000 + 4 * k.val) % 4 == 0) = true := by simp
  rw [registerWrite, hal, if_pos rfl, chipWrite_retention _ _ h]
  rfl

end

/-- Settles O24. -/
theorem runLockedWritesAreDiscarded : Obligations.RunLockedWritesAreDiscarded := by
  unfold Obligations.RunLockedWritesAreDiscarded
  intro s value c discards
  refine ⟨fun hr => ⟨fun reg => ?_, ?_, fun k => chipMapWrite_retention value k hr⟩, fun hr => ?_⟩
  · rw [exec_columnMapWrite, execColumnMapWrite, setUp_retention _ _ hr]
  · rw [exec_traceEnable, execTraceEnable, setUp_retention _ _ hr]
  intro target cols
  exact ⟨fun hrun => ⟨targetWrite_stopped value hr hrun, fun k => colsWrite_stopped value k hr hrun,
      traceWrite_stopped value hr hrun⟩,
    fun hrun => ⟨fun k => chipMapWrite_run value k hr hrun, targetWrite_run value hr hrun,
      fun k => colsWrite_run value k hr hrun, traceWrite_run value hr hrun⟩⟩

end Sys2Proof.Machine
end

section
/-! PROOFS. O25: register accesses with an effect of their own (03 R83, R87, R94; 18 R486; 19 Tables 19-4 and 19-5). -/

namespace Sys2Proof.Machine

section
variable {s : State}

/-! REGISTER_WRITE. -/

/-- BAR0 and the mailbox answer an access that is not an aligned word as unsupported (00 R9, R16). -/
theorem registerWrite_odd {space : RegSpace} {o size : Nat} (value : Word) (h : ¬(size = 4 ∧ o % 4 = 0))
    (hspace : space = .chip ∨ space = .mailbox) :
    exec (.registerWrite space o size value) s = .next (s.puts .unsupported).settled := by
  have hal : (size == 4 && o % 4 == 0) = false := by simpa using h
  rw [exec_registerWrite, execRegisterWrite, onBoard_eq]
  rcases hspace with rfl | rfl <;> simp only [registerWrite, hal, Bool.false_eq_true, Bool.false_and, if_false] <;> rfl

theorem writeBoard_full (value : Word) (y : Sys) :
    writeBoard 0x290C value y = y.onTray fun t => { t with byFull := BitVec.ofNat 14 value.toNat } := by
  have hv : bv 14 value 0 = BitVec.ofNat 14 value.toNat := by rw [bv_eq]; simp
  rw [← hv]
  rfl

theorem writeBoard_maxRpm (k : DriveId) (value : Word) (y : Sys) :
    writeBoard (0x2804 + 0x10 * k.val) value y =
      y.onTray (Tray.onDrive k fun d => { d with maxRpm := BitVec.ofNat 16 value.toNat }) := by
  have hv : bv 16 value 0 = BitVec.ofNat 16 value.toNat := by rw [bv_eq]; simp
  rw [← hv]
  fin_cases k <;> rfl

/-! PWR_COMMIT (03 R87, 16 R433). -/

theorem commitGroups_run (steep mon : Bool) {c : Chip} (h : c.map.run = true) : commitGroups steep mon c =
    { c with pwr := { c.pwr with
      steepPending := c.pwr.steepPending || steep
      monPending := c.pwr.monPending || mon } } := by
  simp [commitGroups, h]

theorem commitGroups_stopped (steep mon : Bool) {c : Chip} (h : c.map.run = false) : commitGroups steep mon c =
    applyGroups { c with pwr := { c.pwr with
      steepPending := c.pwr.steepPending || steep
      monPending := c.pwr.monPending || mon } } := by
  simp [commitGroups, h]

theorem waked_pending : s.waked.sys.chip.pwr.steepPending = s.sys.chip.pwr.steepPending ∧
    s.waked.sys.chip.pwr.monPending = s.sys.chip.pwr.monPending := by
  obtain ⟨w, hw⟩ := wakeAccess_pwr s.sys.now s.sys.chip
  simp [State.waked, State.withChip, hw]

theorem commit_next {i : Sys2Proof.Instr} (v : Word) (steep mon : Bool) (hexec : exec i s = onSys (chipWrite 0x2064 v) s)
    (hs : v.toNat.testBit 0 = steep) (hm : v.toNat.testBit 1 = mon) (hr : s.sys.chip.pwr.retention = false) :
    exec i s = .next (s.waked.withChip (commitGroups steep mon)) := by
  subst hs hm
  rw [hexec, onSys_eq, chipWrite_reached _ _ hr]
  rfl

theorem steepCommit_next (hr : s.sys.chip.pwr.retention = false) :
    exec .steepCommit s = .next (s.waked.withChip (commitGroups true false)) :=
  commit_next 1 true false (exec_steepCommit s) rfl rfl hr

theorem monCommit_next (hr : s.sys.chip.pwr.retention = false) :
    exec .monCommit s = .next (s.waked.withChip (commitGroups false true)) :=
  commit_next 2 false true (exec_monCommit s) rfl rfl hr

/-! Reads of the low word of a pair latch the high word (03 R94). -/

theorem chipRead_next {i : Sys2Proof.Instr} {o : Nat} (g : Chip → Chip) (data : Nat) (hexec : exec i s = onSys (chipRead o) s)
    (hr : s.sys.chip.pwr.retention = false) (hdata : (readReg s.sys.chip o).toNat = data)
    (hg : readEffect o s.waked.sys.chip = g s.waked.sys.chip) :
    exec i s = .next ((s.waked.withChip g).puts (.readData (leBytes 4 data))) := by
  rw [hexec, onSys_eq, chipRead_reached _ hr, hdata]
  have h : s.waked.withChip g = s.waked.withChip (readEffect o) := withChip_congr hg.symm
  rw [h]
  rfl

theorem lowWord_toNat (d : Dword) : (lowWord d).toNat = d.toNat % 2 ^ 32 := by simp [lowWord]

theorem highWord_toNat (d : Dword) : (highWord d).toNat = d.toNat / 2 ^ 32 := by
  have := d.isLt
  simp only [highWord, BitVec.toNat_ofNat]
  omega

theorem steepBalRead_next (q : QuadId) (hr : s.sys.chip.pwr.retention = false) :
    exec (.steepBalRead q) s = .next ((s.waked.withChip fun c => c.onPwr (onGov q fun g =>
      { g with balHi := BitVec.ofNat 32 (g.bal.toNat / 2 ^ 32) })).puts
        (.readData (leBytes 4 (s.sys.chip.pwr.gov[q].bal.toNat % 2 ^ 32)))) := by
  refine chipRead_next _ _ (exec_steepBalRead s q) hr ?_ ?_
  · rw [← lowWord_toNat]
    fin_cases q <;> rfl
  · fin_cases q <;> rfl

end

/-! The statement's parts. -/

theorem registerWrites_settled (s : State) (o size : Nat) (value : Word) :
    let c := s.sys.chip
    (¬(size = 4 ∧ o % 4 = 0) → exec (.registerWrite .chip o size value) s = .next (s.puts .unsupported).settled ∧
      exec (.registerWrite .mailbox o size value) s = .next (s.puts .unsupported).settled) ∧
    (∀ k : Fin 4096, c.pwr.retention = false → c.map.run = false →
      exec (.registerWrite .chip (0x8000 + 4 * k.val) 4 value) s = .next (s.waked.withChip fun d =>
        { d with fab := { d.fab with chipMap := chipMapSet value k c.fab.chipMap } }).settled) ∧
    exec (.registerWrite .tray 0x290C 4 value) s =
      .next (s.withTray fun t => { t with byFull := BitVec.ofNat 14 value.toNat }).settled ∧
    (∀ k : DriveId, exec (.registerWrite .tray (0x2804 + 0x10 * k.val) 4 value) s =
      .next (s.withTray (Tray.onDrive k fun d => { d with maxRpm := BitVec.ofNat 16 value.toNat })).settled) := by
  intro c
  refine ⟨fun h => ⟨registerWrite_odd value h (.inl rfl), registerWrite_odd value h (.inr rfl)⟩,
    fun k hr hrun => ?_, ?_, fun k => ?_⟩
  · rw [chipMapWrite_stopped value k hr hrun]
  · rw [exec_registerWrite, execRegisterWrite, onBoard_eq, registerWrite]
    exact congrArg (fun y => (.next { s with sys := settleTray y } : Result)) (writeBoard_full value s.sys)
  · have hal : (4 == 4 && (0x2804 + 0x10 * k.val) % 4 == 0) = true := by simp; omega
    rw [exec_registerWrite, execRegisterWrite, onBoard_eq, registerWrite, hal, if_pos rfl, writeBoard_maxRpm]
    rfl

theorem commits_settled (s : State) (hr : s.sys.chip.pwr.retention = false) :
    (s.sys.chip.map.run = false →
      (s.sys.chip.pwr.monPending = false → exec .steepCommit s = .next (s.waked.withChip fun c =>
        { c with pwr := { c.pwr with steep := c.pwr.steepShadow, steepPending := false } })) ∧
      (s.sys.chip.pwr.steepPending = false → exec .monCommit s = .next (s.waked.withChip fun c =>
        { c with pwr := { c.pwr with mon := c.pwr.monShadow, monPending := false } }))) ∧
    (s.sys.chip.map.run = true →
      exec .steepCommit s = .next (s.waked.withChip fun c => { c with pwr := { c.pwr with steepPending := true } }) ∧
      exec .monCommit s = .next (s.waked.withChip fun c => { c with pwr := { c.pwr with monPending := true } })) := by
  obtain ⟨hs, hm⟩ := waked_pending (s := s)
  rw [steepCommit_next hr, monCommit_next hr]
  refine ⟨fun hrun => ⟨fun hp => ?_, fun hp => ?_⟩, fun hrun => ⟨?_, ?_⟩⟩
  · rw [hp] at hm
    refine congrArg _ (withChip_congr ?_)
    rw [commitGroups_stopped _ _ (by simpa using hrun), applyGroups]
    simp [hm]
  · rw [hp] at hs
    refine congrArg _ (withChip_congr ?_)
    rw [commitGroups_stopped _ _ (by simpa using hrun), applyGroups]
    simp [hs]
  · refine congrArg _ (withChip_congr ?_)
    rw [commitGroups_run _ _ (by simpa using hrun)]
    simp
  · refine congrArg _ (withChip_congr ?_)
    rw [commitGroups_run _ _ (by simpa using hrun)]
    simp

theorem pairedReads_settled (s : State) (hr : s.sys.chip.pwr.retention = false) :
    let c := s.sys.chip
    let low := fun (d : Dword) => Output.readData (leBytes 4 (d.toNat % 2 ^ 32))
    let high := fun (d : Dword) => BitVec.ofNat 32 (d.toNat / 2 ^ 32)
    exec .gtcRead s = .next ((s.waked.withChip fun c => { c with time := { c.time with gtcHi := high c.time.gtc } }).puts
      (low c.time.gtc)) ∧
    exec .lagRead s = .next ((s.waked.withChip fun c => { c with time := { c.time with lagHi := high c.time.lag } }).puts
      (low c.time.lag)) ∧
    exec .srchWorkRead s = .next ((s.waked.withChip fun c =>
      { c with srch := { c.srch with workHi := high c.srch.work } }).puts (low c.srch.work)) ∧
    (∀ q, exec (.steepBalRead q) s = .next ((s.waked.withChip fun c =>
      c.onPwr (onGov q fun g => { g with balHi := high g.bal })).puts (low c.pwr.gov[q].bal))) ∧
    exec .traceDataRead s = .next ((s.waked.withChip fun c =>
      { c with map := { c.map with traceIndex := c.map.traceIndex + 1 } }).puts
        (.readData (leBytes 4 ((c.map.trace.getD c.map.traceIndex.toNat 0).toNat / 2 ^ 32)))) := by
  intro c low high
  refine ⟨chipRead_next _ _ (exec_gtcRead s) hr ?_ rfl, chipRead_next _ _ (exec_lagRead s) hr ?_ rfl,
    chipRead_next _ _ (exec_srchWorkRead s) hr ?_ rfl, fun q => steepBalRead_next q hr,
    chipRead_next _ _ (exec_traceDataRead s) hr ?_ rfl⟩
  · exact lowWord_toNat c.time.gtc
  · exact lowWord_toNat c.time.lag
  · exact lowWord_toNat c.srch.work
  · exact highWord_toNat (c.map.trace.getD c.map.traceIndex.toNat 0)

/-- Settles O25. -/
theorem registerAccessesTakeEffect : Obligations.RegisterAccessesTakeEffect := by
  unfold Obligations.RegisterAccessesTakeEffect
  exact ⟨registerWrites_settled, commits_settled, pairedReads_settled, fun s => by rw [exec_bbTimeRead, execBbTimeRead]; rfl⟩

end Sys2Proof.Machine
end

section
/-! PROOFS. O27: the time limits, lane failures and replays of a link (09 R231-R244). -/

namespace Sys2Proof.Machine

section
variable {s : State} {p : PortId}

/-! Time limits. -/

theorem whenState_of {st : PortState} {y : Sys} (f : Sys → Sys) (h : (y.chip.port p).st = st) : whenState p st f y = f y := by
  simp [whenState, h]

theorem await_port (y : Sys) (n : Nat) (q : PortId) : (y.await n).chip.port q = y.chip.port q := by
  simp [Chip.port]

/-- DOWN once a limit has passed, and no earlier. -/
theorem wentDown_late (n reason : Nat) :
    wentDown p reason s { s with sys := (s.sys.await n).onChip (enterDown p reason (s.sys.await n).now) } ∧
      n ≤ (s.sys.await n).now :=
  ⟨wentDown_awaited n reason _ (.refl ..) (by rw [await_port]) (by rw [await_port]) (by rw [await_port])
    (by rw [await_port]) (by rw [await_port]), le_await ..⟩

theorem ite_healthySet {α : Type} (x : Port) (a b : α) :
    (if (healthySet x).isEmpty then a else b) = if x.failed ||| x.peerFailed = 0xFF then a else b := by
  rw [healthySet_isEmpty]
  simp only [beq_iff_eq]

/-- A time limit of a state of the port. -/
theorem gives_late {st : PortState} {r : Nat} (limit : Sys → Nat) (reason : Sys → Chip → Nat)
    (h : (s.sys.chip.port p).st = st) (hreason : ∀ n, reason s.sys (s.sys.await n).chip = r) :
    Gives (onSys (whenState p st fun y =>
      let z := y.await (limit y)
      z.onChip fun c => enterDown p (reason y c) z.now c) s)
      fun t => wentDown p r s t ∧ limit s.sys ≤ t.sys.now := by
  rw [onSys_eq, whenState_of _ h]
  dsimp only [Sys.onChip]
  rw [hreason]
  exact ⟨_, rfl, wentDown_late ..⟩

theorem detectTimeout_settled (h : (s.sys.chip.port p).st = .detect) : Gives (exec (.detectTimeout p) s) fun t =>
    wentDown p 1 s t ∧ (s.sys.chip.port p).since + Config.ms 100 ≤ t.sys.now := by
  have hwake : wakePort p s.sys.now s.sys.chip = s.sys.chip := wakePort_of_enabled _ _ _ (by simp [h])
  have hsys : s.sys.onChip (wakePort p s.sys.now) = s.sys := by rw [Sys.onChip, hwake]
  rw [exec_detectTimeout, execDetectTimeout, onSys_eq, hsys, ← onSys_eq]
  exact gives_late (fun y => (y.chip.port p).since + Config.ms 100) (fun _ _ => 1) h fun _ => rfl

theorem trainPhaseTimeout_settled (h : (s.sys.chip.port p).st = .train) : Gives (exec (.trainPhaseTimeout p) s) fun t =>
    wentDown p (phaseLimit (s.sys.chip.port p)).2 s t ∧
      (s.sys.chip.port p).since + (phaseLimit (s.sys.chip.port p)).1 ≤ t.sys.now := by
  rw [exec_trainPhaseTimeout, execTrainPhaseTimeout]
  exact gives_late (fun y => (y.chip.port p).since + (phaseLimit (y.chip.port p)).1)
    (fun y _ => (phaseLimit (y.chip.port p)).2) h fun _ => rfl

theorem retrainTimeout_settled (h : (s.sys.chip.port p).st = .retrain) : Gives (exec (.retrainTimeout p) s) fun t =>
    let x := s.sys.chip.port p
    wentDown p (if x.failed ||| x.peerFailed = 0xFF then 9 else 8) s t ∧ x.since + Config.us 20 ≤ t.sys.now := by
  rw [exec_retrainTimeout, execRetrainTimeout]
  exact gives_late (fun y => (y.chip.port p).since + Config.us 20)
    (fun _ c => if (healthySet (c.port p)).isEmpty then 9 else 8) h fun n => by rw [await_port, ite_healthySet]

/-- A port that enters DETECT once a limit has passed. -/
theorem detects_late (n : Nat) (henable : (s.sys.chip.port p).enable = true)
    (hon : s.sys.chip.domOn (portDomain p) = true) (hclass : classAllowed p (s.sys.chip.port p).cls = true) :
    let t : State := { s with sys := (s.sys.await n).onChip (enterDetect p (s.sys.await n).now) }
    onlyLink p s t ∧ n ≤ t.sys.now ∧ (t.sys.chip.port p).st = .detect := by
  refine ⟨onlyLink_awaited n rfl rfl (by simp [Sys.onChip]) (by simp [Sys.onChip]) (linkStep_enterDetect ..),
    le_await .., enterDetect_st _ _ _ ?_ ?_ ?_⟩
  · rw [await_port]; exact henable
  · rw [Chip.domOn, await_pwr]; exact hon
  · rw [await_port]; exact hclass

theorem gives_detects (limit : Port → Nat) (h : (s.sys.chip.port p).st = .down)
    (henable : (s.sys.chip.port p).enable = true)
    (hon : s.sys.chip.domOn (portDomain p) = true) (hclass : classAllowed p (s.sys.chip.port p).cls = true) :
    Gives (onSys (whenState p .down fun y =>
      if (y.chip.port p).enable then
        let y := y.await (limit (y.chip.port p))
        y.onChip (enterDetect p y.now)
      else y) s) fun t => onlyLink p s t ∧
      limit (s.sys.chip.port p) ≤ t.sys.now ∧ (t.sys.chip.port p).st = .detect := by
  rw [onSys_eq, whenState_of _ h]
  dsimp only
  rw [if_pos henable]
  exact ⟨_, rfl, detects_late _ henable hon hclass⟩

theorem downTimeout_settled (h : (s.sys.chip.port p).st = .down) (henable : (s.sys.chip.port p).enable = true)
    (hon : s.sys.chip.domOn (portDomain p) = true) (hclass : classAllowed p (s.sys.chip.port p).cls = true) :
    Gives (exec (.downTimeout p) s) fun t => onlyLink p s t ∧
      (s.sys.chip.port p).since + Config.sec 1 ≤ t.sys.now ∧ (t.sys.chip.port p).st = .detect := by
  rw [exec_downTimeout, execDownTimeout]
  exact gives_detects (fun x => x.since + Config.sec 1) h henable hon hclass

/-! Lane failures. -/

theorem onSys_onChip (f : Sys → Chip → Chip) (s : State) :
    onSys (fun y => y.onChip (f y)) s = .next (s.withChip (f s.sys)) := rfl

theorem laneFail_settled (lane : LaneId) (h : (s.sys.chip.port p).st = .up)
    (hused : (s.sys.chip.port p).used.toNat.testBit lane.val = true) :
    exec (.laneFail p lane) s = .next (s.withChip (Chip.onPort p fun x =>
      retrained s.sys.now s.sys.chip { x with failed := x.failed ||| BitVec.ofNat 8 (2 ^ lane.val) })) := by
  have hcarries : (s.sys.chip.port p).carries = true := by simp [Port.carries, h]
  rw [exec_laneFail, execLaneFail, onSys_onChip]
  refine congrArg _ (withChip_congr ?_)
  dsimp only
  rw [hcarries, hused, Bool.and_self, if_pos rfl, goRetrain_up _ _ _ (by rw [Chip.onPort_same]; exact h), onPort_onPort]
  rfl

theorem retrainPatternSeen_settled (h : (s.sys.chip.port p).st = .up) :
    exec (.retrainPatternSeen p) s = .next (s.withChip (Chip.onPort p (retrained s.sys.now s.sys.chip))) := by
  rw [exec_retrainPatternSeen, execRetrainPatternSeen, onSys_onChip]
  exact congrArg _ (withChip_congr (goRetrain_up _ _ _ h))

/-- The chip as the end of a retrain leaves it, before the replay. -/
def relinked (p : PortId) (now : Nat) (m : BitVec 8) (c : Chip) : Chip :=
  enterUp p now ((c.onPort p fun x => { x with peerFailed := x.peerFailed ||| m }).onPort p fun x => { x with nakRun := 0 })

theorem linkStep_relinked (now : Nat) (m : BitVec 8) (c : Chip) : LinkStep p c (relinked p now m c) :=
  ((linkStep_onPort ..).trans (linkStep_onPort ..)).trans (linkStep_enterUp ..)

theorem retrainDone_settled (m : BitVec 8) (h : (s.sys.chip.port p).st = .retrain) :
    let x := s.sys.chip.port p
    (x.failed ||| (x.peerFailed ||| m) = 0xFF → Gives (exec (.retrainDone p m) s) (wentDown p 9 s)) ∧
    (x.failed ||| (x.peerFailed ||| m) ≠ 0xFF → Gives (exec (.retrainDone p m) s) fun t =>
      let y := t.sys.chip.port p
      onlyLink p s t ∧ y.peerFailed = x.peerFailed ||| m ∧ y.replay = x.replay ∧
      y.width = BitVec.ofNat 4 (widthFor (healthySet { x with peerFailed := x.peerFailed ||| m }).length) ∧
      (x.replay ≠ [] → y.resend = x.replay.length ∧ y.rplDue = true ∧ y.retryCount = satInc x.retryCount) ∧
      (2 ≤ x.nakMax.toNat ∨ x.replay = [] → y.st = .up)) := by
  intro x
  have hin (f : Chip → Chip) : inState p .retrain f s.sys.chip = f s.sys.chip := by simp [inState, h]
  rw [exec_retrainDone, execRetrainDone, onSys_onChip]
  refine ⟨fun hall => gives_down (fun x => { x with peerFailed := x.peerFailed ||| m }) ?_ rfl rfl rfl rfl rfl,
    fun hsome => ?_⟩
  · dsimp only
    rw [hin, Chip.onPort_same, healthySet_isEmpty, if_pos (by simpa using hall)]
  have hnext : (Host.Outcome.next (s.withChip fun c => inState p .retrain (fun c =>
      let c := c.onPort p fun x => { x with peerFailed := x.peerFailed ||| m }
      if (healthySet (c.port p)).isEmpty then enterDown p 9 s.sys.now c
      else replayEvent p s.sys.now (enterUp p s.sys.now (c.onPort p fun x => { x with nakRun := 0 }))) c) : Result) =
      .next (s.withChip fun c => replayEvent p s.sys.now (relinked p s.sys.now m c)) := by
    refine congrArg _ (withChip_congr ?_)
    dsimp only
    rw [hin, Chip.onPort_same, healthySet_isEmpty, if_neg (by simpa using hsome)]
    rfl
  rw [hnext]
  refine ⟨_, rfl, ?_⟩
  have hport : (relinked p s.sys.now m s.sys.chip).port p =
    { mapLanes { x with peerFailed := x.peerFailed ||| m, nakRun := 0 } with
      st := .up
      since := s.sys.now
      ackAt := s.sys.now
      retrainReq := false
      linkDue := x.linkDue || x.st != .retrain
      syncAt := if x.st == .retrain then x.syncAt else none
      prevFailed := (x.failed, x.peerFailed ||| m) } := by
    rw [relinked, enterUp_port, Chip.onPort_same, Chip.onPort_same]
  have hlink : onlyLink p s (s.withChip fun c => replayEvent p s.sys.now (relinked p s.sys.now m c)) :=
    onlyLink_step ((linkStep_relinked ..).trans (linkStep_replayEvent ..))
  by_cases hreplay : x.replay = []
  · have hnone : replayEvent p s.sys.now (relinked p s.sys.now m s.sys.chip) = relinked p s.sys.now m s.sys.chip :=
      replayEvent_nothing _ _ _ (by rw [hport]; exact hreplay)
    refine ⟨hlink, ?_⟩
    dsimp only [State.withChip]
    rw [hnone, hport]
    exact ⟨rfl, rfl, rfl, fun hne => absurd hreplay hne, fun _ => rfl⟩
  · have hr := replayEvent_port p s.sys.now (relinked p s.sys.now m s.sys.chip) (by rw [hport]; exact hreplay) (by rw [hport])
    rw [hport] at hr
    obtain ⟨hresend, hrpl, hcount, hrep, hwidth, hpeer, hst⟩ := hr
    refine ⟨hlink, hpeer, hrep, hwidth, fun _ => ⟨hresend, hrpl, hcount⟩, fun hmax => hst.trans (if_neg ?_)⟩
    have h2 : 2 ≤ x.nakMax.toNat := hmax.resolve_right hreplay
    rintro ⟨hle, -⟩
    have : max 1 x.nakMax.toNat ≤ 0 + 1 := hle
    omega

/-! Replays. -/

/-- A replay event once 1 µs has passed. -/
theorem replay_late (n : Nat) (h : (s.sys.chip.port p).st = .up) (hreplay : (s.sys.chip.port p).replay ≠ []) :
    let x := s.sys.chip.port p
    let t : State := { s with sys := (s.sys.await n).onChip (replayEvent p (s.sys.await n).now) }
    let y := t.sys.chip.port p
    onlyLink p s t ∧ n ≤ t.sys.now ∧ y.resend = x.replay.length ∧ y.rplDue = true ∧
      y.retryCount = satInc x.retryCount ∧
      y.st = if max 1 x.nakMax.toNat ≤ x.nakRun + 1 ∧ s.sys.chip.pwr.busy = false then .retrain else .up := by
  intro x t y
  have hr := replayEvent_port p (s.sys.await n).now (s.sys.await n).chip (by rw [await_port]; exact hreplay)
    (by rw [await_port]; exact h)
  rw [await_port, await_pwr] at hr
  obtain ⟨hresend, hrpl, hcount, -, -, -, hst⟩ := hr
  exact ⟨onlyLink_awaited n rfl rfl (by simp [t, Sys.onChip]) (by simp [t, Sys.onChip]) (linkStep_replayEvent ..),
    le_await .., hresend, hrpl, hcount, hst⟩

theorem gives_replay (limit : Port → Nat) (h : (s.sys.chip.port p).st = .up)
    (hreplay : (s.sys.chip.port p).replay ≠ []) :
    Gives (onSys (whenState p .up fun y =>
      let x := y.chip.port p
      if x.replay.isEmpty then y
      else
        let y := y.await (limit x)
        y.onChip (replayEvent p y.now)) s) fun t =>
      let x := s.sys.chip.port p
      let y := t.sys.chip.port p
      onlyLink p s t ∧ limit x ≤ t.sys.now ∧ y.resend = x.replay.length ∧ y.rplDue = true ∧
      y.retryCount = satInc x.retryCount ∧
      y.st = if max 1 x.nakMax.toNat ≤ x.nakRun + 1 ∧ s.sys.chip.pwr.busy = false then .retrain else .up := by
  have hne : ¬(s.sys.chip.port p).replay.isEmpty = true := by simpa using hreplay
  rw [onSys_eq, whenState_of _ h]
  dsimp only
  rw [if_neg hne]
  exact ⟨_, rfl, replay_late _ h hreplay⟩

theorem replayTimeout_settled (h : (s.sys.chip.port p).st = .up) (hreplay : (s.sys.chip.port p).replay ≠ []) :
    Gives (exec (.replayTimeout p) s) fun t =>
      let x := s.sys.chip.port p
      let y := t.sys.chip.port p
      onlyLink p s t ∧ x.ackAt + Config.us 1 ≤ t.sys.now ∧ y.resend = x.replay.length ∧ y.rplDue = true ∧
      y.retryCount = satInc x.retryCount ∧
      y.st = if max 1 x.nakMax.toNat ≤ x.nakRun + 1 ∧ s.sys.chip.pwr.busy = false then .retrain else .up := by
  rw [exec_replayTimeout, execReplayTimeout]
  exact gives_replay (fun x => x.ackAt + Config.us 1) h hreplay

/-- The chip as the end of a retry interval leaves it. -/
def intervalEnded (p : PortId) (now : Nat) (c : Chip) : Chip := (checkRate p c).onPort p (rollInterval now)

theorem checkRate_raised (c : Chip) (h : (c.port p).retryInterval ≠ 0) :
    (checkRate p c).fc.raised = c.fc.raised ++
      if (c.port p).retryLimit.toNat < (c.port p).intervalEvents ∧ (c.port p).rateRaised = false then [⟨26, .port p⟩]
      else [] := by
  have hrun : ((c.port p).retryInterval != 0) = true := by simpa using h
  unfold checkRate
  dsimp only
  rw [hrun, Bool.true_and]
  by_cases hc : (c.port p).retryLimit.toNat < (c.port p).intervalEvents ∧ (c.port p).rateRaised = false
  · rw [if_pos hc, if_pos (by simp [hc])]
    rfl
  · rw [if_neg hc, if_neg (by simpa using hc), List.append_nil]

theorem rollInterval_ended (now : Nat) (x : Port) (h : x.retryInterval ≠ 0)
    (hend : x.intervalAt + Config.ms x.retryInterval.toNat ≤ now) : (rollInterval now x).intervalEvents = 0 := by
  have hrun : (x.retryInterval != 0) = true := by simpa using h
  unfold rollInterval
  extract_lets len
  rw [hrun, Bool.true_and, if_pos (by simpa using hend)]

/-- The end of a retry interval. -/
theorem interval_late (n : Nat) (h : (s.sys.chip.port p).retryInterval ≠ 0)
    (hn : (s.sys.chip.port p).intervalAt + Config.ms (s.sys.chip.port p).retryInterval.toNat = n) :
    let x := s.sys.chip.port p
    let t : State := { s with sys := (s.sys.await n).onChip (intervalEnded p (s.sys.await n).now) }
    onlyLink p s t ∧ n ≤ t.sys.now ∧ (t.sys.chip.port p).intervalEvents = 0 ∧
      t.sys.chip.fc.raised = s.sys.chip.fc.raised ++
        if x.retryLimit.toNat < x.intervalEvents ∧ x.rateRaised = false then [⟨26, .port p⟩] else [] := by
  intro x t
  obtain ⟨r, hr⟩ := checkRate_port p (s.sys.await n).chip
  rw [await_port] at hr
  refine ⟨onlyLink_awaited n rfl rfl (by simp [t, Sys.onChip]) (by simp [t, Sys.onChip])
    ((linkStep_checkRate ..).trans (linkStep_onPort ..)), le_await .., ?_, ?_⟩
  · show ((intervalEnded p (s.sys.await n).now (s.sys.await n).chip).port p).intervalEvents = 0
    rw [intervalEnded, Chip.onPort_same, hr]
    exact rollInterval_ended _ _ h (hn ▸ le_await s.sys n)
  · have := checkRate_raised (s.sys.await n).chip (p := p) (by rw [await_port]; exact h)
    rw [await_port, await_fc] at this
    exact this

/-- The end of the port's interval, which is `length` long. -/
theorem gives_interval (length : Port → Nat) (hlength : ∀ x : Port, length x = Config.ms x.retryInterval.toNat)
    (h : (s.sys.chip.port p).retryInterval ≠ 0) :
    Gives (onSys (fun y =>
      let x := y.chip.port p
      if x.retryInterval == 0 then y
      else
        let y := (y.await (x.intervalAt + length x)).onChip (checkRate p)
        y.onChip fun c => c.onPort p (rollInterval y.now)) s) fun t =>
      let x := s.sys.chip.port p
      onlyLink p s t ∧ x.intervalAt + length x ≤ t.sys.now ∧ (t.sys.chip.port p).intervalEvents = 0 ∧
        t.sys.chip.fc.raised = s.sys.chip.fc.raised ++
          if x.retryLimit.toNat < x.intervalEvents ∧ x.rateRaised = false then [⟨26, .port p⟩] else [] := by
  rw [onSys_eq]
  dsimp only
  rw [if_neg (by simpa using h)]
  exact ⟨_, rfl, interval_late _ h (by rw [hlength])⟩

theorem fabRetryRate_settled (h : (s.sys.chip.port p).retryInterval ≠ 0) : Gives (exec (.fabRetryRate p) s) fun t =>
    let x := s.sys.chip.port p
    onlyLink p s t ∧ x.intervalAt + Config.ms x.retryInterval.toNat ≤ t.sys.now ∧
      (t.sys.chip.port p).intervalEvents = 0 ∧
      t.sys.chip.fc.raised = s.sys.chip.fc.raised ++
        if x.retryLimit.toNat < x.intervalEvents ∧ x.rateRaised = false then [⟨26, .port p⟩] else [] := by
  rw [exec_fabRetryRate, execFabRetryRate]
  exact gives_interval (fun x => Config.ms x.retryInterval.toNat) (fun _ => rfl) h

end

/-- Settles O27. -/
theorem linkLimitsAndRetrains : Obligations.LinkLimitsAndRetrains := by
  unfold Obligations.LinkLimitsAndRetrains
  refine ⟨fun s p => ⟨detectTimeout_settled, trainPhaseTimeout_settled, retrainTimeout_settled, downTimeout_settled⟩,
    fun s p => ⟨laneFail_settled, retrainPatternSeen_settled, fun m => retrainDone_settled m, replayTimeout_settled,
      fabRetryRate_settled⟩⟩

end Sys2Proof.Machine
end

section
/-! PROOFS. The time tree out of run state (11 R279-R288), and O28: the port's control registers (09 Table 09-10). -/

namespace Sys2Proof.Machine

/-! A chip's place in the time tree. -/

/-- Only the time base and the collector change. -/
def TimeStep (c d : Chip) : Prop := d = { c with time := d.time, fc := d.fc }

section
variable {c d e : Chip}

theorem TimeStep.refl (c : Chip) : TimeStep c c := rfl

theorem TimeStep.trans (h : TimeStep c d) (k : TimeStep d e) : TimeStep c e := by
  unfold TimeStep at *
  rw [k, h]

theorem timeStep_time (t : TimeRegs) (c : Chip) : TimeStep c { c with time := t } := rfl

theorem timeStep_fc (k : Collector) (c : Chip) : TimeStep c { c with fc := k } := rfl

theorem timeStep_becomeRoot (now : Nat) (c : Chip) : TimeStep c (becomeRoot now c) := rfl

theorem timeStep_takeParent (p : PortId) (now : Nat) (c : Chip) : TimeStep c (takeParent p now c) := rfl

theorem startAbort_stopped (cause : Nat) (h : c.map.run = false) : startAbort cause c = c := by
  simp [startAbort, h]

/-- The chip on holdover, before any run ends for it (11 R281). -/
def heldOver (now : Nat) (c : Chip) : Chip :=
  { c with time := { c.time with role := 2, locked := false } }.assert 31 .chip now

theorem loseLock_eq (now : Nat) (c : Chip) : loseLock now c = startAbort 8 (heldOver now c) := rfl

theorem timeStep_heldOver (now : Nat) (c : Chip) : TimeStep c (heldOver now c) := rfl

theorem loseLock_stopped (now : Nat) (h : c.map.run = false) : loseLock now c = heldOver now c := by
  rw [loseLock_eq]
  exact startAbort_stopped _ h

theorem timeStep_takePlace (now : Nat) (h : c.map.run = false) : TimeStep c (takePlace now c) := by
  unfold takePlace
  split
  · exact timeStep_becomeRoot ..
  split
  · exact timeStep_takeParent ..
  · rw [loseLock_stopped now h]
    exact timeStep_heldOver ..

theorem timeStep_refreshRole (now : Nat) (h : c.map.run = false) : TimeStep c (refreshRole now c) := by
  unfold refreshRole
  split
  · split
    · exact .refl c
    · exact timeStep_becomeRoot ..
  · split
    · exact (timeStep_time _ c).trans (timeStep_takePlace now h)
    · exact .refl c

end

/-! The port's control fields. -/

section
variable {s : State} {p : PortId}

theorem portEnable_same : exec (.portEnable p (s.sys.chip.port p).enable) s = .next s := by
  rw [exec_portEnable, execPortEnable, onSys_onChip]
  have h : writePortEnable p (s.sys.chip.port p).enable s.sys.now s.sys.chip = s.sys.chip := by simp [writePortEnable]
  rw [withChip_congr (g := id) h]
  rfl

theorem classWrite_same {k : BitVec 2} (h : p.val < 4 ∨ k = (s.sys.chip.port p).cls) :
    exec (.classWrite p k) s = .next s := by
  rw [exec_classWrite, execClassWrite, onSys_onChip]
  have hsame : writePortClass p k s.sys.now s.sys.chip = s.sys.chip := by
    rw [writePortClass, if_pos]
    rcases h with h | rfl <;> simp_all
  rw [withChip_congr (g := id) hsame]
  rfl

theorem classWrite_differs {k : BitVec 2} (hp : 4 ≤ p.val) (hk : k ≠ (s.sys.chip.port p).cls) :
    ¬(decide (p.val < 4) || (s.sys.chip.port p).cls == k) = true := by
  have hne : ¬(p.val < 4 ∨ (s.sys.chip.port p).cls = k) := by
    rintro (h | h)
    · omega
    · exact hk h.symm
  simpa using hne

theorem portWrites_run (hrun : s.sys.chip.map.run = true) :
    exec (.portEnable p (!(s.sys.chip.port p).enable)) s = .next (s.withChip (Chip.cfgDiscard (0x4000 + p.val * 0x200))) ∧
    exec (.retrain p) s = .next (s.withChip (Chip.cfgDiscard (0x4000 + p.val * 0x200))) ∧
    ∀ k, 4 ≤ p.val → k ≠ (s.sys.chip.port p).cls →
      exec (.classWrite p k) s = .next (s.withChip (Chip.cfgDiscard (0x4000 + p.val * 0x200))) := by
  rw [exec_portEnable, execPortEnable, onSys_onChip, exec_retrain, execRetrain, onSys_onChip]
  refine ⟨congrArg _ (withChip_congr ?_), congrArg _ (withChip_congr ?_), fun k hp hk => ?_⟩
  · rw [writePortEnable, if_neg (by simp), if_pos hrun, portCtl]
  · rw [writePortRetrain, if_pos hrun, portCtl]
  · rw [exec_classWrite, execClassWrite, onSys_onChip]
    refine congrArg _ (withChip_congr ?_)
    rw [writePortClass, if_neg (classWrite_differs hp hk), if_pos hrun, portCtl]

/-- A step of the port into a state. -/
theorem enters_of {f : Chip → Chip} {d : Chip} {st : PortState} (h : f s.sys.chip = d) (hstep : LinkStep p s.sys.chip d)
    (hst : (d.port p).st = st) :
    Gives (.next (s.withChip f)) fun t => onlyLink p s t ∧ (t.sys.chip.port p).st = st := by
  subst h
  exact ⟨_, rfl, onlyLink_step hstep, hst⟩

theorem portDisable_enters (hrun : s.sys.chip.map.run = false) (henable : (s.sys.chip.port p).enable = true) :
    Gives (exec (.portEnable p false) s) fun t => onlyLink p s t ∧ (t.sys.chip.port p).st = .disabled := by
  rw [exec_portEnable, execPortEnable, onSys_onChip]
  refine enters_of (d := enterDisabled p s.sys.now (s.sys.chip.onPort p fun x => { x with enable := false })) ?_
    ((linkStep_onPort ..).trans (linkStep_enterDisabled ..)) (by rw [enterDisabled_port])
  rw [writePortEnable, if_neg (by simp [henable]), if_neg (by simp [hrun]), if_neg (by simp)]

theorem portEnable_enters (hrun : s.sys.chip.map.run = false) (henable : (s.sys.chip.port p).enable = false)
    (hon : s.sys.chip.domOn (portDomain p) = true) (hclass : classAllowed p (s.sys.chip.port p).cls = true) :
    Gives (exec (.portEnable p true) s) fun t => onlyLink p s t ∧ (t.sys.chip.port p).st = .detect := by
  rw [exec_portEnable, execPortEnable, onSys_onChip]
  refine enters_of (d := enterDetect p s.sys.now (s.sys.chip.onPort p fun x => { x with enable := true })) ?_
    ((linkStep_onPort ..).trans (linkStep_enterDetect ..)) ?_
  · rw [writePortEnable, if_neg (by simp [henable]), if_neg (by simp [hrun]), if_pos rfl]
  · exact enterDetect_st _ _ _ (by rw [Chip.onPort_same]) hon (by rw [Chip.onPort_same]; exact hclass)

theorem retrain_enters (hrun : s.sys.chip.map.run = false) (hst : (s.sys.chip.port p).st ≠ .disabled)
    (henable : (s.sys.chip.port p).enable = true)
    (hon : s.sys.chip.domOn (portDomain p) = true) (hclass : classAllowed p (s.sys.chip.port p).cls = true) :
    Gives (exec (.retrain p) s) fun t => onlyLink p s t ∧ (t.sys.chip.port p).st = .detect := by
  rw [exec_retrain, execRetrain, onSys_onChip]
  refine enters_of (d := (enterDetect p s.sys.now s.sys.chip).onPort p fun x => { x with retrainReq := x.st == .detect }) ?_
    ((linkStep_enterDetect ..).trans (linkStep_onPort ..)) ?_
  · rw [writePortRetrain, if_neg (by simp [hrun]), if_neg (by simpa using hst)]
  · rw [Chip.onPort_same]
    exact enterDetect_st _ _ _ henable hon hclass

theorem classWrite_enters (k : BitVec 2) (hrun : s.sys.chip.map.run = false) (hp : 4 ≤ p.val)
    (hk : k ≠ (s.sys.chip.port p).cls) (henable : (s.sys.chip.port p).enable = true)
    (hon : s.sys.chip.domOn (portDomain p) = true) (hclass : classAllowed p k = true) :
    Gives (exec (.classWrite p k) s) fun t => onlyLink p s t ∧ (t.sys.chip.port p).st = .detect := by
  rw [exec_classWrite, execClassWrite, onSys_onChip]
  refine enters_of (d := enterDetect p s.sys.now (s.sys.chip.onPort p fun x => { x with cls := k })) ?_
    ((linkStep_onPort ..).trans (linkStep_enterDetect ..)) ?_
  · rw [writePortClass, if_neg (classWrite_differs hp hk), if_neg (by simp [hrun])]
  · exact enterDetect_st _ _ _ (by rw [Chip.onPort_same]; exact henable) hon (by rw [Chip.onPort_same]; exact hclass)

/-! A new tray index (10 R277). -/

theorem tellPartners_eq (c : Chip) : tellPartners c =
    { c with fab := { c.fab with ports := Vector.ofFn fun q =>
      { c.port q with linkDue := (c.port q).linkDue || (c.port q).carries } } } := by
  rw [tellPartners, allPorts, foldl_onPort _ _ (List.nodup_finRange 8)]
  simp

theorem writeTrayIndex_stopped (v : Word) (y : Sys) (hrun : y.chip.map.run = false)
    (hnew : y.chip.fab.trayIdx ≠ BitVec.ofNat 9 (v.toNat / 16)) : writeTrayIndex v y =
    y.onChip fun c => tellPartners { c with fab := { c.fab with trayIdx := BitVec.ofNat 9 (v.toNat / 16) } } := by
  have hfield : natField v.toNat 4 9 = v.toNat / 16 % 512 := by simp [natField, Nat.shiftRight_eq_div_pow]
  have hidx : BitVec.ofNat 9 (v.toNat / 16 % 512) = BitVec.ofNat 9 (v.toNat / 16) :=
    BitVec.eq_of_toNat_eq (by simp)
  have hne : ¬(y.chip.fab.trayIdx.toNat == v.toNat / 16 % 512) = true := by
    intro h
    refine hnew (BitVec.eq_of_toNat_eq ?_)
    simpa using h
  unfold writeTrayIndex
  dsimp only
  rw [hfield, if_neg hne, if_neg (by simp [hrun]), hidx]

theorem writeReg_trayIndex (v : Word) (y : Sys) :
    writeReg 0x4180 v y = (writeTrayIndex v y).onChip (refreshRole y.now) := rfl

theorem trayIndexWrite_settled (v : Word) (hr : s.sys.chip.pwr.retention = false) (hrun : s.sys.chip.map.run = false)
    (hnew : s.sys.chip.fab.trayIdx ≠ BitVec.ofNat 9 (v.toNat / 16)) :
    Gives (exec (.trayIndexWrite v) s) fun t => keepsMemory s t ∧ t.sys.out = s.sys.out ∧
      t.sys.chip.map = s.sys.chip.map ∧ t.sys.chip.cmp.tiles = s.sys.chip.cmp.tiles ∧
      t.sys.chip.fab.trayIdx = BitVec.ofNat 9 (v.toNat / 16) ∧
      ∀ q, t.sys.chip.port q = { s.sys.chip.port q with
        linkDue := (s.sys.chip.port q).linkDue || (s.sys.chip.port q).carries } := by
  have hnext : exec (.trayIndexWrite v) s = .next (s.withChip fun c => refreshRole s.sys.now (tellPartners
      { wakeAccess s.sys.now c with
        fab := { (wakeAccess s.sys.now c).fab with trayIdx := BitVec.ofNat 9 (v.toNat / 16) } })) := by
    rw [exec_trayIndexWrite, execTrayIndexWrite, onSys_eq, chipWrite_reached _ _ hr, writeReg_trayIndex,
      writeTrayIndex_stopped _ _ (by simpa [Sys.onChip] using hrun) (by simpa [Sys.onChip] using hnew)]
    rfl
  rw [hnext]
  refine ⟨_, rfl, ⟨rfl, rfl⟩, rfl, ?_⟩
  dsimp only [State.withChip]
  have hrun' : (wakeAccess s.sys.now s.sys.chip).map.run = false := by simpa using hrun
  rw [timeStep_refreshRole s.sys.now (c := tellPartners _) (by rw [tellPartners_eq]; exact hrun'), tellPartners_eq]
  simp [Chip.port]

end

/-- Settles O28. -/
theorem portControlWrites : Obligations.PortControlWrites := by
  unfold Obligations.PortControlWrites
  intro s p c x ready discards enters
  refine ⟨fun e he => ?_, portWrites_run, fun k hk => classWrite_same hk, fun hrun => ⟨?_, ?_, ?_, ?_⟩,
    fun v hr hrun hnew => trayIndexWrite_settled v hr hrun hnew⟩
  · rw [he]; exact portEnable_same
  · exact portDisable_enters hrun
  · exact portEnable_enters hrun
  · exact retrain_enters hrun
  · exact fun k => classWrite_enters k hrun

end Sys2Proof.Machine
end

section
/-! PROOFS. Frames that a port has received (10 R252, R271), and O32: segments and host-injected frames on their way. -/

namespace Sys2Proof.Machine

/-! Frames whose receive pad is over. -/

section
variable {y : Sys} {p : PortId}

theorem admitPort_over (now : Nat) {c : Chip} (h : (c.port p).padOver) : admitPort now p c = c := by
  have hall : ((c.port p).ingress.all fun i => i.gate.isSome) = true := List.all_eq_true.mpr h
  rw [admitPort, if_pos hall]

/-- Nothing is waited for once no frame is in its receive pad. -/
theorem awaitFrame_over (is : InFrame → Bool) (h : (y.chip.port p).padOver) : y.awaitFrame p is = y := by
  unfold Sys.awaitFrame
  split
  · rename_i i hi
    have hgate : i.gate.isNone = false := by
      have := h i (List.mem_of_find?_eq_some hi)
      simpa [Option.isNone_iff_eq_none, Option.isSome_iff_ne_none] using this
    rw [hgate]
    dsimp only [Sys.awaitIf, Bool.false_eq_true, if_false, Sys.onChip]
    rw [if_neg (by simp), admitPort_over _ h]
  · rfl

theorem hostFirst_some {op : Nat} {x : Port} {f : Frame} (h : hostFirst op x = some f) :
    ∃ i, firstOfKind 1 x = some i ∧ i.frame = f ∧ opOf f.msg = op := by
  unfold hostFirst at h
  split at h
  next i hi =>
    split at h
    next hop =>
      obtain rfl := Option.some.inj h
      exact ⟨i, hi, rfl, by simpa using hop⟩
    next => cases h
  next => cases h

end

/-! Where a host-injected frame goes (10 R263). -/

section
variable {c : Chip} {dest hops n : Nat} {p : PortId}

theorem hostHop_room (hroute : hostRoute c.fab dest = some p) (hhops : hops < 63) (hup : (c.port p).st = .up)
    (hroom : (c.port p).host.length + n ≤ 16) : hostHop c dest hops n = .port p := by
  simp only [hostHop, hroute]
  rw [if_neg (by simp [hup]; omega), if_pos hroom]

theorem hostHop_full (hroute : hostRoute c.fab dest = some p) (hhops : hops < 63) (hup : (c.port p).st = .up)
    (hroom : 16 < (c.port p).host.length + n) : hostHop c dest hops n = .full := by
  simp only [hostHop, hroute]
  rw [if_neg (by simp [hup]; omega), if_neg (by omega)]

end

/-! SEGMENT_ISSUE. -/

section
variable {s : State}

/-- The oldest segment has become a transaction. -/
def segmentTaken (rest : List Segment) (g : Segment) (tag : Nat) (c : Chip) : Chip :=
  { c with fab := { c.fab with
    waiting := rest
    txns := c.fab.txns ++ [⟨tag, g, none, none⟩] } }

/-- The frames of a segment's request. -/
def requestFrames (self : Nat) (g : Segment) (tag : Nat) : List Frame :=
  let req := hostFrame (if g.write then 1 else 0) g.dest.toNat self tag 0 1 (requestLine g)
  if g.write then [req, hostFrame 2 g.dest.toNat self tag 0 1 g.data] else [req]

theorem issueSegment_own {y : Sys} {g : Segment} {rest : List Segment} {tag : Nat} (hw : y.chip.fab.waiting = g :: rest)
    (ht : freeTag y.chip.fab = some tag) (hself : g.dest.toNat = y.chip.self) :
    issueSegment y = y.onChip (segmentTaken rest g tag) := by
  simp only [issueSegment, hw, ht]
  rw [if_pos (by simpa using hself)]
  rfl

theorem issueSegment_sent {y : Sys} {g : Segment} {rest : List Segment} {tag : Nat} {p : PortId}
    (hw : y.chip.fab.waiting = g :: rest) (ht : freeTag y.chip.fab = some tag) (hself : g.dest.toNat ≠ y.chip.self)
    (hhop : hostHop y.chip g.dest.toNat 0 (requestFrames y.chip.self g tag).length = .port p) :
    issueSegment y = y.onChip fun c => (segmentTaken rest g tag c).onPort p fun x =>
      { x with host := x.host ++ requestFrames y.chip.self g tag } := by
  unfold requestFrames at *
  simp only [issueSegment, hw, ht]
  rw [if_neg (by simpa using hself)]
  dsimp only at hhop
  rw [hhop]
  rfl

theorem issueSegment_full {y : Sys} {g : Segment} {rest : List Segment} {tag : Nat}
    (hw : y.chip.fab.waiting = g :: rest) (ht : freeTag y.chip.fab = some tag) (hself : g.dest.toNat ≠ y.chip.self)
    (hhop : hostHop y.chip g.dest.toNat 0 (requestFrames y.chip.self g tag).length = .full) : issueSegment y = y := by
  unfold requestFrames at hhop
  simp only [issueSegment, hw, ht]
  rw [if_neg (by simpa using hself)]
  dsimp only at hhop
  rw [hhop]

/-! Frames for another chip. -/

/-- A request, data or a response for another chip goes the same way: it is forwarded. -/
theorem forwards {p : PortId} {f : Frame} {r : Result} (hpad : (s.sys.chip.port p).padOver)
    (hr : (hostFirst 0 (s.sys.chip.port p) = some f ∧ r = exec (.rreq (.port p)) s) ∨
      (hostFirst 1 (s.sys.chip.port p) = some f ∧ r = exec (.wreq (.port p)) s) ∨
      (hostFirst 2 (s.sys.chip.port p) = some f ∧ r = exec (.wdata (.port p)) s) ∨
      (hostFirst 3 (s.sys.chip.port p) = some f ∧ r = exec (.rresp (.port p)) s) ∨
      (hostFirst 4 (s.sys.chip.port p) = some f ∧ r = exec (.wresp (.port p)) s))
    (hother : destOf f ≠ s.sys.chip.self) : r = .next (s.withChip (forwardHost p f)) := by
  have hrequest (op : Nat) (h : hostFirst op (s.sys.chip.port p) = some f) :
      takeRequest p op s.mem s.sys = (s.mem, s.sys.onChip (forwardHost p f)) := by
    obtain ⟨i, hi, rfl, hop⟩ := hostFirst_some h
    simp only [takeRequest, hi]
    rw [if_neg (by simp [hop]), if_pos (by simpa using hother)]
  have hresponse (write : Bool) (h : hostFirst (if write then 4 else 3) (s.sys.chip.port p) = some f) :
      passResponse write p s.sys = s.sys.onChip (forwardHost p f) := by
    simp only [passResponse, h]
    rw [if_neg (by simpa using hother)]
  rcases hr with ⟨h, rfl⟩ | ⟨h, rfl⟩ | ⟨h, rfl⟩ | ⟨h, rfl⟩ | ⟨h, rfl⟩
  · rw [exec_rreq, execRreq, onMemSys]
    dsimp only
    rw [awaitFrame_over _ hpad, hrequest 0 h]
    rfl
  · rw [exec_wreq, execWreq, onMemSys]
    dsimp only
    rw [awaitFrame_over _ hpad, hrequest 1 h]
    rfl
  · rw [exec_wdata, execWdata, onMemSys]
    dsimp only
    rw [awaitFrame_over _ hpad, hrequest 2 h]
    rfl
  · rw [exec_rresp, execRresp, onSys_eq]
    dsimp only
    rw [awaitFrame_over _ hpad, hresponse false h]
    rfl
  · rw [exec_wresp, execWresp, onSys_eq]
    dsimp only
    rw [awaitFrame_over _ hpad, hresponse true h]
    rfl

end

/-- Settles O32. -/
theorem segmentsLeaveAndPassOn : Obligations.SegmentsLeaveAndPassOn := by
  unfold Obligations.SegmentsLeaveAndPassOn
  constructor
  · intro s g rest tag c hw ht queued req frames
    refine ⟨fun hself => ?_, fun p hself hroute hup => ⟨fun hroom => ?_, fun hroom => ?_⟩⟩
    · rw [exec_segmentIssue, execSegmentIssue, onSys_eq, issueSegment_own hw ht hself]
      rfl
    · rw [exec_segmentIssue, execSegmentIssue, onSys_eq,
        issueSegment_sent hw ht hself (hostHop_room hroute (by decide) hup hroom)]
      rfl
    · rw [exec_segmentIssue, execSegmentIssue, onSys_eq,
        issueSegment_full hw ht hself (hostHop_full hroute (by decide) hup hroom)]
  · intro s p out f r c hpad hr hother hroute hhops hup on
    rw [forwards hpad hr hother]
    refine ⟨fun hroom => congrArg _ (withChip_congr ?_), fun hroom => ?_⟩
    · rw [forwardHost, hostHop_room hroute hhops hup hroom]
      rfl
    · have hstay : forwardHost p f s.sys.chip = s.sys.chip := by
        rw [forwardHost, hostHop_full hroute hhops hup (Nat.lt_succ_of_le hroom)]
      rw [withChip_congr (g := id) hstay]
      rfl

end Sys2Proof.Machine
end

section
/-! PROOFS. What a completion changes (13 R350, R367-R371), and O34: the end of transactions, and management frames. -/

namespace Sys2Proof.Machine

/-! A step of the host interface. -/

/-- Only the host interface and what is raised, which grows. -/
structure HifStep (c d : Chip) : Prop where
  eq : d = { c with
    fc := { c.fc with raised := d.fc.raised }
    hif := d.hif }
  raised : ∀ r ∈ c.fc.raised, r ∈ d.fc.raised

section
variable {c d e : Chip}

theorem HifStep.refl (c : Chip) : HifStep c c := ⟨rfl, fun _ h => h⟩

theorem HifStep.trans (h : HifStep c d) (k : HifStep d e) : HifStep c e :=
  ⟨by rw [k.eq, h.eq], fun r hr => k.raised r (h.raised r hr)⟩

theorem HifStep.ite {q : Prop} [Decidable q] (hd : HifStep c d) (he : HifStep c e) : HifStep c (if q then d else e) := by
  split
  · exact hd
  · exact he

theorem hifStep_hif (h : HostIf) (c : Chip) : HifStep c { c with hif := h } := ⟨rfl, fun _ h => h⟩

theorem hifStep_raise (n : Nat) (o : Owner) (c : Chip) : HifStep c (c.raise n o) :=
  ⟨by simp only [Chip.raise, Collector.raise]; split <;> rfl, fun r h => raised_raise n o c r h⟩

theorem HifStep.fab (h : HifStep c d) : d.fab = c.fab := by rw [h.eq]
theorem HifStep.cmp (h : HifStep c d) : d.cmp = c.cmp := by rw [h.eq]
theorem HifStep.pwr (h : HifStep c d) : d.pwr = c.pwr := by rw [h.eq]
theorem HifStep.map (h : HifStep c d) : d.map = c.map := by rw [h.eq]
theorem HifStep.time (h : HifStep c d) : d.time = c.time := by rw [h.eq]
theorem HifStep.mgt (h : HifStep c d) : d.mgt = c.mgt := by rw [h.eq]
theorem HifStep.srch (h : HifStep c d) : d.srch = c.srch := by rw [h.eq]

end

section
variable (q : QpId) (c : Chip)

theorem hifStep_onQp (f : QueuePair → QueuePair) : HifStep c (c.onQp q f) := hifStep_hif ..

theorem hifStep_hifErr (src cause : Nat) : HifStep c (c.hifErr src cause q) := by
  unfold Chip.hifErr
  exact (hifStep_hif ..).trans (hifStep_raise ..)

theorem hifStep_hifDrop : HifStep c (c.hifDrop q) := by
  unfold Chip.hifDrop
  exact .ite (hifStep_hif ..) (((hifStep_hif _ c).trans (hifStep_hif ..)).trans (hifStep_hifErr ..))

theorem hifStep_postFrom (due cid status r0 r1 r2 : Nat) : HifStep c (postFrom due q cid status r0 r1 r2 c) := by
  unfold postFrom
  exact .ite (.refl c) (.ite (hifStep_hifDrop ..) (.ite (hifStep_hifErr ..) (hifStep_hif ..)))

theorem hifStep_postCompletion (cid status r0 r1 r2 : Nat) : HifStep c (postCompletion q cid status r0 r1 r2 c) :=
  hifStep_postFrom ..

theorem hifStep_endEntry (e : QEntry) (status r0 r1 r2 : Nat) : HifStep c (endEntry q e status r0 r1 r2 c) :=
  (hifStep_onQp ..).trans (hifStep_postCompletion ..)

theorem hifStep_endGlobal (e : QEntry) : HifStep c (endGlobal q e c) := by
  unfold endGlobal
  split <;> exact hifStep_endEntry ..

end

/-! Segments that end. -/

section
variable {y z : Sys}

/-- Only the host interface, what is raised, and the outputs. -/
structure HifSys (y z : Sys) : Prop where
  eq : z = { y with
    chip := z.chip
    out := z.out }
  chip : HifStep y.chip z.chip

theorem hifSys_emit (o : Output) (y : Sys) : HifSys y (y.emit o) := ⟨rfl, .refl _⟩

theorem HifSys.onChip (h : HifSys y z) {f : Chip → Chip} (hf : HifStep z.chip (f z.chip)) : HifSys y (z.onChip f) :=
  ⟨by rw [h.eq]; rfl, h.chip.trans hf⟩

theorem segmentDone_hif (g : Segment) (status : Nat) (data : Line) (y : Sys) : HifSys y (segmentDone g status data y) := by
  unfold segmentDone
  split
  · exact ⟨rfl, .refl _⟩
  · extract_lets z e
    have hz : HifSys y z := by
      unfold z
      split
      · exact hifSys_emit ..
      · exact ⟨rfl, .refl _⟩
    refine hz.onChip ?_
    exact .ite ((hifStep_onQp ..).trans (hifStep_endGlobal ..)) (hifStep_onQp ..)

/-- The engine without the transaction. -/
def txnGone (x : Txn) (c : Chip) : Chip := c.onTxns fun xs => xs.filter fun z => z.tag != x.tag

theorem endTxn_hif (x : Txn) (status : Nat) (data : Line) (y : Sys) : HifSys (y.onChip (txnGone x)) (endTxn x status data y) :=
  segmentDone_hif ..

end

/-! A transaction's end. -/

section
variable {s : State} {p : PortId} {f : Frame}

/-- A response for this chip. -/
theorem response_next (write : Bool) (hself : destOf f = s.sys.chip.self) (hpad : (s.sys.chip.port p).padOver)
    (h : hostFirst (if write then 4 else 3) (s.sys.chip.port p) = some f) :
    passResponse write p (s.sys.awaitFrame p (isKind 1)) = takeResponse write p f s.sys := by
  rw [awaitFrame_over _ hpad]
  simp only [passResponse, h]
  rw [if_pos (by simpa using hself)]

theorem rresp_next (hself : destOf f = s.sys.chip.self) (hpad : (s.sys.chip.port p).padOver)
    (h : hostFirst 3 (s.sys.chip.port p) = some f) :
    exec (.rresp (.port p)) s = .next { s with sys := takeResponse false p f s.sys } := by
  rw [exec_rresp, execRresp, onSys_eq]
  dsimp only
  rw [response_next false hself hpad h]

theorem wresp_next (hself : destOf f = s.sys.chip.self) (hpad : (s.sys.chip.port p).padOver)
    (h : hostFirst 4 (s.sys.chip.port p) = some f) :
    exec (.wresp (.port p)) s = .next { s with sys := takeResponse true p f s.sys } := by
  rw [exec_wresp, execWresp, onSys_eq]
  dsimp only
  rw [response_next true hself hpad h]

/-- A transaction that a response can complete. -/
def awaitsResponse (write : Bool) (f : Frame) (c : Chip) (x : Txn) : Prop :=
  x.tag = tagOf f ∧ x.seg.write = write ∧ x.wonAt.isSome = true ∧ ownTxn c x = false

theorem takeResponse_completes (write : Bool) {y : Sys} {x : Txn} (hx : y.chip.fab.txns = [x])
    (h : awaitsResponse write f y.chip x) : takeResponse write p f y =
      endTxn x (xferStatus (statusOf f)) f.payload (y.onChip fun c => c.onPort p (popKind 1)) := by
  obtain ⟨htag, hwrite, hwon, hown⟩ := h
  have hfind : [x].find? (fun x => x.tag == tagOf f && x.seg.write == write && x.wonAt.isSome &&
      !ownTxn (y.onChip fun c => c.onPort p (popKind 1)).chip x) = some x := by
    rw [List.find?_singleton, if_pos]
    simp [htag, hwrite, hwon]
    exact hown
  unfold takeResponse
  dsimp only
  rw [show (y.onChip fun c => c.onPort p (popKind 1)).chip.fab.txns = [x] from hx, hfind]

theorem takeResponse_dropped (write : Bool) {y : Sys} (h : ∀ x ∈ y.chip.fab.txns, ¬awaitsResponse write f y.chip x) :
    takeResponse write p f y = (y.onChip fun c => c.onPort p (popKind 1)).onChip fun c =>
      { c with fab := { c.fab with hostDrop := satInc c.fab.hostDrop } } := by
  have hfind : (y.onChip fun c => c.onPort p (popKind 1)).chip.fab.txns.find? (fun x => x.tag == tagOf f &&
      x.seg.write == write && x.wonAt.isSome && !ownTxn (y.onChip fun c => c.onPort p (popKind 1)).chip x) = none := by
    refine List.find?_eq_none.mpr fun x hx hopen => h x hx ?_
    simp only [Bool.and_eq_true, beq_iff_eq, Bool.not_eq_true'] at hopen
    obtain ⟨⟨⟨htag, hwrite⟩, hwon⟩, hown⟩ := hopen
    exact ⟨htag, hwrite, hwon, hown⟩
  unfold takeResponse
  dsimp only
  rw [hfind]

/-- The only transaction ends once time has passed. -/
theorem endTxn_late (n status : Nat) {x : Txn} (hx : s.sys.chip.fab.txns = [x]) :
    let z := endTxn x status Line.zero (s.sys.await n)
    z.chip.fab.txns = [] ∧ n ≤ z.now ∧ z.chip.cmp.tiles = s.sys.chip.cmp.tiles := by
  intro z
  have h := endTxn_hif x status Line.zero (s.sys.await n)
  refine ⟨?_, ?_, ?_⟩
  · rw [h.chip.fab]
    simp [txnGone, Chip.onTxns, Sys.onChip, hx]
  · have hnow : z.now = (s.sys.await n).now := by unfold z; rw [h.eq]; rfl
    rw [hnow]
    exact le_await ..
  · rw [h.chip.cmp]
    simp [txnGone, Chip.onTxns, Sys.onChip]

/-- TIMEOUT of a transaction whose request has left. -/
theorem transactionTimeout_settled (tag : Fin 256) (x : Txn) (w : Nat) (hx : s.sys.chip.fab.txns = [x])
    (htag : x.tag = tag.val) (hw : x.wonAt = some w) : Gives (exec (.transactionTimeout tag) s) fun t =>
      t.mem = s.mem ∧ t.sys.chip.fab.txns = [] ∧ w + hostLimit s.sys.chip ≤ t.sys.now ∧
        t.sys.chip.cmp.tiles = s.sys.chip.cmp.tiles := by
  have hfind : s.sys.chip.fab.txns.find? (fun x => x.tag == tag.val) = some x := by
    rw [hx, List.find?_singleton, if_pos (by simp [htag])]
  rw [exec_transactionTimeout, execTransactionTimeout, onSys_eq]
  simp only [hfind, hw]
  exact ⟨_, rfl, rfl, endTxn_late _ 17 hx⟩

/-- The only request that waits is dropped once time has passed. -/
theorem dropped_late (n : Nat) :
    let z := (s.sys.await n).onChip fun c => { c with fab := { c.fab with responder := [] } }
    n ≤ z.now ∧ z.chip.fab = { s.sys.chip.fab with responder := [] } ∧ z.chip.cmp.tiles = s.sys.chip.cmp.tiles := by
  refine ⟨le_await .., ?_, await_cmp_tiles ..⟩
  dsimp only [Sys.onChip]
  rw [await_fab]

/-- TIMEOUT of a write request whose data has not come. -/
theorem wreqTimeout_settled (src : ChipNo) (tag : Fin 256) (x : RespTxn) (hx : s.sys.chip.fab.responder = [x])
    (hwrite : x.write = true) (hdata : x.data = none) (hsrc : x.src = src) (htag : x.tag = tag.val) :
    Gives (exec (.wreqTimeout src tag) s) fun t => t.mem = s.mem ∧
      x.at_ + hostLimit s.sys.chip ≤ t.sys.now ∧
      t.sys.chip.fab = { s.sys.chip.fab with responder := [] } ∧ t.sys.chip.cmp.tiles = s.sys.chip.cmp.tiles := by
  obtain ⟨is, his⟩ : ∃ is : RespTxn → Bool, is = fun r => r.write && r.data.isNone && r.src == src && r.tag == tag.val :=
    ⟨_, rfl⟩
  have hit : is x = true := by simp [his, hwrite, hdata, hsrc, htag]
  have hfind : s.sys.chip.fab.responder.find? is = some x := by rw [hx, List.find?_singleton, if_pos hit]
  have hgone (n : Nat) : ((s.sys.await n).onChip fun c =>
      { c with fab := { c.fab with responder := c.fab.responder.eraseP is } }) =
      (s.sys.await n).onChip fun c => { c with fab := { c.fab with responder := [] } } := by
    dsimp only [Sys.onChip]
    rw [await_fab, hx, List.eraseP_cons_of_pos hit]
  have hserve (n : Nat) : serveAll s.mem ((s.sys.await n).onChip fun c => { c with fab := { c.fab with responder := [] } }) =
      (s.mem, (s.sys.await n).onChip fun c => { c with fab := { c.fab with responder := [] } }) := rfl
  rw [exec_wreqTimeout, execWreqTimeout, onMemSys]
  simp only [← his, hfind, hgone, hserve]
  exact ⟨_, rfl, rfl, dropped_late _⟩

/-! Management frames. -/

theorem managementSent (msg : Dword) (l : Line) (hcsc : cscRuns s.sys.chip = true) (hup : (s.sys.chip.port p).st = .up)
    (hroom : (s.sys.chip.port p).mgmt.length < 4) :
    exec (.managementFrame p (some (msg, l))) s =
      .next (s.withChip (Chip.onPort p fun x => { x with mgmt := x.mgmt ++ [⟨1, l, msg ||| 3⟩] })) := by
  rw [exec_managementFrame, execManagementFrame, onSys_eq]
  dsimp only
  rw [if_pos (by simp [hup, hroom, hcsc])]
  rfl

theorem managementTaken {i : InFrame} (hcsc : cscRuns s.sys.chip = true) (hpad : (s.sys.chip.port p).padOver)
    (h : firstOfKind 3 (s.sys.chip.port p) = some i) :
    exec (.managementFrame p none) s =
      .next ((s.withChip (Chip.onPort p (popKind 3))).puts (.csc p i.frame.msg i.frame.payload)) := by
  have hruns : cscRuns (s.sys.onChip (Chip.onPort p (popKind 3))).chip = true := hcsc
  rw [exec_managementFrame, execManagementFrame, onSys_eq]
  dsimp only
  rw [awaitFrame_over _ hpad, h]
  dsimp only
  rw [if_pos hruns]
  rfl

end

/-- Settles O34. -/
theorem transactionsEndAndManagementPasses : Obligations.TransactionsEndAndManagementPasses := by
  unfold Obligations.TransactionsEndAndManagementPasses
  refine ⟨fun s p f => ?_, fun s p hcsc => ⟨fun msg l => managementSent msg l hcsc, fun i => managementTaken hcsc⟩⟩
  intro c popped ends
  have hends (write : Bool) {r : Result} (hr : r = .next { s with sys := takeResponse write p f s.sys }) :
      ends write r := by
    subst hr
    refine ⟨fun x hx hopen => ?_, fun hnone => ?_⟩
    · rw [takeResponse_completes write hx hopen]
      rfl
    · rw [takeResponse_dropped write hnone]
      rfl
  refine ⟨fun hself hpad => ⟨fun h => hends false (rresp_next hself hpad h), fun h => hends true (wresp_next hself hpad h)⟩,
    fun tag x w => transactionTimeout_settled tag x w, fun src tag x => wreqTimeout_settled src tag x⟩

end Sys2Proof.Machine
end

section
/-! PROOFS. O33: the responder (10 R260, R262) and the own transactions (10 R261, R264). -/

namespace Sys2Proof.Machine

/-! The fields of a host-injected frame (10 Table 10-2). -/

section
variable (op dest src tag status hops : Nat) (payload : Line)

theorem hostFrame_msg (hop : op < 8) : (hostFrame op dest src tag status hops payload).msg.toNat =
    1 + op * 2 ^ 2 + dest % 2 ^ 13 * 2 ^ 5 + src % 2 ^ 13 * 2 ^ 18 + tag % 256 * 2 ^ 31
      + status % 8 * 2 ^ 39 + hops % 64 * 2 ^ 42 := by
  simp only [hostFrame, BitVec.toNat_ofNat]
  omega

theorem destOf_hostFrame (hop : op < 8) : destOf (hostFrame op dest src tag status hops payload) = dest % 2 ^ 13 := by
  rw [destOf, hostFrame_msg _ _ _ _ _ _ _ hop, natField, Nat.shiftRight_eq_div_pow]
  omega

theorem srcOf_hostFrame (hop : op < 8) : srcOf (hostFrame op dest src tag status hops payload) = src % 2 ^ 13 := by
  rw [srcOf, hostFrame_msg _ _ _ _ _ _ _ hop, natField, Nat.shiftRight_eq_div_pow]
  omega

theorem tagOf_hostFrame (hop : op < 8) : tagOf (hostFrame op dest src tag status hops payload) = tag % 256 := by
  rw [tagOf, hostFrame_msg _ _ _ _ _ _ _ hop, natField, Nat.shiftRight_eq_div_pow]
  omega

theorem statusOf_hostFrame (hop : op < 8) : statusOf (hostFrame op dest src tag status hops payload) = status % 8 := by
  rw [statusOf, hostFrame_msg _ _ _ _ _ _ _ hop, natField, Nat.shiftRight_eq_div_pow]
  omega

theorem hopsOf_hostFrame (hop : op < 8) : hopsOf (hostFrame op dest src tag status hops payload) = hops % 64 := by
  rw [hopsOf, hostFrame_msg _ _ _ _ _ _ _ hop, natField, Nat.shiftRight_eq_div_pow]
  omega

theorem opOf_hostFrame (hop : op < 8) : opOf (hostFrame op dest src tag status hops payload).msg = op := by
  rw [opOf, hostFrame_msg _ _ _ _ _ _ _ hop, natField, Nat.shiftRight_eq_div_pow]
  omega

end

/-! A response on its way (10 R263). -/

/-- The frame that a response leaves by. -/
def responseFrame (r : RespTxn) (status : Nat) (l : Line) : Frame :=
  hostFrame (if r.write then 4 else 3) r.src.toNat r.src.toNat r.tag status 1 l

/-- What becomes of a response, by where it can go. -/
def responseVia (f : Frame) (c : Chip) : HostHop → Option Chip
  | .port p => some (putHost p [hostFrame (opOf f.msg) (destOf f) (srcOf f) (tagOf f) (statusOf f) (hopsOf f + 1) f.payload] c)
  | .full => none
  | .unreachable => some { c with fab := { c.fab with hostDrop := satInc c.fab.hostDrop } }

theorem sendResponse_eq (f : Frame) (c : Chip) : sendResponse f c = responseVia f c (hostHop c (destOf f) (hopsOf f) 1) := rfl

theorem hostFrame_payload (op dest src tag status hops : Nat) (l : Line) :
    (hostFrame op dest src tag status hops l).payload = l := rfl

theorem sendResponse_room {r : RespTxn} {status : Nat} {l : Line} {c : Chip} {back : PortId}
    (hroute : hostRoute c.fab r.src.toNat = some back) (hup : (c.port back).st = .up)
    (hroom : (c.port back).host.length < 16) (htag : r.tag < 256) (hstatus : status < 8) :
    sendResponse (responseOf r status l) c = some (putHost back [responseFrame r status l] c) := by
  have hop : (if r.write then 4 else 3) < 8 := by split <;> decide
  have hsrc : r.src.toNat % 2 ^ 13 = r.src.toNat := Nat.mod_eq_of_lt r.src.isLt
  have hhop : hostHop c r.src.toNat 0 1 = .port back := hostHop_room hroute (by decide) hup hroom
  rw [responseOf, sendResponse_eq, destOf_hostFrame _ _ _ _ _ _ _ hop, hsrc, hopsOf_hostFrame _ _ _ _ _ _ _ hop,
    Nat.zero_mod, hhop, responseVia, opOf_hostFrame _ _ _ _ _ _ _ hop, destOf_hostFrame _ _ _ _ _ _ _ hop, hsrc,
    srcOf_hostFrame _ _ _ _ _ _ _ hop, hsrc, tagOf_hostFrame _ _ _ _ _ _ _ hop, Nat.mod_eq_of_lt htag,
    statusOf_hostFrame _ _ _ _ _ _ _ hop, Nat.mod_eq_of_lt hstatus, hopsOf_hostFrame _ _ _ _ _ _ _ hop, Nat.zero_mod,
    hostFrame_payload, responseFrame]

/-! Search memory, as a segment reads and writes it (10 R260, R262). -/

section
variable {vc off o line first last : Nat} {m : List Host.Cell} {y : Sys}

/-- A line of search memory, with the tiles' regions below. -/
def inSearchMem (vc line : Nat) : Prop :=
  0x70000000 ≤ line * 256 ∧ line * 256 < 0x70800000 ∧ 16 * vc * 0x400000 ≤ 0x60000000

theorem regionOf_search (hvc : 16 * vc * 0x400000 ≤ 0x60000000) (hlo : 0x70000000 ≤ off) (hhi : off < 0x70800000) :
    ∃ o, regionOf vc off = .search o ∧ searchBase + o = off := by
  refine ⟨off - 0x70000000, ?_, by unfold searchBase; omega⟩
  have htile : ¬off < 16 * vc * 0x400000 := by omega
  have hregs : ¬(decide (0x60000000 ≤ off) && decide (off < 0x60010000)) = true := by
    rw [Bool.and_eq_true, decide_eq_true_iff, decide_eq_true_iff]
    omega
  have hsearch : (decide (0x70000000 ≤ off) && decide (off < 0x70800000)) = true := by
    rw [Bool.and_eq_true, decide_eq_true_iff, decide_eq_true_iff]
    omega
  rw [regionOf, if_neg htile, if_neg hregs, if_pos hsearch]

theorem add_lt_lines {a b f : Nat} (h : a * 256 < b * 256) (hf : f < 256) : a * 256 + f < b * 256 := by
  have hab : a + 1 ≤ b := Nat.lt_of_mul_lt_mul_right h
  calc a * 256 + f < (a + 1) * 256 := by rw [Nat.succ_mul]; exact Nat.add_lt_add_left hf _
    _ ≤ b * 256 := Nat.mul_le_mul_right _ hab

theorem region_inSearch (h : inSearchMem vc line) (hfirst : first < 256) :
    ∃ o, regionOf vc (line * 256 + first) = .search o ∧ searchBase + o = line * 256 + first := by
  obtain ⟨hlo, hhi, hvc⟩ := h
  exact regionOf_search hvc (hlo.trans (Nat.le_add_right ..)) (add_lt_lines (b := 0x708000) hhi hfirst)

/-- What a read finds, by the region it is in. -/
def readIn (m : List Host.Cell) (n : Nat) (y : Sys) : Region → Nat × List Byte × Sys
  | .tile v o => readTile m v o n y
  | .regs o => let r := readRegs o (n / 4) y; (0, r.1, r.2)
  | .search o => readSearchMem m o n y
  | .reserved => (1, List.replicate n 0, y)

theorem readPiece_eq (n : Nat) : readPiece m off n y = readIn m n y (regionOf y.chip.map.vc off) := rfl

theorem readPiece_search (n : Nat) (hr : regionOf y.chip.map.vc off = .search o) (haddr : searchBase + o = off)
    (hon : y.chip.domOn bitSrch = true) (hecc : y.ecc = []) : readPiece m off n y = (0, Memory.read m off n, y) := by
  have hgood : (Ecc.check y.ecc (off / 8) (wordsTouched off n)).2 = 0 := by rw [hecc]; rfl
  rw [readPiece_eq, hr, readIn, readSearchMem, if_pos hon, haddr, if_pos (by simp [hgood])]

/-- The bytes are stored at an address of memory, with fresh check bits. -/
def StoresAt (off : Nat) (bs : List Byte) (m : List Host.Cell) (y : Sys) (r : Nat × List Host.Cell × Sys) : Prop :=
  r = (0, Memory.write m off bs, (storeBytes off bs m y).2)

theorem storesAt_search (bs : List Byte) (haddr : searchBase + o = off) (hon : y.chip.domOn bitSrch = true) :
    StoresAt off bs m y
      (if y.chip.domOn bitSrch then let r := storeBytes (searchBase + o) bs m y; (0, r.1, r.2) else (2, m, y)) := by
  rw [if_pos hon, haddr]
  rfl

theorem storesAt_writePiece (bs : List Byte) (hr : regionOf y.chip.map.vc off = .search o) (haddr : searchBase + o = off)
    (hon : y.chip.domOn bitSrch = true) : StoresAt off bs m y (writePiece off bs m y) := by
  conv in writePiece => delta writePiece
  split
  next v o' h => rw [hr] at h; cases h
  next o' h => rw [hr] at h; cases h
  next o' h =>
    rw [hr] at h
    obtain rfl := Region.search.inj h
    exact storesAt_search bs haddr hon
  next h => rw [hr] at h; cases h

theorem segmentOk_search (hok : segmentOk (.search 0) first last = true) : segmentOk (.search o) first last = true := hok

/-- A read segment, by the region it is in. -/
def readSegment (line first last : Nat) (m : List Host.Cell) (y : Sys) (r : Region) : Nat × Line × Sys :=
  if r == .reserved then (1, Line.zero, reservedAccess y)
  else if !segmentOk r first last then (1, Line.zero, y)
  else
    let x := readPiece m (line * 256 + first) (last + 1 - first) y
    (x.1, if x.1 == 0 || x.1 == 4 then lineImage first x.2.1 else Line.zero, x.2.2)

theorem performRead_eq : performRead line first last m y =
    readSegment line first last m y (regionOf y.chip.map.vc (line * 256 + first)) := rfl

/-- A write segment, by the region it is in. -/
def writeSegment (line first last : Nat) (data : Line) (m : List Host.Cell) (y : Sys) (r : Region) :
    Nat × List Host.Cell × Sys :=
  if r == .reserved then (1, m, reservedAccess y)
  else if !segmentOk r first last then (1, m, y)
  else writePiece (line * 256 + first) ((data.bytes.drop first).take (last + 1 - first)) m y

theorem performWrite_eq (data : Line) : performWrite line first last data m y =
    writeSegment line first last data m y (regionOf y.chip.map.vc (line * 256 + first)) := rfl

theorem performRead_search (h : inSearchMem y.chip.map.vc line) (hfirst : first < 256)
    (hok : segmentOk (.search 0) first last = true) (hon : y.chip.domOn bitSrch = true) (hecc : y.ecc = []) :
    performRead line first last m y =
      (0, lineImage first (Memory.read m (line * 256 + first) (last + 1 - first)), y) := by
  obtain ⟨o, hr, haddr⟩ := region_inSearch h hfirst
  have hnot : ¬(Region.search o == .reserved) = true := by simp
  have hseg : ¬(!segmentOk (.search o) first last) = true := by rw [segmentOk_search hok]; decide
  rw [performRead_eq, hr, readSegment, if_neg hnot, if_neg hseg, readPiece_search _ hr haddr hon hecc]
  rfl

theorem performWrite_search (data : Line) (h : inSearchMem y.chip.map.vc line) (hfirst : first < 256)
    (hok : segmentOk (.search 0) first last = true) (hon : y.chip.domOn bitSrch = true) :
    ∃ ecc, performWrite line first last data m y =
      (0, Memory.write m (line * 256 + first) ((data.bytes.drop first).take (last + 1 - first)), { y with ecc := ecc }) := by
  obtain ⟨o, hr, haddr⟩ := region_inSearch h hfirst
  have hnot : ¬(Region.search o == .reserved) = true := by simp
  have hseg : ¬(!segmentOk (.search o) first last) = true := by rw [segmentOk_search hok]; decide
  rw [performWrite_eq, hr, writeSegment, if_neg hnot, if_neg hseg,
    storesAt_writePiece _ hr haddr hon]
  exact ⟨_, rfl⟩

end

/-! Serving from the front. -/

section
variable {m : List Host.Cell} {y : Sys} {r : RespTxn}

theorem serve_waits (n : Nat) {rest : List RespTxn} (hy : y.chip.fab.responder = r :: rest)
    (h : canServe r y.chip = false) : serve n m y = (m, y) := by
  cases n with
  | zero => rfl
  | succ n =>
    unfold serve
    rw [hy]
    dsimp only
    rw [if_neg (by simp [h])]

/-- The responder with nothing in its input. -/
def responderEmpty (y : Sys) : Sys := y.onChip fun c => { c with fab := { c.fab with responder := [] } }

theorem serveAll_one (hy : y.chip.fab.responder = [r]) (h : canServe r y.chip = true) :
    serveAll m y =
      let x := performTxn r m (responderEmpty y)
      (x.2.2.1, x.2.2.2.onChip (answerTxn r x.1 x.2.1)) := by
  have hone : y.chip.fab.responder.length = 1 := by rw [hy]; rfl
  rw [serveAll, hone, serve, hy]
  dsimp only
  rw [if_pos h]
  rfl

end

/-! Requests and data of frames for this chip. -/

section
variable {s : State} {p back : PortId} {i : InFrame}

/-- A request or its data goes from the port to the responder. -/
def requestTaken (p : PortId) (op : Nat) (f : Frame) (now : Nat) (c : Chip) : Chip :=
  let c := c.onPort p (popKind 1)
  { c with fab :=
      if op == 2 then giveData false (BitVec.ofNat 13 (srcOf f)) (tagOf f) f.payload c.fab
      else joinResponder (requestOf (op == 1) f now) c.fab }

theorem takeRequest_mine {op : Nat} {m : List Host.Cell} {y : Sys} (hi : firstOfKind 1 (y.chip.port p) = some i)
    (hop : opOf i.frame.msg = op) (hself : destOf i.frame = y.chip.self) (hfirst : comesFirst y.chip p i = true)
    (hroom : y.chip.fab.responder.length < 32) :
    takeRequest p op m y = serveAll m (y.onChip (requestTaken p op i.frame y.now)) := by
  have hfree : responderFull y.chip = false := by simpa [responderFull] using hroom
  simp only [takeRequest, hi]
  rw [if_neg (by simp [hop]), if_neg (by simp [hself]), if_neg (by simp [hfirst, hfree])]
  rfl

theorem requestTaken_responder (op : Nat) (f : Frame) (now : Nat) (c : Chip) :
    (requestTaken p op f now c).fab.responder =
      if op == 2 then (giveData false (BitVec.ofNat 13 (srcOf f)) (tagOf f) f.payload c.fab).responder
      else (joinResponder (requestOf (op == 1) f now) c.fab).responder := by
  unfold requestTaken
  dsimp only
  split <;> rfl

theorem joinResponder_empty (r : RespTxn) (f : Fabric) (h : f.responder = []) :
    joinResponder r f = { f with responder := [r] } := by
  simp [joinResponder, h]

theorem joinResponder_read {r : RespTxn} {f : Fabric} (h : r.write = false) :
    joinResponder r f = { f with responder := f.responder ++ [r] } := by
  simp [joinResponder, h]

/-- A write whose data has not come waits. -/
theorem canServe_noData {r : RespTxn} {c : Chip} (hwrite : r.write = true) (hdata : r.data = none) :
    canServe r c = false := by
  simp [canServe, hwrite, hdata]

section
variable (hpad : (s.sys.chip.port p).padOver) (hi : firstOfKind 1 (s.sys.chip.port p) = some i)
  (hself : destOf i.frame = s.sys.chip.self) (hfirst : comesFirst s.sys.chip p i = true)
include hpad hi hself hfirst

theorem wreq_joins (hop : opOf i.frame.msg = 1) (hr : s.sys.chip.fab.responder = []) :
    exec (.wreq (.port p)) s = .next (s.withChip fun c =>
      let c := c.onPort p (popKind 1)
      { c with fab := { c.fab with responder := c.fab.responder ++ [requestOf true i.frame s.sys.now] } }) := by
  have htake : requestTaken p 1 i.frame s.sys.now s.sys.chip =
      let c := s.sys.chip.onPort p (popKind 1)
      { c with fab := { c.fab with responder := [requestOf true i.frame s.sys.now] } } := by
    unfold requestTaken
    dsimp only
    rw [if_neg (by decide), joinResponder_empty _ (s.sys.chip.onPort p (popKind 1)).fab hr]
    rfl
  rw [exec_wreq, execWreq, onMemSys]
  dsimp only
  rw [awaitFrame_over _ hpad, takeRequest_mine hi hop hself hfirst (by rw [hr]; decide), serveAll,
    serve_waits (r := requestOf true i.frame s.sys.now) (rest := []) _ (by rw [Sys.onChip, htake]) (canServe_noData rfl rfl),
    Sys.onChip, htake, State.withChip]
  simp only [show (s.sys.chip.onPort p (popKind 1)).fab.responder = [] from hr, List.nil_append]

theorem rreq_joins {r : RespTxn} {rest : List RespTxn} (hop : opOf i.frame.msg = 0)
    (hr : s.sys.chip.fab.responder = r :: rest) (hwrite : r.write = true) (hdata : r.data = none)
    (hroom : rest.length < 31) :
    exec (.rreq (.port p)) s = .next (s.withChip fun c =>
      let c := c.onPort p (popKind 1)
      { c with fab := { c.fab with responder := c.fab.responder ++ [requestOf false i.frame s.sys.now] } }) := by
  have htake : requestTaken p 0 i.frame s.sys.now s.sys.chip =
      let c := s.sys.chip.onPort p (popKind 1)
      { c with fab := { c.fab with responder := c.fab.responder ++ [requestOf false i.frame s.sys.now] } } := by
    unfold requestTaken
    dsimp only
    rw [if_neg (by decide), joinResponder_read rfl]
    rfl
  have hresp : (s.sys.chip.onPort p (popKind 1)).fab.responder = r :: rest := hr
  rw [exec_rreq, execRreq, onMemSys]
  dsimp only
  rw [awaitFrame_over _ hpad, takeRequest_mine hi hop hself hfirst (by rw [hr, List.length_cons]; omega), serveAll,
    serve_waits (r := r) (rest := rest ++ [requestOf false i.frame s.sys.now]) _
      (by rw [Sys.onChip, htake]; dsimp only; rw [hresp]; rfl) (canServe_noData hwrite hdata), Sys.onChip, htake]
  rfl

end

/-! Requests that are answered. -/

theorem performTxn_read {r : RespTxn} {m : List Host.Cell} {y z : Sys} {st : Nat} {l : Line} (hwrite : r.write = false)
    (h : performRead r.line r.first r.last m y = (st, l, z)) : performTxn r m y = (st, l, m, z) := by
  rw [performTxn, if_neg (by simp [hwrite])]
  dsimp only
  rw [h]

theorem performTxn_write {r : RespTxn} {m m' : List Host.Cell} {y z : Sys} {st : Nat} {l : Line} (hwrite : r.write = true)
    (hdata : r.data = some l) (h : performWrite r.line r.first r.last l m y = (st, m', z)) :
    performTxn r m y = (st, Line.zero, m', z) := by
  rw [performTxn, if_pos hwrite]
  dsimp only
  rw [hdata, Option.getD_some, h]

/-- The one transaction in the responder's input is performed, and its response is on its way. -/
theorem serveAll_answers {m m' : List Host.Cell} {y z : Sys} {r : RespTxn} {l : Line} (hy : y.chip.fab.responder = [r])
    (hown : r.own = false) (hdata : r.write = false ∨ r.data.isSome = true)
    (hroute : hostRoute y.chip.fab r.src.toNat = some back) (hup : (y.chip.port back).st = .up)
    (hroom : (y.chip.port back).host.length < 16) (htag : r.tag < 256)
    (hperf : performTxn r m (responderEmpty y) = (0, l, m', z)) (hz : z.chip = (responderEmpty y).chip) :
    serveAll m y = (m', z.onChip (putHost back [responseFrame r 0 l])) := by
  have hserve : canServe r y.chip = true := by
    rw [canServe, sendResponse_room hroute hup hroom htag (by decide)]
    rcases hdata with h | h
    · simp [h]
    · rw [← Option.not_isSome, h]
      simp
  have hanswer : answerTxn r 0 l z.chip = putHost back [responseFrame r 0 l] z.chip := by
    have hroute' : hostRoute z.chip.fab r.src.toNat = some back := by rw [hz]; exact hroute
    have hup' : (z.chip.port back).st = .up := by rw [hz]; exact hup
    have hroom' : (z.chip.port back).host.length < 16 := by rw [hz]; exact hroom
    rw [answerTxn, if_neg (by simp [hown]), sendResponse_room hroute' hup' hroom' htag (by decide)]
    rfl
  rw [serveAll_one hy hserve, hperf]
  dsimp only
  rw [Sys.onChip, hanswer]
  rfl

theorem popKind_st (k : Nat) (x : Port) : (popKind k x).st = x.st := by
  unfold popKind ingressXoff
  split
  · rfl
  · split <;> rfl

theorem popKind_host (k : Nat) (x : Port) : (popKind k x).host = x.host := by
  unfold popKind ingressXoff
  split
  · rfl
  · split <;> rfl

theorem popped_st (c : Chip) (q : PortId) : ((c.onPort p (popKind 1)).port q).st = (c.port q).st := by
  by_cases h : q = p
  · subst h; rw [Chip.onPort_same, popKind_st]
  · rw [Chip.onPort_other _ h]

theorem popped_host (c : Chip) (q : PortId) : ((c.onPort p (popKind 1)).port q).host = (c.port q).host := by
  by_cases h : q = p
  · subst h; rw [Chip.onPort_same, popKind_host]
  · rw [Chip.onPort_other _ h]

theorem srcOf_lt (f : Frame) : srcOf f < 2 ^ 13 := Nat.mod_lt _ (by decide)

theorem tagOf_lt (f : Frame) : tagOf f < 256 := Nat.mod_lt _ (by decide)

theorem requestOf_src (write : Bool) (f : Frame) (now : Nat) : (requestOf write f now).src.toNat = srcOf f := by
  rw [requestOf, BitVec.toNat_ofNat, Nat.mod_eq_of_lt (srcOf_lt f)]

section
variable (hpad : (s.sys.chip.port p).padOver) (hi : firstOfKind 1 (s.sys.chip.port p) = some i)
  (hself : destOf i.frame = s.sys.chip.self) (hfirst : comesFirst s.sys.chip p i = true)
  (hon : s.sys.chip.domOn bitSrch = true) (hecc : s.sys.ecc = [])
  (hroute : hostRoute s.sys.chip.fab (srcOf i.frame) = some back) (hup : (s.sys.chip.port back).st = .up)
  (hroom : (s.sys.chip.port back).host.length < 16)
include hpad hi hself hfirst hon hroute hup hroom

include hecc in
theorem rreq_answers (hop : opOf i.frame.msg = 0) (hr : s.sys.chip.fab.responder = [])
    (hok : segmentOk (.search 0) (i.frame.payload.byte 4).toNat (i.frame.payload.byte 5).toNat = true)
    (hin : inSearchMem s.sys.chip.map.vc (requestOffset i.frame)) :
    exec (.rreq (.port p)) s = .next (s.withChip fun c => (c.onPort p (popKind 1)).onPort back fun x =>
      { x with host := x.host ++ [hostFrame 3 (srcOf i.frame) (srcOf i.frame) (tagOf i.frame) 0 1
        (lineImage (i.frame.payload.byte 4).toNat (Memory.read s.mem
          (requestOffset i.frame * 256 + (i.frame.payload.byte 4).toNat)
          ((i.frame.payload.byte 5).toNat + 1 - (i.frame.payload.byte 4).toNat)))] }) := by
  obtain ⟨r, hrdef⟩ : ∃ r, r = requestOf false i.frame s.sys.now := ⟨_, rfl⟩
  obtain ⟨y, hydef⟩ : ∃ y, y = s.sys.onChip (requestTaken p 0 i.frame s.sys.now) := ⟨_, rfl⟩
  have hchip : y.chip = { s.sys.chip.onPort p (popKind 1) with
      fab := { (s.sys.chip.onPort p (popKind 1)).fab with responder := [r] } } := by
    rw [hydef, hrdef]
    show requestTaken p 0 i.frame s.sys.now s.sys.chip = _
    unfold requestTaken
    dsimp only
    rw [if_neg (by decide), joinResponder_empty _ (s.sys.chip.onPort p (popKind 1)).fab hr]
    rfl
  have hempty : responderEmpty y = s.sys.onChip (Chip.onPort p (popKind 1)) := by
    have hresp : (s.sys.chip.onPort p (popKind 1)).fab.responder = [] := hr
    rw [responderEmpty, Sys.onChip, hchip, hydef]
    simp only [Sys.onChip]
    rw [← hresp]
  have hread := performRead_search (m := s.mem) (y := responderEmpty y) (line := requestOffset i.frame)
    (first := (i.frame.payload.byte 4).toNat) (last := (i.frame.payload.byte 5).toNat)
    (by rw [hempty]; exact hin) (i.frame.payload.byte 4).isLt hok (by rw [hempty]; exact hon) (by rw [hempty]; exact hecc)
  have hsrc : r.src.toNat = srcOf i.frame := by rw [hrdef, requestOf_src]
  have hserved := serveAll_answers (back := back) (r := r) (y := y) (by rw [hchip]) (by rw [hrdef]; rfl)
    (.inl (by rw [hrdef]; rfl)) (by rw [hchip, hsrc]; exact hroute) (by rw [hchip]; exact (popped_st ..).trans hup)
    (by rw [hchip]; exact (congrArg List.length (popped_host ..)).trans_lt hroom) (by rw [hrdef]; exact tagOf_lt _)
    (performTxn_read (by rw [hrdef]; rfl) (by rw [hrdef]; exact hread)) rfl
  rw [exec_rreq, execRreq, onMemSys]
  dsimp only
  rw [awaitFrame_over _ hpad, takeRequest_mine hi hop hself hfirst (by rw [hr]; decide), ← hydef, hserved, hempty,
    responseFrame, hsrc]
  rw [hrdef]
  rfl

theorem wdata_stores {r : RespTxn} (hop : opOf i.frame.msg = 2) (hr : s.sys.chip.fab.responder = [r])
    (hwrite : r.write = true) (hdata : r.data = none) (hown : r.own = false)
    (hsrc : r.src = BitVec.ofNat 13 (srcOf i.frame)) (htag : r.tag = tagOf i.frame)
    (hok : segmentOk (.search 0) r.first r.last = true) (hlast : r.last < 256)
    (hin : inSearchMem s.sys.chip.map.vc r.line) :
    Gives (exec (.wdata (.port p)) s) fun t =>
      t.mem = Memory.write s.mem (r.line * 256 + r.first)
        ((i.frame.payload.bytes.drop r.first).take (r.last + 1 - r.first)) ∧
      t.sys.chip.fab.responder = [] ∧
      (t.sys.chip.port back).host = (s.sys.chip.port back).host ++
        [hostFrame 4 (srcOf i.frame) (srcOf i.frame) (tagOf i.frame) 0 1 Line.zero] := by
  obtain ⟨q, hqdef⟩ : ∃ q : RespTxn, q = { r with data := some i.frame.payload } := ⟨_, rfl⟩
  obtain ⟨y, hydef⟩ : ∃ y, y = s.sys.onChip (requestTaken p 2 i.frame s.sys.now) := ⟨_, rfl⟩
  have hgive : giveData false (BitVec.ofNat 13 (srcOf i.frame)) (tagOf i.frame) i.frame.payload
      (s.sys.chip.onPort p (popKind 1)).fab = { (s.sys.chip.onPort p (popKind 1)).fab with responder := [q] } := by
    have hresp : (s.sys.chip.onPort p (popKind 1)).fab.responder = [r] := hr
    have hit : (r.write && r.data.isNone && r.own == false && r.src == BitVec.ofNat 13 (srcOf i.frame) &&
        r.tag == tagOf i.frame) = true := by simp [hwrite, hdata, hown, hsrc, htag]
    rw [giveData, hresp, List.map_singleton, if_pos hit, hqdef]
  have hchip : y.chip = { s.sys.chip.onPort p (popKind 1) with
      fab := { (s.sys.chip.onPort p (popKind 1)).fab with responder := [q] } } := by
    rw [hydef]
    show requestTaken p 2 i.frame s.sys.now s.sys.chip = _
    unfold requestTaken
    dsimp only
    rw [if_pos (by decide), hgive]
  have hqsrc : q.src.toNat = srcOf i.frame := by
    rw [hqdef]
    dsimp only
    rw [hsrc, BitVec.toNat_ofNat, Nat.mod_eq_of_lt (srcOf_lt i.frame)]
  have hfirst256 : r.first < 256 := by
    have hle : r.first ≤ r.last := by
      have := hok
      simp only [segmentOk, Bool.and_eq_true, decide_eq_true_eq] at this
      exact this.1
    omega
  obtain ⟨ecc, hstore⟩ := performWrite_search (m := s.mem) (y := responderEmpty y) (line := r.line) (first := r.first)
    (last := r.last) i.frame.payload (by rw [responderEmpty, Sys.onChip, hchip]; exact hin) hfirst256 hok
    (by rw [responderEmpty, Sys.onChip, hchip]; exact hon)
  have hserved := serveAll_answers (back := back) (r := q) (y := y) (by rw [hchip]) (by rw [hqdef]; exact hown)
    (.inr (by rw [hqdef]; rfl)) (by rw [hchip, hqsrc]; exact hroute) (by rw [hchip]; exact (popped_st ..).trans hup)
    (by rw [hchip]; exact (congrArg List.length (popped_host ..)).trans_lt hroom)
    (by rw [hqdef]; exact htag.trans_lt (tagOf_lt _))
    (z := { responderEmpty y with ecc := ecc })
    (performTxn_write (l := i.frame.payload) (by rw [hqdef]; exact hwrite) (by rw [hqdef]) (by rw [hqdef]; exact hstore)) rfl
  rw [exec_wdata, execWdata, onMemSys]
  dsimp only
  rw [awaitFrame_over _ hpad, takeRequest_mine hi hop hself hfirst (by rw [hr, List.length_singleton]; decide), ← hydef, hserved]
  refine ⟨_, rfl, rfl, rfl, ?_⟩
  have hhost : ((responderEmpty y).chip.port back).host = (s.sys.chip.port back).host := by
    rw [responderEmpty, Sys.onChip, hchip]
    exact popped_host ..
  show ((putHost back _ (responderEmpty y).chip).port back).host = _
  rw [putHost, Chip.onPort_same, hhost, responseFrame, hqsrc]
  rw [hqdef, htag]
  dsimp only
  rw [if_pos hwrite]

end

end

/-! Own transactions. -/

section
variable {s : State} {x : Txn}

/-- The commit point of an own transaction is recorded. -/
def txnWon (x : Txn) (now : Nat) (c : Chip) : Chip :=
  c.onTxns (changeTxn (fun z => z.tag == x.tag) fun z => { z with wonAt := some now })

/-- The responder's answer to an own transaction. -/
def txnAnswered (tag status : Nat) (l : Line) (c : Chip) : Chip :=
  c.onTxns (changeTxn (fun z => z.tag == tag) fun z => { z with answer := some (xferStatus status, l) })

/-- The request of an own transaction, as the responder holds it. -/
def ownRequestOf (x : Txn) (write : Bool) (now : Nat) : RespTxn :=
  { src := x.seg.dest
    tag := x.tag
    write := write
    line := x.seg.line
    first := x.seg.first
    last := x.seg.last
    data := none
    own := true
    at_ := now }

theorem ownRequest_some {write : Bool} {m : List Host.Cell} {y : Sys} (hx : ownNext write y.chip = some x)
    (hr : y.chip.fab.responder = []) : ownRequest write m y = serveAll m (y.onChip fun c =>
      { txnWon x y.now c with fab := { (txnWon x y.now c).fab with responder := [ownRequestOf x write y.now] } }) := by
  have hfree : responderFull y.chip = false := by simp [responderFull, hr]
  have hjoin (r : RespTxn) : joinResponder r (txnWon x y.now y.chip).fab =
      { (txnWon x y.now y.chip).fab with responder := [r] } := joinResponder_empty _ _ hr
  simp only [ownRequest, hx]
  rw [if_neg (by simp [hfree])]
  exact congrArg (fun f => serveAll m { y with chip := { txnWon x y.now y.chip with fab := f } }) (hjoin _)

theorem canServe_own {r : RespTxn} {c : Chip} (hown : r.own = true) (hdata : r.write = false ∨ r.data.isSome = true) :
    canServe r c = true := by
  rcases hdata with h | h
  · simp [canServe, hown, h]
  · rw [canServe, ← Option.not_isSome, h]
    simp [hown]

theorem answerTxn_own {r : RespTxn} (hown : r.own = true) (status : Nat) (l : Line) (c : Chip) :
    answerTxn r status l c = txnAnswered r.tag status l c := by
  rw [answerTxn, if_pos hown]
  rfl

theorem serveAll_own {m m' : List Host.Cell} {y z : Sys} {r : RespTxn} {st : Nat} {l : Line}
    (hy : y.chip.fab.responder = [r]) (hown : r.own = true) (hdata : r.write = false ∨ r.data.isSome = true)
    (hperf : performTxn r m (responderEmpty y) = (st, l, m', z)) :
    serveAll m y = (m', z.onChip (txnAnswered r.tag st l)) := by
  rw [serveAll_one hy (canServe_own hown hdata), hperf]
  exact congrArg (fun c => (m', { z with chip := c })) (answerTxn_own hown st l z.chip)

theorem ownRead_settled (hx : ownNext false s.sys.chip = some x) (hr : s.sys.chip.fab.responder = []) :
    let r := performRead x.seg.line x.seg.first x.seg.last s.mem (s.withChip (txnWon x s.sys.now)).sys
    exec (.rreq .own) s = .next { s with sys := r.2.2.onChip (txnAnswered x.tag r.1 r.2.1) } := by
  obtain ⟨y, hydef⟩ : ∃ y, y = s.sys.onChip fun c => { txnWon x s.sys.now c with
      fab := { (txnWon x s.sys.now c).fab with responder := [ownRequestOf x false s.sys.now] } } := ⟨_, rfl⟩
  have hempty : responderEmpty y = (s.withChip (txnWon x s.sys.now)).sys := by
    have hresp : (txnWon x s.sys.now s.sys.chip).fab.responder = [] := hr
    rw [responderEmpty, hydef]
    simp only [Sys.onChip, State.withChip]
    rw [← hresp]
  rcases hread : performRead x.seg.line x.seg.first x.seg.last s.mem (s.withChip (txnWon x s.sys.now)).sys with ⟨st, l, z⟩
  have hserved := serveAll_own (m := s.mem) (y := y) (r := ownRequestOf x false s.sys.now) (by rw [hydef]; rfl) rfl (.inl rfl)
    (performTxn_read (st := st) (l := l) (z := z) rfl (by rw [hempty]; exact hread))
  rw [exec_rreq, execRreq, onMemSys]
  dsimp only
  rw [ownRequest_some hx hr, ← hydef, hserved]
  rfl

theorem ownWrite_joins (hx : ownNext true s.sys.chip = some x) (hr : s.sys.chip.fab.responder = []) :
    exec (.wreq .own) s = .next (s.withChip fun c => { txnWon x s.sys.now c with
      fab := { (txnWon x s.sys.now c).fab with responder := [ownRequestOf x true s.sys.now] } }) := by
  rw [exec_wreq, execWreq, onMemSys]
  dsimp only
  rw [ownRequest_some hx hr, serveAll, serve_waits (r := ownRequestOf x true s.sys.now) (rest := []) _ rfl
    (canServe_noData rfl rfl)]
  rfl

theorem ownData_stores {r : RespTxn} (hr : s.sys.chip.fab.responder = [r]) (hown : r.own = true) (hwrite : r.write = true)
    (hdata : r.data = none) (hx : s.sys.chip.fab.txns.find? (fun z => z.tag == r.tag) = some x) :
    let w := performWrite r.line r.first r.last x.seg.data s.mem (responderEmpty s.sys)
    exec (.wdata .own) s = .next { s with mem := w.2.1, sys := w.2.2.onChip (txnAnswered r.tag w.1 Line.zero) } := by
  obtain ⟨q, hqdef⟩ : ∃ q : RespTxn, q = { r with data := some x.seg.data } := ⟨_, rfl⟩
  obtain ⟨y, hydef⟩ : ∃ y, y = s.sys.onChip fun c => { c with fab := { c.fab with responder := [q] } } := ⟨_, rfl⟩
  have hfind : s.sys.chip.fab.responder.find? (fun r => r.own && r.write && r.data.isNone) = some r := by
    rw [hr, List.find?_singleton, if_pos (by simp [hown, hwrite, hdata])]
  have hgive : giveData true r.src r.tag x.seg.data s.sys.chip.fab = { s.sys.chip.fab with responder := [q] } := by
    rw [giveData, hr, List.map_singleton, if_pos (by simp [hown, hwrite, hdata]), hqdef]
  have hempty : responderEmpty y = responderEmpty s.sys := by rw [hydef]; rfl
  rcases hw : performWrite r.line r.first r.last x.seg.data s.mem (responderEmpty s.sys) with ⟨st, m', z⟩
  have hserved := serveAll_own (m := s.mem) (y := y) (r := q) (by rw [hydef]; rfl) (by rw [hqdef]; exact hown)
    (.inr (by rw [hqdef]; rfl)) (performTxn_write (st := st) (m' := m') (z := z) (by rw [hqdef]; exact hwrite) (by rw [hqdef])
      (by rw [hempty, hqdef]; exact hw))
  rw [exec_wdata, execWdata, onMemSys]
  dsimp only [ownData]
  rw [hfind]
  dsimp only
  rw [hx]
  dsimp only [Sys.onChip]
  rw [hgive, show ({ s.sys with chip := { s.sys.chip with fab := { s.sys.chip.fab with responder := [q] } } } : Sys) = y
    from hydef.symm, hserved, hqdef]
  rfl

theorem ownResponse_settled (write : Bool) {a : Nat × Line} (hx : s.sys.chip.fab.txns = [x]) (ha : x.answer = some a)
    (hwrite : x.seg.write = write) : ownResponse write s.sys = endTxn x a.1 a.2 s.sys := by
  have hfind : s.sys.chip.fab.txns.find? (fun x => x.answer.isSome && x.seg.write == write) = some x := by
    rw [hx, List.find?_singleton, if_pos (by simp [ha, hwrite])]
  simp only [ownResponse, hfind, ha]

end

/-- Settles O33. -/
theorem responderAndOwnTransactions : Obligations.ResponderAndOwnTransactions := by
  unfold Obligations.ResponderAndOwnTransactions
  constructor
  · intro s p back i c f src first last line inSearch answer request joins hpad hi hself hcomes
    refine ⟨fun hop hr => wreq_joins hpad hi hself hcomes hop hr,
      fun r rest hop hr hwrite hdata hroom => rreq_joins hpad hi hself hcomes hop hr hwrite hdata hroom,
      fun hon hecc hroute hup hroom => ⟨fun hop hr hok hin => ?_, fun r hop hr hwrite hdata hown hsrc htag hok hlast hin => ?_⟩⟩
    · exact rreq_answers hpad hi hself hcomes hon hecc hroute hup hroom hop hr hok hin
    · exact wdata_stores hpad hi hself hcomes hon hroute hup hroom hop hr hwrite hdata hown hsrc htag hok hlast hin
  · intro s x c now won answers
    refine ⟨ownRead_settled, ownWrite_joins, fun r hr hown hwrite hdata hx => ownData_stores hr hown hwrite hdata hx,
      fun a hx ha => ⟨fun hwrite => ?_, fun hwrite => ?_⟩⟩
    · rw [exec_rresp, execRresp, onSys_eq]
      dsimp only
      rw [ownResponse_settled false hx ha hwrite]
    · rw [exec_wresp, execWresp, onSys_eq]
      dsimp only
      rw [ownResponse_settled true hx ha hwrite]

end Sys2Proof.Machine
end

section
/-! PROOFS. O31: scheduled lines that leave a port's ingress (10 R254-R257; 11 R304). -/

namespace Sys2Proof.Machine

section
variable {s : State} {p : PortId} {i : InFrame}

theorem strictXoff_quiet {c : Chip} (h : c.map.run = false ∨ c.time.strict = false) : strictXoff c = c := by
  unfold strictXoff
  rw [if_neg]
  rcases h with h | h <;> simp [h]

/-- The ingress without its oldest line whose gate is open. -/
def takeOpen (x : Port) : Port := ingressXoff { x with ingress := x.ingress.eraseP openLine }

theorem passFirst_none {c : Chip} (h : (c.port p).ingress.find? openLine = none) : passFirst p c = c := by
  simp only [passFirst, h]

theorem passFirst_some {c : Chip} (h : (c.port p).ingress.find? openLine = some i) :
    passFirst p c = passOn p i.frame (c.onPort p takeOpen) := by
  simp only [passFirst, h]
  rfl

theorem ingressXoff_eq (x : Port) : ∃ b, ingressXoff x = { x with xoffOut := b } := by
  unfold ingressXoff
  split
  · exact ⟨true, rfl⟩
  · split
    · exact ⟨false, rfl⟩
    · exact ⟨x.xoffOut, rfl⟩

theorem takeOpen_eq (x : Port) : ∃ b, takeOpen x = { x with ingress := x.ingress.eraseP openLine, xoffOut := b } :=
  ingressXoff_eq _

theorem carries_of_st {x y : Port} (h : x.st = y.st) : x.carries = y.carries := by rw [Port.carries, Port.carries, h]

/-- The other fields of every port are as before. -/
theorem takenOpen_port (c : Chip) (q : PortId) :
    ∃ b l, (c.onPort p takeOpen).port q = { c.port q with ingress := l, xoffOut := b } ∧
    (q = p → l = (c.port q).ingress.eraseP openLine) := by
  by_cases h : q = p
  · subst h
    obtain ⟨b, hb⟩ := takeOpen_eq (c.port q)
    exact ⟨b, _, by rw [Chip.onPort_same, hb], fun _ => rfl⟩
  · exact ⟨(c.port q).xoffOut, (c.port q).ingress, by rw [Chip.onPort_other _ h], fun hq => absurd hq h⟩

/-! Where the line goes. -/

section
variable {c : Chip} {f : Frame}

theorem passOn_port {out : PortId} {route : Nat} (h : nextHop (routeOf f.msg) = some (out, route)) :
    ∃ tile, passOn p f c = portPut out true tile f.payload (withRoute f.msg route) 0 c := by
  simp only [passOn, h]
  exact ⟨_, rfl⟩

theorem portPut_carried {out : PortId} (tile : Nat) (line : Line) (msg : Dword) (h : (c.port out).carries = true) :
    ∃ l : SchedLine, portPut out true tile line msg 0 c = c.onPort out (fun x => { x with pipe := x.pipe ++ [l] }) ∧
      l.transit = true ∧ l.frame = ⟨1, line, msg⟩ ∧ l.due = c.cmp.cycles + 30 := by
  simp only [portPut, h, if_true]
  exact ⟨_, rfl, rfl, rfl, rfl⟩

theorem portPut_dropped {out : PortId} (tile : Nat) (line : Line) (msg : Dword) (ago : Nat)
    (h : (c.port out).carries = false) :
    portPut out true tile line msg ago c = c.onPort out fun x => { x with dropCount := satInc x.dropCount } := by
  simp [portPut, h]

theorem passOn_stopped (h : nextHop (routeOf f.msg) = none) (hrun : c.map.run = false) :
    passOn p f c = c.onPort p fun x => { x with dropCount := satInc x.dropCount } := by
  simp [passOn, h, hrun]

theorem passOn_refused (h : nextHop (routeOf f.msg) = none) (hrun : c.map.run = true)
    (hbad : natField f.msg.toNat 4 13 ≠ c.self ∨ c.map.vc ≤ natField f.msg.toNat 21 5) :
    ∃ cause, passOn p f c = c.routeError cause p.val 0 := by
  simp only [passOn, h]
  rw [if_neg (by simp [hrun])]
  by_cases hself : natField f.msg.toNat 4 13 = c.self
  · rw [if_neg (by simpa using hself), if_pos (hbad.resolve_left (by simp [hself]))]
    exact ⟨6, rfl⟩
  · rw [if_pos (by simpa using hself)]
    exact ⟨5, rfl⟩

theorem passOn_arrives (h : nextHop (routeOf f.msg) = none) (hrun : c.map.run = true)
    (hself : natField f.msg.toNat 4 13 = c.self) (hvc : natField f.msg.toNat 21 5 < c.map.vc) :
    ∃ l : MeshLine, passOn p f c = { c with cmp := { c.cmp with mesh := { c.cmp.mesh with lines := c.cmp.mesh.lines ++ [l] } } } ∧
      l.line = f.payload ∧ l.due = some (c.cmp.cycles + 8) ∧
      l.dst = .tile (natField f.msg.toNat 17 4 * c.map.vc + natField f.msg.toNat 21 5)
        (Fin.ofNat 4 (natField f.msg.toNat 26 2)) := by
  have hsome : ¬(c.map.vc == 0) = true := by
    rw [beq_iff_eq]
    omega
  simp only [passOn, h]
  rw [if_neg (by simp [hrun]), if_neg (by simpa using hself), if_neg (by omega), edgeSend, if_neg hsome]
  exact ⟨_, rfl, rfl, rfl, rfl⟩

end

/-! Both commands. -/

/-- Of the arrival of a line and the release of its gate. -/
theorem passes_next {r : Result} (hr : r = exec (.scheduledLineArrival p) s ∨ r = exec (.arrivalGateRelease p) s)
    (hpad : (s.sys.chip.port p).padOver) : r = .next (s.withChip fun c => strictXoff (passFirst p c)) := by
  rcases hr with rfl | rfl
  · rw [exec_scheduledLineArrival, execScheduledLineArrival, onSys_eq]
    rw [awaitFrame_over _ hpad]
    rfl
  · rw [exec_arrivalGateRelease, execArrivalGateRelease, onChip_eq]

/-- Nothing but the chip changes, and the line leaves the ingress. -/
def lineTaken (p : PortId) (s t : State) : Prop :=
  keepsMemory s t ∧ t.sys.tray = s.sys.tray ∧ t.sys.out = s.sys.out ∧
    (t.sys.chip.port p).ingress = (s.sys.chip.port p).ingress.eraseP openLine

theorem lineTaken_chip {d : Chip} (h : (d.port p).ingress = (s.sys.chip.port p).ingress.eraseP openLine) :
    lineTaken p s { s with sys := { s.sys with chip := d } } := ⟨⟨rfl, rfl⟩, rfl, rfl, h⟩

/-- The chip without the line that is passed on. -/
def lineOut (p : PortId) (c : Chip) : Chip := c.onPort p takeOpen

theorem lineOut_ingress (c : Chip) : ((lineOut p c).port p).ingress = (c.port p).ingress.eraseP openLine := by
  obtain ⟨b, hb⟩ := takeOpen_eq (c.port p)
  rw [lineOut, Chip.onPort_same, hb]

theorem lineOut_fields (c : Chip) (q : PortId) : ((lineOut p c).port q).pipe = (c.port q).pipe ∧
    ((lineOut p c).port q).dropCount = (c.port q).dropCount ∧ ((lineOut p c).port q).carries = (c.port q).carries := by
  obtain ⟨b, l, h, -⟩ := takenOpen_port (p := p) c q
  rw [lineOut, h]
  exact ⟨rfl, rfl, rfl⟩

/-- A change of a port that leaves its ingress. -/
theorem ingress_onPort (c : Chip) (q : PortId) (f : Port → Port) (hf : ∀ x, (f x).ingress = x.ingress) :
    ((c.onPort q f).port p).ingress = (c.port p).ingress := by
  by_cases h : p = q
  · subst h; rw [Chip.onPort_same, hf]
  · rw [Chip.onPort_other _ h]

theorem lineOut_onPort (c : Chip) (q : PortId) (f : Port → Port) (hf : ∀ x, (f x).ingress = x.ingress) :
    (((lineOut p c).onPort q f).port p).ingress = (c.port p).ingress.eraseP openLine := by
  rw [ingress_onPort _ _ _ hf, lineOut_ingress]

/-- The oldest line that is open is passed on, and nothing else happens. -/
theorem passFirst_quiet {c d : Chip} (hquiet : c.map.run = false ∨ c.time.strict = false)
    (hi : (c.port p).ingress.find? openLine = some i) (hd : passOn p i.frame (lineOut p c) = d)
    (hmap : d.map.run = c.map.run) (htime : d.time.strict = c.time.strict) : strictXoff (passFirst p c) = d := by
  rw [passFirst_some hi, show passOn p i.frame (c.onPort p takeOpen) = d from hd]
  exact strictXoff_quiet (by rw [hmap, htime]; exact hquiet)

section
variable (hquiet : s.sys.chip.map.run = false ∨ s.sys.chip.time.strict = false)
  (hi : (s.sys.chip.port p).ingress.find? openLine = some i)
include hquiet hi

theorem passes_carried {out : PortId} {route : Nat} (hhop : nextHop (routeOf i.frame.msg) = some (out, route))
    (hcarries : (s.sys.chip.port out).carries = true) :
    Gives (.next (s.withChip fun c => strictXoff (passFirst p c))) fun t => lineTaken p s t ∧
      ∃ l, (t.sys.chip.port out).pipe = (s.sys.chip.port out).pipe ++ [l] ∧ l.transit = true ∧
        l.frame = ⟨1, i.frame.payload, withRoute i.frame.msg route⟩ ∧ l.due = s.sys.chip.cmp.cycles + 30 := by
  obtain ⟨tile, htile⟩ := passOn_port (p := p) (c := lineOut p s.sys.chip) hhop
  obtain ⟨l, hput, htransit, hframe, hdue⟩ := portPut_carried (c := lineOut p s.sys.chip) (out := out) tile i.frame.payload
    (withRoute i.frame.msg route) ((lineOut_fields ..).2.2.trans hcarries)
  have hchip := passFirst_quiet hquiet hi (htile.trans hput) rfl rfl
  refine ⟨_, rfl, ?_⟩
  rw [State.withChip, hchip]
  refine ⟨lineTaken_chip (lineOut_onPort _ _ _ ?_), l, ?_, htransit, hframe, hdue⟩
  · intro x; rfl
  dsimp only
  rw [Chip.onPort_same]
  dsimp only
  rw [(lineOut_fields ..).1]

theorem passes_dropped {out : PortId} {route : Nat} (hhop : nextHop (routeOf i.frame.msg) = some (out, route))
    (hcarries : (s.sys.chip.port out).carries = false) :
    Gives (.next (s.withChip fun c => strictXoff (passFirst p c))) fun t => lineTaken p s t ∧
      (t.sys.chip.port out).pipe = (s.sys.chip.port out).pipe ∧
      (t.sys.chip.port out).dropCount = satInc (s.sys.chip.port out).dropCount := by
  obtain ⟨tile, htile⟩ := passOn_port (p := p) (c := lineOut p s.sys.chip) hhop
  have hput := portPut_dropped (c := lineOut p s.sys.chip) tile i.frame.payload
    (withRoute i.frame.msg route) 0 ((lineOut_fields ..).2.2.trans hcarries)
  have hchip := passFirst_quiet hquiet hi (htile.trans hput) rfl rfl
  refine ⟨_, rfl, ?_⟩
  rw [State.withChip, hchip]
  refine ⟨lineTaken_chip (lineOut_onPort _ _ _ ?_), ?_⟩
  · intro x; rfl
  dsimp only
  rw [Chip.onPort_same]
  dsimp only
  rw [(lineOut_fields ..).1, (lineOut_fields ..).2.1]
  exact ⟨rfl, rfl⟩

theorem passes_stopped (hhop : nextHop (routeOf i.frame.msg) = none) (hrun : s.sys.chip.map.run = false) :
    Gives (.next (s.withChip fun c => strictXoff (passFirst p c))) fun t => lineTaken p s t ∧
      t.sys.chip.cmp = s.sys.chip.cmp ∧ (t.sys.chip.port p).dropCount = satInc (s.sys.chip.port p).dropCount := by
  have hchip := passFirst_quiet hquiet hi (passOn_stopped (p := p) (c := lineOut p s.sys.chip) hhop hrun) rfl rfl
  refine ⟨_, rfl, ?_⟩
  rw [State.withChip, hchip]
  refine ⟨lineTaken_chip (lineOut_onPort _ _ _ ?_), rfl, ?_⟩
  · intro x; rfl
  dsimp only
  rw [Chip.onPort_same]
  dsimp only
  rw [(lineOut_fields ..).2.1]

theorem passes_arrives (hhop : nextHop (routeOf i.frame.msg) = none) (hrun : s.sys.chip.map.run = true)
    (hself : natField i.frame.msg.toNat 4 13 = s.sys.chip.self)
    (hvc : natField i.frame.msg.toNat 21 5 < s.sys.chip.map.vc) :
    Gives (.next (s.withChip fun c => strictXoff (passFirst p c))) fun t => lineTaken p s t ∧
      ∃ l, t.sys.chip.cmp.mesh.lines = s.sys.chip.cmp.mesh.lines ++ [l] ∧ l.line = i.frame.payload ∧
        l.due = some (s.sys.chip.cmp.cycles + 8) ∧
        l.dst = .tile (natField i.frame.msg.toNat 17 4 * s.sys.chip.map.vc + natField i.frame.msg.toNat 21 5)
          (Fin.ofNat 4 (natField i.frame.msg.toNat 26 2)) := by
  obtain ⟨l, hl, hline, hdue, hdst⟩ := passOn_arrives (p := p) (c := lineOut p s.sys.chip) hhop hrun hself hvc
  have hchip := passFirst_quiet hquiet hi hl rfl rfl
  refine ⟨_, rfl, ?_⟩
  rw [State.withChip, hchip]
  exact ⟨lineTaken_chip (lineOut_ingress _), l, rfl, hline, hdue, hdst⟩

theorem passes_refused (hhop : nextHop (routeOf i.frame.msg) = none) (hrun : s.sys.chip.map.run = true)
    (hbad : natField i.frame.msg.toNat 4 13 ≠ s.sys.chip.self ∨
      s.sys.chip.map.vc ≤ natField i.frame.msg.toNat 21 5) :
    Gives (.next (s.withChip fun c => strictXoff (passFirst p c))) fun t => lineTaken p s t ∧
      t.sys.chip.cmp = s.sys.chip.cmp ∧ t.sys.chip.fab.routeCount = satInc s.sys.chip.fab.routeCount ∧
      ⟨27, .chip⟩ ∈ t.sys.chip.fc.raised := by
  obtain ⟨cause, hcause⟩ := passOn_refused (p := p) (c := lineOut p s.sys.chip) hhop hrun hbad
  have hchip := passFirst_quiet hquiet hi hcause rfl rfl
  have hfab : ((lineOut p s.sys.chip).routeError cause p.val 0).fab.ports = (lineOut p s.sys.chip).fab.ports ∧
      ((lineOut p s.sys.chip).routeError cause p.val 0).fab.routeCount = satInc s.sys.chip.fab.routeCount := by
    unfold Chip.routeError
    dsimp only [Chip.raise]
    split <;> exact ⟨rfl, rfl⟩
  refine ⟨_, rfl, ?_⟩
  rw [State.withChip, hchip]
  refine ⟨lineTaken_chip ?_, rfl, hfab.2, routeError_raised ..⟩
  rw [Chip.port, hfab.1]
  exact lineOut_ingress _

end

/-! A line that comes through its receive pad. -/

/-- The only frame of a port reaches the ingress with its gate open, out of run state. -/
theorem awaitFrame_one (hx : (s.sys.chip.port p).ingress = [i]) (hkind : kindOf i.frame.msg = 0) (hgate : i.gate = none)
    (hrun : s.sys.chip.map.run = false) :
    s.sys.awaitFrame p (isKind 0) = (s.sys.await i.ready).onChip
      (Chip.onPort p fun x => ingressXoff { x with ingress := [{ i with gate := some 0 }] }) := by
  have hfind : (s.sys.chip.port p).ingress.find? (isKind 0) = some i := by
    rw [hx, List.find?_singleton, if_pos (by simp [isKind, hkind])]
  have hx' : ((s.sys.await i.ready).chip.port p).ingress = [i] := by rw [await_port]; exact hx
  have hnot : ¬(((s.sys.await i.ready).chip.port p).ingress.all fun i => i.gate.isSome) = true := by
    rw [hx']
    simp [hgate]
  have hadmit (x : Port) : admitFrame (s.sys.await i.ready).chip (s.sys.await i.ready).now x i = { i with gate := some 0 } := by
    rw [admitFrame, if_pos (by simp [hgate, le_await]), if_pos (by simp [hkind]), gateCycles, if_neg (by simp [hrun])]
  unfold Sys.awaitFrame
  rw [hfind]
  dsimp only
  rw [hgate, Option.isNone_none, Sys.awaitIf, if_pos rfl, Sys.onChip, admitPort, if_neg hnot, Sys.onChip]
  congr 1
  refine onPort_congr _ ?_
  rw [hx', List.map_singleton, hadmit]

/-- The chip whose port p holds only this line, its gate open. -/
def lineAdmitted (p : PortId) (i : InFrame) (c : Chip) : Chip :=
  c.onPort p fun x => ingressXoff { x with ingress := [{ i with gate := some 0 }] }

theorem lineAdmitted_port (c : Chip) :
    ∃ b, (lineAdmitted p i c).port p = { c.port p with ingress := [{ i with gate := some 0 }], xoffOut := b } := by
  obtain ⟨b, hb⟩ := ingressXoff_eq { c.port p with ingress := [{ i with gate := some 0 }] }
  exact ⟨b, by rw [lineAdmitted, Chip.onPort_same, hb]⟩

/-- The line that has come is discarded, out of run state. -/
theorem lineAdmitted_passes {c : Chip} (hkind : kindOf i.frame.msg = 0) (hrun : c.map.run = false)
    (hhop : nextHop (routeOf i.frame.msg) = none) :
    let d := strictXoff (passFirst p (lineAdmitted p i c))
    (d.port p).ingress = [] ∧ (d.port p).dropCount = satInc (c.port p).dropCount := by
  obtain ⟨b, hport⟩ := lineAdmitted_port (p := p) (i := i) c
  have hopen : openLine { i with gate := some 0 } = true := by simp [openLine, isKind, hkind]
  have hi : ((lineAdmitted p i c).port p).ingress.find? openLine = some { i with gate := some 0 } := by
    rw [hport, List.find?_singleton, if_pos hopen]
  have hpass := passOn_stopped (p := p) (c := lineOut p (lineAdmitted p i c)) (f := i.frame) hhop hrun
  rw [passFirst_quiet (c := lineAdmitted p i c) (.inl hrun) hi hpass rfl rfl]
  dsimp only
  rw [Chip.onPort_same]
  dsimp only
  rw [lineOut_ingress, (lineOut_fields ..).2.1, hport, List.eraseP_cons_of_pos hopen]
  exact ⟨rfl, rfl⟩

/-- The end of the receive pad is waited for. -/
theorem arrives_late (n : Nat) (hkind : kindOf i.frame.msg = 0) (hrun : s.sys.chip.map.run = false)
    (hhop : nextHop (routeOf i.frame.msg) = none) :
    let y := (s.sys.await n).onChip (lineAdmitted p i)
    let d := strictXoff (passFirst p y.chip)
    n ≤ y.now ∧ (d.port p).ingress = [] ∧ (d.port p).dropCount = satInc (s.sys.chip.port p).dropCount := by
  have h := lineAdmitted_passes (p := p) (c := (s.sys.await n).chip) hkind (by rw [await_map_run]; exact hrun) hhop
  rw [await_port] at h
  exact ⟨le_await .., h⟩

theorem arrival_settled (hx : (s.sys.chip.port p).ingress = [i]) (hkind : kindOf i.frame.msg = 0) (hgate : i.gate = none)
    (hrun : s.sys.chip.map.run = false) (hhop : nextHop (routeOf i.frame.msg) = none) :
    Gives (exec (.scheduledLineArrival p) s) fun t => keepsMemory s t ∧ i.ready ≤ t.sys.now ∧
      (t.sys.chip.port p).ingress = [] ∧ (t.sys.chip.port p).dropCount = satInc (s.sys.chip.port p).dropCount := by
  rw [exec_scheduledLineArrival, execScheduledLineArrival, onSys_eq]
  rw [awaitFrame_one hx hkind hgate hrun]
  exact ⟨_, rfl, ⟨rfl, rfl⟩, arrives_late i.ready hkind hrun hhop⟩

end

/-- Settles O31. -/
theorem scheduledLinesPassOn : Obligations.ScheduledLinesPassOn := by
  unfold Obligations.ScheduledLinesPassOn
  refine ⟨fun s p r hr => ?_, fun s p i => arrival_settled⟩
  intro c isOpen taken hpad hquiet
  rw [passes_next hr hpad]
  refine ⟨fun hnone => ?_, fun i hi => ⟨fun out route hhop => ⟨?_, ?_⟩, ?_, ?_, ?_⟩⟩
  · have hsame : strictXoff (passFirst p s.sys.chip) = s.sys.chip := by
      rw [passFirst_none hnone, strictXoff_quiet hquiet]
    rw [withChip_congr (g := id) hsame]
    rfl
  · exact passes_carried hquiet hi hhop
  · exact passes_dropped hquiet hi hhop
  · exact passes_stopped hquiet hi
  · exact passes_arrives hquiet hi
  · exact passes_refused hquiet hi

end Sys2Proof.Machine
end

section
/-! PROOFS. O30, first part: the frame that leaves a port in its turn (09 R225; 10 R268; 11 R291). -/

namespace Sys2Proof.Machine

/-! Where nothing waits on the way to a port, its turn finds the chip as it is. -/

/-- Only the links' records of the mesh change, in which no line is under way. -/
structure QuietMesh (c d : Chip) : Prop where
  eq : d = { c with cmp := { c.cmp with mesh := d.cmp.mesh } }
  lines : d.cmp.mesh.lines = []

section
variable {c d : Chip}

theorem QuietMesh.port (h : QuietMesh c d) (q : PortId) : d.port q = c.port q := by rw [h.eq]; rfl

theorem QuietMesh.tile (h : QuietMesh c d) (q : Fin 320) : d.tile q = c.tile q := by rw [h.eq]; rfl

theorem enterEdges_quiet (v : Nat) (h : d.cmp.mesh.lines = []) : enterEdges v d = d := by
  simp [enterEdges, h]

theorem meshAdvance_quiet (hq : ∀ q, (c.tile q).sendq = []) (hl : c.cmp.mesh.lines = []) : QuietMesh c (meshAdvance c) := by
  unfold meshAdvance
  extract_lets cmp d
  have hd : QuietMesh c d := by
    refine ⟨rfl, ?_⟩
    show (passLinks c c.cmp.mesh).lines = []
    unfold passLinks
    dsimp only
    split <;> exact hl
  generalize List.range (16 * d.map.vc) = vs
  clear_value d
  induction vs generalizing d with
  | nil => exact hd
  | cons v vs ih =>
    rw [List.foldl_cons, enterEdges_quiet v hd.lines, sendHead_of_empty fun q => by rw [hd.tile]; exact hq q]
    exact ih d hd

theorem advancePipe_empty (q : PortId) (h : (c.port q).pipe = []) : advancePipe c q = c := by
  simp [advancePipe, h]

theorem fillCycle_empty (q : PortId) (h : (c.port q).fills = []) : fillCycle c q = c := by
  simp [fillCycle, h, nextFill]

theorem advanceAll_empty (h : ∀ q, (c.port q).pipe = [] ∧ (c.port q).fills = []) (l : List PortId) :
    l.foldl (fun c q => fillCycle (advancePipe c q) q) c = c := by
  induction l with
  | nil => rfl
  | cons q l ih => rw [List.foldl_cons, advancePipe_empty q (h q).1, fillCycle_empty q (h q).2, ih]

theorem deliverPorts_quiet (hq : ∀ q, (c.tile q).sendq = []) (hl : c.cmp.mesh.lines = [])
    (hports : ∀ q, (c.port q).pipe = [] ∧ (c.port q).fills = []) : QuietMesh c (deliverPorts c) := by
  have hm := meshAdvance_quiet hq hl
  unfold deliverPorts
  extract_lets d isDue due cmp mesh e f
  have hd : QuietMesh c d := hm
  have he : QuietMesh c e := by
    refine ⟨?_, ?_⟩
    · unfold e cmp mesh
      rw [hd.eq]
    · show d.cmp.mesh.lines.filter _ = []
      rw [hd.lines]
      rfl
  have hdue : due = [] := by
    unfold due
    rw [hd.lines]
    rfl
  have hf : f = e := by
    unfold f
    rw [hdue]
    rfl
  rw [hf, advanceAll_empty fun q => by rw [he.port]; exact hports q]
  exact he

end

/-! The choice of the next frame (10 R268). -/

section
variable {c : Chip} {x : Port}

/-- A choice of a frame that is sent for the first time. -/
def Pick.fresh : Pick → Bool
  | .resend _ => false
  | .nothing => false
  | _ => true

/-- What leaves when no frame of a higher rank does. -/
def restPick (c : Chip) (x : Port) : Pick := if x.linkDue then .link (linkFrame c) else .idle

/-- What leaves when no scheduled line does. -/
def laterPick (c : Chip) (x : Port) : Pick :=
  if schedSoon c x then restPick c x
  else match pickTime x with
    | some (k, f) => .time k f
    | none =>
      match (if c.map.run && c.time.strict then none else x.host.head?), x.mgmt with
      | some f, _ => .host f
      | none, f :: _ => .mgmt f
      | none, [] => restPick c x

/-- What leaves where no XOFF holds. -/
def openPick (c : Chip) (x : Port) : Pick :=
  match pickSched c.cmp.cycles x.sched with
  | some (i, l) => .sched i l.frame
  | none => laterPick c x

section
variable (hresend : x.resend = 0) (hroom : x.replay.length < 128) (hbusy : c.pwr.busy = false)
include hresend hroom hbusy

theorem pickFrame_turn : pickFrame c x = if x.xoffIn then restPick c x else openPick c x := by
  unfold pickFrame
  rw [if_neg (by simp [hbusy]), if_neg (by simp [hresend]), if_neg (by omega), if_neg (by simp [hbusy])]
  rfl

theorem pickFrame_xoff (h : x.xoffIn = true) : pickFrame c x = restPick c x := by
  rw [pickFrame_turn hresend hroom hbusy, if_pos h]

theorem pickFrame_open (h : x.xoffIn = false) : pickFrame c x = openPick c x := by
  rw [pickFrame_turn hresend hroom hbusy, if_neg (by simp [h])]

end

theorem openPick_sched {l : SchedLine} (h : x.sched = [l]) (hdue : l.due ≤ c.cmp.cycles) (hlag : l.behindLag = false) :
    openPick c x = .sched 0 l.frame := by
  have hpick : pickSched c.cmp.cycles [l] = some (0, l) := by
    simp [pickSched, hlag, Nat.not_lt.mpr hdue]
  simp only [openPick, h, hpick]

section
variable (hsched : x.sched = []) (hpipe : x.pipe = [])
include hsched hpipe

omit hpipe in
theorem openPick_later : openPick c x = laterPick c x := by
  simp only [openPick, hsched]
  rfl

theorem laterPick_time {k : Fin 4} {f : Frame} (h : pickTime x = some (k, f)) : laterPick c x = .time k f := by
  have hsoon : schedSoon c x = false := by simp [schedSoon, hsched, hpipe]
  simp only [laterPick, hsoon, h, Bool.false_eq_true, if_false]

section
variable (htime : pickTime x = none) (hquiet : c.map.run = false ∨ c.time.strict = false)
include htime hquiet

theorem laterPick_quiet : laterPick c x = match x.host.head?, x.mgmt with
    | some f, _ => .host f
    | none, f :: _ => .mgmt f
    | none, [] => restPick c x := by
  have hsoon : schedSoon c x = false := by simp [schedSoon, hsched, hpipe]
  have hfree : (c.map.run && c.time.strict) = false := by rcases hquiet with h | h <;> simp [h]
  simp only [laterPick, hsoon, htime, hfree, Bool.false_eq_true, if_false]

theorem laterPick_host {f : Frame} {fs : List Frame} (h : x.host = f :: fs) : laterPick c x = .host f := by
  rw [laterPick_quiet hsched hpipe htime hquiet, h]
  rfl

theorem laterPick_mgmt {f : Frame} {fs : List Frame} (hhost : x.host = []) (h : x.mgmt = f :: fs) :
    laterPick c x = .mgmt f := by
  rw [laterPick_quiet hsched hpipe htime hquiet, hhost, h]
  rfl

theorem laterPick_rest (hhost : x.host = []) (hmgmt : x.mgmt = []) : laterPick c x = restPick c x := by
  rw [laterPick_quiet hsched hpipe htime hquiet, hhost, hmgmt]
  rfl

end

end

theorem pickTime_eq (x : Port) : pickTime x =
    ((x.time[(2 : Fin 4)]).map fun f => ((2 : Fin 4), f)).or
      (((x.time[(3 : Fin 4)]).map fun f => ((3 : Fin 4), f)).or
        (((x.time[(1 : Fin 4)]).map fun f => ((1 : Fin 4), f)).or ((x.time[(0 : Fin 4)]).map fun f => ((0 : Fin 4), f)))) := by
  unfold pickTime
  simp only [List.findSome?_cons, List.findSome?_nil]
  cases x.time[(2 : Fin 4)] <;> cases x.time[(3 : Fin 4)] <;> cases x.time[(1 : Fin 4)] <;> cases x.time[(0 : Fin 4)] <;> rfl

end

/-! The frame on the line. -/

section
variable {x : Port}

theorem updateHoldReq_eq (x : Port) : ∃ b, updateHoldReq x = { x with holdReq := b } := by
  unfold updateHoldReq
  split
  · exact ⟨true, rfl⟩
  · split
    · exact ⟨false, rfl⟩
    · exact ⟨x.holdReq, rfl⟩

/-- A frame that is sent for the first time is numbered and kept. -/
theorem afterPick_fresh (pk : Pick) (f : Frame) (now : Nat) (x : Port) (h : pk.fresh = true) :
    let y := afterPick pk f now x
    y.txSeq = x.txSeq + 1 ∧ y.replay = x.replay ++ [f] ∧ y.rxSeq = x.rxSeq := by
  cases pk with
  | resend g => cases h
  | nothing => cases h
  | sched i g =>
    have hkept : ∀ x : Port, (updateHoldReq x).txSeq = x.txSeq ∧ (updateHoldReq x).replay = x.replay ∧
        (updateHoldReq x).rxSeq = x.rxSeq := by
      intro x
      obtain ⟨b, hb⟩ := updateHoldReq_eq x
      rw [hb]
      exact ⟨rfl, rfl, rfl⟩
    exact hkept _
  | time k g => exact ⟨rfl, rfl, rfl⟩
  | host g => exact ⟨rfl, rfl, rfl⟩
  | mgmt g => exact ⟨rfl, rfl, rfl⟩
  | link g => exact ⟨rfl, rfl, rfl⟩
  | idle => exact ⟨rfl, rfl, rfl⟩

/-- The chip after a frame that is sent for the first time. -/
def frameSent (p : PortId) (pk : Pick) (f : Frame) (now : Nat) (c : Chip) : Chip :=
  let c := c.onPort p fun x => { afterPick pk f now x with nakDue := false }
  match pk with
  | .host f => markWon f now c
  | _ => c

theorem linkStep_frameSent (p : PortId) (pk : Pick) (f : Frame) (now : Nat) (c : Chip) :
    LinkStep p c (frameSent p pk f now c) := by
  unfold frameSent
  split
  · exact (linkStep_onPort ..).trans (linkStep_markWon ..)
  · exact linkStep_onPort ..

theorem frameSent_port (p : PortId) (pk : Pick) (f : Frame) (now : Nat) (c : Chip) :
    (frameSent p pk f now c).port p = { afterPick pk f now (c.port p) with nakDue := false } := by
  unfold frameSent
  split
  · rw [Chip.port, markWon_ports]
    exact Chip.onPort_same ..
  · exact Chip.onPort_same ..

theorem markWon_time (f : Frame) (now : Nat) (c : Chip) : (markWon f now c).time = c.time := by
  unfold markWon
  dsimp only
  split <;> rfl

theorem frameSent_time (p : PortId) (pk : Pick) (f : Frame) (now : Nat) (c : Chip) :
    (frameSent p pk f now c).time = c.time := by
  unfold frameSent
  split
  · exact markWon_time ..
  · rfl

theorem egressFrame_fresh {p : PortId} {y : Sys} {pk : Pick} {f : Frame} (hup : (y.chip.port p).st = .up)
    (hroom : (y.chip.port p).replay.length < 128) (hpk : pickFrame y.chip (y.chip.port p) = pk) (hfresh : pk.fresh = true)
    (hf : pickedFrame y.chip.time.gtc pk = f) :
    egressFrame p y = (y.onChip (frameSent p pk f y.now)).emit (.link p (encodeFrame (y.chip.port p).txSeq
      ⟨(y.chip.port p).rxSeq - 1, (y.chip.port p).nakDue, (y.chip.port p).xoffOut, f.typ, false⟩ f.payload f.msg)) := by
  have hfull : ¬(decide (128 ≤ (y.chip.port p).replay.length) && (y.chip.port p).resend == 0) = true := by
    simp only [Bool.and_eq_true, decide_eq_true_eq]
    omega
  unfold egressFrame
  dsimp only
  rw [if_neg hfull, hpk, hf]
  cases pk with
  | resend g => cases hfresh
  | nothing => cases hfresh
  | sched i g => rw [if_neg (by simp [hup])]; rfl
  | time k g => rw [if_neg (by simp [hup])]; rfl
  | host g => rw [if_neg (by simp [hup])]; rfl
  | mgmt g => rw [if_neg (by simp [hup])]; rfl
  | link g => rw [if_neg (by simp [hup])]; rfl
  | idle => rw [if_neg (by simp [hup])]; rfl

end

/-! The turn as a whole. -/

section
variable {s : State} {p : PortId}

/-- A port's turn that sends frame f for the first time. -/
def sentFirst (p : PortId) (f : Frame) (s t : State) : Prop :=
  let c := s.sys.chip
  let x := c.port p
  let y := t.sys.chip.port p
  keepsMemory s t ∧ (∀ q, q ≠ p → t.sys.chip.port q = c.port q) ∧ t.sys.chip.cmp.tiles = c.cmp.tiles ∧
  y.txSeq = x.txSeq + 1 ∧ y.replay = x.replay ++ [f] ∧ y.nakDue = false ∧ y.rxSeq = x.rxSeq ∧
  t.sys.out = s.sys.out ++ [.link p (encodeFrame x.txSeq ⟨x.rxSeq - 1, x.nakDue, x.xoffOut, f.typ, false⟩ f.payload f.msg)]

section
variable (hup : (s.sys.chip.port p).st = .up) (hroom : (s.sys.chip.port p).replay.length < 128)
  (hq : ∀ q, (s.sys.chip.tile q).sendq = []) (hl : s.sys.chip.cmp.mesh.lines = [])
  (hports : ∀ q, (s.sys.chip.port q).pipe = [] ∧ (s.sys.chip.port q).fills = [])
  (hquiet : s.sys.chip.map.run = false ∨ s.sys.chip.time.strict = false)
include hup hroom hq hl hports hquiet

theorem turn_sends {pk : Pick} (hpk : pickFrame s.sys.chip (s.sys.chip.port p) = pk) (hfresh : pk.fresh = true) :
    Gives (exec (.egressArbitration p) s) (sentFirst p (pickedFrame s.sys.chip.time.gtc pk) s) := by
  have hd := deliverPorts_quiet hq hl hports
  generalize hdef : deliverPorts s.sys.chip = d at hd
  generalize hf : pickedFrame s.sys.chip.time.gtc pk = f
  have hx := hd.port p
  have hpicks : pickFrame d (d.port p) = pk := by
    rw [hx, ← hpk, hd.eq]
    rfl
  have hsent := egressFrame_fresh (p := p) (y := { s.sys with chip := d }) (pk := pk) (f := f)
    (by dsimp only; rw [hx]; exact hup) (by dsimp only; rw [hx]; exact hroom) hpicks hfresh
    (by dsimp only; rw [hd.eq]; exact hf)
  rw [exec_egressArbitration, execEgressArbitration, onSys_eq]
  have hy : s.sys.onChip deliverPorts = { s.sys with chip := d } := by rw [← hdef]; rfl
  rw [hy, hsent]
  have hstep := linkStep_frameSent p pk f s.sys.now d
  have hport := frameSent_port p pk f s.sys.now d
  obtain ⟨hseq, hreplay, hrx⟩ := afterPick_fresh pk f s.sys.now (d.port p) hfresh
  have hstill : (frameSent p pk f s.sys.now d).map.run = false ∨ (frameSent p pk f s.sys.now d).time.strict = false := by
    rw [hstep.map, frameSent_time, hd.eq]
    exact hquiet
  refine ⟨_, rfl, ⟨rfl, rfl⟩, ?_⟩
  dsimp only [Sys.onChip, Sys.emit]
  rw [strictXoff_quiet hstill, hport, hx] at *
  refine ⟨fun q hne => (hstep.others q hne).trans (hd.port q), ?_, hseq, hreplay, rfl, hrx, rfl⟩
  rw [hstep.cmp, hd.eq]

section
variable (hresend : (s.sys.chip.port p).resend = 0) (hbusy : s.sys.chip.pwr.busy = false)
include hresend hbusy

omit hresend hbusy in
theorem turn_sendsRest (hpk : pickFrame s.sys.chip (s.sys.chip.port p) = restPick s.sys.chip (s.sys.chip.port p)) :
    Gives (exec (.egressArbitration p) s)
      (sentFirst p (if (s.sys.chip.port p).linkDue then linkFrame s.sys.chip else idleFrame) s) := by
  have h := turn_sends hup hroom hq hl hports hquiet hpk
  rw [restPick] at h
  split at h
  · next hdue => rw [if_pos hdue]; exact h rfl
  · next hdue => rw [if_neg hdue]; exact h rfl

theorem turn_sendsTime (hxoff : (s.sys.chip.port p).xoffIn = false) (hsched : (s.sys.chip.port p).sched = []) {k : Fin 4}
    {f : Frame} (htime : pickTime (s.sys.chip.port p) = some (k, f)) :
    Gives (exec (.egressArbitration p) s) (sentFirst p (stampSync s.sys.chip.time.gtc k f) s) := by
  refine turn_sends hup hroom hq hl hports hquiet (pk := .time k f) ?_ rfl
  rw [pickFrame_open hresend hroom hbusy hxoff, openPick_later hsched, laterPick_time hsched (hports p).1 htime]

end

end
end

theorem pickTime_empty {x : Port} (h : x.time = Vector.replicate 4 none) : pickTime x = none := by
  rw [pickTime_eq, h]
  rfl

theorem turns_send (s : State) (p : PortId) :
    let c := s.sys.chip
    let x := c.port p
    x.st = .up → x.resend = 0 → x.replay.length < 128 → (∀ q, (c.tile q).sendq = []) → c.cmp.mesh.lines = [] →
    (∀ q, (c.port q).pipe = [] ∧ (c.port q).fills = []) →
    (c.map.run = false ∨ c.time.strict = false) → c.pwr.busy = false →
    let rest := if x.linkDue then linkFrame c else idleFrame
    let sends := fun (f : Frame) => Gives (exec (.egressArbitration p) s) (sentFirst p f s)
    (x.xoffIn = true → sends rest) ∧
    (x.xoffIn = false →
      (∀ l, x.sched = [l] → l.due ≤ c.cmp.cycles → l.behindLag = false → sends l.frame) ∧
      (x.sched = [] →
        (∀ f, x.time[(2 : Fin 4)] = some f → sends f) ∧
        (∀ f, x.time[(2 : Fin 4)] = none → x.time[(3 : Fin 4)] = some f → sends f) ∧
        (∀ f, x.time[(2 : Fin 4)] = none → x.time[(3 : Fin 4)] = none → x.time[(1 : Fin 4)] = some f → sends f) ∧
        (∀ f, x.time[(2 : Fin 4)] = none → x.time[(3 : Fin 4)] = none → x.time[(1 : Fin 4)] = none →
          x.time[(0 : Fin 4)] = some f → sends (stampSync c.time.gtc 0 f)) ∧
        (x.time = Vector.replicate 4 none →
          (∀ f fs, x.host = f :: fs → sends f) ∧
          (∀ f fs, x.host = [] → x.mgmt = f :: fs → sends f) ∧
          (x.host = [] → x.mgmt = [] → sends rest)))) := by
  intro c x hup hresend hroom hq hl hports hquiet hbusy rest sends
  have hpick := pickFrame_open (c := c) hresend hroom hbusy
  have htime := fun hxoff hsched {k f} =>
    turn_sendsTime (k := k) (f := f) hup hroom hq hl hports hquiet hresend hbusy hxoff hsched
  refine ⟨fun hxoff => turn_sendsRest hup hroom hq hl hports hquiet
      (pickFrame_xoff hresend hroom hbusy hxoff), fun hxoff => ⟨fun l hsched hdue hlag => ?_, fun hsched =>
    ⟨fun f h2 => ?_, fun f h2 h3 => ?_, fun f h2 h3 h1 => ?_, fun f h2 h3 h1 h0 => ?_, fun hnone => ?_⟩⟩⟩
  · exact turn_sends hup hroom hq hl hports hquiet (pk := .sched 0 l.frame)
      ((hpick hxoff).trans (openPick_sched hsched hdue hlag)) rfl
  · exact htime hxoff hsched (k := 2) (by rw [pickTime_eq, h2]; rfl)
  · exact htime hxoff hsched (k := 3) (by rw [pickTime_eq, h2, h3]; rfl)
  · exact htime hxoff hsched (k := 1) (by rw [pickTime_eq, h2, h3, h1]; rfl)
  · exact htime hxoff hsched (k := 0) (by rw [pickTime_eq, h2, h3, h1, h0]; rfl)
  · have hempty := pickTime_empty hnone
    have hlater := (hpick hxoff).trans (openPick_later hsched)
    refine ⟨fun f fs hhost => ?_, fun f fs hhost hmgmt => ?_, fun hhost hmgmt => ?_⟩
    · exact turn_sends hup hroom hq hl hports hquiet (pk := .host f)
        (hlater.trans (laterPick_host hsched (hports p).1 hempty hquiet hhost)) rfl
    · exact turn_sends hup hroom hq hl hports hquiet (pk := .mgmt f)
        (hlater.trans (laterPick_mgmt hsched (hports p).1 hempty hquiet hhost hmgmt)) rfl
    · exact turn_sendsRest hup hroom hq hl hports hquiet
        (hlater.trans (laterPick_rest hsched (hports p).1 hempty hquiet hhost hmgmt))

end Sys2Proof.Machine
end

section
/-! PROOFS. O30, second part: a frame that a port receives (09 R228-R232, R242; 10 R252; 11 R304). -/

namespace Sys2Proof.Machine

/-! The corrected bytes of the running interval. -/

/-- The same lanes are in use, with the same threshold and the same counts of the running interval. -/
structure SameLanes (x y : Port) : Prop where
  used : x.used = y.used
  thresh : x.failThresh = y.failThresh
  counts : x.laneMs = y.laneMs
  since : x.laneMsAt = y.laneMsAt

/-- The port after a frame's corrected bytes have been counted. -/
def counted (now : Nat) (fixed : List Nat) (x : Port) : Port := fixed.foldl countCorrection (rollLaneMs now x)

section
variable {x y z : Port}

theorem SameLanes.trans (h : SameLanes x y) (k : SameLanes y z) : SameLanes x z :=
  ⟨h.used.trans k.used, h.thresh.trans k.thresh, h.counts.trans k.counts, h.since.trans k.since⟩

theorem lanesOver_congr (h : SameLanes x y) : lanesOver x = lanesOver y := by
  unfold lanesOver
  rw [h.used, h.thresh, h.counts]

theorem rollLaneMs_congr (now : Nat) (h : SameLanes x y) : SameLanes (rollLaneMs now x) (rollLaneMs now y) := by
  unfold rollLaneMs
  rw [h.since]
  split
  · exact ⟨h.used, h.thresh, rfl, rfl⟩
  · exact h

theorem countCorrection_congr (i : Nat) (h : SameLanes x y) : SameLanes (countCorrection x i) (countCorrection y i) := by
  have hlane : laneOfByte x i = laneOfByte y i := by rw [laneOfByte, laneOfByte, h.used]
  unfold countCorrection
  rw [hlane]
  split
  · refine ⟨h.used, h.thresh, ?_, h.since⟩
    dsimp only
    rw [h.counts]
  · exact h

theorem counted_congr (now : Nat) (fixed : List Nat) (h : SameLanes x y) :
    SameLanes (counted now fixed x) (counted now fixed y) := by
  unfold counted
  have hr := rollLaneMs_congr now h
  generalize rollLaneMs now x = a at hr
  generalize rollLaneMs now y = b at hr
  induction fixed generalizing a b with
  | nil => exact hr
  | cons i fixed ih => exact ih _ _ (countCorrection_congr i hr)

/-- Counting changes a port's lane counts only. -/
theorem counted_eq (now : Nat) (fixed : List Nat) (x : Port) : ∃ corr ms since,
    counted now fixed x = { x with
      laneCorr := corr
      laneMs := ms
      laneMsAt := since } := by
  have hr : ∃ corr ms since, rollLaneMs now x = { x with
      laneCorr := corr
      laneMs := ms
      laneMsAt := since } := by
    unfold rollLaneMs
    split
    · exact ⟨_, _, _, rfl⟩
    · exact ⟨_, _, _, rfl⟩
  unfold counted
  generalize rollLaneMs now x = a at hr
  induction fixed generalizing a with
  | nil => exact hr
  | cons i fixed ih =>
    refine ih _ ?_
    obtain ⟨corr, ms, since, rfl⟩ := hr
    unfold countCorrection
    split
    · exact ⟨_, _, _, rfl⟩
    · exact ⟨_, _, _, rfl⟩

/-- No lane is over its threshold: the bytes are counted, and nothing else happens. -/
theorem countFixed_within {p : PortId} {fixed : List Nat} {now : Nat} {c : Chip} {x : Port} (hx : SameLanes (c.port p) x)
    (hover : lanesOver (counted now fixed x) = 0) : countFixed p fixed now c = c.onPort p (counted now fixed) := by
  unfold countFixed
  dsimp only
  rw [if_pos]
  · rfl
  · have hport : (c.onPort p fun x => fixed.foldl countCorrection (rollLaneMs now x)).port p = counted now fixed (c.port p) :=
      Chip.onPort_same ..
    rw [hport, lanesOver_congr (counted_congr now fixed hx), hover]
    rfl

end

/-! What the port keeps as a frame's message is taken. -/

/-- The lanes, the receive sequence number and the record of rejected frames are as before. -/
structure PortKept (x y : Port) : Prop where
  lanes : SameLanes y x
  rxSeq : y.rxSeq = x.rxSeq
  nakOut : y.nakOut = x.nakOut
  rejects : y.rejectCount = x.rejectCount

/-- Of a port, of the collector and of the fabric's counts only, a step changes something. -/
structure FrameStep (p : PortId) (c d : Chip) : Prop where
  others : ∀ q, q ≠ p → d.port q = c.port q
  map : d.map = c.map
  time : d.time = c.time

section
variable {p : PortId} {c d e : Chip} {x y z : Port}

theorem PortKept.refl (x : Port) : PortKept x x := ⟨⟨rfl, rfl, rfl, rfl⟩, rfl, rfl, rfl⟩

theorem PortKept.trans (h : PortKept x y) (k : PortKept y z) : PortKept x z :=
  ⟨k.lanes.trans h.lanes, k.rxSeq.trans h.rxSeq, k.nakOut.trans h.nakOut, k.rejects.trans h.rejects⟩

theorem FrameStep.refl (p : PortId) (c : Chip) : FrameStep p c c := ⟨fun _ _ => rfl, rfl, rfl⟩

theorem FrameStep.trans (h : FrameStep p c d) (k : FrameStep p d e) : FrameStep p c e :=
  ⟨fun q hq => (k.others q hq).trans (h.others q hq), k.map.trans h.map, k.time.trans h.time⟩

theorem frameStep_onPort (f : Port → Port) (c : Chip) : FrameStep p c (c.onPort p f) :=
  ⟨fun _ hq => Chip.onPort_other _ hq f, rfl, rfl⟩

/-- The frame is put in the receive pad, and every frame whose pad is over is admitted. -/
theorem admitPort_port (now : Nat) (c : Chip) : FrameStep p c (admitPort now p c) ∧
    ∃ is b, (admitPort now p c).port p = { c.port p with
        ingress := is
        xoffOut := b } ∧
      is.map (·.frame) = (c.port p).ingress.map (·.frame) ∧ is.map (·.ready) = (c.port p).ingress.map (·.ready) := by
  unfold admitPort
  split
  · exact ⟨FrameStep.refl .., _, _, rfl, rfl, rfl⟩
  · refine ⟨frameStep_onPort .., ?_⟩
    obtain ⟨b, hb⟩ := ingressXoff_eq { c.port p with ingress := (c.port p).ingress.map (admitFrame c now (c.port p)) }
    have hframe : ∀ i, (admitFrame c now (c.port p) i).frame = i.frame ∧ (admitFrame c now (c.port p) i).ready = i.ready := by
      intro i
      unfold admitFrame
      split <;> exact ⟨rfl, rfl⟩
    refine ⟨_, b, by rw [Chip.onPort_same]; exact hb, ?_, ?_⟩
    · rw [List.map_map]
      exact List.map_congr_left fun i _ => (hframe i).1
    · rw [List.map_map]
      exact List.map_congr_left fun i _ => (hframe i).2

theorem takeMessage_step (f : Frame) (now : Nat) (c : Chip) :
    FrameStep p c (takeMessage p f now c) ∧ PortKept (c.port p) ((takeMessage p f now c).port p) := by
  unfold takeMessage
  extract_lets kind
  split
  · have hport : ∀ q, (c.routeError 7 p.val 0).port q = c.port q := by
      intro q
      unfold Chip.routeError
      dsimp only
      split <;> rfl
    rw [hport]
    exact ⟨⟨fun q _ => hport q, rfl, rfl⟩, PortKept.refl _⟩
  · split
    · exact ⟨⟨fun _ _ => rfl, rfl, rfl⟩, PortKept.refl _⟩
    · obtain ⟨hstep, is, b, hport, -, -⟩ := admitPort_port (p := p) now (c.onPort p fun x =>
        { x with ingress := x.ingress ++ [⟨f, now + padOf c.time.strict kind x, none⟩] })
      refine ⟨(frameStep_onPort ..).trans hstep, ?_⟩
      rw [hport, Chip.onPort_same]
      exact ⟨⟨rfl, rfl, rfl, rfl⟩, rfl, rfl, rfl⟩

/-- A scheduled line joins the ingress. -/
theorem takeMessage_sched (f : Frame) (now : Nat) (c : Chip) (hkind : kindOf f.msg = 0) :
    let y := (takeMessage p f now c).port p
    y.ingress.map (·.frame) = (c.port p).ingress.map (·.frame) ++ [f] ∧
    (c.time.strict = false → y.ingress.getLast?.map (·.ready) = some (now + Config.ns (c.port p).pad.toNat)) := by
  have hm : takeMessage p f now c = admitPort now p (c.onPort p fun x =>
      { x with ingress := x.ingress ++ [⟨f, now + padOf c.time.strict 0 x, none⟩] }) := by
    unfold takeMessage
    simp only [hkind]
    rfl
  obtain ⟨-, is, b, hport, hframes, hready⟩ := admitPort_port (p := p) now (c.onPort p fun x =>
    { x with ingress := x.ingress ++ [⟨f, now + padOf c.time.strict 0 x, none⟩] })
  rw [Chip.onPort_same] at hframes hready
  dsimp only
  rw [hm, hport]
  refine ⟨?_, fun hstrict => ?_⟩
  · rw [hframes]
    simp
  · rw [← List.getLast?_map, hready, List.map_append, List.map_singleton, List.getLast?_append, hstrict]
    rfl

end

/-! Rejected and accepted frames. -/

section
variable {x : Port}

theorem rejectFrame_lanes (now : Nat) (x : Port) : SameLanes (rejectFrame now x) x := by
  unfold rejectFrame
  split <;> exact ⟨rfl, rfl, rfl, rfl⟩

theorem rejectFrame_fields (now : Nat) (x : Port) :
    let y := rejectFrame now x
    y.rxSeq = x.rxSeq ∧ y.ingress = x.ingress ∧
    (x.nakOut = true → y.rejectCount = x.rejectCount ∧ y.nakDue = x.nakDue) ∧
    (x.nakOut = false → y.rejectCount = satInc x.rejectCount ∧ y.nakDue = true ∧ y.nakOut = true) := by
  cases h : x.nakOut with
  | true =>
    have hy : rejectFrame now x = { x with late := (x.late.1, x.late.2 + 1) } := if_pos h
    rw [hy]
    exact ⟨rfl, rfl, fun _ => ⟨rfl, rfl⟩, fun hfalse => absurd hfalse (by decide)⟩
  | false =>
    unfold rejectFrame
    rw [h, if_neg (by decide)]
    exact ⟨rfl, rfl, fun htrue => absurd htrue (by decide), fun _ => ⟨rfl, rfl, rfl⟩⟩

/-- Its ingress and its receive pad are as before, too. -/
structure PortHeld (x y : Port) : Prop where
  kept : PortKept x y
  ingress : y.ingress = x.ingress
  pad : y.pad = x.pad

theorem ackFrames_held (now : Nat) (ackSeq : BitVec 10) (x : Port) : PortHeld x (ackFrames now ackSeq x) := by
  unfold ackFrames
  dsimp only
  split
  · exact ⟨⟨⟨rfl, rfl, rfl, rfl⟩, rfl, rfl, rfl⟩, rfl, rfl⟩
  · exact ⟨PortKept.refl _, rfl, rfl⟩

theorem takeXoff_held (xoff : Bool) (x : Port) : PortHeld x (takeXoff xoff x) := by
  unfold takeXoff
  obtain ⟨b, hb⟩ := updateHoldReq_eq { x with
    xoffIn := xoff
    xoffCount := if xoff && !x.xoffIn then satInc x.xoffCount else x.xoffCount }
  rw [hb]
  exact ⟨⟨⟨rfl, rfl, rfl, rfl⟩, rfl, rfl, rfl⟩, rfl, rfl⟩

/-- An accepted frame changes what acknowledgement, XOFF and the replay's delay concern, and the sequence number. -/
theorem acceptFrame_fields (now : Nat) (l : Lctl) (x : Port) :
    let y := acceptFrame now l x
    SameLanes y x ∧ y.rxSeq = x.rxSeq + 1 ∧ y.rejectCount = x.rejectCount ∧ y.nakOut = false ∧ y.ingress = x.ingress ∧
    y.pad = x.pad := by
  unfold acceptFrame
  extract_lets late
  have hack := ackFrames_held now l.ackSeq { x with
    rxSeq := x.rxSeq + 1
    nakOut := false
    nakDue := false
    rejectAt := none
    late := late }
  have hxoff := takeXoff_held l.xoff (ackFrames now l.ackSeq { x with
    rxSeq := x.rxSeq + 1
    nakOut := false
    nakDue := false
    rejectAt := none
    late := late })
  have hboth := hack.kept.trans hxoff.kept
  exact ⟨hboth.lanes.trans ⟨rfl, rfl, rfl, rfl⟩, hboth.rxSeq, hboth.rejects, hboth.nakOut,
    hxoff.ingress.trans hack.ingress, hxoff.pad.trans hack.pad⟩

end

/-- What a frame of a type brings. -/
def takeTyped (p : PortId) (f : Frame) (typ : BitVec 3) (now : Nat) (c : Chip) : Chip :=
  if typ == 1 then takeMessage p f now c else if typ == 2 then c.onPort p (takeLink f) else c

section
variable {p : PortId} {frame : List Byte} {now : Nat} {c : Chip}

theorem takeTyped_step (f : Frame) (typ : BitVec 3) :
    FrameStep p c (takeTyped p f typ now c) ∧ PortKept (c.port p) ((takeTyped p f typ now c).port p) := by
  unfold takeTyped
  split
  · exact takeMessage_step ..
  · split
    · rw [Chip.onPort_same]
      exact ⟨frameStep_onPort .., ⟨rfl, rfl, rfl, rfl⟩, rfl, rfl, rfl⟩
    · exact ⟨FrameStep.refl .., PortKept.refl _⟩

theorem takeTyped_ingress (f : Frame) {typ : BitVec 3} (h : typ ≠ 1) :
    ((takeTyped p f typ now c).port p).ingress = (c.port p).ingress := by
  have htyp : (typ == 1) = false := by simpa using h
  rw [takeTyped, if_neg (by rw [htyp]; decide)]
  split
  · rw [Chip.onPort_same]
    rfl
  · rfl

theorem lessLate_held (x : Port) : PortHeld x (lessLate x) := ⟨⟨⟨rfl, rfl, rfl, rfl⟩, rfl, rfl, rfl⟩, rfl, rfl⟩

theorem receiveFrame_rejected (h : crcPasses (c.port p).rxSeq frame = false ∨
    ((c.port p).nakOut = true ∧ (frameLctl frame).rpl = false)) : receiveFrame p frame now c = c.onPort p (rejectFrame now) := by
  unfold receiveFrame
  dsimp only
  rw [if_neg]
  rcases h with h | ⟨hnak, hrpl⟩
  · simp [h]
  · simp [hnak, hrpl]

theorem receiveFrame_accepted (hcrc : crcPasses (c.port p).rxSeq frame = true)
    (h : (c.port p).nakOut = false ∨ (frameLctl frame).rpl = true) (hnak : (frameLctl frame).nak = false) :
    receiveFrame p frame now c = (takeTyped p (frameOf frame) (frameLctl frame).typ now
      (c.onPort p (acceptFrame now (frameLctl frame)))).onPort p lessLate := by
  have hpass : (crcPasses (c.port p).rxSeq frame && (!(c.port p).nakOut || (frameLctl frame).rpl)) = true := by
    rcases h with h | h <;> simp [hcrc, h]
  unfold receiveFrame
  dsimp only
  rw [if_pos hpass, hnak]
  rfl

end

/-! The frame's command. -/

section
variable {s : State} {p : PortId} {bytes : List Byte}

/-- What the receiver makes of a frame on a port that is UP. -/
def takeFrame (p : PortId) (r : FecResult) (now : Nat) (c : Chip) : Chip :=
  if r.ok then receiveFrame p r.bytes now c else c.onPort p (rejectFrame now)

section
variable (hup : (s.sys.chip.port p).st = .up) (hquiet : s.sys.chip.map.run = false ∨ s.sys.chip.time.strict = false)
  (hover : lanesOver ((fecDecode bytes).fixed.foldl countCorrection (rollLaneMs s.sys.now (s.sys.chip.port p))) = 0)
include hup hquiet hover

theorem receive_next {d : Chip} (hd : takeFrame p (fecDecode bytes) s.sys.now s.sys.chip = d) (hstep : FrameStep p s.sys.chip d)
    (hlanes : SameLanes (d.port p) (s.sys.chip.port p)) :
    exec (.frameReceive p bytes) s =
      .next (s.withChip fun _ => d.onPort p (counted s.sys.now (fecDecode bytes).fixed)) := by
  rw [exec_frameReceive, execFrameReceive, onSys_onChip]
  have hcarries : (s.sys.chip.port p).carries = true := by simp [Port.carries, hup]
  rw [withChip_congr (g := fun _ => d.onPort p (counted s.sys.now (fecDecode bytes).fixed))]
  rw [if_pos hcarries]
  dsimp only
  rw [if_neg (by simp [hup])]
  rw [takeFrame] at hd
  rw [hd, countFixed_within hlanes hover]
  refine strictXoff_quiet ?_
  show d.map.run = false ∨ d.time.strict = false
  rw [hstep.map, hstep.time]
  exact hquiet

theorem receive_gives {d : Chip} {P : Port → Prop} (hd : takeFrame p (fecDecode bytes) s.sys.now s.sys.chip = d)
    (hstep : FrameStep p s.sys.chip d) (hlanes : SameLanes (d.port p) (s.sys.chip.port p))
    (hport : ∀ corr ms since, P { d.port p with
      laneCorr := corr
      laneMs := ms
      laneMsAt := since }) :
    Gives (exec (.frameReceive p bytes) s) fun t => keepsMemory s t ∧
      (∀ q, q ≠ p → t.sys.chip.port q = s.sys.chip.port q) ∧ P (t.sys.chip.port p) := by
  rw [receive_next hup hquiet hover hd hstep hlanes]
  obtain ⟨corr, ms, since, hcounted⟩ := counted_eq s.sys.now (fecDecode bytes).fixed (d.port p)
  refine ⟨_, rfl, ⟨rfl, rfl⟩, fun q hq => ?_, ?_⟩
  · exact (Chip.onPort_other _ hq _).trans (hstep.others q hq)
  · show P ((d.onPort p _).port p)
    rw [Chip.onPort_same, hcounted]
    exact hport corr ms since

theorem receive_rejects (h : (fecDecode bytes).ok = false ∨
    crcPasses (s.sys.chip.port p).rxSeq (fecDecode bytes).bytes = false ∨
    ((s.sys.chip.port p).nakOut = true ∧ (frameLctl (fecDecode bytes).bytes).rpl = false)) :
    Gives (exec (.frameReceive p bytes) s) fun t =>
      let x := s.sys.chip.port p
      let y := t.sys.chip.port p
      keepsMemory s t ∧ (∀ q, q ≠ p → t.sys.chip.port q = s.sys.chip.port q) ∧ y.rxSeq = x.rxSeq ∧ y.ingress = x.ingress ∧
      (x.nakOut = true → y.rejectCount = x.rejectCount ∧ y.nakDue = x.nakDue) ∧
      (x.nakOut = false → y.rejectCount = satInc x.rejectCount ∧ y.nakDue = true ∧ y.nakOut = true) := by
  have hd : takeFrame p (fecDecode bytes) s.sys.now s.sys.chip = s.sys.chip.onPort p (rejectFrame s.sys.now) := by
    unfold takeFrame
    split
    · next hok => exact receiveFrame_rejected (h.resolve_left (by rw [hok]; decide))
    · rfl
  have hport := Chip.onPort_same s.sys.chip p (rejectFrame s.sys.now)
  refine receive_gives (P := fun y => y.rxSeq = (s.sys.chip.port p).rxSeq ∧ y.ingress = (s.sys.chip.port p).ingress ∧
      ((s.sys.chip.port p).nakOut = true →
        y.rejectCount = (s.sys.chip.port p).rejectCount ∧ y.nakDue = (s.sys.chip.port p).nakDue) ∧
      ((s.sys.chip.port p).nakOut = false →
        y.rejectCount = satInc (s.sys.chip.port p).rejectCount ∧ y.nakDue = true ∧ y.nakOut = true))
    hup hquiet hover hd (frameStep_onPort ..) (by rw [hport]; exact rejectFrame_lanes ..) ?_
  intro corr ms since
  rw [hport]
  exact rejectFrame_fields ..

/-- What an accepted frame leaves on its port. -/
def frameTaken (f : Frame) (typ : BitVec 3) (strict : Bool) (now : Nat) (x y : Port) : Prop :=
  y.rxSeq = x.rxSeq + 1 ∧ y.rejectCount = x.rejectCount ∧ y.nakOut = false ∧ (typ ≠ 1 → y.ingress = x.ingress) ∧
  (typ = 1 → kindOf f.msg = 0 → y.ingress.map (·.frame) = x.ingress.map (·.frame) ++ [f] ∧
    (strict = false → y.ingress.getLast?.map (·.ready) = some (now + Config.ns x.pad.toNat)))

theorem accepted_gives {l : Lctl} {f : Frame} (hd : takeFrame p (fecDecode bytes) s.sys.now s.sys.chip =
      (takeTyped p f l.typ s.sys.now (s.sys.chip.onPort p (acceptFrame s.sys.now l))).onPort p lessLate) :
    Gives (exec (.frameReceive p bytes) s) fun t => keepsMemory s t ∧
      (∀ q, q ≠ p → t.sys.chip.port q = s.sys.chip.port q) ∧
      frameTaken f l.typ s.sys.chip.time.strict s.sys.now (s.sys.chip.port p) (t.sys.chip.port p) := by
  obtain ⟨hlanes, hseq, hrejects, hnakOut, hingress, hpad⟩ := acceptFrame_fields s.sys.now l (s.sys.chip.port p)
  have hy := Chip.onPort_same s.sys.chip p (acceptFrame s.sys.now l)
  generalize haccepted : s.sys.chip.onPort p (acceptFrame s.sys.now l) = c at hd
  have hstrict : c.time.strict = s.sys.chip.time.strict := by rw [← haccepted]; rfl
  have hfirst : FrameStep p s.sys.chip c := by rw [← haccepted]; exact frameStep_onPort ..
  rw [haccepted] at hy
  rw [← hy] at hlanes hseq hrejects hnakOut hingress hpad
  obtain ⟨hstep, hkept⟩ := takeTyped_step (p := p) (now := s.sys.now) (c := c) f l.typ
  have hlate := lessLate_held ((takeTyped p f l.typ s.sys.now c).port p)
  have hall := hkept.trans hlate.kept
  have hport := Chip.onPort_same (takeTyped p f l.typ s.sys.now c) p lessLate
  refine receive_gives (P := frameTaken f l.typ s.sys.chip.time.strict s.sys.now (s.sys.chip.port p)) hup hquiet hover hd
    ((hfirst.trans hstep).trans (frameStep_onPort ..)) (by rw [hport]; exact hall.lanes.trans hlanes) ?_
  intro corr ms since
  rw [hport]
  refine ⟨hall.rxSeq.trans hseq, hall.rejects.trans hrejects, hall.nakOut.trans hnakOut, fun htyp => ?_, fun htyp hkind => ?_⟩
  · exact (hlate.ingress.trans (takeTyped_ingress f htyp)).trans hingress
  · have htaken : takeTyped p f l.typ s.sys.now c = takeMessage p f s.sys.now c := by rw [htyp]; rfl
    have hsched := takeMessage_sched (p := p) f s.sys.now c hkind
    rw [← htaken, hstrict, hingress, hpad] at hsched
    exact hsched

theorem receive_accepts (hok : (fecDecode bytes).ok = true)
    (hcrc : crcPasses (s.sys.chip.port p).rxSeq (fecDecode bytes).bytes = true)
    (h : (s.sys.chip.port p).nakOut = false ∨ (frameLctl (fecDecode bytes).bytes).rpl = true)
    (hnak : (frameLctl (fecDecode bytes).bytes).nak = false) :
    Gives (exec (.frameReceive p bytes) s) fun t => keepsMemory s t ∧
      (∀ q, q ≠ p → t.sys.chip.port q = s.sys.chip.port q) ∧
      frameTaken (frameOf (fecDecode bytes).bytes) (frameLctl (fecDecode bytes).bytes).typ s.sys.chip.time.strict s.sys.now
        (s.sys.chip.port p) (t.sys.chip.port p) := by
  have hd : takeFrame p (fecDecode bytes) s.sys.now s.sys.chip = _ :=
    (if_pos hok).trans (receiveFrame_accepted (now := s.sys.now) hcrc h hnak)
  exact accepted_gives hup hquiet hover hd
end

end

/-- Settles O30. -/
theorem framesLeaveAndArrive : Obligations.FramesLeaveAndArrive := by
  unfold Obligations.FramesLeaveAndArrive
  refine ⟨turns_send, fun s p bytes => ?_⟩
  intro c x r l hup hquiet hover
  exact ⟨receive_rejects hup hquiet hover, receive_accepts hup hquiet hover⟩

end Sys2Proof.Machine
end

section
/-! PROOFS. What an abort and the end of a run leave of the time base, the collector and the ports (11 R299, R300). -/

namespace Sys2Proof.Machine

/-! The chip's number, and what the ports are and pour. -/

/-- Of the fabric: its number, and each port's state and waiting time frames. -/
def Chip.pours (c : Chip) : BitVec 9 × Fin 16 × (PortId → PortState × Vector (Option Frame) 4) :=
  (c.fab.trayIdx, c.fab.slot, fun q => ((c.port q).st, (c.port q).time))

section
variable {c d : Chip}

theorem pours_of_fab (h : d.fab = c.fab) : d.pours = c.pours := by
  simp only [Chip.pours, Chip.port, h]

theorem self_of_pours (h : d.pours = c.pours) : d.self = c.self := by
  obtain ⟨htray, hrest⟩ := Prod.mk.inj h
  obtain ⟨hslot, -⟩ := Prod.mk.inj hrest
  rw [Chip.self, htray, hslot, Chip.self]

theorem port_of_pours (h : d.pours = c.pours) (q : PortId) :
    (d.port q).st = (c.port q).st ∧ (d.port q).time = (c.port q).time := by
  obtain ⟨-, hrest⟩ := Prod.mk.inj h
  obtain ⟨-, hports⟩ := Prod.mk.inj hrest
  exact Prod.mk.inj (congrFun hports q)

theorem pours_onPort (p : PortId) (f : Port → Port) (c : Chip) (h : ∀ x, (f x).st = x.st ∧ (f x).time = x.time) :
    (c.onPort p f).pours = c.pours := by
  have hport : ∀ q, (((c.onPort p f).port q).st, ((c.onPort p f).port q).time) = ((c.port q).st, (c.port q).time) := by
    intro q
    by_cases hq : q = p
    · rw [hq, Chip.onPort_same, (h _).1, (h _).2]
    · rw [Chip.onPort_other _ hq]
  simp only [Chip.pours, hport]
  rfl

theorem pours_routeError (cause port tile : Nat) (c : Chip) : (c.routeError cause port tile).pours = c.pours := by
  unfold Chip.routeError
  extract_lets f f1 f2
  have hf : f2 = { c.fab with
      routeCount := f2.routeCount
      captCause := f2.captCause
      captPort := f2.captPort
      captTile := f2.captTile
      captValid := f2.captValid } := by
    unfold f2
    split <;> rfl
  show ({ c with fab := f2 } : Chip).pours = c.pours
  rw [hf]
  rfl

theorem pours_completeEveryOpen (c : Chip) : (completeEveryOpen c).pours = c.pours := by
  refine foldl_keeps Chip.pours _ (fun c v => ?_) _ c
  split
  · next p _ =>
    refine foldl_keeps Chip.pours _ (fun c port => ?_) _ c
    unfold completeOpen
    split
    · rfl
    · unfold addFill
      split
      · exact pours_routeError ..
      · refine (pours_onPort _ _ _ ?_).trans (pours_routeError ..)
        exact fun _ => ⟨rfl, rfl⟩
  · rfl

theorem hifStep_foldl {β : Type} (f : Chip → β → Chip) (h : ∀ c b, HifStep c (f c b)) (l : List β) (c : Chip) :
    HifStep c (l.foldl f c) := by
  induction l generalizing c with
  | nil => exact .refl c
  | cons b l ih => exact (h c b).trans (ih _)

theorem hifStep_hifRunEnd (aborted : Bool) (c : Chip) : HifStep c (hifRunEnd aborted c) := by
  have hlaunch : HifStep c (endLaunch aborted c) :=
    hifStep_foldl _ (fun c q => hifStep_foldl _ (fun c e => .ite (hifStep_endEntry ..) (hifStep_endEntry ..)) _ c) _ c
  exact (hlaunch.trans (hifStep_foldl _ (fun c x => hifStep_postCompletion ..) _ _)).trans (hifStep_hif ..)

theorem hifStep_refuseReq (r : SearchReq) (c : Chip) : HifStep c (refuseReq r c) := by
  unfold refuseReq
  split
  · unfold refuseSearch
    split
    · exact hifStep_endEntry ..
    · exact .refl c
  · exact .refl c

theorem hifStep_hifRefuseSearches (c : Chip) : HifStep c (hifRefuseSearches c) := by
  have h := hifStep_foldl _ (fun d r => hifStep_refuseReq r d) c.srch.queue c
  unfold hifRefuseSearches
  extract_lets c1
  split
  · exact h.trans (hifStep_refuseReq ..)
  · exact h

/-- The end of a run leaves the ports' states and pours. -/
theorem pours_leaveRun (aborted : Bool) (c : Chip) : (leaveRun aborted c).pours = c.pours := by
  unfold leaveRun
  split
  · rfl
  · extract_lets e
    have he : e.pours = c.pours := (pours_of_fab (hifStep_hifRunEnd ..).fab).trans (pours_completeEveryOpen c)
    rw [← he]
    obtain ⟨pwr, heq⟩ := applyGroups_eq ({ e with
      map := { e.map with
        run := false
        tracing := false }
      time := { e.time with
        launch := none
        holdSince := none }
      cmp := { e.cmp with
        started := false
        holds := []
        waits := []
        mesh := { e.cmp.mesh with lines := e.cmp.mesh.lines.map (MeshLine.afterRun e.cmp.pcc e.cmp.cycles) } }
      srch := { e.srch with
        queue := []
        active := none
        outs := e.srch.outs.filter SearchOut.forHost
        reserved := []
        lastEnd := 0 }
      pwr := { e.pwr with gov := e.pwr.gov.map fun g => { g with
        ceiling := none
        forecast := none } }
      fab := { e.fab with ports := e.fab.ports.map fun x =>
        { x with ingress := x.ingress.map fun i => { i with gate := i.gate.map fun _ => 0 } } } })
    rw [heq]
    simp [Chip.pours, Chip.port]

end

/-! An abort of the own run. -/

/-- The end of a run, with the records of its abort, or no run at all. -/
structure Aborts (c d : Chip) : Prop where
  run : d.map.run = false
  time : d.time = { c.time with
    launch := d.time.launch
    holdSince := d.time.holdSince
    abortCause := d.time.abortCause
    aborter := d.time.aborter
    abortValid := d.time.abortValid
    seenAbort := d.time.seenAbort }
  fc : d.fc = { c.fc with raised := d.fc.raised }
  raised : ∀ r ∈ c.fc.raised, r ∈ d.fc.raised
  self : d.self = c.self

section
variable {c d : Chip}

theorem pourOn_self (k : Fin 4) (f : Frame) (except : Option PortId) (c : Chip) : (pourOn k f except c).self = c.self := by
  rw [pourOn_eq]
  rfl

theorem leaveRun_aborts {aborted : Bool} (hrun : d.map.run = true) (hfc : d.fc = c.fc) (hself : d.self = c.self)
    (htime : d.time = { c.time with
      abortCause := d.time.abortCause
      aborter := d.time.aborter
      abortValid := d.time.abortValid
      seenAbort := d.time.seenAbort }) : Aborts c (leaveRun aborted d) := by
  have h := leaveRun_left aborted hrun
  constructor
  case run => rw [h.map]
  case time => rw [h.time, htime]
  case fc => rw [h.fc, hfc]
  case raised => exact fun r hr => h.raised r (hfc ▸ hr)
  case self => exact (self_of_pours (pours_leaveRun ..)).trans hself

theorem startAbort_aborts (cause : Nat) (c : Chip) : Aborts c (startAbort cause c) := by
  unfold startAbort
  split
  next id hrun _ =>
    unfold pourAbort
    refine leaveRun_aborts ?_ ?_ (by rw [pourOn_self]; rfl) ?_
    all_goals rw [pourOn_eq]
    · exact hrun
    · rfl
    · rfl
  next hrun _ => exact leaveRun_aborts hrun rfl rfl rfl
  next hrun => exact ⟨hrun, rfl, rfl, fun _ h => h, rfl⟩

end

end Sys2Proof.Machine
end

section
/-! PROOFS. O35: the time tree (11 R279-R289, R304). -/

namespace Sys2Proof.Machine

section
variable {s : State} {p : PortId} {c d : Chip} {i : InFrame}

/-! Time passes. -/

theorem traceHeld_time (n : Nat) (c : Chip) : (traceHeld n c).time = c.time := by
  unfold traceHeld
  split
  · rfl
  · rfl

theorem await_time (n : Nat) (y : Sys) : ∃ g skip view lag, (y.await n).chip.time = { y.chip.time with
    gtc := g
    skip := skip
    coreView := view
    lag := lag } := by
  unfold Sys.await
  split
  · exact ⟨_, _, _, _, rfl⟩
  · dsimp only
    rw [traceHeld_time]
    unfold passTicks
    split
    · exact ⟨_, _, _, _, rfl⟩
    · exact ⟨_, _, _, _, rfl⟩

/-! SYNC frames leave. -/

theorem syncSend_due (h : 12500 ≤ (s.sys.chip.time.gtc - s.sys.chip.time.syncSentAt).toNat) (hskip : s.sys.chip.time.skip = 0) :
    Gives (exec .syncSend s) fun t =>
      let c := s.sys.chip
      let beat := if c.isRoot then c.time.heartbeat + 1 else c.time.heartbeat
      keepsMemory s t ∧ t.sys.now = s.sys.now ∧
      t.sys.chip.time = { c.time with syncSentAt := c.time.gtc, heartbeat := beat } ∧
      ∀ q, t.sys.chip.port q = if (c.port q).st = .up
        then { c.port q with time := (c.port q).time.set 0 (some (syncFrame t.sys.chip.time)) } else c.port q := by
  have hwait : s.sys.awaitIf (timeBaseRuns s.sys.chip) (s.sys.now + 12 *
      (12500 + s.sys.chip.time.skip - (s.sys.chip.time.gtc - s.sys.chip.time.syncSentAt).toNat)) = s.sys := by
    unfold Sys.awaitIf
    split
    · exact await_le _ _ (by omega)
    · rfl
  rw [exec_syncSend, execSyncSend, onSys_eq]
  dsimp only
  rw [hwait]
  dsimp only [Sys.onChip]
  rw [if_neg (by omega), pourOn_eq]
  refine ⟨_, rfl, ⟨rfl, rfl⟩, rfl, rfl, fun q => ?_⟩
  simp [Chip.port, poured]

/-! Time frames of a port that has none in its receive pad. -/

theorem onTimeFrame_over {ttype : Nat} {f : Nat → InFrame → Chip → Chip} (hpad : (s.sys.chip.port p).padOver)
    (htake : takeTimeFrame p ttype s.sys.chip = some (i, d)) :
    onTimeFrame p ttype f s = .next (s.withChip fun _ => f s.sys.now i d) := by
  rw [onTimeFrame, onSys_eq]
  dsimp only
  rw [awaitFrame_over _ hpad]
  dsimp only [Sys.onChip]
  rw [htake]
  rfl

/-- The chip without the frame: the port's ingress only. -/
theorem takeTimeFrame_eq {ttype : Nat} (h : takeTimeFrame p ttype c = some (i, d)) :
    ∃ is b, d = c.onPort p fun x => { x with
      ingress := is
      xoffOut := b } := by
  unfold takeTimeFrame at h
  split at h
  · cases h
  · cases h
    obtain ⟨b, hb⟩ := ingressXoff_eq { c.port p with ingress := (c.port p).ingress.eraseP (isTime ttype) }
    exact ⟨_, b, onPort_congr c hb⟩

theorem isRoot_congr (hself : d.self = c.self) (horder : d.time.rootOrder = c.time.rootOrder)
    (hidx : d.time.rootIdx = c.time.rootIdx) :
    d.isRoot = c.isRoot := by
  simp only [Chip.isRoot, hself, horder, hidx]

theorem syncFrame_noted (hpad : (s.sys.chip.port p).padOver) (htake : takeTimeFrame p 0 s.sys.chip = some (i, d))
    (h : s.sys.chip.isRoot = true ∨ s.sys.chip.time.role ≠ 1 ∨ p ≠ s.sys.chip.time.parent) :
    exec (.syncFrame p) s = .next (s.withChip fun _ => d.onPort p fun x => { x with syncAt := some s.sys.now }) := by
  obtain ⟨is, b, hd⟩ := takeTimeFrame_eq htake
  rw [exec_syncFrame, execSyncFrame, onTimeFrame_over hpad htake]
  dsimp only
  rw [if_neg]
  subst hd
  rcases h with h | h | h
  · simp only [Bool.and_eq_true, Bool.not_eq_true', not_and, and_imp]
    intro hroot
    exact absurd (h.symm.trans hroot) (by decide)
  · simp only [Bool.and_eq_true, beq_iff_eq, not_and, and_imp]
    exact fun _ hrole => absurd hrole h
  · simp only [Bool.and_eq_true, beq_iff_eq, not_and, and_imp]
    exact fun _ _ => h

/-- The time base under a SYNC frame of the parent, before the chip's place in the tree follows from it. -/
def syncedTime (f : Frame) (p : PortId) (ago now : Nat) (c : Chip) : TimeRegs :=
  let o : Int := BitVec.toInt (c.time.gtc - BitVec.ofNat 64 (ago + frameNat f 0 8 + linkTicks (c.port p).cls))
  let t := correctGtc c.map.run o c.time
  let hb := BitVec.ofNat 32 (frameNat f 12 4)
  { t with
    syncAt := now
    syncOffset := offsetField o
    locked := decide (o.natAbs ≤ 1)
    rootIdx := (finOf 4 (frameNat f 8 1)).getD t.rootIdx
    heartbeat := hb
    heartbeatAt := if hb == t.heartbeat then t.heartbeatAt else now }

theorem applySync_eq (f : Frame) (ago now : Nat) (c : Chip) : applySync f p ago now c =
    (let o : Int := BitVec.toInt (c.time.gtc - BitVec.ofNat 64 (ago + frameNat f 0 8 + linkTicks (c.port p).cls))
     let d := { c with time := syncedTime f p ago now c }
     if d.isRoot then becomeRoot now d
     else if o.natAbs ≤ 1 then d.lower 31 now
     else if c.map.run && 2 < o.natAbs then startAbort 8 (d.assert 31 .chip now)
     else d) := by
  unfold applySync syncedTime
  rfl

/-- The chip's place in the tree leaves what the SYNC frame has brought. -/
theorem applySync_time (f : Frame) (ago now : Nat) (c : Chip) :
    (applySync f p ago now c).time.gtc = (syncedTime f p ago now c).gtc ∧
    (applySync f p ago now c).time.heartbeat = (syncedTime f p ago now c).heartbeat ∧
    (applySync f p ago now c).time.syncAt = (syncedTime f p ago now c).syncAt := by
  rw [applySync_eq]
  dsimp only
  generalize BitVec.toInt _ = o
  generalize hd : { c with time := syncedTime f p ago now c } = d
  have htime : syncedTime f p ago now c = d.time := by rw [← hd]
  rw [htime]
  split
  · exact ⟨rfl, rfl, rfl⟩
  · split
    · exact ⟨rfl, rfl, rfl⟩
    · split
      · have h := (startAbort_aborts 8 (d.assert 31 .chip now)).time
        rw [h]
        exact ⟨rfl, rfl, rfl⟩
      · exact ⟨rfl, rfl, rfl⟩

/-- Out of run state the count steps to the measured one. -/
theorem syncedTime_stopped (f : Frame) (ago now : Nat) (h : c.map.run = false) :
    (syncedTime f p ago now c).gtc = BitVec.ofNat 64 (ago + frameNat f 0 8 + linkTicks (c.port p).cls) := by
  unfold syncedTime
  extract_lets o t hb
  show t.gtc = _
  unfold t o
  rw [h, correctGtc, if_pos (by decide)]
  generalize BitVec.ofNat 64 _ = x
  generalize c.time.gtc = g
  show BitVec.ofInt 64 ((g.toNat : Int) - (g - x).toInt) = x
  rw [Int.sub_eq_add_neg, BitVec.ofInt_add, BitVec.ofInt_neg, BitVec.ofInt_toInt]
  simp

theorem correctGtc_run (o : Int) (t : TimeRegs) :
    (correctGtc true o t).gtc = t.gtc ∨ (correctGtc true o t).gtc = t.gtc + 1 := by
  unfold correctGtc
  rw [if_neg (by decide)]
  split
  · exact .inl rfl
  · split
    · exact .inr rfl
    · exact .inl rfl

theorem syncFrame_taken (hpad : (s.sys.chip.port p).padOver) (htake : takeTimeFrame p 0 s.sys.chip = some (i, d))
    (hroot : s.sys.chip.isRoot = false) (hrole : s.sys.chip.time.role = 1) (hparent : p = s.sys.chip.time.parent) :
    Gives (exec (.syncFrame p) s) fun t => keepsMemory s t ∧
      t.sys.chip.time.heartbeat = BitVec.ofNat 32 (frameNat i.frame 12 4) ∧ t.sys.chip.time.syncAt = s.sys.now ∧
      (s.sys.chip.map.run = false → t.sys.chip.time.gtc =
        BitVec.ofNat 64 ((s.sys.now - i.ready) / 12 + frameNat i.frame 0 8 + linkTicks (s.sys.chip.port p).cls)) ∧
      (s.sys.chip.map.run = true →
        t.sys.chip.time.gtc = s.sys.chip.time.gtc ∨ t.sys.chip.time.gtc = s.sys.chip.time.gtc + 1) := by
  obtain ⟨is, b, hd⟩ := takeTimeFrame_eq htake
  rw [exec_syncFrame, execSyncFrame, onTimeFrame_over hpad htake]
  dsimp only
  generalize he : (d.onPort p fun x => { x with syncAt := some s.sys.now }) = e
  have htime : e.time = s.sys.chip.time := by rw [← he, hd]; rfl
  have hrun : e.map.run = s.sys.chip.map.run := by rw [← he, hd]; rfl
  have hself : e.self = s.sys.chip.self := by rw [← he, hd]; rfl
  have hcls : (e.port p).cls = (s.sys.chip.port p).cls := by rw [← he, hd, Chip.onPort_same, Chip.onPort_same]
  have hnot : e.isRoot = false := by rw [isRoot_congr hself (by rw [htime]) (by rw [htime]), hroot]
  rw [if_pos (by rw [htime, hnot, hrole, ← hparent]; simp)]
  obtain ⟨hgtc, hbeat, hat⟩ := applySync_time (p := p) i.frame ((s.sys.now - i.ready) / 12) s.sys.now e
  refine ⟨_, rfl, ⟨rfl, rfl⟩, hbeat, hat, fun hstop => ?_, fun hgo => ?_⟩
  · refine hgtc.trans ?_
    rw [syncedTime_stopped _ _ _ (hrun.trans hstop), hcls]
  · have hstep := correctGtc_run (BitVec.toInt (e.time.gtc - BitVec.ofNat 64
      ((s.sys.now - i.ready) / 12 + frameNat i.frame 0 8 + linkTicks (e.port p).cls))) e.time
    have hsynced : (syncedTime i.frame p ((s.sys.now - i.ready) / 12) s.sys.now e).gtc = (correctGtc true (BitVec.toInt
        (e.time.gtc - BitVec.ofNat 64 ((s.sys.now - i.ready) / 12 + frameNat i.frame 0 8 + linkTicks (e.port p).cls)))
          e.time).gtc := by
      rw [syncedTime, hrun.trans hgo]
    rw [← hsynced, ← hgtc, htime] at hstep
    exact hstep

theorem lagFrame_taken (hpad : (s.sys.chip.port p).padOver) (htake : takeTimeFrame p 3 s.sys.chip = some (i, d)) :
    exec (.lagFrame p) s = .next (s.withChip fun _ =>
      d.onPort p fun x => { x with partnerLag := BitVec.ofNat 64 (frameNat i.frame 0 8) }) := by
  rw [exec_lagFrame, execLagFrame, onTimeFrame_over hpad htake]

/-! A chip on holdover. -/

/-- On holdover: not locked, no run, and source 31's line up. -/
def onHoldover (d : Chip) : Prop :=
  d.time.role = 2 ∧ d.time.locked = false ∧ d.map.run = false ∧ d.fc.src[(31 : SourceId)].line = true

theorem assert_line (now : Nat) (c : Chip) : (c.assert 31 .chip now).fc.src[(31 : SourceId)].line = true := by
  have hfin : finOf 64 31 = some (31 : SourceId) := rfl
  have hline : (c.fc.assert 31 .chip now).src[(31 : SourceId)].line = true := by
    unfold Collector.assert
    rw [hfin]
    dsimp only
    split
    · assumption
    · simp
  exact hline

theorem raised_assert (n : Nat) (o : Owner) (now : Nat) (c : Chip) (r : Raise) (h : r ∈ c.fc.raised) :
    r ∈ (c.assert n o now).fc.raised := by
  unfold Chip.assert Collector.assert
  split
  · dsimp only
    split
    · exact h
    · exact List.mem_append_left _ h
  · exact h

theorem raised_lower (n now : Nat) (c : Chip) (r : Raise) : r ∈ (c.lower n now).fc.raised ↔ r ∈ c.fc.raised := by
  unfold Chip.lower Collector.lower
  split
  · dsimp only
    split <;> rfl
  · rfl

theorem loseLock_holdover (now : Nat) (c : Chip) : onHoldover (loseLock now c) := by
  have h := startAbort_aborts 8 (heldOver now c)
  have hline := assert_line now { c with time := { c.time with
    role := 2
    locked := false } }
  rw [loseLock_eq]
  refine ⟨?_, ?_, h.run, ?_⟩
  · rw [h.time]; rfl
  · rw [h.time]; rfl
  · rw [h.fc]; exact hline

theorem parentLoss_next (hroot : s.sys.chip.isRoot = false) (hrole : s.sys.chip.time.role = 1)
    (hup : (s.sys.chip.port s.sys.chip.time.parent).st ≠ .up)
    (hretrain : (s.sys.chip.port s.sys.chip.time.parent).st ≠ .retrain) :
    exec .parentLoss s = .next (s.withChip fun c => match c.usableParent s.sys.now (some c.time.parent) with
      | some p => takeParent p s.sys.now (c.raise 30 .chip)
      | none => loseLock s.sys.now (c.raise 30 .chip)) := by
  have hlost : parentLost s.sys = true := by simp [parentLost, hroot, hrole, hup, hretrain]
  rw [exec_parentLoss, execParentLoss, onSys_eq]
  rw [if_pos hlost, Sys.awaitIf, if_neg (by simpa using hup)]
  rfl

theorem parentLoss_next_port (hroot : s.sys.chip.isRoot = false) (hrole : s.sys.chip.time.role = 1)
    (hup : (s.sys.chip.port s.sys.chip.time.parent).st ≠ .up)
    (hretrain : (s.sys.chip.port s.sys.chip.time.parent).st ≠ .retrain)
    (huse : s.sys.chip.usableParent s.sys.now (some s.sys.chip.time.parent) = some p) :
    exec .parentLoss s = .next (s.withChip fun c => takeParent p s.sys.now (c.raise 30 .chip)) := by
  rw [parentLoss_next hroot hrole hup hretrain]
  refine congrArg _ (withChip_congr ?_)
  rw [huse]

theorem parentLoss_holdover (hroot : s.sys.chip.isRoot = false) (hrole : s.sys.chip.time.role = 1)
    (hup : (s.sys.chip.port s.sys.chip.time.parent).st ≠ .up)
    (hretrain : (s.sys.chip.port s.sys.chip.time.parent).st ≠ .retrain)
    (huse : s.sys.chip.usableParent s.sys.now (some s.sys.chip.time.parent) = none) :
    Gives (exec .parentLoss s) fun t => keepsMemory s t ∧ onHoldover t.sys.chip := by
  rw [parentLoss_next hroot hrole hup hretrain,
    withChip_congr (g := fun c => loseLock s.sys.now (c.raise 30 .chip)) (by rw [huse])]
  exact ⟨_, rfl, ⟨rfl, rfl⟩, loseLock_holdover ..⟩

/-- What PARENT_RELOCK does where the parent does not hold its place. -/
theorem parentRelock_next (hroot : s.sys.chip.isRoot = false) (hbusy : s.sys.chip.pwr.busy = false)
    (hstays : parentStays s.sys.now s.sys.chip = false) :
    exec .parentRelock s = .next (s.withChip fun c => match c.usableParent s.sys.now none with
      | some p => if c.time.role == 1 && p == c.time.parent then c else takeParent p s.sys.now c
      | none => if c.time.role == 1 then c else loseLock s.sys.now c) := by
  rw [exec_parentRelock, execParentRelock, onSys_onChip]
  refine congrArg _ (withChip_congr ?_)
  exact if_neg (by simp [hroot, hbusy, hstays])

theorem parentStays_of_role (now : Nat) (h : c.time.role ≠ 1) : parentStays now c = false := by
  have hrole : (c.time.role == 1) = false := beq_eq_false_iff_ne.mpr h
  rw [parentStays, hrole, Bool.false_and]

theorem parentRelock_takes (hroot : s.sys.chip.isRoot = false) (hbusy : s.sys.chip.pwr.busy = false)
    (huse : s.sys.chip.usableParent s.sys.now none = some p)
    (h : s.sys.chip.time.role ≠ 1 ∨ (p ≠ s.sys.chip.time.parent ∧ (s.sys.chip.port s.sys.chip.time.parent).st = .up ∧
      s.sys.now < s.sys.chip.time.syncAt + Config.us 30)) :
    exec .parentRelock s = .next (s.withChip fun c => takeParent p s.sys.now c) := by
  have hstays : parentStays s.sys.now s.sys.chip = false := by
    rcases h with h | ⟨-, hup, hlate⟩
    · exact parentStays_of_role _ h
    · unfold parentStays
      rw [hup]
      simp [Nat.not_le.mpr hlate]
  rw [parentRelock_next hroot hbusy hstays]
  refine congrArg _ (withChip_congr ?_)
  rw [huse]
  refine if_neg ?_
  rcases h with h | ⟨hp, -⟩
  · rw [beq_eq_false_iff_ne.mpr h, Bool.false_and]
    decide
  · simp [hp]

theorem parentRelock_same (huse : s.sys.chip.usableParent s.sys.now none = some s.sys.chip.time.parent)
    (hrole : s.sys.chip.time.role = 1) : exec .parentRelock s = .next s := by
  have hsame : s.sys.chip = (if s.sys.chip.isRoot || s.sys.chip.pwr.busy || parentStays s.sys.now s.sys.chip then s.sys.chip
      else match s.sys.chip.usableParent s.sys.now none with
        | some p => if s.sys.chip.time.role == 1 && p == s.sys.chip.time.parent then s.sys.chip
          else takeParent p s.sys.now s.sys.chip
        | none => if s.sys.chip.time.role == 1 then s.sys.chip else loseLock s.sys.now s.sys.chip) := by
    rw [huse]
    dsimp only
    rw [if_pos (c := (s.sys.chip.time.role == 1 && s.sys.chip.time.parent == s.sys.chip.time.parent) = true) (by simp [hrole]),
      ite_self]
  rw [exec_parentRelock, execParentRelock, onSys_onChip, withChip_congr (g := id) hsame.symm]
  rfl

theorem parentRelock_holdover (hroot : s.sys.chip.isRoot = false) (hbusy : s.sys.chip.pwr.busy = false)
    (hrole : s.sys.chip.time.role ≠ 1) (huse : s.sys.chip.usableParent s.sys.now none = none) :
    Gives (exec .parentRelock s) fun t => keepsMemory s t ∧ onHoldover t.sys.chip := by
  rw [parentRelock_next hroot hbusy (parentStays_of_role _ hrole),
    withChip_congr (g := fun c => loseLock s.sys.now c) (by rw [huse]; exact if_neg (by simpa using hrole))]
  exact ⟨_, rfl, ⟨rfl, rfl⟩, loseLock_holdover ..⟩

/-! The place under a new root. -/

/-- A chip that has taken its place: root, or locked to a port of its list, or on holdover. -/
structure Placed (c d : Chip) : Prop where
  idx : d.time.rootIdx = c.time.rootIdx
  raised : ∀ r ∈ c.fc.raised, r ∈ d.fc.raised
  root : d.isRoot = true → d.time.role = 0 ∧ d.time.locked = true
  branch : d.isRoot = false → (d.time.role = 1 ∧ d.time.parent ∈ d.parentList) ∨ (d.time.role = 2 ∧ d.time.locked = false)

theorem takePlace_placed (now : Nat) (c : Chip) : Placed c (takePlace now c) := by
  unfold takePlace
  split
  · next hroot =>
    have hsame : (becomeRoot now c).isRoot = c.isRoot := rfl
    exact ⟨rfl, fun r h => (raised_lower 31 now _ r).mpr h, fun _ => ⟨rfl, rfl⟩,
      fun h => absurd ((hsame.symm.trans h).symm.trans hroot) (by decide)⟩
  · next hroot =>
    split
    · next p hp =>
      have hsame : (takeParent p now c).isRoot = c.isRoot := rfl
      exact ⟨rfl, fun _ h => h, fun h => absurd (hsame.symm.trans h) hroot, fun _ => .inl ⟨rfl, List.mem_of_find?_eq_some hp⟩⟩
    · have h := startAbort_aborts 8 (heldOver now c)
      have hhold := loseLock_holdover now c
      have hsame : (loseLock now c).isRoot = c.isRoot := by
        rw [loseLock_eq]
        refine (isRoot_congr h.self ?_ ?_).trans (show (heldOver now c).isRoot = c.isRoot from rfl)
        · rw [h.time]
        · rw [h.time]
      refine ⟨?_, fun r hr => ?_, fun htrue => absurd (hsame.symm.trans htrue) hroot, fun _ => .inr ⟨hhold.1, hhold.2.1⟩⟩
      · rw [loseLock_eq, h.time]
        rfl
      · rw [loseLock_eq]
        exact h.raised r (raised_assert 31 .chip now _ r hr)

/-- ROOT_FAILOVER waits out a limit. -/
theorem gives_failover (limit : Sys → Nat) (hroot : s.sys.chip.isRoot = false) (hrole : s.sys.chip.time.role = 1)
    (hup : (s.sys.chip.port s.sys.chip.time.parent).st = .up) (hnear : nearTransition s.sys = false) :
    Gives (onSys (fun y =>
      let c := y.chip
      if !c.isRoot && c.time.role == 1 && (c.port c.time.parent).st == .up && !nearTransition y then
        let y := y.await (limit y)
        y.onChip fun c =>
          let idx : Fin 4 := c.time.rootIdx + 1
          takePlace y.now (({ c with time := { c.time with rootIdx := idx, heartbeatAt := y.now } }).raise 30 .chip)
      else y) s) fun t =>
      let c := s.sys.chip
      let d := t.sys.chip
      keepsMemory s t ∧ limit s.sys ≤ t.sys.now ∧ d.time.rootIdx = c.time.rootIdx + 1 ∧
      ⟨30, .chip⟩ ∈ d.fc.raised ∧ (d.isRoot = true → d.time.role = 0 ∧ d.time.locked = true) ∧
      (d.isRoot = false → (d.time.role = 1 ∧ d.time.parent ∈ d.parentList) ∨
        (d.time.role = 2 ∧ d.time.locked = false)) := by
  rw [onSys_eq, if_pos (by simp [hroot, hrole, hup, hnear])]
  obtain ⟨g, skip, view, lag, htime⟩ := await_time (limit s.sys) s.sys
  have hlate := le_await s.sys (limit s.sys)
  generalize s.sys.await (limit s.sys) = y at htime hlate ⊢
  have hplaced := takePlace_placed y.now (({ y.chip with time := { y.chip.time with
    rootIdx := y.chip.time.rootIdx + 1
    heartbeatAt := y.now } } : Chip).raise 30 .chip)
  obtain ⟨hidx, hraised, hastop, hasbranch⟩ := hplaced
  refine ⟨_, rfl, ⟨rfl, rfl⟩, hlate, hidx.trans ?_, hraised _ ?_, hastop, hasbranch⟩
  · show y.chip.time.rootIdx + 1 = _
    rw [htime]
  · exact List.mem_append_right _ (List.mem_singleton.mpr rfl)

end

/-- Settles O35. -/
theorem timeTreeIsKept : Obligations.TimeTreeIsKept := by
  unfold Obligations.TimeTreeIsKept
  refine ⟨fun s p i d => ?_, fun s => ?_⟩
  · intro c f
    exact ⟨syncSend_due, fun hpad htake => ⟨syncFrame_noted hpad htake, syncFrame_taken hpad htake⟩, lagFrame_taken⟩
  · intro c old hroot
    refine ⟨fun hrole hup hretrain => ⟨fun p huse => ?_, ?_⟩, fun p hbusy huse => ⟨parentRelock_takes hroot hbusy huse, ?_⟩,
      parentRelock_holdover hroot, ?_⟩
    · exact parentLoss_next_port hroot hrole hup hretrain huse
    · exact parentLoss_holdover hroot hrole hup hretrain
    · rintro hrole rfl
      exact parentRelock_same huse hrole
    · intro hrole hup hnear
      exact gives_failover (fun y => y.chip.time.heartbeatAt + Config.us 30) hroot hrole hup hnear

end Sys2Proof.Machine
end

section
/-! PROOFS. O36: launch and abort pours, and the run (11 R291-R300, R307; 16 R440). -/

namespace Sys2Proof.Machine

section
variable {s : State} {p : PortId} {c d : Chip} {i : InFrame} {f : Frame} {k : Fin 4}

/-! Pours. -/

/-- Every UP port but one has the frame waiting. -/
def Forwards (c : Chip) (k : Fin 4) (f : Frame) (p : PortId) (d : Chip) : Prop :=
  ∀ q, q ≠ p → (c.port q).st = .up → (d.port q).time[k] = some f

theorem poured_time {except : Option PortId} {q : PortId} {x : Port} (h : x.st = .up) (hq : except ≠ some q) :
    (poured k f except q x).time[k] = some f := by
  unfold poured
  rw [if_pos (by simp [h, hq])]
  simp

theorem poured_other {j : Fin 4} {except : Option PortId} {q : PortId} {x : Port} (h : j ≠ k) :
    (poured k f except q x).time[j] = x.time[j] := by
  have hval : j.val ≠ k.val := fun e => h (Fin.ext e)
  unfold poured
  split
  · simp [Ne.symm hval]
  · rfl

theorem pourOn_port (except : Option PortId) (c : Chip) (q : PortId) :
    (pourOn k f except c).port q = poured k f except q (c.port q) := by
  rw [pourOn_eq]
  simp [Chip.port]

theorem poured_st {except : Option PortId} {q : PortId} (x : Port) : (poured k f except q x).st = x.st := by
  unfold poured
  split <;> rfl

/-- A pour forwards by the ports that are UP. -/
theorem pourOn_forwards (hst : ∀ q, (d.port q).st = (c.port q).st) : Forwards c k f p (pourOn k f (some p) d) := by
  intro q hq hup
  rw [pourOn_port]
  exact poured_time ((hst q).trans hup) fun h => hq (Option.some.inj h).symm

/-- The ports' states are as before where only a frame has been taken. -/
theorem taken_st {ttype : Nat} (h : takeTimeFrame p ttype c = some (i, d)) (q : PortId) : (d.port q).st = (c.port q).st := by
  obtain ⟨is, b, rfl⟩ := takeTimeFrame_eq h
  refine (port_of_pours (pours_onPort _ _ _ ?_) q).1
  exact fun _ => ⟨rfl, rfl⟩

/-- Nothing but the ports is changed by taking a frame. -/
theorem taken_fields {ttype : Nat} (h : takeTimeFrame p ttype c = some (i, d)) :
    d.time = c.time ∧ d.map = c.map ∧ d.cmp = c.cmp ∧ d.self = c.self ∧ d.fc = c.fc := by
  obtain ⟨is, b, rfl⟩ := takeTimeFrame_eq h
  exact ⟨rfl, rfl, rfl, rfl, rfl⟩

theorem launchCause_congr (hrun : d.map.run = c.map.run) (himage : d.time.imageId = c.time.imageId)
    (hstrict : d.time.strict = c.time.strict) (hview : d.time.coreView = c.time.coreView) (f : Frame) :
    launchCause d f = launchCause c f := by
  rw [launchCause, launchCause, hrun, himage, hstrict, hview]

/-- The identity of a launch in a LAUNCH frame. -/
def launchIdOf (f : Frame) : PourId := ⟨BitVec.ofNat 13 (frameNat f 13 2), BitVec.ofNat 8 (frameNat f 15 1)⟩

/-- The identity of a launch in an ABORT frame. -/
def abortIdOf (f : Frame) : PourId := ⟨BitVec.ofNat 13 (frameNat f 0 2), BitVec.ofNat 8 (frameNat f 2 1)⟩

/-- The chip that has seen a launch. -/
def seesLaunch (f : Frame) (d : Chip) : Chip :=
  { d with time := { d.time with seenLaunch := d.time.seenLaunch ++ [launchIdOf f] } }

/-- The chip that has seen an abort. -/
def seesAbort (f : Frame) (d : Chip) : Chip :=
  { d with time := { d.time with seenAbort := d.time.seenAbort ++ [abortIdOf f] } }

/-- What a LAUNCH frame does that is its launch's first. -/
def launchStep (p : PortId) (f : Frame) (c : Chip) : Chip :=
  if !c.time.arm then pourOn 1 f (some p) c
  else match launchCause c f with
    | none => pourOn 1 f (some p) (enterRun (BitVec.ofNat 64 (frameNat f 0 8)) (launchIdOf f) c)
    | some cause => pourAbort (launchIdOf f) cause ((pourOn 1 f (some p) c).raise 32 .chip)

theorem launchStep_unarmed (h : c.time.arm = false) : launchStep p f c = pourOn 1 f (some p) c := by
  rw [launchStep, h, if_pos (by decide)]

theorem launchStep_enters (h : c.time.arm = true) (hcause : launchCause c f = none) :
    launchStep p f c = pourOn 1 f (some p) (enterRun (BitVec.ofNat 64 (frameNat f 0 8)) (launchIdOf f) c) := by
  rw [launchStep, h, hcause, if_neg (by decide)]

theorem launchStep_refuses {cause : Nat} (h : c.time.arm = true) (hcause : launchCause c f = some cause) :
    launchStep p f c = pourAbort (launchIdOf f) cause ((pourOn 1 f (some p) c).raise 32 .chip) := by
  rw [launchStep, h, hcause, if_neg (by decide)]

/-- The fields of a chip that has entered run state. -/
theorem enterRun_fields (l : Dword) (id : PourId) (c : Chip) :
    let d := enterRun l id c
    d.map.run = true ∧ d.time.launch = some id ∧ d.time.launchL = l ∧ d.time.lag = 0 ∧ d.cmp.started = false ∧
    d.cmp.tiles = c.cmp.tiles.map Tile.start ∧ ∀ q, (d.port q).st = (c.port q).st := by
  have hstep := hifStep_hifRefuseSearches { c with srch := { c.srch with
    refused := satAdd c.srch.refused (hostSearches c) } }
  unfold enterRun
  dsimp only
  generalize hifRefuseSearches _ = e at hstep ⊢
  refine ⟨rfl, rfl, rfl, rfl, rfl, ?_, fun q => ?_⟩
  · rw [clearLags]
    exact congrArg (fun m : Compute => m.tiles.map Tile.start) hstep.cmp
  · have hport : e.port q = c.port q := by rw [Chip.port, hstep.fab]; rfl
    rw [← hport]
    simp [Chip.port, clearLags]

section
variable (hst : ∀ q, (d.port q).st = (c.port q).st)
include hst

theorem launchStep_unarmed_gives (harm : d.time.arm = false) :
    Forwards c 1 f p (launchStep p f d) ∧ (launchStep p f d).map = d.map ∧ (launchStep p f d).time = d.time := by
  rw [launchStep_unarmed harm]
  refine ⟨pourOn_forwards hst, ?_⟩
  rw [pourOn_eq]
  exact ⟨rfl, rfl⟩

theorem launchStep_enters_gives (harm : d.time.arm = true) (hcause : launchCause d f = none) :
    let e := launchStep p f d
    Forwards c 1 f p e ∧ e.map.run = true ∧ e.time.launch = some (launchIdOf f) ∧
    e.time.launchL = BitVec.ofNat 64 (frameNat f 0 8) ∧ e.time.lag = 0 ∧ e.cmp.started = false ∧
    e.cmp.tiles = d.cmp.tiles.map Tile.start := by
  obtain ⟨hrun, hlaunch, hl, hlag, hstarted, htiles, hports⟩ :=
    enterRun_fields (BitVec.ofNat 64 (frameNat f 0 8)) (launchIdOf f) d
  rw [launchStep_enters harm hcause]
  refine ⟨pourOn_forwards fun q => (hports q).trans (hst q), ?_⟩
  rw [pourOn_eq]
  exact ⟨hrun, hlaunch, hl, hlag, hstarted, htiles⟩

theorem launchStep_refuses_gives {cause : Nat} (harm : d.time.arm = true) (hcause : launchCause d f = some cause) :
    let e := launchStep p f d
    Forwards c 1 f p e ∧ e.map = d.map ∧ e.time.abortCause = BitVec.ofNat 4 cause ∧ e.time.abortValid = true ∧
    ⟨32, .chip⟩ ∈ e.fc.raised ∧
    ∀ q, (c.port q).st = .up → (e.port q).time[(2 : Fin 4)] = some (abortFrame (launchIdOf f) cause d.self) := by
  have hforwards : Forwards c 1 f p (pourOn 1 f (some p) d) := pourOn_forwards hst
  have hports : ∀ q, ((pourOn 1 f (some p) d).port q).st = (c.port q).st := by
    intro q
    rw [pourOn_port, poured_st]
    exact hst q
  have heq := pourOn_eq (c := d) 1 f (some p)
  rw [launchStep_refuses harm hcause]
  generalize pourOn 1 f (some p) d = e at hforwards hports heq ⊢
  have hself : e.self = d.self := by rw [heq]; rfl
  have hmap : e.map = d.map := by rw [heq]
  refine ⟨fun q hq hup => ?_, ?_⟩
  · rw [pourAbort, pourOn_port, poured_other (by decide)]
    exact hforwards q hq hup
  · rw [pourAbort]
    dsimp only
    have htime2 : ∀ q, (c.port q).st = .up → ((pourOn 2 (abortFrame (launchIdOf f) cause e.self) none
        (recordAbort cause e.self e)).port q).time[(2 : Fin 4)] = some (abortFrame (launchIdOf f) cause d.self) := by
      intro q hup
      rw [pourOn_port, hself]
      exact poured_time ((hports q).trans hup) (by simp)
    refine ⟨?_, ?_, ?_, ?_, fun q hup => ?_⟩
    · rw [pourOn_eq]; exact hmap
    · rw [pourOn_eq]; rfl
    · rw [pourOn_eq]; rfl
    · rw [pourOn_eq]; exact List.mem_append_right _ (List.mem_singleton.mpr rfl)
    · rw [pourOn_port]
      have h := htime2 q hup
      rw [pourOn_port] at h
      exact h

end

section
variable (hpad : (s.sys.chip.port p).padOver) (htake : takeTimeFrame p 1 s.sys.chip = some (i, d))
include hpad htake

theorem launchPour_seen (hseen : launchIdOf i.frame ∈ s.sys.chip.time.seenLaunch) :
    exec (.launchPour p) s = .next (s.withChip fun _ => d) := by
  rw [← (taken_fields htake).1] at hseen
  rw [exec_launchPour, execLaunchPour, onTimeFrame_over hpad htake]
  refine congrArg _ (withChip_congr ?_)
  exact if_pos (List.contains_iff_mem.mpr hseen)

theorem launchPour_first (hseen : launchIdOf i.frame ∉ s.sys.chip.time.seenLaunch) :
    exec (.launchPour p) s = .next (s.withChip fun _ => launchStep p i.frame (seesLaunch i.frame d)) := by
  rw [← (taken_fields htake).1] at hseen
  rw [exec_launchPour, execLaunchPour, onTimeFrame_over hpad htake]
  refine congrArg _ (withChip_congr ?_)
  exact if_neg fun h => hseen (List.contains_iff_mem.mp h)

omit hpad in
theorem launchCause_taken : launchCause (seesLaunch i.frame d) i.frame = launchCause s.sys.chip i.frame := by
  obtain ⟨htime, hmap, -⟩ := taken_fields htake
  refine launchCause_congr (d := seesLaunch i.frame d) (congrArg MapRegs.run hmap) ?_ ?_ ?_ i.frame
  · show d.time.imageId = _
    rw [htime]
  · show d.time.strict = _
    rw [htime]
  · show d.time.coreView = _
    rw [htime]

theorem launchPour_settled (hseen : launchIdOf i.frame ∉ s.sys.chip.time.seenLaunch) :
    let c := s.sys.chip
    let f := i.frame
    (c.time.arm = false → Gives (exec (.launchPour p) s) fun t => keepsMemory s t ∧ Forwards c 1 f p t.sys.chip ∧
      t.sys.chip.map = c.map ∧ t.sys.chip.time = { c.time with seenLaunch := c.time.seenLaunch ++ [launchIdOf f] }) ∧
    (c.time.arm = true → launchCause c f = none → Gives (exec (.launchPour p) s) fun t => keepsMemory s t ∧
      Forwards c 1 f p t.sys.chip ∧ t.sys.chip.map.run = true ∧ t.sys.chip.time.launch = some (launchIdOf f) ∧
      t.sys.chip.time.launchL = BitVec.ofNat 64 (frameNat f 0 8) ∧ t.sys.chip.time.lag = 0 ∧
      t.sys.chip.cmp.started = false ∧ t.sys.chip.cmp.tiles = c.cmp.tiles.map Tile.start) ∧
    (∀ cause, c.time.arm = true → launchCause c f = some cause → Gives (exec (.launchPour p) s) fun t =>
      keepsMemory s t ∧ Forwards c 1 f p t.sys.chip ∧ t.sys.chip.map = c.map ∧
      t.sys.chip.time.abortCause = BitVec.ofNat 4 cause ∧
      t.sys.chip.time.abortValid = true ∧ ⟨32, .chip⟩ ∈ t.sys.chip.fc.raised ∧
      ∀ q, (c.port q).st = .up →
        (t.sys.chip.port q).time[(2 : Fin 4)] = some (abortFrame (launchIdOf f) cause c.self)) := by
  intro c f
  obtain ⟨htime, hmap, hcmp, hself, -⟩ := taken_fields htake
  have hst : ∀ q, ((seesLaunch f d).port q).st = (c.port q).st := fun q => taken_st htake q
  have hcause := launchCause_taken htake
  have hstime : (seesLaunch f d).time = { c.time with seenLaunch := c.time.seenLaunch ++ [launchIdOf f] } := by
    rw [seesLaunch, htime]
  have harm : (seesLaunch f d).time.arm = c.time.arm := by rw [hstime]
  have hsmap : (seesLaunch f d).map = c.map := hmap
  have hscmp : (seesLaunch f d).cmp = c.cmp := hcmp
  have hsself : (seesLaunch f d).self = c.self := hself
  rw [launchPour_first hpad htake hseen]
  rw [← hcause, ← harm]
  refine ⟨fun h => ?_, fun h hnone => ?_, fun cause h hsome => ?_⟩
  · have hgives := launchStep_unarmed_gives (f := f) (p := p) hst h
    rw [hsmap, hstime] at hgives
    exact ⟨_, rfl, ⟨rfl, rfl⟩, hgives⟩
  · have hgives := launchStep_enters_gives (p := p) hst h hnone
    rw [hscmp] at hgives
    exact ⟨_, rfl, ⟨rfl, rfl⟩, hgives⟩
  · have hgives := launchStep_refuses_gives (p := p) hst h hsome
    rw [hsmap, hsself] at hgives
    exact ⟨_, rfl, ⟨rfl, rfl⟩, hgives⟩

end

/-! Abort pours. -/

/-- What an ABORT frame does that is its launch's first. -/
def abortStep (p : PortId) (f : Frame) (c : Chip) : Chip :=
  let c := pourOn 2 f (some p) c
  if c.map.run && c.time.launch == some (abortIdOf f) then
    leaveRun true (recordAbort (frameNat f 3 1 % 16) (frameNat f 4 2 % 8192) c)
  else c

section
variable (hpad : (s.sys.chip.port p).padOver) (htake : takeTimeFrame p 2 s.sys.chip = some (i, d))
include hpad htake

theorem abortPour_seen (hseen : abortIdOf i.frame ∈ s.sys.chip.time.seenAbort) :
    exec (.abortPour p) s = .next (s.withChip fun _ => d) := by
  rw [← (taken_fields htake).1] at hseen
  rw [exec_abortPour, execAbortPour, onTimeFrame_over hpad htake]
  refine congrArg _ (withChip_congr ?_)
  exact if_pos (List.contains_iff_mem.mpr hseen)

theorem abortPour_first (hseen : abortIdOf i.frame ∉ s.sys.chip.time.seenAbort) :
    exec (.abortPour p) s = .next (s.withChip fun _ => abortStep p i.frame (seesAbort i.frame d)) := by
  rw [← (taken_fields htake).1] at hseen
  have hnot : ¬d.time.seenAbort.contains
      (⟨BitVec.ofNat 13 (frameNat i.frame 0 2), BitVec.ofNat 8 (frameNat i.frame 2 1)⟩ : PourId) = true :=
    fun h => hseen (List.contains_iff_mem.mp h)
  rw [exec_abortPour, execAbortPour, onTimeFrame_over hpad htake]
  refine congrArg _ (withChip_congr ?_)
  dsimp only
  rw [if_neg hnot]
  unfold abortStep seesAbort abortIdOf
  dsimp only

end

theorem abortStep_gives (hst : ∀ q, (d.port q).st = (c.port q).st) :
    let e := abortStep p f d
    Forwards c 2 f p e ∧ e.time.seenAbort = d.time.seenAbort ∧
    (d.map.run = true → d.time.launch = some (abortIdOf f) → e.map.run = false ∧
      e.time.abortCause = BitVec.ofNat 4 (frameNat f 3 1 % 16)) ∧
    (d.time.launch ≠ some (abortIdOf f) → e.map = d.map) := by
  have hforwards : Forwards c 2 f p (pourOn 2 f (some p) d) := pourOn_forwards hst
  have heq := pourOn_eq (c := d) 2 f (some p)
  unfold abortStep
  dsimp only
  generalize pourOn 2 f (some p) d = e at hforwards heq ⊢
  have htime : e.time = d.time := by rw [heq]
  have hmap : e.map = d.map := by rw [heq]
  rw [← htime, ← hmap]
  split
  · next h =>
    obtain ⟨hrun, hlaunch⟩ := Bool.and_eq_true_iff.mp h
    have hleft := leaveRun_left (c := recordAbort (frameNat f 3 1 % 16) (frameNat f 4 2 % 8192) e) true hrun
    refine ⟨fun q hq hup => ?_, by rw [hleft.time]; rfl, fun _ _ => ⟨by rw [hleft.map], by rw [hleft.time]; rfl⟩,
      fun hne => absurd (beq_iff_eq.mp hlaunch) hne⟩
    rw [(port_of_pours (pours_leaveRun true _) q).2]
    exact hforwards q hq hup
  · next h =>
    exact ⟨hforwards, rfl, fun hrun hlaunch => absurd (by simp [hrun, hlaunch]) h, fun _ => rfl⟩

theorem abortPour_settled (hpad : (s.sys.chip.port p).padOver) (htake : takeTimeFrame p 2 s.sys.chip = some (i, d))
    (hseen : abortIdOf i.frame ∉ s.sys.chip.time.seenAbort) :
    let c := s.sys.chip
    Gives (exec (.abortPour p) s) fun t => keepsMemory s t ∧ Forwards c 2 i.frame p t.sys.chip ∧
      t.sys.chip.time.seenAbort = c.time.seenAbort ++ [abortIdOf i.frame] ∧
      (c.map.run = true → c.time.launch = some (abortIdOf i.frame) → t.sys.chip.map.run = false ∧
        t.sys.chip.time.abortCause = BitVec.ofNat 4 (frameNat i.frame 3 1 % 16)) ∧
      (c.time.launch ≠ some (abortIdOf i.frame) → t.sys.chip.map = c.map) := by
  intro c
  obtain ⟨htime, hmap, -⟩ := taken_fields htake
  have hst : ∀ q, ((seesAbort i.frame d).port q).st = (s.sys.chip.port q).st := fun q => taken_st htake q
  have hgives := abortStep_gives (f := i.frame) (p := p) hst
  have hstime : (seesAbort i.frame d).time = { s.sys.chip.time with
      seenAbort := s.sys.chip.time.seenAbort ++ [abortIdOf i.frame] } := by
    rw [seesAbort, htime]
  rw [show (seesAbort i.frame d).map = s.sys.chip.map from hmap, hstime] at hgives
  rw [abortPour_first hpad htake hseen]
  generalize abortStep p i.frame (seesAbort i.frame d) = e at hgives ⊢
  exact ⟨_, rfl, ⟨rfl, rfl⟩, hgives⟩

/-! The run. -/

theorem programStart_next (hrun : s.sys.chip.map.run = true) (hstarted : s.sys.chip.cmp.started = false)
    (hview : s.sys.chip.time.launchL.toNat ≤ s.sys.chip.time.coreView.toNat) (hecc : s.sys.ecc = []) :
    exec .programStart s = .next (s.withChip fun c => { c with cmp := { c.cmp with
      started := true
      pcc := 0 } }) := by
  rw [exec_programStart, execProgramStart, onSys_eq]
  dsimp only
  rw [if_pos (by simp [hrun, hstarted]), awaitView_of_le _ _ hview, hecc]
  rfl

theorem runEnd_ends (hrun : s.sys.chip.map.run = true) (hstarted : s.sys.chip.cmp.started = true)
    (hover : runOver s.sys.chip = true) :
    Gives (exec .runEnd s) fun t => keepsMemory s t ∧ t.sys.chip.map.run = false ∧ t.sys.chip.time.launch = none ∧
      t.sys.chip.cmp.started = false ∧ t.sys.chip.cmp.holds = [] ∧ t.sys.chip.hif.mailbox = [] := by
  have hleft := leaveRun_left false hrun
  rw [exec_runEnd, execRunEnd, onChip_eq, withChip_congr (g := leaveRun false)
    (by exact if_pos (by simp [hrun, hstarted, hover]))]
  refine ⟨_, rfl, ⟨rfl, rfl⟩, ?_⟩
  show (leaveRun false s.sys.chip).map.run = false ∧ (leaveRun false s.sys.chip).time.launch = none ∧
    (leaveRun false s.sys.chip).cmp.started = false ∧ (leaveRun false s.sys.chip).cmp.holds = [] ∧
    (leaveRun false s.sys.chip).hif.mailbox = []
  rw [hleft.map, hleft.time]
  refine ⟨rfl, rfl, ?_⟩
  rw [leaveRun, if_neg (by simp [hrun])]
  exact ⟨rfl, rfl, rfl⟩

/-- The count advances by the ticks that no correction leaves out. -/
theorem await_ticks (n : Nat) (y : Sys) (h : timeBaseRuns y.chip = true) :
    (y.await (y.now + 12 * n)).chip.time.gtc = y.chip.time.gtc + BitVec.ofNat 64 (n - y.chip.time.skip) := by
  unfold Sys.await
  split
  · have hn : n = 0 := by omega
    simp [hn]
  · dsimp only
    rw [traceHeld_time, passTicks, if_neg (by simp [h])]
    have hk : (y.now + 12 * n - y.now + 11) / 12 = n := by omega
    rw [hk]

/-- More than a limit of ticks have passed once what is left of it has. -/
theorem ticks_past (limit skip : Nat) (gtc since : BitVec 64) (h : limit + 1 < 2 ^ 64) :
    limit < (gtc + BitVec.ofNat 64 (limit + 1 + skip - (gtc - since).toNat - skip) - since).toNat := by
  have hsum : gtc + BitVec.ofNat 64 (limit + 1 + skip - (gtc - since).toNat - skip) - since =
      (gtc - since) + BitVec.ofNat 64 (limit + 1 + skip - (gtc - since).toNat - skip) := by
    rw [BitVec.sub_eq_add_neg, BitVec.sub_eq_add_neg, BitVec.add_assoc, BitVec.add_comm (BitVec.ofNat _ _), BitVec.add_assoc]
  rw [hsum]
  generalize gtc - since = d
  have hd := d.isLt
  rw [BitVec.toNat_add, BitVec.toNat_ofNat]
  by_cases hpast : limit < d.toNat
  · have hzero : limit + 1 + skip - d.toNat - skip = 0 := by omega
    rw [hzero, Nat.zero_mod, Nat.add_zero, Nat.mod_eq_of_lt hd]
    exact hpast
  · have hleft : limit + 1 + skip - d.toNat - skip = limit + 1 - d.toNat := by omega
    rw [hleft, Nat.mod_eq_of_lt (a := limit + 1 - d.toNat) (by omega), Nat.mod_eq_of_lt (by omega)]
    omega

theorem holdTimeout_aborts (hrun : s.sys.chip.map.run = true) (hhold : s.sys.chip.limitHold = true) :
    Gives (exec .holdTimeout s) fun t => keepsMemory s t ∧ t.sys.chip.map.run = false ∧ t.sys.chip.time.abortCause = 6 ∧
      t.sys.chip.time.abortValid = true ∧ ⟨29, .chip⟩ ∈ t.sys.chip.fc.raised ∧
      ∀ g, s.sys.chip.time.holdSince = some g → timeBaseRuns s.sys.chip = true →
        max 1 s.sys.chip.time.holdLimit.toNat * 1250 < (t.sys.chip.time.gtc - g).toNat := by
  rw [exec_holdTimeout, execHoldTimeout, onSys_eq]
  dsimp only
  rw [if_pos (by simp [hrun, hhold])]
  generalize hleft : max 1 s.sys.chip.time.holdLimit.toNat * 1250 + 1 + s.sys.chip.time.skip -
    (s.sys.chip.time.gtc - s.sys.chip.time.holdSince.getD s.sys.chip.time.gtc).toNat = left
  have hticks := await_ticks left s.sys
  have hgo := await_map_run s.sys (s.sys.now + 12 * left)
  generalize s.sys.await (s.sys.now + 12 * left) = y at hticks hgo ⊢
  obtain ⟨hstop, hcause, hvalid, hraised⟩ := startAbort_left (c := y.chip.raise 29 .chip) 6 (hgo.trans hrun)
  have htime := (startAbort_aborts 6 (y.chip.raise 29 .chip)).time
  refine ⟨_, rfl, ⟨rfl, rfl⟩, hstop, hcause, hvalid, hraised _ ?_, fun g hg hbase => ?_⟩
  · exact List.mem_append_right _ (List.mem_singleton.mpr rfl)
  · have hgtc : (startAbort 6 (y.chip.raise 29 .chip)).time.gtc = y.chip.time.gtc := by rw [htime]; rfl
    show _ < ((startAbort 6 (y.chip.raise 29 .chip)).time.gtc - g).toNat
    rw [hg] at hleft
    rw [hgtc, hticks hbase, ← hleft]
    have hlimit := s.sys.chip.time.holdLimit.isLt
    exact ticks_past _ _ _ g (by omega)

theorem forecastEffect_next (q : QuadId) {g : Forecast} (hg : s.sys.chip.pwr.gov[q].forecast = some g)
    (hrun : s.sys.chip.map.run = true) (hdue : g.due ≤ s.sys.chip.cmp.pcc) :
    exec (.forecastEffect q) s = .next (s.withChip fun c => c.onPwr (onGov q fun x => { x with
      ceiling := some (min (8 * g.level.toNat) (quadCapacity c q.val))
      forecast := none })) := by
  rw [exec_forecastEffect, execForecastEffect, onChip_eq]
  refine congrArg _ (withChip_congr ?_)
  rw [applyForecast, hg]
  exact if_pos (by simp [hrun, hdue])

end

/-- Settles O36. -/
theorem poursAndRunsTakeEffect : Obligations.PoursAndRunsTakeEffect := by
  unfold Obligations.PoursAndRunsTakeEffect
  refine ⟨fun s p i d => ?_, fun s => ?_⟩
  · intro c f launchId abortId forwards
    exact ⟨fun hpad htake => ⟨launchPour_seen hpad htake, launchPour_settled hpad htake⟩,
      fun hpad htake => abortPour_seen hpad htake, fun hpad htake => abortPour_settled hpad htake⟩
  · intro c
    exact ⟨programStart_next, runEnd_ends, holdTimeout_aborts, fun q g => forecastEffect_next q⟩

end Sys2Proof.Machine
end

section
/-! PROOFS. O38: doorbells and the states of queue pairs (13 R349-R352, R367). -/

namespace Sys2Proof.Machine

section
variable {s : State} {q : QpId} {c : Chip}

/-! SQ_TAIL. -/

/-- The entries of one queue pair are fetched: one read each, in order. -/
theorem fetches_eq (l : List Nat) (y : Sys) : ∃ reads, l.foldl (fun y i => fetchEntry q i y) y =
    { y with
      chip := { y.chip with hif := { y.chip.hif with reads := reads } }
      out := y.out ++ l.map fun i =>
        .hostRead ((y.chip.qp q).sqBase.toNat + 64 * (i % sqSize (y.chip.qp q))) 64 } := by
  induction l generalizing y with
  | nil => exact ⟨y.chip.hif.reads, by simp⟩
  | cons i l ih =>
    obtain ⟨reads, h⟩ := ih (fetchEntry q i y)
    refine ⟨reads, ?_⟩
    rw [List.foldl_cons, h]
    simp [fetchEntry, dmaRead, Sys.emit, Sys.onChip, Chip.qp]

/-- The queue pair when the tail has moved over n entries. -/
def tailMoved (tail n : Nat) (x : QueuePair) : QueuePair := updateHead { x with
  sqTail := tail
  next := x.next + n
  entries := if keepsEntries x then x.entries ++ ((List.range n).map fun i => x.next + i).map fun i => newEntry i none 0
    else x.entries }

theorem keepsEntries_iff (x : QueuePair) : keepsEntries x = true ↔ x.state = 1 ∨ x.state = 3 := by simp [keepsEntries]

theorem tailMoved_fields (tail n : Nat) (x : QueuePair) :
    (tailMoved tail n x).sqTail = tail ∧ (tailMoved tail n x).sqBase = x.sqBase ∧ sqSize (tailMoved tail n x) = sqSize x ∧
    (tailMoved tail n x).entries = (if x.state = 1 ∨ x.state = 3
      then x.entries ++ (List.range n).map fun i => newEntry (x.next + i) none 0 else x.entries) := by
  refine ⟨rfl, rfl, rfl, ?_⟩
  unfold tailMoved updateHead
  simp only [keepsEntries_iff, List.map_map, Function.comp_def]

/-- How far the tail moves: the entries that NEW_TAIL takes, behind the head. -/
def newCount (x : QueuePair) (v : Word) : Nat := (v.toNat % 4096 + sqSize x - x.sqHead % sqSize x) % sqSize x

section
variable {v : Word}

theorem writeSqTail_moves (y : Sys) (hin : v.toNat % 4096 < sqSize (y.chip.qp q))
    (hcount : sqCount (y.chip.qp q) ≤ newCount (y.chip.qp q) v) :
    writeSqTail q v y = (
      let x := y.chip.qp q
      let n := newCount x v - sqCount x
      let z := y.onChip (Chip.onQp q (tailMoved (v.toNat % 4096) n))
      if x.state == 1 then ((List.range n).map fun i => x.next + i).foldl (fun y i => fetchEntry q i y) z else z) := by
  have hmoved : (y.onChip fun c => c.onQp q fun x => updateHead { x with
      sqTail := v.toNat % 4096
      next := x.next + (newCount (y.chip.qp q) v - sqCount (y.chip.qp q))
      entries := if keepsEntries x then x.entries ++ ((List.range (newCount (y.chip.qp q) v - sqCount (y.chip.qp q))).map
        fun i => (y.chip.qp q).next + i).map fun i => newEntry i none 0 else x.entries }) =
      y.onChip (Chip.onQp q (tailMoved (v.toNat % 4096) (newCount (y.chip.qp q) v - sqCount (y.chip.qp q)))) := rfl
  unfold writeSqTail
  dsimp only
  rw [if_pos (by simp only [Bool.and_eq_true, decide_eq_true_eq]; exact ⟨hin, hcount⟩)]
  exact congrArg (fun z => if (y.chip.qp q).state == 1 then
    ((List.range (newCount (y.chip.qp q) v - sqCount (y.chip.qp q))).map fun i => (y.chip.qp q).next + i).foldl
      (fun y i => fetchEntry q i y) z else z) hmoved

/-- A tail in range. -/
theorem sqTail_moves (hin : v.toNat % 4096 < sqSize (s.sys.chip.qp q))
    (hcount : sqCount (s.sys.chip.qp q) ≤ newCount (s.sys.chip.qp q) v) :
    Gives (exec (.sqTail q v) s) fun t =>
      let c := s.sys.chip
      let x := c.qp q
      let n := newCount x v - sqCount x
      keepsMemory s t ∧ (∀ r, r ≠ q → t.sys.chip.qp r = c.qp r) ∧ t.sys.chip.cmp = c.cmp ∧
      (t.sys.chip.qp q).sqTail = v.toNat % 4096 ∧
      (t.sys.chip.qp q).entries = (if x.state = 1 ∨ x.state = 3
        then x.entries ++ (List.range n).map fun i => newEntry (x.next + i) none 0 else x.entries) ∧
      t.sys.out = (if x.state = 1 then s.sys.out ++ (List.range n).map fun i =>
          .hostRead (x.sqBase.toNat + 64 * ((x.next + i) % sqSize x)) 64
        else s.sys.out) := by
  rw [exec_sqTail, execSqTail, onSys_eq, writeSqTail_moves s.sys hin hcount]
  dsimp only
  generalize newCount (s.sys.chip.qp q) v - sqCount (s.sys.chip.qp q) = n
  have hsame := Chip.onQp_same (c := s.sys.chip) q (tailMoved (v.toNat % 4096) n)
  have hother := fun r (hr : r ≠ q) => Chip.onQp_other (c := s.sys.chip) hr (tailMoved (v.toNat % 4096) n)
  have hcmp : (s.sys.chip.onQp q (tailMoved (v.toNat % 4096) n)).cmp = s.sys.chip.cmp := rfl
  obtain ⟨htail, hbase, hsize, hentries⟩ := tailMoved_fields (v.toNat % 4096) n (s.sys.chip.qp q)
  rw [← hsame] at htail hbase hsize hentries
  generalize hd : s.sys.chip.onQp q (tailMoved (v.toNat % 4096) n) = d at htail hbase hsize hentries hother hcmp
  have hz : s.sys.onChip (Chip.onQp q (tailMoved (v.toNat % 4096) n)) = { s.sys with chip := d } := by rw [← hd]; rfl
  rw [hz]
  by_cases hst : (s.sys.chip.qp q).state = 1
  · obtain ⟨reads, hfetch⟩ := fetches_eq (q := q) ((List.range n).map fun i => (s.sys.chip.qp q).next + i)
      { s.sys with chip := d }
    rw [if_pos (beq_iff_eq.mpr hst), hfetch]
    refine ⟨_, rfl, ⟨rfl, rfl⟩, hother, hcmp, htail, hentries, ?_⟩
    rw [if_pos hst]
    simp only [hbase, hsize, List.map_map, Function.comp_def]
  · rw [if_neg (by simpa using hst)]
    refine ⟨_, rfl, ⟨rfl, rfl⟩, hother, hcmp, htail, hentries, ?_⟩
    rw [if_neg hst]

theorem sqTail_refused (h : ¬(v.toNat % 4096 < sqSize (s.sys.chip.qp q) ∧
    sqCount (s.sys.chip.qp q) ≤ newCount (s.sys.chip.qp q) v)) :
    exec (.sqTail q v) s = .next (s.withChip (Chip.hifErr 36 1 q)) := by
  rw [exec_sqTail, execSqTail, onSys_eq]
  have hnot : writeSqTail q v s.sys = s.sys.onChip (Chip.hifErr 36 1 q) := by
    unfold writeSqTail
    exact if_neg (by simp only [Bool.and_eq_true, decide_eq_true_eq]; exact h)
  rw [hnot]
  rfl

end

/-! PUSH. -/

section
variable {off : Nat} {bytes : List Byte}

theorem push_next {f : Chip → Chip} (h : writePush q off bytes s.sys.chip = f s.sys.chip) :
    exec (.push q off bytes) s = .next (s.withChip f) := by
  rw [exec_push, execPush, onChip_eq]
  exact congrArg _ (withChip_congr h)

theorem push_outside (h : off < 0x40 ∨ 0x80 ≤ off) : exec (.push q off bytes) s = .next s := by
  refine push_next (f := id) ?_
  unfold writePush
  exact if_pos (by simpa using h)

/-- Within the window: what a push makes of the queue pair. -/
theorem writePush_within (h : ¬(off < 0x40 ∨ 0x80 ≤ off)) : writePush q off bytes c =
    if off != 0x40 || bytes.length != 64 then (c.hifErr 34 3 q).onQp q qpPushError
    else if !(c.qp q).pushEn then (c.hifErr 34 4 q).onQp q qpPushError
    else if sqSize (c.qp q) - 1 ≤ sqCount (c.qp q) then c.hifErr 36 2 q
    else c.onQp q fun x => updateHead { x with
      sqTail := (x.sqTail + 1) % sqSize x
      next := x.next + 1
      entries := if keepsEntries x then x.entries ++ [newEntry x.next (some bytes) c.cmp.cycles] else x.entries } := by
  unfold writePush
  exact if_neg (by simpa using h)

theorem push_bad (hin : ¬(off < 0x40 ∨ 0x80 ≤ off)) (h : off ≠ 0x40 ∨ bytes.length ≠ 64) :
    exec (.push q off bytes) s = .next (s.withChip fun c => (c.hifErr 34 3 q).onQp q fun x => { x with state := 3 }) := by
  refine push_next ?_
  rw [writePush_within hin]
  exact if_pos (by simpa using h)

section
variable (hlen : bytes.length = 64)
include hlen

theorem writePush_whole : writePush q 0x40 bytes c =
    if !(c.qp q).pushEn then (c.hifErr 34 4 q).onQp q qpPushError
    else if sqSize (c.qp q) - 1 ≤ sqCount (c.qp q) then c.hifErr 36 2 q
    else c.onQp q fun x => updateHead { x with
      sqTail := (x.sqTail + 1) % sqSize x
      next := x.next + 1
      entries := if keepsEntries x then x.entries ++ [newEntry x.next (some bytes) c.cmp.cycles] else x.entries } := by
  rw [writePush_within (by decide), if_neg (by simp [hlen])]

theorem push_disabled (h : (s.sys.chip.qp q).pushEn = false) :
    exec (.push q 0x40 bytes) s = .next (s.withChip fun c => (c.hifErr 34 4 q).onQp q fun x => { x with state := 3 }) := by
  refine push_next ?_
  rw [writePush_whole hlen]
  exact if_pos (by simp [h])

theorem push_full (h : (s.sys.chip.qp q).pushEn = true) (hfull : sqSize (s.sys.chip.qp q) - 1 ≤ sqCount (s.sys.chip.qp q)) :
    exec (.push q 0x40 bytes) s = .next (s.withChip (Chip.hifErr 36 2 q)) := by
  refine push_next ?_
  rw [writePush_whole hlen, if_neg (by simp [h])]
  exact if_pos hfull

theorem push_taken (h : (s.sys.chip.qp q).pushEn = true) (hroom : sqCount (s.sys.chip.qp q) < sqSize (s.sys.chip.qp q) - 1) :
    Gives (exec (.push q 0x40 bytes) s) fun t =>
      let c := s.sys.chip
      let x := c.qp q
      keepsMemory s t ∧ (∀ r, r ≠ q → t.sys.chip.qp r = c.qp r) ∧ t.sys.out = s.sys.out ∧
      (t.sys.chip.qp q).sqTail = (x.sqTail + 1) % sqSize x ∧
      (t.sys.chip.qp q).entries = (if x.state = 1 ∨ x.state = 3
        then x.entries ++ [newEntry x.next (some bytes) c.cmp.cycles] else x.entries) := by
  rw [push_next (f := Chip.onQp q fun x => updateHead { x with
      sqTail := (x.sqTail + 1) % sqSize x
      next := x.next + 1
      entries := if keepsEntries x then x.entries ++ [newEntry x.next (some bytes) s.sys.chip.cmp.cycles] else x.entries })
    (by rw [writePush_whole hlen, if_neg (by simp [h]), if_neg (by omega)])]
  refine ⟨_, rfl, ⟨rfl, rfl⟩, fun r hr => Chip.onQp_other _ hr _, rfl, ?_⟩
  dsimp only [State.withChip]
  rw [Chip.onQp_same]
  refine ⟨rfl, ?_⟩
  unfold updateHead
  simp only [keepsEntries_iff]

end

end

/-! The states of a queue pair. -/

theorem qpEnable_sized {x : QueuePair} : qpEnable x = if x.state = 0 ∧ 4 ≤ x.sqLog2.toNat ∧ x.sqLog2.toNat ≤ 12 ∧
      4 ≤ x.cqLog2.toNat ∧ x.cqLog2.toNat ≤ 12 then { x with
    enable := true
    state := 1
    sqHead := 0
    sqTail := 0
    cqHead := 0
    cqTail := 0
    phase := true
    next := 0
    entries := []
    irqCount := 0
    irqSince := none } else x := by
  unfold qpEnable
  simp [and_assoc]

theorem onQp_congr {f g : QueuePair → QueuePair} (h : f (c.qp q) = g (c.qp q)) : c.onQp q f = c.onQp q g := by
  unfold Chip.onQp
  rw [show f c.hif.qps[q] = g c.hif.qps[q] from h]

theorem onQp_id (c : Chip) : c.onQp q id = c := by
  unfold Chip.onQp
  simp

/-- The sizes of both queues are in range. -/
def sized (x : QueuePair) : Prop :=
  4 ≤ x.sqLog2.toNat ∧ x.sqLog2.toNat ≤ 12 ∧ 4 ≤ x.cqLog2.toNat ∧ x.cqLog2.toNat ≤ 12

theorem qpEnable_next (hst : (s.sys.chip.qp q).state = 0) (hsized : sized (s.sys.chip.qp q)) :
    exec (.qpEnable q) s = .next (s.withChip (Chip.onQp q fun x => { x with
      enable := true
      state := 1
      sqHead := 0
      sqTail := 0
      cqHead := 0
      cqTail := 0
      phase := true
      next := 0
      entries := []
      irqCount := 0
      irqSince := none })) := by
  rw [exec_qpEnable, execQpEnable, onChip_eq]
  exact congrArg _ (withChip_congr (onQp_congr (qpEnable_sized.trans (if_pos ⟨hst, hsized⟩))))

theorem qpEnable_same (h : (s.sys.chip.qp q).state ≠ 0 ∨ ¬sized (s.sys.chip.qp q)) : exec (.qpEnable q) s = .next s := by
  have hnot : ¬((s.sys.chip.qp q).state = 0 ∧ sized (s.sys.chip.qp q)) := by tauto
  have hsame := onQp_congr (f := qpEnable) (g := id) (qpEnable_sized.trans (if_neg hnot))
  rw [exec_qpEnable, execQpEnable, onChip_eq, withChip_congr (g := id) (hsame.trans (onQp_id _))]
  rfl

theorem qpDisable_drains (h : (s.sys.chip.qp q).state = 1 ∨ (s.sys.chip.qp q).state = 3) :
    Gives (exec (.qpDisable q) s) fun t => keepsMemory s t ∧
      t.sys.chip.qp q = { s.sys.chip.qp q with
        enable := false
        state := 2 } ∧
      (∀ r, r ≠ q → t.sys.chip.qp r = s.sys.chip.qp r) ∧
      t.sys.chip.hif.cbuf = s.sys.chip.hif.cbuf.filter (fun e => e.qp != q) := by
  rw [exec_qpDisable, execQpDisable, onChip_eq]
  have hdrains : qpDisable q s.sys.chip = (let c := s.sys.chip.onQp q fun x => { x with
        enable := false
        state := 2 }
      { c with
        hif := { c.hif with cbuf := c.hif.cbuf.filter fun e => e.qp != q }
        fab := { c.fab with waiting := c.fab.waiting.filter fun e => e.qp != q } }) := by
    unfold qpDisable
    exact if_pos (by simpa using h)
  rw [withChip_congr (g := fun _ => _) hdrains]
  have hsame := Chip.onQp_same s.sys.chip q fun x => { x with
    enable := false
    state := 2 }
  have hother := fun r (hr : r ≠ q) => Chip.onQp_other s.sys.chip hr fun x => { x with
    enable := false
    state := 2 }
  exact ⟨_, rfl, ⟨rfl, rfl⟩, hsame, hother, rfl⟩

theorem qpDrainEnd_next (hst : (s.sys.chip.qp q).state = 2) (hreads : ∀ r ∈ s.sys.chip.hif.reads, r.qp ≠ q)
    (htxns : ∀ y ∈ s.sys.chip.fab.txns, y.seg.qp ≠ q) :
    exec (.qpDrainEnd q) s = .next (s.withChip (Chip.onQp q fun x => { x with
      state := 0
      entries := [] })) := by
  have hany : (s.sys.chip.hif.reads.any fun r => r.qp == q) = false := by simpa using hreads
  have hseg : (s.sys.chip.fab.txns.any fun x => x.seg.qp == q) = false := by simpa using htxns
  rw [exec_qpDrainEnd, execQpDrainEnd, onChip_eq]
  refine congrArg _ (withChip_congr ?_)
  exact if_pos (by simp [hst, hany, hseg])

end

/-- Settles O38. -/
theorem doorbellsAndQueuePairs : Obligations.DoorbellsAndQueuePairs := by
  unfold Obligations.DoorbellsAndQueuePairs
  refine ⟨fun s q => ?_, fun s q => ?_⟩
  · intro c x size count
    refine ⟨fun v => ⟨sqTail_moves, sqTail_refused, rfl⟩, fun off bytes => ?_⟩
    refine ⟨push_outside, fun hlo hhi => push_bad (by omega) (.inl (by omega)), fun hlen => push_bad (by decide) (.inr hlen),
      fun hlen => ⟨push_disabled hlen, push_full hlen, push_taken hlen⟩⟩
  · exact ⟨qpEnable_next, qpEnable_same, qpDisable_drains, qpDrainEnd_next⟩

end Sys2Proof.Machine
end

section
/-! PROOFS. O39, first part: entries that start, and how they end (13 R353-R355). -/

namespace Sys2Proof.Machine

section
variable {s : State} {q : QpId} {e : QEntry} {c d : Chip} {y : Sys}

/-! The start of an entry. -/

theorem startOp_starts {is : Nat → Bool} {f : QEntry → Sys → Sys} (hnext : nextEntry (y.chip.qp q) = some e)
    (his : is (descOp e.bytes) = true) (hturn : turnOf y.chip = some q) (hbusy : startBusy y.chip = false) :
    startOp q is f y = f { e with started := true } (y.onChip (markStart q e)) := by
  unfold startOp
  rw [hnext]
  dsimp only
  rw [if_pos (by simp [his, hturn, hbusy]), if_neg (by simp [hbusy])]

theorem startOp_waits {is : Nat → Bool} {f : QEntry → Sys → Sys}
    (h : turnOf y.chip ≠ some q ∨ (y.chip.map.run = true ∧ startBusy y.chip = true)) : startOp q is f y = y := by
  unfold startOp
  split
  · refine if_neg ?_
    rcases h with h | ⟨hrun, hbusy⟩
    · simp [h]
    · simp [hrun, hbusy]
  · rfl

/-- The chip when the entry has started: its queue pair and the round robin. -/
theorem markStart_eq (q : QpId) (e : QEntry) (c : Chip) : markStart q e c = { c with
    hif := { c.hif with
      qps := (markStart q e c).hif.qps
      turn := q + 1
      startAt := some c.cmp.cycles } } := rfl

theorem markStart_qp (q : QpId) (e : QEntry) (c : Chip) : (markStart q e c).qp q = { c.qp q with
    entries := (c.qp q).entries.map fun x => if x.index == e.index then { x with started := true } else x } := by
  unfold markStart Chip.onEntry
  exact Chip.onQp_same ..

theorem markStart_other {r : QpId} (hr : r ≠ q) : (markStart q e c).qp r = c.qp r := by
  unfold markStart Chip.onEntry
  exact Chip.onQp_other _ hr _

/-- The others of a list in which an entry has been marked. -/
theorem others_marked (l : List QEntry) (i : Nat) :
    (l.map fun x => if x.index == i then { x with started := true } else x).filter (fun x => x.index != i) =
      l.filter fun x => x.index != i := by
  induction l with
  | nil => rfl
  | cons x l ih =>
    rw [List.map_cons]
    by_cases h : x.index = i
    · simpa [h] using ih
    · simpa [h] using ih

/-! The end of an entry. -/

/-- A queue pair that posts its completions, on a link that is up, with room in the completion buffer. -/
structure CanPost (q : QpId) (c : Chip) : Prop where
  state : (c.qp q).state = 1
  link : c.hif.linkUp = true
  room : c.hif.cbuf.length < 64

theorem nextEntry_state {x : QueuePair} (h : nextEntry x = some e) : x.state = 1 := by
  unfold nextEntry at h
  split at h
  · next hst => simpa using (Bool.and_eq_true_iff.mp hst).1
  · cases h

theorem canPost_markStart (h : CanPost q c) : CanPost q (markStart q e c) :=
  ⟨by rw [markStart_qp]; exact h.state, h.link, h.room⟩

theorem postFrom_eq (h : CanPost q c) (due cid status r0 r1 r2 : Nat) : postFrom due q cid status r0 r1 r2 c =
    { c with hif := { c.hif with cbuf := c.hif.cbuf ++ [⟨q, cid, status, r0, r1, r2, due⟩] } } := by
  have hposts : qpPosts (c.qp q) = true := by simp [qpPosts, h.state]
  have hroom := h.room
  unfold postFrom
  dsimp only
  rw [if_neg (by simp [hposts]), if_neg (by simp [h.link]), if_neg (by omega)]

theorem canPost_dropEntry (i : Nat) (h : CanPost q c) : CanPost q (dropEntry q i c) :=
  ⟨by rw [dropEntry, Chip.onQp_same]; exact h.state, h.link, h.room⟩

/-- The chip when an entry has ended: one entry less, and one completion more. -/
theorem endEntry_eq (h : CanPost q c) (e : QEntry) (status r0 r1 r2 : Nat) : endEntry q e status r0 r1 r2 c =
    { dropEntry q e.index c with hif := { (dropEntry q e.index c).hif with
      cbuf := c.hif.cbuf ++ [⟨q, descCid e.bytes, status, r0, r1, r2, 0⟩] } } :=
  postFrom_eq (canPost_dropEntry _ h) 0 _ _ _ _ _

/-- An entry has ended: it has left its queue pair, with its completion in the buffer. -/
structure DescEnded (q : QpId) (e : QEntry) (status r0 r1 r2 : Nat) (c d : Chip) : Prop where
  entries : (d.qp q).entries = (c.qp q).entries.filter fun x => x.index != e.index
  cbuf : d.hif.cbuf = c.hif.cbuf ++ [⟨q, descCid e.bytes, status, r0, r1, r2, 0⟩]

theorem endEntry_ended (h : CanPost q c) (e : QEntry) (status r0 r1 r2 : Nat) :
    DescEnded q e status r0 r1 r2 c (endEntry q e status r0 r1 r2 c) := by
  rw [endEntry_eq h]
  refine ⟨?_, rfl⟩
  show ((dropEntry q e.index c).qp q).entries = _
  rw [dropEntry, Chip.onQp_same]

/-- The entry that has been marked ends. -/
theorem markedEnd_ended (h : CanPost q c) (status r0 r1 r2 : Nat) :
    DescEnded q e status r0 r1 r2 c (endEntry q { e with started := true } status r0 r1 r2 (markStart q e c)) := by
  obtain ⟨hentries, hcbuf⟩ := endEntry_ended (canPost_markStart (e := e) h) { e with started := true } status r0 r1 r2
  refine ⟨hentries.trans ?_, hcbuf⟩
  rw [markStart_qp]
  exact others_marked ..

/-! What a command gives. -/

/-- The entry completes, and nothing else happens. -/
def descCompletes (q : QpId) (e : QEntry) (status r0 r1 r2 : Nat) (s t : State) : Prop :=
  keepsMemory s t ∧ t.sys.tray = s.sys.tray ∧ t.sys.out = s.sys.out ∧ t.sys.chip.cmp = s.sys.chip.cmp ∧
  t.sys.chip.time = s.sys.chip.time ∧
  (t.sys.chip.qp q).entries = (s.sys.chip.qp q).entries.filter (fun x => x.index != e.index) ∧
  t.sys.chip.hif.cbuf = s.sys.chip.hif.cbuf ++ [⟨q, descCid e.bytes, status, r0, r1, r2, 0⟩]

/-- The data of the entry is read from host memory. -/
def descReads (q : QpId) (e : QEntry) (addr len : Nat) (s t : State) : Prop :=
  keepsMemory s t ∧ t.sys.out = s.sys.out ++ [.hostRead addr len] ∧
  (t.sys.chip.qp q).entries =
    (s.sys.chip.qp q).entries.map (fun x => if x.index == e.index then { x with started := true } else x) ∧
  t.sys.chip.hif.reads = s.sys.chip.hif.reads ++ [⟨q, e.index, false, addr, len⟩]

/-- The chip on which an entry has ended. -/
def endedChip (q : QpId) (e : QEntry) (status r0 r1 r2 : Nat) (c : Chip) : Chip :=
  endEntry q { e with started := true } status r0 r1 r2 (markStart q e c)

theorem endedChip_step (status r0 r1 r2 : Nat) : HifStep c (endedChip q e status r0 r1 r2 c) :=
  (hifStep_hif ..).trans (hifStep_endEntry ..)

theorem gives_ended (h : CanPost q s.sys.chip) (status r0 r1 r2 : Nat) :
    Gives (.next (s.withChip (endedChip q e status r0 r1 r2))) (descCompletes q e status r0 r1 r2 s) := by
  have hstep := endedChip_step (q := q) (e := e) (c := s.sys.chip) status r0 r1 r2
  obtain ⟨hentries, hcbuf⟩ := markedEnd_ended (e := e) h status r0 r1 r2
  exact ⟨_, rfl, ⟨rfl, rfl⟩, rfl, rfl, hstep.cmp, hstep.time, hentries, hcbuf⟩

theorem gives_reads (addr len : Nat) :
    Gives (.next { s with sys := dmaRead q e.index addr len false (s.sys.onChip (markStart q e)) })
      (descReads q e addr len s) := by
  have hqp := markStart_qp q e s.sys.chip
  refine ⟨_, rfl, ⟨rfl, rfl⟩, rfl, ?_, rfl⟩
  show ((markStart q e s.sys.chip).qp q).entries = _
  rw [hqp]

section
variable {op : Nat} {f : QEntry → Sys → Sys}
variable (hnext : nextEntry (s.sys.chip.qp q) = some e) (hturn : turnOf s.sys.chip = some q)
  (hbusy : startBusy s.sys.chip = false) (hop : descOp e.bytes = op)
include hnext hturn hbusy hop

theorem serveOp_valid (hvalid : descValid s.sys.chip.map.vc e.bytes = true) :
    serveOp q op f s = .next { s with sys := f { e with started := true } (s.sys.onChip (markStart q e)) } := by
  rw [serveOp, onSys_eq, startOp_starts hnext (by simp [hop]) hturn hbusy]
  have hvalid' : descValid (s.sys.onChip (markStart q e)).chip.map.vc (QEntry.bytes { e with started := true }) = true := hvalid
  rw [if_pos hvalid']

theorem serveOp_invalid (hvalid : descValid s.sys.chip.map.vc e.bytes = false) :
    serveOp q op f s = .next (s.withChip (endedChip q e 5 0 0 0)) := by
  rw [serveOp, onSys_eq, startOp_starts hnext (by simp [hop]) hturn hbusy]
  have hvalid' : descValid (s.sys.onChip (markStart q e)).chip.map.vc (QEntry.bytes { e with started := true }) = false := hvalid
  rw [hvalid']
  rfl

/-- The effect of a valid descriptor is to end. -/
theorem serveOp_ends {status r0 r1 r2 : Nat} (h : CanPost q s.sys.chip)
    (hvalid : descValid s.sys.chip.map.vc e.bytes = true)
    (hf : f { e with started := true } (s.sys.onChip (markStart q e)) =
      s.sys.onChip (endedChip q e status r0 r1 r2)) :
    Gives (serveOp q op f s) (descCompletes q e status r0 r1 r2 s) := by
  rw [serveOp_valid hnext hturn hbusy hop hvalid, hf]
  exact gives_ended h status r0 r1 r2

/-- The effect of a valid descriptor is to read its data. -/
theorem serveOp_reads {addr len : Nat} (hvalid : descValid s.sys.chip.map.vc e.bytes = true)
    (hf : f { e with started := true } (s.sys.onChip (markStart q e)) =
      dmaRead q e.index addr len false (s.sys.onChip (markStart q e))) :
    Gives (serveOp q op f s) (descReads q e addr len s) := by
  rw [serveOp_valid hnext hturn hbusy hop hvalid, hf]
  exact gives_reads addr len

theorem serveOp_refuses (h : CanPost q s.sys.chip) (hvalid : descValid s.sys.chip.map.vc e.bytes = false) :
    Gives (serveOp q op f s) (descCompletes q e 5 0 0 0 s) := by
  rw [serveOp_invalid hnext hturn hbusy hop hvalid]
  exact gives_ended h 5 0 0 0

end

end

end Sys2Proof.Machine
end

section
/-! PROOFS. Ranges of search memory, read and written line by line (03 Table 03-7; 13 R355). -/

namespace Sys2Proof.Machine

section
variable {vc off o n : Nat} {m : List Host.Cell} {y : Sys}

/-! Regions of search memory. -/

/-- An offset of search memory lies in its range, and above the tiles. -/
theorem search_bounds (h : regionOf vc off = .search o) :
    16 * vc * 0x400000 ≤ off ∧ 0x70000000 ≤ off ∧ off < 0x70800000 ∧ searchBase + o = off := by
  unfold regionOf at h
  split at h
  · cases h
  next htile =>
    split at h
    · cases h
    · split at h
      next hin =>
        rw [Bool.and_eq_true, decide_eq_true_iff, decide_eq_true_iff] at hin
        obtain ⟨hlo, hhi⟩ := hin
        have ho := Region.search.inj h
        refine ⟨Nat.le_of_not_lt htile, hlo, hhi, ?_⟩
        unfold searchBase
        omega
      · cases h

/-- So does every offset from there to the end of the range. -/
theorem search_above {x : Nat} (h : regionOf vc off = .search o) (hx : off ≤ x) (hhi : x < 0x70800000) :
    ∃ o', regionOf vc x = .search o' ∧ searchBase + o' = x := by
  obtain ⟨hvc, hlo, -, -⟩ := search_bounds h
  refine ⟨x - 0x70000000, ?_, by unfold searchBase; omega⟩
  have htile : ¬x < 16 * vc * 0x400000 := Nat.not_lt.mpr (hvc.trans hx)
  have hregs : ¬(decide (0x60000000 ≤ x) && decide (x < 0x60010000)) = true := by
    rw [Bool.and_eq_true, decide_eq_true_iff, decide_eq_true_iff]
    omega
  have hsearch : (decide (0x70000000 ≤ x) && decide (x < 0x70800000)) = true := by
    rw [Bool.and_eq_true, decide_eq_true_iff, decide_eq_true_iff]
    omega
  rw [regionOf, if_neg htile, if_neg hregs, if_pos hsearch]

/-- Only search memory is of its kind. -/
theorem search_of_kind {r : Region} (h : r.kind = 2) : ∃ o, r = .search o := by
  cases r with
  | tile v o => cases h
  | regs o => cases h
  | search o => exact ⟨o, rfl⟩
  | reserved => cases h

/-- A range that the checks of R355 accept, from an offset of search memory: its end is in search memory, which is on. -/
theorem rangeStatus_search {c : Chip} (h : regionOf c.map.vc off = .search o) (hstatus : rangeStatus c off n = 0) :
    off + n - 1 < 0x70800000 ∧ c.domOn bitSrch = true := by
  unfold rangeStatus at hstatus
  rw [h] at hstatus
  dsimp only at hstatus
  split at hstatus
  · cases hstatus
  next hkind =>
    have hlast : (regionOf c.map.vc (off + n - 1)).kind = 2 := by
      by_contra hne
      exact hkind (by rw [Bool.or_eq_true]; right; exact bne_iff_ne.mpr hne)
    obtain ⟨o', ho'⟩ := search_of_kind hlast
    refine ⟨(search_bounds ho').2.2.1, ?_⟩
    by_contra hoff
    rw [if_neg hoff] at hstatus
    cases hstatus

/-! Pieces of a range. -/

/-- How much of a range lies before its line k. -/
def covered (off n k : Nat) : Nat := min (off + n) ((off / 256 + k) * 256) - off

theorem covered_zero (off n : Nat) : covered off n 0 = 0 := by
  unfold covered
  omega

/-- Line k's piece begins where the lines before it end, and takes the range on to the next line. -/
theorem linePiece_eq {k : Nat} (hk : k ≤ (off + n - 1) / 256 - off / 256) (hn : 0 < n) :
    linePiece off n k = (off + covered off n k, covered off n (k + 1) - covered off n k) ∧
    covered off n k ≤ covered off n (k + 1) ∧ off + covered off n k ≤ off + n - 1 ∧ off + covered off n (k + 1) ≤ off + n := by
  have hline : (off / 256 + k) * 256 ≤ max off (off + n - 1) := by omega
  unfold linePiece covered
  dsimp only
  refine ⟨?_, ?_, ?_, ?_⟩
  · rw [Prod.mk.injEq]
    omega
  all_goals omega

theorem covered_last (hn : 0 < n) : covered off n ((off + n - 1) / 256 - off / 256 + 1) = n := by
  unfold covered
  omega

theorem Memory.read_add (m : List Host.Cell) (a j k : Nat) :
    Memory.read m a (j + k) = Memory.read m a j ++ Memory.read m (a + j) k := by
  unfold Memory.read
  rw [List.range_add, List.map_append, List.map_map]
  simp [Function.comp_def, Nat.add_assoc]

/-- A range of search memory without marks reads as its bytes. -/
theorem readRange_search (h : regionOf y.chip.map.vc off = .search o) (hhi : off + n - 1 < 0x70800000)
    (hon : y.chip.domOn bitSrch = true) (hecc : y.ecc = []) : readRange m off n y = (false, Memory.read m off n, y) := by
  unfold readRange linePieces
  split
  · next hn =>
    rw [beq_iff_eq.mp hn]
    rfl
  next hn =>
    have hpos : 0 < n := Nat.pos_of_ne_zero (by simpa using hn)
    have hprefix : ∀ k, k ≤ (off + n - 1) / 256 - off / 256 + 1 →
        ((List.range k).map (linePiece off n)).foldl (fun acc p =>
          let r := readPiece m p.1 p.2 acc.2.2
          (acc.1 || r.1 == 4, acc.2.1 ++ r.2.1, r.2.2)) (false, [], y) = (false, Memory.read m off (covered off n k), y) := by
      intro k
      induction k with
      | zero => intro _; rw [covered_zero]; rfl
      | succ k ih =>
        intro hk
        obtain ⟨hpiece, hle, hstart, -⟩ := linePiece_eq (off := off) (n := n) (k := k) (by omega) hpos
        obtain ⟨o', hr, haddr⟩ := search_above (x := off + covered off n k) h (by omega) (by omega)
        rw [List.range_succ, List.map_append, List.foldl_append, ih (by omega)]
        simp only [List.map_cons, List.map_nil, List.foldl_cons, List.foldl_nil, hpiece]
        rw [readPiece_search _ hr haddr hon hecc, ← Memory.read_add, Nat.add_sub_cancel' hle]
        rfl
    rw [hprefix _ le_rfl, covered_last hpos]

end

end Sys2Proof.Machine
end

section
/-! PROOFS. O39, second part: what each descriptor does (13 Tables 13-4, 13-5, 13-9). -/

namespace Sys2Proof.Machine

section
variable {s : State} {q : QpId} {e : QEntry} {c d : Chip} {y : Sys}

/-! What the checks of a descriptor look at. -/

theorem domOn_of_pwr (hpwr : d.pwr = c.pwr) (bit : Nat) : d.domOn bit = c.domOn bit := by
  rw [Chip.domOn, Chip.domOn, hpwr]

theorem liveTile_congr (hmap : d.map = c.map) (hpwr : d.pwr = c.pwr) (v : Nat) : d.liveTile v = c.liveTile v := by
  unfold Chip.liveTile
  rw [hmap]
  split
  · rw [domOn_of_pwr hpwr]
  · rfl

theorem rangeStatus_congr (hmap : d.map = c.map) (hpwr : d.pwr = c.pwr) (off n : Nat) :
    rangeStatus d off n = rangeStatus c off n := by
  have hlive : d.liveTile = c.liveTile := funext (liveTile_congr hmap hpwr)
  have hdom : d.domOn = c.domOn := funext (domOn_of_pwr hpwr)
  unfold rangeStatus
  rw [hmap, hlive, hdom]

theorem rangeStatus_mark (off n : Nat) : rangeStatus (markStart q e c) off n = rangeStatus c off n :=
  rangeStatus_congr (d := markStart q e c) (c := c) rfl rfl off n

theorem launchRefusal_mark (l : Nat) : launchRefusal (markStart q e c) l = launchRefusal c l := rfl

theorem globalRefusal_mark (bs : List Byte) : globalRefusal (markStart q e c) bs = globalRefusal c bs := rfl

theorem timeStatus_mark : timeStatus (markStart q e c) = timeStatus c := rfl

theorem bytes_started (e : QEntry) : QEntry.bytes { e with started := true } = e.bytes := rfl

/-- An entry that is to start next. -/
structure Starts (q : QpId) (e : QEntry) (s : State) : Prop where
  next : nextEntry (s.sys.chip.qp q) = some e
  turn : turnOf s.sys.chip = some q
  free : startBusy s.sys.chip = false
  post : CanPost q s.sys.chip

/-! Descriptors that complete INVALID. -/

section
variable (h : Starts q e s)
include h

theorem nopDescriptor_ends (hop : descOp e.bytes = 0 ∨ 12 ≤ descOp e.bytes) :
    Gives (exec (.nopDescriptor q) s)
      (descCompletes q e (if descValid s.sys.chip.map.vc e.bytes then 0 else 5) 0 0 0 s) := by
  rw [exec_nopDescriptor, execNopDescriptor, onSys_eq, startOp_starts h.next (by simpa using hop) h.turn h.free]
  exact gives_ended h.post _ 0 0 0

theorem read_starts (hop : descOp e.bytes = 2) : exec (.read q) s = .next { s with
    sys := (fun (e : QEntry) (y : Sys) =>
      let d := e.bytes
      if !descValid y.chip.map.vc d then y.onChip (endEntry q e 5 0 0 0)
      else
        let status := rangeStatus y.chip (descTaddr d) (descLen d)
        if status != 0 then y.onChip (endEntry q e status 0 0 0)
        else
          let r := readRange s.mem (descTaddr d) (descLen d) y
          (r.2.2.emit (.hostWrite (BitVec.ofNat 64 (descHaddr d)) r.2.1)).onChip
            (endEntry q e (if r.1 then 18 else 0) (descLen d) 0 0)) { e with started := true }
      (s.sys.onChip (markStart q e)) } := by
  rw [exec_read, execRead, onSysMem, startOp_starts h.next (by simp [hop]) h.turn h.free]

theorem invalid_ends (hvalid : descValid s.sys.chip.map.vc e.bytes = false) :
    let op := descOp e.bytes
    let r := descCompletes q e 5 0 0 0 s
    (op = 0 ∨ 12 ≤ op → Gives (exec (.nopDescriptor q) s) r) ∧
    (op = 1 → Gives (exec (.write q) s) r) ∧ (op = 2 → Gives (exec (.read q) s) r) ∧
    (op = 3 → Gives (exec (.input q) s) r) ∧ (op = 4 → Gives (exec (.launch q) s) r) ∧
    (op = 5 → Gives (exec (.stop q) s) r) ∧ (op = 6 → Gives (exec (.globalWrite q) s) r) ∧
    (op = 7 → Gives (exec (.globalRead q) s) r) ∧ (op = 8 → Gives (exec (.cancel q) s) r) ∧
    (op = 9 → Gives (exec (.fence q) s) r) ∧
    (op = 10 → Gives (exec (.search q) s) r) ∧ (op = 11 → Gives (exec (.timeQuery q) s) r) := by
  have hserved : ∀ {n : Nat} {f : QEntry → Sys → Sys}, descOp e.bytes = n →
      Gives (serveOp q n f s) (descCompletes q e 5 0 0 0 s) := fun hop =>
    serveOp_refuses h.next h.turn h.free hop h.post hvalid
  refine ⟨fun hop => ?_, hserved, fun hop => ?_, hserved, hserved, hserved, hserved, hserved, hserved, hserved, hserved, hserved⟩
  · have hends := nopDescriptor_ends h hop
    rw [hvalid] at hends
    exact hends
  · rw [read_starts h hop]
    have hnot : (!descValid (s.sys.onChip (markStart q e)).chip.map.vc (QEntry.bytes { e with started := true })) = true := by
      rw [show descValid (s.sys.onChip (markStart q e)).chip.map.vc (QEntry.bytes { e with started := true }) = false from hvalid]
      rfl
    dsimp only
    rw [if_pos hnot]
    exact gives_ended h.post 5 0 0 0

/-! Valid descriptors that end at once. -/

section
variable (hvalid : descValid s.sys.chip.map.vc e.bytes = true)
include hvalid

/-- The status of a refusal, where there is one. -/
theorem serveOp_status {op : Nat} {f : QEntry → Sys → Sys} {status : Nat} (hop : descOp e.bytes = op)
    (hf : f { e with started := true } (s.sys.onChip (markStart q e)) = s.sys.onChip (endedChip q e status 0 0 0)) :
    Gives (serveOp q op f s) (descCompletes q e status 0 0 0 s) :=
  serveOp_ends h.next h.turn h.free hop h.post hvalid hf

theorem serveOp_fetches {op : Nat} {f : QEntry → Sys → Sys} {addr len : Nat} (hop : descOp e.bytes = op)
    (hf : f { e with started := true } (s.sys.onChip (markStart q e)) =
      dmaRead q e.index addr len false (s.sys.onChip (markStart q e))) :
    Gives (serveOp q op f s) (descReads q e addr len s) :=
  serveOp_reads h.next h.turn h.free hop hvalid hf

theorem write_settled (hop : descOp e.bytes = 1) :
    let status := rangeStatus s.sys.chip (descTaddr e.bytes) (descLen e.bytes)
    (status ≠ 0 → Gives (exec (.write q) s) (descCompletes q e status 0 0 0 s)) ∧
    (status = 0 → Gives (exec (.write q) s) (descReads q e (descHaddr e.bytes) (descLen e.bytes) s)) := by
  intro status
  have hmark : rangeStatus (markStart q e s.sys.chip) (descTaddr e.bytes) (descLen e.bytes) = status := rangeStatus_mark ..
  clear_value status
  refine ⟨fun hbad => serveOp_status h hvalid hop ?_, fun hgood => serveOp_fetches h hvalid hop ?_⟩
  · dsimp only [Sys.onChip]
    rw [bytes_started, hmark, if_pos (bne_iff_ne.mpr hbad)]
    rfl
  · dsimp only [Sys.onChip]
    rw [bytes_started, hmark, hgood]
    rfl

/-- A READ that may move bytes, or the status of its refusal. -/
theorem read_valid (hop : descOp e.bytes = 2) : exec (.read q) s = .next { s with
    sys := if rangeStatus s.sys.chip (descTaddr e.bytes) (descLen e.bytes) != 0 then
        s.sys.onChip (endedChip q e (rangeStatus s.sys.chip (descTaddr e.bytes) (descLen e.bytes)) 0 0 0)
      else
        let r := readRange s.mem (descTaddr e.bytes) (descLen e.bytes) (s.sys.onChip (markStart q e))
        (r.2.2.emit (.hostWrite (BitVec.ofNat 64 (descHaddr e.bytes)) r.2.1)).onChip
          (endEntry q { e with started := true } (if r.1 then 18 else 0) (descLen e.bytes) 0 0) } := by
  have hmark : rangeStatus (markStart q e s.sys.chip) (descTaddr e.bytes) (descLen e.bytes) =
    rangeStatus s.sys.chip (descTaddr e.bytes) (descLen e.bytes) := rangeStatus_mark ..
  have hstill : descValid (s.sys.onChip (markStart q e)).chip.map.vc e.bytes = true := hvalid
  have hchip : (s.sys.onChip (markStart q e)).chip = markStart q e s.sys.chip := rfl
  have hends : ∀ status, (s.sys.onChip (markStart q e)).onChip (endEntry q { e with started := true } status 0 0 0) =
    s.sys.onChip (endedChip q e status 0 0 0) := fun _ => rfl
  rw [read_starts h hop]
  dsimp only
  rw [bytes_started, hstill, if_neg (by decide), hchip, hmark, hends]

theorem read_refused (hop : descOp e.bytes = 2) (hbad : rangeStatus s.sys.chip (descTaddr e.bytes) (descLen e.bytes) ≠ 0) :
    Gives (exec (.read q) s)
      (descCompletes q e (rangeStatus s.sys.chip (descTaddr e.bytes) (descLen e.bytes)) 0 0 0 s) := by
  rw [read_valid h hvalid hop]
  generalize rangeStatus s.sys.chip (descTaddr e.bytes) (descLen e.bytes) = status at hbad ⊢
  rw [if_pos (bne_iff_ne.mpr hbad)]
  exact gives_ended h.post _ 0 0 0

theorem read_search {o : Nat} (hop : descOp e.bytes = 2)
    (hgood : rangeStatus s.sys.chip (descTaddr e.bytes) (descLen e.bytes) = 0)
    (hregion : regionOf s.sys.chip.map.vc (descTaddr e.bytes) = .search o) (hecc : s.sys.ecc = []) :
    Gives (exec (.read q) s) fun t => keepsMemory s t ∧
      ((t.sys.chip.qp q).entries = (s.sys.chip.qp q).entries.filter (fun x => x.index != e.index) ∧
        t.sys.chip.hif.cbuf = s.sys.chip.hif.cbuf ++ [⟨q, descCid e.bytes, 0, descLen e.bytes, 0, 0, 0⟩]) ∧
      t.sys.out = s.sys.out ++ [.hostWrite (BitVec.ofNat 64 (descHaddr e.bytes))
        (Memory.read s.mem (searchBase + o) (descLen e.bytes))] := by
  have hmarked : readRange s.mem (descTaddr e.bytes) (descLen e.bytes) (s.sys.onChip (markStart q e)) =
      (false, Memory.read s.mem (descTaddr e.bytes) (descLen e.bytes), s.sys.onChip (markStart q e)) := by
    obtain ⟨hhi, hon⟩ := rangeStatus_search hregion hgood
    exact readRange_search (y := s.sys.onChip (markStart q e)) hregion hhi hon hecc
  obtain ⟨hentries, hcbuf⟩ := markedEnd_ended (e := e) h.post 0 (descLen e.bytes) 0 0
  rw [(search_bounds hregion).2.2.2, read_valid h hvalid hop, hgood]
  dsimp only
  rw [hmarked]
  exact ⟨_, rfl, ⟨rfl, rfl⟩, ⟨hentries, hcbuf⟩, rfl⟩

/-! INPUT. -/

theorem input_stopped (hop : descOp e.bytes = 3) (hrun : s.sys.chip.map.run = false) :
    Gives (exec (.input q) s) (descCompletes q e 6 0 0 0 s) := by
  have hstill : (s.sys.onChip (markStart q e)).chip.map.run = false := hrun
  refine serveOp_status h hvalid hop ?_
  dsimp only
  rw [hstill]
  rfl

section
variable (hrun : s.sys.chip.map.run = true)
include hrun

theorem input_full (hop : descOp e.bytes = 3) (hfull : 16 ≤ s.sys.chip.hif.mailbox.length) :
    Gives (exec (.input q) s) (descCompletes q e 8 0 0 0 s) := by
  have hstill : (s.sys.onChip (markStart q e)).chip.map.run = true := hrun
  have hbox : 16 ≤ (s.sys.onChip (markStart q e)).chip.hif.mailbox.length := hfull
  refine serveOp_status h hvalid hop ?_
  dsimp only
  rw [hstill, if_neg (by decide), if_pos hbox]
  rfl

theorem input_fetched (hop : descOp e.bytes = 3) (hroom : s.sys.chip.hif.mailbox.length < 16)
    (hinline : descInline e.bytes = false) :
    Gives (exec (.input q) s) (descReads q e (descTaddr e.bytes) (descLen e.bytes) s) := by
  have hstill : (s.sys.onChip (markStart q e)).chip.map.run = true := hrun
  have hbox : ¬16 ≤ (s.sys.onChip (markStart q e)).chip.hif.mailbox.length := Nat.not_le.mpr hroom
  refine serveOp_fetches h hvalid hop ?_
  dsimp only
  rw [hstill, if_neg (by decide), if_neg hbox, bytes_started, hinline, if_neg (by decide)]

theorem input_placed (hop : descOp e.bytes = 3) (hroom : s.sys.chip.hif.mailbox.length < 16)
    (hinline : descInline e.bytes = true) :
    Gives (exec (.input q) s) fun t => keepsMemory s t ∧
      (t.sys.chip.qp q).entries = (s.sys.chip.qp q).entries.filter (fun x => x.index != e.index) ∧
      t.sys.chip.hif.cbuf = s.sys.chip.hif.cbuf ∧ t.sys.chip.hif.inputCount = satInc s.sys.chip.hif.inputCount ∧
      t.sys.chip.hif.mailbox.map (fun x => x.line) = s.sys.chip.hif.mailbox.map (fun x => x.line) ++ [mailLine q e] := by
  have hstill : (s.sys.onChip (markStart q e)).chip.map.run = true := hrun
  have hbox : ¬16 ≤ (s.sys.onChip (markStart q e)).chip.hif.mailbox.length := Nat.not_le.mpr hroom
  have hqp := markStart_qp q e s.sys.chip
  rw [exec_input, execInput, serveOp_valid h.next h.turn h.free hop hvalid]
  dsimp only
  rw [hstill, if_neg (by decide), if_neg hbox, bytes_started, hinline, if_pos rfl]
  dsimp only [Sys.onChip]
  rw [placeInput, if_neg (by rw [show (markStart q e s.sys.chip).map.run = true from hrun]; decide),
    if_neg (show ¬16 ≤ (markStart q e s.sys.chip).hif.mailbox.length from hbox)]
  refine ⟨_, rfl, ⟨rfl, rfl⟩, ?_, rfl, rfl, ?_⟩
  · dsimp only
    rw [dropEntry, Chip.onQp_same]
    show ((markStart q e s.sys.chip).qp q).entries.filter _ = _
    rw [hqp]
    exact others_marked ..
  · exact List.map_append

end

/-! LAUNCH and STOP. -/

omit h hvalid in
theorem enterRun_time (l : Dword) (id : PourId) (c : Chip) : (enterRun l id c).time = { c.time with
    lag := 0
    lagSent := 0
    holdSince := none
    launchL := l
    launch := some id } := by
  have hstep := hifStep_hifRefuseSearches { c with srch := { c.srch with
    refused := satAdd c.srch.refused (hostSearches c) } }
  have htime : (hifRefuseSearches { c with srch := { c.srch with
    refused := satAdd c.srch.refused (hostSearches c) } }).time = c.time := hstep.time
  unfold enterRun
  dsimp only [clearLags]
  rw [htime]

omit h hvalid in
theorem acceptLaunch_fields (q : QpId) (e : QEntry) (c : Chip) :
    let d := acceptLaunch q e c
    d.map.run = true ∧ d.time.launchSeq = c.time.launchSeq + 1 ∧
    d.time.launchL = BitVec.ofNat 64 (descHaddr e.bytes) ∧
    d.time.launch = some ⟨BitVec.ofNat 13 c.self, c.time.launchSeq + 1⟩ := by
  unfold acceptLaunch
  dsimp only
  generalize hl : BitVec.ofNat 64 (descHaddr e.bytes) = l
  generalize hseq : c.time.launchSeq + 1 = seq
  generalize hid : (⟨BitVec.ofNat 13 c.self, seq⟩ : PourId) = id
  generalize hseen : { c with time := { c.time with
    launchSeq := seq
    seenLaunch := c.time.seenLaunch ++ [id] } } = c1
  have htime1 : c1.time.launchSeq = seq := by rw [← hseen]
  have hrun := (enterRun_fields l id c1).1
  have htime := enterRun_time l id c1
  generalize enterRun l id c1 = c2 at hrun htime ⊢
  have hall : ∀ d : Chip, d.map = c2.map → d.time = c2.time → d.map.run = true ∧ d.time.launchSeq = seq ∧
      d.time.launchL = l ∧ d.time.launch = some id := by
    intro d hmapd htimed
    rw [hmapd, htimed, htime]
    exact ⟨hrun, htime1, rfl, rfl⟩
  split
  · refine hall _ ((hifStep_postCompletion ..).map.trans ?_) ((hifStep_postCompletion ..).time.trans ?_)
    · rw [pourOn_eq]; rfl
    · rw [pourOn_eq]; rfl
  · refine hall _ ?_ ?_
    · rw [pourOn_eq]; rfl
    · rw [pourOn_eq]; rfl

theorem launch_refused (hop : descOp e.bytes = 4) (hrefused : launchRefusal s.sys.chip (descHaddr e.bytes) ≠ 0) :
    Gives (exec (.launch q) s) (descCompletes q e (launchRefusal s.sys.chip (descHaddr e.bytes)) 0 0 0 s) := by
  have hmark : launchRefusal (markStart q e s.sys.chip) (descHaddr e.bytes) = launchRefusal s.sys.chip (descHaddr e.bytes) :=
    launchRefusal_mark _
  generalize launchRefusal s.sys.chip (descHaddr e.bytes) = n at hrefused hmark ⊢
  refine serveOp_status h hvalid hop ?_
  dsimp only [Sys.onChip]
  rw [bytes_started, hmark]
  cases n with
  | zero => exact absurd rfl hrefused
  | succ n => rfl

theorem launch_accepted (hop : descOp e.bytes = 4) (haccepted : launchRefusal s.sys.chip (descHaddr e.bytes) = 0) :
    Gives (exec (.launch q) s) fun t => keepsMemory s t ∧
      t.sys.chip.map.run = true ∧ t.sys.chip.time.launchSeq = s.sys.chip.time.launchSeq + 1 ∧
      t.sys.chip.time.launchL = BitVec.ofNat 64 (descHaddr e.bytes) ∧
      t.sys.chip.time.launch = some ⟨BitVec.ofNat 13 s.sys.chip.self, s.sys.chip.time.launchSeq + 1⟩ := by
  have hmark : launchRefusal (markStart q e s.sys.chip) (descHaddr e.bytes) = 0 := (launchRefusal_mark _).trans haccepted
  have hfields := acceptLaunch_fields q { e with started := true } (markStart q e s.sys.chip)
  rw [exec_launch, execLaunch, serveOp_valid h.next h.turn h.free hop hvalid]
  dsimp only [Sys.onChip]
  rw [bytes_started, hmark]
  exact ⟨_, rfl, ⟨rfl, rfl⟩, hfields⟩

theorem stop_stopped (hop : descOp e.bytes = 5) (hrun : s.sys.chip.map.run = false) :
    Gives (exec (.stop q) s) (descCompletes q e 6 0 0 0 s) := by
  have hstill : (markStart q e s.sys.chip).map.run = false := hrun
  refine serveOp_status h hvalid hop ?_
  dsimp only [Sys.onChip]
  rw [hstill]
  rfl

theorem stop_aborts (hop : descOp e.bytes = 5) (hrun : s.sys.chip.map.run = true) :
    Gives (exec (.stop q) s) fun t => keepsMemory s t ∧ t.sys.chip.map.run = false ∧
      t.sys.chip.time.abortCause = 1 ∧ t.sys.chip.time.abortValid = true := by
  have hstill : (markStart q e s.sys.chip).map.run = true := hrun
  obtain ⟨hstop, hcause, hvalidAbort, -⟩ := startAbort_left (c := markStart q e s.sys.chip) 1 hstill
  rw [exec_stop, execStop, serveOp_valid h.next h.turn h.free hop hvalid]
  dsimp only [Sys.onChip]
  rw [hstill, if_pos rfl]
  have hstep := hifStep_endEntry q (startAbort 1 (markStart q e s.sys.chip)) { e with started := true } 0 0 0 0
  refine ⟨_, rfl, ⟨rfl, rfl⟩, ?_⟩
  dsimp only
  rw [hstep.map, hstep.time]
  exact ⟨hstop, hcause, hvalidAbort⟩

/-! GLOBAL_WRITE and GLOBAL_READ. -/

theorem globalWrite_settled (hop : descOp e.bytes = 6) :
    let refusal := globalRefusal s.sys.chip e.bytes
    (refusal ≠ 0 → Gives (exec (.globalWrite q) s) (descCompletes q e refusal 0 0 0 s)) ∧
    (refusal = 0 → Gives (exec (.globalWrite q) s) (descReads q e (descHaddr e.bytes) (descLen e.bytes) s)) := by
  intro refusal
  have hmark : globalRefusal (s.sys.onChip (markStart q e)).chip e.bytes = refusal := globalRefusal_mark _
  clear_value refusal
  refine ⟨fun hbad => serveOp_status h hvalid hop ?_, fun hgood => serveOp_fetches h hvalid hop ?_⟩
  · dsimp only
    rw [bytes_started, hmark, if_pos (bne_iff_ne.mpr hbad)]
    rfl
  · dsimp only
    rw [bytes_started, hmark, hgood]
    rfl

theorem globalRead_refused (hop : descOp e.bytes = 7) (hbad : globalRefusal s.sys.chip e.bytes ≠ 0) :
    Gives (exec (.globalRead q) s) (descCompletes q e (globalRefusal s.sys.chip e.bytes) 0 0 0 s) := by
  have hmark : globalRefusal (markStart q e s.sys.chip) e.bytes = globalRefusal s.sys.chip e.bytes := globalRefusal_mark _
  refine serveOp_status h hvalid hop ?_
  dsimp only [Sys.onChip]
  rw [bytes_started, hmark, if_pos (bne_iff_ne.mpr hbad)]
  rfl

theorem globalRead_queued (hop : descOp e.bytes = 7) (hgood : globalRefusal s.sys.chip e.bytes = 0) :
    Gives (exec (.globalRead q) s) fun t => keepsMemory s t ∧ t.sys.out = s.sys.out ∧
      t.sys.chip.fab.waiting = s.sys.chip.fab.waiting ++ segmentsOf q { e with started := true } false := by
  have hmark : globalRefusal (markStart q e s.sys.chip) e.bytes = 0 := (globalRefusal_mark _).trans hgood
  rw [exec_globalRead, execGlobalRead, serveOp_valid h.next h.turn h.free hop hvalid]
  dsimp only [Sys.onChip]
  rw [bytes_started, hmark]
  exact ⟨_, rfl, ⟨rfl, rfl⟩, rfl, rfl⟩

/-! SEARCH, FENCE and TIME_QUERY. -/

omit hvalid in
/-- An entry ends on a chip that differs from the one it has started on in its search unit only. -/
theorem gives_endedOn {d : Chip} {status : Nat} (hhif : d.hif = (markStart q e s.sys.chip).hif)
    (hcmp : d.cmp = s.sys.chip.cmp) (htime : d.time = s.sys.chip.time) :
    Gives (.next (s.withChip fun _ => endEntry q { e with started := true } status 0 0 0 d))
      (descCompletes q e status 0 0 0 s) := by
  have hmarked := canPost_markStart (e := e) h.post
  have hpost : CanPost q d := by
    refine ⟨?_, by rw [hhif]; exact hmarked.link, by rw [hhif]; exact hmarked.room⟩
    rw [Chip.qp, hhif]
    exact hmarked.state
  have hstep := hifStep_endEntry q d { e with started := true } status 0 0 0
  obtain ⟨hentries, hcbuf⟩ := endEntry_ended hpost { e with started := true } status 0 0 0
  refine ⟨_, rfl, ⟨rfl, rfl⟩, rfl, rfl, hstep.cmp.trans hcmp, hstep.time.trans htime, hentries.trans ?_, hcbuf.trans ?_⟩
  · have hqp : d.qp q = (markStart q e s.sys.chip).qp q := by rw [Chip.qp, hhif]; rfl
    rw [hqp, markStart_qp]
    exact others_marked ..
  · rw [hhif]
    rfl

theorem search_run (hop : descOp e.bytes = 10) (hrun : s.sys.chip.map.run = true) :
    Gives (exec (.search q) s) (descCompletes q e 7 0 0 0 s) := by
  have hstill : (s.sys.onChip (markStart q e)).chip.map.run = true := hrun
  refine serveOp_status h hvalid hop ?_
  dsimp only
  rw [hstill]
  rfl

theorem search_off (hop : descOp e.bytes = 10) (hrun : s.sys.chip.map.run = false)
    (hoff : s.sys.chip.domOn bitSrch = false) :
    Gives (exec (.search q) s) (descCompletes q e 15 0 0 0 s) := by
  have hstill : (s.sys.onChip (markStart q e)).chip.map.run = false := hrun
  have hdark : (s.sys.onChip (markStart q e)).chip.domOn bitSrch = false := hoff
  rw [exec_search, execSearch, serveOp_valid h.next h.turn h.free hop hvalid]
  dsimp only
  rw [hstill, if_neg (by decide), hdark, if_pos (by decide)]
  exact gives_endedOn (d := { markStart q e s.sys.chip with srch := { s.sys.chip.srch with
    refused := satInc s.sys.chip.srch.refused } }) h rfl rfl rfl

theorem search_fetched (hop : descOp e.bytes = 10) (hrun : s.sys.chip.map.run = false)
    (hon : s.sys.chip.domOn bitSrch = true) :
    Gives (exec (.search q) s) (descReads q e (descHaddr e.bytes) 256 s) := by
  have hstill : (s.sys.onChip (markStart q e)).chip.map.run = false := hrun
  have hlit : (s.sys.onChip (markStart q e)).chip.domOn bitSrch = true := hon
  refine serveOp_fetches h hvalid hop ?_
  dsimp only
  rw [hstill, if_neg (by decide), hlit, if_neg (by decide)]
  rfl

omit h hvalid in
theorem mayStart_fence {x : QEntry} (hnext : nextEntry (c.qp q) = some e) (hop : descOp e.bytes = 9)
    (hvalid : descValid c.map.vc e.bytes = true) (hmay : mayStart c q = true) (hx : x ∈ (c.qp q).entries) :
    notDone e.index x = false := by
  unfold mayStart at hmay
  rw [hnext] at hmay
  dsimp only at hmay
  rw [hop, hvalid] at hmay
  have hall : ((c.qp q).entries.all fun x => !notDone e.index x) = true := by simpa using hmay
  simpa using List.all_eq_true.mp hall x hx

omit h hvalid in
theorem mayStart_of_turn (hturn : turnOf c = some q) : mayStart c q = true := List.find?_some hturn

theorem fence_ends (hop : descOp e.bytes = 9) :
    (∀ x ∈ (s.sys.chip.qp q).entries, notDone e.index x = false) ∧
    Gives (exec (.fence q) s) (descCompletes q e 0 0 0 0 s) :=
  ⟨fun _ hx => mayStart_fence h.next hop hvalid (mayStart_of_turn h.turn) hx, serveOp_status h hvalid hop rfl⟩

theorem timeQuery_ends (hop : descOp e.bytes = 11) :
    Gives (exec (.timeQuery q) s) (descCompletes q e 0 s.sys.chip.time.coreView.toNat s.sys.chip.time.lag.toNat
      (timeStatus s.sys.chip).toNat s) :=
  serveOp_ends h.next h.turn h.free hop h.post hvalid rfl

end

end

end

/-! CANCEL. -/

section
variable {s : State} {q tq : QpId} {e t : QEntry} {c d : Chip}

/-- The queue pair that a CANCEL names. -/
theorem cancelQp {d : List Byte} (h : tq.val = descByte d 26) : (finOf 32 (descByte d 26)).getD 0 = tq := by
  rw [← h, finOf, dif_pos tq.isLt]
  rfl

/-- An entry of the chip on which the CANCEL has started. -/
theorem entry_marked {y : QEntry} (hy : y ∈ ((markStart q e c).qp tq).entries) : ∃ x ∈ (c.qp tq).entries,
    y.bytes = x.bytes ∧ y.cut = x.cut ∧ (y.started = true → x.started = true ∨ x.index = e.index) := by
  by_cases htq : tq = q
  · subst htq
    rw [markStart_qp] at hy
    obtain ⟨x, hx, rfl⟩ := List.mem_map.mp hy
    refine ⟨x, hx, ?_⟩
    split
    · next hi => exact ⟨rfl, rfl, fun _ => .inr (beq_iff_eq.mp hi)⟩
    · exact ⟨rfl, rfl, .inl⟩
  · rw [markStart_other htq] at hy
    exact ⟨y, hy, rfl, rfl, .inl⟩

theorem cancel_misses (h : Starts q e s) (hvalid : descValid s.sys.chip.map.vc e.bytes = true) (hop : descOp e.bytes = 8)
    (hnone : ∀ tq : QpId, tq.val = descByte e.bytes 26 → ∀ x ∈ (s.sys.chip.qp tq).entries,
      ¬((x.started = true ∨ x.index = e.index) ∧ (descOp x.bytes = 6 ∨ descOp x.bytes = 7) ∧
        descCid x.bytes = descNat e.bytes 24 2 ∧ x.cut = none)) :
    Gives (exec (.cancel q) s) (descCompletes q e 21 0 0 0 s) := by
  have hlt : descByte e.bytes 26 < 32 := by
    unfold descValid at hvalid
    rw [hop] at hvalid
    simp only [Bool.and_eq_true, decide_eq_true_eq] at hvalid
    exact hvalid.1.2
  have hqp := cancelQp (tq := ⟨descByte e.bytes 26, hlt⟩) (d := e.bytes) rfl
  have htarget : cancelTarget ((markStart q e s.sys.chip).qp ⟨descByte e.bytes 26, hlt⟩) (descNat e.bytes 24 2) = none := by
    refine List.find?_eq_none.mpr fun y hy hcond => ?_
    obtain ⟨x, hx, hbytes, hcut, hstarted⟩ := entry_marked hy
    simp only [Bool.and_eq_true, Bool.or_eq_true, beq_iff_eq, Option.isNone_iff_eq_none] at hcond
    obtain ⟨⟨⟨hon, hops⟩, hcid⟩, hfree⟩ := hcond
    rw [hbytes] at hops hcid
    rw [hcut] at hfree
    exact hnone _ rfl x hx ⟨hstarted hon, hops, hcid, hfree⟩
  refine serveOp_status h hvalid hop ?_
  dsimp only [Sys.onChip]
  rw [bytes_started, hqp, htarget]
  rfl

/-- A search that does not tell the changed elements from what they were. -/
theorem find?_map_eq {α : Type} (P : α → Bool) (g : α → α) (l : List α)
    (h : ∀ x ∈ l, g x = x ∨ (P x = false ∧ P (g x) = false)) : (l.map g).find? P = l.find? P := by
  induction l with
  | nil => rfl
  | cons x l ih =>
    have hrest := ih fun y hy => h y (List.mem_cons_of_mem _ hy)
    rw [List.map_cons]
    rcases h x List.mem_cons_self with hx | ⟨hx, hgx⟩
    · rw [hx, List.find?_cons, List.find?_cons, hrest]
    · rw [List.find?_cons_of_neg (by simp [hgx]), List.find?_cons_of_neg (by simp [hx]), hrest]

theorem cancelTarget_mark {cid : Nat} (hop : descOp e.bytes = 8)
    (huniq : ∀ x ∈ (c.qp q).entries, x.index = e.index → x = e) :
    cancelTarget ((markStart q e c).qp tq) cid = cancelTarget (c.qp tq) cid := by
  by_cases htq : tq = q
  · subst htq
    unfold cancelTarget
    rw [markStart_qp]
    refine find?_map_eq _ _ _ fun x hx => ?_
    by_cases hi : x.index = e.index
    · rw [huniq x hx hi]
      right
      simp [hop, QEntry.bytes] at *
    · left
      exact if_neg (by simpa using hi)
  · rw [markStart_other htq]

/-- What a CANCEL does that finds its transfer. -/
def cancelStep (q tq : QpId) (e t : QEntry) (c : Chip) : Chip :=
  let reading := c.hif.reads.any fun r => r.qp == tq && r.index == t.index
  let r := cancelTransfer tq t.index c
  let gone := if reading then segmentCount t else r.2.1
  let bytes := descLen t.bytes - (if reading then descLen t.bytes else r.2.2)
  if gone == 0 then endEntry q e 3 0 0 0 c
  else
    let t := { t with cut := some bytes, left := t.left - r.2.1 }
    let c := r.1.onEntry tq t.index fun _ => t
    let c := if reading || t.left == 0 then endGlobal tq t c else c
    endEntry q e 0 (segmentCount t - gone) bytes 0 c

/-- The waiting segments of a transfer that is cancelled are gone. -/
theorem cancelStep_waiting (hreads : ∀ r ∈ c.hif.reads, r.qp ≠ tq ∨ r.index ≠ t.index) :
    (cancelStep q tq e t c).fab.waiting = c.fab.waiting.filter fun g => !ofTransfer tq t.index g := by
  have hreading : (c.hif.reads.any fun r => r.qp == tq && r.index == t.index) = false := by
    rw [List.any_eq_false]
    intro r hr
    rcases hreads r hr with h | h <;> simp [h]
  unfold cancelStep
  rw [hreading]
  dsimp only
  rw [if_neg (by decide : ¬false = true)]
  split
  · next hgone =>
    rw [(hifStep_endEntry ..).fab]
    have hnone : c.fab.waiting.filter (ofTransfer tq t.index) = [] := by
      have hlen : (cancelTransfer tq t.index c).2.1 = 0 := beq_iff_eq.mp hgone
      unfold cancelTransfer at hlen
      dsimp only at hlen
      exact (List.append_eq_nil_iff.mp (List.eq_nil_of_length_eq_zero hlen)).2
    refine (List.filter_eq_self.mpr fun g hg => ?_).symm
    have hnot := List.filter_eq_nil_iff.mp hnone g hg
    simpa using hnot
  · have hstep : HifStep (cancelTransfer tq t.index c).1 (endEntry q e 0 (segmentCount t - (cancelTransfer tq t.index c).2.1)
        (descLen t.bytes - (cancelTransfer tq t.index c).2.2) 0
        (if (false || t.left - (cancelTransfer tq t.index c).2.1 == 0) = true then
          endGlobal tq { t with
            cut := some (descLen t.bytes - (cancelTransfer tq t.index c).2.2)
            left := t.left - (cancelTransfer tq t.index c).2.1 }
            ((cancelTransfer tq t.index c).1.onEntry tq t.index fun _ => { t with
              cut := some (descLen t.bytes - (cancelTransfer tq t.index c).2.2)
              left := t.left - (cancelTransfer tq t.index c).2.1 })
        else (cancelTransfer tq t.index c).1.onEntry tq t.index fun _ => { t with
            cut := some (descLen t.bytes - (cancelTransfer tq t.index c).2.2)
            left := t.left - (cancelTransfer tq t.index c).2.1 })) :=
      .trans (.ite ((hifStep_onQp ..).trans (hifStep_endGlobal ..)) (hifStep_onQp ..)) (hifStep_endEntry ..)
    exact congrArg Fabric.waiting hstep.fab

theorem cancel_takes (hnext : nextEntry (s.sys.chip.qp q) = some e) (hturn : turnOf s.sys.chip = some q)
    (hbusy : startBusy s.sys.chip = false) (hop : descOp e.bytes = 8)
    (hvalid : descValid s.sys.chip.map.vc e.bytes = true) (htq : tq.val = descByte e.bytes 26)
    (huniq : ∀ x ∈ (s.sys.chip.qp q).entries, x.index = e.index → x = e)
    (htarget : cancelTarget (s.sys.chip.qp tq) (descNat e.bytes 24 2) = some t)
    (hreads : ∀ r ∈ s.sys.chip.hif.reads, r.qp ≠ tq ∨ r.index ≠ t.index) :
    Gives (exec (.cancel q) s) fun u => keepsMemory s u ∧
      u.sys.chip.fab.waiting = s.sys.chip.fab.waiting.filter fun g => !ofTransfer tq t.index g := by
  have hfound : cancelTarget ((markStart q e s.sys.chip).qp tq) (descNat e.bytes 24 2) = some t :=
    (cancelTarget_mark hop huniq).trans htarget
  rw [exec_cancel, execCancel, serveOp_valid hnext hturn hbusy hop hvalid]
  dsimp only [Sys.onChip]
  rw [bytes_started, cancelQp htq, hfound]
  exact ⟨_, rfl, ⟨rfl, rfl⟩, cancelStep_waiting (c := markStart q e s.sys.chip) hreads⟩

/-! Entries that do not start. -/

theorem waits_same {k : Result} (hk : k ∈ [exec (.nopDescriptor q) s, exec (.write q) s, exec (.read q) s, exec (.input q) s,
      exec (.launch q) s, exec (.stop q) s, exec (.globalWrite q) s, exec (.globalRead q) s, exec (.cancel q) s,
      exec (.fence q) s, exec (.search q) s, exec (.timeQuery q) s])
    (h : turnOf s.sys.chip ≠ some q ∨ (s.sys.chip.map.run = true ∧ startBusy s.sys.chip = true)) : k = .next s := by
  have hserve : ∀ (op : Nat) (f : QEntry → Sys → Sys), serveOp q op f s = .next s := by
    intro op f
    rw [serveOp, onSys_eq, startOp_waits h]
  have hnop : exec (.nopDescriptor q) s = .next s := by
    rw [exec_nopDescriptor, execNopDescriptor, onSys_eq, startOp_waits h]
  have hread : exec (.read q) s = .next s := by
    rw [exec_read, execRead, onSysMem, startOp_waits h]
  simp only [List.mem_cons, List.not_mem_nil, or_false] at hk
  rcases hk with rfl | rfl | rfl | rfl | rfl | rfl | rfl | rfl | rfl | rfl | rfl | rfl
  · exact hnop
  · exact hserve ..
  · exact hread
  all_goals exact hserve ..

theorem fence_waits {x : QEntry} (hnext : nextEntry (s.sys.chip.qp q) = some e) (hop : descOp e.bytes = 9)
    (hvalid : descValid s.sys.chip.map.vc e.bytes = true) (hx : x ∈ (s.sys.chip.qp q).entries)
    (hnot : notDone e.index x = true) : exec (.fence q) s = .next s := by
  refine waits_same (q := q) (k := exec (.fence q) s) (by simp) (.inl fun hturn => ?_)
  have hdone := mayStart_fence hnext hop hvalid (mayStart_of_turn hturn) hx
  rw [hnot] at hdone
  cases hdone

end

/-- Settles O39. -/
theorem descriptorsAndCancelsTakeEffect : Obligations.DescriptorsAndCancelsTakeEffect := by
  unfold Obligations.DescriptorsAndCancelsTakeEffect
  refine ⟨fun s q e => ?_, fun s q k => waits_same, fun s q e x => fence_waits, fun s q tq e t => cancel_takes⟩
  intro c d op others started ended completes reads hnext hturn hbusy hlink hroom
  have h : Starts q e s := ⟨hnext, hturn, hbusy, nextEntry_state hnext, hlink, hroom⟩
  refine ⟨invalid_ends h, fun hvalid => ?_⟩
  intro status refusal
  refine ⟨fun hop => ?_, fun hop => (write_settled h hvalid hop).1, fun hop => (write_settled h hvalid hop).2,
    fun hop => read_refused h hvalid hop, fun o hop => read_search h hvalid hop, fun hop => input_stopped h hvalid hop,
    fun hop hrun => input_full h hvalid hrun hop, fun hop hrun => input_fetched h hvalid hrun hop,
    fun hop hrun => input_placed h hvalid hrun hop, fun hop => launch_refused h hvalid hop,
    fun hop => launch_accepted h hvalid hop, fun hop => stop_stopped h hvalid hop, fun hop => stop_aborts h hvalid hop,
    fun hop => (globalWrite_settled h hvalid hop).1, fun hop => (globalWrite_settled h hvalid hop).2,
    fun hop => globalRead_refused h hvalid hop, fun hop => globalRead_queued h hvalid hop,
    fun hop => cancel_misses h hvalid hop, fun hop => search_run h hvalid hop, fun hop => search_off h hvalid hop,
    fun hop => search_fetched h hvalid hop, fun hop => fence_ends h hvalid hop, fun hop => timeQuery_ends h hvalid hop⟩
  have hends := nopDescriptor_ends h (.inl hop)
  rw [hvalid] at hends
  exact hends

end Sys2Proof.Machine
end

section
/-! PROOFS. O40, first part: the data and the failures of DMA reads (13 R351, R368). -/

namespace Sys2Proof.Machine

/-! A range of search memory written. -/

section
variable {off o n : Nat} {m : List Host.Cell} {y : Sys} {bs : List Byte}

theorem get_write (h : Memory.wf m = true) (a i : Nat) (bs : List Byte) : Memory.get (Memory.write m a bs) i =
    if a ≤ i ∧ i < a + bs.length then bs.getD (i - a) 0 else Memory.get m i := memoryReadsAsWritten m a bs h i

theorem writePiece_search (hr : regionOf y.chip.map.vc off = .search o) (haddr : searchBase + o = off)
    (hon : y.chip.domOn bitSrch = true) (bs : List Byte) (m : List Host.Cell) : ∃ ecc,
    writePiece off bs m y = (0, Memory.write m off bs, { y with ecc := ecc }) :=
  ⟨_, storesAt_writePiece bs hr haddr hon⟩

/-- A range of search memory reads as written, and nothing but the marks of memory changes beside it. -/
theorem writeRange_search (h : regionOf y.chip.map.vc off = .search o) (hhi : off + bs.length - 1 < 0x70800000)
    (hon : y.chip.domOn bitSrch = true) (hwf : Memory.wf m = true) (hpos : 0 < bs.length) :
    ∃ m' ecc, writeRange off bs m y = (m', { y with ecc := ecc }) ∧
      ∀ a, Memory.get m' a = if off ≤ a ∧ a < off + bs.length then bs.getD (a - off) 0 else Memory.get m a := by
  have hprefix : ∀ k, k ≤ (off + bs.length - 1) / 256 - off / 256 + 1 → ∃ m' ecc,
      ((List.range k).map (linePiece off bs.length)).foldl (fun acc p =>
        let r := writePiece p.1 ((bs.drop (p.1 - off)).take p.2) acc.1 acc.2
        (r.2.1, r.2.2)) (m, y) = (m', { y with ecc := ecc }) ∧ Memory.wf m' = true ∧
      ∀ a, Memory.get m' a = if off ≤ a ∧ a < off + covered off bs.length k then bs.getD (a - off) 0 else Memory.get m a := by
    intro k
    induction k with
    | zero =>
      intro _
      refine ⟨m, y.ecc, rfl, hwf, fun a => ?_⟩
      rw [covered_zero, if_neg (by omega)]
    | succ k ih =>
      intro hk
      obtain ⟨m', ecc, hfold, hwf', hget⟩ := ih (by omega)
      obtain ⟨hpiece, hle, hstart, hend⟩ := linePiece_eq (off := off) (n := bs.length) (k := k) (by omega) hpos
      obtain ⟨o', hr, haddr⟩ := search_above (x := off + covered off bs.length k) h (by omega) (by omega)
      generalize hlo : covered off bs.length k = lo at *
      generalize hup : covered off bs.length (k + 1) = up at *
      have hlen : ((bs.drop lo).take (up - lo)).length = up - lo := by
        rw [List.length_take, List.length_drop]
        omega
      obtain ⟨ecc', hwrite⟩ := writePiece_search (y := { y with ecc := ecc }) hr haddr hon ((bs.drop lo).take (up - lo)) m'
      refine ⟨_, ecc', ?_, Memory.write_wf m' (off + lo) ((bs.drop lo).take (up - lo)) hwf', fun a => ?_⟩
      · rw [List.range_succ, List.map_append, List.foldl_append, hfold]
        simp only [List.map_cons, List.map_nil, List.foldl_cons, List.foldl_nil, hpiece, Nat.add_sub_cancel_left]
        rw [hwrite]
      · rw [get_write hwf', hlen, hget]
        by_cases hin : off + lo ≤ a ∧ a < off + lo + (up - lo)
        · rw [if_pos hin, if_pos (by omega), List.getD_eq_getElem?_getD, List.getD_eq_getElem?_getD,
            List.getElem?_take_of_lt (by omega), List.getElem?_drop, show lo + (a - (off + lo)) = a - off by omega]
        · rw [if_neg hin]
          by_cases hbefore : off ≤ a ∧ a < off + lo
          · rw [if_pos hbefore, if_pos (by omega)]
          · rw [if_neg hbefore, if_neg (by omega)]
  obtain ⟨m', ecc, hfold, -, hget⟩ := hprefix _ le_rfl
  rw [covered_last hpos] at hget
  refine ⟨m', ecc, ?_, hget⟩
  unfold writeRange linePieces
  rw [if_neg (by simpa using Nat.ne_of_gt hpos)]
  exact hfold

end

section
variable {s : State} {q : QpId} {r : DmaRead} {bytes : List Byte} {c : Chip} {y : Sys} {e : QEntry}

/-! Bytes that arrive. -/

/-- What arrived bytes make of the entry they are for. -/
def takesBytes (r : DmaRead) (bs : List Byte) (done : Bool) (now : Nat) (e : QEntry) : QEntry :=
  let e := { e with data := e.data ++ bs }
  if !done then e
  else if r.fetch then { e with desc := some e.data, data := [], at_ := now }
  else { e with at_ := now }

/-- The chip when bytes have arrived for a read, before the entry's effect. -/
def bytesTaken (q : QpId) (r : DmaRead) (bs : List Byte) (c : Chip) : Chip :=
  let rest : DmaRead := { r with addr := r.addr + bs.length, len := r.len - bs.length }
  let done := rest.len == 0
  let c := { c with hif := { c.hif with reads := c.hif.reads.eraseP fun r => r.qp == q } }
  let c := if done then c else { c with hif := { c.hif with reads := rest :: c.hif.reads } }
  let c := c.onEntry q r.index fun e => takesBytes r bs done c.cmp.cycles e
  c.onQp q updateHead

theorem takeRead_some (h : c.hif.reads.find? (fun r => r.qp == q) = some r) : takeRead q c =
    some (r, { c with hif := { c.hif with reads := c.hif.reads.eraseP fun r => r.qp == q } }) := by
  unfold takeRead
  rw [h]

/-- What reads are left when bytes have arrived. -/
def readsLeft (q : QpId) (r : DmaRead) (bs : List Byte) (c : Chip) : List DmaRead :=
  let left := c.hif.reads.eraseP fun r => r.qp == q
  if r.len - bs.length == 0 then left else { r with addr := r.addr + bs.length, len := r.len - bs.length } :: left

/-- Only the host interface: the queue pair's entry, and the reads. -/
theorem bytesTaken_eq (q : QpId) (r : DmaRead) (bs : List Byte) (c : Chip) : bytesTaken q r bs c =
    { c with hif := { c.hif with
      qps := (bytesTaken q r bs c).hif.qps
      reads := readsLeft q r bs c } } := by
  unfold bytesTaken readsLeft
  dsimp only
  split <;> rfl

theorem bytesTaken_qp (q : QpId) (r : DmaRead) (bs : List Byte) (c : Chip) : (bytesTaken q r bs c).qp q =
    updateHead { c.qp q with entries := (c.qp q).entries.map fun e =>
      if e.index == r.index then takesBytes r bs (r.len - bs.length == 0) c.cmp.cycles e else e } := by
  unfold bytesTaken
  dsimp only
  rw [Chip.onQp_same, Chip.onEntry, Chip.onQp_same]
  split <;> rfl

section
variable (h : y.chip.hif.reads.find? (fun r => r.qp == q) = some r)
include h

/-- Bytes that complete no data of an entry. -/
theorem readArrived_taken (m : List Host.Cell)
    (hdone : ((r.len - (bytes.take r.len).length == 0) && !r.fetch) = false) :
    readArrived q bytes m y = (m, { y with chip := bytesTaken q r (bytes.take r.len) y.chip }) := by
  simp only [readArrived, takeRead_some h]
  rw [hdone]
  rfl

/-- The last bytes of an entry's data. -/
theorem readArrived_data (m : List Host.Cell) (hdone : ((r.len - (bytes.take r.len).length == 0) && !r.fetch) = true)
    (he : findEntry ((bytesTaken q r (bytes.take r.len) y.chip).qp q) r.index = some e) :
    readArrived q bytes m y = dataArrived q e m { y with chip := bytesTaken q r (bytes.take r.len) y.chip } := by
  simp only [readArrived, takeRead_some h]
  rw [hdone]
  show (match true, findEntry ((bytesTaken q r (bytes.take r.len) y.chip).qp q) r.index with
    | true, some e => dataArrived q e m { y with chip := bytesTaken q r (bytes.take r.len) y.chip }
    | _, _ => (m, { y with chip := bytesTaken q r (bytes.take r.len) y.chip })) = _
  rw [he]

end

/-! The commands. -/

theorem hostReadCompletion_data : exec (.hostReadCompletion q (.data bytes)) s = .next { s with
    mem := (readArrived q bytes s.mem s.sys).1
    sys := (readArrived q bytes s.mem s.sys).2 } := rfl

section
variable (h : s.sys.chip.hif.reads.find? (fun r => r.qp == q) = some r)
include h

theorem fetch_arrives (hfetch : r.fetch = true) (hlen : bytes.length = r.len) :
    Gives (exec (.hostReadCompletion q (.data bytes)) s) fun t => keepsMemory s t ∧
      t.sys.chip.hif.reads = s.sys.chip.hif.reads.eraseP (fun r => r.qp == q) ∧
      (t.sys.chip.qp q).entries = (s.sys.chip.qp q).entries.map fun e =>
        if e.index == r.index then { e with
          desc := some (e.data ++ bytes)
          data := []
          at_ := s.sys.chip.cmp.cycles } else e := by
  have hall : bytes.take r.len = bytes := List.take_of_length_le (by omega)
  have hdone : (r.len - bytes.length == 0) = true := by simp [hlen]
  have htaken := readArrived_taken (bytes := bytes) h s.mem (by rw [hfetch]; simp)
  rw [hall] at htaken
  rw [hostReadCompletion_data, htaken]
  refine ⟨_, rfl, ⟨rfl, rfl⟩, ?_, ?_⟩
  · rw [bytesTaken_eq, readsLeft, hdone]
    rfl
  · have hqp := bytesTaken_qp q r bytes s.sys.chip
    dsimp only
    rw [hqp, updateHead, hdone]
    simp only [takesBytes, hfetch, Bool.not_true, Bool.false_eq_true, if_false, if_true]

theorem part_arrives (hlen : bytes.length < r.len) :
    Gives (exec (.hostReadCompletion q (.data bytes)) s) fun t => keepsMemory s t ∧
      t.sys.chip.hif.reads = { r with
        addr := r.addr + bytes.length
        len := r.len - bytes.length } :: s.sys.chip.hif.reads.eraseP (fun r => r.qp == q) ∧
      (t.sys.chip.qp q).entries = (s.sys.chip.qp q).entries.map fun e =>
        if e.index == r.index then { e with data := e.data ++ bytes } else e := by
  have hall : bytes.take r.len = bytes := List.take_of_length_le (by omega)
  have hdone : (r.len - bytes.length == 0) = false := by
    rw [beq_eq_false_iff_ne]
    omega
  have htaken := readArrived_taken (bytes := bytes) h s.mem (by rw [hall, hdone]; rfl)
  rw [hall] at htaken
  rw [hostReadCompletion_data, htaken]
  refine ⟨_, rfl, ⟨rfl, rfl⟩, ?_, ?_⟩
  · rw [bytesTaken_eq, readsLeft, hdone]
    rfl
  · have hqp := bytesTaken_qp q r bytes s.sys.chip
    dsimp only
    rw [hqp, updateHead, hdone]
    simp only [takesBytes, Bool.not_false, if_true]

end

/-! The data of a WRITE. -/

theorem findEntry_map (x : QueuePair) (f : QEntry → QEntry) (i : Nat) (hf : ∀ e, (f e).index = e.index)
    (he : findEntry x i = some e) :
    findEntry { x with entries := x.entries.map fun e => if e.index == i then f e else e } i = some (f e) := by
  unfold findEntry at *
  dsimp only
  generalize x.entries = l at he ⊢
  induction l with
  | nil => cases he
  | cons z l ih =>
    rw [List.map_cons]
    by_cases hz : z.index = i
    · rw [List.find?_cons_of_pos (by simpa using hz)] at he
      cases he
      rw [List.find?_cons_of_pos (by simp [hz, hf])]
      simp [hz]
    · rw [List.find?_cons_of_neg (by simpa using hz)] at he
      rw [List.find?_cons_of_neg (by simpa [hz] using hz)]
      exact ih he

theorem takesBytes_index (r : DmaRead) (bs : List Byte) (done : Bool) (now : Nat) (e : QEntry) :
    (takesBytes r bs done now e).index = e.index := by
  unfold takesBytes
  dsimp only
  split
  · rfl
  · split <;> rfl

/-- All the data of a WRITE to search memory is there. -/
theorem dataArrived_search {o : Nat} {m : List Host.Cell} (hop : descOp e.bytes = 1)
    (hstatus : rangeStatus y.chip (descTaddr e.bytes) (descLen e.bytes) = 0)
    (hregion : regionOf y.chip.map.vc (descTaddr e.bytes) = .search o) (hpos : 1 ≤ descLen e.bytes)
    (hlen : e.data.length = descLen e.bytes) (hwf : Memory.wf m = true) (hpost : CanPost q y.chip) :
    (∀ a, Memory.get (dataArrived q e m y).1 a = if searchBase + o ≤ a ∧ a < searchBase + o + descLen e.bytes
      then e.data.getD (a - (searchBase + o)) 0 else Memory.get m a) ∧
    (dataArrived q e m y).2.chip.hif.cbuf = y.chip.hif.cbuf ++ [⟨q, descCid e.bytes, 0, descLen e.bytes, 0, 0, 0⟩] := by
  obtain ⟨hhi, hon⟩ := rangeStatus_search hregion hstatus
  obtain ⟨m', ecc, hwrite, hget⟩ := writeRange_search (bs := e.data) hregion (by rw [hlen]; exact hhi) hon hwf (by omega)
  have hboth : dataArrived q e m y = (m', ({ y with ecc := ecc } : Sys).onChip (endEntry q e 0 (descLen e.bytes) 0 0)) := by
    unfold dataArrived
    dsimp only
    rw [hop, hstatus, if_neg (by decide), hwrite]
    rfl
  rw [hboth, (search_bounds hregion).2.2.2, ← hlen]
  exact ⟨hget, (endEntry_ended hpost e 0 e.data.length 0 0).cbuf⟩

theorem write_arrives {o : Nat} (h : s.sys.chip.hif.reads.find? (fun r => r.qp == q) = some r) (hfetch : r.fetch = false)
    (hlen : bytes.length = r.len) (he : findEntry (s.sys.chip.qp q) r.index = some e) (hop : descOp e.bytes = 1)
    (hstatus : rangeStatus s.sys.chip (descTaddr e.bytes) (descLen e.bytes) = 0)
    (hregion : regionOf s.sys.chip.map.vc (descTaddr e.bytes) = .search o) (hpos : 1 ≤ descLen e.bytes)
    (hdata : (e.data ++ bytes).length = descLen e.bytes) (hcanon : s.canonical) (hlink : s.sys.chip.hif.linkUp = true)
    (hst : (s.sys.chip.qp q).state = 1) (hroom : s.sys.chip.hif.cbuf.length < 64) :
    Gives (exec (.hostReadCompletion q (.data bytes)) s) fun t =>
      (∀ a, Memory.get t.mem a = if searchBase + o ≤ a ∧ a < searchBase + o + descLen e.bytes
        then (e.data ++ bytes).getD (a - (searchBase + o)) 0 else Memory.get s.mem a) ∧
      t.sys.chip.hif.cbuf = s.sys.chip.hif.cbuf ++ [⟨q, descCid e.bytes, 0, descLen e.bytes, 0, 0, 0⟩] := by
  have hall : bytes.take r.len = bytes := List.take_of_length_le (by omega)
  have hdone : (r.len - bytes.length == 0) = true := by simp [hlen]
  have heq := bytesTaken_eq q r bytes s.sys.chip
  have hqp := bytesTaken_qp q r bytes s.sys.chip
  have hentry : findEntry ((bytesTaken q r bytes s.sys.chip).qp q) r.index =
      some (takesBytes r bytes true s.sys.chip.cmp.cycles e) := by
    rw [hqp, hdone]
    exact findEntry_map _ _ _ (takesBytes_index r bytes true s.sys.chip.cmp.cycles) he
  have hwhole : takesBytes r bytes true s.sys.chip.cmp.cycles e = { e with
      data := e.data ++ bytes
      at_ := s.sys.chip.cmp.cycles } := by
    simp [takesBytes, hfetch]
  have hdata' := readArrived_data (bytes := bytes) h s.mem (by rw [hall, hdone, hfetch]; rfl) (by rw [hall]; exact hentry)
  rw [hall, hwhole] at hdata'
  have hmap : (bytesTaken q r bytes s.sys.chip).map = s.sys.chip.map := by rw [heq]
  have hpwr : (bytesTaken q r bytes s.sys.chip).pwr = s.sys.chip.pwr := by rw [heq]
  have hpost : CanPost q (bytesTaken q r bytes s.sys.chip) := by
    refine ⟨by rw [hqp]; exact hst, ?_, ?_⟩
    · rw [heq]; exact hlink
    · rw [heq]; exact hroom
  have hcbuf : (bytesTaken q r bytes s.sys.chip).hif.cbuf = s.sys.chip.hif.cbuf := by rw [heq]
  have hgives := dataArrived_search (q := q) (m := s.mem) (e := { e with
      data := e.data ++ bytes
      at_ := s.sys.chip.cmp.cycles }) (y := { s.sys with chip := bytesTaken q r bytes s.sys.chip })
    hop ((rangeStatus_congr hmap hpwr ..).trans hstatus) (by dsimp only; rw [hmap]; exact hregion) hpos hdata hcanon hpost
  dsimp only at hgives
  rw [hcbuf] at hgives
  rw [hostReadCompletion_data, hdata']
  exact ⟨_, rfl, hgives⟩

/-! A read that fails. -/

theorem raise35 (c : Chip) : (c.raise 35 .hif).fc.raised = c.fc.raised ++ [⟨35, .hif⟩] := rfl

theorem hifErr_fields (src cause : Nat) (q : QpId) (c : Chip) : (c.hifErr src cause q).hif.qps = c.hif.qps ∧
    (c.hifErr src cause q).hif.reads = c.hif.reads ∧ (c.hifErr src cause q).hif.cbuf = c.hif.cbuf := by
  unfold Chip.hifErr
  dsimp only [Chip.raise]
  split <;> exact ⟨rfl, rfl, rfl⟩

theorem qpError_state (x : QueuePair) : (qpError x).state = if x.state = 1 then 3 else x.state := by
  unfold qpError
  simp only [beq_iff_eq]
  split <;> rfl

theorem failed_next {k : Result} (hk : k = exec (.hostReadCompletion q .unsupported) s ∨
    k = exec (.hostReadCompletion q .aborted) s ∨ k = exec (.hostReadCompletion q .poisoned) s ∨
    k = exec (.completionTimeout q) s) : k = .next { s with sys := readFailed q s.sys } := by
  rcases hk with rfl | rfl | rfl | rfl <;> rfl

section
variable (h : s.sys.chip.hif.reads.find? (fun r => r.qp == q) = some r)
include h

theorem fetch_fails (hfetch : r.fetch = true) : Gives (.next { s with sys := readFailed q s.sys }) fun t => keepsMemory s t ∧
    t.sys.chip.hif.reads = s.sys.chip.hif.reads.eraseP (fun r => r.qp == q) ∧
    (t.sys.chip.qp q).state = (if (s.sys.chip.qp q).state = 1 then 3 else (s.sys.chip.qp q).state) ∧
    t.sys.chip.fc.raised = s.sys.chip.fc.raised ++ [⟨35, .hif⟩] := by
  have hfailed : readFailed q s.sys = s.sys.onChip fun c => (Chip.onQp q qpError
      { c with hif := { c.hif with reads := c.hif.reads.eraseP fun r => r.qp == q } }).hifErr 35 5 q := by
    simp only [readFailed, takeRead_some h, hfetch, if_true]
    rfl
  have hqp := Chip.onQp_same { s.sys.chip with hif := { s.sys.chip.hif with
    reads := s.sys.chip.hif.reads.eraseP fun r => r.qp == q } } q qpError
  rw [hfailed]
  dsimp only [Sys.onChip]
  generalize hd : Chip.onQp q qpError { s.sys.chip with hif := { s.sys.chip.hif with
    reads := s.sys.chip.hif.reads.eraseP fun r => r.qp == q } } = d at hqp ⊢
  have hreads : d.hif.reads = s.sys.chip.hif.reads.eraseP fun r => r.qp == q := by rw [← hd]; rfl
  have hraised : d.fc.raised = s.sys.chip.fc.raised := by rw [← hd]; rfl
  obtain ⟨hqps, hkept, -⟩ := hifErr_fields 35 5 q d
  refine ⟨_, rfl, ⟨rfl, rfl⟩, hkept.trans hreads, ?_, ?_⟩
  · rw [Chip.qp, hqps]
    show (d.qp q).state = _
    rw [hqp]
    exact qpError_state (s.sys.chip.qp q)
  · rw [Chip.hifErr, raise35]
    exact congrArg (· ++ _) hraised

theorem data_fails (hfetch : r.fetch = false) (he : findEntry (s.sys.chip.qp q) r.index = some e)
    (hpost : CanPost q s.sys.chip) : Gives (.next { s with sys := readFailed q s.sys }) fun t => keepsMemory s t ∧
    t.sys.chip.hif.reads = s.sys.chip.hif.reads.eraseP (fun r => r.qp == q) ∧
    t.sys.chip.hif.cbuf = s.sys.chip.hif.cbuf ++ [⟨q, descCid e.bytes, 19, 0, 0, 0, 0⟩] ∧
    t.sys.chip.fc.raised = s.sys.chip.fc.raised ++ [⟨35, .hif⟩] := by
  have hfailed : readFailed q s.sys = s.sys.onChip fun c => (endEntry q e 19 0 0 0
      { c with hif := { c.hif with reads := c.hif.reads.eraseP fun r => r.qp == q } }).hifErr 35 6 q := by
    simp only [readFailed, takeRead_some h, hfetch]
    rw [if_neg (by decide)]
    dsimp only [Sys.onChip]
    rw [show findEntry (Chip.qp { s.sys.chip with hif := { s.sys.chip.hif with
      reads := s.sys.chip.hif.reads.eraseP fun r => r.qp == q } } q) r.index = some e from he]
  have hpost' : CanPost q { s.sys.chip with hif := { s.sys.chip.hif with
    reads := s.sys.chip.hif.reads.eraseP fun r => r.qp == q } } := ⟨hpost.state, hpost.link, hpost.room⟩
  rw [hfailed]
  dsimp only [Sys.onChip]
  rw [endEntry_eq hpost']
  generalize hd : ({ dropEntry q e.index { s.sys.chip with hif := { s.sys.chip.hif with
    reads := s.sys.chip.hif.reads.eraseP fun r => r.qp == q } } with
      hif := { (dropEntry q e.index { s.sys.chip with hif := { s.sys.chip.hif with
        reads := s.sys.chip.hif.reads.eraseP fun r => r.qp == q } }).hif with
          cbuf := s.sys.chip.hif.cbuf ++ [⟨q, descCid e.bytes, 19, 0, 0, 0, 0⟩] } } : Chip) = d
  have hreads : d.hif.reads = s.sys.chip.hif.reads.eraseP fun r => r.qp == q := by rw [← hd]; rfl
  have hcbuf : d.hif.cbuf = s.sys.chip.hif.cbuf ++ [⟨q, descCid e.bytes, 19, 0, 0, 0, 0⟩] := by rw [← hd]
  have hraised : d.fc.raised = s.sys.chip.fc.raised := by rw [← hd]; rfl
  obtain ⟨-, hkept, hposted⟩ := hifErr_fields 35 6 q d
  refine ⟨_, rfl, ⟨rfl, rfl⟩, hkept.trans hreads, hposted.trans hcbuf, ?_⟩
  rw [Chip.hifErr, raise35]
  exact congrArg (· ++ _) hraised

end

end

end Sys2Proof.Machine
end

section
/-! PROOFS. O40, second part: the host write path, and the completions that are posted (13 R350, R361-R366, R369, R371). -/

namespace Sys2Proof.Machine

section
variable {s : State} {q : QpId} {c d : Chip} {y : Sys} {w : HostWrite} {rest : List HostWrite}

/-! No line is on its way to the path. -/

theorem QuietMesh.refl (h : c.cmp.mesh.lines = []) : QuietMesh c c := ⟨rfl, h⟩

theorem QuietMesh.trans {e : Chip} (h : QuietMesh c d) (k : QuietMesh d e) : QuietMesh c e := ⟨by rw [k.eq, h.eq], k.lines⟩

theorem takeHostLines_quiet (hq : ∀ p, (c.tile p).sendq = []) (hl : c.cmp.mesh.lines = []) :
    QuietMesh c (takeHostLines c) := by
  have hm := meshAdvance_quiet hq hl
  unfold takeHostLines
  extract_lets d due ls e
  have hd : QuietMesh c d := hm
  have hls : ls = [] := by
    unfold ls
    rw [hd.lines]
    rfl
  rw [hls]
  refine hd.trans ⟨rfl, ?_⟩
  show d.cmp.mesh.lines.filter _ = []
  rw [hd.lines]
  rfl

theorem drainHost_quiet (hq : ∀ p, (c.tile p).sendq = []) (hl : c.cmp.mesh.lines = []) : QuietMesh c (drainHost c) := by
  unfold drainHost
  generalize List.range 9 = l
  induction l generalizing c with
  | nil => exact .refl hl
  | cons n l ih =>
    have h := takeHostLines_quiet hq hl
    exact h.trans (ih (fun p => by rw [h.tile]; exact hq p) h.lines)

theorem hostAhead_quiet (hq : ∀ p, (c.tile p).sendq = []) (hl : c.cmp.mesh.lines = []) (w : HostWrite) :
    hostAhead c w = false := by
  unfold hostAhead
  dsimp only
  rw [hl, Bool.or_eq_false_iff]
  refine ⟨rfl, ?_⟩
  rw [List.any_eq_false]
  intro v _
  split
  · next p _ => rw [hq p]; simp
  · simp

/-- What the first write of the path does, once it is due. -/
def sendFirst (w : HostWrite) (rest : List HostWrite) (y : Sys) : Sys :=
  let y := (y.awaitCycle w.due).onChip fun c => { c with hif := { c.hif with writes := rest } }
  if y.chip.hif.linkUp then (y.emit (.hostWrite w.addr w.bytes)).onChip (endWrite w)
  else y.onChip fun c => match w.ends with
    | some _ => endWrite w (dropWrite w.handle c)
    | none => dropWrite w.handle c

/-- What the first write of the path does, if there is one and nothing keeps it. -/
def sendHost (y : Sys) : Sys :=
  match y.chip.hif.writes with
  | [] => y
  | w :: rest =>
    if y.chip.map.run && (y.chip.cmp.cycles < w.due || hostAhead y.chip w) then y else sendFirst w rest y

theorem execHostWriteSend_eq : exec .hostWriteSend s = .next { s with
    sys := sendHost (s.sys.onChip fun c => if c.map.run then takeHostLines c else drainHost c) } := rfl

theorem sendHost_first (hw : y.chip.hif.writes = w :: rest)
    (hready : ¬(y.chip.map.run && (decide (y.chip.cmp.cycles < w.due) || hostAhead y.chip w)) = true) :
    sendHost y = sendFirst w rest y := by
  unfold sendHost
  rw [hw]
  exact if_neg hready

section
variable (hw : s.sys.chip.hif.writes = w :: rest) (hdue : s.sys.chip.map.run = true → w.due ≤ s.sys.chip.cmp.cycles)
  (hq : ∀ p, (s.sys.chip.tile p).sendq = []) (hl : s.sys.chip.cmp.mesh.lines = [])
include hw hdue hq hl

theorem hostWriteSend_next : ∃ d, QuietMesh s.sys.chip d ∧
    exec .hostWriteSend s = .next { s with sys := sendFirst w rest { s.sys with chip := d } } := by
  have hquiet : QuietMesh s.sys.chip (if s.sys.chip.map.run then takeHostLines s.sys.chip else drainHost s.sys.chip) := by
    split
    · exact takeHostLines_quiet hq hl
    · exact drainHost_quiet hq hl
  refine ⟨_, hquiet, ?_⟩
  generalize hd : (if s.sys.chip.map.run then takeHostLines s.sys.chip else drainHost s.sys.chip) = d at hquiet ⊢
  have hwrites : d.hif.writes = w :: rest := by rw [hquiet.eq]; exact hw
  have hready : ¬(d.map.run && (decide (d.cmp.cycles < w.due) || hostAhead d w)) = true := by
    rw [hostAhead_quiet (fun p => by rw [hquiet.tile]; exact hq p) hquiet.lines, Bool.or_false, Bool.and_eq_true]
    rintro ⟨hrun, hlate⟩
    have hcycles : d.cmp.cycles = s.sys.chip.cmp.cycles := by rw [hquiet.eq]
    have hdrun : s.sys.chip.map.run = true := by rw [hquiet.eq] at hrun; exact hrun
    have := hdue hdrun
    rw [decide_eq_true_eq, hcycles] at hlate
    omega
  have hy : s.sys.onChip (fun c => if c.map.run then takeHostLines c else drainHost c) = { s.sys with chip := d } := by
    rw [← hd]; rfl
  rw [execHostWriteSend_eq, hy, sendHost_first hwrites hready]

end

/-! What the interface's events leave of the path's writes. -/

theorem hifErr_writes (src cause : Nat) (q : QpId) (c : Chip) : (c.hifErr src cause q).hif.writes = c.hif.writes := by
  unfold Chip.hifErr
  dsimp only [Chip.raise]
  split <;> rfl

theorem hifErr_drops (src cause : Nat) (q : QpId) (c : Chip) : (c.hifErr src cause q).hif.dropCount = c.hif.dropCount := by
  unfold Chip.hifErr
  dsimp only [Chip.raise]
  split <;> rfl

theorem hifDrop_fields (q : QpId) (c : Chip) :
    (c.hifDrop q).hif.writes = c.hif.writes ∧ (c.hifDrop q).hif.dropCount = satInc c.hif.dropCount := by
  unfold Chip.hifDrop
  dsimp only
  split
  · exact ⟨rfl, rfl⟩
  · exact ⟨hifErr_writes .., hifErr_drops ..⟩

theorem postFrom_writes (due : Nat) (q : QpId) (cid status r0 r1 r2 : Nat) (c : Chip) :
    (postFrom due q cid status r0 r1 r2 c).hif.writes = c.hif.writes := by
  unfold postFrom
  dsimp only
  split
  · rfl
  · split
    · exact (hifDrop_fields q c).1
    · split
      · exact hifErr_writes ..
      · rfl

theorem endEntry_writes (q : QpId) (e : QEntry) (status r0 r1 r2 : Nat) (c : Chip) :
    (endEntry q e status r0 r1 r2 c).hif.writes = c.hif.writes := postFrom_writes ..

theorem handleCompletion_writes (handle : Word) (view : Dword) (c : Chip) :
    (handleCompletion handle view c).hif.writes = c.hif.writes := by
  unfold handleCompletion
  dsimp only
  split
  · exact postFrom_writes ..
  · exact hifErr_writes ..

theorem endWrite_writes (w : HostWrite) (c : Chip) : (endWrite w c).hif.writes = c.hif.writes := by
  unfold endWrite
  extract_lets d
  have hd : d.hif.writes = c.hif.writes := by
    unfold d
    split
    · exact handleCompletion_writes ..
    · rfl
  split
  · split
    · exact (endEntry_writes ..).trans hd
    · exact hd
  · exact hd

/-! A write's completion, by what asks for it. -/

theorem endWrite_plain (hh : w.handle = none) (he : w.ends = none) : endWrite w c = c := by
  unfold endWrite
  rw [hh, he]

theorem endWrite_handle {h : Word} {view : Dword} (hh : w.handle = some (h, view)) (he : w.ends = none)
    (hbit : h.toNat.testBit 31 = true) (hpost : CanPost (handleQp h) c) :
    (endWrite w c).hif.cbuf = c.hif.cbuf ++
      [⟨handleQp h, h.toNat % 65536, 0, view.toNat, c.self, 0, c.cmp.cycles + 4⟩] ∧ (endWrite w c).cmp = c.cmp := by
  have heq : endWrite w c = postFrom (c.cmp.cycles + 4) (handleQp h) (h.toNat % 65536) 0 view.toNat c.self 0 c := by
    unfold endWrite
    rw [hh, he]
    unfold handleCompletion
    exact if_pos (by rw [hbit, hpost.state]; rfl)
  rw [heq, postFrom_eq hpost]
  exact ⟨rfl, rfl⟩

theorem findEntry_index {x : QueuePair} {i : Nat} {e : QEntry} (h : findEntry x i = some e) : e.index = i := by
  unfold findEntry at h
  simpa using List.find?_some h

theorem endWrite_ends {r : QpId} {i r0 r1 : Nat} {e : QEntry} (hh : w.handle = none) (he : w.ends = some (r, i, r0, r1))
    (hfound : findEntry (c.qp r) i = some e) (hpost : CanPost r c) : DescEnded r e 0 r0 r1 0 c (endWrite w c) := by
  have heq : endWrite w c = endEntry r e 0 r0 r1 0 c := by
    unfold endWrite
    rw [hh, he]
    dsimp only
    rw [hfound]
  rw [heq]
  exact endEntry_ended hpost e 0 r0 r1 0

/-! The path's first write goes, or is dropped. -/

section
variable (hw : s.sys.chip.hif.writes = w :: rest) (hdue : s.sys.chip.map.run = true → w.due ≤ s.sys.chip.cmp.cycles)
  (hq : ∀ p, (s.sys.chip.tile p).sendq = []) (hl : s.sys.chip.cmp.mesh.lines = [])
include hw hdue hq hl

/-- The write leaves the path, from a chip whose host interface and number are as before. -/
theorem hostWriteSend_leaves : ∃ y : Sys, y.out = s.sys.out ∧ y.chip.hif = { s.sys.chip.hif with writes := rest } ∧
    y.chip.self = s.sys.chip.self ∧ exec .hostWriteSend s = .next { s with
      sys := if y.chip.hif.linkUp then (y.emit (.hostWrite w.addr w.bytes)).onChip (endWrite w)
        else y.onChip fun c => match w.ends with
          | some _ => endWrite w (dropWrite w.handle c)
          | none => dropWrite w.handle c } := by
  obtain ⟨d, hquiet, hnext⟩ := hostWriteSend_next hw hdue hq hl
  obtain ⟨n, hwait⟩ := awaitCycle_eq { s.sys with chip := d } w.due
  refine ⟨(({ s.sys with chip := d } : Sys).awaitCycle w.due).onChip fun c => { c with hif := { c.hif with writes := rest } },
    ?_, ?_, ?_, hnext⟩
  all_goals rw [hwait]
  · exact await_out ..
  · show { (({ s.sys with chip := d } : Sys).await n).chip.hif with writes := rest } = _
    rw [await_hif]
    dsimp only
    rw [hquiet.eq]
  · show (({ s.sys with chip := d } : Sys).await n).chip.self = _
    rw [Chip.self, await_fab]
    dsimp only
    rw [hquiet.eq]
    rfl

theorem hostWriteSend_goes (hlink : s.sys.chip.hif.linkUp = true) : Gives (exec .hostWriteSend s) fun t => keepsMemory s t ∧
    t.sys.out = s.sys.out ++ [.hostWrite w.addr w.bytes] ∧ t.sys.chip.hif.writes = rest ∧
    (w.handle = none → w.ends = none → t.sys.chip.hif = { s.sys.chip.hif with writes := rest }) ∧
    (∀ h view, w.handle = some (h, view) → w.ends = none → h.toNat.testBit 31 = true → s.sys.chip.hif.cbuf.length < 64 →
      (s.sys.chip.qp (handleQp h)).state = 1 → t.sys.chip.hif.cbuf = s.sys.chip.hif.cbuf ++
        [⟨handleQp h, h.toNat % 65536, 0, view.toNat, s.sys.chip.self, 0, t.sys.chip.cmp.cycles + 4⟩]) ∧
    (∀ r i r0 r1 e, w.handle = none → w.ends = some (r, i, r0, r1) → findEntry (s.sys.chip.qp r) i = some e →
      s.sys.chip.hif.cbuf.length < 64 → (s.sys.chip.qp r).state = 1 →
      t.sys.chip.hif.cbuf = s.sys.chip.hif.cbuf ++ [⟨r, descCid e.bytes, 0, r0, r1, 0, 0⟩] ∧
      (t.sys.chip.qp r).entries = (s.sys.chip.qp r).entries.filter fun e => e.index != i) := by
  obtain ⟨y, hout, hhif, hself, hnext⟩ := hostWriteSend_leaves hw hdue hq hl
  have hup : y.chip.hif.linkUp = true := by rw [hhif]; exact hlink
  have hcbuf : y.chip.hif.cbuf = s.sys.chip.hif.cbuf := by rw [hhif]
  have hqps : ∀ r, y.chip.qp r = s.sys.chip.qp r := by
    intro r
    rw [Chip.qp, hhif]
    rfl
  rw [hnext, hup, if_pos rfl]
  have hpost : ∀ r, s.sys.chip.hif.cbuf.length < 64 → (s.sys.chip.qp r).state = 1 → CanPost r y.chip := fun r hroom hst =>
    ⟨by rw [hqps]; exact hst, hup, by rw [hcbuf]; exact hroom⟩
  have hwrites : (endWrite w y.chip).hif.writes = rest := by rw [endWrite_writes, hhif]
  refine ⟨_, rfl, ⟨rfl, rfl⟩, congrArg (· ++ _) hout, hwrites, fun hh he => ?_, fun h view hh he hbit hroom hst => ?_,
    fun r i r0 r1 e hh he hfound hroom hst => ?_⟩
  · show (endWrite w y.chip).hif = _
    rw [endWrite_plain hh he, hhif]
  · obtain ⟨hposted, hcmp⟩ := endWrite_handle hh he hbit (hpost _ hroom hst)
    show (endWrite w y.chip).hif.cbuf = _ ++ [⟨_, _, _, _, _, _, (endWrite w y.chip).cmp.cycles + 4⟩]
    rw [hposted, hcmp, hcbuf, hself]
  · obtain ⟨hentries, hposted⟩ := endWrite_ends hh he ((hqps r).symm ▸ hfound) (hpost _ hroom hst)
    rw [hcbuf] at hposted
    rw [hqps, findEntry_index hfound] at hentries
    exact ⟨hposted, hentries⟩

theorem hostWriteSend_dropped (hlink : s.sys.chip.hif.linkUp = false) (he : w.ends = none) :
    ∃ d : Chip, d.hif = { s.sys.chip.hif with writes := rest } ∧
      Gives (exec .hostWriteSend s) fun t => keepsMemory s t ∧ t.sys.out = s.sys.out ∧ t.sys.chip = dropWrite w.handle d := by
  obtain ⟨y, hout, hhif, -, hnext⟩ := hostWriteSend_leaves hw hdue hq hl
  have hdown : y.chip.hif.linkUp = false := by rw [hhif]; exact hlink
  refine ⟨y.chip, hhif, ?_⟩
  rw [hnext, hdown, if_neg (by decide)]
  refine ⟨_, rfl, ⟨rfl, rfl⟩, hout, ?_⟩
  dsimp only [Sys.onChip]
  rw [he]

theorem hostWriteSend_lost (hlink : s.sys.chip.hif.linkUp = false) (hh : w.handle = none) (he : w.ends = none) :
    Gives (exec .hostWriteSend s) fun t => keepsMemory s t ∧
      t.sys.out = s.sys.out ∧ t.sys.chip.hif.writes = rest ∧ t.sys.chip.hif.dropCount = satInc s.sys.chip.hif.dropCount := by
  obtain ⟨d, hhif, t, hnext, hmem, hout, hchip⟩ := hostWriteSend_dropped hw hdue hq hl hlink he
  obtain ⟨hwrites, hdrops⟩ := hifDrop_fields 0 d
  refine ⟨t, hnext, hmem, hout, ?_⟩
  rw [hchip, hh]
  exact ⟨hwrites.trans (by rw [hhif]), hdrops.trans (by rw [hhif])⟩

theorem hostWriteSend_lostTwice {h : Word × Dword} (hlink : s.sys.chip.hif.linkUp = false) (hh : w.handle = some h)
    (he : w.ends = none) : Gives (exec .hostWriteSend s) fun t => keepsMemory s t ∧ t.sys.out = s.sys.out ∧
      t.sys.chip.hif.writes = rest ∧ t.sys.chip.hif.dropCount = satInc (satInc s.sys.chip.hif.dropCount) := by
  obtain ⟨d, hhif, t, hnext, hmem, hout, hchip⟩ := hostWriteSend_dropped hw hdue hq hl hlink he
  obtain ⟨hwrites, hdrops⟩ := hifDrop_fields (handleQp h.1) d
  obtain ⟨hwrites', hdrops'⟩ := hifDrop_fields (handleQp h.1) (d.hifDrop (handleQp h.1))
  refine ⟨t, hnext, hmem, hout, ?_⟩
  rw [hchip, hh]
  exact ⟨(hwrites'.trans hwrites).trans (by rw [hhif]), hdrops'.trans (by rw [hdrops, hhif])⟩

end

/-! Messages. -/

theorem vector_eq {v : Fin 33} (h : v.val = q.val) : finOf 33 q.val = some v := by
  rw [← h, finOf, dif_pos v.isLt]

/-- The message of a queue pair whose vector is not masked. -/
theorem fireQp_eq {v : Fin 33} (hv : v.val = q.val) (y : Sys) : fireQp q y =
    sendMsix v (y.onChip (Chip.onQp q fun x => { x with
      irqCount := 0
      irqSince := none })) := by
  unfold fireQp
  rw [vector_eq hv]

theorem sendMsix_open {v : Fin 33} (h : y.chip.hif.msix[v].mask = false) :
    sendMsix v y = y.emit (.msix y.chip.hif.msix[v].addr y.chip.hif.msix[v].data) := by
  unfold sendMsix
  dsimp only
  rw [if_neg (by rw [h]; decide)]

theorem sendMsix_masked {v : Fin 33} (h : y.chip.hif.msix[v].mask = true) : sendMsix v y =
    y.onChip fun c => { c with hif := { c.hif with
      msix := c.hif.msix.set v { y.chip.hif.msix[v] with pending := true } } } := by
  unfold sendMsix
  dsimp only
  rw [if_pos h]

theorem interruptTimer_fires {since : Nat} {v : Fin 33} (limit : QueuePair → Nat)
    (hx : (s.sys.chip.qp q).irqSince = some since) (hen : (s.sys.chip.qp q).irqEn = true)
    (htimer : (s.sys.chip.qp q).irqTimer ≠ 0) (hv : v.val = q.val) :
    Gives (onSys (fun y =>
      let x := y.chip.qp q
      match x.irqSince with
      | some t => if x.irqEn && x.irqTimer != 0 then fireQp q (y.await (t + limit x)) else y
      | none => y) s) fun t => keepsMemory s t ∧ since + limit (s.sys.chip.qp q) ≤ t.sys.now ∧
      (t.sys.chip.qp q) = { s.sys.chip.qp q with
        irqCount := 0
        irqSince := none } ∧
      (s.sys.chip.hif.msix[v].mask = false →
        t.sys.out = s.sys.out ++ [.msix s.sys.chip.hif.msix[v].addr s.sys.chip.hif.msix[v].data]) ∧
      (s.sys.chip.hif.msix[v].mask = true → t.sys.out = s.sys.out ∧ t.sys.chip.hif.msix[v].pending = true) := by
  rw [onSys_eq]
  dsimp only
  rw [hx]
  dsimp only
  rw [if_pos (by rw [hen, bne_iff_ne.mpr htimer]; rfl), fireQp_eq hv]
  have hlate := le_await s.sys (since + limit (s.sys.chip.qp q))
  have hout := await_out s.sys (since + limit (s.sys.chip.qp q))
  have hhif := await_hif s.sys (since + limit (s.sys.chip.qp q))
  generalize s.sys.await (since + limit (s.sys.chip.qp q)) = y at hlate hout hhif ⊢
  have hqp : y.chip.qp q = s.sys.chip.qp q := by rw [Chip.qp, hhif]; rfl
  have hcleared := Chip.onQp_same y.chip q fun x => { x with
    irqCount := 0
    irqSince := none }
  rw [hqp] at hcleared
  generalize hz : y.onChip (Chip.onQp q fun x => { x with
    irqCount := 0
    irqSince := none }) = z
  have hzqp : z.chip.qp q = { s.sys.chip.qp q with
      irqCount := 0
      irqSince := none } := by
    rw [← hz]
    exact hcleared
  have hznow : z.now = y.now := by rw [← hz]; rfl
  have hzout : z.out = s.sys.out := by rw [← hz]; exact hout
  have hmsix : z.chip.hif.msix = s.sys.chip.hif.msix := by rw [← hz, ← hhif]; rfl
  have hentry : z.chip.hif.msix[v] = s.sys.chip.hif.msix[v] := by rw [hmsix]
  cases hmask : s.sys.chip.hif.msix[v].mask with
  | false =>
    rw [sendMsix_open (by rw [hentry]; exact hmask), hentry]
    exact ⟨_, rfl, ⟨rfl, rfl⟩, hlate.trans hznow.ge, hzqp, fun _ => congrArg (· ++ _) hzout, fun h => by cases h⟩
  | true =>
    rw [sendMsix_masked (by rw [hentry]; exact hmask)]
    refine ⟨_, rfl, ⟨rfl, rfl⟩, hlate.trans hznow.ge, hzqp, fun h => (by cases h), fun _ => ⟨hzout, ?_⟩⟩
    simp [Sys.onChip]

/-! A completion that is posted. -/

theorem checkThresh_eq {v : Fin 33} (hv : v.val = q.val) (y : Sys) : checkThresh q y =
    if (y.chip.qp q).irqEn && max 1 (y.chip.qp q).irqThresh.toNat ≤ (y.chip.qp q).irqCount then
      sendMsix v (y.onChip (Chip.onQp q fun x => { x with
        irqCount := 0
        irqSince := none }))
    else y := by
  unfold checkThresh
  rw [fireQp_eq hv]

/-- What a queue pair's oldest completion does, once it is due. -/
def postOldest (q : QpId) (e : Completion) (y : Sys) : Sys :=
  let x := y.chip.qp q
  let z := y.awaitCycle e.due
  let z := z.emit (.hostWrite (BitVec.ofNat 64 (x.cqBase.toNat + 32 * x.cqTail)) (completionBytes x e))
  checkThresh q (z.onChip fun c => Chip.onQp q (advanceCq z.now)
    { c with hif := { c.hif with cbuf := c.hif.cbuf.eraseP fun e => e.qp == q } })

theorem completionPost_next {e : Completion} (he : s.sys.chip.hif.cbuf.find? (fun e => e.qp == q) = some e)
    (hdue : s.sys.chip.map.run = true → e.due ≤ s.sys.chip.cmp.cycles) (hfull : cqFull (s.sys.chip.qp q) = false)
    (hst : (s.sys.chip.qp q).state = 1 ∨ (s.sys.chip.qp q).state = 3) :
    exec (.completionPost q) s = .next { s with sys := postOldest q e s.sys } := by
  have hposts : qpPosts (s.sys.chip.qp q) = true := by simpa [qpPosts] using hst
  have hready : ¬(cqFull (s.sys.chip.qp q) || !qpPosts (s.sys.chip.qp q) ||
      (s.sys.chip.map.run && decide (s.sys.chip.cmp.cycles < e.due))) = true := by
    rw [hfull, hposts, Bool.or_eq_true, Bool.and_eq_true, decide_eq_true_eq]
    rintro (h | ⟨hrun, hlate⟩)
    · cases h
    · exact absurd (hdue hrun) (by omega)
  rw [exec_completionPost, execCompletionPost, onSys_eq]
  dsimp only
  rw [he]
  dsimp only
  rw [if_neg hready]
  rfl

theorem advanceCq_fields (now : Nat) (x : QueuePair) : (advanceCq now x).irqEn = x.irqEn ∧
    (advanceCq now x).irqThresh = x.irqThresh ∧ (advanceCq now x).irqCount = x.irqCount + 1 ∧
    (advanceCq now x).cqTail = (x.cqTail + 1) % cqSize x ∧
    (advanceCq now x).phase = if (x.cqTail + 1) % cqSize x = 0 then !x.phase else x.phase := by
  refine ⟨rfl, rfl, rfl, rfl, ?_⟩
  unfold advanceCq
  simp only [beq_iff_eq]

theorem completionPost_posts {e : Completion} {v : Fin 33}
    (he : s.sys.chip.hif.cbuf.find? (fun e => e.qp == q) = some e)
    (hdue : s.sys.chip.map.run = true → e.due ≤ s.sys.chip.cmp.cycles) (hfull : cqFull (s.sys.chip.qp q) = false)
    (hst : (s.sys.chip.qp q).state = 1 ∨ (s.sys.chip.qp q).state = 3) (hv : v.val = q.val)
    (hmask : s.sys.chip.hif.msix[v].mask = false) : Gives (exec (.completionPost q) s) fun t =>
      let c := s.sys.chip
      let x := c.qp q
      keepsMemory s t ∧
      let fires := x.irqEn && decide (max 1 x.irqThresh.toNat ≤ x.irqCount + 1)
      t.sys.out = s.sys.out ++
        [.hostWrite (BitVec.ofNat 64 (x.cqBase.toNat + 32 * x.cqTail)) (completionBytes x e)] ++
        (if fires then [.msix c.hif.msix[v].addr c.hif.msix[v].data] else []) ∧
      (t.sys.chip.qp q).irqCount = (if fires then 0 else x.irqCount + 1) ∧
      t.sys.chip.hif.cbuf = c.hif.cbuf.eraseP (fun e => e.qp == q) ∧
      let tail := (x.cqTail + 1) % cqSize x
      (t.sys.chip.qp q).cqTail = tail ∧ (t.sys.chip.qp q).phase = (if tail = 0 then !x.phase else x.phase) := by
  obtain ⟨n, hwait⟩ := awaitCycle_eq s.sys e.due
  rw [completionPost_next he hdue hfull hst, postOldest]
  dsimp only
  rw [hwait]
  generalize hx : s.sys.chip.qp q = x
  generalize hz : ((s.sys.await n).emit (.hostWrite (BitVec.ofNat 64 (x.cqBase.toNat + 32 * x.cqTail))
    (completionBytes x e))).onChip (fun c => Chip.onQp q
      (advanceCq ((s.sys.await n).emit (.hostWrite (BitVec.ofNat 64 (x.cqBase.toNat + 32 * x.cqTail)) (completionBytes x e))).now)
      { c with hif := { c.hif with cbuf := c.hif.cbuf.eraseP fun e => e.qp == q } }) = z
  have hout : z.out = s.sys.out ++
      [.hostWrite (BitVec.ofNat 64 (x.cqBase.toNat + 32 * x.cqTail)) (completionBytes x e)] := by
    rw [← hz]
    exact congrArg (· ++ _) (await_out s.sys n)
  have hhif := await_hif s.sys n
  have hcbuf : z.chip.hif.cbuf = s.sys.chip.hif.cbuf.eraseP fun e => e.qp == q := by
    rw [← hz, ← hhif]
    rfl
  have hmsix : z.chip.hif.msix[v] = s.sys.chip.hif.msix[v] := by
    rw [← hz, ← hhif]
    rfl
  have hqp : ∃ now, z.chip.qp q = advanceCq now x := by
    have hsame : (s.sys.await n).chip.qp q = x := by rw [Chip.qp, hhif, ← hx]; rfl
    rw [← hz, ← hsame]
    exact ⟨_, Chip.onQp_same ..⟩
  clear hz
  obtain ⟨now, hqp⟩ := hqp
  obtain ⟨hen, hthresh, hcount, htail, hphase⟩ := advanceCq_fields now x
  rw [← hqp] at hen hthresh hcount htail hphase
  rw [checkThresh_eq hv, hen, hthresh, hcount]
  cases hfires : x.irqEn && decide (max 1 x.irqThresh.toNat ≤ x.irqCount + 1) with
  | false =>
    rw [if_neg (by decide)]
    exact ⟨_, rfl, ⟨rfl, rfl⟩, by simpa using hout, hcount, hcbuf, htail, hphase⟩
  | true =>
    have hopen : (z.onChip (Chip.onQp q fun x => { x with
        irqCount := 0
        irqSince := none })).chip.hif.msix[v] = s.sys.chip.hif.msix[v] := hmsix
    have hcleared := Chip.onQp_same z.chip q fun x => { x with
      irqCount := 0
      irqSince := none }
    rw [if_pos rfl, sendMsix_open (by rw [hopen]; exact hmask), hopen]
    refine ⟨_, rfl, ⟨rfl, rfl⟩, congrArg (· ++ _) hout, ?_, hcbuf, ?_⟩
    · exact congrArg QueuePair.irqCount hcleared
    · exact ⟨(congrArg QueuePair.cqTail hcleared).trans htail, (congrArg QueuePair.phase hcleared).trans hphase⟩

end

/-- Settles O40. -/
theorem hostTransfersComplete : Obligations.HostTransfersComplete := by
  unfold Obligations.HostTransfersComplete
  refine ⟨fun s q r bytes => ?_, fun s q => ?_⟩
  · intro c left arrives h
    refine ⟨fetch_arrives h, part_arrives h, fun e o hfetch hlen he => write_arrives h hfetch hlen he, fun k hk => ?_⟩
    rw [failed_next hk]
    exact ⟨fetch_fails h, fun e hfetch he hlink hst hroom => data_fails h hfetch he ⟨hst, hlink, hroom⟩⟩
  · intro c x
    refine ⟨fun w rest hw hdue hq hl => ⟨hostWriteSend_goes hw hdue hq hl, hostWriteSend_lost hw hdue hq hl,
      fun h => hostWriteSend_lostTwice hw hdue hq hl⟩, fun e v he hdue => completionPost_posts he hdue, fun w v => ?_⟩
    intro hx hen htimer hv
    exact interruptTimer_fires (fun x => Config.us x.irqTimer.toNat) hx hen htimer hv

end Sys2Proof.Machine
end

section
/-! PROOFS. O41: the search window, and resets of the function (13 R345, R346, R371-R373). -/

namespace Sys2Proof.Machine

section
variable {s : State} {m : List Host.Cell} {y : Sys} {off o n : Nat} {bytes : List Byte}

/-! The window. -/

/-- A read or write of n bytes that the window lets through to the chip. -/
def passesWindow (off len : Nat) (y : Sys) : Bool :=
  !(!y.chip.hif.bar4On || !reachable y.chip || !windowOk (regionOf y.chip.map.vc off) off len)

/-- A read of the window. -/
def windowRead (off n : Nat) (m : List Host.Cell) (y : Sys) : List Host.Cell × Sys :=
  if removed y then (m, deadRead n y)
  else if !passesWindow off n y then (m, y.emit .unsupported)
  else
    let x := readPiece m off n y
    if x.1 == 2 then (m, x.2.2.emit .unsupported)
    else if x.1 == 1 then (m, (reservedAccess x.2.2).emit (.readData x.2.1))
    else (m, x.2.2.emit (.readData x.2.1))

/-- A write of the window. -/
def windowWrite (off : Nat) (bs : List Byte) (m : List Host.Cell) (y : Sys) : List Host.Cell × Sys :=
  if !passesWindow off bs.length y then (m, y.emit .unsupported)
  else
    let x := writePiece off bs m y
    if x.1 == 2 then (x.2.1, (x.2.2.emit .unsupported).onChip Chip.aerRecord)
    else if x.1 == 1 then (x.2.1, reservedAccess x.2.2)
    else (x.2.1, x.2.2)

/-- The chip offset of a window access. -/
def windowOff (c : Chip) (offset : BitVec 28) : Nat := c.hif.winBase.toNat * 0x10000000 + offset.toNat

theorem windowAccess_read (offset : BitVec 28) : exec (.windowAccess offset (.read n)) s =
    onMemSys (fun m y => windowRead (windowOff y.chip offset) n m y) s := by
  rw [exec_windowAccess, execWindowAccess]
  congr 1
  funext m y
  unfold windowRead passesWindow windowOff
  rw [Bool.not_not, readsWindow, Bool.and_true]

theorem windowAccess_write (offset : BitVec 28) : exec (.windowAccess offset (.write bytes)) s =
    onMemSys (fun m y => windowWrite (windowOff y.chip offset) bytes m y) s := by
  rw [exec_windowAccess, execWindowAccess]
  congr 1
  funext m y
  unfold windowWrite passesWindow windowOff
  rw [Bool.not_not, readsWindow, Bool.and_false, if_neg (Bool.false_ne_true)]

theorem windowRead_removed (h : removed y = true) :
    windowRead off n m y = (m, y.emit (.readData (List.replicate n 0xFF))) := by
  rw [windowRead, if_pos h, deadRead, if_pos h]

theorem windowRead_refused (h : removed y = false) (hno : passesWindow off n y = false) :
    windowRead off n m y = (m, y.emit .unsupported) := by
  rw [windowRead, h, if_neg (by decide), hno, if_pos (by decide)]

theorem windowWrite_refused (hno : passesWindow off bytes.length y = false) :
    windowWrite off bytes m y = (m, y.emit .unsupported) := by
  rw [windowWrite, hno, if_pos (by decide)]

theorem windowRead_search (h : removed y = false) (hok : passesWindow off n y = true)
    (hr : regionOf y.chip.map.vc off = .search o) (hon : y.chip.domOn bitSrch = true) (hecc : y.ecc = []) :
    windowRead off n m y = (m, y.emit (.readData (Memory.read m off n))) := by
  have haddr := (search_bounds hr).2.2.2
  rw [windowRead, h, if_neg (by decide), hok, if_neg (by decide), readPiece_search n hr haddr hon hecc]
  rfl

theorem windowWrite_search (hok : passesWindow off bytes.length y = true) (hr : regionOf y.chip.map.vc off = .search o)
    (hon : y.chip.domOn bitSrch = true) (hecc : y.ecc = []) :
    windowWrite off bytes m y = (Memory.write m off bytes, y) := by
  have haddr := (search_bounds hr).2.2.2
  have hwrite : writePiece off bytes m y = (0, Memory.write m off bytes, y) := by
    have h := storesAt_writePiece (m := m) bytes hr haddr hon
    rw [StoresAt, storeBytes, hecc, List.filter_nil, ← hecc] at h
    exact h
  rw [windowWrite, hok, if_neg (by decide), hwrite]
  rfl

theorem passesWindow_false {len : Nat} (h : y.chip.hif.bar4On = false ∨ y.chip.pwr.retention = true ∨
    windowOk (regionOf y.chip.map.vc off) off len = false) : passesWindow off len y = false := by
  unfold passesWindow
  rcases h with h | h | h
  · rw [h]; rfl
  · rw [reachable, h]
    simp
  · rw [h]
    simp

theorem passesWindow_true {len : Nat} (hbar : y.chip.hif.bar4On = true) (hret : y.chip.pwr.retention = false)
    (hok : windowOk (regionOf y.chip.map.vc off) off len = true) : passesWindow off len y = true := by
  unfold passesWindow
  rw [hbar, reachable, hret, hok]
  rfl

theorem removed_of {b : Bool} (h : s.sys.tray.bays[s.ownSlot].present = b) : removed s.sys = !b := by
  rw [← h]
  rfl

/-! Resets of the function. -/

theorem functionLevelReset_next : exec .functionLevelReset s = .next (s.withChip fun c => hifRegsReset (hifDisable c)) := rfl

theorem d3hot_next : exec .d3hot s = .next (s.withChip fun c =>
    { hifRegsReset (hifDisable c) with hif := { (hifRegsReset (hifDisable c)).hif with d3 := true } }) := rfl

theorem fundamentalReset_next : exec .fundamentalReset s = .next (s.withChip fun c =>
    { hifRegsReset (hifDisable c) with hif := { (hifRegsReset (hifDisable c)).hif with
      bar4On := (hifRegsReset (hifDisable c)).hif.bar4En
      linkUp := false
      downRaised := false
      pcie := PcieFn.reset } }) := rfl

theorem linkDown_next : exec .linkDown s = .next (s.withChip fun c =>
    { hifDisable c with hif := { (hifDisable c).hif with
      linkUp := false
      downRaised := false } }) := rfl

/-- What every reset of the function leaves. -/
structure FunctionReset (c d : Chip) : Prop where
  cmp : d.cmp = c.cmp
  time : d.time = c.time
  srch : d.srch = c.srch
  pwr : d.pwr = c.pwr
  waiting : d.fab.waiting = []
  mailbox : d.hif.mailbox = []
  cbuf : d.hif.cbuf = []
  reads : d.hif.reads = []
  writes : d.hif.writes = c.hif.writes
  qps : ∀ q, (d.qp q).state = 0 ∧ (d.qp q).entries = []

theorem reset_qps (q : QpId) : (HostIf.reset.qps[q]).state = 0 ∧ (HostIf.reset.qps[q]).entries = [] := by
  simp [HostIf.reset, QueuePair.reset]

theorem regsReset_reset (c : Chip) : FunctionReset c (hifRegsReset (hifDisable c)) :=
  ⟨rfl, rfl, rfl, rfl, rfl, rfl, rfl, rfl, rfl, reset_qps⟩

theorem disable_qp (q : QpId) (c : Chip) : (hifDisable c).qp q = disableQp (c.qp q) := by
  simp [hifDisable, Chip.qp]

theorem disable_reset (c : Chip) : FunctionReset c (hifDisable c) := by
  refine ⟨rfl, rfl, rfl, rfl, rfl, rfl, rfl, rfl, rfl, fun q => ?_⟩
  rw [disable_qp]
  exact ⟨rfl, rfl⟩

/-- The command of which a result is. -/
theorem next_eq {r : Result} {t u : State} (hr : r = .next t) (h : r = .next u) : t = u := by
  rw [hr] at h
  cases h
  rfl

/-- The registers of the host interface as a reset of the function clears them. -/
def clearedHif (h : HostIf) : HostIf := { HostIf.reset with
  bar4En := h.bar4En
  bar4On := h.bar4On
  writes := h.writes
  linkUp := h.linkUp
  downRaised := h.downRaised
  pcie := h.pcie }

theorem function_resets {r : Result} (hr : r = exec .functionLevelReset s ∨ r = exec .d3hot s ∨
    r = exec .fundamentalReset s ∨ r = exec .linkDown s) : Gives r fun t => onlyChip s t ∧
      FunctionReset s.sys.chip t.sys.chip := by
  rcases hr with rfl | rfl | rfl | rfl
  · exact ⟨_, functionLevelReset_next, rfl, regsReset_reset s.sys.chip⟩
  · have h := regsReset_reset s.sys.chip
    exact ⟨_, d3hot_next, rfl, h.cmp, h.time, h.srch, h.pwr, h.waiting, h.mailbox, h.cbuf, h.reads, h.writes, h.qps⟩
  · have h := regsReset_reset s.sys.chip
    exact ⟨_, fundamentalReset_next, rfl, h.cmp, h.time, h.srch, h.pwr, h.waiting, h.mailbox, h.cbuf, h.reads, h.writes, h.qps⟩
  · have h := disable_reset s.sys.chip
    exact ⟨_, linkDown_next, rfl, h.cmp, h.time, h.srch, h.pwr, h.waiting, h.mailbox, h.cbuf, h.reads, h.writes, h.qps⟩

theorem linkDown_keeps {t : State} (h : t = s.withChip fun c => { hifDisable c with hif := { (hifDisable c).hif with
      linkUp := false
      downRaised := false } }) :
    t.sys.chip.hif.linkUp = false ∧ t.sys.chip.hif.winBase = s.sys.chip.hif.winBase ∧
    t.sys.chip.hif.inputCount = s.sys.chip.hif.inputCount ∧
    ∀ q, (t.sys.chip.qp q).sqBase = (s.sys.chip.qp q).sqBase ∧ (t.sys.chip.qp q).cqBase = (s.sys.chip.qp q).cqBase := by
  subst h
  refine ⟨rfl, rfl, rfl, fun q => ?_⟩
  have hqp := disable_qp q s.sys.chip
  have hsq : ((hifDisable s.sys.chip).qp q).sqBase = (s.sys.chip.qp q).sqBase := by rw [hqp]; rfl
  have hcq : ((hifDisable s.sys.chip).qp q).cqBase = (s.sys.chip.qp q).cqBase := by rw [hqp]; rfl
  exact ⟨hsq, hcq⟩

theorem pcieLinkUp_next : exec .pcieLinkUp s = .next (if s.sys.chip.domOn bitHost then
    { s with sys := { s.sys with
      free := s.sys.free + 1
      chip := { s.sys.chip with hif := { s.sys.chip.hif with
        linkUp := true
        downRaised := false
        pcie := trainedPcie s.sys.free s.sys.chip.hif.pcie } } } } else s) := by
  rw [exec_pcieLinkUp, execPcieLinkUp, onSys_eq]
  dsimp only
  split
  · rfl
  · rfl

end

/-- Settles O41. -/
theorem windowAndFunctionResets : Obligations.WindowAndFunctionResets := by
  unfold Obligations.WindowAndFunctionResets
  refine ⟨fun s offset bytes n o => ?_, fun s r hr => ?_⟩
  · intro c off here
    rw [windowAccess_read, windowAccess_write, onMemSys, onMemSys]
    refine ⟨fun hgone => ?_, fun hhere hno => ?_, fun hno => ?_,
      fun hbar hret hr hon hecc => ⟨fun hhere hok => ?_, fun hok => ?_⟩⟩
    · rw [windowRead_removed (off := windowOff c offset) (removed_of hgone)]
      rfl
    · rw [windowRead_refused (off := windowOff c offset) (removed_of hhere) (passesWindow_false hno)]
      rfl
    · rw [windowWrite_refused (off := windowOff c offset) (passesWindow_false hno)]
      rfl
    · have hr' : regionOf s.sys.chip.map.vc (windowOff c offset) = .search o := hr
      have haddr : searchBase + o = windowOff c offset := (search_bounds hr).2.2.2
      rw [windowRead_search (off := windowOff c offset)
        (removed_of hhere) (passesWindow_true hbar hret (by rw [hr']; exact hok)) hr' hon hecc, haddr]
      rfl
    · have hr' : regionOf s.sys.chip.map.vc (windowOff c offset) = .search o := hr
      have haddr : searchBase + o = windowOff c offset := (search_bounds hr).2.2.2
      rw [windowWrite_search (off := windowOff c offset)
        (passesWindow_true hbar hret (by rw [hr']; exact hok)) hr' hon hecc, haddr]
  · obtain ⟨t, hnext, honly, hreset⟩ := function_resets hr
    refine ⟨⟨t, hnext, honly, hreset.cmp, hreset.time, hreset.srch, hreset.pwr, hreset.waiting, hreset.mailbox, hreset.cbuf,
      hreset.reads, hreset.writes, hreset.qps, ?_⟩, pcieLinkUp_next⟩
    refine ⟨fun he => ?_, fun he => ?_, fun he => ?_, fun he => linkDown_keeps (next_eq hnext he)⟩
    · rw [next_eq hnext he]
      rfl
    · rw [next_eq hnext he]
      rfl
    · rw [next_eq hnext he]
      rfl

end Sys2Proof.Machine
end

section
/-! PROOFS. Settling: what the base board's hardware derives of the tray's state after every change (15 R413, 17 R450, 19
R514), field by field. -/

namespace Sys2Proof.Machine

section Settling

variable (k : Collector) (t : Tray) (y : Sys) (now : Nat)

theorem finOf_slot (n : SlotId) : finOf 64 n.val = some (⟨n.val, by omega⟩ : SourceId) := by
  have h : n.val < 64 := by omega
  simp [finOf, h]

/-! What the level of a line leaves of a collector. -/

/-- The sources but for their lines' levels are as before, and no raise is lost. -/
structure SameLatches (k l : Collector) : Prop where
  src : ∀ i : SourceId, l.src[i] = { k.src[i] with
    line := l.src[i].line
    lastAct := l.src[i].lastAct }
  raised : ∀ r ∈ k.raised, r ∈ l.raised
  firstSource : l.firstSource = k.firstSource
  firstValid : l.firstValid = k.firstValid
  firstTime : l.firstTime = k.firstTime
  recov : l.recov = k.recov

theorem SameLatches.refl : SameLatches k k := ⟨fun _ => rfl, fun _ h => h, rfl, rfl, rfl, rfl⟩

theorem src_set (i j : SourceId) (x : Source) : (k.src.set i x)[j] = if j = i then x else k.src[j] := by
  by_cases h : j = i
  · subst h
    simp
  · have hv : i.val ≠ j.val := fun hij => h (Fin.ext hij.symm)
    simp [h, hv]

theorem SameLatches.set (i : SourceId) (b : Bool) (raised : List Raise) (h : ∀ r ∈ k.raised, r ∈ raised) :
    SameLatches k { k with
      src := k.src.set i { k.src[i] with
        line := b
        lastAct := now }
      raised := raised } := by
  refine ⟨fun j => ?_, h, rfl, rfl, rfl, rfl⟩
  by_cases hj : j = i
  · subst hj
    simp
  · simp only [src_set, if_neg hj]

theorem sameLatches_assert (n : Nat) (o : Owner) : SameLatches k (k.assert n o now) := by
  unfold Collector.assert
  split
  next i _ =>
    extract_lets x
    split
    · exact .refl k
    · exact .set k now i true _ fun r hr => List.mem_append_left _ hr
  next => exact .refl k

theorem sameLatches_lower (n : Nat) : SameLatches k (k.lower n now) := by
  unfold Collector.lower
  split
  next i _ =>
    extract_lets x
    split
    · exact .set k now i false _ fun r hr => hr
    · exact .refl k
  next => exact .refl k

theorem assert_other {n : Nat} {i : SourceId} (h : n ≠ i.val) (o : Owner) : (k.assert n o now).src[i] = k.src[i] := by
  unfold Collector.assert
  split
  next j hj =>
    have hne : i ≠ j := by
      rintro rfl
      simp only [finOf] at hj
      split at hj
      · cases hj
        exact h rfl
      · cases hj
    extract_lets x
    split
    · rfl
    · exact (src_set k j i _).trans (if_neg hne)
  next => rfl

theorem lower_other {n : Nat} {i : SourceId} (h : n ≠ i.val) : (k.lower n now).src[i] = k.src[i] := by
  unfold Collector.lower
  split
  next j hj =>
    have hne : i ≠ j := by
      rintro rfl
      simp only [finOf] at hj
      split at hj
      · cases hj
        exact h rfl
      · cases hj
    extract_lets x
    split
    · exact (src_set k j i _).trans (if_neg hne)
    · rfl
  next => rfl

theorem assert_sets_line (i : SourceId) (o : Owner) : (k.assert i.val o now).src[i].line = true := by
  have hi : finOf 64 i.val = some i := by simp [finOf]
  simp only [Collector.assert, hi]
  split
  · assumption
  · simp only [src_set, if_true]

theorem lower_clears_line (i : SourceId) : (k.lower i.val now).src[i].line = false := by
  have hi : finOf 64 i.val = some i := by simp [finOf]
  simp only [Collector.lower, hi]
  split
  · simp only [src_set, if_true]
  · rename_i h
    exact Bool.not_eq_true _ ▸ h

theorem SameLatches.status {k l : Collector} (h : SameLatches k l) (i : SourceId) : l.src[i].status = k.src[i].status := by
  rw [h.src]

theorem SameLatches.acked {k l : Collector} (h : SameLatches k l) (i : SourceId) : l.src[i].acked = k.src[i].acked := by
  rw [h.src]

theorem SameLatches.applied {k l : Collector} (h : SameLatches k l) (i : SourceId) : l.src[i].applied = k.src[i].applied := by
  rw [h.src]

theorem SameLatches.applies {k l : Collector} (h : SameLatches k l) (n bit : Nat) : l.applies n bit = k.applies n bit := by
  unfold Collector.applies
  split
  · rw [h.status, h.applied]
  · rfl

theorem anyApplies_iff (k : Collector) (bit : Nat) : k.anyApplies bit = true ↔
    ∃ i : SourceId, k.src[i].status = true ∧ k.src[i].applied.toNat.testBit bit = true := by
  simp only [Collector.anyApplies, List.any_eq_true, Bool.and_eq_true, Vector.mem_toList_iff, Vector.mem_iff_getElem]
  constructor
  · rintro ⟨x, ⟨i, hi, rfl⟩, h⟩
    exact ⟨⟨i, hi⟩, h⟩
  · rintro ⟨i, h⟩
    exact ⟨k.src[i], ⟨i.val, i.isLt, rfl⟩, h⟩

theorem SameLatches.anyApplies {k l : Collector} (h : SameLatches k l) (bit : Nat) : l.anyApplies bit = k.anyApplies bit := by
  rw [Bool.eq_iff_iff, anyApplies_iff, anyApplies_iff]
  simp only [h.status, h.applied]

/-! The chip's ERR_N at the tray's collector. -/

/-- The tray's collector after its line for the chip has followed ERR_N. -/
def errFollowed (y : Sys) : Collector :=
  if y.tray.bays[y.chip.fab.slot].present && y.chip.fc.errPin then
    y.tray.fc.assert y.chip.fab.slot.val (.slot y.chip.fab.slot) y.now
  else y.tray.fc.lower y.chip.fab.slot.val y.now

theorem settleErr_tray : (settleErr y).tray = { y.tray with fc := errFollowed y } := by
  unfold settleErr errFollowed
  dsimp only [Sys.onTray_tray]
  split
  · rfl
  · rfl

theorem errFollowed_latches : SameLatches y.tray.fc (errFollowed y) := by
  unfold errFollowed
  split
  · exact sameLatches_assert _ _ _ _
  · exact sameLatches_lower _ _ _

theorem errFollowed_other {i : SourceId} (h : 16 ≤ i.val) : (errFollowed y).src[i] = y.tray.fc.src[i] := by
  have hne : y.chip.fab.slot.val ≠ i.val := by
    have := y.chip.fab.slot.isLt
    omega
  unfold errFollowed
  split
  · exact assert_other _ _ hne _
  · exact lower_other _ _ hne

theorem errFollowed_line : (errFollowed y).src[(⟨y.chip.fab.slot.val, by omega⟩ : SourceId)].line =
    (y.tray.bays[y.chip.fab.slot].present && y.chip.fc.errPin) := by
  unfold errFollowed
  generalize (y.tray.bays[y.chip.fab.slot].present && y.chip.fc.errPin) = low
  cases low
  · exact lower_clears_line y.tray.fc y.now ⟨y.chip.fab.slot.val, by omega⟩
  · exact assert_sets_line y.tray.fc y.now ⟨y.chip.fab.slot.val, by omega⟩ _

/-! PWR_EN, full cooling, the drives, the log. -/

/-- What holds PWR_EN reads of the tray: the latches of its collector, the input, the bays and the orders. -/
theorem pwrEn_congr {t u : Tray} {n : SlotId} (hfc : SameLatches t.fc u.fc) (hin : u.input = t.input)
    (hbay : u.bays[n] = t.bays[n]) (hord : u.orders = t.orders) : u.pwrEn n = t.pwrEn n := by
  unfold Tray.pwrEn Tray.safetyHold Tray.reactionHold Tray.resolved
  rw [hfc.applies, hfc.applies, hfc.anyApplies, hin, hbay, hord]

theorem fullWanted_congr {t u : Tray} (hfc : SameLatches t.fc u.fc) (hcard : u.card = t.card) (hreq : u.tmcReq = t.tmcReq) :
    u.fullWanted = t.fullWanted := by
  unfold Tray.fullWanted Tray.fullCause
  rw [hfc.anyApplies, hcard, hreq]

theorem foldl_startFullAxis (l : List AxisId) : ∀ u : Tray, ∃ axes,
    l.foldl (fun u n => startFullAxis t now n u) u = { u with axes := axes } := by
  induction l with
  | nil => exact fun u => ⟨u.axes, rfl⟩
  | cons n l ih =>
    intro u
    obtain ⟨axes, h⟩ := ih (startFullAxis t now n u)
    exact ⟨axes, h⟩

/-- Settling full cooling: it is in force as wanted; the axes, ENDED and the log follow. -/
theorem settleFull_eq : ∃ axes ended log, settleFull now t = { t with
    full := t.fullWanted
    axes := axes
    fullEnded := ended
    logPending := log } := by
  unfold settleFull
  split
  · rename_i h
    exact ⟨_, _, _, by rw [eq_of_beq h]⟩
  · rename_i h
    have hne : t.fullWanted = !t.full := by
      exact Bool.eq_not.mpr fun he => h (beq_iff_eq.mpr he)
    split
    · rename_i hf
      rw [hne, hf]
      dsimp only
      split
      · exact ⟨_, _, _, rfl⟩
      · exact ⟨_, _, _, rfl⟩
    · rename_i hf
      rw [Bool.not_eq_true] at hf
      rw [hne, hf]
      obtain ⟨axes, ha⟩ := foldl_startFullAxis t now (List.finRange 20) { t with full := true }
      dsimp only
      rw [ha]
      split
      · split
        · exact ⟨_, _, _, rfl⟩
        · exact ⟨_, _, _, rfl⟩
      · split
        · exact ⟨_, _, _, rfl⟩
        · exact ⟨_, _, _, rfl⟩

/-- Settling after ERR_N and PWR_EN, before full cooling. -/
def powered (y : Sys) : Tray := settlePwrEn y.now { y.tray with fc := errFollowed y }

theorem settleTray_steps : (settleTray y).tray = settleLog y.now (settleDrives y.now (settleFull y.now (powered y))) := by
  unfold settleTray powered
  rw [← settleErr_tray]
  rfl

theorem pwrEn_errFollowed (n : SlotId) : ({ y.tray with fc := errFollowed y } : Tray).pwrEn n = y.tray.pwrEn n :=
  pwrEn_congr (errFollowed_latches y) rfl rfl rfl

theorem powered_eq : powered y = { y.tray with
    fc := errFollowed y
    bays := Vector.ofFn fun m => { y.tray.bays[m] with cpc := setPwrEn (y.tray.pwrEn m) y.now y.tray.bays[m].cpc } } := by
  unfold powered
  rw [settlePwrEn_eq]
  simp only [pwrEn_errFollowed]

theorem powered_wanted : (powered y).fullWanted = y.tray.fullWanted := by
  rw [powered_eq]
  exact fullWanted_congr (errFollowed_latches y) rfl rfl

/-- What a step's settling makes of the tray. -/
theorem settleTray_tray : ∃ axes ended log drives, (settleTray y).tray = { y.tray with
    fc := errFollowed y
    bays := Vector.ofFn fun m => { y.tray.bays[m] with cpc := setPwrEn (y.tray.pwrEn m) y.now y.tray.bays[m].cpc }
    full := y.tray.fullWanted
    axes := axes
    fullEnded := ended
    logPending := log
    drives := drives } := by
  obtain ⟨axes, ended, log, h⟩ := settleFull_eq (powered y) y.now
  rw [settleTray_steps, h, powered_wanted, settleDrives_eq, powered_eq]
  exact ⟨axes, ended, _, _, rfl⟩

theorem settleTray_same : (settleTray y).tray = { y.tray with
    fc := (settleTray y).tray.fc
    bays := (settleTray y).tray.bays
    full := (settleTray y).tray.full
    axes := (settleTray y).tray.axes
    fullEnded := (settleTray y).tray.fullEnded
    logPending := (settleTray y).tray.logPending
    drives := (settleTray y).tray.drives } := by
  obtain ⟨axes, ended, log, drives, h⟩ := settleTray_tray y
  rw [h]

@[simp] theorem settleTray_fc : (settleTray y).tray.fc = errFollowed y := by
  obtain ⟨_, _, _, _, h⟩ := settleTray_tray y
  rw [h]

@[simp] theorem settleTray_bay (n : SlotId) : (settleTray y).tray.bays[n] =
    { y.tray.bays[n] with cpc := setPwrEn (y.tray.pwrEn n) y.now y.tray.bays[n].cpc } := by
  obtain ⟨_, _, _, _, h⟩ := settleTray_tray y
  rw [h]
  simp

@[simp] theorem settleTray_full : (settleTray y).tray.full = y.tray.fullWanted := by
  obtain ⟨_, _, _, _, h⟩ := settleTray_tray y
  rw [h]

@[simp] theorem settleTray_input : (settleTray y).tray.input = y.tray.input := by rw [settleTray_same]
@[simp] theorem settleTray_inputAt : (settleTray y).tray.inputAt = y.tray.inputAt := by rw [settleTray_same]
@[simp] theorem settleTray_dwellDone : (settleTray y).tray.dwellDone = y.tray.dwellDone := by rw [settleTray_same]
@[simp] theorem settleTray_bbu : (settleTray y).tray.bbu = y.tray.bbu := by rw [settleTray_same]
@[simp] theorem settleTray_bbuEnergy : (settleTray y).tray.bbuEnergy = y.tray.bbuEnergy := by rw [settleTray_same]
@[simp] theorem settleTray_bbuEol : (settleTray y).tray.bbuEol = y.tray.bbuEol := by rw [settleTray_same]
@[simp] theorem settleTray_bbuEeprom : (settleTray y).tray.bbuEeprom = y.tray.bbuEeprom := by rw [settleTray_same]
@[simp] theorem settleTray_cams : (settleTray y).tray.cams = y.tray.cams := by rw [settleTray_same]
@[simp] theorem settleTray_tmcReq : (settleTray y).tray.tmcReq = y.tray.tmcReq := by rw [settleTray_same]
@[simp] theorem settleTray_twi : (settleTray y).tray.twi = y.tray.twi := by rw [settleTray_same]
@[simp] theorem settleTray_cages : (settleTray y).tray.cages = y.tray.cages := by rw [settleTray_same]
@[simp] theorem settleTray_orders : (settleTray y).tray.orders = y.tray.orders := by rw [settleTray_same]
@[simp] theorem settleTray_demands : (settleTray y).tray.demands = y.tray.demands := by rw [settleTray_same]
@[simp] theorem settleTray_sensors : (settleTray y).tray.sensors = y.tray.sensors := by rw [settleTray_same]
@[simp] theorem settleTray_log : (settleTray y).tray.log = y.tray.log := by rw [settleTray_same]
@[simp] theorem settleTray_logHead : (settleTray y).tray.logHead = y.tray.logHead := by rw [settleTray_same]
@[simp] theorem settleTray_trayZ : (settleTray y).tray.trayZ = y.tray.trayZ := by rw [settleTray_same]
@[simp] theorem settleTray_trayW : (settleTray y).tray.trayW = y.tray.trayW := by rw [settleTray_same]
@[simp] theorem settleTray_trayValid : (settleTray y).tray.trayValid = y.tray.trayValid := by rw [settleTray_same]
@[simp] theorem settleTray_net : (settleTray y).tray.net = y.tray.net := by rw [settleTray_same]
@[simp] theorem settleTray_autoSlots : (settleTray y).tray.autoSlots = y.tray.autoSlots := by rw [settleTray_same]
@[simp] theorem settleTray_requesters : (settleTray y).tray.requesters = y.tray.requesters := by rw [settleTray_same]
@[simp] theorem settleTray_card : (settleTray y).tray.card = y.tray.card := by rw [settleTray_same]

/-! PWR_EN at a bay. -/

theorem setPwrEn_eq (v : Bool) (c : Cpc) : setPwrEn v now c = { c with
    pwrEn := v
    pwrEnAt := if c.pwrEn = v then c.pwrEnAt else now
    seqFault := if c.pwrEn = v then c.seqFault else c.seqFault && !v } := by
  unfold setPwrEn
  by_cases h : c.pwrEn = v
  · subst h
    simp
  · simp [h]

theorem pwrEn_iff (n : SlotId) : t.pwrEn n = true ↔ t.input = .normal ∧ t.bays[n].present = true ∧
    t.reactionHold n = false ∧ t.bays[n].leak = false ∧ t.resolved n = .on := by
  simp [Tray.pwrEn, Tray.safetyHold, and_assoc]

/-! The axes and the drives. -/

theorem settleTray_keepsAxes (h : y.tray.fullWanted = y.tray.full) :
    (settleTray y).tray.axes = y.tray.axes ∧ (settleTray y).tray.fullEnded = y.tray.fullEnded := by
  have hw : (powered y).fullWanted = (powered y).full := by
    rw [powered_wanted, h, powered_eq]
  have haxes : (powered y).axes = y.tray.axes := by rw [powered_eq]
  have hended : (powered y).fullEnded = y.tray.fullEnded := by rw [powered_eq]
  rw [settleTray_steps, settleFull_of_wanted _ _ hw, settleDrives_eq]
  exact ⟨haxes, hended⟩

/-- Full cooling that ends leaves the axes as they are. -/
theorem settleFull_ends (hf : t.full = true) (hw : t.fullWanted = false) :
    (settleFull now t).axes = t.axes ∧ (settleFull now t).fullEnded = true := by
  have hne : ¬(t.fullWanted == t.full) = true := by
    rw [hf, hw]
    exact Bool.false_ne_true
  unfold settleFull
  rw [if_neg hne, if_pos hf]
  dsimp only
  split
  · exact ⟨rfl, rfl⟩
  · exact ⟨rfl, rfl⟩

theorem settleTray_endsFull (hf : y.tray.full = true) (hw : y.tray.fullWanted = false) :
    (settleTray y).tray.axes = y.tray.axes ∧ (settleTray y).tray.fullEnded = true := by
  have hfull : (powered y).full = true := by
    rw [powered_eq]
    exact hf
  obtain ⟨haxes, hended⟩ := settleFull_ends (powered y) y.now hfull ((powered_wanted y).trans hw)
  have hpow : (powered y).axes = y.tray.axes := by rw [powered_eq]
  rw [settleTray_steps, settleDrives_eq]
  exact ⟨haxes.trans hpow, hended⟩

/-- The duty a drive is to have depends on nothing that settling the drives changes. -/
theorem dutyGoal_congr {t u : Tray} {k : DriveId} (hp : u.drives[k].present = t.drives[k].present) (hin : u.input = t.input)
    (hf : u.full = t.full) (hd : u.demands = t.demands) (hb : u.bays = t.bays) : dutyGoal u k = dutyGoal t k := by
  unfold dutyGoal Tray.drivesPowered Tray.demand
  rw [hp, hin, hf, hd, hb]

theorem settleDrive_spec (off : Bool) (goal : Nat) (d : Drive) (hoff : off = true → goal = 0) :
    settleDrive off goal now d = { d with
      duty := (settleDrive off goal now d).duty
      dutyAt := (settleDrive off goal now d).dutyAt } ∧
    (d.duty ≤ goal → (settleDrive off goal now d).duty = goal) ∧ goal ≤ (settleDrive off goal now d).duty ∧
    (off = true → (settleDrive off goal now d).duty = 0) := by
  unfold settleDrive
  split
  · exact ⟨rfl, fun _ => rfl, le_rfl, hoff⟩
  · rename_i h
    simp only [Bool.or_eq_true, decide_eq_true_eq, not_or] at h
    exact ⟨rfl, fun hd => absurd hd h.2, le_max_left _ _, fun ho => absurd ho h.1⟩

/-- Settling after full cooling, before the drives. -/
def cooled (y : Sys) : Tray := settleFull y.now (powered y)

theorem cooled_eq : ∃ axes ended log, cooled y = { powered y with
    full := y.tray.fullWanted
    axes := axes
    fullEnded := ended
    logPending := log } := by
  obtain ⟨axes, ended, log, h⟩ := settleFull_eq (powered y) y.now
  rw [powered_wanted] at h
  exact ⟨axes, ended, log, h⟩

theorem cooled_fields : (cooled y).drives = y.tray.drives ∧ (cooled y).input = y.tray.input ∧
    (cooled y).full = y.tray.fullWanted ∧ (cooled y).demands = y.tray.demands ∧
    (cooled y).bays = (settleTray y).tray.bays := by
  have hbays : (settleTray y).tray.bays = (cooled y).bays := by
    rw [settleTray_steps, settleDrives_eq]
    rfl
  rw [hbays]
  obtain ⟨_, _, _, h⟩ := cooled_eq y
  rw [h, powered_eq]
  exact ⟨rfl, rfl, rfl, rfl, rfl⟩

theorem drivesPowered_congr {t u : Tray} (h : u.input = t.input) : u.drivesPowered = t.drivesPowered := by
  unfold Tray.drivesPowered
  rw [h]

theorem settleTray_drive_goal (k : DriveId) : (settleTray y).tray.drives[k] =
    settleDrive (!y.tray.drives[k].present || !y.tray.drivesPowered) (dutyGoal (cooled y) k) y.now y.tray.drives[k] := by
  obtain ⟨hdrives, hin, -⟩ := cooled_fields y
  have hsteps : (settleTray y).tray = settleLog y.now (settleDrives y.now (cooled y)) := settleTray_steps y
  rw [hsteps, settleDrives_eq, ← drivesPowered_congr hin, ← hdrives]
  simp [settleLog]

/-- Every drive as a step's settling leaves it. -/
theorem settleTray_drive (k : DriveId) : (settleTray y).tray.drives[k] =
    settleDrive (!y.tray.drives[k].present || !y.tray.drivesPowered) (dutyGoal (settleTray y).tray k) y.now
      y.tray.drives[k] := by
  obtain ⟨hdrives, hin, hfull, hdemands, hbays⟩ := cooled_fields y
  have hpresent : (settleTray y).tray.drives[k].present = (cooled y).drives[k].present := by
    rw [settleTray_drive_goal, hdrives]
    unfold settleDrive
    split
    · rfl
    · rfl
  rw [dutyGoal_congr hpresent ((settleTray_input y).trans hin.symm) ((settleTray_full y).trans hfull.symm)
    ((settleTray_demands y).trans hdemands.symm) hbays.symm]
  exact settleTray_drive_goal y k

theorem dutyGoal_off {t : Tray} {k : DriveId} (h : (!t.drives[k].present || !t.drivesPowered) = true) : dutyGoal t k = 0 :=
  if_pos h

end Settling

end Sys2Proof.Machine
end

section
/-! PROOFS. What the base board's hardware derives after every change (O47). -/

namespace Sys2Proof.Machine

theorem settled_onlyTray (s : State) : onlyTray s s.settled := rfl

theorem settleTray_duty (y : Sys) (k : DriveId) :
    (settleTray y).tray.drives[k] = { y.tray.drives[k] with
      duty := (settleTray y).tray.drives[k].duty
      dutyAt := (settleTray y).tray.drives[k].dutyAt } ∧
    (y.tray.drives[k].duty ≤ dutyGoal (settleTray y).tray k →
      (settleTray y).tray.drives[k].duty = dutyGoal (settleTray y).tray k) ∧
    dutyGoal (settleTray y).tray k ≤ (settleTray y).tray.drives[k].duty ∧
    ((!y.tray.drives[k].present || !y.tray.drivesPowered) = true → (settleTray y).tray.drives[k].duty = 0) := by
  have hdrive := settleTray_drive y k
  have hpow : (settleTray y).tray.drivesPowered = y.tray.drivesPowered := drivesPowered_congr (settleTray_input y)
  have hpresent : (settleTray y).tray.drives[k].present = y.tray.drives[k].present := by
    rw [hdrive]
    unfold settleDrive
    split
    · rfl
    · rfl
  have hoff : (!y.tray.drives[k].present || !y.tray.drivesPowered) = true → dutyGoal (settleTray y).tray k = 0 := by
    intro h
    refine dutyGoal_off ?_
    rw [hpow, hpresent]
    exact h
  have hspec := settleDrive_spec y.now _ (dutyGoal (settleTray y).tray k) y.tray.drives[k] hoff
  rw [← hdrive] at hspec
  exact hspec

/-- Settles O47. -/
theorem baseBoardHardwareFollows : Obligations.BaseBoardHardwareFollows := by
  unfold Obligations.BaseBoardHardwareFollows
  intro s t u
  have hbay : ∀ n : SlotId, u.bays[n] = { t.bays[n] with cpc := setPwrEn (t.pwrEn n) s.sys.now t.bays[n].cpc } :=
    settleTray_bay s.sys
  refine ⟨rfl, settleTray_same s.sys, fun n => ?_, ?_, fun h => ?_, fun hf hu => ?_, fun k => ?_, ?_⟩
  · rw [hbay, setPwrEn_eq, ← pwrEn_iff]
    refine ⟨rfl, Iff.rfl, fun h => ?_, fun h => if_neg (Ne.symm h)⟩
    have h' : t.bays[n].cpc.pwrEn = t.pwrEn n := h.symm
    rw [if_pos h', if_pos h', ← h']
  · have hfull : u.full = t.fullWanted := settleTray_full s.sys
    rw [hfull]
    simp [Tray.fullWanted, Tray.fullCause, or_assoc]
  · exact settleTray_keepsAxes s.sys ((settleTray_full s.sys).symm.trans h)
  · exact settleTray_endsFull s.sys hf ((settleTray_full s.sys).symm.trans hu)
  · obtain ⟨hsame, hrise, hfall, -⟩ := settleTray_duty s.sys k
    exact ⟨hsame, hrise, hfall⟩
  · have hfc : u.fc = errFollowed s.sys := settleTray_fc s.sys
    rw [hfc]
    exact errFollowed_line s.sys

end Sys2Proof.Machine
end

section
/-! PROOFS. The fault collectors (15 R396, R403, R405): a raise that latches, an escalation, an automatic clear (O42). -/

namespace Sys2Proof.Machine

section Latching

variable (k : Collector) (x : Source) (y : Sys) (now : Nat)

/-! One raise at a clear source. -/

/-- A source as a raise latches it. -/
def latchedSource (o : Owner) (now : Nat) (x : Source) : Source := { x with
  status := true
  acked := false
  esc := false
  lastAct := now
  timer := if x.escTimer = 0 then none else some now
  applied := x.primary
  owners := [(o, false)] }

theorem latchSource_clear (o : Owner) (he : x.enable = true) (hs : x.status = false) :
    latchSource o now x = (latchedSource o now x, true) := by
  simp [latchSource, latchedSource, he, hs]

/-- A collector in which the one raise that waits has latched. -/
def latchedOne (c : CollectorId) (i : SourceId) (o : Owner) (now : Nat) (time : Dword) (k : Collector) : Collector := { k with
  raised := []
  src := k.src.set i (latchedSource (raiseOwner c ⟨i, o⟩) now k.src[i])
  firstSource := if k.firstValid then k.firstSource else BitVec.ofNat 6 i.val
  firstValid := true
  firstTime := if k.firstValid then k.firstTime else time }

theorem latchAll_one (c : CollectorId) (i : SourceId) (o : Owner) (time : Dword) (hr : k.raised = [⟨i, o⟩])
    (he : k.src[i].enable = true) (hs : k.src[i].status = false) : latchAll c now time k =
      (latchedOne c i o now time k, [⟨i, raiseOwner c ⟨i, o⟩, k.src[i].primary⟩]) := by
  simp only [latchAll, hr, List.foldl_cons, List.foldl_nil, latchRaise, latchSource_clear _ _ _ he hs, latchedOne]
  cases hf : k.firstValid
  · simp [latchedSource]
  · simp [latchedSource, hf]

/-! Reactions that reset nothing. -/

theorem reactionHas_none {rs : List Reaction} {bit : Nat} (h : ∀ r ∈ rs, r.bits.toNat.testBit bit = false) :
    reactionHas bit rs = [] := by
  unfold reactionHas
  rw [List.filter_eq_nil_iff]
  intro r hr
  rw [h r hr]
  exact Bool.false_ne_true

theorem applyReactions_mild {rs : List Reaction} (h2 : ∀ r ∈ rs, r.bits.toNat.testBit 2 = false)
    (h3 : ∀ r ∈ rs, r.bits.toNat.testBit 3 = false) : applyReactions rs y =
      (if (reactionHas 0 rs).isEmpty then y else sendMsix 32 y).onChip (noteNmis rs) := by
  simp only [applyReactions, reactionHas_none h2, reactionHas_none h3]
  rfl

theorem trayReact_mild {rs : List Reaction} (h2 : ∀ r ∈ rs, r.bits.toNat.testBit 2 = false) : trayReact rs y = y := by
  have hnone : rs.filterMap recoveryOf = [] := by
    rw [List.filterMap_eq_nil_iff]
    intro r hr
    simp [recoveryOf, h2 r hr]
  rw [trayReact, hnone]
  rfl

/-- A message changes the chip's message vectors alone, and what leaves the block. -/
theorem sendMsix_eq (v : Fin 33) : ∃ vs os, sendMsix v y = { y with
    chip := { y.chip with hif := { y.chip.hif with msix := vs } }
    out := y.out ++ os } := by
  unfold sendMsix
  dsimp only
  split
  · exact ⟨_, [], by rw [List.append_nil]; rfl⟩
  · exact ⟨_, _, rfl⟩

theorem applyReactions_mild_fields {rs : List Reaction} (h2 : ∀ r ∈ rs, r.bits.toNat.testBit 2 = false)
    (h3 : ∀ r ∈ rs, r.bits.toNat.testBit 3 = false) :
    (applyReactions rs y).chip.fc = y.chip.fc ∧ (applyReactions rs y).now = y.now ∧ (applyReactions rs y).ecc = y.ecc := by
  rw [applyReactions_mild y h2 h3]
  split
  · exact ⟨rfl, rfl, rfl⟩
  · obtain ⟨vs, os, h⟩ := sendMsix_eq y 32
    rw [h]
    exact ⟨rfl, rfl, rfl⟩

end Latching

section Commands

variable {s : State} {i : SourceId} {o : Owner}

/-- What O42 says of a source that latches. -/
def Latched (c : CollectorId) (i : SourceId) (o : Owner) (now : Nat) (x y : Source) : Prop :=
  y.status = true ∧ y.acked = false ∧ y.esc = false ∧ y.applied = x.primary ∧
  y.timer = (if x.escTimer = 0 then none else some now) ∧ y.owners = [(raiseOwner c ⟨i, o⟩, false)]

theorem latchedOne_latched (c : CollectorId) (now : Nat) (time : Dword) (k : Collector) :
    Latched c i o now k.src[i] (latchedOne c i o now time k).src[i] := by
  have h : (latchedOne c i o now time k).src[i] = latchedSource (raiseOwner c ⟨i, o⟩) now k.src[i] :=
    (src_set k i i _).trans (if_pos rfl)
  rw [h]
  exact ⟨rfl, rfl, rfl, rfl, rfl, rfl⟩

/-- The one reaction of the chip's latch. -/
def oneReaction (i : SourceId) (o : Owner) (bits : BitVec 5) : List Reaction := [⟨i, raiseOwner .chip ⟨i, o⟩, bits⟩]

/-- The chip's state in which the raise has latched, its reactions still to come. -/
def chipLatched (i : SourceId) (o : Owner) (y : Sys) : Sys := y.onChip fun c => { c with
  fc := latchedOne .chip i o y.now y.chip.time.gtc y.chip.fc }

theorem faultLatch_chip (hr : s.sys.chip.fc.raised = [⟨i, o⟩]) (he : s.sys.chip.fc.src[i].enable = true)
    (hs : s.sys.chip.fc.src[i].status = false) : exec (.faultLatch .chip) s = .next { s with
      sys := settleTray (applyReactions (oneReaction i o s.sys.chip.fc.src[i].primary) (chipLatched i o s.sys)) } := by
  rw [exec_faultLatch, execFaultLatch, onBoard_eq]
  simp only [latchChip, latchAll_one _ _ .chip i o _ hr he hs]
  rfl

theorem noteNmis_one (bits : BitVec 5) (c : Chip) : (noteNmis (oneReaction i o bits) c).mgt.nmiWaiting =
    if bits.toNat.testBit 1 then c.mgt.nmiWaiting ||| BitVec.ofNat 64 (2 ^ i.val) else c.mgt.nmiWaiting := by
  simp only [noteNmis, reactionHas, oneReaction, List.filter_cons, List.filter_nil]
  cases bits.toNat.testBit 1
  · rfl
  · rfl

theorem reactionHas_one (bits : BitVec 5) (bit : Nat) :
    (reactionHas bit (oneReaction i o bits)).isEmpty = !bits.toNat.testBit bit := by
  simp only [reactionHas, oneReaction, List.filter_cons, List.filter_nil]
  cases bits.toNat.testBit bit
  · rfl
  · rfl

theorem oneReaction_bit {bits : BitVec 5} {bit : Nat} (h : bits.toNat.testBit bit = false) :
    ∀ r ∈ oneReaction i o bits, r.bits.toNat.testBit bit = false := by
  intro r hr
  rw [oneReaction, List.mem_singleton] at hr
  rw [hr]
  exact h

theorem faultLatch_tray (hr : s.sys.tray.fc.raised = [⟨i, o⟩]) (he : s.sys.tray.fc.src[i].enable = true)
    (hs : s.sys.tray.fc.src[i].status = false) (h2 : s.sys.tray.fc.src[i].primary.toNat.testBit 2 = false) :
    exec (.faultLatch .tray) s = .next (s.withTray fun t => { t with
      fc := latchedOne .tray i o s.sys.now (BitVec.ofNat 64 (t.micros s.sys.now)) t.fc }).settled := by
  have hbit : ∀ r ∈ [(⟨i, raiseOwner .tray ⟨i, o⟩, s.sys.tray.fc.src[i].primary⟩ : Reaction)],
      r.bits.toNat.testBit 2 = false := by
    intro r hr
    rw [List.mem_singleton] at hr
    rw [hr]
    exact h2
  rw [exec_faultLatch, execFaultLatch, onBoard_eq]
  simp only [latchTray, latchAll_one _ _ .tray i o _ hr he hs, trayReact_mild _ hbit]
  rfl

theorem SameLatches.latched {k l : Collector} (h : SameLatches k l) {c : CollectorId} {now : Nat} {x : Source}
    (hk : Latched c i o now x k.src[i]) : Latched c i o now x l.src[i] := by
  rw [h.src]
  exact hk

theorem raise_latches_chip (hr : s.sys.chip.fc.raised = [⟨i, o⟩]) (he : s.sys.chip.fc.src[i].enable = true)
    (hs : s.sys.chip.fc.src[i].status = false) (h2 : s.sys.chip.fc.src[i].primary.toNat.testBit 2 = false)
    (h3 : s.sys.chip.fc.src[i].primary.toNat.testBit 3 = false) : Gives (exec (.faultLatch .chip) s) fun t =>
      let k := s.sys.chip.fc
      let x := k.src[i]
      let e := s.sys.chip.hif.msix[(32 : Fin 33)]
      let d := t.sys.chip
      keepsMemory s t ∧ Latched .chip i o s.sys.now x d.fc.src[i] ∧ d.fc.raised = [] ∧
      (∀ j, j ≠ i → d.fc.src[j] = k.src[j]) ∧
      (k.firstValid = false → d.fc.firstValid = true ∧ d.fc.firstSource = BitVec.ofNat 6 i.val ∧
        d.fc.firstTime = s.sys.chip.time.gtc) ∧
      d.mgt.nmiWaiting = (if x.primary.toNat.testBit 1 then s.sys.chip.mgt.nmiWaiting ||| BitVec.ofNat 64 (2 ^ i.val)
        else s.sys.chip.mgt.nmiWaiting) ∧
      (x.primary.toNat.testBit 0 = true → e.mask = false → t.sys.out = s.sys.out ++ [.msix e.addr e.data]) ∧
      (x.primary.toNat.testBit 0 = false → t.sys.out = s.sys.out) := by
  have hb2 := oneReaction_bit (i := i) (o := o) h2
  have hb3 := oneReaction_bit (i := i) (o := o) h3
  have hmild := applyReactions_mild (chipLatched i o s.sys) hb2 hb3
  have hfc := (applyReactions_mild_fields (chipLatched i o s.sys) hb2 hb3).1
  refine ⟨_, faultLatch_chip hr he hs, ?_⟩
  dsimp only
  rw [settleTray_chip, settleTray_out, hfc]
  refine ⟨⟨rfl, rfl⟩, latchedOne_latched .chip _ _ _, rfl, fun j hj => (src_set _ _ _ _).trans (if_neg hj),
    fun hf => ⟨rfl, ?_, ?_⟩, ?_, fun h0 hm => ?_, fun h0 => ?_⟩
  · exact if_neg (by rw [hf]; exact Bool.false_ne_true)
  · exact if_neg (by rw [hf]; exact Bool.false_ne_true)
  · have hmgt : (if (reactionHas 0 (oneReaction i o s.sys.chip.fc.src[i].primary)).isEmpty then chipLatched i o s.sys
        else sendMsix 32 (chipLatched i o s.sys)).chip.mgt = s.sys.chip.mgt := by
      split
      · rfl
      · obtain ⟨vs, os, h⟩ := sendMsix_eq (chipLatched i o s.sys) 32
        rw [h]
        rfl
    rw [hmild, Sys.onChip_chip, noteNmis_one, hmgt]
  · have hopen : (sendMsix 32 (chipLatched i o s.sys)).out = s.sys.out ++ [.msix s.sys.chip.hif.msix[(32 : Fin 33)].addr
        s.sys.chip.hif.msix[(32 : Fin 33)].data] := congrArg Sys.out (sendMsix_open (y := chipLatched i o s.sys) (v := 32) hm)
    rw [hmild, reactionHas_one, h0]
    exact hopen
  · rw [hmild, reactionHas_one, h0]
    rfl

/-! An escalation. -/

theorem escalate_due {k : Collector} {now w : Nat} (hs : k.src[i].status = true) (ht : k.src[i].timer = some w)
    (hdue : w + escTime k.src[i].escTimer.toNat ≤ now) : k.escalate i now =
      ({ k with src := k.src.set i { k.src[i] with
          esc := true
          timer := none
          applied := k.src[i].applied ||| k.src[i].escalated } },
        k.src[i].owners.map fun e => ⟨i, e.1, k.src[i].escalated⟩) := by
  have h : timerDue k.src[i] now = true := by
    unfold timerDue
    rw [hs, ht]
    exact decide_eq_true hdue
  exact if_pos h

theorem owners_bit {bits : BitVec 5} {bit : Nat} (h : bits.toNat.testBit bit = false) (l : List (Owner × Bool)) :
    ∀ r ∈ l.map fun e => (⟨i, e.1, bits⟩ : Reaction), r.bits.toNat.testBit bit = false := by
  intro r hr
  obtain ⟨e, -, rfl⟩ := List.mem_map.mp hr
  exact h

/-- The collector of a side after settling: the chip's as it was, the tray's with its latches. -/
theorem settled_latches (c : CollectorId) (y : Sys) : SameLatches (collectorOf c y) (collectorOf c (settleTray y)) := by
  cases c
  · exact .refl _
  · show SameLatches y.tray.fc (settleTray y).tray.fc
    rw [settleTray_fc]
    exact errFollowed_latches y

theorem collectorOf_set (c : CollectorId) (k : Collector) (y : Sys) : collectorOf c (setCollector c k y) = k := by
  cases c
  · rfl
  · rfl

theorem collectorOf_await (c : CollectorId) (n : Nat) (y : Sys) : collectorOf c (y.await n) = collectorOf c y := by
  cases c
  · exact await_fc ..
  · exact congrArg Tray.fc (await_tray ..)

theorem setCollector_now (c : CollectorId) (k : Collector) (y : Sys) : (setCollector c k y).now = y.now := by
  cases c
  · rfl
  · rfl

/-- A collector and its reactions reach the system. -/
def reactTo (c : CollectorId) (r : Collector × List Reaction) (y : Sys) : Sys :=
  match c with
  | .chip => applyReactions r.2 (setCollector .chip r.1 y)
  | .tray => trayReact r.2 (setCollector .tray r.1 y)

/-- Reactions that reset nothing leave the collectors and the time as they are. -/
theorem reactTo_keeps (c : CollectorId) {r : Collector × List Reaction} (y : Sys)
    (h2 : ∀ x ∈ r.2, x.bits.toNat.testBit 2 = false) (h3 : ∀ x ∈ r.2, x.bits.toNat.testBit 3 = false) :
    collectorOf c (reactTo c r y) = r.1 ∧ (reactTo c r y).now = y.now := by
  cases c
  · obtain ⟨hfc, hnow, -⟩ := applyReactions_mild_fields (setCollector .chip r.1 y) h2 h3
    exact ⟨hfc, hnow⟩
  · dsimp only [reactTo]
    rw [trayReact_mild _ h2]
    exact ⟨rfl, rfl⟩

theorem escalate_eq (c : CollectorId) {w : Nat} {y : Sys} (hs : (collectorOf c y).src[i].status = true)
    (ht : (collectorOf c y).src[i].timer = some w) :
    ∃ z, escalate c i y = reactTo c ((collectorOf c y).escalate i z.now) z ∧
      w + escTime (collectorOf c y).src[i].escTimer.toNat ≤ z.now := by
  refine ⟨y.await (w + escTime (collectorOf c y).src[i].escTimer.toNat), ?_, le_await _ _⟩
  unfold escalate
  simp only [hs, ht, collectorOf_await]
  cases c
  · rfl
  · rfl

theorem escalates (c : CollectorId) {w : Nat} (hs : (collectorOf c s.sys).src[i].status = true)
    (ht : (collectorOf c s.sys).src[i].timer = some w)
    (h2 : (collectorOf c s.sys).src[i].escalated.toNat.testBit 2 = false)
    (h3 : (collectorOf c s.sys).src[i].escalated.toNat.testBit 3 = false) :
    Gives (exec (.escalationTimerExpiry c i) s) fun t =>
      let x := (collectorOf c s.sys).src[i]
      let y := (collectorOf c t.sys).src[i]
      keepsMemory s t ∧ w + escTime x.escTimer.toNat ≤ t.sys.now ∧ y.esc = true ∧ y.timer = none ∧ y.status = true ∧
      y.applied = x.applied ||| x.escalated := by
  rw [exec_escalationTimerExpiry, execEscalationTimerExpiry, onBoard_eq]
  refine ⟨_, rfl, ⟨rfl, rfl⟩, ?_⟩
  dsimp only
  rw [settleTray_now]
  obtain ⟨z, hz, hdue⟩ := escalate_eq c hs ht
  have hesc := escalate_due hs ht hdue
  obtain ⟨hk, hnow⟩ := reactTo_keeps c (r := (collectorOf c s.sys).escalate i z.now) z
    (by rw [hesc]; exact owners_bit h2 _) (by rw [hesc]; exact owners_bit h3 _)
  have hlatch := settled_latches c (reactTo c ((collectorOf c s.sys).escalate i z.now) z)
  have hsrc : (collectorOf c (reactTo c ((collectorOf c s.sys).escalate i z.now) z)).src[i] =
      { (collectorOf c s.sys).src[i] with
        esc := true
        timer := none
        applied := (collectorOf c s.sys).src[i].applied ||| (collectorOf c s.sys).src[i].escalated } := by
    rw [hk, hesc]
    exact (src_set _ _ _ _).trans (if_pos rfl)
  rw [hz, hnow]
  generalize collectorOf c (settleTray (reactTo c ((collectorOf c s.sys).escalate i z.now) z)) = l at hlatch ⊢
  rw [hlatch.src, hsrc]
  exact ⟨hdue, rfl, rfl, hs, rfl⟩

/-! A latch that clears by itself. -/

theorem autoClear_quiet {k : Collector} {now : Nat} (hs : k.src[i].status = true) (hr : k.src[i].resetOnly = false)
    (hl : k.src[i].line = false) (hdue : k.src[i].lastAct + quietTime k.src[i].quiet.toNat ≤ now) : k.autoClear i now =
      { k with
        src := k.src.set i (clearLatch k.src[i])
        recov := k.recov.set i (satInc k.recov[i]) } := by
  refine if_pos ?_
  rw [hs, hr, hl]
  exact decide_eq_true hdue

theorem autoClears (c : CollectorId) (hs : (collectorOf c s.sys).src[i].status = true)
    (hr : (collectorOf c s.sys).src[i].resetOnly = false) (hl : (collectorOf c s.sys).src[i].line = false) :
    Gives (exec (.autoClear c i) s) fun t =>
      let x := (collectorOf c s.sys).src[i]
      let k := collectorOf c t.sys
      keepsMemory s t ∧ x.lastAct + quietTime x.quiet.toNat ≤ t.sys.now ∧ k.src[i].status = false ∧
      k.src[i].applied = 0 ∧ k.recov[i] = satInc (collectorOf c s.sys).recov[i] := by
  have hdue := le_await s.sys ((collectorOf c s.sys).src[i].lastAct + quietTime (collectorOf c s.sys).src[i].quiet.toNat)
  have hclear := autoClear_quiet hs hr hl hdue
  rw [exec_autoClear, execAutoClear, onBoard_eq]
  refine ⟨_, rfl, ⟨rfl, rfl⟩, ?_⟩
  unfold autoClear Sys.awaitIf
  dsimp only
  rw [hs, hr, hl, if_pos (show (true && !false && !false) = true from rfl), collectorOf_await, hclear, settleTray_now,
    setCollector_now]
  have hlatch := settled_latches c (setCollector c { collectorOf c s.sys with
    src := (collectorOf c s.sys).src.set i (clearLatch (collectorOf c s.sys).src[i])
    recov := (collectorOf c s.sys).recov.set i (satInc (collectorOf c s.sys).recov[i]) }
    (s.sys.await ((collectorOf c s.sys).src[i].lastAct + quietTime (collectorOf c s.sys).src[i].quiet.toNat)))
  rw [collectorOf_set] at hlatch
  refine ⟨hdue, ?_⟩
  generalize collectorOf c (settleTray _) = l at hlatch ⊢
  rw [hlatch.src, hlatch.recov]
  simp [clearLatch]

end Commands

/-- Settles O42. -/
theorem faultsLatchEscalateAndClear : Obligations.FaultsLatchEscalateAndClear := by
  unfold Obligations.FaultsLatchEscalateAndClear
  refine ⟨fun s i o => ⟨fun hr he hs h2 h3 => raise_latches_chip hr he hs h2 h3, fun hr he hs h2 => ?_⟩,
    fun s c i => ⟨fun w hs ht h2 h3 => escalates c hs ht h2 h3, fun hs hr hl => autoClears c hs hr hl⟩⟩
  refine ⟨_, faultLatch_tray hr he hs h2, ⟨rfl, rfl⟩, ?_, rfl⟩
  rw [State.settled_sys, settleTray_fc]
  exact (errFollowed_latches _).latched (latchedOne_latched .tray _ _ _)

end Sys2Proof.Machine
end

section
/-! PROOFS. The commands of the fault collectors' registers, of the NMIs and of the management clock (15 R398, R404, R408,
R414): what a register write makes of a collector. -/

namespace Sys2Proof.Machine

section CollectorRegisters

variable {s : State} (v : Word) (i : SourceId) (id : CollectorId) (now : Nat) (k : Collector)

/-! A register write at the collector. -/

theorem writeCollector_ack (hi : Bool) : writeCollector id (if hi then 0x0C else 0x08) v now k = k.ack hi v := by
  cases hi
  · rfl
  · rfl

theorem writeCollector_inject : writeCollector id 0x2C v now k = k.inject id v := rfl

theorem writeCollector_cfg : writeCollector id (0x100 + 4 * i.val) v now k = k.writeCfg id i now v := by
  have hlt : 0x100 + 4 * i.val < 0x200 := by omega
  have hin : (decide (0x100 ≤ 0x100 + 4 * i.val) && decide (0x100 + 4 * i.val < 0x200)) = true := by simp [hlt]
  have hi : finOf 64 ((0x100 + 4 * i.val - 0x100) / 4) = some i := by simp [finOf]
  unfold writeCollector
  rw [if_pos hin, hi]

/-- A source after a write of its configuration, and every other one. -/
theorem writeCfg_src (j : SourceId) : (k.writeCfg id i now v).src[j] =
    if j = i ∧ definedSource id i.val = true then writeCfg now (cfgWord id v) k.src[j] else k.src[j] := by
  unfold Collector.writeCfg
  split
  · rename_i h
    by_cases hj : j = i
    · subst hj
      simp [h]
    · simp only [src_set, if_neg hj, hj, false_and, if_false]
  · rename_i h
    simp [h]

theorem inject_src : (k.inject id v).src = k.src := by
  unfold Collector.inject Collector.raise
  dsimp only
  split
  · split
    · rfl
    · rfl
  · rfl

theorem natField_low (n : Nat) : natField n 0 6 = n % 64 := rfl

/-- An injection raises the source it names, where that is defined (15 R414, R416). -/
theorem inject_raised (c : Nat) (hc : c < 64) (hid : ∀ n, definedSource id n = decide (n ≤ c)) :
    (k.inject id v).raised = k.raised ++
      if h : v.toNat % 64 ≤ c then [⟨⟨v.toNat % 64, by omega⟩, .injected⟩] else [] := by
  have hlt : v.toNat % 64 < 64 := Nat.mod_lt _ (by decide)
  have hfin : finOf 64 (v.toNat % 64) = some ⟨v.toNat % 64, hlt⟩ := by simp [finOf, hlt]
  unfold Collector.inject
  dsimp only
  rw [natField_low, hid]
  by_cases h : v.toNat % 64 ≤ c
  · rw [if_pos (decide_eq_true h), dif_pos h, Collector.raise, hfin]
  · rw [if_neg (by simpa using h), dif_neg h, List.append_nil]

/-! The commands at the chip's collector. -/

theorem writeReg_fc {o : Nat} (ho : o < 0x800) (y : Sys) : writeReg (0x1000 + o) v y =
    y.onChip fun c => { c with fc := writeCollector .chip o v y.now c.fc } := by
  have h1 : ¬0x1000 + o < 0x1000 := by omega
  have h2 : 0x1000 + o < 0x2000 := by omega
  have h3 : ¬(decide (0x800 ≤ o) && decide (o < 0x900)) = true := by simp [Nat.not_le.mpr ho]
  rw [writeReg, if_neg h1, if_pos h2, Nat.add_sub_cancel_left]
  exact congrArg (fun f => y.onChip f) (funext fun c => if_neg h3)

theorem collectorWrite_chip {o : Nat} (ho : o < 0x800) (h : s.sys.chip.pwr.retention = false) :
    onBoard (collectorWrite .chip o v) s = .next (s.waked.withChip fun c =>
      { c with fc := writeCollector .chip o v s.sys.now c.fc }).settled := by
  have hr : reachable s.sys.chip = true := by simp [reachable, h]
  rw [onBoard_eq, collectorWrite, chipWrite, if_pos hr, accessWrite, writeReg_fc _ ho]
  rfl

/-- The chip's collector after a register write at it. -/
theorem collectorWrite_fc (o : Nat) : (s.waked.withChip fun c =>
    { c with fc := writeCollector .chip o v s.sys.now c.fc }).settled.sys.chip.fc =
      writeCollector .chip o v s.sys.now s.sys.chip.fc :=
  congrArg (writeCollector .chip o v s.sys.now) (wakeAccess_fc _ _)

theorem gives_fcAck_chip (h : s.sys.chip.pwr.retention = false) (hi : Bool) :
    Gives (exec (.fcAck .chip hi v) s) fun t => keepsMemory s t ∧ t.sys.out = s.sys.out ∧
      t.sys.chip.fc = s.sys.chip.fc.ack hi v := by
  have ho : (if hi then 0x0C else 0x08) < 0x800 := by cases hi <;> decide
  rw [exec_fcAck, execFcAck, collectorWrite_chip v ho h]
  refine ⟨_, rfl, ⟨rfl, rfl⟩, rfl, ?_⟩
  rw [collectorWrite_fc, writeCollector_ack]

theorem gives_fcInject_chip (h : s.sys.chip.pwr.retention = false) :
    Gives (exec (.fcInject .chip v) s) fun t => keepsMemory s t ∧ t.sys.chip.fc = s.sys.chip.fc.inject .chip v := by
  rw [exec_fcInject, execFcInject, collectorWrite_chip v (by decide) h]
  refine ⟨_, rfl, ⟨rfl, rfl⟩, ?_⟩
  rw [collectorWrite_fc, writeCollector_inject]

theorem gives_fcSrcCfgWrite_chip (h : s.sys.chip.pwr.retention = false) :
    Gives (exec (.fcSrcCfgWrite .chip i v) s) fun t => keepsMemory s t ∧
      t.sys.chip.fc = s.sys.chip.fc.writeCfg .chip i s.sys.now v := by
  rw [exec_fcSrcCfgWrite, execFcSrcCfgWrite, collectorWrite_chip v (by omega) h]
  refine ⟨_, rfl, ⟨rfl, rfl⟩, ?_⟩
  rw [collectorWrite_fc, writeCollector_cfg]

/-! The commands at the tray's collector. -/

theorem writeBoard_fc {o : Nat} (ho : o < 0x300) (hack : (o == 0x08 || o == 0x0C) = false ∨ s.sys.tray.card.running = true) :
    writeBoard (0x1000 + o) v s.sys = s.sys.onTray fun t => { t with fc := writeCollector .tray o v s.sys.now t.fc } := by
  have h1 : ¬0x1000 + o < 0x1000 := by omega
  have h2 : ¬((0x1000 + o == 0x1008 || 0x1000 + o == 0x100C) && !s.sys.tray.card.running) = true := by
    rcases hack with h | h
    · simp only [Bool.or_eq_false_iff, beq_eq_false_iff_ne] at h
      simp
      omega
    · simp [h]
  have h3 : 0x1000 + o < 0x1300 := by omega
  rw [writeBoard, if_neg h1, if_neg h2, if_pos h3, Nat.add_sub_cancel_left]

theorem writeBoard_noAck {hi : Bool} (h : s.sys.tray.card.running = false) :
    writeBoard (0x1000 + if hi then 0x0C else 0x08) v s.sys = s.sys := by
  cases hi
  · simp [writeBoard, h]
  · simp [writeBoard, h]

theorem collectorWrite_tray {o : Nat} (ho : o < 0x300)
    (hack : (o == 0x08 || o == 0x0C) = false ∨ s.sys.tray.card.running = true) :
    onBoard (collectorWrite .tray o v) s = .next (s.withTray fun t =>
      { t with fc := writeCollector .tray o v s.sys.now t.fc }).settled := by
  rw [onBoard_eq, collectorWrite, writeBoard_fc v ho hack]
  rfl

/-- The tray's collector after a register write at it: what the write makes of its latches, and no raise lost. -/
theorem gives_collectorWrite_tray {o : Nat} (ho : o < 0x300)
    (hack : (o == 0x08 || o == 0x0C) = false ∨ s.sys.tray.card.running = true) :
    Gives (onBoard (collectorWrite .tray o v) s) fun t => keepsMemory s t ∧
      SameLatches (writeCollector .tray o v s.sys.now s.sys.tray.fc) t.sys.tray.fc := by
  rw [collectorWrite_tray v ho hack]
  refine ⟨_, rfl, ⟨rfl, rfl⟩, ?_⟩
  rw [State.settled_sys, settleTray_fc]
  exact errFollowed_latches (s.sys.onTray fun t => { t with fc := writeCollector .tray o v s.sys.now t.fc })

/-- Clearing or settling a latch leaves the configuration of its source. -/
theorem settled_cfg (b : Bool) (x : Source) : (if b then clearLatch x else settle x).enable = x.enable ∧
    (if b then clearLatch x else settle x).primary = x.primary := by
  cases b
  · rw [if_neg Bool.false_ne_true, settle]
    generalize (x.status && x.resetOnly && x.acked && x.owners.all fun e => e.2) = b
    cases b
    · exact ⟨rfl, rfl⟩
    · exact ⟨rfl, rfl⟩
  · exact ⟨rfl, rfl⟩

/-- What a configuration write leaves in ENABLE and PRIMARY. -/
theorem writeCfg_fields (x : Source) : (writeCfg now v x).enable = v.toNat.testBit 31 ∧
    (writeCfg now v x).primary = BitVec.ofNat 5 (natField v.toNat 0 5) := by
  exact settled_cfg _ _

/-- Bit 4 of a tray source's reactions is reserved (15 Table 15-5). -/
theorem cfgWord_tray : (cfgWord .tray v).toNat.testBit 31 = v.toNat.testBit 31 ∧
    natField (cfgWord .tray v).toNat 0 5 = v.toNat % 16 := by
  refine ⟨?_, ?_⟩
  · show (v &&& ~~~0x1010).getLsbD 31 = v.getLsbD 31
    simp
  · have h : ((v &&& ~~~0x1010 : Word).extractLsb' 0 5) = (v.extractLsb' 0 4).setWidth 5 := by
      ext j hj
      interval_cases j <;> simp
    have h' := congrArg BitVec.toNat h
    have hmod : v.toNat % 16 % 32 = v.toNat % 16 := by omega
    simpa [natField, cfgWord, BitVec.extractLsb'_toNat, hmod] using h'

end CollectorRegisters

section Management

variable {s : State}

/-! NMIs, the CSC and the clock. -/

theorem nmi_lowest {w : Dword} {i : SourceId} (hi : w.toNat.testBit i.val = true)
    (hlow : ∀ j : SourceId, j.val < i.val → w.toNat.testBit j.val = false) :
    ((List.finRange 64).find? fun j => w.toNat.testBit j.val) = some i := by
  rw [List.find?_eq_some_iff_getElem]
  refine ⟨hi, i.val, by simp, by simp, fun j hj => ?_⟩
  have hj64 : j < 64 := by omega
  simpa using hlow ⟨j, hj64⟩ hj

theorem gives_nmiDelivery {i : SourceId} (hrun : cscRuns s.sys.chip = true)
    (hi : s.sys.chip.mgt.nmiWaiting.toNat.testBit i.val = true)
    (hlow : ∀ j : SourceId, j.val < i.val → s.sys.chip.mgt.nmiWaiting.toNat.testBit j.val = false) :
    Gives (exec .nmiDelivery s) fun t =>
      let m := s.sys.chip.mgt
      onlyChip s t ∧ t.sys.chip.mgt.nmiWaiting = m.nmiWaiting &&& ~~~(BitVec.ofNat 64 (2 ^ i.val)) ∧
      (m.nmiLog.length < 8 → t.sys.chip.mgt.nmiLog = m.nmiLog ++ [i]) ∧
      (8 ≤ m.nmiLog.length → t.sys.chip.mgt.nmiLog = m.nmiLog ∧ t.sys.chip.mgt.nmiLost = satInc m.nmiLost) := by
  have hdeliver : deliverNmi s.sys.chip = { s.sys.chip with
      mgt := if s.sys.chip.mgt.nmiLog.length < 8 then { s.sys.chip.mgt with
          nmiWaiting := s.sys.chip.mgt.nmiWaiting &&& ~~~(BitVec.ofNat 64 (2 ^ i.val))
          nmiLog := s.sys.chip.mgt.nmiLog ++ [i] }
        else { s.sys.chip.mgt with
          nmiWaiting := s.sys.chip.mgt.nmiWaiting &&& ~~~(BitVec.ofNat 64 (2 ^ i.val))
          nmiLost := satInc s.sys.chip.mgt.nmiLost } } := by
    simp only [deliverNmi, hrun, nmi_lowest hi hlow]
    rfl
  rw [exec_nmiDelivery, execNmiDelivery, onChip_eq]
  refine ⟨_, rfl, rfl, ?_⟩
  rw [State.withChip_sys, Sys.onChip_chip, hdeliver]
  dsimp only
  split
  · rename_i h
    exact ⟨rfl, fun _ => rfl, fun h8 => absurd h (Nat.not_lt.mpr h8)⟩
  · rename_i h
    exact ⟨rfl, fun h8 => absurd h8 h, fun _ => ⟨rfl, rfl⟩⟩

theorem chipWrite_mgt (o : Nat) (ho : o < 0x1000) (v : Word) (h : s.sys.chip.pwr.retention = false) :
    onBoard (chipWrite (0xF000 + o) v) s = .next (s.waked.withChip (writeMgt o v)).settled := by
  have hr : reachable s.sys.chip = true := by simp [reachable, h]
  have hreg : ∀ y, writeReg (0xF000 + o) v y = y.onChip (writeMgt o v) := by
    intro y
    unfold writeReg
    rw [if_neg (by omega), if_neg (by omega), if_neg (by omega), if_neg (by omega), if_neg (by omega),
      if_neg (by simp; omega), if_neg (by simp; omega), if_neg (by simp; omega), if_pos (by simp; omega),
      Nat.add_sub_cancel_left]
  rw [onBoard_eq, chipWrite, if_pos hr, accessWrite, hreg]
  rfl

theorem nmiPop_next (h : s.sys.chip.pwr.retention = false) : exec .nmiPop s = .next (s.waked.withChip fun c =>
    { c with mgt := { c.mgt with nmiLog := c.mgt.nmiLog.drop 1 } }).settled := by
  rw [exec_nmiPop, execNmiPop]
  exact chipWrite_mgt 0x018 (by decide) 1 h

theorem crcStart_busy (h : s.sys.chip.pwr.retention = false) (hb : s.sys.chip.mgt.crcBusy = true) :
    exec .crcStart s = .next s.waked.settled := by
  have hb' : (wakeAccess s.sys.now s.sys.chip).mgt.crcBusy = true := by rw [wakeAccess_mgt, hb]
  have hsame : writeMgt 0x800 1 (wakeAccess s.sys.now s.sys.chip) = wakeAccess s.sys.now s.sys.chip := by
    have hstart : crcStart (wakeAccess s.sys.now s.sys.chip).cmp.cycles (wakeAccess s.sys.now s.sys.chip).mgt =
        (wakeAccess s.sys.now s.sys.chip).mgt := if_pos hb'
    show { wakeAccess s.sys.now s.sys.chip with
      mgt := crcStart (wakeAccess s.sys.now s.sys.chip).cmp.cycles (wakeAccess s.sys.now s.sys.chip).mgt } = _
    rw [hstart]
  have hchip : s.waked.withChip (writeMgt 0x800 1) = s.waked :=
    congrArg (fun c => ({ s with sys := { s.sys with chip := c } } : State)) hsame
  rw [exec_crcStart, execCrcStart, chipWrite_mgt 0x800 (by decide) 1 h, hchip]

theorem crcStart_idle (h : s.sys.chip.pwr.retention = false) (hb : s.sys.chip.mgt.crcBusy = false) :
    exec .crcStart s = .next (s.waked.withChip fun c => { c with mgt := { c.mgt with
      crcBusy := true
      crcDone := false
      crcAt := c.cmp.cycles
      crcLine := 0
      crcAcc := 2 ^ 64 - 1
      crcBad := false } }).settled := by
  have hb' : ¬(wakeAccess s.sys.now s.sys.chip).mgt.crcBusy = true := by
    rw [wakeAccess_mgt, hb]
    exact Bool.false_ne_true
  have hstart : writeMgt 0x800 1 (wakeAccess s.sys.now s.sys.chip) = { wakeAccess s.sys.now s.sys.chip with
      mgt := { (wakeAccess s.sys.now s.sys.chip).mgt with
        crcBusy := true
        crcDone := false
        crcAt := (wakeAccess s.sys.now s.sys.chip).cmp.cycles
        crcLine := 0
        crcAcc := 2 ^ 64 - 1
        crcBad := false } } :=
    congrArg (fun m => { wakeAccess s.sys.now s.sys.chip with mgt := m }) (if_neg hb')
  rw [exec_crcStart, execCrcStart, chipWrite_mgt 0x800 (by decide) 1 h]
  exact congrArg (fun c => (.next ({ s with sys := { s.sys with chip := c } } : State).settled : Result)) hstart

end Management

end Sys2Proof.Machine
end

section
/-! PROOFS. The CRC engine (14 R388 to R390): what its reads leave of the chip, what it has read of search memory, and its end
(O44). -/

namespace Sys2Proof.Machine

section Time

variable (n : Nat) (y : Sys)

/-- While the core clock runs, waiting for a core cycle reaches it. -/
theorem le_awaitCycle (h : coreRuns y.chip = true) : n ≤ (y.awaitCycle n).chip.cmp.cycles := by
  by_cases hn : n ≤ y.chip.cmp.cycles
  · rw [awaitCycle_of_le y n hn]
    exact hn
  · have hd : n - y.chip.cmp.cycles ≠ 0 := by omega
    have hgo : (coreRuns y.chip && n - y.chip.cmp.cycles != 0) = true := by
      rw [h, bne_iff_ne.mpr hd]
      rfl
    have hp : 0 < corePeriod y.chip.pwr.point := by
      unfold corePeriod
      split <;> decide
    unfold Sys.awaitCycle Sys.awaitCores Sys.awaitIf
    dsimp only
    rw [if_pos hgo]
    generalize hq : corePeriod y.chip.pwr.point = q at hp
    generalize hdd : n - y.chip.cmp.cycles = d at hd
    have hdiv : y.now % q + q * (y.now / q) = y.now := by rw [Nat.mod_add_div]
    have hmod := Nat.mod_lt y.now hp
    have hlater : ¬(y.now / q + d) * q ≤ y.now := by
      have : (y.now / q + d) * q = q * (y.now / q) + d * q := by ring
      have hdq : q ≤ d * q := Nat.le_mul_of_pos_left q (Nat.pos_of_ne_zero hd)
      omega
    unfold Sys.await
    rw [if_neg hlater]
    dsimp only
    have hcyc : (traceHeld (coreEdges y.chip y.now (y.now + 12 * (((y.now / q + d) * q - y.now + 11) / 12)))
        (passTicks (((y.now / q + d) * q - y.now + 11) / 12) y.chip)).cmp.cycles = y.chip.cmp.cycles := by
      obtain ⟨time, ht⟩ := passTicks_eq (((y.now / q + d) * q - y.now + 11) / 12) y.chip
      obtain ⟨tr, full, hc⟩ := traceHeld_eq (coreEdges y.chip y.now (y.now + 12 * (((y.now / q + d) * q - y.now + 11) / 12)))
        (passTicks (((y.now / q + d) * q - y.now + 11) / 12) y.chip)
      rw [hc, ht]
    rw [hcyc]
    have hedges : d ≤ coreEdges y.chip y.now (y.now + 12 * (((y.now / q + d) * q - y.now + 11) / 12)) := by
      unfold coreEdges
      rw [if_pos h, hq]
      have hreach : (y.now / q + d) * q ≤ y.now + 12 * (((y.now / q + d) * q - y.now + 11) / 12) := by omega
      have hge : y.now / q + d ≤ (y.now + 12 * (((y.now / q + d) * q - y.now + 11) / 12)) / q :=
        (Nat.le_div_iff_mul_le hp).mpr hreach
      omega
    omega

end Time

section Reads

variable {m : List Host.Cell} {y : Sys} {c d e : Chip}

/-! What reading leaves of the chip: the tiles but for the record of their ports, and the count of core cycles. -/

structure SameTiles (c d : Chip) : Prop where
  tile : ∀ p, d.tile p = { c.tile p with use := (d.tile p).use }
  cycles : d.cmp.cycles = c.cmp.cycles

theorem SameTiles.of_cmp (h : d.cmp = c.cmp) : SameTiles c d :=
  ⟨fun p => by unfold Chip.tile; rw [h], by rw [h]⟩

theorem SameTiles.trans (h : SameTiles c d) (h' : SameTiles d e) : SameTiles c e :=
  ⟨fun p => by rw [h'.tile, h.tile], h'.cycles.trans h.cycles⟩

theorem readEffect_cmp (o : Nat) (c : Chip) : (readEffect o c).cmp = c.cmp := by
  unfold readEffect
  split_ifs
  · rfl
  · rfl
  · rfl
  · rfl
  · split
    · rfl
    · rfl
  · rfl

theorem readRegs_cmp (k : Nat) : ∀ (o : Nat) (y : Sys), (readRegs o k y).2.chip.cmp = y.chip.cmp := by
  induction k with
  | zero => exact fun o y => rfl
  | succ k ih =>
    intro o y
    have h := ih (o + 4) (accessRead o y).2
    have heff : (accessRead o y).2.chip.cmp = y.chip.cmp := by
      show (readEffect o (wakeAccess y.now y.chip)).cmp = y.chip.cmp
      rw [readEffect_cmp, wakeAccess_cmp]
    exact h.trans heff

theorem usePorts_tiles (p : Fin 320) (o : Nat) (y : Sys) : SameTiles y.chip (usePorts p o y).chip := by
  refine ⟨fun q => ?_, rfl⟩
  by_cases hq : q = p
  · subst hq
    simp only [usePorts, Sys.onChip_chip, tile_onTile_self]
  · have hne : p.val ≠ q.val := fun h => hq (Fin.ext h.symm)
    simp [usePorts, Chip.onTile, Chip.tile, hne]

theorem readIn_tiles (n : Nat) (y : Sys) (r : Region) : SameTiles y.chip (readIn m n y r).2.2.chip := by
  cases r with
  | tile v o =>
    show SameTiles y.chip (readTile m v o n y).2.2.chip
    unfold readTile
    split
    · exact .of_cmp rfl
    · exact (usePorts_tiles _ _ y).trans (.of_cmp (eccReport_cmp ..))
  | regs o => exact .of_cmp (readRegs_cmp ..)
  | search o =>
    show SameTiles y.chip (readSearchMem m o n y).2.2.chip
    unfold readSearchMem
    dsimp only
    split_ifs
    · exact .of_cmp rfl
    · exact .of_cmp rfl
    · exact .of_cmp rfl
  | reserved => exact .of_cmp rfl

/-- The engine takes what a read has brought. -/
def crcTake (g : Mgt) (r : Nat × List Byte × Sys) : Sys :=
  r.2.2.onChip fun c => { c with mgt := { c.mgt with
    crcLine := g.crcLine + 1
    crcAcc := crc64On g.crcAcc r.2.1
    crcBad := g.crcBad || r.1 == 4 } }

theorem crcStep_eq (m : List Host.Cell) (y : Sys) : crcStep m y = crcTake y.chip.mgt (readPiece m
    (linePiece y.chip.mgt.crcBase.toNat y.chip.mgt.crcLen.toNat y.chip.mgt.crcLine).1
    (linePiece y.chip.mgt.crcBase.toNat y.chip.mgt.crcLen.toNat y.chip.mgt.crcLine).2 y) := rfl

theorem crcTake_tiles {g : Mgt} {r : Nat × List Byte × Sys} (h : SameTiles c r.2.2.chip) :
    SameTiles c (crcTake g r).chip := h.trans (.of_cmp rfl)

theorem crcStep_tiles (m : List Host.Cell) (y : Sys) : SameTiles y.chip (crcStep m y).chip := by
  rw [crcStep_eq, readPiece_eq]
  exact crcTake_tiles (readIn_tiles ..)

theorem crcSteps_tiles (m : List Host.Cell) (k : Nat) : ∀ y : Sys, SameTiles y.chip (crcSteps m k y).chip := by
  induction k with
  | zero => exact fun y => .of_cmp rfl
  | succ k ih =>
    intro y
    unfold crcSteps
    exact (crcStep_tiles m y).trans (ih (crcStep m y))

theorem crcReadTo_tiles (m : List Host.Cell) (k : Nat) (y : Sys) : SameTiles y.chip (crcReadTo m k y).chip := by
  unfold crcReadTo
  split
  · exact crcSteps_tiles ..
  · exact .of_cmp rfl

/-! The bytes of search memory that the engine has taken. -/

theorem crc64On_append (a : Nat) (xs ys : List Byte) : crc64On (crc64On a xs) ys = crc64On a (xs ++ ys) :=
  List.foldl_append.symm

/-- The engine's registers once it has read its region up to line k. -/
def crcAfter (m : List Host.Cell) (k : Nat) (g : Mgt) : Mgt := { g with
  crcLine := k
  crcAcc := crc64On g.crcAcc (Memory.read m (g.crcBase.toNat + covered g.crcBase.toNat g.crcLen.toNat g.crcLine)
    (covered g.crcBase.toNat g.crcLen.toNat k - covered g.crcBase.toNat g.crcLen.toNat g.crcLine)) }

/-- A check whose region is search memory, which is on and without marks. -/
structure CrcSearch (y : Sys) : Prop where
  region : ∃ o, regionOf y.chip.map.vc y.chip.mgt.crcBase.toNat = .search o
  last : y.chip.mgt.crcBase.toNat + y.chip.mgt.crcLen.toNat - 1 < 0x70800000
  pos : 0 < y.chip.mgt.crcLen.toNat
  on : y.chip.domOn bitSrch = true
  clean : y.ecc = []

/-- The engine has read its region up to line k. -/
def crcReadUp (m : List Host.Cell) (k : Nat) (y : Sys) : Sys :=
  y.onChip fun c => { c with mgt := crcAfter m k c.mgt }

theorem crcStep_search (h : CrcSearch y) (hk : y.chip.mgt.crcLine < crcLines y.chip.mgt) :
    crcStep m y = crcReadUp m (y.chip.mgt.crcLine + 1) y := by
  obtain ⟨o, hr⟩ := h.region
  obtain ⟨hpiece, hmono, hbelow, -⟩ := linePiece_eq (off := y.chip.mgt.crcBase.toNat) (n := y.chip.mgt.crcLen.toNat)
    (k := y.chip.mgt.crcLine) (by unfold crcLines at hk; have := h.pos; omega) h.pos
  obtain ⟨o', hr', haddr⟩ := search_above (x := y.chip.mgt.crcBase.toNat +
    covered y.chip.mgt.crcBase.toNat y.chip.mgt.crcLen.toNat y.chip.mgt.crcLine) hr (Nat.le_add_right ..)
    (lt_of_le_of_lt hbelow h.last)
  rw [crcStep_eq, hpiece, readPiece_search _ hr' haddr h.on h.clean]
  unfold crcTake crcReadUp crcAfter
  simp only [Sys.onChip, Bool.or_false, show ((0 : Nat) == 4) = false from rfl]

theorem covered_mono (off n : Nat) {j k : Nat} (h : j ≤ k) : covered off n j ≤ covered off n k := by
  unfold covered
  omega

theorem CrcSearch.after (h : CrcSearch y) (k : Nat) :
    CrcSearch (crcReadUp m k y) :=
  ⟨h.region, h.last, h.pos, h.on, h.clean⟩

/-- Reading on from where the engine is. -/
theorem crcAfter_after (m : List Host.Cell) (g : Mgt) {j k : Nat} (hj : g.crcLine ≤ j) (hk : j ≤ k) :
    crcAfter m k (crcAfter m j g) = crcAfter m k g := by
  have h1 := covered_mono g.crcBase.toNat g.crcLen.toNat hj
  have h2 := covered_mono g.crcBase.toNat g.crcLen.toNat hk
  have hadd := Memory.read_add m (g.crcBase.toNat + covered g.crcBase.toNat g.crcLen.toNat g.crcLine)
    (covered g.crcBase.toNat g.crcLen.toNat j - covered g.crcBase.toNat g.crcLen.toNat g.crcLine)
    (covered g.crcBase.toNat g.crcLen.toNat k - covered g.crcBase.toNat g.crcLen.toNat j)
  unfold crcAfter
  dsimp only
  rw [crc64On_append]
  generalize covered g.crcBase.toNat g.crcLen.toNat j = a at h1 h2 hadd ⊢
  generalize covered g.crcBase.toNat g.crcLen.toNat k = b at h1 h2 hadd ⊢
  generalize covered g.crcBase.toNat g.crcLen.toNat g.crcLine = e at h1 h2 hadd ⊢
  rw [show g.crcBase.toNat + e + (a - e) = g.crcBase.toNat + a by omega, show a - e + (b - a) = b - e by omega] at hadd
  rw [← hadd]

theorem crcAfter_self (m : List Host.Cell) (g : Mgt) : crcAfter m g.crcLine g = g := by
  unfold crcAfter
  rw [Nat.sub_self]
  rfl

theorem crcReadUp_self (m : List Host.Cell) (y : Sys) : crcReadUp m y.chip.mgt.crcLine y = y := by
  have hself := crcAfter_self m y.chip.mgt
  unfold crcReadUp Sys.onChip
  dsimp only
  rw [hself]

theorem crcReadUp_up (m : List Host.Cell) (y : Sys) {j k : Nat} (hj : y.chip.mgt.crcLine ≤ j) (hk : j ≤ k) :
    crcReadUp m k (crcReadUp m j y) = crcReadUp m k y := by
  have hafter := crcAfter_after m y.chip.mgt hj hk
  unfold crcReadUp Sys.onChip
  dsimp only
  rw [hafter]

theorem crcSteps_search (k : Nat) : ∀ {y : Sys}, CrcSearch y → y.chip.mgt.crcLine + k ≤ crcLines y.chip.mgt →
    crcSteps m k y = crcReadUp m (y.chip.mgt.crcLine + k) y := by
  induction k with
  | zero =>
    intro y h hk
    unfold crcSteps
    exact (crcReadUp_self m y).symm
  | succ k ih =>
    intro y h hk
    have hline : (crcReadUp m (y.chip.mgt.crcLine + 1) y).chip.mgt.crcLine = y.chip.mgt.crcLine + 1 := rfl
    have hlines : crcLines (crcReadUp m (y.chip.mgt.crcLine + 1) y).chip.mgt = crcLines y.chip.mgt := rfl
    unfold crcSteps
    rw [crcStep_search (m := m) h (by omega), ih (h.after _) (by rw [hline, hlines]; omega), hline,
      crcReadUp_up m y (Nat.le_add_right ..) (Nat.le_add_right ..), Nat.add_right_comm, Nat.add_assoc]

/-- What the engine has taken once it has read all of its region, from what it has read. -/
theorem crcAfter_last {g : Mgt} (hpos : 0 < g.crcLen.toNat) (hacc : g.crcAcc = crc64On (2 ^ 64 - 1)
    (Memory.read m g.crcBase.toNat (covered g.crcBase.toNat g.crcLen.toNat g.crcLine))) {k : Nat} (hk : g.crcLine ≤ k)
    (hlast : crcLines g ≤ k) : (crcAfter m k g).crcAcc = crc64On (2 ^ 64 - 1) (Memory.read m g.crcBase.toNat g.crcLen.toNat) := by
  have hmono := covered_mono g.crcBase.toNat g.crcLen.toNat hk
  have hall : covered g.crcBase.toNat g.crcLen.toNat k = g.crcLen.toNat := by
    unfold crcLines at hlast
    unfold covered
    omega
  unfold crcAfter
  dsimp only
  rw [hall] at hmono
  rw [hacc, crc64On_append, hall, ← Memory.read_add, Nat.add_sub_cancel' hmono]

end Reads

section End

variable {s : State} {m : List Host.Cell} {y : Sys}

/-! The end of a check. -/

/-- The check ends with a status. -/
def crcStop (status : Nat) (y : Sys) : Sys := y.onChip fun c => { c with mgt := { c.mgt with
  crcBusy := false
  crcDone := true
  crcStatus := BitVec.ofNat 3 status } }

/-- The end of a check that has read its region. -/
def crcConclude (want : Dword) (y : Sys) : Sys :=
  let crc := y.chip.mgt.crcAcc ^^^ (2 ^ 64 - 1)
  let status := if y.chip.mgt.crcBad then 4 else if crc == want.toNat then 0 else 1
  let z := (crcStop status y).onChip fun c => { c with mgt := { c.mgt with crcVal := BitVec.ofNat 64 crc } }
  if status == 0 then z else z.onChip fun c => c.raise 51 .crc

theorem crcFinish_eq (m : List Host.Cell) (y : Sys) : crcFinish m y =
    if !crcRegionOk y.chip.map.vc y.chip.mgt.crcBase.toNat y.chip.mgt.crcLen.toNat then crcStop 2 y
    else if rangeStatus y.chip y.chip.mgt.crcBase.toNat y.chip.mgt.crcLen.toNat == 15 then crcStop 3 y
    else crcConclude y.chip.mgt.crcExp (crcReadTo m (crcLines y.chip.mgt) y) := by
  unfold crcFinish crcConclude
  rfl

theorem crcConclude_mgt (want : Dword) (y : Sys) : (crcConclude want y).chip.mgt = { y.chip.mgt with
    crcBusy := false
    crcDone := true
    crcStatus := BitVec.ofNat 3 (if y.chip.mgt.crcBad then 4 else
      if y.chip.mgt.crcAcc ^^^ (2 ^ 64 - 1) == want.toNat then 0 else 1)
    crcVal := BitVec.ofNat 64 (y.chip.mgt.crcAcc ^^^ (2 ^ 64 - 1)) } ∧ (crcConclude want y).chip.cmp = y.chip.cmp := by
  unfold crcConclude
  dsimp only
  generalize (if y.chip.mgt.crcBad then 4 else if y.chip.mgt.crcAcc ^^^ (2 ^ 64 - 1) == want.toNat then 0 else 1) = status
  split
  · exact ⟨rfl, rfl⟩
  · exact ⟨rfl, rfl⟩

theorem crcFinish_ends (m : List Host.Cell) (y : Sys) : SameTiles y.chip (crcFinish m y).chip ∧
    (crcFinish m y).chip.mgt.crcBusy = false ∧ (crcFinish m y).chip.mgt.crcDone = true := by
  rw [crcFinish_eq]
  generalize crcRegionOk _ _ _ = ok
  generalize rangeStatus _ _ _ = st
  split
  · exact ⟨.of_cmp rfl, rfl, rfl⟩
  · split
    · exact ⟨.of_cmp rfl, rfl, rfl⟩
    · obtain ⟨hmgt, hcmp⟩ := crcConclude_mgt y.chip.mgt.crcExp (crcReadTo m (crcLines y.chip.mgt) y)
      rw [hmgt]
      exact ⟨(crcReadTo_tiles m _ y).trans (.of_cmp hcmp), rfl, rfl⟩

theorem crcFinish_bad (h : crcRegionOk y.chip.map.vc y.chip.mgt.crcBase.toNat y.chip.mgt.crcLen.toNat = false) :
    (crcFinish m y).chip.mgt.crcStatus = 2 := by
  rw [crcFinish_eq, h, if_pos (show (!false) = true from rfl)]
  rfl

/-- A region that the engine accepts from search memory is not empty and ends in search memory. -/
theorem crcRegion_search {vc base len o : Nat} (hok : crcRegionOk vc base len = true) (hr : regionOf vc base = .search o) :
    0 < len ∧ ∃ o', regionOf vc (base + len - 1) = .search o' := by
  unfold crcRegionOk at hok
  rw [hr] at hok
  simp only [Bool.and_eq_true, bne_iff_ne] at hok
  obtain ⟨⟨-, hlen⟩, hlast⟩ := hok
  refine ⟨Nat.pos_of_ne_zero hlen, ?_⟩
  generalize regionOf vc (base + len - 1) = r at hlast ⊢
  cases r with
  | tile v o => cases hlast
  | regs o => cases hlast
  | search o => exact ⟨o, rfl⟩
  | reserved => cases hlast

theorem rangeStatus_of_search {c : Chip} {base len o o' : Nat} (hr : regionOf c.map.vc base = .search o)
    (hlast : regionOf c.map.vc (base + len - 1) = .search o') :
    rangeStatus c base len = if c.domOn bitSrch then 0 else 15 := by
  unfold rangeStatus
  rw [hr, hlast]
  exact if_neg Bool.false_ne_true

theorem crcFinish_off {o : Nat} (hok : crcRegionOk y.chip.map.vc y.chip.mgt.crcBase.toNat y.chip.mgt.crcLen.toNat = true)
    (hr : regionOf y.chip.map.vc y.chip.mgt.crcBase.toNat = .search o) (hoff : y.chip.domOn bitSrch = false) :
    (crcFinish m y).chip.mgt.crcStatus = 3 := by
  obtain ⟨-, o', hlast⟩ := crcRegion_search hok hr
  rw [crcFinish_eq, hok, rangeStatus_of_search hr hlast, hoff]
  rfl

theorem crcFinish_search {o : Nat} (hok : crcRegionOk y.chip.map.vc y.chip.mgt.crcBase.toNat y.chip.mgt.crcLen.toNat = true)
    (hr : regionOf y.chip.map.vc y.chip.mgt.crcBase.toNat = .search o) (hon : y.chip.domOn bitSrch = true)
    (hecc : y.ecc = []) (hgood : y.chip.mgt.crcBad = false) (hacc : y.chip.mgt.crcAcc = crc64On (2 ^ 64 - 1)
      (Memory.read m y.chip.mgt.crcBase.toNat (covered y.chip.mgt.crcBase.toNat y.chip.mgt.crcLen.toNat y.chip.mgt.crcLine))) :
    let crc := crc64 (Memory.read m y.chip.mgt.crcBase.toNat y.chip.mgt.crcLen.toNat)
    (crcFinish m y).chip.mgt.crcVal = BitVec.ofNat 64 crc ∧
    (crcFinish m y).chip.mgt.crcStatus = if crc = y.chip.mgt.crcExp.toNat then 0 else 1 := by
  obtain ⟨hpos, o', hlast⟩ := crcRegion_search hok hr
  have hsearch : CrcSearch y := ⟨⟨o, hr⟩, (search_bounds hlast).2.2.1, hpos, hon, hecc⟩
  have hrange := rangeStatus_of_search hr hlast
  rw [hon, if_pos rfl] at hrange
  have hreads : crcReads y.chip = true := by
    rw [crcReads, hok, hrange]
    rfl
  have hread : crcReadTo m (crcLines y.chip.mgt) y =
      crcReadUp m (max y.chip.mgt.crcLine (crcLines y.chip.mgt)) y := by
    rw [crcReadTo, if_pos hreads]
    rcases Nat.le_total y.chip.mgt.crcLine (crcLines y.chip.mgt) with hle | hle
    · rw [crcSteps_search _ hsearch (by omega), Nat.add_sub_cancel' hle, Nat.max_eq_right hle]
    · rw [Nat.sub_eq_zero_of_le hle, Nat.max_eq_left hle, crcReadUp_self]
      unfold crcSteps
      rfl
  have hfinal := crcAfter_last (m := m) hpos hacc (Nat.le_max_left _ (crcLines y.chip.mgt)) (Nat.le_max_right _ _)
  have hbad : (crcReadUp m (max y.chip.mgt.crcLine (crcLines y.chip.mgt)) y).chip.mgt.crcBad = false := hgood
  have htaken : (crcReadUp m (max y.chip.mgt.crcLine (crcLines y.chip.mgt)) y).chip.mgt.crcAcc =
      crc64On (2 ^ 64 - 1) (Memory.read m y.chip.mgt.crcBase.toNat y.chip.mgt.crcLen.toNat) := hfinal
  have hfinish : crcFinish m y = crcConclude y.chip.mgt.crcExp
      (crcReadUp m (max y.chip.mgt.crcLine (crcLines y.chip.mgt)) y) := by
    rw [crcFinish_eq, hok, hrange, ← hread]
    exact (if_neg Bool.false_ne_true).trans (if_neg Bool.false_ne_true)
  intro crc
  have hcrc : crc64On (2 ^ 64 - 1) (Memory.read m y.chip.mgt.crcBase.toNat y.chip.mgt.crcLen.toNat) ^^^ (2 ^ 64 - 1) = crc := rfl
  rw [hfinish, (crcConclude_mgt _ _).1]
  dsimp only
  rw [hbad, htaken, hcrc]
  refine ⟨rfl, ?_⟩
  by_cases h : crc = y.chip.mgt.crcExp.toNat
  · rw [if_pos h, beq_iff_eq.mpr h]
    rfl
  · rw [if_neg h, beq_eq_false_iff_ne.mpr h]
    rfl

end End

end Sys2Proof.Machine
end

section
/-! PROOFS. Collector registers, NMIs, the management clock and the CRC engine (O44). -/

namespace Sys2Proof.Machine

section Crc

variable {s : State}

/-- The cycle in which a check may end. -/
def crcDue (g : Mgt) : Nat := g.crcAt + crcLines g + 8

theorem crcDone_stays (h : ¬(s.sys.chip.mgt.crcBusy && (!s.sys.chip.map.run ||
    decide (crcDue s.sys.chip.mgt ≤ s.sys.chip.cmp.cycles))) = true) : exec .crcDone s = .next s := by
  rw [exec_crcDone, execCrcDone]
  exact congrArg (fun y => (.next { s with sys := y } : Result)) (if_neg h)

theorem crcDone_ends (hb : s.sys.chip.mgt.crcBusy = true)
    (hrun : s.sys.chip.map.run = true → crcDue s.sys.chip.mgt ≤ s.sys.chip.cmp.cycles) : exec .crcDone s = .next { s with
      sys := settleTray (crcFinish s.mem (s.sys.awaitCycle (crcDue s.sys.chip.mgt))) } := by
  have h : (s.sys.chip.mgt.crcBusy && (!s.sys.chip.map.run ||
      decide (crcDue s.sys.chip.mgt ≤ s.sys.chip.cmp.cycles))) = true := by
    rw [hb, Bool.true_and, Bool.or_eq_true, decide_eq_true_eq]
    cases hr : s.sys.chip.map.run
    · exact Or.inl rfl
    · exact Or.inr (hrun hr)
  rw [exec_crcDone, execCrcDone]
  exact congrArg (fun y => (.next { s with sys := y } : Result)) (if_pos h)

/-- Waiting for a core cycle changes nothing that a check reads. -/
theorem awaitCycle_crc (n : Nat) (y : Sys) : (y.awaitCycle n).chip.mgt = y.chip.mgt ∧
    (y.awaitCycle n).chip.map.vc = y.chip.map.vc ∧ (y.awaitCycle n).ecc = y.ecc ∧
    (y.awaitCycle n).chip.domOn = y.chip.domOn ∧ (y.awaitCycle n).chip.tile = y.chip.tile := by
  obtain ⟨t, ht⟩ := awaitCycle_eq y n
  obtain ⟨k, time, tr, full, work, hc⟩ := await_chip y t
  rw [ht, hc]
  refine ⟨rfl, rfl, await_ecc .., rfl, ?_⟩
  funext p
  rfl

theorem gives_crcDone (hb : s.sys.chip.mgt.crcBusy = true)
    (hrun : s.sys.chip.map.run = true → crcDue s.sys.chip.mgt ≤ s.sys.chip.cmp.cycles) :
    Gives (exec .crcDone s) fun t =>
      let c := s.sys.chip
      let m := c.mgt
      let n := t.sys.chip.mgt
      let base := m.crcBase.toNat
      let len := m.crcLen.toNat
      keepsMemory s t ∧ n.crcBusy = false ∧ n.crcDone = true ∧
      (∀ p, t.sys.chip.tile p = { c.tile p with use := (t.sys.chip.tile p).use }) ∧
      (coreRuns c = true → m.crcAt + crcLines m + 8 ≤ t.sys.chip.cmp.cycles) ∧
      (crcRegionOk c.map.vc base len = false → n.crcStatus = 2) ∧
      (∀ o, crcRegionOk c.map.vc base len = true → regionOf c.map.vc base = .search o →
        (c.domOn bitSrch = false → n.crcStatus = 3) ∧
        (c.domOn bitSrch = true → s.sys.ecc = [] → m.crcBad = false →
          m.crcAcc = crc64On (2 ^ 64 - 1) (Memory.read s.mem (searchBase + o) (min len (256 * m.crcLine - base % 256))) →
          let crc := crc64 (Memory.read s.mem (searchBase + o) len)
          n.crcVal = BitVec.ofNat 64 crc ∧ n.crcStatus = if crc = m.crcExp.toNat then 0 else 1)) := by
  obtain ⟨hmgt, hvc, hecc, hdom, htile⟩ := awaitCycle_crc (crcDue s.sys.chip.mgt) s.sys
  have hcycles := le_awaitCycle (crcDue s.sys.chip.mgt) s.sys
  refine ⟨_, crcDone_ends hb hrun, ?_⟩
  dsimp only
  rw [settleTray_chip]
  generalize s.sys.awaitCycle (crcDue s.sys.chip.mgt) = y at hmgt hvc hecc hdom htile hcycles ⊢
  obtain ⟨hsame, hbusy, hdone⟩ := crcFinish_ends s.mem y
  refine ⟨⟨rfl, rfl⟩, hbusy, hdone, fun p => ?_, fun hc => ?_, fun hbad => ?_, fun o hok hr => ⟨fun hoff => ?_, ?_⟩⟩
  · rw [hsame.tile p, htile]
  · rw [hsame.cycles]
    exact hcycles hc
  · exact crcFinish_bad (by rw [hvc, hmgt]; exact hbad)
  · exact crcFinish_off (o := o) (by rw [hvc, hmgt]; exact hok) (by rw [hvc, hmgt]; exact hr) (by rw [hdom]; exact hoff)
  · intro hon hclean hgood hacc
    have haddr : searchBase + o = s.sys.chip.mgt.crcBase.toNat := (search_bounds hr).2.2.2
    have hcov : min s.sys.chip.mgt.crcLen.toNat (256 * s.sys.chip.mgt.crcLine - s.sys.chip.mgt.crcBase.toNat % 256) =
        covered s.sys.chip.mgt.crcBase.toNat s.sys.chip.mgt.crcLen.toNat s.sys.chip.mgt.crcLine := by
      unfold covered
      omega
    rw [haddr, hcov] at hacc
    rw [haddr]
    have h := crcFinish_search (m := s.mem) (o := o) (y := y) (by rw [hvc, hmgt]; exact hok) (by rw [hvc, hmgt]; exact hr)
      (by rw [hdom]; exact hon) (hecc.trans hclean) (by rw [hmgt]; exact hgood) (by rw [hmgt]; exact hacc)
    rw [hmgt] at h
    exact h

end Crc

/-- Settles O44. -/
theorem collectorNmisAndCrcAct : Obligations.CollectorNmisAndCrcAct := by
  unfold Obligations.CollectorNmisAndCrcAct
  refine ⟨fun s v i => ?_, fun s => ⟨fun i => gives_nmiDelivery, fun h => nmiPop_next h, rfl, rfl⟩, fun s => ?_⟩
  · intro hi k named
    refine ⟨fun hret => ⟨?_, ?_, ?_⟩, fun hrun => ?_, fun hrun => ?_, ?_, ?_⟩
    · obtain ⟨t, ht, hmem, hout, hfc⟩ := gives_fcAck_chip v hret hi
      refine ⟨t, ht, hmem, hout, ?_, fun j hj => ?_⟩
      · rw [hfc, Collector.ack_src]
        simp [hi, named, k]
      · rw [hfc, Collector.ack_src, if_neg fun h => hj h.1.symm]
    · obtain ⟨t, ht, hmem, hfc⟩ := gives_fcInject_chip v hret
      exact ⟨t, ht, hmem, by rw [hfc, inject_src], by rw [hfc]; exact inject_raised v .chip k 52 (by decide) fun _ => rfl⟩
    · obtain ⟨t, ht, hmem, hfc⟩ := gives_fcSrcCfgWrite_chip v i hret
      refine ⟨t, ht, hmem, fun j hj => ?_, ?_⟩
      · rw [hfc, writeCfg_src, if_neg fun h => hj h.1]
      · rw [hfc, writeCfg_src]
        simp [definedSource, cfgWord, k]
    · obtain ⟨t, ht, hmem, hfc⟩ := gives_collectorWrite_tray (s := s) v (o := if hi then 0x0C else 0x08)
        (by cases hi <;> decide) (Or.inr hrun)
      rw [writeCollector_ack] at hfc
      refine ⟨t, ht, hmem, ?_, ?_⟩
      · rw [hfc.status, Collector.ack_src]
        simp [hi, named]
      · rw [hfc.acked, Collector.ack_src]
        simp [hi, named]
    · rw [exec_fcAck, execFcAck, onBoard_eq, collectorWrite, writeBoard_noAck v hrun]
      rfl
    · obtain ⟨t, ht, hmem, hfc⟩ := gives_collectorWrite_tray (s := s) v (o := 0x2C) (by decide) (Or.inl rfl)
      rw [writeCollector_inject] at hfc
      refine ⟨t, ht, hmem, fun h => hfc.raised _ ?_⟩
      rw [inject_raised v .tray _ 55 (by decide) fun _ => rfl, dif_pos h]
      exact List.mem_append_right _ (List.mem_singleton.mpr rfl)
    · obtain ⟨t, ht, hmem, hfc⟩ := gives_collectorWrite_tray (s := s) v (o := 0x100 + 4 * i.val) (by omega)
        (Or.inl (by rw [Bool.or_eq_false_iff, beq_eq_false_iff_ne, beq_eq_false_iff_ne]; omega))
      rw [writeCollector_cfg] at hfc
      refine ⟨t, ht, hmem, fun h => ?_⟩
      have hsrc := writeCfg_src v i .tray s.sys.now s.sys.tray.fc i
      rw [if_pos ⟨rfl, decide_eq_true h⟩] at hsrc
      obtain ⟨henable, hprimary⟩ := writeCfg_fields (cfgWord .tray v) s.sys.now s.sys.tray.fc.src[i]
      obtain ⟨h31, hlow⟩ := cfgWord_tray v
      rw [hfc.src, hsrc]
      dsimp only
      rw [henable, hprimary, h31, hlow]
      exact ⟨rfl, rfl⟩
  · intro c m base len
    refine ⟨fun hret => ⟨fun hb => crcStart_busy hret hb, fun hb => crcStart_idle hret hb⟩, fun hb => crcDone_stays ?_,
      fun hb hrun hlt => crcDone_stays ?_, fun hb hrun => gives_crcDone hb hrun⟩
    · rw [hb]
      exact Bool.false_ne_true
    · have hnot : ¬crcDue s.sys.chip.mgt ≤ s.sys.chip.cmp.cycles := Nat.not_le.mpr hlt
      rw [hb, hrun, decide_eq_false hnot]
      exact Bool.false_ne_true

end Sys2Proof.Machine
end

section
/-! PROOFS. What the reset of a domain leaves of the chip (16 R418): the power block but for the governors and what is held in
reset, the time base, the map, the management block, the chip's number, every raise that waits and every level line that is
not a port's. -/

namespace Sys2Proof.Machine

/-- What a domain's reset, and what restarts with its power-on, keeps. -/
structure Resets (c d : Chip) : Prop where
  pwr : d.pwr = { c.pwr with
    gov := d.pwr.gov
    held := d.pwr.held }
  time : d.time = c.time
  map : d.map = { c.map with trace := d.map.trace }
  mgt : d.mgt = c.mgt
  self : d.self = c.self
  slot : d.fab.slot = c.fab.slot
  raised : ∀ r ∈ c.fc.raised, r ∈ d.fc.raised
  line : ∀ n : SourceId, 26 ≤ n.val → d.fc.src[n].line = c.fc.src[n].line
  link : c.hif.linkUp = false → d.hif.linkUp = false

section

variable {c d e : Chip}

theorem Resets.refl (c : Chip) : Resets c c := ⟨rfl, rfl, rfl, rfl, rfl, rfl, fun _ h => h, fun _ _ => rfl, fun h => h⟩

theorem Resets.trans (h : Resets c d) (k : Resets d e) : Resets c e where
  pwr := by rw [k.pwr, h.pwr]
  time := k.time.trans h.time
  map := by rw [k.map, h.map]
  mgt := k.mgt.trans h.mgt
  self := k.self.trans h.self
  slot := k.slot.trans h.slot
  raised := fun r hr => k.raised r (h.raised r hr)
  line := fun n hn => (k.line n hn).trans (h.line n hn)
  link := fun hl => k.link (h.link hl)

theorem Resets.ite {q : Prop} [Decidable q] (hd : Resets c d) (he : Resets c e) : Resets c (if q then d else e) := by
  split
  · exact hd
  · exact he

theorem resets_foldl {β : Type} {f : Chip → β → Chip} (h : ∀ c b, Resets c (f c b)) (l : List β) (c : Chip) :
    Resets c (l.foldl f c) := by
  induction l generalizing c with
  | nil => exact .refl c
  | cons b l ih => exact (h c b).trans (ih _)

/-! The host interface's part. -/

theorem raise_line (n : Nat) (o : Owner) (c : Chip) (i : SourceId) : (c.raise n o).fc.src[i].line = c.fc.src[i].line := by
  unfold Chip.raise Collector.raise
  dsimp only
  split
  · rfl
  · rfl

theorem HifStep.resets (h : HifStep c d) (hlink : d.hif.linkUp = c.hif.linkUp) : Resets c d where
  pwr := by rw [h.pwr]
  time := h.time
  map := by rw [h.map]
  mgt := h.mgt
  self := by rw [Chip.self, h.fab]; rfl
  slot := by rw [h.fab]
  raised := h.raised
  line := fun n _ => by rw [h.eq]
  link := fun hl => hlink.trans hl

theorem linkUp_hifErr (src cause : Nat) (q : QpId) (c : Chip) : (c.hifErr src cause q).hif.linkUp = c.hif.linkUp := by
  unfold Chip.hifErr
  rw [Chip.raise_hif]
  dsimp only
  split
  · rfl
  · rfl

theorem linkUp_hifDrop (q : QpId) (c : Chip) : (c.hifDrop q).hif.linkUp = c.hif.linkUp := by
  unfold Chip.hifDrop
  dsimp only
  split
  · rfl
  · exact linkUp_hifErr ..

theorem linkUp_postFrom (due : Nat) (q : QpId) (cid status r0 r1 r2 : Nat) (c : Chip) :
    (postFrom due q cid status r0 r1 r2 c).hif.linkUp = c.hif.linkUp := by
  unfold postFrom
  dsimp only
  split_ifs
  · rfl
  · exact linkUp_hifDrop ..
  · exact linkUp_hifErr ..
  · rfl

theorem linkUp_refuseSearch (q : QpId) (index : Nat) (c : Chip) : (refuseSearch q index c).hif.linkUp = c.hif.linkUp := by
  unfold refuseSearch
  split
  · exact linkUp_postFrom ..
  · rfl

theorem linkUp_refuseReq (r : SearchReq) (c : Chip) : (refuseReq r c).hif.linkUp = c.hif.linkUp := by
  unfold refuseReq
  split
  · exact linkUp_refuseSearch ..
  · rfl

theorem linkUp_hifRefuseSearches (c : Chip) : (hifRefuseSearches c).hif.linkUp = c.hif.linkUp := by
  have h := foldl_keeps (fun d : Chip => d.hif.linkUp) (fun d r => refuseReq r d) (fun d r => linkUp_refuseReq r d) c.srch.queue c
  unfold hifRefuseSearches
  extract_lets c1
  split
  · exact (linkUp_refuseReq ..).trans h
  · exact h

theorem resets_refuseSearch (q : QpId) (index : Nat) (c : Chip) : Resets c (refuseSearch q index c) := by
  refine HifStep.resets ?_ (linkUp_refuseSearch ..)
  unfold refuseSearch
  split
  · exact hifStep_endEntry ..
  · exact .refl c

theorem resets_hifRefuseSearches (c : Chip) : Resets c (hifRefuseSearches c) :=
  (hifStep_hifRefuseSearches c).resets (linkUp_hifRefuseSearches c)

/-- A chip whose search unit, tiles and governors are its own. -/
theorem Resets.with (h : Resets c d) {srch : SearchUnit} {cmp : Compute} {gov : Vector Governor 4} : Resets c { d with
    srch := srch
    cmp := cmp
    pwr := { d.pwr with gov := gov } } where
  pwr := by rw [h.pwr]
  time := h.time
  map := h.map
  mgt := h.mgt
  self := h.self
  slot := h.slot
  raised := h.raised
  line := h.line
  link := h.link

theorem resets_abandonSearch (c : Chip) : Resets c (abandonSearch c) := (resets_hifRefuseSearches c).with

theorem resets_resetSearch (c : Chip) : Resets c (resetSearch c) := by
  have h := (resets_abandonSearch c).trans (resets_foldl (f := fun (c : Chip) (o : SearchOut) => match o.origin with
    | .host q i => refuseSearch q i c
    | .tile _ _ => c) (fun c o => by
      split
      · exact resets_refuseSearch ..
      · exact .refl c) c.srch.outs (abandonSearch c))
  unfold resetSearch
  exact h.with

theorem resets_resetHost (c : Chip) : Resets c (resetHost c) :=
  ⟨rfl, rfl, rfl, rfl, rfl, rfl, fun _ h => h, fun _ _ => rfl, fun _ => rfl⟩

/-! The ports' part. -/

theorem resets_fab {f : Fabric} (hidx : f.trayIdx = c.fab.trayIdx) (hslot : f.slot = c.fab.slot) : Resets c { c with fab := f } :=
  ⟨rfl, rfl, rfl, rfl, by unfold Chip.self; rw [hidx, hslot], hslot, fun _ h => h, fun _ _ => rfl, fun h => h⟩

theorem resets_onPort (p : PortId) (f : Port → Port) (c : Chip) : Resets c (c.onPort p f) := resets_fab rfl rfl

theorem resets_markWon (f : Frame) (now : Nat) (c : Chip) : Resets c (markWon f now c) := by
  unfold markWon
  exact .ite (resets_fab rfl rfl) (.refl c)

theorem resets_clearPort (p : PortId) (now : Nat) (c : Chip) : Resets c (clearPort p now c) := by
  unfold clearPort
  exact (resets_foldl (fun c f => resets_markWon f now c) _ c).trans (resets_onPort ..)

theorem resets_lower (n now : Nat) (hn : n < 26) (c : Chip) : Resets c (c.lower n now) := by
  have hsame := sameLatches_lower c.fc now n
  refine ⟨rfl, rfl, rfl, rfl, rfl, rfl, hsame.raised, fun i hi => ?_, fun h => h⟩
  exact congrArg Source.line (lower_other c.fc now (by omega))

theorem resets_enterDisabled (p : PortId) (now : Nat) (c : Chip) : Resets c (enterDisabled p now c) :=
  ((resets_clearPort p now c).trans (resets_onPort ..)).trans (resets_lower _ _ (by omega) _)

theorem resets_enterDetect (p : PortId) (now : Nat) (c : Chip) : Resets c (enterDetect p now c) := by
  unfold enterDetect
  exact .ite (resets_enterDisabled ..) (.ite ((resets_enterDisabled ..).trans (resets_onPort ..))
    ((resets_clearPort ..).trans (resets_onPort ..)))

theorem resets_resetPorts (bit now : Nat) (c : Chip) : Resets c (resetPorts bit now c) :=
  resets_foldl (fun c p => resets_enterDisabled p now c) _ c

theorem resets_startPorts (bit now : Nat) (c : Chip) : Resets c (startPorts bit now c) := by
  unfold startPorts
  exact .ite (resets_foldl (fun c p => (resets_onPort ..).trans (resets_enterDetect ..)) _ c) (.refl c)

/-! The domains. -/

theorem resets_resetQuad (q : QuadId) (c : Chip) : Resets c (resetQuad q c) := (Resets.refl c).with (srch := c.srch)

theorem resets_resetDomain (bit now : Nat) (c : Chip) : Resets c (resetDomain bit now c) := by
  unfold resetDomain
  refine .ite (resets_resetSearch c) (.ite (resets_resetHost c) (.ite (resets_resetPorts bit now c) (.ite ?_ ?_)))
  · exact ⟨rfl, rfl, rfl, rfl, rfl, rfl, fun _ h => h, fun _ _ => rfl, fun h => h⟩
  · split
    · exact .ite (resets_resetQuad ..) (.refl c)
    · exact .refl c

theorem resets_resetDomains (bits : List Nat) (now : Nat) (c : Chip) : Resets c (resetDomains bits now c) :=
  resets_foldl (fun c b => resets_resetDomain b now c) bits c

theorem settle_line (x : Source) : (settle x).line = x.line := by
  unfold settle
  split
  · rfl
  · rfl

theorem ownerReset_line (o : Owner) (k : Collector) (i : SourceId) : (k.ownerReset o).src[i].line = k.src[i].line := by
  simp only [Collector.ownerReset, Fin.getElem_fin, Vector.getElem_ofFn]
  split
  · exact settle_line _
  · rfl

theorem ownerReset_raised (o : Owner) (k : Collector) : (k.ownerReset o).raised = k.raised := by
  unfold Collector.ownerReset
  exact rfl

theorem ownersReset_raised (os : List Owner) (c : Chip) : (c.ownersReset os).fc.raised = c.fc.raised := by
  have h : ∀ k : Collector, (os.foldl (fun k o => k.ownerReset o) k).raised = k.raised := by
    induction os with
    | nil => exact fun k => rfl
    | cons o os ih =>
      intro k
      rw [List.foldl_cons, ih, ownerReset_raised]
  exact h c.fc

theorem ownersReset_line (os : List Owner) (c : Chip) (i : SourceId) :
    (c.ownersReset os).fc.src[i].line = c.fc.src[i].line := by
  have h : ∀ k : Collector, (os.foldl (fun k o => k.ownerReset o) k).src[i].line = k.src[i].line := by
    induction os with
    | nil => exact fun k => rfl
    | cons o os ih =>
      intro k
      rw [List.foldl_cons, ih, ownerReset_line]
  exact h c.fc

theorem resets_ownersReset (os : List Owner) (c : Chip) : Resets c (c.ownersReset os) := by
  exact ⟨rfl, rfl, rfl, rfl, rfl, rfl, fun r h => ownersReset_raised os c ▸ h, fun n _ => ownersReset_line os c n, fun h => h⟩

theorem resets_cmp (x : Compute) : Resets c { c with cmp := x } :=
  ⟨rfl, rfl, rfl, rfl, rfl, rfl, fun _ h => h, fun _ _ => rfl, fun h => h⟩

theorem resets_restartScrubs (q : Nat) (c : Chip) : Resets c (restartScrubs q c) := by
  unfold restartScrubs
  exact resets_cmp _

theorem resets_startDomain (bit now : Nat) (c : Chip) : Resets c (startDomain bit now c) := by
  unfold startDomain
  exact .ite (resets_restartScrubs ..) (resets_startPorts bit now c)

theorem resets_setHeld (extra : BitVec 12) (now : Nat) (c : Chip) : Resets c (setHeld extra now c) := by
  unfold setHeld
  refine Resets.trans ?_ (resets_foldl (fun c b => .ite (resets_startPorts b now c) (.refl c)) _ _)
  exact ⟨rfl, rfl, rfl, rfl, rfl, rfl, fun _ h => h, fun _ _ => rfl, fun h => h⟩

end

end Sys2Proof.Machine
end

section
/-! PROOFS. Domains follow their requests (16 R418): bit by bit, what a request leaves of PWR_DOM_STATUS and of the
transitions under way. -/

namespace Sys2Proof.Machine

section Bits

variable {c d e : Chip} {a b : Nat}

/-! PWR_DOM_STATUS.ON and the transitions, bit by bit. -/

/-- A domain reads on. -/
def Chip.reads (c : Chip) (b : Nat) : Bool := c.pwr.on.toNat.testBit b

theorem maskOf_single (b : Nat) : maskOf [b] = BitVec.ofNat 12 (2 ^ b) := by simp [maskOf]

theorem reads_eq (c : Chip) (b : Nat) : c.reads b = c.pwr.on.getLsbD b := rfl

theorem reads_setOn (h : b < 12) (on : Bool) (c : Chip) : (setOn b on c).reads a = if a = b then on else c.reads a := by
  have hmask : ∀ n, (maskOf [b]).getLsbD n = decide (n = b) := by
    intro n
    rw [maskOf_single, BitVec.getLsbD_ofNat, Nat.testBit_two_pow]
    by_cases hn : n = b
    · subst hn
      simp [h]
    · simp [hn, Ne.symm hn]
  cases on
  · show ((c.pwr.on &&& ~~~(maskOf [b])).getLsbD a) = _
    rw [BitVec.getLsbD_and, BitVec.getLsbD_not, hmask, reads_eq]
    by_cases ha : a = b
    · simp [ha]
    · rw [if_neg ha]
      by_cases h12 : a < 12
      · simp [ha, h12]
      · rw [BitVec.getLsbD_of_ge _ _ (by omega), Bool.false_and]
  · show ((c.pwr.on ||| maskOf [b]).getLsbD a) = _
    rw [BitVec.getLsbD_or, hmask, reads_eq]
    by_cases ha : a = b
    · simp [ha]
    · simp [ha]

theorem finOf_some {n i : Nat} (h : i < n) : finOf n i = some ⟨i, h⟩ := by simp [finOf, h]

theorem transOf_setTrans (h : b < 12) (t : Option DomTrans) (c : Chip) :
    transOf (setTrans b t c) a = if a = b then t else transOf c a := by
  unfold transOf setTrans
  rw [finOf_some h]
  by_cases ha : a = b
  · subst ha
    rw [finOf_some h, if_pos rfl]
    simp
  · rw [if_neg ha]
    by_cases h12 : a < 12
    · rw [finOf_some h12]
      simp [Ne.symm ha]
    · simp [finOf, h12]

theorem transOf_congr (h : d.pwr.trans = c.pwr.trans) : transOf d b = transOf c b := by
  unfold transOf
  rw [h]

theorem reads_setTrans (t : Option DomTrans) (c : Chip) : (setTrans b t c).reads a = c.reads a := by
  unfold setTrans
  split
  · rfl
  · rfl

theorem transOf_setOn (on : Bool) (c : Chip) : transOf (setOn b on c) a = transOf c a := rfl

theorem Resets.reads (h : Resets c d) : d.reads b = c.reads b := by
  unfold Chip.reads
  rw [h.pwr]

theorem Resets.transOf (h : Resets c d) : transOf d b = Machine.transOf c b := transOf_congr (by rw [h.pwr])

/-! What following the requests keeps. -/

/-- The chip with another PWR_DOM_STATUS and other transitions. -/
def Chip.withDomains (on : BitVec 12) (trans : Vector (Option DomTrans) 12) (c : Chip) : Chip := { c with
  pwr := { c.pwr with
    on := on
    trans := trans } }

/-- As `Resets`, but for the domains' own state. -/
def Follows (c d : Chip) : Prop := Resets (c.withDomains d.pwr.on d.pwr.trans) d

theorem Resets.withDomains (h : Resets c d) (on : BitVec 12) (trans : Vector (Option DomTrans) 12) :
    Resets (c.withDomains on trans) (d.withDomains on trans) where
  pwr := by
    have hp := h.pwr
    unfold Chip.withDomains
    dsimp only
    rw [hp]
  time := h.time
  map := h.map
  mgt := h.mgt
  self := h.self
  slot := h.slot
  raised := h.raised
  line := h.line
  link := h.link

theorem Resets.follows (h : Resets c d) : Follows c d := by
  have hc : c.withDomains d.pwr.on d.pwr.trans = c := by
    rw [h.pwr]
    rfl
  unfold Follows
  rw [hc]
  exact h

theorem Follows.refl (c : Chip) : Follows c c := (Resets.refl c).follows

theorem Follows.trans (h : Follows c d) (k : Follows d e) : Follows c e :=
  (Resets.withDomains h e.pwr.on e.pwr.trans).trans k

theorem Follows.ite {q : Prop} [Decidable q] (hd : Follows c d) (he : Follows c e) : Follows c (if q then d else e) := by
  split
  · exact hd
  · exact he

theorem follows_setOn (b : Nat) (on : Bool) (c : Chip) : Follows c (setOn b on c) := Resets.refl _

theorem follows_setTrans (b : Nat) (t : Option DomTrans) (c : Chip) : Follows c (setTrans b t c) := by
  unfold setTrans
  split
  · exact Resets.refl _
  · exact .refl c

theorem Follows.resets (h : Follows c d) : Resets (c.withDomains d.pwr.on d.pwr.trans) d := h

theorem Follows.pwr (h : Follows c d) : d.pwr = { c.pwr with
    on := d.pwr.on
    trans := d.pwr.trans
    gov := d.pwr.gov
    held := d.pwr.held } := h.resets.pwr

theorem Follows.time (h : Follows c d) : d.time = c.time := h.resets.time
theorem Follows.map (h : Follows c d) : d.map = { c.map with trace := d.map.trace } := h.resets.map
theorem Follows.self (h : Follows c d) : d.self = c.self := h.resets.self
theorem Follows.slot (h : Follows c d) : d.fab.slot = c.fab.slot := h.resets.slot
theorem Follows.link (h : Follows c d) : c.hif.linkUp = false → d.hif.linkUp = false := h.resets.link
theorem Follows.raised (h : Follows c d) : ∀ r ∈ c.fc.raised, r ∈ d.fc.raised := h.resets.raised
theorem Follows.line (h : Follows c d) : ∀ n : SourceId, 26 ≤ n.val → d.fc.src[n].line = c.fc.src[n].line := h.resets.line

/-- Whether a domain is wanted depends on the requests and the chip's state alone. -/
theorem Follows.wanted (h : Follows c d) (b : Nat) : wanted d b = wanted c b := by
  unfold Machine.wanted
  rw [h.pwr, h.map]

theorem follows_domainOff (b now : Nat) (c : Chip) : Follows c (domainOff b now c) := by
  unfold domainOff
  exact .ite (((follows_setOn ..).trans (follows_setTrans ..)).trans (resets_resetDomain ..).follows) (.refl c)

theorem follows_domainOnReq (b now : Nat) (c : Chip) : Follows c (domainOnReq b now c) := by
  unfold domainOnReq
  exact .ite (.refl c) (follows_setTrans ..)

/-- One domain follows its request. -/
def followOne (now : Nat) (c : Chip) (b : Nat) : Chip := if wanted c b then domainOnReq b now c else domainOff b now c

theorem followRequests_eq (now : Nat) (c : Chip) : followRequests now c = switched.foldl (followOne now) c := rfl

theorem follows_followOne (now b : Nat) (c : Chip) : Follows c (followOne now c b) :=
  .ite (follows_domainOnReq ..) (follows_domainOff ..)

theorem follows_foldl (now : Nat) (l : List Nat) (c : Chip) : Follows c (l.foldl (followOne now) c) := by
  induction l generalizing c with
  | nil => exact .refl c
  | cons b l ih => exact (follows_followOne now b c).trans (ih _)

theorem follows_followRequests (now : Nat) (c : Chip) : Follows c (followRequests now c) := follows_foldl now switched c

/-! What becomes of one domain. -/

theorem domainOff_other (hb : b < 12) (h : a ≠ b) (now : Nat) (c : Chip) :
    (domainOff b now c).reads a = c.reads a ∧ transOf (domainOff b now c) a = transOf c a := by
  unfold domainOff
  split
  · rw [(resets_resetDomain b now _).reads, (resets_resetDomain b now _).transOf, reads_setTrans, reads_setOn hb, if_neg h,
      transOf_setTrans hb, if_neg h, transOf_setOn]
    exact ⟨rfl, rfl⟩
  · exact ⟨rfl, rfl⟩

theorem domainOff_self (hb : b < 12) (now : Nat) (c : Chip) : (domainOff b now c).reads b = false := by
  unfold domainOff
  split
  · rw [(resets_resetDomain b now _).reads, reads_setTrans, reads_setOn hb, if_pos rfl]
  · rename_i h
    rw [Bool.or_eq_true, not_or, Bool.not_eq_true] at h
    exact h.1

theorem domainOnReq_other (hb : b < 12) (h : a ≠ b) (now : Nat) (c : Chip) :
    (domainOnReq b now c).reads a = c.reads a ∧ transOf (domainOnReq b now c) a = transOf c a := by
  unfold domainOnReq
  split
  · exact ⟨rfl, rfl⟩
  · rw [reads_setTrans, transOf_setTrans hb, if_neg h]
    exact ⟨rfl, rfl⟩

theorem domainOnReq_self (hb : b < 12) (now : Nat) (hoff : c.reads b = false) (hnone : transOf c b = none) :
    domainOnReq b now c = setTrans b (some ⟨true, now + Config.us 20⟩) c ∧
    transOf (domainOnReq b now c) b = some ⟨true, now + Config.us 20⟩ := by
  have h : ¬(c.pwr.on.toNat.testBit b || (transOf c b).isSome) = true := by
    rw [hnone, Bool.or_eq_true, not_or, Bool.not_eq_true]
    exact ⟨hoff, Bool.false_ne_true⟩
  have heq : domainOnReq b now c = setTrans b (some ⟨true, now + Config.us 20⟩) c := if_neg h
  exact ⟨heq, by rw [heq, transOf_setTrans hb, if_pos rfl]⟩

theorem followOne_other (hb : b < 12) (h : a ≠ b) (now : Nat) (c : Chip) :
    (followOne now c b).reads a = c.reads a ∧ transOf (followOne now c b) a = transOf c a := by
  unfold followOne
  split
  · exact domainOnReq_other hb h now c
  · exact domainOff_other hb h now c

theorem foldl_other (now : Nat) (l : List Nat) (hl : ∀ x ∈ l, x < 12) (h : a ∉ l) (c : Chip) :
    (l.foldl (followOne now) c).reads a = c.reads a ∧ transOf (l.foldl (followOne now) c) a = transOf c a := by
  induction l generalizing c with
  | nil => exact ⟨rfl, rfl⟩
  | cons b l ih =>
    rw [List.mem_cons, not_or] at h
    obtain ⟨hr, ht⟩ := ih (fun x hx => hl x (List.mem_cons_of_mem _ hx)) h.2 (followOne now c b)
    obtain ⟨hr', ht'⟩ := followOne_other (hl b List.mem_cons_self) h.1 now c
    exact ⟨hr.trans hr', ht.trans ht'⟩

theorem foldl_self (now : Nat) (l : List Nat) (hl : ∀ x ∈ l, x < 12) (hn : l.Nodup) (h : a ∈ l) (c : Chip) :
    (wanted c a = true → c.reads a = false → transOf c a = none →
      transOf (l.foldl (followOne now) c) a = some ⟨true, now + Config.us 20⟩) ∧
    (wanted c a = false → (l.foldl (followOne now) c).reads a = false) := by
  induction l generalizing c with
  | nil => cases h
  | cons b l ih =>
    rw [List.nodup_cons] at hn
    have hl' : ∀ x ∈ l, x < 12 := fun x hx => hl x (List.mem_cons_of_mem _ hx)
    have hb : b < 12 := hl b List.mem_cons_self
    rw [List.foldl_cons]
    by_cases hab : a = b
    · subst hab
      obtain ⟨hr, ht⟩ := foldl_other now l hl' hn.1 (followOne now c a)
      rw [hr, ht]
      refine ⟨fun hw hoff hnone => ?_, fun hw => ?_⟩
      · rw [followOne, if_pos hw]
        exact (domainOnReq_self hb now hoff hnone).2
      · rw [followOne, hw]
        exact domainOff_self hb now c
    · have hmem : a ∈ l := (List.mem_cons.mp h).resolve_left hab
      obtain ⟨hr, ht⟩ := followOne_other hb hab now c
      have hrec := ih hl' hn.2 hmem (followOne now c b)
      rw [(follows_followOne now b c).wanted, hr, ht] at hrec
      exact hrec

theorem switched_lt : ∀ x ∈ switched, x < 12 := by decide

theorem followRequests_other (h : a ∉ switched) (now : Nat) (c : Chip) :
    (followRequests now c).reads a = c.reads a ∧ transOf (followRequests now c) a = transOf c a :=
  foldl_other now switched switched_lt h c

theorem followRequests_self (h : a ∈ switched) (now : Nat) (c : Chip) :
    (wanted c a = true → c.reads a = false → transOf c a = none →
      transOf (followRequests now c) a = some ⟨true, now + Config.us 20⟩) ∧
    (wanted c a = false → (followRequests now c).reads a = false) :=
  foldl_self now switched switched_lt (by decide) h c

theorem reqBit_switched {k : Nat} (h : k < 7) : reqBit k ∈ switched := by
  interval_cases k <;> decide

/-- A domain of PWR_DOM_REQ is wanted, in ACTIVE, where its bit is set. -/
theorem wanted_req {k : Nat} (h : k < 7) (hl : c.pwr.lowIdle = false) (hr : c.pwr.retention = false) :
    wanted c (reqBit k) = c.pwr.req.toNat.testBit k := by
  have hdbg : (reqBit k == bitDbg) = false := by interval_cases k <;> rfl
  unfold wanted
  rw [hl, hr, hdbg, if_neg Bool.false_ne_true]
  rw [Bool.eq_iff_iff]
  simp only [Bool.not_false, Bool.true_and, List.any_eq_true, List.mem_range, Bool.and_eq_true, beq_iff_eq]
  constructor
  · rintro ⟨j, hj, heq, hbit⟩
    have hjk : j = k := by
      unfold reqBit at heq
      split at heq <;> split at heq <;> omega
    rw [← hjk]
    exact hbit
  · exact fun hbit => ⟨k, h, rfl, hbit⟩

end Bits

end Sys2Proof.Machine
end

section
/-! PROOFS. Domains and power states change as requested (O45). -/

namespace Sys2Proof.Machine

section Access

variable {s : State}

/-! A register write at the power block. -/

theorem writeReg_pwr {o : Nat} (ho : o < 0x1000) (v : Word) (y : Sys) :
    writeReg (0x2000 + o) v y = y.onChip (writePwr o v y.now) := by
  unfold writeReg
  rw [if_neg (by omega), if_neg (by omega), if_pos (by omega), Nat.add_sub_cancel_left]

theorem chipWrite_pwr {o : Nat} (ho : o < 0x1000) (v : Word) (h : s.sys.chip.pwr.retention = false) :
    onSys (chipWrite (0x2000 + o) v) s = .next (s.waked.withChip (writePwr o v s.sys.now)) := by
  have hr : reachable s.sys.chip = true := by simp [reachable, h]
  rw [onSys_eq, chipWrite, if_pos hr, accessWrite, writeReg_pwr ho]
  rfl

theorem withChip_waked {f g : Chip → Chip} (h : f (wakeAccess s.sys.now s.sys.chip) = g s.sys.chip) :
    s.waked.withChip f = s.withChip g := by
  unfold State.waked State.withChip
  dsimp only
  rw [h]

theorem wakeAccess_awake (now : Nat) {c : Chip} (h : c.pwr.lowIdle = false) : wakeAccess now c = c := by
  unfold wakeAccess
  rw [h]
  rfl

theorem wakeAccess_req (now : Nat) (c : Chip) : (wakeAccess now c).pwr.req = c.pwr.req := by
  obtain ⟨w, h⟩ := wakeAccess_pwr now c
  rw [h]

/-! A request for domains. -/

theorem domainRequest_next (v : Word) (h : s.sys.chip.pwr.retention = false) : exec (.domainRequest v) s =
    .next (s.waked.withChip (writeDomReq v s.sys.now)) := by
  rw [exec_domainRequest, execDomainRequest]
  exact chipWrite_pwr (o := 0) (by decide) v h

theorem domainRequest_same (v : Word) (h : s.sys.chip.pwr.retention = false)
    (hreq : BitVec.setWidth 7 v = s.sys.chip.pwr.req) : exec (.domainRequest v) s = .next s.waked := by
  have hsame : writeDomReq v s.sys.now (wakeAccess s.sys.now s.sys.chip) = wakeAccess s.sys.now s.sys.chip := by
    rw [writeDomReq, wakeAccess_req, hreq]
    exact if_pos (beq_self_eq_true _)
  rw [domainRequest_next v h, withChip_waked (g := fun c => wakeAccess s.sys.now c) hsame]
  rfl

theorem domainRequest_run (v : Word) (h : s.sys.chip.pwr.retention = false)
    (hreq : BitVec.setWidth 7 v ≠ s.sys.chip.pwr.req) (hrun : s.sys.chip.map.run = true) :
    exec (.domainRequest v) s = .next (s.waked.withChip (Chip.cfgDiscard 0x2000)) := by
  have hdisc : writeDomReq v s.sys.now (wakeAccess s.sys.now s.sys.chip) =
      Chip.cfgDiscard 0x2000 (wakeAccess s.sys.now s.sys.chip) := by
    rw [writeDomReq, wakeAccess_req, wakeAccess_map, hrun]
    exact (if_neg (by rw [beq_iff_eq]; exact hreq)).trans (if_pos rfl)
  rw [domainRequest_next v h, withChip_waked (g := fun c => Chip.cfgDiscard 0x2000 (wakeAccess s.sys.now c)) hdisc]
  rfl

/-- The chip with the requests written. -/
def Chip.asked (v : BitVec 7) (c : Chip) : Chip := { c with pwr := { c.pwr with req := v } }

theorem writeDomReq_stopped (v : Word) (now : Nat) {c : Chip} (hreq : BitVec.setWidth 7 v ≠ c.pwr.req)
    (hrun : c.map.run = false) (harm : c.time.arm = false) (htrip : c.pwr.tripHold = false) :
    writeDomReq v now c = followRequests now (c.asked (BitVec.setWidth 7 v)) := by
  have haccept : acceptReq c (BitVec.setWidth 7 v) = BitVec.setWidth 7 v := by
    unfold acceptReq
    dsimp only
    rw [harm, htrip, if_neg Bool.false_ne_true, if_neg Bool.false_ne_true]
  have hne : ¬(BitVec.setWidth 7 v == c.pwr.req) = true := by
    rw [beq_iff_eq]
    exact hreq
  unfold writeDomReq
  dsimp only
  rw [if_neg hne, hrun, if_neg Bool.false_ne_true, haccept, Chip.asked]

theorem domainRequest_stopped (v : Word) (h : s.sys.chip.pwr.retention = false)
    (hreq : BitVec.setWidth 7 v ≠ s.sys.chip.pwr.req) (hrun : s.sys.chip.map.run = false) (harm : s.sys.chip.time.arm = false)
    (htrip : s.sys.chip.pwr.tripHold = false) (hidle : s.sys.chip.pwr.lowIdle = false) : exec (.domainRequest v) s =
      .next (s.withChip fun c => followRequests s.sys.now (c.asked (BitVec.setWidth 7 v))) := by
  have hwrite := writeDomReq_stopped v s.sys.now hreq hrun harm htrip
  rw [domainRequest_next v h, withChip_waked (g := fun c => followRequests s.sys.now (c.asked (BitVec.setWidth 7 v)))]
  rw [wakeAccess_awake s.sys.now hidle]
  exact hwrite

/-! The ends of the 20 µs. -/

theorem await_pwr_eq (n : Nat) (y : Sys) : (y.await n).chip.pwr = y.chip.pwr := await_pwr ..

theorem awaitDomain_eq {d : Domain} {on : Bool} {u : Nat} {y : Sys} (h : transOf y.chip (domainBit d) = some ⟨on, u⟩) :
    awaitDomain d on y = y.await u := by
  have hon : (on == on) = true := beq_self_eq_true on
  unfold awaitDomain
  rw [h]
  exact if_pos hon

theorem domainBit_lt (d : Domain) : domainBit d < 12 := by
  cases d with
  | q i => show 2 + i.val < 12; omega
  | srch => decide
  | faba => decide
  | fabb => decide
  | dbg => decide

theorem powerOnEnd_due {b u now : Nat} {c : Chip} (hb : b < 12) (h : transOf c b = some ⟨true, u⟩) (hu : u ≤ now) :
    (powerOnEnd b now c).reads b = true ∧ transOf (powerOnEnd b now c) b = none := by
  have hdue : (true && decide (u ≤ now)) = true := by simp [hu]
  have heq : powerOnEnd b now c = (startDomain b now (resetDomain b now (setOn b true (setTrans b none c)))).ownersReset
      (domainOwners (resetDomain b now (setOn b true (setTrans b none c))) b) := by
    unfold powerOnEnd
    rw [h]
    exact if_pos hdue
  have hresets : Resets (setOn b true (setTrans b none c)) (powerOnEnd b now c) := by
    rw [heq]
    exact ((resets_resetDomain ..).trans (resets_startDomain ..)).trans (resets_ownersReset ..)
  rw [hresets.reads, hresets.transOf, reads_setOn hb, if_pos rfl, transOf_setOn, transOf_setTrans hb, if_pos rfl]
  exact ⟨rfl, rfl⟩

theorem gives_domainPowerOnEnd {d : Domain} {u : Nat} (h : transOf s.sys.chip (domainBit d) = some ⟨true, u⟩) :
    Gives (exec (.domainPowerOnEnd d) s) fun t => keepsMemory s t ∧ u ≤ t.sys.now ∧
      t.sys.chip.pwr.on.toNat.testBit (domainBit d) = true ∧ transOf t.sys.chip (domainBit d) = none := by
  have hchip : transOf (s.sys.await u).chip (domainBit d) = some ⟨true, u⟩ := by
    rw [transOf_congr (congrArg Power.trans (await_pwr_eq u s.sys)), h]
  have hend := powerOnEnd_due (domainBit_lt d) hchip (le_await s.sys u)
  rw [exec_domainPowerOnEnd, execDomainPowerOnEnd, onSys_eq]
  refine ⟨_, rfl, ⟨rfl, rfl⟩, ?_⟩
  dsimp only
  rw [awaitDomain_eq h]
  exact ⟨le_await s.sys u, hend⟩

theorem powerOffEnd_due {b u now : Nat} {c : Chip} (hb : b < 12) (h : transOf c b = some ⟨false, u⟩) (hu : u ≤ now)
    (hoff : c.reads b = false) : (powerOffEnd b now c).pwr.on = c.pwr.on ∧
      transOf (powerOffEnd b now c) b = if wanted c b then some ⟨true, now + Config.us 20⟩ else none := by
  have hdue : (!false && decide (u ≤ now)) = true := by simp [hu]
  have heq : powerOffEnd b now c = if wanted (setTrans b none c) b then domainOnReq b now (setTrans b none c)
      else setTrans b none c := by
    unfold powerOffEnd
    rw [h]
    exact if_pos hdue
  have hon : ∀ t d, (setTrans b t d).pwr.on = d.pwr.on := by
    intro t d
    unfold setTrans
    split
    · rfl
    · rfl
  have hnone : transOf (setTrans b none c) b = none := by rw [transOf_setTrans hb, if_pos rfl]
  have hreads : (setTrans b none c).reads b = false := by rw [reads_setTrans, hoff]
  obtain ⟨hreq, htrans⟩ := domainOnReq_self hb now hreads hnone
  rw [heq, (follows_setTrans b none c).wanted]
  split
  · rw [htrans, hreq, hon, hon]
    exact ⟨rfl, rfl⟩
  · exact ⟨hon .., hnone⟩

theorem gives_domainPowerOffEnd {d : Domain} {u : Nat} (h : transOf s.sys.chip (domainBit d) = some ⟨false, u⟩)
    (hoff : s.sys.chip.pwr.on.toNat.testBit (domainBit d) = false) :
    Gives (exec (.domainPowerOffEnd d) s) fun t => keepsMemory s t ∧ u ≤ t.sys.now ∧ t.sys.chip.pwr.on = s.sys.chip.pwr.on ∧
      transOf t.sys.chip (domainBit d) =
        if wanted s.sys.chip (domainBit d) then some ⟨true, t.sys.now + Config.us 20⟩ else none := by
  have hpwr := await_pwr_eq u s.sys
  have hchip : transOf (s.sys.await u).chip (domainBit d) = some ⟨false, u⟩ := by
    rw [transOf_congr (congrArg Power.trans hpwr), h]
  have hreads : (s.sys.await u).chip.reads (domainBit d) = false := by
    unfold Chip.reads
    rw [hpwr]
    exact hoff
  have hwanted : wanted (s.sys.await u).chip (domainBit d) = wanted s.sys.chip (domainBit d) := by
    obtain ⟨k, time, tr, full, work, hc⟩ := await_chip s.sys u
    unfold wanted
    rw [hc]
  have hend := powerOffEnd_due (domainBit_lt d) hchip (le_await s.sys u) hreads
  rw [hwanted, hpwr] at hend
  rw [exec_domainPowerOffEnd, execDomainPowerOffEnd, onSys_eq]
  refine ⟨_, rfl, ⟨rfl, rfl⟩, ?_⟩
  dsimp only
  rw [awaitDomain_eq h]
  exact ⟨le_await s.sys u, hend⟩

end Access

section LowIdle

variable {s : State} {c : Chip}

/-! LOW-IDLE. -/

theorem lowIdleEntry_next (h : s.sys.chip.pwr.retention = false) : exec .lowIdleEntry s =
    .next (s.waked.withChip (writeLowIdle true s.sys.now)) := by
  rw [exec_lowIdleEntry, execLowIdleEntry]
  exact chipWrite_pwr (o := 8) (by decide) 1 h

theorem lowIdleExit_next (h : s.sys.chip.pwr.retention = false) : exec .lowIdleExit s =
    .next (s.waked.withChip (writeLowIdle false s.sys.now)) := by
  rw [exec_lowIdleExit, execLowIdleExit]
  exact chipWrite_pwr (o := 8) (by decide) 0 h

theorem lowIdleEntry_armed (h : s.sys.chip.pwr.retention = false) (harm : s.sys.chip.time.arm = true) :
    exec .lowIdleEntry s = .next s.waked := by
  have hsame : writeLowIdle true s.sys.now (wakeAccess s.sys.now s.sys.chip) = wakeAccess s.sys.now s.sys.chip := by
    rw [writeLowIdle, wakeAccess_time, harm]
    rfl
  rw [lowIdleEntry_next h, withChip_waked (g := fun c => wakeAccess s.sys.now c) hsame]
  rfl

theorem enterLowIdle_fields (now : Nat) (c : Chip) : (enterLowIdle now c).pwr.lowIdle = true ∧
    (enterLowIdle now c).time.locked = false ∧ (enterLowIdle now c).reads bitClk = false := by
  have h := follows_followRequests now (stopTimeBase { c with pwr := { c.pwr with
    lowIdle := true
    lowIdleReq := true
    wokenAt := none } })
  unfold enterLowIdle
  dsimp only
  generalize followRequests now _ = d at h ⊢
  refine ⟨?_, ?_, ?_⟩
  · show d.pwr.lowIdle = true
    rw [h.pwr]
    unfold stopTimeBase
    dsimp only
    split
    · rfl
    · rfl
  · show d.time.locked = false
    rw [h.time]
    rfl
  · rw [reads_setOn (by decide), if_pos rfl]

theorem gives_lowIdleEntry (h : s.sys.chip.pwr.retention = false) (harm : s.sys.chip.time.arm = false)
    (hidle : s.sys.chip.pwr.lowIdle = false) (hbusy : s.sys.chip.pwr.busy = false) :
    Gives (exec .lowIdleEntry s) fun t => keepsMemory s t ∧ t.sys.chip.pwr.lowIdle = true ∧
      t.sys.chip.time.locked = false ∧ t.sys.chip.pwr.on.toNat.testBit bitClk = false ∧ timeBaseRuns t.sys.chip = false := by
  have hwrite : writeLowIdle true s.sys.now (wakeAccess s.sys.now s.sys.chip) = enterLowIdle s.sys.now s.sys.chip := by
    rw [wakeAccess_awake _ hidle, writeLowIdle, harm, hidle, hbusy]
    rfl
  obtain ⟨hl, hlock, hclk⟩ := enterLowIdle_fields s.sys.now s.sys.chip
  rw [lowIdleEntry_next h, withChip_waked (g := enterLowIdle s.sys.now) hwrite]
  refine ⟨_, rfl, ⟨rfl, rfl⟩, hl, hlock, hclk, ?_⟩
  show timeBaseRuns (enterLowIdle s.sys.now s.sys.chip) = false
  unfold timeBaseRuns
  rw [hl]
  rfl

/-- The chip as LOW-IDLE ends, before its domains follow. -/
def leavesIdle (c : Chip) : Chip := setOn bitClk true { c with pwr := { c.pwr with
  lowIdle := false
  lowIdleReq := false
  wokenAt := none } }

theorem startTimeBase_fields (now : Nat) (c : Chip) : (startTimeBase now c).pwr = c.pwr ∧
    (c.isRoot = true → (startTimeBase now c).time.locked = true) ∧
    (c.isRoot = false → (startTimeBase now c).time.role = 2) := by
  unfold startTimeBase
  split
  · rename_i h
    exact ⟨rfl, fun _ => rfl, fun hn => absurd (hn.symm.trans h) Bool.false_ne_true⟩
  · rename_i h
    exact ⟨rfl, fun ht => absurd ht h, fun _ => rfl⟩

theorem gives_lowIdleExit (h : s.sys.chip.pwr.retention = false) (hidle : s.sys.chip.pwr.lowIdle = true) :
    Gives (exec .lowIdleExit s) fun t => keepsMemory s t ∧ t.sys.chip.pwr.lowIdle = false ∧
      t.sys.chip.pwr.on.toNat.testBit bitClk = true ∧ (s.sys.chip.isRoot = true → t.sys.chip.time.locked = true) ∧
      (s.sys.chip.isRoot = false → t.sys.chip.time.role = 2) := by
  obtain ⟨w, hpwr⟩ := wakeAccess_pwr s.sys.now s.sys.chip
  have hwrite : writeLowIdle false s.sys.now (wakeAccess s.sys.now s.sys.chip) =
      startTimeBase s.sys.now (followRequests s.sys.now (leavesIdle (wakeAccess s.sys.now s.sys.chip))) := by
    have hl : (wakeAccess s.sys.now s.sys.chip).pwr.lowIdle = true := by rw [hpwr]; exact hidle
    unfold writeLowIdle
    rw [hl]
    rfl
  have hf := follows_followRequests s.sys.now (leavesIdle (wakeAccess s.sys.now s.sys.chip))
  have hclk := (followRequests_other (a := bitClk) (by decide) s.sys.now (leavesIdle (wakeAccess s.sys.now s.sys.chip))).1
  have hon : (leavesIdle (wakeAccess s.sys.now s.sys.chip)).reads bitClk = true := by
    unfold leavesIdle
    rw [reads_setOn (by decide), if_pos rfl]
  have hself : (leavesIdle (wakeAccess s.sys.now s.sys.chip)).self = s.sys.chip.self := by
    show (wakeAccess s.sys.now s.sys.chip).self = _
    unfold Chip.self
    rw [wakeAccess_fab]
  have htime : (leavesIdle (wakeAccess s.sys.now s.sys.chip)).time = s.sys.chip.time := wakeAccess_time ..
  have hroot := isRoot_congr (hf.self.trans hself) (congrArg TimeRegs.rootOrder (hf.time.trans htime))
    (congrArg TimeRegs.rootIdx (hf.time.trans htime))
  have hlow : (followRequests s.sys.now (leavesIdle (wakeAccess s.sys.now s.sys.chip))).pwr.lowIdle = false := by
    rw [hf.pwr]
    rfl
  obtain ⟨hsame, hlock, hrole⟩ := startTimeBase_fields s.sys.now
    (followRequests s.sys.now (leavesIdle (wakeAccess s.sys.now s.sys.chip)))
  rw [hroot] at hlock hrole
  rw [lowIdleExit_next h, withChip_waked (g := fun c =>
    startTimeBase s.sys.now (followRequests s.sys.now (leavesIdle (wakeAccess s.sys.now c)))) hwrite]
  refine ⟨_, rfl, ⟨rfl, rfl⟩, ?_, ?_, hlock, hrole⟩
  · exact (congrArg Power.lowIdle hsame).trans hlow
  · have hbit := hclk.trans hon
    unfold Chip.reads at hbit
    rw [← hsame] at hbit
    exact hbit

theorem gives_awaitWoken (n : Nat) : Gives (.next { s with
      sys := (s.sys.await n).onChip (Chip.onPwr fun p => { p with wokenAt := none }) }) fun t => keepsMemory s t ∧
    n ≤ t.sys.now ∧ t.sys.chip.pwr = { s.sys.chip.pwr with wokenAt := none } := by
  refine ⟨_, rfl, ⟨rfl, rfl⟩, le_await s.sys n, ?_⟩
  rw [Sys.onChip_chip, Chip.onPwr_pwr, await_pwr_eq]

theorem gives_keepAliveRateReturn {w : Nat} (h : s.sys.chip.pwr.wokenAt = some w) :
    Gives (exec .keepAliveRateReturn s) fun t => keepsMemory s t ∧ w + Config.ms 10 ≤ t.sys.now ∧
      t.sys.chip.pwr = { s.sys.chip.pwr with wokenAt := none } := by
  rw [exec_keepAliveRateReturn, execKeepAliveRateReturn, onSys_eq, h]
  exact gives_awaitWoken (w + Config.ms 10)

end LowIdle

end Sys2Proof.Machine
end

section
/-! PROOFS. RETENTION-ONLY and back (16 R421 to R424), and the settlement of O45. -/

namespace Sys2Proof.Machine

section Retention

variable {s : State} {c : Chip}

theorem leaveRun_stops (aborted : Bool) (c : Chip) : (leaveRun aborted c).map.run = false := by
  by_cases h : c.map.run = true
  · rw [(leaveRun_left aborted h).map]
  · rw [leaveRun, if_pos (by simpa using h)]
    exact Bool.not_eq_true _ ▸ h

theorem stopCompute_stops (now : Nat) (c : Chip) : (stopCompute now c).map.run = false := leaveRun_stops ..

/-- The compute has stopped, the link is down, and only RET is left of the domains' power. -/
def retained (now : Nat) (c : Chip) : Chip := { resetHost (stopCompute now c) with
  pwr := { (resetHost (stopCompute now c)).pwr with
    retention := true
    lowIdle := false
    busy := false
    wokenAt := none } }

theorem stopTimeBase_fields (c : Chip) : (stopTimeBase c).pwr.retention = c.pwr.retention ∧ (stopTimeBase c).map = c.map ∧
    (stopTimeBase c).hif = c.hif := by
  unfold stopTimeBase
  dsimp only
  split
  · exact ⟨rfl, rfl, rfl⟩
  · exact ⟨rfl, rfl, rfl⟩

/-- The monitors' lines are down and their records cleared. -/
def monitorsOff (now : Nat) (c : Chip) : Chip :=
  let c := ([40, 42, 44, 45] : List Nat).foldl (fun c n => c.lower n now) c
  { c with pwr := { c.pwr with
    belowWarn := c.pwr.belowWarn &&& 4
    railReset := 0
    hot := false } }

theorem stopMonitors_eq (now : Nat) (c : Chip) : stopMonitors now c = setHeld 0 now (monitorsOff now c) := rfl

theorem stopMonitors_fields (now : Nat) (c : Chip) : (stopMonitors now c).pwr.retention = c.pwr.retention ∧
    (stopMonitors now c).map.run = c.map.run ∧ (c.hif.linkUp = false → (stopMonitors now c).hif.linkUp = false) := by
  have h := resets_setHeld 0 now (monitorsOff now c)
  rw [stopMonitors_eq, h.pwr, h.map]
  exact ⟨rfl, rfl, h.link⟩

theorem enterRetention_fields (now : Nat) (h : c.pwr.retention = false) : (enterRetention now c).pwr.retention = true ∧
    (enterRetention now c).pwr.on = 3 ∧ (enterRetention now c).map.run = false ∧
    (enterRetention now c).hif.linkUp = false := by
  have hf := follows_followRequests now (retained now c)
  obtain ⟨htret, htmap, hthif⟩ := stopTimeBase_fields (followRequests now (retained now c))
  obtain ⟨hmret, hmrun, hmlink⟩ := stopMonitors_fields now (stopTimeBase (followRequests now (retained now c)))
  have heq : enterRetention now c = { stopMonitors now (stopTimeBase (followRequests now (retained now c))) with
      pwr := { (stopMonitors now (stopTimeBase (followRequests now (retained now c)))).pwr with
        on := 3
        trans := Vector.replicate 12 none }
      mgt := { (stopMonitors now (stopTimeBase (followRequests now (retained now c)))).mgt with
        cscReset := false
        wakeAt := none
        awake := none } } := by
    unfold enterRetention
    rw [h]
    rfl
  have hret : (followRequests now (retained now c)).pwr.retention = true := by
    rw [hf.pwr]
    rfl
  have hrun : (followRequests now (retained now c)).map.run = false := by
    rw [hf.map]
    exact stopCompute_stops now c
  have hlink : (followRequests now (retained now c)).hif.linkUp = false := hf.link rfl
  rw [heq]
  refine ⟨?_, rfl, ?_, ?_⟩
  · exact hmret.trans (htret.trans hret)
  · exact hmrun.trans ((congrArg MapRegs.run htmap).trans hrun)
  · exact hmlink (by rw [hthif]; exact hlink)

theorem slot_enterRetention (now : Nat) (c : Chip) : (enterRetention now c).fab.slot = c.fab.slot :=
  congrArg (fun f => f.1) (fixed_enterRetention now c)

theorem turnOffNext_on {x : Cpc} {k : Fin 5} (now : Nat) (h : lastRail RailState.turnedOn x = some k) :
    turnOffNext now x = { setRail k .falling x with stepAt := now } := by
  unfold turnOffNext
  rw [h]

theorem parkAnswered_parked {x : Cpc} {w : Nat} {k : Fin 5} (now : Nat) (hp : x.park = some w)
    (hk : lastRail RailState.turnedOn x = some k) : (parkAnswered now x).park = none ∧
      (parkAnswered now x).rails = x.rails.set k .falling := by
  have hk' : lastRail RailState.turnedOn { x with
      park := none
      parkAck := true } = some k := hk
  unfold parkAnswered
  rw [hp]
  dsimp only
  rw [turnOffNext_on now hk']
  exact ⟨rfl, rfl⟩

theorem park_next (hin : s.sys.tray.input ≠ .battery) : exec .park s = .next { s with
    sys := settleTray ((s.sys.onChip (enterRetention s.sys.now)).onTray
      (Tray.onCpc s.sys.chip.fab.slot (parkAnswered s.sys.now))) } := by
  have hno : ¬((s.sys.onChip (enterRetention s.sys.now)).tray.input == .battery &&
      !(s.sys.onChip (enterRetention s.sys.now)).tray.vrbUp) = true := by
    rw [Bool.and_eq_true, beq_iff_eq]
    exact fun h => hin h.1
  have hretain : retainChip s.sys = s.sys.onChip (enterRetention s.sys.now) := if_neg hno
  rw [exec_park, execPark, onBoard_eq]
  dsimp only
  rw [hretain]
  dsimp only [Sys.onChip]
  rw [slot_enterRetention]

theorem gives_park (h : s.sys.chip.pwr.retention = false) (hin : s.sys.tray.input ≠ .battery) :
    Gives (exec .park s) fun t => keepsMemory s t ∧
      t.sys.chip.pwr.retention = true ∧ t.sys.chip.pwr.on = 3 ∧ t.sys.chip.map.run = false ∧
      t.sys.chip.hif.linkUp = false ∧
      (∀ w k, s.sys.tray.bays[s.sys.chip.fab.slot].cpc.park = some w →
        lastRail RailState.turnedOn s.sys.tray.bays[s.sys.chip.fab.slot].cpc = some k →
        t.sys.tray.bays[s.sys.chip.fab.slot].cpc.park = none ∧
        t.sys.tray.bays[s.sys.chip.fab.slot].cpc.rails[k] = .falling) := by
  obtain ⟨hret, hon, hrun, hlink⟩ := enterRetention_fields s.sys.now h
  refine ⟨_, park_next hin, ⟨rfl, rfl⟩, hret, hon, hrun, hlink, fun w k hp hk => ?_⟩
  obtain ⟨hpark, hrails⟩ := parkAnswered_parked s.sys.now hp hk
  dsimp only
  rw [settleTray_bay, setPwrEn_eq]
  dsimp only
  have hbay : ((s.sys.onChip (enterRetention s.sys.now)).onTray
      (Tray.onCpc s.sys.chip.fab.slot (parkAnswered s.sys.now))).tray.bays[s.sys.chip.fab.slot].cpc =
      parkAnswered s.sys.now s.sys.tray.bays[s.sys.chip.fab.slot].cpc := by
    simp [Sys.onTray, Tray.onCpc, Tray.onBay, Sys.onChip]
  rw [hbay, hpark, hrails]
  exact ⟨rfl, by simp⟩

/-! The return. -/

/-- The chip as its return from RETENTION-ONLY begins. -/
def returning (c : Chip) : Chip := { clearFail c with
  pwr := { (clearFail c).pwr with
    retention := false
    lowIdle := false
    lowIdleReq := false
    on := maskOf [0, 1, bitHost, bitClk]
    point := (clearFail c).pwr.opReq }
  mgt := { (clearFail c).mgt with
    wakeAt := none
    awake := none } }

theorem leaveRetention_eq (now : Nat) (h : c.pwr.retention = true) : leaveRetention now c =
    startTimeBase now (followRequests now (setHeld 0 now (returning c))) := by
  unfold leaveRetention
  rw [h]
  rfl

theorem leaveRetention_fields (now : Nat) (h : c.pwr.retention = true) : (leaveRetention now c).pwr.retention = false ∧
    (leaveRetention now c).reads bitHost = true ∧ (leaveRetention now c).reads bitClk = true := by
  have hheld := resets_setHeld 0 now (returning c)
  have hf := follows_followRequests now (setHeld 0 now (returning c))
  have hpwr := (startTimeBase_fields now (followRequests now (setHeld 0 now (returning c)))).1
  have hother : ∀ b, b ∉ switched → (maskOf [0, 1, bitHost, bitClk]).toNat.testBit b = true →
      (leaveRetention now c).reads b = true := by
    intro b hb hbit
    have hfollow := (followRequests_other hb now (setHeld 0 now (returning c))).1
    rw [leaveRetention_eq now h]
    unfold Chip.reads at hfollow ⊢
    rw [hpwr, hfollow, hheld.pwr]
    exact hbit
  refine ⟨?_, hother bitHost (by decide) (by decide), hother bitClk (by decide) (by decide)⟩
  rw [leaveRetention_eq now h, hpwr, hf.pwr, hheld.pwr]
  rfl

theorem ownersReset_pwr (os : List Owner) (c : Chip) : (c.ownersReset os).pwr = c.pwr := rfl

theorem gives_retentionExit (h : s.sys.chip.pwr.retention = true) : Gives (exec .retentionExit s) fun t => onlyChip s t ∧
    t.sys.chip.pwr.retention = false ∧ t.sys.chip.pwr.on.toNat.testBit bitHost = true ∧
    t.sys.chip.pwr.on.toNat.testBit bitClk = true := by
  obtain ⟨hret, hhost, hclk⟩ := leaveRetention_fields s.sys.now h
  rw [exec_retentionExit, execRetentionExit, onSys_eq]
  refine ⟨_, rfl, rfl, ?_⟩
  rw [Sys.onChip_chip, if_pos h, ownersReset_pwr]
  exact ⟨hret, hhost, hclk⟩

end Retention

/-- Settles O45. -/
theorem domainsAndPowerStatesChange : Obligations.DomainsAndPowerStatesChange := by
  unfold Obligations.DomainsAndPowerStatesChange
  refine ⟨fun s v d => ⟨fun hret => ⟨domainRequest_same v hret, domainRequest_run v hret, ?_⟩,
    fun u h => gives_domainPowerOnEnd h, fun u h hoff => gives_domainPowerOffEnd h hoff⟩,
    fun s => ⟨fun hret => ⟨lowIdleEntry_armed hret, gives_lowIdleEntry hret, gives_lowIdleExit hret⟩,
      fun w h => gives_keepAliveRateReturn h, gives_park, gives_retentionExit, rfl⟩⟩
  intro hreq hrun harm htrip hidle
  rw [domainRequest_stopped v hret hreq hrun harm htrip hidle]
  have hf := follows_followRequests s.sys.now (s.sys.chip.asked (BitVec.setWidth 7 v))
  refine ⟨_, rfl, ⟨rfl, rfl⟩, ?_, fun k hk => ?_⟩
  · rw [State.withChip_sys, Sys.onChip_chip, hf.pwr]
    rfl
  · have hself := followRequests_self (reqBit_switched hk) s.sys.now (s.sys.chip.asked (BitVec.setWidth 7 v))
    rw [wanted_req (c := s.sys.chip.asked (BitVec.setWidth 7 v)) hk hidle hret] at hself
    exact hself

end Sys2Proof.Machine
end

section
/-! PROOFS. What the end of a run, and every reset and retraining, leaves of the power block (16 R426, R435, R437). -/

namespace Sys2Proof.Machine

/-- What ends of runs, resets and the time tree's moves keep: the power block but for its committed groups, its governors and
its domains; run state stays over; no raise is lost; the lines of sources 40 and on stay. -/
structure Halts (c d : Chip) : Prop where
  pwr : d.pwr = { c.pwr with
    on := d.pwr.on
    trans := d.pwr.trans
    held := d.pwr.held
    gov := d.pwr.gov
    steep := d.pwr.steep
    steepPending := d.pwr.steepPending
    mon := d.pwr.mon
    monPending := d.pwr.monPending }
  run : c.map.run = false → d.map.run = false
  raised : ∀ r ∈ c.fc.raised, r ∈ d.fc.raised
  line : ∀ n : SourceId, 40 ≤ n.val → d.fc.src[n].line = c.fc.src[n].line

section

variable {c d e : Chip}

theorem Halts.refl (c : Chip) : Halts c c := ⟨rfl, fun h => h, fun _ h => h, fun _ _ => rfl⟩

theorem Halts.trans (h : Halts c d) (k : Halts d e) : Halts c e where
  pwr := by rw [k.pwr, h.pwr]
  run := fun hr => k.run (h.run hr)
  raised := fun r hr => k.raised r (h.raised r hr)
  line := fun n hn => (k.line n hn).trans (h.line n hn)

theorem Follows.halts (h : Follows c d) : Halts c d where
  pwr := by rw [h.pwr]
  run := fun hr => by rw [h.map]; exact hr
  raised := h.raised
  line := fun n hn => h.line n (by omega)

theorem Resets.halts (h : Resets c d) : Halts c d := h.follows.halts

/-- Nothing of these fields has changed. -/
theorem Halts.of_same (hp : d.pwr = c.pwr) (hm : d.map = c.map) (hf : d.fc = c.fc) : Halts c d := by
  refine ⟨by rw [hp], fun h => by rw [hm]; exact h, fun r h => by rw [hf]; exact h, fun n _ => by rw [hf]⟩

theorem applyGroups_pwr (c : Chip) : ∃ st sp mo mp, (applyGroups c).pwr = { c.pwr with
    steep := st
    steepPending := sp
    mon := mo
    monPending := mp } := by
  unfold applyGroups
  dsimp only
  split <;> split <;> exact ⟨_, _, _, _, rfl⟩

theorem completes_run (aborted : Bool) (c : Chip) : (hifRunEnd aborted (completeEveryOpen c)).pwr = c.pwr := by
  obtain ⟨heq, -, -⟩ := (completes_completeEveryOpen c).trans (completes_hifRunEnd aborted _)
  rw [heq]

theorem leaveRun_pwr (aborted : Bool) (c : Chip) : ∃ st sp mo mp gov, (leaveRun aborted c).pwr = { c.pwr with
    steep := st
    steepPending := sp
    mon := mo
    monPending := mp
    gov := gov } := by
  unfold leaveRun
  split
  · exact ⟨_, _, _, _, _, rfl⟩
  · dsimp only
    rw [← completes_run aborted c]
    generalize hifRunEnd aborted (completeEveryOpen c) = d
    obtain ⟨st, sp, mo, mp, h⟩ := applyGroups_pwr { d with
      map := { d.map with
        run := false
        tracing := false }
      time := { d.time with
        launch := none
        holdSince := none }
      cmp := { d.cmp with
        started := false
        holds := []
        waits := []
        mesh := { d.cmp.mesh with lines := d.cmp.mesh.lines.map (MeshLine.afterRun d.cmp.pcc d.cmp.cycles) } }
      srch := { d.srch with
        queue := []
        active := none
        outs := d.srch.outs.filter SearchOut.forHost
        reserved := []
        lastEnd := 0 }
      pwr := { d.pwr with gov := d.pwr.gov.map fun g => { g with
        ceiling := none
        forecast := none } }
      fab := { d.fab with ports := d.fab.ports.map fun x =>
        { x with ingress := x.ingress.map fun i => { i with gate := i.gate.map fun _ => 0 } } } }
    exact ⟨st, sp, mo, mp, _, h⟩

theorem halts_leaveRun (aborted : Bool) (c : Chip) : Halts c (leaveRun aborted c) := by
  obtain ⟨st, sp, mo, mp, gov, hpwr⟩ := leaveRun_pwr aborted c
  refine ⟨by rw [hpwr], fun _ => leaveRun_stops aborted c, ?_, ?_⟩
  · by_cases h : c.map.run = true
    · exact (leaveRun_left aborted h).raised
    · rw [leaveRun, if_pos (by simpa using h)]
      exact fun r hr => hr
  · intro n _
    by_cases h : c.map.run = true
    · rw [(leaveRun_left aborted h).fc]
    · rw [leaveRun, if_pos (by simpa using h)]

theorem halts_clearLags (c : Chip) : Halts c (clearLags c) := .of_same rfl rfl rfl

theorem halts_stopCompute (now : Nat) (c : Chip) : Halts c (stopCompute now c) :=
  ((resets_resetDomains computeBits now c).halts.trans (halts_leaveRun false _)).trans (halts_clearLags _)

theorem halts_resetCompute (now : Nat) (c : Chip) : Halts c (resetCompute now c) :=
  (halts_stopCompute now c).trans (resets_ownersReset [.chip] _).halts

theorem resetCompute_stops (now : Nat) (c : Chip) : (resetCompute now c).map.run = false := stopCompute_stops now c

theorem halts_raise (n : Nat) (o : Owner) (c : Chip) : Halts c (c.raise n o) :=
  ⟨by rw [Chip.raise_pwr], fun h => h, fun r h => raised_raise n o c r h, fun i _ => raise_line n o c i⟩

theorem halts_assert (n : Nat) (o : Owner) (now : Nat) (hn : n < 40) (c : Chip) : Halts c (c.assert n o now) :=
  ⟨rfl, fun h => h, (sameLatches_assert c.fc now n o).raised, fun i hi =>
    congrArg Source.line (assert_other c.fc now (by omega) o)⟩

theorem halts_lower (n now : Nat) (hn : n < 40) (c : Chip) : Halts c (c.lower n now) :=
  ⟨rfl, fun h => h, (sameLatches_lower c.fc now n).raised, fun i hi =>
    congrArg Source.line (lower_other c.fc now (by omega))⟩

theorem halts_time (t : TimeRegs) (c : Chip) : Halts c { c with time := t } := .of_same rfl rfl rfl

theorem halts_pourOn (k : Fin 4) (f : Frame) (except : Option PortId) (c : Chip) : Halts c (pourOn k f except c) := by
  rw [pourOn_eq]
  exact .of_same rfl rfl rfl

theorem halts_recordAbort (cause aborter : Nat) (c : Chip) : Halts c (recordAbort cause aborter c) := .of_same rfl rfl rfl

theorem halts_pourAbort (id : PourId) (cause : Nat) (c : Chip) : Halts c (pourAbort id cause c) := by
  unfold pourAbort
  exact ((halts_recordAbort cause c.self c).trans (halts_time _ _)).trans (halts_pourOn ..)

theorem halts_startAbort (cause : Nat) (c : Chip) : Halts c (startAbort cause c) := by
  unfold startAbort
  split
  · exact (halts_pourAbort ..).trans (halts_leaveRun ..)
  · exact (halts_recordAbort ..).trans (halts_leaveRun ..)
  · exact .refl c

theorem halts_loseLock (now : Nat) (c : Chip) : Halts c (loseLock now c) :=
  ((halts_time _ c).trans (halts_assert 31 .chip now (by decide) _)).trans (halts_startAbort 8 _)

theorem halts_becomeRoot (now : Nat) (c : Chip) : Halts c (becomeRoot now c) :=
  (halts_time _ c).trans (halts_lower 31 now (by decide) _)

theorem halts_reacquire (now : Nat) (c : Chip) : Halts c (reacquire now c) := by
  unfold reacquire
  split
  · exact halts_becomeRoot now c
  · dsimp only
    split
    · exact halts_time _ c
    · split
      · exact (halts_raise ..).trans (halts_time _ _)
      · exact (halts_raise ..).trans (halts_loseLock ..)

theorem resets_goRetrain (p : PortId) (now : Nat) (c : Chip) : Resets c (goRetrain p now c) := by
  unfold goRetrain
  exact .ite (.refl c) (.ite (resets_onPort ..) (resets_onPort ..))

theorem resets_retrainLost (now : Nat) (c : Chip) : Resets c (retrainLost now c) :=
  resets_foldl (f := fun c p => if (c.port p).retrainDue then goRetrain p now c else c)
    (fun c p => .ite (resets_goRetrain p now c) (.refl c)) allPorts c

theorem resets_tellPartners (c : Chip) : Resets c (tellPartners c) :=
  resets_foldl (fun c p => resets_onPort p _ c) allPorts c

/-- The chip's place in the time tree and its partners' links are taken up again. -/
theorem halts_regain (now : Nat) (c : Chip) : Halts c (reacquire now (retrainLost now (tellPartners c))) :=
  ((resets_tellPartners c).trans (resets_retrainLost now _)).halts.trans (halts_reacquire now _)

end

end Sys2Proof.Machine
end

section
/-! PROOFS. Operating points, supply monitors, the thermal scan and the AON reset (O46). -/

namespace Sys2Proof.Machine

section OperatingPoints

variable {s : State} {c : Chip}

/-! GO, and the start of a transition. -/

theorem opGo_word (r : BitVec 2) (h : r ≠ 3) :
    (if fld (word (16 + r.toNat)) 0 2 == 3 then (2 : BitVec 2) else bv 2 (word (16 + r.toNat)) 0) = r ∧
    (word (16 + r.toNat)).toNat.testBit 4 = true := by
  revert h
  revert r
  decide

theorem writeOpCtl_go {c : Chip} {r : BitVec 2} (hr : c.pwr.opReq = r) (h : r ≠ 3) :
    writeOpCtl (word (16 + r.toNat)) c = opGo c := by
  obtain ⟨hpoint, hgo⟩ := opGo_word r h
  have hsame : (r != r) = false := bne_self_eq_false _
  unfold writeOpCtl
  dsimp only
  rw [hpoint, if_pos hgo, hr, hsame]
  rfl

theorem opGo_next (hret : s.sys.chip.pwr.retention = false) (hbusy : s.sys.chip.pwr.busy = false)
    (hreq : s.sys.chip.pwr.opReq ≠ 3) : exec .opGo s = .next (s.waked.withChip fun c => c.onPwr fun p => { p with
      opGoal := some (p.opReq, p.opAt)
      opPending := true
      deferred := false }) := by
  obtain ⟨w, hpwr⟩ := wakeAccess_pwr s.sys.now s.sys.chip
  have hreq' : (wakeAccess s.sys.now s.sys.chip).pwr.opReq = s.sys.chip.pwr.opReq := by rw [hpwr]
  have hbusy' : (wakeAccess s.sys.now s.sys.chip).pwr.busy = false := by rw [hpwr]; exact hbusy
  have hwrite : writePwr 0x0C (word (16 + s.sys.chip.pwr.opReq.toNat)) s.sys.now (wakeAccess s.sys.now s.sys.chip) =
      (wakeAccess s.sys.now s.sys.chip).onPwr fun p => { p with
        opGoal := some (p.opReq, p.opAt)
        opPending := true
        deferred := false } := by
    have h : writePwr 0x0C (word (16 + s.sys.chip.pwr.opReq.toNat)) s.sys.now (wakeAccess s.sys.now s.sys.chip) =
        writeOpCtl (word (16 + s.sys.chip.pwr.opReq.toNat)) (wakeAccess s.sys.now s.sys.chip) := rfl
    rw [h, writeOpCtl_go hreq' hreq, opGo, hbusy', if_neg Bool.false_ne_true]
    rfl
  have hnext := chipWrite_pwr (s := s) (o := 0x0C) (by decide) (word (16 + s.sys.chip.pwr.opReq.toNat)) hret
  rw [withChip_waked (g := fun c => (wakeAccess s.sys.now c).onPwr fun p => { p with
    opGoal := some (p.opReq, p.opAt)
    opPending := true
    deferred := false }) hwrite] at hnext
  rw [exec_opGo, execOpGo, onSys_eq]
  rw [onSys_eq] at hnext
  exact hnext

theorem opStart_due {g : BitVec 2 × Dword} (hg : c.pwr.opGoal = some g) (hp : c.pwr.opPending = true)
    (hb : c.pwr.busy = false) (hat : g.2.toNat ≤ c.time.coreView.toNat) (now : Nat) : opStart now c =
      if c.map.run then { c with pwr := { c.pwr with
        opPending := false
        deferred := true } }
      else { c with
        pwr := { c.pwr with
          opPending := false
          deferred := false
          busy := true
          opStart := some now }
        time := { c.time with
          locked := false
          role := 2 } } := by
  have hdue : ¬(!(c.pwr.opPending && decide (g.2.toNat ≤ c.time.coreView.toNat) || c.pwr.deferred) || c.pwr.busy) = true := by
    simp [hp, hat, hb]
  unfold opStart
  rw [hg]
  exact if_neg hdue

theorem opTransitionStart_next {g : BitVec 2 × Dword} (hg : s.sys.chip.pwr.opGoal = some g)
    (hp : s.sys.chip.pwr.opPending = true) (hb : s.sys.chip.pwr.busy = false) (ht : timeBaseRuns s.sys.chip = true)
    (hat : g.2.toNat ≤ s.sys.chip.time.coreView.toNat) :
    exec .opTransitionStart s = .next (s.withChip (opStart s.sys.now)) := by
  have hview : s.sys.awaitView g.2.toNat = s.sys := awaitView_of_le _ _ hat
  rw [exec_opTransitionStart, execOpTransitionStart, onSys_eq, hg]
  dsimp only
  rw [hp, hb, if_pos (show (true && !false) = true from rfl), hview, if_pos ht]
  rfl

/-! The end of a transition. -/

/-- The chip at the end of a transition, before it regains its place. -/
def opChecked (ok : Bool) (now : Nat) (c : Chip) : Chip :=
  let goal := (c.pwr.opGoal.map fun g => g.1).getD c.pwr.point
  let c := { c with pwr := { c.pwr with busy := false, opGoal := none } }
  if ok then setHeld 0 now { c with pwr := { c.pwr with point := goal } }
  else
    let c := { c with pwr := { c.pwr with opFail := true } }
    setHeld 0 now (resetDomains fabBits now (resetCompute now (c.raise 50 .chip)))

theorem opEnd_eq (ok : Bool) (now : Nat) (c : Chip) : opEnd ok now c =
    let d := reacquire now (retrainLost now (tellPartners (opChecked ok now c)))
    if d.pwr.lowIdleReq then enterLowIdle now d else d := by
  unfold opEnd opChecked
  dsimp only

/-- What the end of a transition leaves as its check has left it. -/
structure OpEnds (c d : Chip) : Prop where
  busy : d.pwr.busy = c.pwr.busy
  point : d.pwr.point = c.pwr.point
  fail : d.pwr.opFail = c.pwr.opFail
  goal : c.pwr.opGoal = none → d.pwr.opGoal = none
  run : c.map.run = false → d.map.run = false
  raised : ∀ r ∈ c.fc.raised, r ∈ d.fc.raised

theorem Halts.opEnds {d : Chip} (h : Halts c d) : OpEnds c d where
  busy := by rw [h.pwr]
  point := by rw [h.pwr]
  fail := by rw [h.pwr]
  goal := fun hg => by rw [h.pwr]; exact hg
  run := h.run
  raised := h.raised

theorem OpEnds.trans {d e : Chip} (h : OpEnds c d) (k : OpEnds d e) : OpEnds c e where
  busy := k.busy.trans h.busy
  point := k.point.trans h.point
  fail := k.fail.trans h.fail
  goal := fun hg => k.goal (h.goal hg)
  run := fun hr => k.run (h.run hr)
  raised := fun r hr => k.raised r (h.raised r hr)

theorem opEnds_stopTimeBase (c : Chip) : OpEnds c (stopTimeBase c) := by
  unfold stopTimeBase
  dsimp only
  split
  · exact ⟨rfl, rfl, rfl, fun _ => rfl, fun h => h, fun _ h => h⟩
  · exact ⟨rfl, rfl, rfl, fun h => h, fun h => h, fun _ h => h⟩

theorem opEnds_enterLowIdle (now : Nat) (c : Chip) : OpEnds c (enterLowIdle now c) := by
  have h0 : OpEnds c { c with pwr := { c.pwr with
      lowIdle := true
      lowIdleReq := true
      wokenAt := none } } := ⟨rfl, rfl, rfl, fun h => h, fun h => h, fun _ h => h⟩
  have h1 := (h0.trans (opEnds_stopTimeBase _)).trans (follows_followRequests now _).halts.opEnds
  exact h1.trans (follows_setOn bitClk false _).halts.opEnds

theorem opEnds_opEnd (ok : Bool) (now : Nat) (c : Chip) : OpEnds (opChecked ok now c) (opEnd ok now c) := by
  have h := (halts_regain now (opChecked ok now c)).opEnds
  rw [opEnd_eq]
  dsimp only
  generalize reacquire now (retrainLost now (tellPartners (opChecked ok now c))) = d at h ⊢
  split
  · exact h.trans (opEnds_enterLowIdle now d)
  · exact h

theorem opEnd_good {g : BitVec 2 × Dword} (now : Nat) (hg : c.pwr.opGoal = some g) : (opEnd true now c).pwr.busy = false ∧
    (opEnd true now c).pwr.point = g.1 ∧ (opEnd true now c).pwr.opGoal = none := by
  have h := opEnds_opEnd true now c
  have hheld : opChecked true now c = setHeld 0 now { c with pwr := { c.pwr with
      busy := false
      opGoal := none
      point := g.1 } } := by
    unfold opChecked
    rw [hg]
    rfl
  have hr := (resets_setHeld 0 now { c with pwr := { c.pwr with
      busy := false
      opGoal := none
      point := g.1 } }).pwr
  rw [← hheld] at hr
  refine ⟨h.busy.trans ?_, h.point.trans ?_, h.goal ?_⟩
  · rw [hr]
  · rw [hr]
  · rw [hr]

/-- A transition has failed its check. -/
def opFailed (c : Chip) : Chip := { c with pwr := { c.pwr with
  busy := false
  opGoal := none
  opFail := true } }

theorem opChecked_bad (now : Nat) (c : Chip) : opChecked false now c =
    setHeld 0 now (resetDomains fabBits now (resetCompute now ((opFailed c).raise 50 .chip))) := by
  unfold opChecked opFailed
  exact if_neg Bool.false_ne_true

theorem raise_mem {n : Nat} (i : SourceId) (hn : n = i.val) (o : Owner) (c : Chip) : ⟨i, o⟩ ∈ (c.raise n o).fc.raised := by
  subst hn
  have hi : finOf 64 i.val = some i := by simp [finOf]
  unfold Chip.raise Collector.raise
  rw [hi]
  exact List.mem_append_right _ (List.mem_singleton.mpr rfl)

theorem opEnd_bad (now : Nat) (c : Chip) : (opEnd false now c).pwr.busy = false ∧ (opEnd false now c).pwr.opFail = true ∧
    (opEnd false now c).map.run = false ∧ ⟨50, .chip⟩ ∈ (opEnd false now c).fc.raised := by
  have h := opEnds_opEnd false now c
  have hreset := halts_resetCompute now ((opFailed c).raise 50 .chip)
  have hstop := resetCompute_stops now ((opFailed c).raise 50 .chip)
  have hend : Halts (resetCompute now ((opFailed c).raise 50 .chip)) (opChecked false now c) := by
    rw [opChecked_bad]
    exact ((resets_resetDomains fabBits now _).trans (resets_setHeld 0 now _)).halts
  have hall := hreset.trans hend
  refine ⟨h.busy.trans ?_, h.fail.trans ?_, h.run (hend.run hstop), h.raised _ (hall.raised _ (raise_mem 50 rfl .chip _))⟩
  · rw [hall.pwr]
    rfl
  · rw [hall.pwr]
    rfl

theorem gives_opTransitionEnd {w : Nat} (hb : s.sys.chip.pwr.busy = true) (hw : s.sys.chip.pwr.opStart = some w) (a b : Bool) :
    exec (.opTransitionEnd a b) s = .next { s with
      sys := (s.sys.await (w + Config.us 150)).onChip (opEnd (a && b) (s.sys.await (w + Config.us 150)).now) } := by
  rw [exec_opTransitionEnd, execOpTransitionEnd, onSys_eq, hb, hw]

end OperatingPoints

end Sys2Proof.Machine
end

section
/-! PROOFS. Supply monitors, the thermal scan and the AON reset (O46). -/

namespace Sys2Proof.Machine

section SupplyMonitors

variable {s : State} {c : Chip}

/-! A rail's warning, recovery and reset (16 R433 to R435). -/

/-- The warning source of a rail, as an index. -/
def warnId (r : MonRail) : SourceId := if r.val = 0 then 40 else if r.val = 1 then 42 else if r.val = 2 then 43 else 44

theorem warnSource_eq : ∀ r : MonRail, warnSource r = (warnId r).val := by decide

theorem warnId_ge : ∀ r : MonRail, 40 ≤ (warnId r).val := by decide

theorem railWarn_pwr (r : MonRail) (now : Nat) (c : Chip) :
    (railWarn r now c).pwr = { c.pwr with belowWarn := c.pwr.belowWarn ||| railMask r } := rfl

theorem railWarn_line (r : MonRail) (now : Nat) (c : Chip) : (railWarn r now c).fc.src[warnId r].line = true := by
  unfold railWarn
  rw [warnSource_eq r]
  exact assert_sets_line _ _ (warnId r) .chip

theorem halts_resumeIssue (c : Chip) : Halts c (resumeIssue c) := by
  unfold resumeIssue
  split
  · exact .refl c
  · dsimp only
    split
    · exact halts_time _ c
    · exact ((halts_time _ c).trans (halts_pourOn ..)).trans (halts_time _ _)

/-- The chip as a rail's recovery finds it: below neither level on its account, its source deasserted. -/
def railAbove (r : MonRail) (now : Nat) (c : Chip) : Chip :=
  (c.onPwr fun p => { p with
    belowWarn := p.belowWarn &&& ~~~(railMask r)
    railReset := p.railReset &&& ~~~(railMask r) }).lower (warnSource r) now

theorem halts_railRecovered (r : MonRail) (now : Nat) (c : Chip) : Halts (railAbove r now c) (railRecovered r now c) := by
  unfold railRecovered
  dsimp only
  refine Halts.trans ?_ (((resets_setHeld _ now _).halts).trans (halts_resumeIssue _))
  split
  · exact (resets_ownersReset [.chip] _).halts
  · exact .refl _

theorem railAbove_line (r : MonRail) (now : Nat) (c : Chip) : (railAbove r now c).fc.src[warnId r].line = false := by
  unfold railAbove
  rw [warnSource_eq r]
  exact lower_clears_line _ _ (warnId r)

/-- A rail's reset on its way: source 41 raised, and the rail recorded. -/
def railBelow (r : MonRail) (now : Nat) (c : Chip) : Chip :=
  ((railWarn r now c).raise 41 .chip).onPwr fun p => { p with
    resetRail := BitVec.ofNat 2 r.val
    railReset := p.railReset ||| railMask r }

theorem halts_railReset (r : MonRail) (now : Nat) (c : Chip) : Halts (railBelow r now c) (railReset r now c) ∧
    (railReset r now c).map.run = false := by
  have hend := ((resets_resetDomains fabBits now (resetCompute now (railBelow r now c))).trans
    (resets_setHeld (heldByReset (resetDomains fabBits now (resetCompute now (railBelow r now c)))) now _)).halts
  exact ⟨(halts_resetCompute now (railBelow r now c)).trans hend, hend.run (resetCompute_stops now _)⟩

/-! The commands. -/

theorem supplyWarning_next {r : MonRail} (h : monitorRuns s.sys.chip r = true) :
    exec (.supplyWarning r) s = .next (s.withChip (railWarn r s.sys.now)) := by
  rw [exec_supplyWarning, execSupplyWarning, onSys_eq, Sys.onChip]
  rw [if_pos h]
  rfl

theorem supplyRecovered_next {r : MonRail} (h : monitorRuns s.sys.chip r = true) :
    exec (.supplyRecovered r) s = .next (s.withChip (railRecovered r s.sys.now)) := by
  rw [exec_supplyRecovered, execSupplyRecovered, onSys_eq, Sys.onChip]
  rw [if_pos h]
  rfl

theorem supplyReset_next {r : MonRail} (h : monitorRuns s.sys.chip r = true) (hr : r.val ≠ 2) :
    exec (.supplyReset r) s = .next (s.withChip (railReset r s.sys.now)) := by
  rw [exec_supplyReset, execSupplyReset, if_neg (by simpa using hr), onSys_eq, Sys.onChip]
  rw [if_pos h]
  rfl

theorem supplyReset_vret {r : MonRail} (hr : r.val = 2) : exec (.supplyReset r) s = .next { s with
    mem := []
    sys := loseRet (s.sys.onChip (railWarn r s.sys.now)) } := by
  rw [exec_supplyReset, execSupplyReset, if_pos (by simpa using hr), onMemSys]

theorem gives_supplyRecovered {r : MonRail} (h : monitorRuns s.sys.chip r = true) :
    Gives (exec (.supplyRecovered r) s) fun t => onlyChip s t ∧ t.sys.chip.fc.src[warnId r].line = false ∧
      t.sys.chip.pwr.belowWarn = s.sys.chip.pwr.belowWarn &&& ~~~(railMask r) ∧
      t.sys.chip.pwr.railReset = s.sys.chip.pwr.railReset &&& ~~~(railMask r) := by
  have hh := halts_railRecovered r s.sys.now s.sys.chip
  have hline := (hh.line _ (warnId_ge r)).trans (railAbove_line r s.sys.now s.sys.chip)
  have hpwr := hh.pwr
  refine ⟨_, supplyRecovered_next h, rfl, ?_⟩
  unfold State.withChip
  dsimp only
  refine ⟨hline, ?_, ?_⟩
  · rw [hpwr]; rfl
  · rw [hpwr]; rfl

theorem gives_supplyReset {r : MonRail} (h : monitorRuns s.sys.chip r = true) (hr : r.val ≠ 2) :
    Gives (exec (.supplyReset r) s) fun t => onlyChip s t ∧ t.sys.chip.map.run = false ∧
      t.sys.chip.pwr.resetRail = BitVec.ofNat 2 r.val ∧ ⟨41, .chip⟩ ∈ t.sys.chip.fc.raised := by
  obtain ⟨hh, hrun⟩ := halts_railReset r s.sys.now s.sys.chip
  have hraised := hh.raised _ (show ⟨41, .chip⟩ ∈ (railBelow r s.sys.now s.sys.chip).fc.raised from raise_mem 41 rfl .chip _)
  have hpwr := hh.pwr
  refine ⟨_, supplyReset_next h hr, rfl, ?_⟩
  unfold State.withChip
  dsimp only
  refine ⟨hrun, ?_, hraised⟩
  rw [hpwr]
  rfl

end SupplyMonitors

section Thermal

variable {s : State} {c : Chip}

/-! A scan of the sensors (16 R436, R437). -/

theorem recordMax_eq (rs : Vector Int 16) (y : Sys) : ∃ m k, recordMax rs y = { y with
      free := (recordMax rs y).free
      chip := y.chip.onPwr fun p => { p with
        thermMax := m
        thermSensor := k } } ∧
    (0 ≤ hottest rs → hottest rs < 512 → m = BitVec.ofInt 9 (hottest rs)) := by
  refine ⟨_, _, rfl, fun h0 h1 => ?_⟩
  rw [if_pos (by simp [h0, h1])]

/-- The chip after a scan, but for a trip. -/
def thermNoted (h : Int) (now : Nat) (c : Chip) : Chip :=
  let warn := 2 * (c.pwr.thermWarn.toNat : Int) ≤ h
  let d := if warn then c.assert 45 .chip now else c.lower 45 now
  let e := if warn then d else d.onPwr fun p => { p with tripHold := false }
  e.onPwr fun p => { p with hot := 220 ≤ h }

theorem thermNoted_fields (h : Int) (now : Nat) (c : Chip) : ∃ hold, (thermNoted h now c).pwr = { c.pwr with
      tripHold := hold
      hot := decide (220 ≤ h) } ∧
    (thermNoted h now c).fc.src[(45 : SourceId)].line = decide (2 * (c.pwr.thermWarn.toNat : Int) ≤ h) := by
  unfold thermNoted
  dsimp only
  by_cases hw : 2 * (c.pwr.thermWarn.toNat : Int) ≤ h
  · rw [if_pos hw, if_pos hw, decide_eq_true hw]
    exact ⟨c.pwr.tripHold, rfl, assert_sets_line c.fc now 45 .chip⟩
  · rw [if_neg hw, if_neg hw, decide_eq_false hw]
    exact ⟨false, rfl, lower_clears_line c.fc now 45⟩

theorem thermalReact_eq (h : Int) (now : Nat) (c : Chip) : thermalReact h now c =
    if 220 ≤ h && !c.pwr.hot then thermalTrip now (thermNoted h now c) else thermNoted h now c := by
  unfold thermalReact thermNoted
  by_cases hw : 2 * (c.pwr.thermWarn.toNat : Int) ≤ h
  · simp only [hw, if_true]
    rfl
  · simp only [hw, if_false]
    rfl

/-- The trip's effect on the chip. -/
theorem thermalTrip_fields (now : Nat) (c : Chip) :
    (thermalTrip now c).pwr.thermMax = c.pwr.thermMax ∧
    (thermalTrip now c).fc.src[(45 : SourceId)].line = c.fc.src[(45 : SourceId)].line ∧
    (thermalTrip now c).pwr.tripped = true ∧ (thermalTrip now c).map.run = false ∧ (thermalTrip now c).time.arm = false ∧
    (thermalTrip now c).pwr.req = c.pwr.req &&& 0x60#7 ∧ ⟨46, .chip⟩ ∈ (thermalTrip now c).fc.raised := by
  have hstop := ((halts_raise 46 .chip c).trans (halts_leaveRun false _)).trans (halts_clearLags _)
  have hrun : (clearLags (leaveRun false (c.raise 46 .chip))).map.run = false := leaveRun_stops false _
  have hraised : ⟨46, .chip⟩ ∈ (clearLags (leaveRun false (c.raise 46 .chip))).fc.raised :=
    (halts_leaveRun false _).raised _ (raise_mem 46 rfl .chip c)
  unfold thermalTrip
  dsimp only
  generalize clearLags (leaveRun false (c.raise 46 .chip)) = d at hstop hrun hraised ⊢
  have hreq : d.pwr.req = c.pwr.req := by rw [hstop.pwr]
  have hmax : d.pwr.thermMax = c.pwr.thermMax := by rw [hstop.pwr]
  have hend := follows_followRequests now { d.onPwr fun p => { p with
      req := p.req &&& 0x60#7
      tripped := true
      tripHold := true } with
    time := { (d.onPwr fun p => { p with
      req := p.req &&& 0x60#7
      tripped := true
      tripHold := true }).time with
        arm := false } }
  refine ⟨?_, (hend.line 45 (by decide)).trans (hstop.line 45 (by decide)), ?_, ?_, ?_, ?_, hend.raised _ hraised⟩
  · rw [hend.pwr]; exact hmax
  · rw [hend.pwr]; rfl
  · rw [hend.map]; exact hrun
  · rw [hend.time]
  · rw [hend.pwr]
    show d.pwr.req &&& 0x60#7 = _
    rw [hreq]

theorem thermalReact_fields (h : Int) (now : Nat) (c : Chip) :
    (thermalReact h now c).pwr.thermMax = c.pwr.thermMax ∧
    (thermalReact h now c).fc.src[(45 : SourceId)].line = decide (2 * (c.pwr.thermWarn.toNat : Int) ≤ h) ∧
    (220 ≤ h → c.pwr.hot = false → (thermalReact h now c).pwr.tripped = true ∧ (thermalReact h now c).map.run = false ∧
      (thermalReact h now c).time.arm = false ∧ (thermalReact h now c).pwr.req = c.pwr.req &&& 0x60#7 ∧
      ⟨46, .chip⟩ ∈ (thermalReact h now c).fc.raised) := by
  obtain ⟨hold, hpwr, hline⟩ := thermNoted_fields h now c
  rw [thermalReact_eq]
  split
  · obtain ⟨hmax, hkeep, htrip, hrun, harm, hreq, hraised⟩ := thermalTrip_fields now (thermNoted h now c)
    rw [hpwr] at hmax hreq
    exact ⟨hmax, hkeep.trans hline, fun _ _ => ⟨htrip, hrun, harm, hreq, hraised⟩⟩
  · next hno =>
    refine ⟨by rw [hpwr], hline, fun hhot hwas => absurd ?_ hno⟩
    simp [hhot, hwas]

theorem gives_thermalScan (milliC : Vector Int 16) (hret : s.sys.chip.pwr.retention = false) :
    Gives (exec (.thermalScan milliC) s) fun t => keepsMemory s t ∧ t.sys.tray = s.sys.tray ∧
      (0 ≤ hottest (milliC.map halfDegrees) → hottest (milliC.map halfDegrees) < 512 →
        t.sys.chip.pwr.thermMax = BitVec.ofInt 9 (hottest (milliC.map halfDegrees))) ∧
      t.sys.chip.fc.src[(45 : SourceId)].line =
        decide (2 * (s.sys.chip.pwr.thermWarn.toNat : Int) ≤ hottest (milliC.map halfDegrees)) ∧
      (220 ≤ hottest (milliC.map halfDegrees) → s.sys.chip.pwr.hot = false → t.sys.chip.pwr.tripped = true ∧
        t.sys.chip.map.run = false ∧ t.sys.chip.time.arm = false ∧ t.sys.chip.pwr.req = s.sys.chip.pwr.req &&& 0x60#7 ∧
        ⟨46, .chip⟩ ∈ t.sys.chip.fc.raised) := by
  obtain ⟨m, k, hrec, hm⟩ := recordMax_eq (milliC.map halfDegrees) s.sys
  have hscan : exec (.thermalScan milliC) s = .next { s with
      sys := (recordMax (milliC.map halfDegrees) s.sys).onChip
        (thermalReact (hottest (milliC.map halfDegrees)) (recordMax (milliC.map halfDegrees) s.sys).now) } := by
    rw [exec_thermalScan, execThermalScan, onSys_eq, hret, if_neg Bool.false_ne_true]
  rw [hscan, hrec]
  generalize hottest (milliC.map halfDegrees) = h at hm ⊢
  obtain ⟨hmax, hline, htrip⟩ := thermalReact_fields h s.sys.now (s.sys.chip.onPwr fun p => { p with
    thermMax := m
    thermSensor := k })
  exact ⟨_, rfl, ⟨rfl, rfl⟩, rfl, fun h0 h1 => hmax.trans (hm h0 h1), hline, htrip⟩

end Thermal

section AonReset

variable {s : State} {c : Chip}

/-! The AON reset (16 R445). -/

/-- Only the ports, the transactions' records of their arbitration, the collector and the time base change. -/
def PortsStep (c d : Chip) : Prop := d = { c with
  fab := { c.fab with
    ports := d.fab.ports
    txns := d.fab.txns }
  fc := d.fc
  time := d.time }

theorem PortsStep.trans {d e : Chip} (h : PortsStep c d) (k : PortsStep d e) : PortsStep c e := by
  unfold PortsStep at *
  rw [k, h]

theorem portsStep_foldl {β : Type} {f : Chip → β → Chip} (h : ∀ c b, PortsStep c (f c b)) (l : List β) (c : Chip) :
    PortsStep c (l.foldl f c) := by
  induction l generalizing c with
  | nil => rfl
  | cons b l ih => exact (h c b).trans (ih _)

theorem portsStep_startPorts (bit now : Nat) (c : Chip) : PortsStep c (startPorts bit now c) := by
  unfold startPorts
  split
  · exact portsStep_foldl (fun c p => ((linkStep_onPort ..).trans (linkStep_enterDetect p now _)).eq) _ c
  · rfl

theorem gives_aonReset (s : State) : Gives (exec .aonReset s) fun t => t.mem = [] ∧ t.sys.ecc = [] ∧
    t.sys.tray = s.sys.tray ∧ t.sys.out = s.sys.out ∧ t.sys.chip.cmp = Compute.reset ∧ t.sys.chip.time = TimeRegs.reset ∧
    t.sys.chip.pwr = Power.reset ∧ t.sys.chip.hif = HostIf.reset ∧ t.sys.chip.map.run = false ∧
    t.sys.chip.fixed = s.sys.chip.fixed := by
  have hstep := portsStep_foldl (fun c b => portsStep_startPorts b s.sys.now c) fabBits (aonReset s.sys.chip)
  have htime := (resets_foldl (fun c b => resets_startPorts b s.sys.now c) fabBits (aonReset s.sys.chip)).time
  have haon : exec .aonReset s = .next { s with
      mem := []
      sys := { s.sys with
        ecc := []
        chip := fabBits.foldl (fun c b => startPorts b s.sys.now c) (aonReset s.sys.chip) } } := by
    rw [exec_aonReset, execAonReset, onMemSys]
  rw [haon]
  generalize fabBits.foldl (fun c b => startPorts b s.sys.now c) (aonReset s.sys.chip) = d at hstep htime ⊢
  unfold PortsStep at hstep
  refine ⟨_, rfl, rfl, rfl, rfl, rfl, ?_, htime, ?_, ?_, ?_, ?_⟩
  · rw [hstep]; rfl
  · rw [hstep]; rfl
  · rw [hstep]; rfl
  · rw [hstep]; rfl
  · rw [hstep]; rfl

end AonReset

section OperatingPoints

variable {s : State}

theorem gives_opEnd_good {g : BitVec 2 × Dword} (hg : s.sys.chip.pwr.opGoal = some g) (n : Nat) : Gives (.next { s with
      sys := (s.sys.await n).onChip (opEnd (true && true) (s.sys.await n).now) }) fun t => keepsMemory s t ∧ n ≤ t.sys.now ∧
    t.sys.chip.pwr.busy = false ∧ t.sys.chip.pwr.point = g.1 ∧ t.sys.chip.pwr.opGoal = none := by
  have hgoal : (s.sys.await n).chip.pwr.opGoal = some g := by rw [await_pwr_eq, hg]
  have h := opEnd_good (s.sys.await n).now hgoal
  have hn := le_await s.sys n
  rw [Bool.and_self]
  unfold Sys.onChip
  generalize opEnd true (s.sys.await n).now (s.sys.await n).chip = d at h ⊢
  exact ⟨_, rfl, ⟨rfl, rfl⟩, hn, h⟩

theorem gives_opEnd_bad (n : Nat) : Gives (.next { s with
      sys := (s.sys.await n).onChip (opEnd false (s.sys.await n).now) }) fun t => keepsMemory s t ∧
    t.sys.chip.pwr.busy = false ∧ t.sys.chip.pwr.opFail = true ∧ t.sys.chip.map.run = false ∧
    ⟨50, .chip⟩ ∈ t.sys.chip.fc.raised := by
  have h := opEnd_bad (s.sys.await n).now (s.sys.await n).chip
  unfold Sys.onChip
  generalize opEnd false (s.sys.await n).now (s.sys.await n).chip = d at h ⊢
  exact ⟨_, rfl, ⟨rfl, rfl⟩, h⟩

end OperatingPoints

/-- Settles O46: the power block's writes, its transition's ends by what the resets and retraining leave, its monitors'
lines, the thermal trip, and the AON reset by the ports' starts. -/
theorem operatingPointAndMonitorsAct : Obligations.OperatingPointAndMonitorsAct := by
  unfold Obligations.OperatingPointAndMonitorsAct
  refine ⟨fun s => ⟨opGo_next, fun g hg hp hb ht hat => ⟨fun hrun => ?_, fun hrun => ?_⟩, fun w g hb hw hg => ⟨?_, ?_⟩⟩,
    fun s r => ⟨fun hmon => ⟨?_, gives_supplyRecovered hmon, fun hr => gives_supplyReset hmon hr⟩, fun hr => ?_,
      fun milliC hret => gives_thermalScan milliC hret, gives_aonReset s⟩⟩
  · rw [opTransitionStart_next hg hp hb ht hat]
    unfold State.withChip
    rw [opStart_due hg hp hb hat, hrun, if_neg Bool.false_ne_true]
  · rw [opTransitionStart_next hg hp hb ht hat]
    unfold State.withChip
    rw [opStart_due hg hp hb hat, hrun, if_pos rfl]
    rfl
  · rw [gives_opTransitionEnd hb hw]
    exact gives_opEnd_good hg (w + Config.us 150)
  · intro a b hab
    rw [gives_opTransitionEnd hb hw, hab]
    exact gives_opEnd_bad (w + Config.us 150)
  · rw [supplyWarning_next hmon]
    exact ⟨_, rfl, rfl, rfl, railWarn_line r s.sys.now s.sys.chip, rfl⟩
  · rw [supplyReset_vret hr]
    exact ⟨_, rfl, rfl, rfl, rfl, railWarn_line r s.sys.now s.sys.chip⟩

end Sys2Proof.Machine
end

section
/-! PROOFS. The tray's commands: how they answer, and what settling makes of lines, of a CPC and of an axis. -/

namespace Sys2Proof.Machine

section Board

variable {s : State} {y : Sys} {t : Tray} {now : Nat}

/-! How a command of the tray answers. -/

theorem onTray_same {f : Nat → Tray → Tray} (h : f s.sys.now s.sys.tray = s.sys.tray) : onTray f s = .next s.settled := by
  rw [onTray_eq]
  unfold State.withTray
  rw [h]

theorem onTray_with {f : Nat → Tray → Tray} {g : Tray → Tray} (h : f s.sys.now s.sys.tray = g s.sys.tray) :
    onTray f s = .next (s.withTray g).settled := by
  rw [onTray_eq]
  unfold State.withTray
  rw [h]

/-- The state that a command of the tray leaves, given the tray it makes. -/
def State.becomes (s : State) (t : Tray) : State := { s with sys := settleTray { s.sys with tray := t } }

theorem onTray_becomes {f : Nat → Tray → Tray} {t : Tray} (h : f s.sys.now s.sys.tray = t) :
    onTray f s = .next (s.becomes t) := by
  subst h
  rfl

@[simp] theorem becomes_mem (t : Tray) : (s.becomes t).mem = s.mem := rfl
@[simp] theorem becomes_pending (t : Tray) : (s.becomes t).pending = s.pending := rfl
@[simp] theorem becomes_chip (t : Tray) : (s.becomes t).sys.chip = s.sys.chip := rfl
@[simp] theorem becomes_out (t : Tray) : (s.becomes t).sys.out = s.sys.out := rfl
@[simp] theorem becomes_now (t : Tray) : (s.becomes t).sys.now = s.sys.now := rfl

theorem becomes_onlyTray (t : Tray) : onlyTray s (s.becomes t) := rfl

theorem becomes_tray (t : Tray) : (s.becomes t).sys.tray = (settleTray { s.sys with tray := t }).tray := rfl

theorem becomes_self : s.becomes s.sys.tray = s.settled := rfl

/-! Lines and raises of the tray's collector. -/

theorem settleTray_line {i : SourceId} (h : 16 ≤ i.val) : (settleTray y).tray.fc.src[i].line = y.tray.fc.src[i].line := by
  rw [settleTray_fc, errFollowed_other y h]

theorem settleTray_raised {r : Raise} (h : r ∈ y.tray.fc.raised) : r ∈ (settleTray y).tray.fc.raised := by
  rw [settleTray_fc]
  exact (errFollowed_latches y).raised r h

theorem becomes_line {i : SourceId} (h : 16 ≤ i.val) : (s.becomes t).sys.tray.fc.src[i].line = t.fc.src[i].line :=
  settleTray_line h

/-! The log of power events and the battery's state. -/

theorem logPower_eq (typ : Nat) (t : Tray) : ∃ log head, Tray.logPower typ now t = { t with
    log := log
    logHead := head } := ⟨_, _, rfl⟩

theorem setBbu_eq (st : BbuState) (t : Tray) : ∃ log head, setBbu st now t = { t with
    bbu := st
    log := log
    logHead := head } := by
  unfold setBbu
  split
  · rename_i h
    rw [← eq_of_beq h]
    exact ⟨t.log, t.logHead, rfl⟩
  · obtain ⟨log, head, h⟩ := logPower_eq (now := now) (if st == .depleted then 0x15 else 0x16) { t with bbu := st }
    exact ⟨log, head, h⟩

/-! A bay and its CPC as settling leaves them. -/

theorem settleTray_cpc (n : SlotId) : (settleTray y).tray.bays[n].cpc =
    setPwrEn (y.tray.pwrEn n) y.now y.tray.bays[n].cpc := by
  rw [settleTray_bay]

section Cpc

variable (v : Bool) (c : Cpc)

@[simp] theorem setPwrEn_pwrEn : (setPwrEn v now c).pwrEn = v := by rw [setPwrEn_eq]
@[simp] theorem setPwrEn_rails : (setPwrEn v now c).rails = c.rails := by rw [setPwrEn_eq]
@[simp] theorem setPwrEn_st : (setPwrEn v now c).st = c.st := by rw [setPwrEn_eq]
@[simp] theorem setPwrEn_park : (setPwrEn v now c).park = c.park := by rw [setPwrEn_eq]
@[simp] theorem setPwrEn_faultDown : (setPwrEn v now c).faultDown = c.faultDown := by rw [setPwrEn_eq]
@[simp] theorem setPwrEn_seqCount : (setPwrEn v now c).seqCount = c.seqCount := by rw [setPwrEn_eq]
@[simp] theorem setPwrEn_inputCount : (setPwrEn v now c).inputCount = c.inputCount := by rw [setPwrEn_eq]
@[simp] theorem setPwrEn_cause : (setPwrEn v now c).cause = c.cause := by rw [setPwrEn_eq]
@[simp] theorem setPwrEn_rail : (setPwrEn v now c).rail = c.rail := by rw [setPwrEn_eq]
@[simp] theorem setPwrEn_valid : (setPwrEn v now c).valid = c.valid := by rw [setPwrEn_eq]
@[simp] theorem setPwrEn_railsOff : (setPwrEn v now c).railsOff = c.railsOff := by rw [setPwrEn_eq]; rfl

theorem setPwrEn_seqFault_clear (h : c.seqFault = false) : (setPwrEn v now c).seqFault = false := by
  rw [setPwrEn_eq]
  simp [h]

@[simp] theorem setPwrEn_records (cause rail : Nat) : (setPwrEn v now c).records cause rail = c.records cause rail := by
  simp [Cpc.records]

@[simp] theorem setPwrEn_goesOff : (setPwrEn v now c).goesOff = c.goesOff := by
  simp [Cpc.goesOff]

end Cpc

theorem pwrEn_false {n : SlotId} (h : t.input ≠ .normal ∨ t.bays[n].present = false ∨ t.bays[n].leak = true) :
    t.pwrEn n = false := by
  rw [← Bool.not_eq_true, pwrEn_iff]
  rintro ⟨hin, hp, -, hl, -⟩
  rcases h with h | h | h
  · exact h hin
  · rw [hp] at h
    exact Bool.noConfusion h
  · rw [hl] at h
    exact Bool.noConfusion h

/-! An axis as settling leaves it. -/

/-- Where the beginning of full cooling sends an axis that has drive power. -/
def fullSent (t : Tray) (now : Nat) (n : AxisId) (x : Axis) : Axis :=
  match fullTarget t n with
  | some target => sendAxis target now x
  | none => if x.st == .following then release { x with closePending := false } else { x with closePending := false }

theorem startFullAxis_eq (u : Tray) (n : AxisId) : startFullAxis t now n u = u.onAxis n (fullSent t now n) := by
  unfold startFullAxis fullSent
  cases fullTarget t n <;> rfl

theorem foldl_onAxis (g : AxisId → Axis → Axis) (l : List AxisId) (hl : l.Nodup) : ∀ t : Tray,
    l.foldl (fun u n => u.onAxis n (g n)) t = { t with
      axes := Vector.ofFn fun m => if m ∈ l then g m t.axes[m] else t.axes[m] } := by
  induction l with
  | nil => intro t; simp
  | cons n l ih =>
    intro t
    rw [List.nodup_cons] at hl
    rw [List.foldl_cons, ih hl.2]
    have hget (m : AxisId) : (t.onAxis n (g n)).axes[m] = if m = n then g n t.axes[n] else t.axes[m] := by
      split
      · next h => rw [h, Tray.onAxis_same]
      · next h => exact Tray.onAxis_other _ h _
    unfold Tray.onAxis at hget ⊢
    simp only [hget, List.mem_cons]
    congr 2
    funext m
    by_cases hm : m = n
    · subst hm
      simp [hl.1]
    · simp [hm]

theorem foldl_startFullAxis_eq (u : Tray) : (List.finRange 20).foldl (fun u n => startFullAxis t now n u) u = { u with
    axes := Vector.ofFn fun m => fullSent t now m u.axes[m] } := by
  simp only [startFullAxis_eq]
  rw [foldl_onAxis (fullSent t now) (List.finRange 20) (List.nodup_finRange 20) u]
  simp

/-- What settling makes of an axis: full cooling that begins sends it, or lets go of it without drive power. -/
def settledAxis (t : Tray) (now : Nat) (n : AxisId) (x : Axis) : Axis :=
  if t.fullWanted && !t.full then (if t.drivesPowered then fullSent t now n x else disengage x) else x

theorem settleFull_axes (now : Nat) (t : Tray) (n : AxisId) : (settleFull now t).axes[n] = settledAxis t now n t.axes[n] := by
  unfold settleFull settledAxis
  by_cases hsame : t.fullWanted = t.full
  · have hno : ¬(t.fullWanted && !t.full) = true := by rw [hsame]; simp
    rw [if_pos (beq_iff_eq.mpr hsame), if_neg hno]
  · rw [if_neg (by simpa using hsame)]
    by_cases hf : t.full = true
    · have hno : ¬(t.fullWanted && !t.full) = true := by simp [hf]
      rw [if_pos hf, if_neg hno]
      dsimp only
      split
      · rfl
      · rfl
    · have hf' : t.full = false := by simpa using hf
      have hgo : (t.fullWanted && !t.full) = true := by
        rw [hf'] at hsame ⊢
        simpa using hsame
      rw [if_neg hf, if_pos hgo]
      dsimp only
      rw [foldl_startFullAxis_eq]
      cases t.drivesPowered with
      | true =>
        simp only [if_true]
        split <;> simp [Tray.logLater]
      | false =>
        simp only [Bool.false_eq_true, if_false]
        split <;> simp [Tray.logLater]

theorem fullTarget_congr {t u : Tray}
    (hb : ∀ n : SlotId, u.bays[n].present = t.bays[n].present ∧ u.bays[n].leak = t.bays[n].leak)
    (hd : u.drives = t.drives) (hf : u.byFull = t.byFull) (n : AxisId) : fullTarget u n = fullTarget t n := by
  unfold fullTarget
  rw [hd, hf]
  cases finOf 16 n.val with
  | none => rfl
  | some m =>
    obtain ⟨hp, hl⟩ := hb m
    dsimp only
    rw [hp, hl]

theorem settleTray_axis (n : AxisId) : (settleTray y).tray.axes[n] = settledAxis y.tray y.now n y.tray.axes[n] := by
  have hbays : ∀ m : SlotId, (powered y).bays[m].present = y.tray.bays[m].present ∧
      (powered y).bays[m].leak = y.tray.bays[m].leak := fun m => by
    rw [powered_eq]
    simp
  have htarget : fullTarget (powered y) n = fullTarget y.tray n :=
    fullTarget_congr hbays (by rw [powered_eq]) (by rw [powered_eq]) n
  have hpower : (powered y).drivesPowered = y.tray.drivesPowered := drivesPowered_congr (by rw [powered_eq])
  have hfull : (powered y).full = y.tray.full := by rw [powered_eq]
  have haxes : (powered y).axes = y.tray.axes := by rw [powered_eq]
  have hstep : (settleTray y).tray.axes = (settleFull y.now (powered y)).axes := by
    rw [settleTray_steps, settleDrives_eq]
    rfl
  rw [hstep, settleFull_axes, haxes]
  unfold settledAxis fullSent
  rw [powered_wanted, hfull, hpower, htarget]

theorem settledAxis_of_wanted (h : t.fullWanted = t.full) (n : AxisId) (x : Axis) : settledAxis t now n x = x := by
  unfold settledAxis
  rw [h]
  simp

end Board

end Sys2Proof.Machine
end

section
/-! PROOFS. The tray's input and the battery (O48): commits, qualification, the BBU's states, and what falls with VRET. -/

namespace Sys2Proof.Machine

section Commit

variable {s : State} {y : Sys} {t : Tray} {now : Nat}

/-! The card's reset. -/

theorem setOrder_eq (r : Rank) (mask : BitVec 16) (o : Order) (t : Tray) : ∃ orders, t.setOrder r mask o = { t with
    orders := orders } := by
  cases r <;> exact ⟨_, rfl⟩

theorem applyOrder_eq (r : Rank) (mask : BitVec 16) (o : Order) (origin status : Nat) (req : Word × Word) (t : Tray) :
    ∃ log, applyOrder r mask o origin status req now t = { t.setOrder r mask o with logPending := log } := by
  unfold applyOrder
  dsimp only
  split
  · exact ⟨_, rfl⟩
  · split
    · exact ⟨_, rfl⟩
    · split <;> exact ⟨_, rfl⟩

theorem foldl_applyOff (l : List Notice) (t : Tray) : ∃ orders log, l.foldl (fun (u : Tray) x =>
    applyOrder .rack x.mask .off 1 2 (x.hdr.src, x.hdr.seq) now u) t = { t with
      orders := orders
      logPending := log } := by
  induction l generalizing t with
  | nil => exact ⟨t.orders, t.logPending, rfl⟩
  | cons x l ih =>
    obtain ⟨log, h⟩ := applyOrder_eq (now := now) .rack x.mask .off 1 2 (x.hdr.src, x.hdr.seq) t
    obtain ⟨orders, ho⟩ := setOrder_eq .rack x.mask .off t
    rw [List.foldl_cons, h, ho]
    obtain ⟨orders', log', h'⟩ := ih { t with
      orders := orders
      logPending := log }
    exact ⟨orders', log', h'⟩

theorem resetCard_eq (now : Nat) (t : Tray) : ∃ orders log net, resetCard now t = { t with
    orders := orders
    logPending := log
    net := net
    card := (resetCard now t).card } ∧ (resetCard now t).card.running = false := by
  obtain ⟨orders, log, h⟩ := foldl_applyOff (now := now) t.card.notices t
  unfold resetCard
  rw [h]
  exact ⟨_, _, _, rfl, rfl⟩

/-! The axes halt. -/

/-- The axis moves on no profile of its own. -/
def Axis.stands (x : Axis) : Prop := x.st ≠ .moving ∧ x.st ≠ .stopping ∧ x.st ≠ .homing

theorem haltAxis_stands (k : Nat) (x : Axis) : (haltAxis k x).stands := by
  unfold haltAxis
  split
  · rename_i h
    simp only [Axis.inMotion, Bool.not_eq_true', Bool.or_eq_false_iff, beq_eq_false_iff_ne] at h
    obtain ⟨⟨⟨hm, hs⟩, hh⟩, -⟩ := h
    exact ⟨hm, hs, hh⟩
  · dsimp only
    split
    · rename_i h
      have hst : x.st = .following := by simpa using h
      simp [Axis.stands, hst]
    · simp [Axis.stands]

theorem foldl_haltAxis (l : List AxisId) : ∀ y : Sys, (∀ n : AxisId, n ∈ l ∨ y.tray.axes[n].stands) →
    ∃ axes free, l.foldl (fun y n => y.fresh.2.onTray (Tray.onAxis n (haltAxis y.fresh.1))) y = { y with
      free := free
      tray := { y.tray with axes := axes } } ∧ ∀ n : AxisId, axes[n].stands := by
  induction l with
  | nil => exact fun y h => ⟨y.tray.axes, y.free, rfl, fun n => by simpa using h n⟩
  | cons m l ih =>
    intro y h
    obtain ⟨axes, free, heq, hall⟩ := ih (y.fresh.2.onTray (Tray.onAxis m (haltAxis y.fresh.1))) fun n => by
      by_cases hn : n = m
      · refine .inr ?_
        rw [hn, Sys.onTray_tray, Tray.onAxis_same]
        exact haltAxis_stands _ _
      · rcases h n with h | h
        · exact .inl ((List.mem_cons.mp h).resolve_left hn)
        · refine .inr ?_
          rw [Sys.onTray_tray, Tray.onAxis_other _ hn]
          exact h
    rw [List.foldl_cons, heq]
    exact ⟨axes, free, rfl, hall⟩

theorem haltAxes_eq (y : Sys) : ∃ axes free, haltAxes y = { y with
    free := free
    tray := { y.tray with axes := axes } } ∧ ∀ n : AxisId, axes[n].stands :=
  foldl_haltAxis (List.finRange 20) y fun n => .inl (List.mem_finRange n)

theorem settledAxis_stands {n : AxisId} {x : Axis} (hp : t.drivesPowered = false) (h : x.stands) :
    (settledAxis t now n x).stands := by
  unfold settledAxis
  rw [hp]
  split
  · obtain ⟨hm, hs, hh⟩ := h
    simp only [Bool.false_eq_true, if_false, disengage, Axis.stands]
    split
    · simp
    · exact ⟨hm, hs, hh⟩
  · exact h

/-! The commit. -/

/-- The tray on battery, the card and axes at rest. -/
structure OnBattery (since : Nat) (bbu : BbuState) (present : SlotId → Bool) (t : Tray) : Prop where
  input : t.input = .battery
  inputAt : t.inputAt = since
  dwell : t.dwellDone = false
  bbu : t.bbu = bbu
  card : t.card.running = false
  axes : ∀ n : AxisId, t.axes[n].stands
  present : ∀ n : SlotId, t.bays[n].present = present n

theorem OnBattery.settles {w : Nat} {b : BbuState} {p : SlotId → Bool} (h : OnBattery w b p y.tray) :
    OnBattery w b p (settleTray y).tray where
  input := by rw [settleTray_input, h.input]
  inputAt := by rw [settleTray_inputAt, h.inputAt]
  dwell := by rw [settleTray_dwellDone, h.dwell]
  bbu := by rw [settleTray_bbu, h.bbu]
  card := by rw [settleTray_card, h.card]
  axes := fun n => by
    rw [settleTray_axis]
    exact settledAxis_stands (by simp [Tray.drivesPowered, h.input]) (h.axes n)
  present := fun n => by
    rw [settleTray_bay]
    exact h.present n

/-- The battery's state after a commit. -/
def carried (b : BbuState) : BbuState := if b = .charging ∨ b = .ready then .carrying else b

theorem carry_eq (now : Nat) (t : Tray) : ∃ log head,
    (if t.bbu == .charging || t.bbu == .ready then setBbu .carrying now t else t) = { t with
      bbu := carried t.bbu
      log := log
      logHead := head } := by
  unfold carried
  by_cases h : t.bbu = .charging ∨ t.bbu = .ready
  · rw [if_pos (by simpa using h), if_pos h]
    exact setBbu_eq .carrying t
  · rw [if_neg (by simpa using h), if_neg h]
    exact ⟨t.log, t.logHead, rfl⟩

theorem onBattery_commitTray (y : Sys) :
    OnBattery y.now (carried y.tray.bbu) (fun n => y.tray.bays[n].present) (commitTray y).tray ∧
    (commitTray y).ecc = y.ecc ∧ (commitTray y).chip = y.chip := by
  obtain ⟨log, head, hlog⟩ := logPower_eq (now := y.now) 0x10 { y.tray with
    input := .battery
    inputAt := y.now
    dwellDone := false }
  dsimp only at hlog
  unfold commitTray Sys.onTray
  dsimp only
  rw [hlog]
  obtain ⟨log', head', hcarry⟩ := carry_eq y.now { y.tray with
    input := .battery
    inputAt := y.now
    dwellDone := false
    log := log
    logHead := head }
  dsimp only at hcarry
  rw [hcarry]
  have hcard : ∀ t : Tray, ∃ orders lp net card, (if t.card.running then resetCard y.now t else t) = { t with
      orders := orders
      logPending := lp
      net := net
      card := card } ∧ card.running = false := fun t => by
    split
    · obtain ⟨orders, lp, net, h, hoff⟩ := resetCard_eq y.now t
      exact ⟨orders, lp, net, (resetCard y.now t).card, h, hoff⟩
    · rename_i hoff
      exact ⟨t.orders, t.logPending, t.net, t.card, rfl, by simpa using hoff⟩
  obtain ⟨orders, lp, net, card, hreset, hoff⟩ := hcard (darkModules (fun _ => true) { y.tray with
    input := .battery
    inputAt := y.now
    dwellDone := false
    bbu := carried y.tray.bbu
    log := log'
    logHead := head' })
  rw [hreset]
  obtain ⟨axes, free, haxes, hstand⟩ := haltAxes_eq { y with
    tray := { darkModules (fun _ => true) { y.tray with
        input := .battery
        inputAt := y.now
        dwellDone := false
        bbu := carried y.tray.bbu
        log := log'
        logHead := head' } with
      orders := orders
      logPending := lp
      net := net
      card := card } }
  rw [haxes]
  exact ⟨⟨rfl, rfl, rfl, rfl, hoff, hstand, fun _ => rfl⟩, rfl, rfl⟩

/-! VRET, where a step may take it. -/

theorem vretFalls_settle (a b : Sys) : vretFalls a (settleTray b) =
    (a.tray.vrbUp && !b.tray.vrbUp && b.tray.bays[b.chip.fab.slot].present) := by
  have hp : (settleTray b).tray.bays[(settleTray b).chip.fab.slot].present = b.tray.bays[b.chip.fab.slot].present := by
    change (settleTray b).tray.bays[b.chip.fab.slot].present = _
    rw [settleTray_bay]
  unfold vretFalls Tray.vrbUp
  rw [settleTray_input, settleTray_bbu, hp]

/-- A step on the supply: what settling keeps of the tray it makes holds, and memory stays where VRET does. -/
theorem gives_onSupply {f : Sys → Sys} {Q P : Tray → Prop} {kept : Prop} (hecc : (f s.sys).ecc = s.sys.ecc)
    (hkept : vretFalls s.sys (settleTray (f s.sys)) = true ↔ ¬kept) (hQ : Q (f s.sys).tray)
    (hkeeps : ∀ y : Sys, Q y.tray → Q (settleTray y).tray) (hP : ∀ y : Sys, Q y.tray → P (settleTray y).tray) :
    Gives (onSupply f s) fun u => memoryIf kept s u ∧ P u.sys.tray := by
  by_cases h : vretFalls s.sys (settleTray (f s.sys)) = true
  · have hno := hkept.mp h
    rw [onSupply_of_vretFalls h]
    refine ⟨_, rfl, ⟨rfl, fun hk => absurd hk hno, fun _ => ⟨rfl, ?_⟩⟩, hP _ ?_⟩
    · exact loseVret_ecc _
    · rw [loseVret_tray]
      exact hkeeps _ hQ
  · have hyes : kept := by
      by_contra hk
      exact h (hkept.mpr hk)
    have heq : onSupply f s = .next { s with sys := settleTray (f s.sys) } := by
      unfold onSupply onMemSys
      dsimp only
      rw [if_neg h]
    rw [heq]
    exact ⟨_, rfl, ⟨rfl, fun _ => ⟨rfl, hecc⟩, fun hk => absurd hyes hk⟩, hP _ hQ⟩

theorem gives_commit (cause : CommitCause) (hin : s.sys.tray.input = .normal) : Gives (exec (.commit cause) s) fun u =>
    memoryIf (s.sys.tray.bbu = .carrying ∨ s.sys.tray.bbu = .charging ∨ s.sys.tray.bbu = .ready ∨
      s.sys.tray.bays[s.ownSlot].present = false) s u ∧
    u.sys.tray.input = .battery ∧ u.sys.tray.inputAt = s.sys.now ∧ u.sys.tray.dwellDone = false ∧
    u.sys.tray.bbu = carried s.sys.tray.bbu ∧ u.sys.tray.card.running = false ∧
    (∀ n : AxisId, u.sys.tray.axes[n].st ≠ .moving ∧ u.sys.tray.axes[n].st ≠ .stopping ∧ u.sys.tray.axes[n].st ≠ .homing) ∧
    ∀ n : SlotId, u.sys.tray.bays[n].cpc.pwrEn = false := by
  obtain ⟨hQ, hecc, hchip⟩ := onBattery_commitTray s.sys
  rw [exec_commit_of_normal cause hin]
  refine gives_onSupply (P := fun u => u.input = .battery ∧ u.inputAt = s.sys.now ∧ u.dwellDone = false ∧
    u.bbu = carried s.sys.tray.bbu ∧ u.card.running = false ∧ (∀ n : AxisId, u.axes[n].stands) ∧
    ∀ n : SlotId, u.bays[n].cpc.pwrEn = false) hecc ?_ hQ (fun y h => h.settles) fun y h => ?_
  · have hup : (commitTray s.sys).tray.vrbUp = true ↔
        s.sys.tray.bbu = .carrying ∨ s.sys.tray.bbu = .charging ∨ s.sys.tray.bbu = .ready := by
      unfold Tray.vrbUp
      rw [hQ.input, hQ.bbu]
      cases s.sys.tray.bbu <;> simp [carried]
    have hpres : (commitTray s.sys).tray.bays[(commitTray s.sys).chip.fab.slot].present = s.sys.tray.bays[s.ownSlot].present :=
      (congrArg (fun c : Chip => (commitTray s.sys).tray.bays[c.fab.slot].present) hchip).trans (hQ.present s.ownSlot)
    rw [vretFalls_settle, hpres, vrbUp_of_normal s.sys.tray hin, Bool.true_and, Bool.and_eq_true, Bool.not_eq_true',
      ← Bool.not_eq_true, hup]
    cases s.sys.tray.bays[s.ownSlot].present <;> simp
  · have k := h.settles
    refine ⟨k.input, k.inputAt, k.dwell, k.bbu, k.card, k.axes, fun n => ?_⟩
    rw [settleTray_cpc, setPwrEn_pwrEn]
    exact pwrEn_false (.inl (by simp [h.input]))

end Commit

end Sys2Proof.Machine
end

section
/-! PROOFS. The input's qualification and the battery's states (O48). -/

namespace Sys2Proof.Machine

section Supplied

variable {s : State} {y : Sys} {t : Tray} {now : Nat}

/-! An event of the tray that comes at a time. -/

theorem onTrayAt_becomes {due : Tray → Option Nat} {f : Nat → Tray → Tray} {n : Nat} (h : due s.sys.tray = some n) :
    onTrayAt due f s = .next ((s.passed n).becomes (f (s.sys.await n).now s.sys.tray)) := by
  rw [onTrayAt_some s f h]
  unfold State.withTray State.settled State.becomes State.passed
  dsimp only
  rw [await_tray]

theorem passed_keeps (n : Nat) (t : Tray) : keepsMemory s ((s.passed n).becomes t) := ⟨rfl, rfl⟩

theorem le_passed (n : Nat) (t : Tray) : n ≤ ((s.passed n).becomes t).sys.now := le_await s.sys n

theorem passed_out (n : Nat) (t : Tray) : ((s.passed n).becomes t).sys.out = s.sys.out := await_out ..

theorem Sys.onTray_congr {f g : Tray → Tray} (h : f y.tray = g y.tray) : y.onTray f = y.onTray g := by
  unfold Sys.onTray
  rw [h]

theorem Sys.onTray_id {f : Tray → Tray} (h : f y.tray = y.tray) : y.onTray f = y := by
  unfold Sys.onTray
  rw [h]

/-! The input. -/

theorem gives_inputWarning : Gives (exec .inputWarning s) fun u => onlyTray s u ∧
    u.sys.tray.fc.src[(45 : SourceId)].line = true := by
  rw [exec_inputWarning, execInputWarning, onTray_becomes rfl]
  refine ⟨_, rfl, rfl, ?_⟩
  rw [becomes_line (by decide)]
  exact assert_sets_line s.sys.tray.fc s.sys.now 45 .board

theorem gives_inputWarningEnd : Gives (exec .inputWarningEnd s) fun u => onlyTray s u ∧
    u.sys.tray.fc.src[(45 : SourceId)].line = false := by
  rw [exec_inputWarningEnd, execInputWarningEnd, onTray_becomes rfl]
  refine ⟨_, rfl, rfl, ?_⟩
  rw [becomes_line (by decide)]
  exact lower_clears_line s.sys.tray.fc s.sys.now 45

theorem commit_elsewhere (cause : CommitCause) (h : s.sys.tray.input ≠ .normal) : exec (.commit cause) s = .next s.settled := by
  have hno : ¬(s.sys.tray.input == .normal) = true := by simpa using h
  have hfalls : ¬vretFalls s.sys (settleTray s.sys) = true := by
    rw [vretFalls_settle]
    cases s.sys.tray.vrbUp <;> simp
  rw [exec_commit, execCommit, onSupply, onMemSys]
  dsimp only
  rw [if_neg hno, if_neg hfalls]
  rfl

theorem gives_dwellEnd (n : Nat) (hin : s.sys.tray.input = .battery) : Gives (.next ((s.passed n).becomes
      (Tray.logPower 0x11 (s.sys.await n).now { s.sys.tray with dwellDone := true }))) fun u => keepsMemory s u ∧
    n ≤ u.sys.now ∧ u.sys.tray.input = .battery ∧ u.sys.tray.dwellDone = true := by
  refine ⟨_, rfl, passed_keeps _ _, le_passed _ _, ?_, ?_⟩
  · rw [becomes_tray, settleTray_input]
    exact hin
  · rw [becomes_tray, settleTray_dwellDone]
    rfl

theorem qualificationStart_ready (hin : s.sys.tray.input = .battery) (hd : s.sys.tray.dwellDone = true) :
    Gives (exec .qualificationStart s) fun u => onlyTray s u ∧ u.sys.tray.input = .qualifying ∧
      u.sys.tray.inputAt = s.sys.now := by
  rw [exec_qualificationStart, execQualificationStart, onTray_becomes (if_pos (by simp [hin, hd]))]
  refine ⟨_, rfl, rfl, ?_, ?_⟩
  · rw [becomes_tray, settleTray_input]
    rfl
  · rw [becomes_tray, settleTray_inputAt]
    rfl

theorem qualificationStart_early (h : s.sys.tray.input ≠ .battery ∨ s.sys.tray.dwellDone = false) :
    exec .qualificationStart s = .next s.settled := by
  have hno : ¬(s.sys.tray.input == .battery && s.sys.tray.dwellDone) = true := by
    rcases h with h | h
    · simp [h]
    · simp [h]
  rw [exec_qualificationStart, execQualificationStart]
  exact onTray_same (if_neg hno)

theorem gives_qualificationRestart (hin : s.sys.tray.input = .qualifying) :
    Gives (exec .qualificationRestart s) fun u => onlyTray s u ∧ u.sys.tray.input = .battery ∧
      u.sys.tray.dwellDone = s.sys.tray.dwellDone := by
  rw [exec_qualificationRestart, execQualificationRestart, onTray_becomes (if_pos (by simp [hin]))]
  refine ⟨_, rfl, rfl, ?_, ?_⟩
  · rw [becomes_tray, settleTray_input]
    rfl
  · rw [becomes_tray, settleTray_dwellDone]
    rfl

theorem drivesReturn_eq (now : Nat) (t : Tray) : ∃ axes, drivesReturn now t = { t with axes := axes } := by
  unfold drivesReturn
  dsimp only
  split
  · rw [foldl_startFullAxis_eq]
    exact ⟨_, rfl⟩
  · exact ⟨_, rfl⟩

/-- The battery's state once the converter runs again. -/
def recharged (b : BbuState) : BbuState := if b = .carrying ∨ b = .depleted then .charging else b

theorem recharge_eq (now : Nat) (t : Tray) : ∃ log head,
    (if t.bbu == .carrying || t.bbu == .depleted then setBbu .charging now t else t) = { t with
      bbu := recharged t.bbu
      log := log
      logHead := head } := by
  unfold recharged
  by_cases h : t.bbu = .carrying ∨ t.bbu = .depleted
  · rw [if_pos (by simpa using h), if_pos h]
    exact setBbu_eq .charging t
  · rw [if_neg (by simpa using h), if_neg h]
    exact ⟨t.log, t.logHead, rfl⟩

theorem qualified_eq (now : Nat) (t : Tray) : ∃ log head axes, (
      let t := Tray.logPower 0x14 now { t with
        input := .normal
        inputAt := now }
      let t := if t.bbu == .carrying || t.bbu == .depleted then setBbu .charging now t else t
      drivesReturn now t) = { t with
    input := .normal
    inputAt := now
    bbu := recharged t.bbu
    log := log
    logHead := head
    axes := axes } := by
  obtain ⟨log, head, hlog⟩ := logPower_eq (now := now) 0x14 { t with
    input := .normal
    inputAt := now }
  obtain ⟨log', head', h⟩ := recharge_eq now { t with
    input := .normal
    inputAt := now
    log := log
    logHead := head }
  dsimp only at h hlog ⊢
  rw [hlog, h]
  obtain ⟨axes, ha⟩ := drivesReturn_eq now { t with
    input := .normal
    inputAt := now
    bbu := recharged t.bbu
    log := log'
    logHead := head' }
  exact ⟨log', head', axes, ha⟩

theorem gives_inputQualified (n : Nat) {u : Tray} {log : List LogRec} {head w : Nat} {axes : Vector Axis 20}
    (hu : u = { s.sys.tray with
      input := .normal
      inputAt := w
      bbu := recharged s.sys.tray.bbu
      log := log
      logHead := head
      axes := axes }) : Gives (.next ((s.passed n).becomes u)) fun u => keepsMemory s u ∧ n ≤ u.sys.now ∧
    u.sys.tray.input = .normal ∧ u.sys.tray.bbu = recharged s.sys.tray.bbu ∧ u.sys.tray.orders = s.sys.tray.orders := by
  subst hu
  refine ⟨_, rfl, passed_keeps _ _, le_passed _ _, ?_, ?_, ?_⟩
  · rw [becomes_tray, settleTray_input]
  · rw [becomes_tray, settleTray_bbu]
  · rw [becomes_tray, settleTray_orders]

/-! The battery. -/

/-- What the statements say of a battery. -/
def Tray.battery (t : Tray) : BbuState × Nat × Bool × Bool := (t.bbu, t.bbuEnergy, t.bbuEol, t.fc.src[(44 : SourceId)].line)

theorem battery_bbu {st : BbuState} {b : Nat × Bool × Bool} (h : t.battery = (st, b)) : t.bbu = st := congrArg Prod.fst h

theorem settleTray_battery (y : Sys) : (settleTray y).tray.battery = y.tray.battery := by
  unfold Tray.battery
  rw [settleTray_bbu, settleTray_bbuEnergy, settleTray_bbuEol, settleTray_line (by decide)]

theorem settleBbu_eq (now : Nat) (t : Tray) : ∃ fc, settleBbu now t = { t with fc := fc } ∧
    fc.src[(44 : SourceId)].line = (t.bbu == .fault || t.bbuEol) := by
  unfold settleBbu
  split
  · rename_i h
    exact ⟨_, rfl, (assert_sets_line t.fc now 44 .bbu).trans h.symm⟩
  · rename_i h
    exact ⟨_, rfl, (lower_clears_line t.fc now 44).trans (Bool.not_eq_true _ ▸ h).symm⟩

/-- A battery's new state, with what it asks of source 44. -/
theorem bbuEntered_eq (st : BbuState) (now : Nat) (t : Tray) : ∃ fc log head, settleBbu now (setBbu st now t) = { t with
      bbu := st
      fc := fc
      log := log
      logHead := head } ∧
    fc.src[(44 : SourceId)].line = (st == .fault || t.bbuEol) := by
  obtain ⟨log, head, h⟩ := setBbu_eq (now := now) st t
  rw [h]
  obtain ⟨fc, hfc, hline⟩ := settleBbu_eq now { t with
    bbu := st
    log := log
    logHead := head }
  exact ⟨fc, log, head, hfc, hline⟩

theorem bbuEntered_battery (st : BbuState) (now : Nat) (t : Tray) : (settleBbu now (setBbu st now t)).battery =
    (st, t.bbuEnergy, t.bbuEol, st == .fault || t.bbuEol) ∧
    (settleBbu now (setBbu st now t)).bbuEeprom = t.bbuEeprom := by
  obtain ⟨fc, log, head, h, hline⟩ := bbuEntered_eq st now t
  rw [h]
  refine ⟨?_, rfl⟩
  unfold Tray.battery
  rw [hline]

theorem fullCharge_battery (e now : Nat) (t : Tray) : (fullCharge e now t).battery =
    (.ready, e, t.bbuEol || decide (e < 20000), t.bbuEol || decide (e < 20000)) ∧
    (fullCharge e now t).bbuEeprom = t.bbuEeprom := by
  obtain ⟨h, hprom⟩ := bbuEntered_battery .ready now { t with
    bbuEnergy := e
    bbuEol := t.bbuEol || decide (e < 20000) }
  exact ⟨h, hprom⟩

theorem becomes_battery (t : Tray) : (s.becomes t).sys.tray.battery = t.battery := by
  rw [becomes_tray, settleTray_battery]

theorem becomes_bbuEeprom (t : Tray) : (s.becomes t).sys.tray.bbuEeprom = t.bbuEeprom := by
  rw [becomes_tray, settleTray_bbuEeprom]

section Fitted

variable (e p : Nat)

/-- The tray with a battery just fitted. -/
def bbuFitted (e now : Nat) (t : Tray) : Tray := { t with
  bbuEnergy := e
  bbuEol := false
  bbuEeprom := fittedRecord 24 now }

theorem bbuInsert_becomes (h : s.sys.tray.bbu = .absent) : exec (.bbuInsert e p) s = .next (s.becomes
    (if 95 ≤ p then fullCharge e s.sys.now (bbuFitted e s.sys.now s.sys.tray)
      else settleBbu s.sys.now (setBbu .charging s.sys.now (bbuFitted e s.sys.now s.sys.tray)))) := by
  rw [exec_bbuInsert, execBbuInsert, onTray_becomes (if_neg (by simp [h]))]
  rfl

theorem bbuInsert_low (h : s.sys.tray.bbu = .absent) (hp : p < 95) : Gives (exec (.bbuInsert e p) s) fun u =>
    onlyTray s u ∧ u.sys.tray.bbuEeprom = fittedRecord 24 s.sys.now ∧ u.sys.tray.battery = (.charging, e, false, false) := by
  obtain ⟨hb, hprom⟩ := bbuEntered_battery .charging s.sys.now (bbuFitted e s.sys.now s.sys.tray)
  rw [bbuInsert_becomes e p h, if_neg (by omega)]
  exact ⟨_, rfl, rfl, (becomes_bbuEeprom _).trans hprom, (becomes_battery _).trans hb⟩

theorem bbuInsert_high (h : s.sys.tray.bbu = .absent) (hp : 95 ≤ p) : Gives (exec (.bbuInsert e p) s) fun u =>
    onlyTray s u ∧ u.sys.tray.bbuEeprom = fittedRecord 24 s.sys.now ∧
      u.sys.tray.battery = (.ready, e, decide (e < 20000), decide (e < 20000)) := by
  obtain ⟨hb, hprom⟩ := fullCharge_battery e s.sys.now (bbuFitted e s.sys.now s.sys.tray)
  rw [bbuInsert_becomes e p h, if_pos hp]
  refine ⟨_, rfl, rfl, (becomes_bbuEeprom _).trans hprom, (becomes_battery _).trans (hb.trans ?_)⟩
  rfl

theorem bbuInsert_again (h : s.sys.tray.bbu ≠ .absent) : exec (.bbuInsert e p) s = .next s.settled := by
  rw [exec_bbuInsert, execBbuInsert]
  exact onTray_same (if_pos (by simpa using h))

theorem bbuCharged_charging (h : s.sys.tray.bbu = .charging) : Gives (exec (.bbuCharged e) s) fun u => onlyTray s u ∧
    u.sys.tray.battery = (.ready, e, s.sys.tray.bbuEol || decide (e < 20000), s.sys.tray.bbuEol || decide (e < 20000)) := by
  rw [exec_bbuCharged, execBbuCharged, onTray_becomes (if_pos (by simp [h]))]
  exact ⟨_, rfl, rfl, (becomes_battery _).trans (fullCharge_battery e s.sys.now s.sys.tray).1⟩

theorem bbuCharged_other (h : s.sys.tray.bbu ≠ .charging) : exec (.bbuCharged e) s = .next s.settled := by
  rw [exec_bbuCharged, execBbuCharged]
  exact onTray_same (if_neg (by simpa using h))

end Fitted

/-! A battery that goes. -/

/-- Where VRET stays as the battery goes. -/
def State.fedOtherwise (s : State) : Prop :=
  s.sys.tray.input = .normal ∨ s.sys.tray.vrbUp = false ∨ s.sys.tray.bays[s.ownSlot].present = false

theorem vrbUp_gone {u : Tray} (hb : u.bbu = .absent ∨ u.bbu = .depleted ∨ u.bbu = .fault) :
    u.vrbUp = true ↔ u.input = .normal := by
  constructor
  · intro hup
    by_contra hin
    rw [vrbUp_of_no_battery u hin hb] at hup
    exact Bool.noConfusion hup
  · exact vrbUp_of_normal u

theorem vretFalls_gone {f : Tray → Tray} (hin : (f s.sys.tray).input = s.sys.tray.input)
    (hbay : (f s.sys.tray).bays = s.sys.tray.bays)
    (hb : (f s.sys.tray).bbu = .absent ∨ (f s.sys.tray).bbu = .depleted ∨ (f s.sys.tray).bbu = .fault) :
    vretFalls s.sys (settleTray (s.sys.onTray f)) = true ↔ ¬s.fedOtherwise := by
  have hup := vrbUp_gone hb
  rw [hin] at hup
  have hp : (s.sys.onTray f).tray.bays[(s.sys.onTray f).chip.fab.slot].present = s.sys.tray.bays[s.ownSlot].present := by
    change (f s.sys.tray).bays[s.ownSlot].present = _
    rw [hbay]
  rw [vretFalls_settle, hp, Sys.onTray_tray]
  unfold State.fedOtherwise
  rw [Bool.and_eq_true, Bool.and_eq_true, Bool.not_eq_true', ← Bool.not_eq_true, hup, not_or, not_or, Bool.not_eq_false,
    Bool.not_eq_false]
  tauto

/-- A battery that goes: what settling keeps of the battery it leaves holds, and memory stays where VRET does. -/
theorem gives_batteryGone (f : Nat → Tray → Tray) {t : Tray} {b : BbuState × Nat × Bool × Bool}
    (hf : f s.sys.now s.sys.tray = t) (hin : t.input = s.sys.tray.input) (hbay : t.bays = s.sys.tray.bays)
    (hst : t.bbu = .absent ∨ t.bbu = .depleted ∨ t.bbu = .fault) (hb : t.battery = b) :
    Gives (onSupply (fun y => y.onTray (f y.now)) s) fun u => memoryIf s.fedOtherwise s u ∧ u.sys.tray.battery = b := by
  subst hf
  exact gives_onSupply (Q := fun t => t.battery = b) (P := fun t => t.battery = b) rfl (vretFalls_gone hin hbay hst) hb
    (fun y h => (settleTray_battery y).trans h) fun y h => (settleTray_battery y).trans h

/-- The tray with its battery drained. -/
def bbuDrained (now : Nat) (t : Tray) : Tray := setBbu .depleted now { t with bbuEnergy := 0 }

theorem bbuDrained_battery (now : Nat) (t : Tray) : (bbuDrained now t).battery =
      (.depleted, 0, t.bbuEol, t.fc.src[(44 : SourceId)].line) ∧
    (bbuDrained now t).input = t.input ∧ (bbuDrained now t).bays = t.bays := by
  obtain ⟨log, head, h⟩ := setBbu_eq (now := now) .depleted { t with bbuEnergy := 0 }
  unfold bbuDrained
  rw [h]
  exact ⟨rfl, rfl, rfl⟩

theorem gives_bbuDepleted (h : s.sys.tray.bbu = .carrying) : Gives (exec .bbuDepleted s) fun u => memoryIf s.fedOtherwise s u ∧
    u.sys.tray.bbu = .depleted ∧ u.sys.tray.bbuEnergy = 0 ∧ u.sys.tray.bbuEol = s.sys.tray.bbuEol := by
  obtain ⟨hb, hin, hbay⟩ := bbuDrained_battery s.sys.now s.sys.tray
  have hfeeds : s.sys.tray.bbuFeeds = true := by simp [Tray.bbuFeeds, h]
  rw [exec_bbuDepleted, execBbuDepleted]
  obtain ⟨u, hu, hmem, hu'⟩ := gives_batteryGone (fun now t => if t.bbuFeeds then bbuDrained now t else t) (if_pos hfeeds)
    hin hbay (.inr (.inl (battery_bbu hb))) hb
  have hst : u.sys.tray.bbu = .depleted := battery_bbu hu'
  have he : u.sys.tray.bbuEnergy = 0 := congrArg (fun b => b.2.1) hu'
  have heol : u.sys.tray.bbuEol = s.sys.tray.bbuEol := congrArg (fun b => b.2.2.1) hu'
  exact ⟨u, hu, hmem, hst, he, heol⟩

theorem bbuFailed_battery (now : Nat) (t : Tray) : (settleBbu now (setBbu .fault now t)).input = t.input ∧
    (settleBbu now (setBbu .fault now t)).bays = t.bays := by
  obtain ⟨fc, log, head, h, -⟩ := bbuEntered_eq .fault now t
  rw [h]
  exact ⟨rfl, rfl⟩

theorem gives_bbuFault (h : s.sys.tray.bbu ≠ .absent) : Gives (exec .bbuFault s) fun u => memoryIf s.fedOtherwise s u ∧
    u.sys.tray.battery = (.fault, s.sys.tray.bbuEnergy, s.sys.tray.bbuEol, true) := by
  obtain ⟨hb, -⟩ := bbuEntered_battery .fault s.sys.now s.sys.tray
  obtain ⟨hin, hbay⟩ := bbuFailed_battery s.sys.now s.sys.tray
  have hno : ¬(s.sys.tray.bbu == .absent) = true := by simpa using h
  rw [exec_bbuFault, execBbuFault]
  exact gives_batteryGone (fun now t => if t.bbu == .absent then t else settleBbu now (setBbu .fault now t))
    (if_neg hno) hin hbay (.inr (.inr (battery_bbu hb))) hb

/-- The tray without its battery. -/
def bbuGone (now : Nat) (t : Tray) : Tray :=
  (settleBbu now (setBbu .absent now { t with
    bbuEnergy := 0
    bbuEol := false
    bbuEeprom := [] })).ownerReset .bbu

theorem bbuGone_battery (now : Nat) (t : Tray) : (bbuGone now t).battery = (.absent, 0, false, false) ∧
    (bbuGone now t).input = t.input ∧ (bbuGone now t).bays = t.bays := by
  obtain ⟨fc, log, head, heq, hline⟩ := bbuEntered_eq .absent now { t with
    bbuEnergy := 0
    bbuEol := false
    bbuEeprom := [] }
  dsimp only at heq hline
  unfold bbuGone
  rw [heq]
  refine ⟨?_, rfl, rfl⟩
  unfold Tray.battery Tray.ownerReset
  rw [ownerReset_line, hline]
  rfl

theorem execBbuRemove_eq : execBbuRemove s = onSupply (fun y => y.onTray fun t =>
    if t.bbu == .absent then t else bbuGone y.now t) s := by
  unfold execBbuRemove bbuGone
  dsimp only

theorem gives_bbuRemove (h : s.sys.tray.bbu ≠ .absent) : Gives (exec .bbuRemove s) fun u => memoryIf s.fedOtherwise s u ∧
    u.sys.tray.battery = (.absent, 0, false, false) := by
  obtain ⟨hb, hin, hbay⟩ := bbuGone_battery s.sys.now s.sys.tray
  have hno : ¬(s.sys.tray.bbu == .absent) = true := by simpa using h
  rw [exec_bbuRemove, execBbuRemove_eq]
  exact gives_batteryGone (fun now t => if t.bbu == .absent then t else bbuGone now t) (if_neg hno) hin hbay
    (.inl (battery_bbu hb)) hb

theorem onSupply_same {f : Sys → Sys} (h : f s.sys = s.sys) : onSupply f s = .next s.settled := by
  have hfalls : ¬vretFalls s.sys (settleTray s.sys) = true := by
    rw [vretFalls_settle]
    cases s.sys.tray.vrbUp <;> simp
  unfold onSupply onMemSys
  dsimp only
  rw [h, if_neg hfalls]
  rfl

theorem noBbu_same (h : s.sys.tray.bbu = .absent) :
    exec .bbuFault s = .next s.settled ∧ exec .bbuRemove s = .next s.settled := by
  have hyes : (s.sys.tray.bbu == .absent) = true := by simpa using h
  rw [exec_bbuFault, execBbuFault, exec_bbuRemove, execBbuRemove]
  exact ⟨onSupply_same (Sys.onTray_id (if_pos hyes)), onSupply_same (Sys.onTray_id (if_pos hyes))⟩

end Supplied

/-- Settles O48: a commit by the halt of the axes and the reset of the card, the battery's states by what each leaves of it,
and memory by where VRET falls. -/
theorem inputAndBatteryStates : Obligations.InputAndBatteryStates := by
  unfold Obligations.InputAndBatteryStates
  refine ⟨fun s => ⟨gives_inputWarning, gives_inputWarningEnd, fun cause => ⟨commit_elsewhere cause, gives_commit cause⟩,
    fun hin hd => ?_, qualificationStart_ready, qualificationStart_early, gives_qualificationRestart, fun hin => ?_,
    fun hin => ?_⟩, fun s e p => ⟨bbuInsert_low e p, bbuInsert_high e p, bbuInsert_again e p, bbuCharged_charging e,
    bbuCharged_other e, gives_bbuDepleted, gives_bbuFault, gives_bbuRemove, noBbu_same⟩⟩
  · have hdue : whenSome (s.sys.tray.input == .battery && !s.sys.tray.dwellDone) (s.sys.tray.inputAt + Config.ms 250) =
        some (s.sys.tray.inputAt + Config.ms 250) := if_pos (by simp [hin, hd])
    rw [exec_dwellEnd, execDwellEnd, onTrayAt_becomes hdue]
    exact gives_dwellEnd (s.sys.tray.inputAt + Config.ms 250) hin
  · have hdue : whenSome (s.sys.tray.input == .unqualified || s.sys.tray.input == .qualifying)
        (s.sys.tray.inputAt + Config.ms 500) = some (s.sys.tray.inputAt + Config.ms 500) := if_pos (by simpa using hin)
    obtain ⟨log, head, axes, hq⟩ := qualified_eq (s.sys.await (s.sys.tray.inputAt + Config.ms 500)).now s.sys.tray
    rw [exec_inputQualified, execInputQualified, onTrayAt_becomes hdue]
    exact gives_inputQualified (s.sys.tray.inputAt + Config.ms 500) hq
  · have hdue : whenSome (s.sys.tray.input == .unqualified || s.sys.tray.input == .qualifying)
        (s.sys.tray.inputAt + Config.ms 500) = none := if_neg (by rcases hin with h | h <;> simp [h])
    rw [exec_inputQualified, execInputQualified]
    exact onTrayAt_none s _ hdue

end Sys2Proof.Machine
end

section
/-! PROOFS. The cartridge power controllers' sequences (O50): what each step makes of the rails, and what faults record. -/

namespace Sys2Proof.Machine

section Rails

variable {c d : Cpc} {k j : Fin 5} {now : Nat}

/-! Finding a rail. -/

theorem rails_set (v : Vector RailState 5) (k j : Fin 5) (r : RailState) : (v.set k r)[j] = if j = k then r else v[j] := by
  by_cases h : j = k
  · subst h
    simp
  · have : k.val ≠ j.val := fun he => h (Fin.ext he.symm)
    simp [this, h]

theorem lastRail_some {f : RailState → Bool} (h : lastRail f c = some k) : f c.rails[k] = true :=
  List.find?_some (p := fun k : Fin 5 => f c.rails[k]) h

theorem lastRail_congr {f : RailState → Bool} (h : ∀ j : Fin 5, f d.rails[j] = f c.rails[j]) : lastRail f d = lastRail f c := by
  unfold lastRail
  congr 1
  funext j
  exact h j

@[simp] theorem setRail_rails (k : Fin 5) (r : RailState) (c : Cpc) : (setRail k r c).rails = c.rails.set k r := rfl

theorem turnedOn_of_falling {r : RailState} (h : (r == .falling || r == .discharging) = true) : r.turnedOn = false := by
  cases r <;> simp_all [RailState.turnedOn]

/-- A rail that is off was not turned on: the last one turned on is the same without it. -/
theorem lastRail_off (h : c.rails[k].turnedOn = false) :
    lastRail RailState.turnedOn (setRail k .off c) = lastRail RailState.turnedOn c := by
  refine lastRail_congr fun j => ?_
  rw [setRail_rails, rails_set]
  split
  · rename_i he
    rw [he, h]
    rfl
  · rfl

theorem turnOffNext_rest (h : lastRail RailState.turnedOn c = none) :
    turnOffNext now c = { c with
      st := restState c
      stepAt := now } := by
  unfold turnOffNext
  rw [h]

/-- The next rail that is turned off is another than one that is not on. -/
theorem turnOffNext_rail (h : c.rails[k].turnedOn = false) : (turnOffNext now c).rails[k] = c.rails[k] := by
  cases hj : lastRail RailState.turnedOn c with
  | none => rw [turnOffNext_rest hj]
  | some j =>
    have hne : k ≠ j := by
      rintro rfl
      rw [lastRail_some hj] at h
      exact Bool.noConfusion h
    rw [turnOffNext_on now hj]
    change (c.rails.set j .falling)[k] = _
    rw [rails_set, if_neg hne]

/-- What a step off leaves besides the rails and the state. -/
theorem turnOffNext_keeps (now : Nat) (c : Cpc) : ∃ st rails, turnOffNext now c = { c with
    st := st
    rails := rails
    stepAt := now } := by
  unfold turnOffNext
  split
  · exact ⟨_, _, rfl⟩
  · exact ⟨_, _, rfl⟩

/-! Faults. -/

/-- A CPC with a sequence fault recorded. -/
def faulted (cause rail : Nat) (c : Cpc) : Cpc := { recordCause cause rail c with
  seqFault := true
  seqCount := satInc c.seqCount }

@[simp] theorem faulted_rails (cause rail : Nat) (c : Cpc) : (faulted cause rail c).rails = c.rails := rfl

@[simp] theorem recordCause_rails (cause rail : Nat) (c : Cpc) : (recordCause cause rail c).rails = c.rails := rfl

theorem Collector.raise_mem (k : Collector) {n : Nat} (i : SourceId) (hn : n = i.val) (o : Owner) :
    ⟨i, o⟩ ∈ (k.raise n o).raised := by
  subst hn
  have hi : finOf 64 i.val = some i := by simp [finOf]
  unfold Collector.raise
  rw [hi]
  exact List.mem_append_right _ (List.mem_singleton.mpr rfl)

theorem seqFault_eq (n : SlotId) (cause : Nat) (rail : Fin 5) (t : Tray) : ∃ fc, seqFault n cause rail t =
      { t.onCpc n (faulted cause rail.val) with fc := fc } ∧
    (t.bays[n].cpc.seqFault = false → ⟨⟨16 + n.val, by omega⟩, .slot n⟩ ∈ fc.raised) := by
  unfold seqFault
  dsimp only
  split
  · rename_i h
    exact ⟨t.fc, rfl, fun hno => absurd h (by rw [hno]; exact Bool.false_ne_true)⟩
  · exact ⟨_, rfl, fun _ => Collector.raise_mem t.fc ⟨16 + n.val, by omega⟩ rfl (.slot n)⟩

theorem allOffAtOnce_goesOff (now : Nat) (c : Cpc) : (allOffAtOnce now c).goesOff := by
  intro k
  unfold allOffAtOnce
  simp only [Fin.getElem_fin, Vector.getElem_map]
  split
  · rename_i h
    simp only [Bool.or_eq_true, beq_iff_eq] at h
    rcases h with h | h
    · exact .inl h
    · exact .inr (.inl h)
  · exact .inr (.inr rfl)

end Rails

section Sequences

variable {s : State} {n : SlotId} {t : Tray} {k : Fin 5}

/-! A bay's CPC. -/

@[simp] theorem Tray.onCpc_same (n : SlotId) (f : Cpc → Cpc) (t : Tray) : (t.onCpc n f).bays[n].cpc = f t.bays[n].cpc := by
  unfold Tray.onCpc
  rw [Tray.onBay_same]

theorem Tray.onCpc_other {n m : SlotId} (h : m ≠ n) (f : Cpc → Cpc) (t : Tray) : (t.onCpc n f).bays[m] = t.bays[m] :=
  Tray.onBay_other t h _

theorem Tray.onBay_id (n : SlotId) {f : Bay → Bay} (t : Tray) (h : f t.bays[n] = t.bays[n]) : t.onBay n f = t := by
  unfold Tray.onBay
  rw [h]
  simp

theorem Tray.onCpc_id (n : SlotId) {f : Cpc → Cpc} (t : Tray) (h : f t.bays[n].cpc = t.bays[n].cpc) : t.onCpc n f = t :=
  Tray.onBay_id n t (by rw [h])

/-- Only this bay's CPC has changed, of all the bays. -/
def cpcOnly (n : SlotId) (d : Cpc) (t u : Tray) : Prop :=
  u.bays[n].cpc = d ∧ ∀ m : SlotId, m ≠ n → u.bays[m].cpc = t.bays[m].cpc

theorem cpcOnly_onCpc (n : SlotId) (f : Cpc → Cpc) (t : Tray) : cpcOnly n (f t.bays[n].cpc) t (t.onCpc n f) :=
  ⟨Tray.onCpc_same n f t, fun m h => by rw [Tray.onCpc_other h]⟩

theorem cpcOnly_faulted (cause : Nat) (rail : Fin 5) (f : Cpc → Cpc) (t : Tray) :
    cpcOnly n (f (faulted cause rail.val t.bays[n].cpc)) t ((seqFault n cause rail t).onCpc n f) := by
  obtain ⟨fc, h, -⟩ := seqFault_eq n cause rail t
  rw [h]
  refine ⟨?_, fun m hm => ?_⟩
  · rw [Tray.onCpc_same]
    change f (t.onCpc n (faulted cause rail.val)).bays[n].cpc = _
    rw [Tray.onCpc_same]
  · rw [Tray.onCpc_other hm]
    change (t.onCpc n (faulted cause rail.val)).bays[m].cpc = _
    rw [Tray.onCpc_other hm]

/-- What settling makes of the CPC of one bay that has changed. -/
theorem settled_cpc {d : Cpc} {y : Sys} (h : cpcOnly n d t y.tray) : ∃ v now, (settleTray y).tray.bays[n].cpc = setPwrEn v now d ∧
    ∀ m : SlotId, m ≠ n → (settleTray y).tray.bays[m].cpc.rails = t.bays[m].cpc.rails := by
  obtain ⟨hn, hm⟩ := h
  refine ⟨y.tray.pwrEn n, y.now, ?_, fun m hne => ?_⟩
  · rw [settleTray_cpc, hn]
  · rw [settleTray_cpc, setPwrEn_rails, hm m hne]

/-- A step of a CPC, as the statement says it of the state it leaves. -/
theorem becomes_cpc {d : Cpc} {u : Tray} (h : cpcOnly n d s.sys.tray u) {P : Cpc → Prop} (hP : ∀ v now, P (setPwrEn v now d)) :
    (∀ m : SlotId, m ≠ n → (s.becomes u).sys.tray.bays[m].cpc.rails = s.sys.tray.bays[m].cpc.rails) ∧
      P (s.becomes u).sys.tray.bays[n].cpc := by
  obtain ⟨v, now, hd, hm⟩ := settled_cpc (y := { s.sys with tray := u }) h
  refine ⟨hm, ?_⟩
  rw [becomes_tray, hd]
  exact hP v now

/-- The same, at a time. -/
theorem passed_cpc {N : Nat} {d : Cpc} {u : Tray} (h : cpcOnly n d s.sys.tray u) {P : Cpc → Prop}
    (hP : ∀ v now, P (setPwrEn v now d)) :
    (∀ m : SlotId, m ≠ n → ((s.passed N).becomes u).sys.tray.bays[m].cpc.rails = s.sys.tray.bays[m].cpc.rails) ∧
      P ((s.passed N).becomes u).sys.tray.bays[n].cpc := by
  have htray : (s.passed N).sys.tray = s.sys.tray := await_tray ..
  have h' : cpcOnly n d (s.passed N).sys.tray u := by rw [htray]; exact h
  obtain ⟨hm, hd⟩ := becomes_cpc (s := s.passed N) h' hP
  rw [htray] at hm
  exact ⟨hm, hd⟩

end Sequences

end Sys2Proof.Machine
end

section
/-! PROOFS. The commands of the CPC's sequences (O50). -/

namespace Sys2Proof.Machine

section Sequences

variable {s : State} {n : SlotId} {k : Fin 5}

/-- What the statements say of a step of slot n: memory, and the other slots' rails, are as before. -/
def slotStep (n : SlotId) (s : State) (P : State → Cpc → Prop) (u : State) : Prop :=
  keepsMemory s u ∧ (∀ m : SlotId, m ≠ n → u.sys.tray.bays[m].cpc.rails = s.sys.tray.bays[m].cpc.rails) ∧
    P u u.sys.tray.bays[n].cpc

/-- A step of a CPC that comes at a time. -/
theorem slotStep_passed {N : Nat} {d : Cpc} {t : Tray} {P : State → Cpc → Prop} (h : cpcOnly n d s.sys.tray t)
    (hP : ∀ u v now, u = (s.passed N).becomes t → P u (setPwrEn v now d)) :
    Gives (.next ((s.passed N).becomes t)) (slotStep n s P) :=
  ⟨_, rfl, ⟨rfl, rfl⟩, passed_cpc (P := P ((s.passed N).becomes t)) h fun v now => hP _ v now rfl⟩

/-- A step of a CPC at once. -/
theorem slotStep_now {d : Cpc} {t : Tray} {P : State → Cpc → Prop} (h : cpcOnly n d s.sys.tray t)
    (hP : ∀ u v now, u = s.becomes t → P u (setPwrEn v now d)) : Gives (.next (s.becomes t)) (slotStep n s P) :=
  ⟨_, rfl, ⟨rfl, rfl⟩, becomes_cpc (P := P (s.becomes t)) h fun v now => hP _ v now rfl⟩

/-! Power-up (17 R452, R453). -/

/-- What POWER_UP_START waits for, as the statement says it. -/
def State.mayRise (s : State) (n : SlotId) : Prop :=
  s.sys.tray.bays[n].present = true ∧ s.sys.tray.bays[n].cpc.pwrEn = true ∧ s.sys.tray.bays[n].cpc.st = .off ∧
    s.sys.tray.bays[n].cpc.railsOff = true ∧ s.sys.tray.valveClosed n = false

theorem mayRise_iff : (s.sys.tray.bays[n].present && s.sys.tray.bays[n].cpc.pwrEn && s.sys.tray.bays[n].cpc.st == .off &&
    s.sys.tray.bays[n].cpc.railsOff && !s.sys.tray.valveClosed n) = true ↔ s.mayRise n := by
  simp [State.mayRise, and_assoc]

theorem gives_powerUpStart (h : s.mayRise n) : Gives (exec (.powerUpStart n) s) (slotStep n s fun u d =>
    s.sys.tray.bays[n].cpc.pwrEnAt + Config.ms 10 ≤ u.sys.now ∧ d.st = .rising ∧
      d.rails = s.sys.tray.bays[n].cpc.rails.set 0 .up) := by
  rw [exec_powerUpStart, execPowerUpStart]
  generalize hN : Config.ms 10 = N
  rw [onTrayAt_becomes (if_pos (mayRise_iff.mpr h))]
  refine slotStep_passed (cpcOnly_onCpc ..) fun u v now hu => ⟨?_, ?_, ?_⟩
  · rw [hu]
    exact le_passed _ _
  · rw [setPwrEn_st]
  · rw [setPwrEn_rails]
    rfl

theorem powerUpStart_same (h : ¬s.mayRise n) : exec (.powerUpStart n) s = .next s.settled := by
  rw [exec_powerUpStart, execPowerUpStart]
  exact onTrayAt_none s _ (if_neg fun hb => h (mayRise_iff.mp hb))

theorem risingDue_some {limit : Fin 5 → Nat} {N : Nat} (h : risingRail s.sys.tray n = some k) (hN : Config.ms (limit k) = N) :
    risingDue n limit s.sys.tray = some (s.sys.tray.bays[n].cpc.stepAt + N) := by
  unfold risingDue
  rw [h, ← hN]
  rfl

/-- The rails and the state after a rail's dwell. -/
theorem railDwell_cpc (n : SlotId) (k : Fin 5) (now : Nat) (t : Tray) : ∃ d, cpcOnly n d t (railDwell n k now t) ∧
    d.rails[k] = .good ∧ (∀ j : Fin 5, j.val = k.val + 1 → d.rails[j] = .up) ∧ (k.val = 4 → d.st = .on) := by
  unfold railDwell
  dsimp only
  by_cases hk : k.val + 1 < 5
  · have hj : finOf 5 (k.val + 1) = some ⟨k.val + 1, hk⟩ := finOf_some hk
    have hne : k ≠ ⟨k.val + 1, hk⟩ := fun he => by
      have := congrArg Fin.val he
      simp at this
    rw [hj]
    dsimp only
    refine ⟨{ setRail ⟨k.val + 1, hk⟩ .up (setRail k .good t.bays[n].cpc) with stepAt := now }, ⟨?_, fun m hm => ?_⟩, ?_,
      fun j he => ?_, fun he => absurd hk (by omega)⟩
    · rw [Tray.onCpc_same, Tray.onCpc_same]
    · rw [Tray.onCpc_other hm, Tray.onCpc_other hm]
    · change ((t.bays[n].cpc.rails.set k .good).set (⟨k.val + 1, hk⟩ : Fin 5) .up)[k] = _
      rw [rails_set, if_neg hne, rails_set, if_pos rfl]
    · have hje : j = ⟨k.val + 1, hk⟩ := Fin.ext he
      change ((t.bays[n].cpc.rails.set k .good).set (⟨k.val + 1, hk⟩ : Fin 5) .up)[j] = _
      rw [rails_set, if_pos hje]
  · have hj : finOf 5 (k.val + 1) = none := by simp [finOf, hk]
    rw [hj]
    dsimp only
    refine ⟨{ setRail k .good t.bays[n].cpc with
      st := .on
      stepAt := now }, ⟨?_, fun m hm => ?_⟩, ?_, fun j he => absurd j.isLt (by omega), fun _ => rfl⟩
    · rw [Tray.ownerReset_bays, Tray.onCpc_same, Tray.onCpc_same]
    · rw [Tray.ownerReset_bays, Tray.onCpc_other hm, Tray.onCpc_other hm]
    · change (t.bays[n].cpc.rails.set k .good)[k] = _
      rw [rails_set, if_pos rfl]

theorem gives_railDwellEnd (h : risingRail s.sys.tray n = some k) : Gives (exec (.railDwellEnd n) s) (slotStep n s fun u d =>
    s.sys.tray.bays[n].cpc.stepAt + Config.ms 1 ≤ u.sys.now ∧ d.rails[k] = .good ∧
      (∀ j : Fin 5, j.val = k.val + 1 → d.rails[j] = .up) ∧ (k.val = 4 → d.st = .on)) := by
  rw [exec_railDwellEnd, execRailDwellEnd]
  generalize hN : Config.ms 1 = N
  obtain ⟨d, hd, hgood, hup, hon⟩ := railDwell_cpc n k (s.sys.await (s.sys.tray.bays[n].cpc.stepAt + N)).now s.sys.tray
  rw [onTrayAt_becomes (risingDue_some (limit := fun _ => 1) h hN), h]
  refine slotStep_passed hd fun u v now hu => ⟨?_, ?_, ?_, ?_⟩
  · rw [hu]
    exact le_passed _ _
  · rw [setPwrEn_rails]
    exact hgood
  · rw [setPwrEn_rails]
    exact hup
  · rw [setPwrEn_st]
    exact hon

theorem gives_riseTimeout (h : risingRail s.sys.tray n = some k) : Gives (exec (.riseTimeout n) s) (slotStep n s fun u d =>
    s.sys.tray.bays[n].cpc.stepAt + Config.ms (riseLimit k) ≤ u.sys.now ∧ d.records 1 k.val ∧ d.faultDown = true ∧
      d.seqCount = satInc s.sys.tray.bays[n].cpc.seqCount ∧ (s.sys.tray.bays[n].cpc.seqFault = false →
        ⟨⟨16 + n.val, by omega⟩, .slot n⟩ ∈ u.sys.tray.fc.raised)) := by
  rw [exec_riseTimeout, execRiseTimeout]
  generalize hN : Config.ms (riseLimit k) = N
  obtain ⟨fc, hfc, hraised⟩ := seqFault_eq n 1 k s.sys.tray
  rw [onTrayAt_becomes (risingDue_some h hN), h]
  refine slotStep_passed (cpcOnly_faulted ..) fun u v now hu => ⟨?_, ?_, ?_, ?_, fun hno => ?_⟩
  · rw [hu]
    exact le_passed _ _
  · rw [setPwrEn_records]
    exact ⟨rfl, rfl, rfl⟩
  · rw [setPwrEn_faultDown]
  · rw [setPwrEn_seqCount]
    rfl
  · rw [hu, becomes_tray]
    refine settleTray_raised ?_
    dsimp only
    rw [hfc]
    exact hraised hno

/-! Power-down (17 R454). -/

theorem gives_powerDownStart (hst : s.sys.tray.bays[n].cpc.st = .rising ∨ s.sys.tray.bays[n].cpc.st = .on)
    (h : s.sys.tray.bays[n].cpc.pwrEn = false ∨ s.sys.tray.bays[n].cpc.faultDown = true) :
    Gives (exec (.powerDownStart n) s) (slotStep n s fun u d => onlyTray s u ∧ d.st = .falling ∧ d.park = some s.sys.now ∧
      d.rails = s.sys.tray.bays[n].cpc.rails) := by
  have hgo : ((s.sys.tray.bays[n].cpc.st == .rising || s.sys.tray.bays[n].cpc.st == .on) &&
      (!s.sys.tray.bays[n].cpc.pwrEn || s.sys.tray.bays[n].cpc.faultDown)) = true := by
    rw [Bool.and_eq_true]
    refine ⟨by simpa using hst, by simpa using h⟩
  rw [exec_powerDownStart, execPowerDownStart, onTray_becomes rfl]
  refine slotStep_now (cpcOnly_onCpc ..) fun u v now hu => ?_
  rw [if_pos hgo]
  refine ⟨by rw [hu]; rfl, ?_, ?_, ?_⟩
  · rw [setPwrEn_st]
  · rw [setPwrEn_park]
  · rw [setPwrEn_rails]

theorem gives_parkTimeout {w : Nat} (hp : s.sys.tray.bays[n].cpc.park = some w)
    (hk : lastRail RailState.turnedOn s.sys.tray.bays[n].cpc = some k) :
    Gives (exec (.parkTimeout n) s) (slotStep n s fun u d => w + Config.us 50 ≤ u.sys.now ∧ d.park = none ∧ d.records 8 0 ∧
      d.seqCount = s.sys.tray.bays[n].cpc.seqCount ∧ d.rails = s.sys.tray.bays[n].cpc.rails.set k .falling) := by
  rw [exec_parkTimeout, execParkTimeout]
  generalize Config.us 50 = N
  have hdue : (s.sys.tray.bays[n].cpc.park.map fun p => p + N) = some (w + N) := by
    rw [hp]
    rfl
  have hk' : lastRail RailState.turnedOn (recordCause 8 0 { s.sys.tray.bays[n].cpc with park := none }) = some k :=
    (lastRail_congr fun _ => rfl).trans hk
  rw [onTrayAt_becomes hdue]
  refine slotStep_passed (cpcOnly_onCpc ..) fun u v now hu => ?_
  rw [turnOffNext_on _ hk']
  refine ⟨by rw [hu]; exact le_passed _ _, ?_, ?_, ?_, ?_⟩
  · rw [setPwrEn_park]
    rfl
  · rw [setPwrEn_records]
    exact ⟨rfl, rfl, rfl⟩
  · rw [setPwrEn_seqCount]
    rfl
  · rw [setPwrEn_rails]
    rfl

/-! A rail that reads off (17 R454, R455). -/

/-- The rail that is being turned off alone. -/
structure LastOff (c : Cpc) (k : Fin 5) : Prop where
  falling : c.st = .falling
  park : c.park = none
  rail : lastRail (fun r => r == .falling || r == .discharging) c = some k
  last : lastRail (fun r => r == .falling || r == .discharging) (setRail k .off c) = none

theorem LastOff.notOn {c : Cpc} (h : LastOff c k) : c.rails[k].turnedOn = false := turnedOn_of_falling (lastRail_some h.rail)

theorem LastOff.railOff {c : Cpc} (h : LastOff c k) (now : Nat) : railOff now c = turnOffNext now (setRail k .off c) := by
  unfold Machine.railOff
  rw [h.rail]
  dsimp only
  rw [h.last]

theorem LastOff.off {c : Cpc} (h : LastOff c k) (now : Nat) : (Machine.railOff now c).rails[k] = .off := by
  have hk : (setRail k .off c).rails[k] = .off := by rw [setRail_rails, rails_set, if_pos rfl]
  rw [h.railOff, turnOffNext_rail (by rw [hk]; rfl), hk]

/-- A rail that reads off after the step, other than the one that falls, read off before. -/
theorem LastOff.others {c : Cpc} (h : LastOff c k) (now : Nat) {j : Fin 5} (hj : j ≠ k)
    (hoff : (Machine.railOff now c).rails[j] = .off) : c.rails[j] = .off := by
  have hset : (setRail k .off c).rails[j] = c.rails[j] := by rw [setRail_rails, rails_set, if_neg hj]
  rw [h.railOff] at hoff
  cases hl : lastRail RailState.turnedOn (setRail k .off c) with
  | none =>
    rw [turnOffNext_rest hl] at hoff
    exact hset.symm.trans hoff
  | some i =>
    rw [turnOffNext_on now hl] at hoff
    change ((setRail k .off c).rails.set i .falling)[j] = _ at hoff
    rw [rails_set] at hoff
    split at hoff
    · exact RailState.noConfusion hoff
    · exact hset.symm.trans hoff

/-- The tray after RAIL_OFF. -/
theorem railOff_exec (h : LastOff s.sys.tray.bays[n].cpc k) : exec (.railOff n) s = .next { s with
    sys := settleTray (loseVaux n s.sys (s.sys.onTray (Tray.onCpc n (railOff s.sys.now)))) } := by
  have hcpc : s.sys.tray.onCpc n (fun c =>
      if c.st != .falling && c.st != .stuck then c
      else if c.park.isNone then railOff s.sys.now c
      else if n == s.sys.chip.fab.slot then c
      else railOff s.sys.now (parkAnswered s.sys.now c)) = s.sys.tray.onCpc n (railOff s.sys.now) := by
    unfold Tray.onCpc Tray.onBay
    dsimp only
    rw [h.falling, h.park]
    rfl
  rw [exec_railOff, execRailOff, onBoard_eq]
  unfold Sys.onTray
  dsimp only
  rw [hcpc]

theorem retainChip_tray (y : Sys) : (retainChip y).tray = y.tray := by
  unfold retainChip
  dsimp only
  split <;> rfl

theorem retainChip_retention (y : Sys) : (retainChip y).chip.pwr.retention = true := by
  unfold retainChip
  dsimp only
  split
  · rfl
  · by_cases h : y.chip.pwr.retention = true
    · unfold enterRetention Sys.onChip
      dsimp only
      rw [if_pos h]
      exact h
    · exact (enterRetention_fields y.now (by simpa using h)).1

theorem loseVaux_tray (n : SlotId) (x y : Sys) : (loseVaux n x y).tray = y.tray := by
  unfold loseVaux
  split
  · exact retainChip_tray y
  · rfl

theorem railOff_onlyTray (h : LastOff s.sys.tray.bays[n].cpc k) (hno : n ≠ s.ownSlot ∨ k.val ≠ 0) :
    Gives (exec (.railOff n) s) fun u => onlyTray s u := by
  have hkeep : loseVaux n s.sys (s.sys.onTray (Tray.onCpc n (railOff s.sys.now))) =
      s.sys.onTray (Tray.onCpc n (railOff s.sys.now)) := by
    refine if_neg ?_
    rw [Sys.onTray_tray, Tray.onCpc_same, Sys.onTray_chip]
    simp only [Bool.and_eq_true, beq_iff_eq, bne_iff_ne, ne_eq, not_and]
    rintro ⟨hn, hon⟩ hoff
    rcases hno with h' | h'
    · exact h' hn
    · exact hon (h.others s.sys.now (j := 0) (fun he => h' (congrArg Fin.val he).symm) hoff)
  rw [railOff_exec h, hkeep]
  exact ⟨_, rfl, rfl⟩

theorem railOff_vaux (h : LastOff s.sys.tray.bays[n].cpc k) (hn : n = s.ownSlot) (hk : k.val = 0) :
    Gives (exec (.railOff n) s) fun u => u.sys.chip.pwr.retention = true := by
  have hk0 : k = 0 := Fin.ext hk
  have hwas : s.sys.tray.bays[n].cpc.rails[(0 : Fin 5)] ≠ .off := by
    intro hoff
    have hfall := lastRail_some h.rail
    rw [hk0, hoff] at hfall
    exact Bool.noConfusion hfall
  have hnow := h.off s.sys.now
  rw [hk0] at hnow
  have hgo : loseVaux n s.sys (s.sys.onTray (Tray.onCpc n (railOff s.sys.now))) =
      retainChip (s.sys.onTray (Tray.onCpc n (railOff s.sys.now))) := by
    refine if_pos ?_
    rw [Sys.onTray_tray, Tray.onCpc_same, Sys.onTray_chip]
    simp only [Bool.and_eq_true, beq_iff_eq, bne_iff_ne, ne_eq]
    exact ⟨⟨hn, hwas⟩, hnow⟩
  have hret := retainChip_retention (s.sys.onTray (Tray.onCpc n (railOff s.sys.now)))
  rw [railOff_exec h, hgo]
  exact ⟨_, rfl, hret⟩

theorem gives_railOff (h : LastOff s.sys.tray.bays[n].cpc k) {P : Cpc → Prop}
    (hP : ∀ v now, P (setPwrEn v now (railOff s.sys.now s.sys.tray.bays[n].cpc))) :
    Gives (exec (.railOff n) s) (slotStep n s fun _ d => P d) := by
  have honly : cpcOnly n (railOff s.sys.now s.sys.tray.bays[n].cpc) s.sys.tray
      (loseVaux n s.sys (s.sys.onTray (Tray.onCpc n (railOff s.sys.now)))).tray := by
    rw [loseVaux_tray]
    exact cpcOnly_onCpc ..
  obtain ⟨v, now, hd, hm⟩ := settled_cpc honly
  rw [railOff_exec h]
  refine ⟨_, rfl, ⟨rfl, rfl⟩, hm, ?_⟩
  dsimp only
  rw [hd]
  exact hP v now

theorem railOff_next {j : Fin 5} (h : LastOff s.sys.tray.bays[n].cpc k)
    (hj : lastRail RailState.turnedOn s.sys.tray.bays[n].cpc = some j) :
    Gives (exec (.railOff n) s) (slotStep n s fun _ d => d.rails = (s.sys.tray.bays[n].cpc.rails.set k .off).set j .falling) := by
  refine gives_railOff h fun v now => ?_
  rw [setPwrEn_rails, h.railOff, turnOffNext_on _ ((lastRail_off h.notOn).trans hj)]
  rfl

theorem railOff_end (h : LastOff s.sys.tray.bays[n].cpc k) (hj : lastRail RailState.turnedOn s.sys.tray.bays[n].cpc = none) :
    Gives (exec (.railOff n) s) (slotStep n s fun _ d => d.rails = s.sys.tray.bays[n].cpc.rails.set k .off ∧
      (d.railsOff = true → d.st = .off)) := by
  refine gives_railOff h fun v now => ?_
  rw [setPwrEn_rails, setPwrEn_railsOff, setPwrEn_st, h.railOff, turnOffNext_rest ((lastRail_off h.notOn).trans hj)]
  refine ⟨rfl, fun hoff => ?_⟩
  change restState _ = _
  unfold restState
  exact if_pos hoff

/-! A rail that does not read off (17 R455). -/

theorem railDue_some {r : RailState} {limit : Fin 5 → Nat} {N : Nat}
    (h : lastRail (fun x => x == r) s.sys.tray.bays[n].cpc = some k) (hN : Config.ms (limit k) = N) :
    railDue n r limit s.sys.tray = some (s.sys.tray.bays[n].cpc.stepAt + N) := by
  unfold railDue
  dsimp only
  rw [h, ← hN]
  rfl

theorem gives_dischargeTimeout (h : lastRail (fun r => r == .falling) s.sys.tray.bays[n].cpc = some k) :
    Gives (exec (.dischargeTimeout n) s) (slotStep n s fun u d =>
      s.sys.tray.bays[n].cpc.stepAt + Config.ms (fallLimit k) ≤ u.sys.now ∧ d.records 3 k.val ∧
        d.seqCount = satInc s.sys.tray.bays[n].cpc.seqCount ∧ d.rails = s.sys.tray.bays[n].cpc.rails.set k .discharging) := by
  rw [exec_dischargeTimeout, execDischargeTimeout]
  generalize hN : Config.ms (fallLimit k) = N
  rw [onTrayAt_becomes (railDue_some h hN), h]
  refine slotStep_passed (cpcOnly_faulted ..) fun u v now hu => ⟨by rw [hu]; exact le_passed _ _, ?_, ?_, ?_⟩
  · rw [setPwrEn_records]
    exact ⟨rfl, rfl, rfl⟩
  · rw [setPwrEn_seqCount]
    rfl
  · rw [setPwrEn_rails]
    rfl

theorem gives_stuck (h : lastRail (fun r => r == .discharging) s.sys.tray.bays[n].cpc = some k) :
    Gives (exec (.stuck n) s) (slotStep n s fun u d => s.sys.tray.bays[n].cpc.stepAt + Config.ms 5 ≤ u.sys.now ∧
      d.records 4 k.val ∧ d.seqCount = satInc s.sys.tray.bays[n].cpc.seqCount ∧ d.rails[k] = .stuck) := by
  rw [exec_stuck, execStuck]
  generalize hN : Config.ms 5 = N
  rw [onTrayAt_becomes (railDue_some (limit := fun _ => 5) h hN), h]
  refine slotStep_passed (cpcOnly_faulted ..) fun u v now hu => ?_
  have hk : ({ setRail k .stuck (faulted 4 k.val s.sys.tray.bays[n].cpc) with st := .stuck } : Cpc).rails[k] = .stuck := by
    change (s.sys.tray.bays[n].cpc.rails.set k .stuck)[k] = _
    rw [rails_set, if_pos rfl]
  have hrail := turnOffNext_rail (now := (s.sys.await (s.sys.tray.bays[n].cpc.stepAt + N)).now) (show RailState.turnedOn
    ({ setRail k .stuck (faulted 4 k.val s.sys.tray.bays[n].cpc) with st := .stuck } : Cpc).rails[k] = false by rw [hk]; rfl)
  obtain ⟨st, rails, hkeep⟩ := turnOffNext_keeps (s.sys.await (s.sys.tray.bays[n].cpc.stepAt + N)).now
    { setRail k .stuck (faulted 4 k.val s.sys.tray.bays[n].cpc) with st := .stuck }
  refine ⟨by rw [hu]; exact le_passed _ _, ?_, ?_, ?_⟩
  · rw [setPwrEn_records, hkeep]
    exact ⟨rfl, rfl, rfl⟩
  · rw [setPwrEn_seqCount, hkeep]
    rfl
  · rw [setPwrEn_rails]
    exact hrail.trans hk

end Sequences

end Sys2Proof.Machine
end

section
/-! PROOFS. Rails that are lost, rails taken off at once, and the clearing of a record (O50). -/

namespace Sys2Proof.Machine

section Faults

variable {s : State} {n : SlotId} {k : Fin 5}

/-- A step of a CPC that touches nothing but the tray. -/
def cpcStep (n : SlotId) (s : State) (P : Cpc → Prop) (u : State) : Prop :=
  keepsMemory s u ∧ u.sys.chip = s.sys.chip ∧ u.sys.out = s.sys.out ∧
    (∀ m : SlotId, m ≠ n → u.sys.tray.bays[m].cpc.rails = s.sys.tray.bays[m].cpc.rails) ∧ P u.sys.tray.bays[n].cpc

theorem cpcStep_now {d : Cpc} {t : Tray} {P : Cpc → Prop} (h : cpcOnly n d s.sys.tray t) (hP : ∀ v now, P (setPwrEn v now d)) :
    Gives (.next (s.becomes t)) (cpcStep n s P) :=
  ⟨_, rfl, ⟨rfl, rfl⟩, rfl, rfl, becomes_cpc h hP⟩

/-- The state with a free value drawn. -/
def State.drawn (s : State) : State := { s with sys := s.sys.fresh.2 }

theorem onTrayFree_becomes (f : Nat → Nat → Tray → Tray) :
    onTrayFree f s = .next (s.drawn.becomes (f s.sys.free s.sys.now s.sys.tray)) := rfl

theorem cpcStep_drawn {d : Cpc} {t : Tray} {P : Cpc → Prop} (h : cpcOnly n d s.sys.tray t)
    (hP : ∀ v now, P (setPwrEn v now d)) : Gives (.next (s.drawn.becomes t)) (cpcStep n s P) :=
  ⟨_, rfl, ⟨rfl, rfl⟩, rfl, rfl, becomes_cpc (s := s.drawn) h hP⟩

/-! A rail that is lost (17 R453, R455). -/

theorem railLost_becomes (n : SlotId) (k : Fin 5) : exec (.railLost n k) s =
    .next (s.drawn.becomes (railLost n k s.sys.free s.sys.now s.sys.tray)) := rfl

theorem gives_railLost {cause : Nat} {f : Cpc → Cpc} {P : Cpc → Prop}
    (h : railLost n k s.sys.free s.sys.now s.sys.tray = (seqFault n cause k s.sys.tray).onCpc n f)
    (hP : ∀ v now, P (setPwrEn v now (f (faulted cause k.val s.sys.tray.bays[n].cpc)))) :
    Gives (exec (.railLost n k) s) (cpcStep n s P) := by
  rw [railLost_becomes, h]
  exact cpcStep_drawn (cpcOnly_faulted ..) hP

theorem railLost_whileOn (hon : s.sys.tray.bays[n].cpc.rails[k].turnedOn = true) (hst : s.sys.tray.bays[n].cpc.st = .on) :
    Gives (exec (.railLost n k) s) (cpcStep n s fun d => d.records 5 k.val ∧ d.faultDown = true ∧
      d.rails = s.sys.tray.bays[n].cpc.rails.set k .up ∧ d.seqCount = satInc s.sys.tray.bays[n].cpc.seqCount) := by
  have h : railLost n k s.sys.free s.sys.now s.sys.tray =
      (seqFault n 5 k s.sys.tray).onCpc n fun c => { setRail k .up c with faultDown := true } := by
    unfold railLost
    dsimp only
    rw [hon, hst]
    rfl
  refine gives_railLost h fun v now => ⟨?_, ?_, ?_, ?_⟩
  · rw [setPwrEn_records]
    exact ⟨rfl, rfl, rfl⟩
  · rw [setPwrEn_faultDown]
  · rw [setPwrEn_rails]
    rfl
  · rw [setPwrEn_seqCount]
    rfl

theorem railLost_whileFalling (hon : s.sys.tray.bays[n].cpc.rails[k].turnedOn = true)
    (hst : s.sys.tray.bays[n].cpc.st = .falling) :
    Gives (exec (.railLost n k) s) (cpcStep n s fun d => d.records 2 k.val ∧ d.goesOff ∧
      d.seqCount = satInc s.sys.tray.bays[n].cpc.seqCount) := by
  have h : railLost n k s.sys.free s.sys.now s.sys.tray = (seqFault n 2 k s.sys.tray).onCpc n (allOffAtOnce s.sys.now) := by
    unfold railLost
    dsimp only
    rw [hon, hst]
    rfl
  refine gives_railLost h fun v now => ⟨?_, ?_, ?_⟩
  · rw [setPwrEn_records]
    exact ⟨rfl, rfl, rfl⟩
  · rw [setPwrEn_goesOff]
    exact allOffAtOnce_goesOff _ _
  · rw [setPwrEn_seqCount]
    rfl

theorem railLost_whileRising (hon : s.sys.tray.bays[n].cpc.rails[k].turnedOn = true)
    (hst : s.sys.tray.bays[n].cpc.st = .rising) :
    Gives (exec (.railLost n k) s) (cpcStep n s fun d => (d.records 1 k.val ∨ d.records 5 k.val) ∧ d.faultDown = true ∧
      d.seqCount = satInc s.sys.tray.bays[n].cpc.seqCount) := by
  have h : railLost n k s.sys.free s.sys.now s.sys.tray = (seqFault n (if Config.freeBool s.sys.free then 1 else 5) k
      s.sys.tray).onCpc n fun c => { setRail k .up c with faultDown := true } := by
    unfold railLost
    dsimp only
    rw [hon, hst]
    rfl
  refine gives_railLost h fun v now => ⟨?_, ?_, ?_⟩
  · rw [setPwrEn_records, setPwrEn_records]
    split
    · exact .inl ⟨rfl, rfl, rfl⟩
    · exact .inr ⟨rfl, rfl, rfl⟩
  · rw [setPwrEn_faultDown]
  · rw [setPwrEn_seqCount]
    rfl

/-! Every rail off at once (17 R458). -/

theorem gives_inputLoss (h : s.sys.tray.bays[n].cpc.anyOn = true) : Gives (exec (.inputLoss n) s) (cpcStep n s fun d =>
    d.records 6 0 ∧ d.st = .falling ∧ d.goesOff ∧ d.seqCount = s.sys.tray.bays[n].cpc.seqCount ∧
      d.inputCount = satInc s.sys.tray.bays[n].cpc.inputCount) := by
  rw [exec_inputLoss, execInputLoss, onTray_becomes rfl]
  refine cpcStep_now (cpcOnly_onCpc ..) fun v now => ?_
  rw [if_pos h, setPwrEn_records, setPwrEn_st, setPwrEn_goesOff, setPwrEn_seqCount, setPwrEn_inputCount]
  exact ⟨⟨rfl, rfl, rfl⟩, rfl, allOffAtOnce_goesOff s.sys.now (recordCause 6 0 s.sys.tray.bays[n].cpc), rfl, rfl⟩

theorem gives_valveClosedRise (h : s.sys.tray.bays[n].cpc.anyOn = true) (hv : s.sys.tray.valveClosed n = true) :
    Gives (exec (.valveClosedRise n) s) (cpcStep n s fun d => d.records 7 0 ∧ d.st = .falling ∧ d.goesOff ∧
      d.seqCount = s.sys.tray.bays[n].cpc.seqCount) := by
  rw [exec_valveClosedRise, execValveClosedRise, onTray_becomes rfl]
  refine cpcStep_now (cpcOnly_onCpc ..) fun v now => ?_
  rw [if_pos (by rw [h, hv]; rfl), setPwrEn_records, setPwrEn_st, setPwrEn_goesOff, setPwrEn_seqCount]
  exact ⟨⟨rfl, rfl, rfl⟩, rfl, allOffAtOnce_goesOff s.sys.now (recordCause 7 0 s.sys.tray.bays[n].cpc), rfl⟩

theorem darkCpc_same (h : s.sys.tray.bays[n].cpc.anyOn = false) :
    exec (.inputLoss n) s = .next s.settled ∧ exec (.valveClosedRise n) s = .next s.settled := by
  have hno : ¬s.sys.tray.bays[n].cpc.anyOn = true := by simpa using h
  have hno' : ¬(s.sys.tray.bays[n].cpc.anyOn && s.sys.tray.valveClosed n) = true := by
    rw [h, Bool.false_and]
    exact Bool.false_ne_true
  rw [exec_inputLoss, execInputLoss, exec_valveClosedRise, execValveClosedRise]
  exact ⟨onTray_same (Tray.onCpc_id n _ (if_neg hno)), onTray_same (Tray.onCpc_id n _ (if_neg hno'))⟩

theorem gives_cpcFaultClear (s : State) (n : SlotId) : Gives (exec (.cpcFaultClear n) s) (cpcStep n s fun d => d.cause = 0 ∧
    d.rail = 0 ∧ d.valid = false ∧ d.seqFault = false ∧ d.rails = s.sys.tray.bays[n].cpc.rails) := by
  rw [exec_cpcFaultClear, execCpcFaultClear, onTray_becomes rfl]
  refine cpcStep_now (cpcOnly_onCpc ..) fun v now => ?_
  rw [setPwrEn_cause, setPwrEn_rail, setPwrEn_valid, setPwrEn_rails]
  exact ⟨rfl, rfl, rfl, setPwrEn_seqFault_clear v _ rfl, rfl⟩

end Faults

/-- Settles O50: each step of a sequence by the rail it finds and what it makes of that rail alone. -/
theorem cartridgeRailsSequence : Obligations.CartridgeRailsSequence := by
  unfold Obligations.CartridgeRailsSequence
  refine ⟨fun s n => ⟨fun hp he ho hr hv => gives_powerUpStart ⟨hp, he, ho, hr, hv⟩, powerUpStart_same,
    fun k hk => ⟨gives_railDwellEnd hk, gives_riseTimeout hk⟩, gives_powerDownStart, fun w k => gives_parkTimeout,
    fun k hst hpark hk hlast => ?_, fun k => gives_dischargeTimeout, fun k => gives_stuck⟩,
    fun s n k => ⟨fun hon => ⟨railLost_whileOn hon, railLost_whileFalling hon, railLost_whileRising hon⟩,
      fun h => ⟨gives_inputLoss h, gives_valveClosedRise h⟩, darkCpc_same, gives_cpcFaultClear s n⟩⟩
  have h : LastOff s.sys.tray.bays[n].cpc k := ⟨hst, hpark, hk, hlast⟩
  exact ⟨railOff_onlyTray h, railOff_vaux h, fun j => railOff_next h, railOff_end h⟩

end Sys2Proof.Machine
end

section
/-! PROOFS. Axis commands (O52): what each refuses, and what it makes of the axis where it acts. -/

namespace Sys2Proof.Machine

section Refusals

variable {t : Tray} {n : AxisId} {free now r : Nat}

/-! What refuses a command. -/

theorem refuseAll_leak (h : t.axisLeak n = true) (free : Nat) : refuseAll t n free = some 7 := if_pos h

theorem refuseAll_failed (h : t.axisLeak n = false) (hst : t.axes[n].st = .failed) (free : Nat) :
    refuseAll t n free = some (1 + Config.freeNat free % 9) := by
  unfold refuseAll
  rw [if_neg (by rw [h]; exact Bool.false_ne_true), hst]
  rfl

theorem refuseAll_none (h : t.axisLeak n = false) (hst : t.axes[n].st ≠ .failed) (free : Nat) : refuseAll t n free = none := by
  unfold refuseAll
  rw [if_neg (by rw [h]; exact Bool.false_ne_true), if_neg (by simpa using hst)]

/-- The commands that a FAILED axis refuses. -/
def asks (n : AxisId) : List (Nat → Nat → Tray → Tray) :=
  [moveAxis n, fun k _ => stopAxis n k, resumeAxis n, fun k _ => engageAxis n k, fun k _ => disengageAxis n k]

theorem asks_refused (h : refuseAll t n free = some r) : ∀ f ∈ asks n, f free now t = t.answer n r := by
  unfold asks
  simp only [List.forall_mem_cons]
  refine ⟨?_, ?_, ?_, ?_, ?_, fun f hf => absurd hf List.not_mem_nil⟩
  · unfold moveAxis
    rw [h]
  · unfold stopAxis
    rw [h]
  · unfold resumeAxis
    dsimp only
    rw [h]
  · unfold engageAxis
    rw [h]
  · unfold disengageAxis
    rw [h]

/-! What each command does where nothing refuses it. -/

/-- The axis of an absent slot or pump may only close. -/
def barred (t : Tray) (n : AxisId) (goal : Nat) : Bool := t.axisAbsent n && (n.val < 16 || 0 < goal)

theorem barred_absent {goal : Nat} (ha : t.axisAbsent n = true) (h : n.val < 16 ∨ 0 < goal) : barred t n goal = true := by
  unfold barred
  rw [ha]
  simpa using h

theorem barred_present (ha : t.axisAbsent n = false) (goal : Nat) : barred t n goal = false := by
  unfold barred
  rw [ha, Bool.false_and]

theorem moveAxis_refused (h : refuseAll t n free = none) (hr : moveRefusal t n = some r) :
    moveAxis n free now t = t.answer n r := by
  unfold moveAxis
  rw [h]
  dsimp only
  rw [hr]

theorem moveAxis_moves (h : refuseAll t n free = none) (hr : moveRefusal t n = none) : moveAxis n free now t =
    t.onAxis n fun x => startMove (floorOf t n t.axes[n].target).1 false now { x with
      result := 0
      floor := (floorOf t n t.axes[n].target).2
      closePending := (floorOf t n t.axes[n].target).2 && t.axes[n].target == 0 } := by
  unfold moveAxis
  rw [h]
  dsimp only
  rw [hr]

theorem moveRefusal_absent (h : barred t n t.axes[n].target = true) : moveRefusal t n = some 3 := if_pos h

/-- A MOVE of an axis that is not barred and without full cooling. -/
theorem moveRefusal_eq (h : barred t n t.axes[n].target = false) : moveRefusal t n =
    if t.full then some 6
    else if !t.axes[n].homed then some 4
    else if t.axes[n].st == .following then some 2
    else if t.axes[n].inMotion then some 1
    else if axisOpen < t.axes[n].target then some 5
    else if !t.drivesPowered then some 8
    else none := by
  unfold moveRefusal
  exact if_neg (by rw [show (t.axisAbsent n && (decide (n.val < 16) || decide (0 < t.axes[n].target))) = false from h]
                   exact Bool.false_ne_true)

theorem resumeAxis_eq (h : refuseAll t n free = none) (goal : Nat)
    (hg : ((t.axes[n].pos : Int) + t.axes[n].remain).toNat = goal) :
    resumeAxis n free now t =
      if barred t n goal then t.answer n 3
      else if t.full then t.answer n 6
      else if !t.axes[n].homed then t.answer n 4
      else if t.axes[n].st == .following then t.answer n 2
      else if t.axes[n].st == .stopped && t.drivesPowered then
        t.onAxis n fun x => startMove (floorOf t n goal).1 false now { x with
          result := 0
          floor := (floorOf t n goal).2 }
      else t.answer n 8 := by
  subst hg
  unfold resumeAxis barred
  dsimp only
  rw [h]

theorem engageAxis_eq (h : refuseAll t n free = none) : engageAxis n free t =
    if t.axisAbsent n then t.answer n 3
    else if t.full then t.answer n 6
    else if !t.axes[n].homed then t.answer n 4
    else if t.axes[n].st == .following then t.answer n 2
    else if t.axes[n].inMotion then t.answer n 1
    else t.onAxis n fun (x : Axis) => { x with
      st := .following
      target := x.pos
      remain := 0
      result := 0
      closePending := false } := by
  unfold engageAxis
  rw [h]

theorem stopAxis_eq (h : refuseAll t n free = none) : stopAxis n free t =
    if t.full then t.answer n 6
    else match t.axes[n].st with
      | .moving => t.onAxis n fun (x : Axis) => { x with
          st := .stopping
          due := none
          result := 0 }
      | .stopping => t.answer n 0
      | .following => t.answer n 2
      | _ => t.answer n 8 := by
  unfold stopAxis
  rw [h]
  dsimp only
  split
  · rfl
  · cases t.axes[n].st <;> rfl

theorem disengageAxis_eq (h : refuseAll t n free = none) : disengageAxis n free t =
    if t.axes[n].st == .following then t.onAxis n fun (x : Axis) => { release x with result := 0 } else t.answer n 8 := by
  unfold disengageAxis
  rw [h]

/-! The floor, and a move that starts. -/

theorem floorOf_free {goal : Nat} (h : ¬(t.railsUp n = true ∧ goal < t.axes[n].min)) : floorOf t n goal = (goal, false) :=
  if_neg (by simpa using h)

theorem floorOf_raised {goal : Nat} (h : t.railsUp n = true ∧ goal < t.axes[n].min) :
    floorOf t n goal = (t.axes[n].min, true) := if_pos (by simpa using h)

theorem startMove_moves {target : Nat} {x : Axis} (full : Bool) (now : Nat) (h : target ≠ x.pos) :
    ∃ due cs os, startMove target full now x = { x with
      st := .moving
      target := target
      remain := 0
      full := full
      overrun := false
      next := none
      release := false
      due := due
      closedSw := cs
      openSw := os } := by
  have hd : ¬((max target x.pos) - (min target x.pos) == 0) = true := by
    rw [beq_iff_eq]
    omega
  unfold startMove
  dsimp only
  rw [if_neg hd]
  exact ⟨_, _, _, rfl⟩

theorem rests_inMotion {x : Axis} (h : x.st = .idle ∨ x.st = .stopped) : x.inMotion = false := by
  rcases h with h | h <;> simp [Axis.inMotion, h]

end Refusals

section Steps

variable {s : State} {n : AxisId}

/-- What the statements say of an axis command: only its axis changes, of all the axes, and nothing of the chip. -/
def axisStep (n : AxisId) (s : State) (P : Axis → Prop) (u : State) : Prop :=
  keepsMemory s u ∧ u.sys.chip = s.sys.chip ∧ u.sys.out = s.sys.out ∧
    (∀ m : AxisId, m ≠ n → u.sys.tray.axes[m] = s.sys.tray.axes[m]) ∧ P u.sys.tray.axes[n]

/-- Settling leaves the axes as the command has left them. -/
theorem settled_axis {y : Sys} {t : Tray} {x : Axis} (hw : t.fullWanted = t.full) (f : Axis → Axis) (h : y.tray = t.onAxis n f)
    (hx : t.axes[n] = x) : (settleTray y).tray.axes[n] = f x ∧
      ∀ m : AxisId, m ≠ n → (settleTray y).tray.axes[m] = t.axes[m] := by
  have hy : y.tray.fullWanted = y.tray.full := by
    rw [h]
    exact hw
  rw [(settleTray_keepsAxes y hy).1, h]
  refine ⟨?_, fun m hm => Tray.onAxis_other _ hm f⟩
  rw [Tray.onAxis_same, hx]

theorem axisStep_drawn {t : Tray} {f : Axis → Axis} {P : Axis → Prop} (hw : s.sys.tray.fullWanted = s.sys.tray.full)
    (h : t = s.sys.tray.onAxis n f) (hP : P (f s.sys.tray.axes[n])) : Gives (.next (s.drawn.becomes t)) (axisStep n s P) := by
  obtain ⟨hn, hm⟩ := settled_axis (y := { s.drawn.sys with tray := t }) hw f h rfl
  refine ⟨_, rfl, ⟨rfl, rfl⟩, rfl, rfl, hm, ?_⟩
  rw [becomes_tray, hn]
  exact hP

theorem axisStep_now {t : Tray} {f : Axis → Axis} {P : Axis → Prop} (hw : s.sys.tray.fullWanted = s.sys.tray.full)
    (h : t = s.sys.tray.onAxis n f) (hP : P (f s.sys.tray.axes[n])) : Gives (.next (s.becomes t)) (axisStep n s P) := by
  obtain ⟨hn, hm⟩ := settled_axis (y := { s.sys with tray := t }) hw f h rfl
  refine ⟨_, rfl, ⟨rfl, rfl⟩, rfl, rfl, hm, ?_⟩
  rw [becomes_tray, hn]
  exact hP

/-- A command that only answers. -/
def told (n : AxisId) (s : State) (r : Result) (k : Nat) : Prop :=
  Gives r (axisStep n s fun a => a = { s.sys.tray.axes[n] with result := BitVec.ofNat 4 k })

theorem told_drawn {f : Nat → Nat → Tray → Tray} {k : Nat} (hw : s.sys.tray.fullWanted = s.sys.tray.full)
    (h : f s.sys.free s.sys.now s.sys.tray = s.sys.tray.answer n k) : told n s (onTrayFree f s) k := by
  unfold told
  rw [onTrayFree_becomes, h]
  exact axisStep_drawn hw rfl rfl

theorem told_now {f : Nat → Tray → Tray} {k : Nat} (hw : s.sys.tray.fullWanted = s.sys.tray.full)
    (h : f s.sys.now s.sys.tray = s.sys.tray.answer n k) : told n s (onTray f s) k := by
  unfold told
  rw [onTray_becomes h]
  exact axisStep_now hw rfl rfl

/-! HOME (19 R496, R505, R516). -/

theorem homeAxis_leak {t : Tray} (h : t.axisLeak n = true) : homeAxis n t = t.answer n 7 := if_pos h

theorem homeAxis_full {t : Tray} (hl : t.axisLeak n = false) (hf : t.full = true) (hst : t.axes[n].st ≠ .failed) :
    homeAxis n t = t.answer n 6 := by
  unfold homeAxis
  dsimp only
  rw [if_neg (by rw [hl]; exact Bool.false_ne_true), if_pos (by simpa [hf] using hst)]

/-- HOME where neither a leak nor full cooling refuses it. -/
theorem homeAxis_eq {t : Tray} (hl : t.axisLeak n = false) (h : t.full = false ∨ t.axes[n].st = .failed) : homeAxis n t =
    if t.axes[n].closedSw then t.onAxis n fun (x : Axis) => { homedAt x with result := 0 }
    else if t.railsUp n || !t.drivesPowered then t.answer n 8
    else t.onAxis n fun (x : Axis) => { x with
      st := .homing
      result := 0
      remain := 0
      due := none
      full := false
      overrun := false
      next := none
      closePending := false
      release := false
      openSw := false } := by
  have hno : ¬(t.full && t.axes[n].st != .failed) = true := by
    simp only [Bool.and_eq_true, bne_iff_ne, ne_eq, not_and, not_not]
    intro hf
    rcases h with h | h
    · rw [h] at hf
      exact Bool.noConfusion hf
    · exact h
  unfold homeAxis
  dsimp only
  rw [if_neg (by rw [hl]; exact Bool.false_ne_true), if_neg hno]

end Steps

end Sys2Proof.Machine
end

section
/-! PROOFS. Axis commands as the statement has them (O52). -/

namespace Sys2Proof.Machine

section Commands

variable {s : State} {n : AxisId}

/-! The commands as steps of the tray. -/

theorem exec_asked : [exec (.move n) s, exec (.axisStop n) s, exec (.resume n) s, exec (.engage n) s, exec (.disengage n) s] =
    (asks n).map fun f => onTrayFree f s := rfl

/-- Nothing refuses every command, and the causes of full cooling are settled. -/
structure Open (n : AxisId) (s : State) : Prop where
  wanted : s.sys.tray.fullWanted = s.sys.tray.full
  leak : s.sys.tray.axisLeak n = false
  alive : s.sys.tray.axes[n].st ≠ .failed

theorem Open.accepts (h : Open n s) (free : Nat) : refuseAll s.sys.tray n free = none := refuseAll_none h.leak h.alive free

variable {k : Nat}

theorem told_move (h : Open n s) (hr : moveRefusal s.sys.tray n = some k) : told n s (exec (.move n) s) k := by
  rw [exec_move, execMove]
  exact told_drawn h.wanted (moveAxis_refused (h.accepts _) hr)

theorem told_resume (h : Open n s) (hr : resumeAxis n s.sys.free s.sys.now s.sys.tray = s.sys.tray.answer n k) :
    told n s (exec (.resume n) s) k := by
  rw [exec_resume, execResume]
  exact told_drawn h.wanted hr

theorem told_engage (h : Open n s) (hr : engageAxis n s.sys.free s.sys.tray = s.sys.tray.answer n k) :
    told n s (exec (.engage n) s) k := by
  rw [exec_engage, execEngage]
  exact told_drawn h.wanted hr

theorem told_stop (h : Open n s) (hr : stopAxis n s.sys.free s.sys.tray = s.sys.tray.answer n k) :
    told n s (exec (.axisStop n) s) k := by
  rw [exec_axisStop, execAxisStop]
  exact told_drawn h.wanted hr

theorem told_disengage (h : Open n s) (hr : disengageAxis n s.sys.free s.sys.tray = s.sys.tray.answer n k) :
    told n s (exec (.disengage n) s) k := by
  rw [exec_disengage, execDisengage]
  exact told_drawn h.wanted hr

theorem told_home (hw : s.sys.tray.fullWanted = s.sys.tray.full) (hr : homeAxis n s.sys.tray = s.sys.tray.answer n k) :
    told n s (exec (.home n) s) k := by
  rw [exec_home, execHome]
  exact told_now hw hr

/-- Where RESUME would lead. -/
def resumeGoal (x : Axis) : Nat := ((x.pos : Int) + x.remain).toNat

/-! What the axis's slot or pump refuses. -/

theorem absent_told (h : Open n s) (ha : s.sys.tray.axisAbsent n = true) : told n s (exec (.engage n) s) 3 ∧
    (n.val < 16 ∨ 0 < s.sys.tray.axes[n].target → told n s (exec (.move n) s) 3) ∧
    (n.val < 16 ∨ 0 < resumeGoal s.sys.tray.axes[n] → told n s (exec (.resume n) s) 3) := by
  refine ⟨told_engage h ?_, fun hb => told_move h (moveRefusal_absent (barred_absent ha hb)), fun hb => told_resume h ?_⟩
  · rw [engageAxis_eq (h.accepts _), if_pos ha]
  · rw [resumeAxis_eq (h.accepts _) _ rfl]
    exact if_pos (barred_absent ha hb)

/-- The axis is where its commands may act. -/
structure Fitted (n : AxisId) (s : State) : Prop extends Open n s where
  present : s.sys.tray.axisAbsent n = false

theorem Fitted.move_eq (h : Fitted n s) : moveRefusal s.sys.tray n =
    if s.sys.tray.full then some 6
    else if !s.sys.tray.axes[n].homed then some 4
    else if s.sys.tray.axes[n].st == .following then some 2
    else if s.sys.tray.axes[n].inMotion then some 1
    else if axisOpen < s.sys.tray.axes[n].target then some 5
    else if !s.sys.tray.drivesPowered then some 8
    else none := moveRefusal_eq (barred_present h.present s.sys.tray.axes[n].target)

theorem Fitted.engage_eq (h : Fitted n s) : engageAxis n s.sys.free s.sys.tray =
    if s.sys.tray.full then s.sys.tray.answer n 6
    else if !s.sys.tray.axes[n].homed then s.sys.tray.answer n 4
    else if s.sys.tray.axes[n].st == .following then s.sys.tray.answer n 2
    else if s.sys.tray.axes[n].inMotion then s.sys.tray.answer n 1
    else s.sys.tray.onAxis n fun (x : Axis) => { x with
      st := .following
      target := x.pos
      remain := 0
      result := 0
      closePending := false } := by
  rw [engageAxis_eq (h.accepts _), h.present, if_neg Bool.false_ne_true]

theorem Fitted.resume_eq (h : Fitted n s) (goal : Nat) (hg : resumeGoal s.sys.tray.axes[n] = goal) :
    resumeAxis n s.sys.free s.sys.now s.sys.tray =
      if s.sys.tray.full then s.sys.tray.answer n 6
      else if !s.sys.tray.axes[n].homed then s.sys.tray.answer n 4
      else if s.sys.tray.axes[n].st == .following then s.sys.tray.answer n 2
      else if s.sys.tray.axes[n].st == .stopped && s.sys.tray.drivesPowered then
        s.sys.tray.onAxis n fun x => startMove (floorOf s.sys.tray n goal).1 false s.sys.now { x with
          result := 0
          floor := (floorOf s.sys.tray n goal).2 }
      else s.sys.tray.answer n 8 := by
  rw [resumeAxis_eq (h.accepts _) goal hg, barred_present h.present, if_neg Bool.false_ne_true]

theorem full_told (h : Fitted n s) (hf : s.sys.tray.full = true) : told n s (exec (.move n) s) 6 ∧
    told n s (exec (.axisStop n) s) 6 ∧ told n s (exec (.resume n) s) 6 ∧ told n s (exec (.engage n) s) 6 ∧
    told n s (exec (.home n) s) 6 := by
  refine ⟨told_move h.toOpen ?_, told_stop h.toOpen ?_, told_resume h.toOpen ?_, told_engage h.toOpen ?_,
    told_home h.wanted (homeAxis_full h.leak hf h.alive)⟩
  · rw [h.move_eq, if_pos hf]
  · rw [stopAxis_eq (h.accepts _), if_pos hf]
  · rw [h.resume_eq _ rfl, if_pos hf]
  · rw [h.engage_eq, if_pos hf]

theorem unhomed_told (h : Fitted n s) (hf : s.sys.tray.full = false) (hh : s.sys.tray.axes[n].homed = false) :
    told n s (exec (.move n) s) 4 ∧ told n s (exec (.resume n) s) 4 ∧ told n s (exec (.engage n) s) 4 := by
  have hno : (!s.sys.tray.axes[n].homed) = true := by rw [hh]; rfl
  refine ⟨told_move h.toOpen ?_, told_resume h.toOpen ?_, told_engage h.toOpen ?_⟩
  · rw [h.move_eq, hf, if_neg Bool.false_ne_true, if_pos hno]
  · rw [h.resume_eq _ rfl, hf, if_neg Bool.false_ne_true, if_pos hno]
  · rw [h.engage_eq, hf, if_neg Bool.false_ne_true, if_pos hno]

/-! STOP. -/

theorem stop_told (h : Open n s) (hf : s.sys.tray.full = false) (hk : (match s.sys.tray.axes[n].st with
      | .moving => s.sys.tray.onAxis n fun (x : Axis) => { x with
          st := .stopping
          due := none
          result := 0 }
      | .stopping => s.sys.tray.answer n 0
      | .following => s.sys.tray.answer n 2
      | _ => s.sys.tray.answer n 8) = s.sys.tray.answer n k) : told n s (exec (.axisStop n) s) k := by
  refine told_stop h ?_
  rw [stopAxis_eq (h.accepts _), hf, if_neg Bool.false_ne_true]
  exact hk

/-! The commands that act. -/

/-- A homed axis of a present slot or pump, without full cooling. -/
structure Ready (n : AxisId) (s : State) : Prop extends Fitted n s where
  full : s.sys.tray.full = false
  homed : s.sys.tray.axes[n].homed = true

theorem Ready.notUnhomed (h : Ready n s) : ¬(!s.sys.tray.axes[n].homed) = true := by
  rw [h.homed]
  exact Bool.false_ne_true

theorem Ready.move_eq (h : Ready n s) : moveRefusal s.sys.tray n =
    if s.sys.tray.axes[n].st == .following then some 2
    else if s.sys.tray.axes[n].inMotion then some 1
    else if axisOpen < s.sys.tray.axes[n].target then some 5
    else if !s.sys.tray.drivesPowered then some 8
    else none := by
  rw [h.toFitted.move_eq, h.full, if_neg Bool.false_ne_true, if_neg h.notUnhomed]

theorem rests_notFollowing {x : Axis} (h : x.st = .idle ∨ x.st = .stopped) : ¬(x.st == .following) = true := by
  rcases h with h | h <;> simp [h]

theorem Ready.move_rest (h : Ready n s) (hst : s.sys.tray.axes[n].st = .idle ∨ s.sys.tray.axes[n].st = .stopped) :
    moveRefusal s.sys.tray n = if axisOpen < s.sys.tray.axes[n].target then some 5
      else if !s.sys.tray.drivesPowered then some 8
      else none := by
  rw [h.move_eq, if_neg (rests_notFollowing hst), rests_inMotion hst, if_neg Bool.false_ne_true]

theorem Ready.engage_eq (h : Ready n s) : engageAxis n s.sys.free s.sys.tray =
    if s.sys.tray.axes[n].st == .following then s.sys.tray.answer n 2
    else if s.sys.tray.axes[n].inMotion then s.sys.tray.answer n 1
    else s.sys.tray.onAxis n fun (x : Axis) => { x with
      st := .following
      target := x.pos
      remain := 0
      result := 0
      closePending := false } := by
  rw [h.toFitted.engage_eq, h.full, if_neg Bool.false_ne_true, if_neg h.notUnhomed]

theorem Ready.resume_eq (h : Ready n s) (goal : Nat) (hg : resumeGoal s.sys.tray.axes[n] = goal) :
    resumeAxis n s.sys.free s.sys.now s.sys.tray =
      if s.sys.tray.axes[n].st == .following then s.sys.tray.answer n 2
      else if s.sys.tray.axes[n].st == .stopped && s.sys.tray.drivesPowered then
        s.sys.tray.onAxis n fun x => startMove (floorOf s.sys.tray n goal).1 false s.sys.now { x with
          result := 0
          floor := (floorOf s.sys.tray n goal).2 }
      else s.sys.tray.answer n 8 := by
  rw [h.toFitted.resume_eq goal hg, h.full, if_neg Bool.false_ne_true, if_neg h.notUnhomed]

/-- The move that a MOVE starts. -/
theorem gives_move {P : Axis → Prop} (h : Ready n s)
    (hst : s.sys.tray.axes[n].st = .idle ∨ s.sys.tray.axes[n].st = .stopped) (ht : s.sys.tray.axes[n].target ≤ axisOpen)
    (hp : s.sys.tray.drivesPowered = true) (hP : P (startMove (floorOf s.sys.tray n s.sys.tray.axes[n].target).1 false s.sys.now
      { s.sys.tray.axes[n] with
        result := 0
        floor := (floorOf s.sys.tray n s.sys.tray.axes[n].target).2
        closePending := (floorOf s.sys.tray n s.sys.tray.axes[n].target).2 && s.sys.tray.axes[n].target == 0 })) :
    Gives (exec (.move n) s) (axisStep n s P) := by
  have hr : moveRefusal s.sys.tray n = none := by
    rw [h.move_rest hst, if_neg (by omega), hp]
    exact if_neg Bool.false_ne_true
  rw [exec_move, execMove, onTrayFree_becomes]
  exact axisStep_drawn h.wanted (moveAxis_moves (h.accepts _) hr) hP

theorem move_goes (h : Ready n s) (hst : s.sys.tray.axes[n].st = .idle ∨ s.sys.tray.axes[n].st = .stopped)
    (ht : s.sys.tray.axes[n].target ≤ axisOpen) (hp : s.sys.tray.drivesPowered = true)
    (hf : ¬(s.sys.tray.railsUp n = true ∧ s.sys.tray.axes[n].target < s.sys.tray.axes[n].min))
    (hd : s.sys.tray.axes[n].target ≠ s.sys.tray.axes[n].pos) :
    Gives (exec (.move n) s) (axisStep n s fun a => a.st = .moving ∧ a.target = s.sys.tray.axes[n].target ∧
      a.pos = s.sys.tray.axes[n].pos ∧ a.remain = 0 ∧ a.result = 0 ∧ a.floor = false ∧ a.closePending = false) := by
  refine gives_move h hst ht hp ?_
  rw [floorOf_free hf]
  obtain ⟨due, cs, os, hm⟩ := startMove_moves (x := { s.sys.tray.axes[n] with
    result := 0
    floor := false
    closePending := false && s.sys.tray.axes[n].target == 0 }) false s.sys.now hd
  dsimp only at hm ⊢
  rw [hm]
  exact ⟨rfl, rfl, rfl, rfl, rfl, rfl, rfl⟩

theorem move_floored (h : Ready n s) (hst : s.sys.tray.axes[n].st = .idle ∨ s.sys.tray.axes[n].st = .stopped)
    (ht : s.sys.tray.axes[n].target ≤ axisOpen) (hp : s.sys.tray.drivesPowered = true)
    (hf : s.sys.tray.railsUp n = true ∧ s.sys.tray.axes[n].target < s.sys.tray.axes[n].min)
    (hd : s.sys.tray.axes[n].min ≠ s.sys.tray.axes[n].pos) :
    Gives (exec (.move n) s) (axisStep n s fun a => a.st = .moving ∧ a.target = s.sys.tray.axes[n].min ∧ a.result = 0 ∧
      a.floor = true ∧ a.closePending = decide (s.sys.tray.axes[n].target = 0)) := by
  refine gives_move h hst ht hp ?_
  rw [floorOf_raised hf]
  obtain ⟨due, cs, os, hm⟩ := startMove_moves (x := { s.sys.tray.axes[n] with
    result := 0
    floor := true
    closePending := true && s.sys.tray.axes[n].target == 0 }) false s.sys.now hd
  dsimp only at hm ⊢
  rw [hm]
  exact ⟨rfl, rfl, rfl, rfl, Bool.beq_eq_decide_eq _ _⟩

theorem moving_inMotion {x : Axis} (h : x.st = .moving ∨ x.st = .stopping ∨ x.st = .homing) : x.inMotion = true ∧
    ¬(x.st == .following) = true := by
  rcases h with h | h | h <;> simp [Axis.inMotion, h]

theorem busy_told (h : Ready n s) (hst : s.sys.tray.axes[n].st = .moving ∨ s.sys.tray.axes[n].st = .stopping ∨
    s.sys.tray.axes[n].st = .homing) : told n s (exec (.move n) s) 1 ∧ told n s (exec (.engage n) s) 1 := by
  obtain ⟨hm, hno⟩ := moving_inMotion hst
  refine ⟨told_move h.toOpen ?_, told_engage h.toOpen ?_⟩
  · rw [h.move_eq, if_neg hno, if_pos hm]
  · rw [h.engage_eq, if_neg hno, if_pos hm]

theorem following_told (h : Ready n s) (hst : s.sys.tray.axes[n].st = .following) : told n s (exec (.move n) s) 2 ∧
    told n s (exec (.axisStop n) s) 2 ∧ told n s (exec (.resume n) s) 2 ∧ told n s (exec (.engage n) s) 2 := by
  have hyes : (s.sys.tray.axes[n].st == .following) = true := beq_iff_eq.mpr hst
  refine ⟨told_move h.toOpen ?_, stop_told h.toOpen h.full ?_, told_resume h.toOpen ?_, told_engage h.toOpen ?_⟩
  · rw [h.move_eq, if_pos hyes]
  · rw [hst]
  · rw [h.resume_eq _ rfl, if_pos hyes]
  · rw [h.engage_eq, if_pos hyes]

theorem stop_stops (h : Ready n s) (hst : s.sys.tray.axes[n].st = .moving) : Gives (exec (.axisStop n) s) (axisStep n s fun a =>
    a = { s.sys.tray.axes[n] with
      st := .stopping
      due := none
      result := 0 }) := by
  rw [exec_axisStop, execAxisStop, onTrayFree_becomes]
  refine axisStep_drawn h.wanted (f := fun (x : Axis) => { x with
      st := .stopping
      due := none
      result := 0 }) ?_ rfl
  rw [stopAxis_eq (h.accepts _), h.full, hst]
  exact if_neg Bool.false_ne_true

theorem resume_goes (h : Ready n s) (goal : Nat) (hst : s.sys.tray.axes[n].st = .stopped) (hp : s.sys.tray.drivesPowered = true)
    (hg : (s.sys.tray.axes[n].pos : Int) + s.sys.tray.axes[n].remain = goal) (hd : goal ≠ s.sys.tray.axes[n].pos)
    (hf : ¬(s.sys.tray.railsUp n = true ∧ goal < s.sys.tray.axes[n].min)) : Gives (exec (.resume n) s) (axisStep n s fun a =>
      a.st = .moving ∧ a.target = goal ∧ a.pos = s.sys.tray.axes[n].pos ∧ a.result = 0) := by
  have hgoal : resumeGoal s.sys.tray.axes[n] = goal := by
    unfold resumeGoal
    rw [hg]
    rfl
  have hgo : (s.sys.tray.axes[n].st == .stopped && s.sys.tray.drivesPowered) = true := by rw [hst, hp]; rfl
  have heq := h.resume_eq goal hgoal
  rw [if_neg (rests_notFollowing (.inr hst)), if_pos hgo, floorOf_free hf] at heq
  rw [exec_resume, execResume, onTrayFree_becomes]
  refine axisStep_drawn h.wanted heq ?_
  obtain ⟨due, cs, os, hm⟩ := startMove_moves (x := { s.sys.tray.axes[n] with
    result := 0
    floor := false }) false s.sys.now hd
  dsimp only at hm ⊢
  rw [hm]
  exact ⟨rfl, rfl, rfl, rfl⟩

theorem resume_nothing (h : Ready n s) (hnf : s.sys.tray.axes[n].st ≠ .following)
    (hno : s.sys.tray.axes[n].st ≠ .stopped ∨ s.sys.tray.drivesPowered = false) : told n s (exec (.resume n) s) 8 := by
  have hstays : ¬(s.sys.tray.axes[n].st == .stopped && s.sys.tray.drivesPowered) = true := by
    rw [Bool.and_eq_true, beq_iff_eq, not_and_or, Bool.not_eq_true]
    exact hno
  refine told_resume h.toOpen ?_
  rw [h.resume_eq _ rfl, if_neg (by simpa using hnf), if_neg hstays]

theorem engage_follows (h : Ready n s) (hst : s.sys.tray.axes[n].st = .idle ∨ s.sys.tray.axes[n].st = .stopped) :
    Gives (exec (.engage n) s) (axisStep n s fun a => a = { s.sys.tray.axes[n] with
      st := .following
      target := s.sys.tray.axes[n].pos
      remain := 0
      result := 0
      closePending := false }) := by
  have heq := h.engage_eq
  rw [if_neg (rests_notFollowing hst), rests_inMotion hst, if_neg Bool.false_ne_true] at heq
  rw [exec_engage, execEngage, onTrayFree_becomes]
  exact axisStep_drawn h.wanted heq rfl

theorem disengage_releases (h : Ready n s) (hst : s.sys.tray.axes[n].st = .following) : Gives (exec (.disengage n) s)
    (axisStep n s fun a => a.result = 0 ∧ (s.sys.tray.axes[n].pos = s.sys.tray.axes[n].target → a.st = .idle ∧ a.remain = 0) ∧
      (s.sys.tray.axes[n].pos ≠ s.sys.tray.axes[n].target → a.st = .stopping ∧ a.release = true)) := by
  have heq := disengageAxis_eq (h.accepts s.sys.free)
  rw [if_pos (beq_iff_eq.mpr hst)] at heq
  rw [exec_disengage, execDisengage, onTrayFree_becomes]
  refine axisStep_drawn h.wanted heq ⟨rfl, fun hat => ?_, fun hat => ?_⟩
  · unfold release
    rw [if_pos (beq_iff_eq.mpr hat)]
    exact ⟨rfl, rfl⟩
  · unfold release
    rw [if_neg (by simpa using hat)]
    exact ⟨rfl, rfl⟩

theorem disengage_nothing (h : Ready n s) (hst : s.sys.tray.axes[n].st ≠ .following) : told n s (exec (.disengage n) s) 8 := by
  refine told_disengage h.toOpen ?_
  rw [disengageAxis_eq (h.accepts _), if_neg (by simpa using hst)]

/-! HOME. -/

theorem home_nothing (hw : s.sys.tray.fullWanted = s.sys.tray.full) (hl : s.sys.tray.axisLeak n = false)
    (h : s.sys.tray.full = false ∨ s.sys.tray.axes[n].st = .failed) (hc : s.sys.tray.axes[n].closedSw = false)
    (hr : s.sys.tray.railsUp n = true ∨ s.sys.tray.drivesPowered = false) : told n s (exec (.home n) s) 8 := by
  have hno : (s.sys.tray.railsUp n || !s.sys.tray.drivesPowered) = true := by
    rcases hr with hr | hr
    · rw [hr, Bool.true_or]
    · rw [hr, Bool.not_false, Bool.or_true]
  refine told_home hw ?_
  rw [homeAxis_eq hl h, hc, if_neg Bool.false_ne_true, if_pos hno]

theorem home_closed (hw : s.sys.tray.fullWanted = s.sys.tray.full) (hl : s.sys.tray.axisLeak n = false)
    (h : s.sys.tray.full = false ∨ s.sys.tray.axes[n].st = .failed) (hc : s.sys.tray.axes[n].closedSw = true) :
    Gives (exec (.home n) s) (axisStep n s fun a => a.st = .idle ∧ a.pos = 0 ∧ a.homed = true ∧ a.result = 0) := by
  have heq := homeAxis_eq hl h
  rw [if_pos hc] at heq
  rw [exec_home, execHome, onTray_becomes rfl]
  exact axisStep_now hw heq ⟨rfl, rfl, rfl, rfl⟩

theorem home_goes (hw : s.sys.tray.fullWanted = s.sys.tray.full) (hl : s.sys.tray.axisLeak n = false)
    (h : s.sys.tray.full = false ∨ s.sys.tray.axes[n].st = .failed) (hc : s.sys.tray.axes[n].closedSw = false)
    (hr : s.sys.tray.railsUp n = false) (hp : s.sys.tray.drivesPowered = true) :
    Gives (exec (.home n) s) (axisStep n s fun a => a.st = .homing ∧ a.pos = s.sys.tray.axes[n].pos ∧ a.result = 0) := by
  have hgo : ¬(s.sys.tray.railsUp n || !s.sys.tray.drivesPowered) = true := by
    rw [hr, hp]
    exact Bool.false_ne_true
  have heq := homeAxis_eq hl h
  rw [hc, if_neg Bool.false_ne_true, if_neg hgo] at heq
  rw [exec_home, execHome, onTray_becomes rfl]
  exact axisStep_now hw heq ⟨rfl, rfl, rfl⟩

end Commands

/-- Settles O52: each command by what refuses it first, and where nothing does by the motion it starts or ends. -/
theorem axisCommandsAct : Obligations.AxisCommandsAct := by
  unfold Obligations.AxisCommandsAct
  intro s n
  dsimp only
  rw [exec_asked]
  intro hw
  refine ⟨fun hl r hr => ?_, fun hl hst r hr => ?_, fun hl hst => ?_, fun hl => home_nothing hw hl, fun hl =>
    ⟨fun hf hst hp hh => ?_, fun hf hst hp => full_told ⟨⟨hw, hl, hst⟩, hp⟩ hf, fun h => ⟨home_closed hw hl h,
      home_goes hw hl h⟩⟩⟩
  · rcases hr with rfl | hr
    · exact told_home hw (homeAxis_leak hl)
    · obtain ⟨f, hf, rfl⟩ := List.mem_map.mp hr
      exact told_drawn hw (asks_refused (refuseAll_leak hl _) f hf)
  · obtain ⟨f, hf, rfl⟩ := List.mem_map.mp hr
    have hlt := Nat.mod_lt (Config.freeNat s.sys.free) (show 0 < 9 by decide)
    exact ⟨1 + Config.freeNat s.sys.free % 9, by omega, by omega,
      told_drawn hw (asks_refused (refuseAll_failed hl hst _) f hf)⟩
  · have h : Open n s := ⟨hw, hl, hst⟩
    exact ⟨absent_told h, fun hp => unhomed_told ⟨h, hp⟩, fun hf hm => stop_told h hf (by rw [hm]),
      fun hf hm => stop_told h hf (by rw [hm])⟩
  · have h : Ready n s := ⟨⟨⟨hw, hl, hst⟩, hp⟩, hf, hh⟩
    refine ⟨move_goes h, move_floored h, fun hr ht => told_move h.toOpen ?_, fun hr ht hd => told_move h.toOpen ?_,
      busy_told h, stop_stops h, fun hr => stop_told h.toOpen h.full ?_, following_told h, resume_goes h, resume_nothing h,
      engage_follows h, disengage_releases h, disengage_nothing h⟩
    · rw [h.move_rest hr, if_pos ht]
    · rw [h.move_rest hr, if_neg (by omega), hd]
      rfl
    · rcases hr with hr | hr <;> rw [hr]

end Sys2Proof.Machine
end

section
/-! PROOFS. Axis events and cam samples (O55). -/

namespace Sys2Proof.Machine

section Events

variable {s : State} {n : AxisId} {x : Axis} {railsUp : Bool} {now : Nat}

/-- What the statements say of an axis event. -/
def axisEvent (n : AxisId) (s : State) (P : State → Axis → Prop) (u : State) : Prop :=
  keepsMemory s u ∧ u.sys.out = s.sys.out ∧ (∀ m : AxisId, m ≠ n → u.sys.tray.axes[m] = s.sys.tray.axes[m]) ∧
    P u u.sys.tray.axes[n]

theorem axisEvent_now {f : Axis → Axis} {P : State → Axis → Prop} (hw : s.sys.tray.fullWanted = s.sys.tray.full)
    (hP : ∀ u, u = s.becomes (s.sys.tray.onAxis n f) → P u (f s.sys.tray.axes[n])) :
    Gives (.next (s.becomes (s.sys.tray.onAxis n f))) (axisEvent n s P) := by
  obtain ⟨hn, hm⟩ := settled_axis (y := { s.sys with tray := s.sys.tray.onAxis n f }) hw f rfl rfl
  refine ⟨_, rfl, ⟨rfl, rfl⟩, rfl, hm, ?_⟩
  rw [becomes_tray, hn]
  exact hP _ rfl

theorem axisEvent_passed {N : Nat} {f : Axis → Axis} {P : State → Axis → Prop}
    (hw : s.sys.tray.fullWanted = s.sys.tray.full)
    (hP : ∀ u, N ≤ u.sys.now → P u (f s.sys.tray.axes[n])) :
    Gives (.next ((s.passed N).becomes (s.sys.tray.onAxis n f))) (axisEvent n s P) := by
  obtain ⟨hn, hm⟩ := settled_axis (y := { (s.passed N).sys with tray := s.sys.tray.onAxis n f }) hw f rfl rfl
  refine ⟨_, rfl, ⟨rfl, rfl⟩, passed_out _ _, hm, ?_⟩
  rw [becomes_tray, hn]
  exact hP _ (le_passed _ _)

/-- An axis with nothing due stays at rest. -/
theorem goOn_rest (hn : x.next = none) (hc : x.closePending = false) : goOn railsUp now x = x := by
  unfold goOn
  rw [hn, hc]
  rfl

/-! The end of a move (19 R497, R498). -/

theorem gives_moveEnd {P : State → Axis → Prop} (hw : s.sys.tray.fullWanted = s.sys.tray.full)
    (hP : ∀ u now, s.sys.tray.axes[n].due.getD 0 ≤ u.sys.now → P u (moveEnd (s.sys.tray.railsUp n) now s.sys.tray.axes[n])) :
    Gives (exec (.moveEnd n) s) (axisEvent n s P) := by
  rw [exec_moveEnd, execMoveEnd, onTrayAt_becomes rfl]
  exact axisEvent_passed hw fun u hu => hP u _ hu

theorem moveEnd_arrives (hst : x.st = .moving) (ht : x.target ≠ 0 ∨ x.closedSw = true) (hn : x.next = none)
    (hc : x.closePending = false) : moveEnd railsUp now x = arrive x := by
  have hno : ¬(x.target == 0 && !x.closedSw) = true := by
    rcases ht with h | h <;> simp [h]
  unfold moveEnd
  rw [hst]
  dsimp only
  rw [if_neg hno]
  exact goOn_rest hn hc

theorem moveEnd_overruns (hst : x.st = .moving) (ht : x.target = 0) (hs : x.closedSw = false) :
    moveEnd railsUp now x = { x with overrun := true } := by
  unfold moveEnd
  rw [hst]
  dsimp only
  exact if_pos (by simp [ht, hs])

/-! A halt (19 R502). -/

section Halt

variable {pos : Nat}

theorem axisHalt_stops {p : Nat} (hst : x.st = .stopping) (hr : x.release = false) (hn : x.next = none)
    (hc : x.closePending = false) (hp : haltPosition x pos = p) (hne : p ≠ x.target) : axisHalt railsUp pos now x = { x with
      st := .stopped
      pos := p
      remain := (x.target : Int) - p
      full := false } := by
  have hgo : ¬(x.st != .stopping) = true := by simp [hst]
  have hrest : ¬(x.release || (x.target : Int) - p == 0) = true := by
    rw [hr, Bool.false_or, beq_iff_eq]
    omega
  unfold axisHalt
  rw [if_neg hgo]
  dsimp only
  rw [hp, if_neg hrest]
  exact goOn_rest hn hc

theorem axisHalt_ends {p : Nat} (hst : x.st = .stopping) (hr : x.release = true ∨ p = x.target) (hn : x.next = none)
    (hc : x.closePending = false) (hp : haltPosition x pos = p) : axisHalt railsUp pos now x = { x with
      st := .idle
      pos := p
      remain := 0
      release := false
      full := false } := by
  have hgo : ¬(x.st != .stopping) = true := by simp [hst]
  have hrest : (x.release || (x.target : Int) - p == 0) = true := by
    rcases hr with h | h
    · rw [h, Bool.true_or]
    · rw [h, Int.sub_self, BEq.rfl, Bool.or_true]
  unfold axisHalt
  rw [if_neg hgo]
  dsimp only
  rw [hp, if_pos hrest]
  exact goOn_rest hn hc

theorem haltPosition_before (hr : x.release = false) (hp : pos ≤ axisOpen)
    (h : if x.pos ≤ x.target then pos < x.target else x.target < pos) : haltPosition x pos = pos ∧ pos ≠ x.target := by
  unfold haltPosition
  rw [hr, if_neg Bool.false_ne_true]
  split at h
  · rename_i hup
    rw [if_pos hup]
    omega
  · rename_i hup
    rw [if_neg hup]
    omega

theorem haltPosition_past (hr : x.release = false) (hp : x.target ≤ axisOpen)
    (h : if x.pos ≤ x.target then x.target ≤ pos else pos ≤ x.target) : haltPosition x pos = x.target := by
  unfold haltPosition
  rw [hr, if_neg Bool.false_ne_true]
  split at h
  · rename_i hup
    rw [if_pos hup]
    omega
  · rename_i hup
    rw [if_neg hup]
    omega

theorem haltPosition_release (hr : x.release = true) (hp : pos ≤ axisOpen) : haltPosition x pos = pos := by
  unfold haltPosition
  rw [if_pos hr]
  omega

end Halt

/-! The switches (19 R496, R497). -/

theorem closedSwitch_homing (boot : Nat) (pos : Int) (hst : x.st = .homing) (hb : x.boot = false) (hn : x.next = none)
    (hc : x.closePending = false) : closedSwitch boot railsUp pos now x = { homedAt x with boot := false } := by
  unfold closedSwitch
  rw [hst, hb]
  exact goOn_rest hn hc

theorem closedSwitch_slips (boot : Nat) {pos : Int} (hst : x.st = .moving) (hp : 64 < pos) (hn : x.next = none)
    (hc : x.closePending = false) : closedSwitch boot railsUp pos now x = { homedAt x with
      homed := x.homed
      target := 0
      slip := true } := by
  have hslip : (decide (64 < pos) || x.overrun || decide (pos < 0)) = true := by simp [hp]
  unfold closedSwitch
  rw [hst]
  dsimp only
  rw [if_pos hslip]
  exact goOn_rest hn hc

theorem closedSwitch_ends (boot : Nat) {pos : Int} (hst : x.st = .moving) (ho : x.overrun = false) (h0 : 0 ≤ pos)
    (h64 : pos ≤ 64) (ht : x.target = 0) (hn : x.next = none) (hc : x.closePending = false) :
    closedSwitch boot railsUp pos now x = { homedAt x with homed := x.homed } := by
  have hslip : ¬(decide (64 < pos) || x.overrun || decide (pos < 0)) = true := by
    simp only [ho, Bool.or_false, Bool.or_eq_true, decide_eq_true_eq]
    omega
  unfold closedSwitch
  rw [hst]
  dsimp only
  rw [if_neg hslip, if_pos (beq_iff_eq.mpr ht)]
  exact goOn_rest hn hc

theorem openSwitch_ends {pos : Nat} (hst : x.st = .moving) (h : pos < axisOpen ∨ x.target = axisOpen) (hn : x.next = none)
    (hc : x.closePending = false) : openSwitch railsUp pos now x = { x with
      st := .idle
      pos := axisOpen
      openSw := true
      closedSw := false
      slip := x.slip || decide (pos < axisOpen)
      remain := 0
      due := none
      full := false
      overrun := false
      release := false } := by
  have hgo : ¬(!x.inMotion) = true := by simp [Axis.inMotion, hst]
  have hnf : ¬(x.st == .following) = true := by simp [hst]
  have hends : (decide (pos < axisOpen) || x.target == axisOpen) = true := by simpa using h
  unfold openSwitch
  rw [if_neg hgo]
  dsimp only
  rw [if_neg hnf, if_pos hends]
  exact goOn_rest hn hc

end Events

end Sys2Proof.Machine
end

section
/-! PROOFS. Axis events and cam samples as the statement has them (O55). -/

namespace Sys2Proof.Machine

section Events

variable {s : State} {n : AxisId}

/-- Nothing more is due at the axis, and the causes of full cooling are settled. -/
structure Quiet (n : AxisId) (s : State) : Prop where
  wanted : s.sys.tray.fullWanted = s.sys.tray.full
  next : s.sys.tray.axes[n].next = none
  close : s.sys.tray.axes[n].closePending = false

variable (h : Quiet n s)
include h

theorem gives_moveEnd_arrives (hst : s.sys.tray.axes[n].st = .moving)
    (ht : s.sys.tray.axes[n].target ≠ 0 ∨ s.sys.tray.axes[n].closedSw = true) : Gives (exec (.moveEnd n) s) (axisEvent n s
      fun u a => s.sys.tray.axes[n].due.getD 0 ≤ u.sys.now ∧ a.st = .idle ∧ a.pos = s.sys.tray.axes[n].target ∧ a.remain = 0 ∧
        a.openSw = decide (s.sys.tray.axes[n].target = axisOpen)) := by
  refine gives_moveEnd h.wanted fun u now hu => ?_
  rw [moveEnd_arrives hst ht h.next h.close]
  exact ⟨hu, rfl, rfl, rfl, Bool.beq_eq_decide_eq _ _⟩

theorem gives_moveEnd_overruns (hst : s.sys.tray.axes[n].st = .moving) (ht : s.sys.tray.axes[n].target = 0)
    (hs : s.sys.tray.axes[n].closedSw = false) : Gives (exec (.moveEnd n) s) (axisEvent n s fun _ a =>
      a = { s.sys.tray.axes[n] with overrun := true }) :=
  gives_moveEnd h.wanted fun _ _ _ => moveEnd_overruns hst ht hs

theorem gives_axisHalt {P : State → Axis → Prop} {pos : Nat} {a : Axis}
    (ha : axisHalt (s.sys.tray.railsUp n) pos s.sys.now s.sys.tray.axes[n] = a) (hP : ∀ u, onlyTray s u → P u a) :
    Gives (exec (.axisHalt n pos) s) (axisEvent n s P) := by
  rw [exec_axisHalt, execAxisHalt, onTray_becomes rfl]
  refine axisEvent_now h.wanted fun u hu => ?_
  rw [ha]
  exact hP u (by rw [hu]; rfl)

theorem gives_axisHalt_stops (pos : Nat) (hst : s.sys.tray.axes[n].st = .stopping) (hr : s.sys.tray.axes[n].release = false)
    (hp : pos ≤ axisOpen) (hbefore : if s.sys.tray.axes[n].pos ≤ s.sys.tray.axes[n].target then pos < s.sys.tray.axes[n].target
      else s.sys.tray.axes[n].target < pos) : Gives (exec (.axisHalt n pos) s) (axisEvent n s fun u a => onlyTray s u ∧
    a = { s.sys.tray.axes[n] with
      st := .stopped
      pos := pos
      remain := (s.sys.tray.axes[n].target : Int) - pos
      full := false }) := by
  obtain ⟨hpos, hne⟩ := haltPosition_before hr hp hbefore
  exact gives_axisHalt h (axisHalt_stops hst hr h.next h.close hpos hne) fun _ hu => ⟨hu, rfl⟩

theorem gives_axisHalt_ends (pos : Nat) (hst : s.sys.tray.axes[n].st = .stopping) (hr : s.sys.tray.axes[n].release = false)
    (hp : s.sys.tray.axes[n].target ≤ axisOpen) (hpast : if s.sys.tray.axes[n].pos ≤ s.sys.tray.axes[n].target then
      s.sys.tray.axes[n].target ≤ pos else pos ≤ s.sys.tray.axes[n].target) :
    Gives (exec (.axisHalt n pos) s) (axisEvent n s fun u a => onlyTray s u ∧ a.st = .idle ∧
      a.pos = s.sys.tray.axes[n].target ∧ a.remain = 0) :=
  gives_axisHalt h (axisHalt_ends hst (.inr rfl) h.next h.close (haltPosition_past hr hp hpast)) fun _ hu =>
    ⟨hu, rfl, rfl, rfl⟩

theorem gives_axisHalt_releases (pos : Nat) (hst : s.sys.tray.axes[n].st = .stopping) (hp : pos ≤ axisOpen)
    (hr : s.sys.tray.axes[n].release = true) : Gives (exec (.axisHalt n pos) s) (axisEvent n s fun u a => onlyTray s u ∧
      a.st = .idle ∧ a.pos = pos ∧ a.remain = 0) :=
  gives_axisHalt h (axisHalt_ends hst (.inl hr) h.next h.close (haltPosition_release hr hp)) fun _ hu => ⟨hu, rfl, rfl, rfl⟩

theorem gives_homeFail (hst : s.sys.tray.axes[n].st = .homing) : Gives (exec (.homeFail n) s) (axisEvent n s fun u a =>
    onlyTray s u ∧ a.st = .failed ∧ a.result = 9) := by
  rw [exec_homeFail, execHomeFail, onTray_becomes rfl]
  refine axisEvent_now h.wanted fun u hu => ?_
  rw [if_pos (beq_iff_eq.mpr hst)]
  exact ⟨by rw [hu]; rfl, rfl, rfl⟩

theorem gives_closedSwitch {P : State → Axis → Prop} {pos : Int} {a : Axis}
    (ha : closedSwitch (bootTarget s.sys.tray n) (s.sys.tray.railsUp n) pos s.sys.now s.sys.tray.axes[n] = a)
    (hP : ∀ u, onlyTray s u → P u a) : Gives (exec (.closedSwitch n pos) s) (axisEvent n s P) := by
  rw [exec_closedSwitch, execClosedSwitch, onTray_becomes rfl]
  refine axisEvent_now h.wanted fun u hu => ?_
  rw [ha]
  exact hP u (by rw [hu]; rfl)

theorem gives_closedSwitch_homing (pos : Int) (hst : s.sys.tray.axes[n].st = .homing) (hb : s.sys.tray.axes[n].boot = false) :
    Gives (exec (.closedSwitch n pos) s) (axisEvent n s fun u a => onlyTray s u ∧ a.st = .idle ∧ a.pos = 0 ∧ a.homed = true ∧
      a.closedSw = true ∧ a.slip = s.sys.tray.axes[n].slip) :=
  gives_closedSwitch h (closedSwitch_homing _ pos hst hb h.next h.close) fun _ hu => ⟨hu, rfl, rfl, rfl, rfl, rfl⟩

theorem gives_closedSwitch_slips (pos : Int) (hst : s.sys.tray.axes[n].st = .moving) (hp : 64 < pos) :
    Gives (exec (.closedSwitch n pos) s) (axisEvent n s fun u a => onlyTray s u ∧ a.st = .idle ∧ a.pos = 0 ∧ a.slip = true ∧
      a.homed = s.sys.tray.axes[n].homed) :=
  gives_closedSwitch h (closedSwitch_slips _ hst hp h.next h.close) fun _ hu => ⟨hu, rfl, rfl, rfl, rfl⟩

theorem gives_closedSwitch_ends (pos : Int) (hst : s.sys.tray.axes[n].st = .moving) (ho : s.sys.tray.axes[n].overrun = false)
    (h0 : 0 ≤ pos) (h64 : pos ≤ 64) (ht : s.sys.tray.axes[n].target = 0) : Gives (exec (.closedSwitch n pos) s)
      (axisEvent n s fun u a => onlyTray s u ∧ a.st = .idle ∧ a.pos = 0 ∧ a.slip = s.sys.tray.axes[n].slip) :=
  gives_closedSwitch h (closedSwitch_ends _ hst ho h0 h64 ht h.next h.close) fun _ hu => ⟨hu, rfl, rfl, rfl⟩

theorem gives_openSwitch (pos : Nat) (hst : s.sys.tray.axes[n].st = .moving)
    (hends : pos < axisOpen ∨ s.sys.tray.axes[n].target = axisOpen) : Gives (exec (.openSwitch n pos) s)
      (axisEvent n s fun u a => onlyTray s u ∧ a.st = .idle ∧ a.pos = axisOpen ∧ a.openSw = true ∧
        a.slip = (s.sys.tray.axes[n].slip || decide (pos < axisOpen))) := by
  rw [exec_openSwitch, execOpenSwitch, onTray_becomes rfl]
  refine axisEvent_now h.wanted fun u hu => ?_
  rw [openSwitch_ends hst hends h.next h.close]
  exact ⟨by rw [hu]; rfl, rfl, rfl, rfl, rfl⟩

theorem gives_openSwitch_slips (pos : Nat) (hst : s.sys.tray.axes[n].st = .moving) (hp : pos < axisOpen) :
    Gives (exec (.openSwitch n pos) s) (axisEvent n s fun u a => onlyTray s u ∧ a.st = .idle ∧ a.pos = axisOpen ∧
      a.openSw = true ∧ a.slip = true) := by
  have hg := gives_openSwitch h pos hst (.inl hp)
  rw [decide_eq_true hp, Bool.or_true] at hg
  exact hg

theorem gives_openSwitch_ends (hst : s.sys.tray.axes[n].st = .moving) (ht : s.sys.tray.axes[n].target = axisOpen) :
    Gives (exec (.openSwitch n axisOpen) s) (axisEvent n s fun u a => onlyTray s u ∧ a.st = .idle ∧ a.pos = axisOpen ∧
      a.openSw = true ∧ a.slip = s.sys.tray.axes[n].slip) := by
  have hg := gives_openSwitch h axisOpen hst (.inr ht)
  rw [decide_eq_false (Nat.lt_irrefl _), Bool.or_false] at hg
  exact hg

theorem gives_closeOverrun (hst : s.sys.tray.axes[n].st = .moving) (ho : s.sys.tray.axes[n].overrun = true) :
    Gives (exec (.closeOverrun n) s) (axisEvent n s fun u a => onlyTray s u ∧ a.st = .failed ∧ a.overrun = false) := by
  rw [exec_closeOverrun, execCloseOverrun, onTray_becomes rfl]
  refine axisEvent_now h.wanted fun u hu => ?_
  rw [if_pos (by rw [hst, ho]; rfl)]
  exact ⟨by rw [hu]; rfl, rfl, rfl⟩

end Events

section Cams

variable {s : State}

/-! A pending close (19 R505). -/

theorem Tray.onAxis_id (n : AxisId) {f : Axis → Axis} (t : Tray) (h : f t.axes[n] = t.axes[n]) : t.onAxis n f = t := by
  unfold Tray.onAxis
  rw [h]
  simp

theorem railsOffRise_starts {n : SlotId} (hw : s.sys.tray.fullWanted = s.sys.tray.full)
    (hoff : s.sys.tray.bays[n].cpc.railsOff = true) (hp : s.sys.tray.drivesPowered = true)
    (hn : s.sys.tray.axes[slotAxis n].next = none) (hc : s.sys.tray.axes[slotAxis n].closePending = true)
    (hst : s.sys.tray.axes[slotAxis n].st = .idle ∨ s.sys.tray.axes[slotAxis n].st = .stopped)
    (hpos : s.sys.tray.axes[slotAxis n].pos ≠ 0) : Gives (exec (.railsOffRise n) s) fun u => onlyTray s u ∧
      u.sys.tray.axes[slotAxis n].st = .moving ∧ u.sys.tray.axes[slotAxis n].target = 0 ∧
      u.sys.tray.axes[slotAxis n].closePending = false := by
  have hgo : goOn false s.sys.now s.sys.tray.axes[slotAxis n] = startMove 0 false s.sys.now { s.sys.tray.axes[slotAxis n] with
      closePending := false
      floor := false } := by
    unfold goOn
    rw [hn]
    exact if_pos (by rw [hc]; simpa using hst)
  obtain ⟨due, cs, os, hm⟩ := startMove_moves (target := 0) (x := { s.sys.tray.axes[slotAxis n] with
    closePending := false
    floor := false }) false s.sys.now (Ne.symm hpos)
  rw [exec_railsOffRise, execRailsOffRise, onTray_becomes (if_pos (by rw [hoff, hp]; rfl))]
  obtain ⟨hx, -⟩ := settled_axis (n := slotAxis n) (y := { s.sys with
    tray := s.sys.tray.onAxis (slotAxis n) (goOn false s.sys.now) }) hw (goOn false s.sys.now) rfl rfl
  refine ⟨_, rfl, rfl, ?_⟩
  rw [becomes_tray, hx, hgo, hm]
  exact ⟨rfl, rfl, rfl⟩

theorem railsOffRise_same {n : SlotId} (hn : s.sys.tray.axes[slotAxis n].next = none)
    (hc : s.sys.tray.axes[slotAxis n].closePending = false) : exec (.railsOffRise n) s = .next s.settled := by
  rw [exec_railsOffRise, execRailsOffRise]
  refine onTray_same ?_
  split
  · exact Tray.onAxis_id _ _ (goOn_rest hn hc)
  · rfl

/-! A cam sample (19 R508 to R511). -/

/-- The segment that a table's master value lies in. -/
def camSeg (t : Tray) (c : Cam) : Fin 64 := Fin.ofNat 64 (camMaster t c / 1024)

/-- A pending buffer may become active. -/
def camSwaps (t : Tray) (k : CamId) : Prop :=
  t.cams[k].swap = true ∧ (t.followed k = false ∨ ∃ old, t.cams[k].seg = some old ∧ old ≠ camSeg t t.cams[k])

theorem sampleCam_eq (t : Tray) (k : CamId) (c : Cam) : sampleCam t k c =
    if c.swap && (!t.followed k || c.seg.any fun o => o != camSeg t c) then { c with
      active := c.shadow
      shadow := c.active
      swap := false
      buf := !c.buf
      seg := some (camSeg t c) }
    else { c with seg := some (camSeg t c) } := by
  unfold sampleCam camSeg
  cases c.seg <;> rfl

theorem camSwaps_iff {t : Tray} {k : CamId} : (t.cams[k].swap && (!t.followed k || t.cams[k].seg.any fun o =>
    o != camSeg t t.cams[k])) = true ↔ camSwaps t k := by
  rw [Bool.and_eq_true, Bool.or_eq_true, Bool.not_eq_true', Option.any_eq_true]
  simp only [bne_iff_ne]
  rfl

theorem sampleCam_swaps {t : Tray} {k : CamId} (h : camSwaps t k) : sampleCam t k t.cams[k] = { t.cams[k] with
    active := t.cams[k].shadow
    shadow := t.cams[k].active
    swap := false
    buf := !t.cams[k].buf
    seg := some (camSeg t t.cams[k]) } := by
  rw [sampleCam_eq, if_pos (camSwaps_iff.mpr h)]

theorem sampleCam_keeps {t : Tray} {k : CamId} (h : ¬camSwaps t k) : sampleCam t k t.cams[k] = { t.cams[k] with
    seg := some (camSeg t t.cams[k]) } := by
  rw [sampleCam_eq, if_neg fun hyes => h (camSwaps_iff.mp hyes)]

theorem sampleCam_master (t : Tray) (k : CamId) (c : Cam) : (sampleCam t k c).master = c.master := by
  rw [sampleCam_eq]
  split <;> rfl

theorem camMaster_congr {t u : Tray} {c d : Cam} (hm : d.master = c.master) (hd : u.drives = t.drives)
    (hr : u.resolvedDemand = t.resolvedDemand) : camMaster u d = camMaster t c := by
  unfold camMaster
  rw [hm, hd, hr]

/-- The tray with its tables sampled. -/
def sampled (t : Tray) : Tray := { t with cams := Vector.ofFn fun k => sampleCam t k t.cams[k] }

theorem sampled_cam (t : Tray) (k : CamId) : (sampled t).cams[k] = sampleCam t k t.cams[k] := by
  simp [sampled]

theorem sampled_master (t : Tray) (k : CamId) : camMaster (sampled t) (sampled t).cams[k] = camMaster t t.cams[k] := by
  rw [sampled_cam]
  exact camMaster_congr (sampleCam_master ..) rfl rfl

/-- An axis after a sample. -/
def cammed (u : Tray) (now : Nat) (n : AxisId) (x : Axis) : Axis :=
  if x.st == .following then followTo u n (camOutput u.cams[x.cam].active (camMaster u u.cams[x.cam])) now x else x

theorem camSample_eq (now : Nat) (t : Tray) : camSample now t = { sampled t with
    axes := Vector.ofFn fun n => cammed (sampled t) now n t.axes[n] } := rfl

theorem camSample_cooling (now : Nat) (t : Tray) : (camSample now t).fullWanted = t.fullWanted ∧
    (camSample now t).full = t.full := by
  unfold Tray.fullWanted Tray.fullCause camSample
  dsimp only
  exact ⟨rfl, rfl⟩

theorem camSample_cam (now : Nat) (t : Tray) (k : CamId) : (camSample now t).cams[k] = sampleCam t k t.cams[k] := by
  rw [camSample_eq]
  dsimp only
  exact sampled_cam t k

theorem camSample_axis (now : Nat) (t : Tray) (n : AxisId) : (camSample now t).axes[n] = cammed (sampled t) now n t.axes[n] := by
  rw [camSample_eq]
  simp

theorem followTo_target {u : Tray} {n : AxisId} (out now : Nat) (x : Axis) (ha : u.axisAbsent n = false) :
    (followTo u n out now x).st = x.st ∧ (followTo u n out now x).target = (floorOf u n out).1 := by
  have hno : ¬(u.axisAbsent n && decide (0 < (floorOf u n out).1)) = true := by
    rw [ha, Bool.false_and]
    exact Bool.false_ne_true
  unfold followTo
  dsimp only
  rw [if_neg hno]
  exact ⟨rfl, rfl⟩

theorem gives_camSample (hw : s.sys.tray.fullWanted = s.sys.tray.full) : Gives (exec .camSample s) fun u => onlyTray s u ∧
    (∀ k : CamId, u.sys.tray.cams[k] = sampleCam s.sys.tray k s.sys.tray.cams[k]) ∧
    ∀ n : AxisId, u.sys.tray.axes[n] = cammed (sampled s.sys.tray) s.sys.now n s.sys.tray.axes[n] := by
  have hy : (camSample s.sys.now s.sys.tray).fullWanted = (camSample s.sys.now s.sys.tray).full := by
    rw [(camSample_cooling ..).1, (camSample_cooling ..).2]
    exact hw
  obtain ⟨haxes, -⟩ := settleTray_keepsAxes { s.sys with tray := camSample s.sys.now s.sys.tray } hy
  rw [exec_camSample, execCamSample, onTray_becomes rfl]
  refine ⟨_, rfl, rfl, fun k => ?_, fun n => ?_⟩
  · rw [becomes_tray, settleTray_cams, camSample_cam]
  · rw [becomes_tray, haxes, camSample_axis]

theorem cammed_follower {t : Tray} {n : AxisId} (now : Nat) (hst : t.axes[n].st = .following) (ha : t.axisAbsent n = false)
    (out : Nat) (hout : out = camOutput (sampled t).cams[t.axes[n].cam].active (camMaster t t.cams[t.axes[n].cam])) :
    (cammed (sampled t) now n t.axes[n]).st = .following ∧
    (cammed (sampled t) now n t.axes[n]).target = if t.railsUp n = true ∧ out < t.axes[n].min then t.axes[n].min else out := by
  unfold cammed
  rw [if_pos (beq_iff_eq.mpr hst), sampled_master, ← hout]
  obtain ⟨h1, h2⟩ := followTo_target (u := sampled t) out now t.axes[n] ha
  refine ⟨h1.trans hst, h2.trans ?_⟩
  by_cases hf : t.railsUp n = true ∧ out < t.axes[n].min
  · rw [if_pos hf, floorOf_raised (t := sampled t) hf]
    rfl
  · rw [if_neg hf, floorOf_free (t := sampled t) hf]

end Cams

/-- Settles O55: each event by what it makes of the axis, at rest where nothing more is due; a sample by its tables and then
their followers. -/
theorem axisEventsAndCamsAct : Obligations.AxisEventsAndCamsAct := by
  unfold Obligations.AxisEventsAndCamsAct
  refine ⟨fun s n => ?_, fun s n => ?_, fun s k => rfl, fun s => ?_⟩
  · intro t x gives hw hn hc
    have h : Quiet n s := ⟨hw, hn, hc⟩
    exact ⟨gives_moveEnd_arrives h, gives_moveEnd_overruns h, gives_axisHalt_stops h, gives_axisHalt_ends h,
      gives_axisHalt_releases h, gives_homeFail h, gives_closedSwitch_homing h, gives_closedSwitch_slips h,
      gives_closedSwitch_ends h, gives_openSwitch_slips h, gives_openSwitch_ends h, gives_closeOverrun h⟩
  · intro t x hw hoff hp hn
    exact ⟨railsOffRise_starts hw hoff hp hn, railsOffRise_same hn⟩
  · intro t hw
    obtain ⟨u, hu, honly, hcams, haxes⟩ := gives_camSample hw
    refine ⟨u, hu, honly, fun k => ⟨fun h => (hcams k).trans (sampleCam_swaps h), fun h => (hcams k).trans (sampleCam_keeps h)⟩,
      fun n => ⟨fun hst => (haxes n).trans (if_neg (by simpa using hst)), fun hst ha out hout => ?_⟩⟩
    rw [hcams, ← sampled_cam] at hout
    obtain ⟨h1, h2⟩ := cammed_follower s.sys.now hst ha out hout
    refine ⟨?_, ?_⟩
    · rw [haxes]
      exact h1
    · rw [haxes]
      exact h2

end Sys2Proof.Machine
end

section
/-! PROOFS. Leaks, full cooling by request, and the valve policy (O56). -/

namespace Sys2Proof.Machine

section Leaks

variable {s : State} {n : SlotId} {now : Nat} {t : Tray}

/-! The sources of the leak zones (19 R517). -/

/-- A bay of the zone has its leak latched. -/
def zoneWet (t : Tray) (z : Nat) : Bool := allSlots.any fun n => n.val / 4 == z && t.bays[n].leak

/-- Each of these zones' sources follows its bays, and no other. -/
def zoneStep (t : Tray) (now : Nat) (u : Tray) (z : Nat) : Tray :=
  if zoneWet t z then u.assert (40 + z) .board now else u.lower (40 + z) now

theorem settleLeak_fold (now : Nat) (t : Tray) : settleLeak now t = (List.range 4).foldl (zoneStep t now) t := rfl

theorem zoneStep_eq (t : Tray) (now : Nat) (u : Tray) (z : Nat) : ∃ fc, zoneStep t now u z = { u with fc := fc } ∧
    SameLatches u.fc fc ∧ (∀ i : SourceId, 40 + z ≠ i.val → fc.src[i] = u.fc.src[i]) ∧
    ∀ i : SourceId, 40 + z = i.val → fc.src[i].line = zoneWet t z := by
  unfold zoneStep
  cases zoneWet t z with
  | true =>
    refine ⟨u.fc.assert (40 + z) .board now, rfl, sameLatches_assert .., fun i hi => assert_other _ _ hi _, fun i hi => ?_⟩
    rw [hi]
    exact assert_sets_line ..
  | false =>
    refine ⟨u.fc.lower (40 + z) now, rfl, sameLatches_lower .., fun i hi => lower_other _ _ hi, fun i hi => ?_⟩
    rw [hi]
    exact lower_clears_line ..

theorem SameLatches.trans {k l m : Collector} (h : SameLatches k l) (g : SameLatches l m) : SameLatches k m where
  src := fun i => by rw [g.src i, h.src i]
  raised := fun r hr => g.raised r (h.raised r hr)
  firstSource := g.firstSource.trans h.firstSource
  firstValid := g.firstValid.trans h.firstValid
  firstTime := g.firstTime.trans h.firstTime
  recov := g.recov.trans h.recov

theorem foldl_zoneStep (t : Tray) (now : Nat) (l : List Nat) (hl : l.Nodup) : ∀ u : Tray, ∃ fc,
    l.foldl (zoneStep t now) u = { u with fc := fc } ∧ SameLatches u.fc fc ∧
      (∀ i : SourceId, (∀ z ∈ l, 40 + z ≠ i.val) → fc.src[i] = u.fc.src[i]) ∧
      ∀ z ∈ l, ∀ i : SourceId, 40 + z = i.val → fc.src[i].line = zoneWet t z := by
  induction l with
  | nil => exact fun u => ⟨u.fc, rfl, .refl _, fun _ _ => rfl, fun z hz => absurd hz List.not_mem_nil⟩
  | cons z l ih =>
    intro u
    obtain ⟨hz, hl⟩ := List.nodup_cons.mp hl
    obtain ⟨fc, heq, hsame, hother, hline⟩ := zoneStep_eq t now u z
    obtain ⟨fc', heq', hsame', hother', hline'⟩ := ih hl (zoneStep t now u z)
    rw [heq] at heq' hsame' hother'
    refine ⟨fc', by rw [List.foldl_cons, heq, heq'], hsame.trans hsame', fun i hi => ?_, fun w hw i hi => ?_⟩
    · rw [hother' i fun w hw => hi w (List.mem_cons_of_mem _ hw)]
      exact hother i (hi z List.mem_cons_self)
    · rcases List.mem_cons.mp hw with rfl | hw
      · rw [hother' i fun v hv he => hz (by rw [← hi] at he; rwa [Nat.add_left_cancel he] at hv)]
        exact hline i hi
      · exact hline' w hw i hi

theorem settleLeak_eq (now : Nat) (t : Tray) : ∃ fc, settleLeak now t = { t with fc := fc } ∧ SameLatches t.fc fc ∧
    ∀ z < 4, ∀ i : SourceId, 40 + z = i.val → fc.src[i].line = zoneWet t z := by
  obtain ⟨fc, heq, hsame, -, hline⟩ := foldl_zoneStep t now (List.range 4) List.nodup_range t
  exact ⟨fc, heq, hsame, fun z hz => hline z (List.mem_range.mpr hz)⟩

/-! A leak. -/

/-- The tray whose bay is wet, its valve on the way to closed, before the zones' sources. -/
def leaked (n : SlotId) (now : Nat) (t : Tray) : Tray :=
  (t.onBay n fun b => { b with
    wet := true
    leak := true }).onAxis (slotAxis n) (closeValve t.drivesPowered now)

theorem leakIn_eq (n : SlotId) (now : Nat) (t : Tray) : leakIn n now t = settleLeak now (leaked n now t) := rfl

theorem leaked_bay (n : SlotId) (now : Nat) (t : Tray) : (leaked n now t).bays[n] = { t.bays[n] with
    wet := true
    leak := true } := by
  unfold leaked
  rw [Tray.onAxis_bays, Tray.onBay_same]

theorem closeValve_moves {x : Axis} (hst : x.st = .idle) (hpos : x.pos ≠ 0) (now : Nat) :
    (closeValve true now x).st = .moving ∧ (closeValve true now x).target = 0 ∧ (closeValve true now x).full = true := by
  obtain ⟨due, cs, os, hm⟩ := startMove_moves (target := 0) (x := { x with
    closePending := false
    floor := false
    release := false }) true now (Ne.symm hpos)
  have hsend : sendAxis 0 now x = startMove 0 true now { x with
      closePending := false
      floor := false
      release := false } := by
    unfold sendAxis
    dsimp only
    rw [hst]
  have hnf : ¬(x.st == .failed) = true := by simp [hst]
  have hnh : ¬(x.st == .homing) = true := by simp [hst]
  have hclose : closeValve true now x = { sendAxis 0 now x with remain := 0 } := by
    unfold closeValve
    dsimp only
    rw [if_neg (by decide), if_neg hnf, if_neg hnh]
  rw [hclose, hsend, hm]
  exact ⟨rfl, rfl, rfl⟩

theorem finOf_slotAxis (n : SlotId) : finOf 16 (slotAxis n).val = some n := by
  unfold slotAxis
  simp [finOf]

theorem fullTarget_slot (t : Tray) (n : SlotId) : fullTarget t (slotAxis n) =
    if t.bays[n].present && !t.bays[n].leak then some axisOpen else none := by
  unfold fullTarget
  rw [finOf_slotAxis]

/-- Full cooling that begins leaves the valve of a leaking bay as it moves. -/
theorem settledAxis_leaking {x : Axis} (hl : t.bays[n].leak = true) (hp : t.drivesPowered = true) (hst : x.st = .moving) :
    (settledAxis t now (slotAxis n) x).st = .moving ∧ (settledAxis t now (slotAxis n) x).target = x.target ∧
      (settledAxis t now (slotAxis n) x).full = x.full := by
  have hnf : ¬(x.st == .following) = true := by simp [hst]
  have hnone : fullTarget t (slotAxis n) = none := by
    rw [fullTarget_slot, hl, Bool.not_true, Bool.and_false]
    exact if_neg Bool.false_ne_true
  unfold settledAxis
  rw [hp, if_pos rfl]
  split
  · unfold fullSent
    rw [hnone]
    dsimp only
    rw [if_neg hnf]
    exact ⟨hst, rfl, rfl⟩
  · exact ⟨hst, rfl, rfl⟩

theorem gives_leak (s : State) (n : SlotId) : Gives (exec (.leak n) s) fun u => onlyTray s u ∧
    u.sys.tray.bays[n].leak = true ∧ u.sys.tray.bays[n].wet = true ∧ u.sys.tray.bays[n].cpc.pwrEn = false ∧
    u.sys.tray.fc.src[(⟨40 + n.val / 4, by omega⟩ : SourceId)].line = true ∧
    (s.sys.tray.drivesPowered = true → s.sys.tray.axes[slotAxis n].st = .idle → s.sys.tray.axes[slotAxis n].pos ≠ 0 →
      u.sys.tray.axes[slotAxis n].st = .moving ∧ u.sys.tray.axes[slotAxis n].target = 0 ∧
      u.sys.tray.axes[slotAxis n].full = true) := by
  obtain ⟨fc, heq, -, hline⟩ := settleLeak_eq s.sys.now (leaked n s.sys.now s.sys.tray)
  have hbay := leaked_bay n s.sys.now s.sys.tray
  have hwet : zoneWet (leaked n s.sys.now s.sys.tray) (n.val / 4) = true := by
    unfold zoneWet
    rw [List.any_eq_true]
    exact ⟨n, List.mem_finRange n, by rw [hbay]; simp⟩
  have hzone := hline (n.val / 4) (by omega) ⟨40 + n.val / 4, by omega⟩ rfl
  have haxis : (leaked n s.sys.now s.sys.tray).axes[slotAxis n] =
      closeValve s.sys.tray.drivesPowered s.sys.now s.sys.tray.axes[slotAxis n] := Tray.onAxis_same ..
  have hpower : (leaked n s.sys.now s.sys.tray).drivesPowered = s.sys.tray.drivesPowered := drivesPowered_congr rfl
  rw [exec_leak, execLeak, onTray_becomes rfl, leakIn_eq, heq]
  generalize leaked n s.sys.now s.sys.tray = d at hbay hwet hzone haxis hpower
  refine ⟨_, rfl, rfl, ?_, ?_, ?_, ?_, fun hp hst hpos => ?_⟩
  · rw [becomes_tray, settleTray_bay]
    exact (congrArg Bay.leak hbay).trans rfl
  · rw [becomes_tray, settleTray_bay]
    exact (congrArg Bay.wet hbay).trans rfl
  · rw [becomes_tray, settleTray_cpc, setPwrEn_pwrEn]
    exact pwrEn_false (.inr (.inr (congrArg Bay.leak hbay)))
  · rw [becomes_line (by simp; omega)]
    exact hzone.trans hwet
  · rw [hp] at haxis hpower
    obtain ⟨h1, h2, h3⟩ := closeValve_moves hst hpos s.sys.now
    rw [← haxis] at h1 h2 h3
    rw [becomes_tray, settleTray_axis]
    obtain ⟨k1, k2, k3⟩ := settledAxis_leaking (t := { d with fc := fc }) (now := s.sys.now) (n := n) (congrArg Bay.leak hbay)
      hpower h1
    exact ⟨k1, k2.trans h2, k3.trans h3⟩

/-- The tray with the dry bays' latches that the mask names cleared, before the zones' sources. -/
def cleared (mask : BitVec 16) (t : Tray) : Tray := { t with
  bays := Vector.ofFn fun n =>
    if mask.toNat.testBit n.val && !t.bays[n].wet then { t.bays[n] with leak := false } else t.bays[n] }

theorem clearLeaks_eq (mask : BitVec 16) (now : Nat) (t : Tray) : clearLeaks mask now t = settleLeak now (cleared mask t) := rfl

theorem cleared_bay (mask : BitVec 16) (t : Tray) (n : SlotId) :
    (cleared mask t).bays[n].leak = (t.bays[n].leak && !(mask.getLsbD n.val && !t.bays[n].wet)) ∧
    (cleared mask t).bays[n].wet = t.bays[n].wet := by
  have hbit : mask.toNat.testBit n.val = mask.getLsbD n.val := rfl
  unfold cleared
  simp only [Vector.getElem_ofFn, Fin.getElem_fin, hbit]
  cases mask.getLsbD n.val && !t.bays[n.val].wet <;> simp

theorem gives_leakClear (s : State) (n : SlotId) (mask : BitVec 16) : Gives (exec (.leakClear mask) s) fun u => onlyTray s u ∧
    u.sys.tray.bays[n].leak = (s.sys.tray.bays[n].leak && !(mask.getLsbD n.val && !s.sys.tray.bays[n].wet)) ∧
    u.sys.tray.bays[n].wet = s.sys.tray.bays[n].wet := by
  obtain ⟨fc, heq, -, -⟩ := settleLeak_eq s.sys.now (cleared mask s.sys.tray)
  obtain ⟨hleak, hwet⟩ := cleared_bay mask s.sys.tray n
  rw [exec_leakClear, execLeakClear, onTray_becomes rfl, clearLeaks_eq, heq]
  generalize cleared mask s.sys.tray = d at hleak hwet
  refine ⟨_, rfl, rfl, ?_, ?_⟩
  · rw [becomes_tray, settleTray_bay]
    exact hleak
  · rw [becomes_tray, settleTray_bay]
    exact hwet

end Leaks

end Sys2Proof.Machine
end

section
/-! PROOFS. Full cooling by request and the valve policy (O56). -/

namespace Sys2Proof.Machine

section Request

variable {s : State} {n : SlotId} {t : Tray} {now : Nat}

/-! TMC_REQ (19 R514 to R516). -/

theorem tmcReq_becomes (v : Bool) : exec (.tmcReq v) s = .next (s.becomes { s.sys.tray with tmcReq := v }) := rfl

theorem fullWanted_asked (t : Tray) : ({ t with tmcReq := true } : Tray).fullWanted = true := by
  simp [Tray.fullWanted, Tray.fullCause]

theorem fullWanted_left (hx : t.card.expired = false) (ha : t.fc.anyApplies 1 = false) :
    ({ t with tmcReq := false } : Tray).fullWanted = false := by
  simp [Tray.fullWanted, Tray.fullCause, hx, ha]

/-- Full cooling that begins sends a present valve at rest open. -/
theorem settledAxis_opens {x : Axis} (hw : t.fullWanted = true) (hf : t.full = false) (hp : t.drivesPowered = true)
    (hpres : t.bays[n].present = true) (hl : t.bays[n].leak = false) (hst : x.st = .idle) (hpos : x.pos < axisOpen) :
    (settledAxis t now (slotAxis n) x).st = .moving ∧ (settledAxis t now (slotAxis n) x).target = axisOpen ∧
      (settledAxis t now (slotAxis n) x).full = true := by
  have htarget : fullTarget t (slotAxis n) = some axisOpen := by
    rw [fullTarget_slot, hpres, hl]
    rfl
  obtain ⟨due, cs, os, hm⟩ := startMove_moves (target := axisOpen) (x := { x with
    closePending := false
    floor := false
    release := false }) true now (Nat.ne_of_gt hpos)
  have hsend : sendAxis axisOpen now x = startMove axisOpen true now { x with
      closePending := false
      floor := false
      release := false } := by
    unfold sendAxis
    dsimp only
    rw [hst]
  unfold settledAxis fullSent
  rw [hw, hf, hp, htarget]
  dsimp only
  rw [if_pos rfl, if_pos (show (true && !false) = true from rfl), hsend, hm]
  exact ⟨rfl, rfl, rfl⟩

theorem dutyGoal_full {k : DriveId} (hpres : t.drives[k].present = true) (hp : t.drivesPowered = true) (hf : t.full = true) :
    dutyGoal t k = 100 := by
  unfold dutyGoal
  rw [hpres, hp, hf]
  rfl

theorem settleTray_fullDuty {y : Sys} {k : DriveId} (hw : y.tray.fullWanted = true) (hp : y.tray.drivesPowered = true)
    (hpres : y.tray.drives[k].present = true) (hd : y.tray.drives[k].duty ≤ 100) :
    (settleTray y).tray.drives[k].duty = 100 := by
  obtain ⟨hkeep, hrise, -⟩ := settleTray_duty y k
  have hgoal : dutyGoal (settleTray y).tray k = 100 := dutyGoal_full (by rw [hkeep]; exact hpres)
    ((drivesPowered_congr (settleTray_input y)).trans hp) ((settleTray_full y).trans hw)
  rw [hgoal] at hrise
  exact hrise hd

theorem gives_tmcReq_on (hp : s.sys.tray.drivesPowered = true) (hf : s.sys.tray.full = false) :
    Gives (exec (.tmcReq true) s) fun u => onlyTray s u ∧ u.sys.tray.tmcReq = true ∧ u.sys.tray.full = true ∧
      (s.sys.tray.bays[n].present = true → s.sys.tray.bays[n].leak = false → s.sys.tray.axes[slotAxis n].st = .idle →
        s.sys.tray.axes[slotAxis n].pos < axisOpen → u.sys.tray.axes[slotAxis n].st = .moving ∧
        u.sys.tray.axes[slotAxis n].target = axisOpen ∧ u.sys.tray.axes[slotAxis n].full = true) ∧
      ∀ k : DriveId, s.sys.tray.drives[k].present = true → s.sys.tray.drives[k].duty ≤ 100 →
        u.sys.tray.drives[k].duty = 100 := by
  have hw := fullWanted_asked s.sys.tray
  rw [tmcReq_becomes]
  refine ⟨_, rfl, rfl, ?_, ?_, fun hpres hl hst hpos => ?_, fun k hpres hd => ?_⟩
  · rw [becomes_tray, settleTray_tmcReq]
  · rw [becomes_tray, settleTray_full]
    exact hw
  · rw [becomes_tray, settleTray_axis]
    exact settledAxis_opens hw hf hp hpres hl hst hpos
  · rw [becomes_tray]
    exact settleTray_fullDuty hw hp hpres hd

theorem gives_tmcReq_off (hf : s.sys.tray.full = true) (hx : s.sys.tray.card.expired = false)
    (ha : s.sys.tray.fc.anyApplies 1 = false) : Gives (exec (.tmcReq false) s) fun u => onlyTray s u ∧
      u.sys.tray.full = false ∧ u.sys.tray.fullEnded = true ∧ u.sys.tray.axes = s.sys.tray.axes := by
  have hw := fullWanted_left hx ha
  obtain ⟨haxes, hended⟩ := settleTray_endsFull { s.sys with tray := { s.sys.tray with tmcReq := false } } hf hw
  rw [tmcReq_becomes]
  refine ⟨_, rfl, rfl, ?_, ?_, ?_⟩
  · rw [becomes_tray, settleTray_full]
    exact hw
  · rw [becomes_tray, hended]
  · rw [becomes_tray, haxes]

/-! The valve policy (21 R547). -/

/-- The valve of a running tray's slot, homed and at rest, where nothing keeps it from moving. -/
structure ValveReady (n : SlotId) (s : State) : Prop where
  wanted : s.sys.tray.fullWanted = s.sys.tray.full
  full : s.sys.tray.full = false
  card : s.sys.tray.card.running = true
  present : s.sys.tray.bays[n].present = true
  leak : s.sys.tray.bays[n].leak = false
  powered : s.sys.tray.drivesPowered = true
  homed : s.sys.tray.axes[slotAxis n].homed = true
  idle : s.sys.tray.axes[slotAxis n].st = .idle

theorem axisSlot_slotAxis (n : SlotId) : axisSlot (slotAxis n) = some n := finOf_slotAxis n

/-- The tray with the valve's target written. -/
def targeted (n : SlotId) (v : Nat) (t : Tray) : Tray := t.onAxis (slotAxis n) (writeTarget v)

theorem targeted_axis (h : ValveReady n s) (v : Nat) : (targeted n v s.sys.tray).axes[slotAxis n] =
    { s.sys.tray.axes[slotAxis n] with target := v } := by
  have hno : ¬(s.sys.tray.axes[slotAxis n].inMotion || s.sys.tray.axes[slotAxis n].st == .following) = true := by
    rw [rests_inMotion (.inl h.idle), h.idle]
    exact Bool.false_ne_true
  unfold targeted
  rw [Tray.onAxis_same]
  exact if_neg hno

/-- The move that a MOVE starts above the floor. -/
def unfloored (target now : Nat) (x : Axis) : Axis := startMove target false now { x with
  result := 0
  floor := false
  closePending := false && target == 0 }

theorem valve_moves (h : ValveReady n s) {v : Nat} (hv : v ≤ axisOpen) (hne : v ≠ s.sys.tray.axes[slotAxis n].pos)
    (hfree : ¬(s.sys.tray.railsUp (slotAxis n) = true ∧ v < s.sys.tray.axes[slotAxis n].min)) :
    Gives (.next (s.drawn.becomes (moveAxis (slotAxis n) s.sys.free s.sys.now (targeted n v s.sys.tray)))) fun u =>
      keepsMemory s u ∧ u.sys.tray.axes[slotAxis n].st = .moving ∧ u.sys.tray.axes[slotAxis n].target = v ∧
        u.sys.tray.axes[slotAxis n].result = 0 := by
  have hx := targeted_axis h v
  have hleak : (targeted n v s.sys.tray).axisLeak (slotAxis n) = false := by
    unfold Tray.axisLeak
    rw [axisSlot_slotAxis]
    exact h.leak
  have habsent : (targeted n v s.sys.tray).axisAbsent (slotAxis n) = false := by
    unfold Tray.axisAbsent
    rw [axisSlot_slotAxis]
    exact (congrArg (!·) h.present).trans rfl
  have hopen : refuseAll (targeted n v s.sys.tray) (slotAxis n) s.sys.free = none := by
    refine refuseAll_none hleak ?_ _
    rw [hx]
    exact fun he => AxisState.noConfusion (h.idle.symm.trans he)
  have hnf : ¬(s.sys.tray.axes[slotAxis n].st == .following) = true := rests_notFollowing (.inl h.idle)
  have hrest : ({ s.sys.tray.axes[slotAxis n] with target := v } : Axis).inMotion = false := rests_inMotion (.inl h.idle)
  have hrefuse : moveRefusal (targeted n v s.sys.tray) (slotAxis n) = none := by
    rw [moveRefusal_eq (barred_present habsent _), hx]
    dsimp only
    rw [if_neg (by rw [show (targeted n v s.sys.tray).full = s.sys.tray.full from rfl, h.full]; exact Bool.false_ne_true),
      if_neg (by rw [h.homed]; exact Bool.false_ne_true), if_neg hnf, hrest, if_neg Bool.false_ne_true, if_neg (by omega)]
    exact if_neg (by rw [show (targeted n v s.sys.tray).drivesPowered = s.sys.tray.drivesPowered from rfl, h.powered]
                     exact Bool.false_ne_true)
  have hfloor : floorOf (targeted n v s.sys.tray) (slotAxis n) v = (v, false) := by
    refine floorOf_free ?_
    rw [hx]
    exact hfree
  have hmove := moveAxis_moves (now := s.sys.now) hopen hrefuse
  rw [hx] at hmove
  dsimp only at hmove
  rw [hfloor] at hmove
  obtain ⟨due, cs, os, hm⟩ := startMove_moves (x := { s.sys.tray.axes[slotAxis n] with
    target := v
    result := 0
    floor := false
    closePending := false && v == 0 }) false s.sys.now hne
  obtain ⟨hget, -⟩ := settled_axis (t := targeted n v s.sys.tray) (y := { s.drawn.sys with
    tray := moveAxis (slotAxis n) s.sys.free s.sys.now (targeted n v s.sys.tray) }) h.wanted (unfloored v s.sys.now) hmove hx
  refine ⟨_, rfl, ⟨rfl, rfl⟩, ?_⟩
  unfold unfloored at hget
  dsimp only at hget hm ⊢
  rw [becomes_tray, hget, hm]
  exact ⟨rfl, rfl, rfl⟩

theorem valvePolicy_opens (h : ValveReady n s) (policy : BitVec 14) (hmin : s.sys.tray.axes[slotAxis n].min ≤ axisOpen)
    (hon : s.sys.tray.resolved n = .on) (hpos : s.sys.tray.axes[slotAxis n].pos < s.sys.tray.axes[slotAxis n].min) :
    Gives (exec (.valvePolicyMove n policy) s) fun u => keepsMemory s u ∧ u.sys.tray.axes[slotAxis n].st = .moving ∧
      u.sys.tray.axes[slotAxis n].target = min axisOpen (max policy.toNat s.sys.tray.axes[slotAxis n].min) ∧
      u.sys.tray.axes[slotAxis n].result = 0 := by
  have hpolicy : valvePolicy n policy.toNat s.sys.free s.sys.now s.sys.tray = moveAxis (slotAxis n) s.sys.free s.sys.now
      (targeted n (min axisOpen (max policy.toNat s.sys.tray.axes[slotAxis n].min)) s.sys.tray) := by
    unfold valvePolicy
    dsimp only
    rw [h.card, h.present, if_neg (by decide), if_pos (beq_iff_eq.mpr hon), if_pos hpos]
    rfl
  rw [exec_valvePolicyMove, execValvePolicyMove, onTrayFree_becomes, hpolicy]
  exact valve_moves h (by omega) (by omega) (by omega)

theorem valvePolicy_closes (h : ValveReady n s) (policy : BitVec 14) (hoff : s.sys.tray.resolved n ≠ .on)
    (hrails : s.sys.tray.bays[n].cpc.railsOff = true) (hpos : s.sys.tray.axes[slotAxis n].pos ≠ 0) :
    Gives (exec (.valvePolicyMove n policy) s) fun u => keepsMemory s u ∧ u.sys.tray.axes[slotAxis n].st = .moving ∧
      u.sys.tray.axes[slotAxis n].target = 0 ∧ u.sys.tray.axes[slotAxis n].result = 0 := by
  have hpolicy : valvePolicy n policy.toNat s.sys.free s.sys.now s.sys.tray =
      moveAxis (slotAxis n) s.sys.free s.sys.now (targeted n 0 s.sys.tray) := by
    unfold valvePolicy
    dsimp only
    rw [h.card, h.present, if_neg (by decide), if_neg (by simpa using hoff), if_pos hrails]
    rfl
  have hdown : s.sys.tray.railsUp (slotAxis n) = false := by
    unfold Tray.railsUp
    rw [axisSlot_slotAxis]
    exact (congrArg (!·) hrails).trans rfl
  rw [exec_valvePolicyMove, execValvePolicyMove, onTrayFree_becomes, hpolicy]
  refine valve_moves h (Nat.zero_le _) (Ne.symm hpos) ?_
  rw [hdown]
  exact fun hup => Bool.noConfusion hup.1

end Request

/-- Settles O56: a leak by the bay, the zone's source and the valve; full cooling by what settling makes of an axis and of a
drive; the policy by the MOVE that it makes. -/
theorem leaksAndFullCoolingAct : Obligations.LeaksAndFullCoolingAct := by
  unfold Obligations.LeaksAndFullCoolingAct
  intro s n
  refine ⟨gives_leak s n, gives_leakClear s n, fun hp hf _ => gives_tmcReq_on hp hf, gives_tmcReq_off, ?_⟩
  intro policy x hw hf hcard hpres hl hp hh hst hmin
  have h : ValveReady n s := ⟨hw, hf, hcard, hpres, hl, hp, hh, hst⟩
  exact ⟨valvePolicy_opens h policy hmin, valvePolicy_closes h policy⟩

end Sys2Proof.Machine
end

section
/-! PROOFS. Presence, port controls, drive modules, buffers and cages (O51). -/

namespace Sys2Proof.Machine

section Presence

variable {s : State} {n : SlotId} {t : Tray} {now : Nat}

/-! A cartridge comes (17 R467). -/

/-- The bay with a cartridge just fitted. -/
def fittedBay (n : SlotId) (now : Nat) (b : Bay) : Bay := { b with
  present := true
  cpc := Cpc.reset
  buffer := false
  eeprom := fittedRecord n.val now
  lampUntil := now + Config.sec 1 }

theorem ite_onAxis_bays {p : Prop} [Decidable p] (n : AxisId) (f : Axis → Axis) (t : Tray) :
    (if p then t.onAxis n f else t).bays = t.bays := by
  split <;> rfl

theorem cartridgeInsert_becomes (h : s.sys.tray.bays[n].present = false) : ∃ t,
    exec (.cartridgeInsert n) s = .next (s.becomes t) ∧
    t.bays[n] = fittedBay n s.sys.now s.sys.tray.bays[n] := by
  rw [exec_cartridgeInsert, execCartridgeInsert, onTray_becomes (if_neg (by rw [h]; exact Bool.false_ne_true))]
  exact ⟨_, rfl, (congrArg (fun bs : Vector Bay 16 => bs[n]) (ite_onAxis_bays ..)).trans (Tray.onBay_same ..)⟩

theorem gives_cartridgeInsert (h : s.sys.tray.bays[n].present = false) : Gives (exec (.cartridgeInsert n) s) fun u =>
    onlyTray s u ∧ u.sys.tray.bays[n].present = true ∧ u.sys.tray.bays[n].eeprom = fittedRecord n.val s.sys.now ∧
    u.sys.tray.bays[n].lampUntil = s.sys.now + Config.sec 1 ∧ u.sys.tray.bays[n].buffer = false ∧
    u.sys.tray.bays[n].cpc.rails = Cpc.reset.rails ∧ u.sys.tray.bays[n].cpc.st = .off := by
  obtain ⟨t, ht, hbay⟩ := cartridgeInsert_becomes h
  have hfield : ∀ {α : Type} (f : Bay → α), (∀ b c, f { b with cpc := c } = f b) →
      f (s.becomes t).sys.tray.bays[n] = f (fittedBay n s.sys.now s.sys.tray.bays[n]) := fun f hf => by
    rw [becomes_tray, settleTray_bay, hf]
    exact congrArg f hbay
  have hcpc : (s.becomes t).sys.tray.bays[n].cpc = setPwrEn (t.pwrEn n) s.sys.now Cpc.reset := by
    rw [becomes_tray, settleTray_cpc]
    exact congrArg (fun b : Bay => setPwrEn (t.pwrEn n) s.sys.now b.cpc) hbay
  refine ⟨_, ht, rfl, hfield _ fun _ _ => rfl, hfield _ fun _ _ => rfl, hfield Bay.lampUntil fun _ _ => rfl,
    hfield _ fun _ _ => rfl, ?_, ?_⟩
  · rw [hcpc, setPwrEn_rails]
  · rw [hcpc, setPwrEn_st]
    rfl

theorem cartridgeInsert_again (h : s.sys.tray.bays[n].present = true) : exec (.cartridgeInsert n) s = .next s.settled := by
  rw [exec_cartridgeInsert, execCartridgeInsert]
  exact onTray_same (if_pos h)

/-! A cartridge goes (17 R458, R468). -/

/-- The slot stands empty: its bay, its rails and its cages. -/
structure Emptied (n : SlotId) (t : Tray) : Prop where
  present : t.bays[n].present = false
  buffer : t.bays[n].buffer = false
  rails : t.bays[n].cpc.railsOff = true
  cages : ∀ c : CageId, c.val / 4 = n.val → t.cages[c].lowPower = true

theorem Emptied.settles {y : Sys} (h : Emptied n y.tray) : Emptied n (settleTray y).tray where
  present := by
    rw [settleTray_bay]
    exact h.present
  buffer := by
    rw [settleTray_bay]
    exact h.buffer
  rails := by
    rw [settleTray_cpc, setPwrEn_railsOff]
    exact h.rails
  cages := by
    rw [settleTray_cages]
    exact h.cages

theorem removed_bay (n : SlotId) (now : Nat) (t : Tray) : (removeCartridge n now t).bays[n] = { t.bays[n] with
    present := false
    cpc := Cpc.reset
    buffer := false
    eeprom := [] } := by
  unfold removeCartridge darkCages darkModules
  dsimp only
  rw [Tray.onAxis_bays, Tray.ownerReset_bays, Tray.onBay_same]

theorem emptied_removeCartridge (n : SlotId) (now : Nat) (t : Tray) : Emptied n (removeCartridge n now t) where
  present := congrArg Bay.present (removed_bay n now t)
  buffer := congrArg Bay.buffer (removed_bay n now t)
  rails := (congrArg (fun b : Bay => b.cpc.railsOff) (removed_bay n now t)).trans
    (show Cpc.reset.railsOff = true by decide)
  cages := fun c hc => by
    unfold removeCartridge darkCages darkModules
    simp [hc]

theorem gives_cartridgeRemove (h : s.sys.tray.bays[n].present = true) : Gives (exec (.cartridgeRemove n) s) fun u =>
    memoryIf (n ≠ s.ownSlot) s u ∧ u.sys.tray.bays[n].present = false ∧ u.sys.tray.bays[n].buffer = false ∧
    u.sys.tray.bays[n].cpc.railsOff = true ∧ u.sys.tray.bays[n].cpc.pwrEn = false ∧
    (n = s.ownSlot → u.sys.chip.cmp = Compute.reset ∧ u.sys.chip.pwr.retention = true) ∧
    ∀ c : CageId, c.val / 4 = n.val → u.sys.tray.cages[c].lowPower = true := by
  have hgone := emptied_removeCartridge n s.sys.now s.sys.tray
  have hpres : ¬(!s.sys.tray.bays[n].present) = true := by
    rw [h]
    exact Bool.false_ne_true
  have hempty : ∀ y : Sys, Emptied n y.tray → (settleTray y).tray.bays[n].present = false ∧
      (settleTray y).tray.bays[n].buffer = false ∧ (settleTray y).tray.bays[n].cpc.railsOff = true ∧
      (settleTray y).tray.bays[n].cpc.pwrEn = false ∧ ∀ c : CageId, c.val / 4 = n.val →
        (settleTray y).tray.cages[c].lowPower = true := fun y hy => by
    refine ⟨hy.settles.present, hy.settles.buffer, hy.settles.rails, ?_, hy.settles.cages⟩
    rw [settleTray_cpc, setPwrEn_pwrEn]
    exact pwrEn_false (.inr (.inl hy.present))
  rw [exec_cartridgeRemove, execCartridgeRemove, onMemSys]
  dsimp only
  rw [if_neg hpres]
  unfold Sys.onTray
  generalize removeCartridge n s.sys.now s.sys.tray = t at hgone
  by_cases hn : n = s.ownSlot
  · have hown : (n == s.sys.chip.fab.slot) = true := beq_iff_eq.mpr hn
    obtain ⟨h1, h2, h3, h4, h5⟩ := hempty ((loseRet (settleTray { s.sys with tray := t })).onChip unpowered)
      (Emptied.settles (y := { s.sys with tray := t }) hgone)
    rw [settleTray_chip, if_pos hown]
    exact ⟨_, rfl, ⟨rfl, fun hne => absurd hn hne, fun _ => ⟨rfl, rfl⟩⟩, h1, h2, h3, h4, fun _ => ⟨rfl, rfl⟩, h5⟩
  · have hown : ¬(n == s.sys.chip.fab.slot) = true := fun he => hn (beq_iff_eq.mp he)
    obtain ⟨h1, h2, h3, h4, h5⟩ := hempty { s.sys with tray := t } hgone
    rw [settleTray_chip, if_neg hown]
    exact ⟨_, rfl, ⟨rfl, fun _ => ⟨rfl, rfl⟩, fun hno => absurd hn hno⟩, h1, h2, h3, h4, fun he => absurd he hn, h5⟩

/-! The controls of a downstream port (02 R55, R57; 18 R480). -/

theorem putOrders_single (n : SlotId) (o : Order) (v : Vector Order 16) :
    putOrders (BitVec.ofNat 16 (2 ^ n.val)) o v = v.set n o := by
  have hbit : ∀ i : SlotId, (BitVec.ofNat 16 (2 ^ n.val)).toNat.testBit i.val = decide (n = i) := by
    revert n
    decide
  apply Vector.ext
  intro i hi
  unfold putOrders
  rw [Vector.getElem_ofFn, hbit ⟨i, hi⟩, Vector.getElem_set]
  by_cases he : n = ⟨i, hi⟩
  · subst he
    simp
  · have hne : n.val ≠ i := fun h => he (Fin.ext h)
    simp [he, hne]

theorem gives_hostOrder (n : SlotId) (o : Order) (status : Nat) : Gives (.next (s.becomes (applyOrder .host
      (BitVec.ofNat 16 (2 ^ n.val)) o 2 status (0, 0) s.sys.now s.sys.tray))) fun u => onlyTray s u ∧
    u.sys.tray.orders.host = s.sys.tray.orders.host.set n o ∧ u.sys.tray.orders.rack = s.sys.tray.orders.rack ∧
    u.sys.tray.orders.auto = s.sys.tray.orders.auto := by
  obtain ⟨log, hlog⟩ := applyOrder_eq (now := s.sys.now) .host (BitVec.ofNat 16 (2 ^ n.val)) o 2 status (0, 0) s.sys.tray
  rw [hlog]
  refine ⟨_, rfl, rfl, ?_, ?_, ?_⟩
  · rw [becomes_tray, settleTray_orders]
    exact putOrders_single n o _
  · rw [becomes_tray, settleTray_orders]
    rfl
  · rw [becomes_tray, settleTray_orders]
    rfl

theorem gives_powerControllerControl (n : SlotId) (v : OnOff) (o : Order) (hon : v = .on → o = .on)
    (hoff : v = .off → o = .off) : Gives (exec (.powerControllerControl n v) s) fun u => onlyTray s u ∧
      u.sys.tray.orders.host = s.sys.tray.orders.host.set n o ∧ u.sys.tray.orders.rack = s.sys.tray.orders.rack ∧
      u.sys.tray.orders.auto = s.sys.tray.orders.auto := by
  rw [exec_powerControllerControl]
  cases v with
  | on =>
    rw [hon rfl]
    exact gives_hostOrder n .on _
  | off =>
    rw [hoff rfl]
    exact gives_hostOrder n .off _

theorem attentionButtonPressed_next (n : SlotId) (ms : Nat) : exec (.attentionButtonPressed n ms) s =
    .next (if 20 ≤ ms ∧ s.sys.tray.bays[n].present = true then (s.withTray (Tray.onBay n fun b => { b with
      button := true
      buttonTmc := true })).settled else s.settled) := by
  rw [exec_attentionButtonPressed, execAttentionButtonPressed]
  by_cases h : 20 ≤ ms ∧ s.sys.tray.bays[n].present = true
  · rw [if_pos h]
    exact onTray_with (if_pos (by simpa using h))
  · rw [if_neg h]
    exact onTray_same (if_neg (by simpa using h))

end Presence

end Sys2Proof.Machine
end

section
/-! PROOFS. Drive modules, level sources, buffers and cages (O51). -/

namespace Sys2Proof.Machine

section Modules

variable {s : State} {m : ModuleId} {t : Tray}

/-! Drive modules (19 R512, R513). -/

/-- The tray source of a drive. -/
def driveSource (m : ModuleId) : SourceId := ⟨32 + m.val, by omega⟩

theorem driveSource_ge (m : ModuleId) : 16 ≤ (driveSource m).val := by
  unfold driveSource
  dsimp only
  omega

/-- What settling keeps of a drive. -/
theorem becomes_drive (t : Tray) (m : ModuleId) : (s.becomes t).sys.tray.drives[m].present = t.drives[m].present ∧
    (s.becomes t).sys.tray.drives[m].eeprom = t.drives[m].eeprom ∧
    (s.becomes t).sys.tray.drives[m].rangeFault = t.drives[m].rangeFault := by
  obtain ⟨hkeep, -⟩ := settleTray_duty { s.sys with tray := t } m
  rw [becomes_tray, hkeep]
  exact ⟨rfl, rfl, rfl⟩

theorem gives_moduleInsert (s : State) (m : ModuleId) : Gives (exec (.moduleInsert m) s) fun u => onlyTray s u ∧
    u.sys.tray.drives[m].present = true ∧ u.sys.tray.drives[m].eeprom = fittedRecord (16 + m.val) s.sys.now := by
  rw [exec_moduleInsert, execModuleInsert, onTray_becomes rfl]
  refine ⟨_, rfl, rfl, ?_, ?_⟩
  · rw [(becomes_drive _ m).1, Tray.onDrive_same]
  · rw [(becomes_drive _ m).2.1, Tray.onDrive_same]

/-- The tray without the module. -/
def moduleGone (m : ModuleId) (now : Nat) (t : Tray) : Tray :=
  (driveInRange m now (t.onDrive m fun (d : Drive) => { d with
    present := false
    rpm := 0
    eeprom := [] })).ownerReset (.module m)

theorem driveInRange_drive (m : ModuleId) (now : Nat) (t : Tray) : (driveInRange m now t).drives[m] =
    { t.drives[m] with rangeFault := false } := by
  unfold driveInRange
  rw [Tray.lower_drives, Tray.onDrive_same]

theorem driveInRange_line (m : ModuleId) (now : Nat) (t : Tray) : (driveInRange m now t).fc.src[driveSource m].line = false :=
  lower_clears_line t.fc now (driveSource m)

theorem moduleGone_drive (m : ModuleId) (now : Nat) (t : Tray) : (moduleGone m now t).drives[m].present = false ∧
    (moduleGone m now t).drives[m].rangeFault = false := by
  unfold moduleGone
  rw [Tray.ownerReset_drives, driveInRange_drive, Tray.onDrive_same]
  exact ⟨rfl, rfl⟩

theorem moduleGone_line (m : ModuleId) (now : Nat) (t : Tray) : (moduleGone m now t).fc.src[driveSource m].line = false := by
  unfold moduleGone Tray.ownerReset
  rw [ownerReset_line]
  exact driveInRange_line m now _

theorem moduleGone_axes (m : ModuleId) (now : Nat) (t : Tray) : (moduleGone m now t).axes = t.axes ∧
    (moduleGone m now t).full = t.full := by
  unfold moduleGone driveInRange
  rw [Tray.ownerReset_axes, Tray.lower_axes, Tray.ownerReset_full, Tray.lower_full]
  exact ⟨rfl, rfl⟩

theorem gives_moduleRemove (s : State) (m : ModuleId) : Gives (exec (.moduleRemove m) s) fun u => onlyTray s u ∧
    u.sys.tray.drives[m].present = false ∧ u.sys.tray.drives[m].duty = 0 ∧ u.sys.tray.drives[m].rangeFault = false ∧
    u.sys.tray.fc.src[driveSource m].line = false ∧
    (u.sys.tray.full = s.sys.tray.full → u.sys.tray.axes = s.sys.tray.axes) := by
  obtain ⟨hpres, hrange⟩ := moduleGone_drive m s.sys.now s.sys.tray
  have hline := moduleGone_line m s.sys.now s.sys.tray
  obtain ⟨haxes, hfull⟩ := moduleGone_axes m s.sys.now s.sys.tray
  have hgone : exec (.moduleRemove m) s = .next (s.becomes (moduleGone m s.sys.now s.sys.tray)) := by
    rw [exec_moduleRemove, execModuleRemove, onTray_becomes rfl]
    rfl
  rw [hgone]
  generalize moduleGone m s.sys.now s.sys.tray = t at hpres hrange hline haxes hfull
  obtain ⟨hp, -, hr⟩ := becomes_drive (s := s) t m
  refine ⟨_, rfl, rfl, hp.trans hpres, ?_, hr.trans hrange, (becomes_line (driveSource_ge m)).trans hline, fun he => ?_⟩
  · have hoff : (!t.drives[m].present || !t.drivesPowered) = true := by
      rw [hpres]
      rfl
    exact (settleTray_duty { s.sys with tray := t } m).2.2.2 hoff
  · rw [becomes_tray, settleTray_full, ← hfull] at he
    rw [becomes_tray, (settleTray_keepsAxes { s.sys with tray := t } he).1, haxes]

theorem gives_driveOutOfRange (hp : s.sys.tray.drives[m].present = true) (hd : 20 ≤ s.sys.tray.drives[m].duty) :
    Gives (exec (.driveOutOfRange m) s) fun u => onlyTray s u ∧ u.sys.tray.drives[m].rangeFault = true ∧
      u.sys.tray.fc.src[driveSource m].line = true := by
  rw [exec_driveOutOfRange, execDriveOutOfRange, onTray_becomes (if_pos (by simpa using And.intro hp hd))]
  refine ⟨_, rfl, rfl, ?_, ?_⟩
  · rw [(becomes_drive _ m).2.2, Tray.assert_drives, Tray.onDrive_same]
  · rw [becomes_line (driveSource_ge m)]
    exact assert_sets_line s.sys.tray.fc s.sys.now (driveSource m) (.module m)

theorem driveOutOfRange_same (h : ¬(s.sys.tray.drives[m].present = true ∧ 20 ≤ s.sys.tray.drives[m].duty)) :
    exec (.driveOutOfRange m) s = .next s.settled := by
  rw [exec_driveOutOfRange, execDriveOutOfRange]
  exact onTray_same (if_neg (by simpa using h))

theorem gives_driveBackInRange (s : State) (m : ModuleId) : Gives (exec (.driveBackInRange m) s) fun u => onlyTray s u ∧
    u.sys.tray.drives[m].rangeFault = false ∧ u.sys.tray.fc.src[driveSource m].line = false := by
  rw [exec_driveBackInRange, execDriveBackInRange, onTray_becomes rfl]
  refine ⟨_, rfl, rfl, ?_, ?_⟩
  · rw [(becomes_drive _ m).2.2, driveInRange_drive]
  · rw [becomes_line (driveSource_ge m)]
    exact driveInRange_line m _ _

/-! Level sources of the board (15 Table 15-6). -/

/-- A level source that follows a signal. -/
theorem gives_level {f : Nat → Tray → Tray} (i : SourceId) (hi : 16 ≤ i.val) (b : Bool)
    (hf : f s.sys.now s.sys.tray = if b then s.sys.tray.assert i.val .board s.sys.now else s.sys.tray.lower i.val s.sys.now) :
    Gives (onTray f s) fun u => onlyTray s u ∧ u.sys.tray.fc.src[i].line = b := by
  rw [onTray_becomes hf]
  refine ⟨_, rfl, rfl, ?_⟩
  rw [becomes_line hi]
  cases b with
  | true => exact assert_sets_line s.sys.tray.fc s.sys.now i .board
  | false => exact lower_clears_line s.sys.tray.fc s.sys.now i

theorem gives_inletOverTemperature (s : State) (b : Bool) : Gives (exec (.inletOverTemperature b) s) fun u => onlyTray s u ∧
    u.sys.tray.fc.src[(46 : SourceId)].line = b := by
  rw [exec_inletOverTemperature, execInletOverTemperature]
  exact gives_level 46 (by decide) b rfl

theorem gives_flowLow (s : State) (b : Bool) : Gives (exec (.flowLow b) s) fun u => onlyTray s u ∧
    u.sys.tray.fc.src[(47 : SourceId)].line = b := by
  rw [exec_flowLow, execFlowLow]
  exact gives_level 47 (by decide) b rfl

/-! Buffers and cages (20 R523, R541, R542). -/

theorem bufferConnect_joins {n : SlotId} (hp : s.sys.tray.bays[n].present = true) (hb : s.sys.tray.twi[busOf n].busy = false) :
    exec (.bufferConnect n) s = .next (s.withTray (Tray.onBay n fun b => { b with buffer := true })).settled := by
  rw [exec_bufferConnect, execBufferConnect]
  exact onTray_with (if_pos (by simpa using And.intro hp hb))

theorem bufferConnect_waits {n : SlotId} (h : s.sys.tray.bays[n].present = false ∨ s.sys.tray.twi[busOf n].busy = true) :
    exec (.bufferConnect n) s = .next s.settled := by
  have hno : ¬(s.sys.tray.bays[n].present && !s.sys.tray.twi[busOf n].busy) = true := by
    rcases h with h | h
    · rw [h, Bool.false_and]
      exact Bool.false_ne_true
    · rw [h, Bool.not_true, Bool.and_false]
      exact Bool.false_ne_true
  rw [exec_bufferConnect, execBufferConnect]
  exact onTray_same (if_neg hno)

/-- The cage has power. -/
def cagePowered (t : Tray) (c : CageId) : Bool := t.drivesPowered && (match finOf 16 (c.val / 4) with
  | some n => t.bays[n].present
  | none => false)

theorem cagePowered_eq {c : CageId} {n : SlotId} (hc : c.val / 4 = n.val) (t : Tray) :
    cagePowered t c = (t.drivesPowered && t.bays[n].present) := by
  have hn : finOf 16 (c.val / 4) = some n := by
    rw [hc]
    exact finOf_some n.isLt
  unfold cagePowered
  rw [hn]

/-- The tray after the module of a powered cage has been read. -/
def cageRead (c : CageId) (id : Option Cmis) (t : Tray) : Tray :=
  match id with
  | none => ({ t with cages := t.cages.set c { t.cages[c] with lowPower := true } } : Tray).raise 55 .board
  | some m =>
    let t := { t with cages := t.cages.set c ⟨some m, !cableAllowed m⟩ }
    if cableAllowed m then t else t.raise 55 .board

theorem execCmisRead_eq (c : CageId) (id : Option Cmis) : execCmisRead c id s = onTray (fun _ t =>
    if !cagePowered t c then t else cageRead c id t) s := rfl

theorem cmisRead_dark {c : CageId} {n : SlotId} (hc : c.val / 4 = n.val)
    (h : s.sys.tray.drivesPowered = false ∨ s.sys.tray.bays[n].present = false) (id : Option Cmis) :
    exec (.cmisRead c id) s = .next s.settled := by
  have hno : (!cagePowered s.sys.tray c) = true := by
    rw [cagePowered_eq hc]
    rcases h with h | h
    · rw [h]
      rfl
    · rw [h, Bool.and_false]
      rfl
  rw [exec_cmisRead, execCmisRead_eq]
  exact onTray_same (if_pos hno)

theorem cmisRead_becomes {c : CageId} {n : SlotId} (hc : c.val / 4 = n.val) (hp : s.sys.tray.drivesPowered = true)
    (hb : s.sys.tray.bays[n].present = true) (id : Option Cmis) :
    exec (.cmisRead c id) s = .next (s.withTray (cageRead c id)).settled := by
  have hyes : ¬(!cagePowered s.sys.tray c) = true := by
    rw [cagePowered_eq hc, hp, hb]
    exact Bool.false_ne_true
  rw [exec_cmisRead, execCmisRead_eq]
  exact onTray_with (if_neg hyes)

theorem cageRead_allowed {c : CageId} {m : Cmis} (h : cableAllowed m = true) : cageRead c (some m) =
    fun t => { t with cages := t.cages.set c ⟨some m, false⟩ } := by
  funext t
  unfold cageRead
  dsimp only
  rw [if_pos h, h]
  rfl

/-- A module that is kept in low-power mode. -/
theorem gives_cageHeld {g : Tray → Tray} {cages : Vector Cage 64}
    (hg : g s.sys.tray = ({ s.sys.tray with cages := cages } : Tray).raise 55 .board) :
    Gives (.next (s.withTray g).settled) fun u => onlyTray s u ∧ u.sys.tray.cages = cages ∧
      ⟨55, .board⟩ ∈ u.sys.tray.fc.raised := by
  have hraised := Collector.raise_mem s.sys.tray.fc (n := 55) 55 rfl .board
  refine ⟨_, rfl, rfl, ?_, ?_⟩
  · change (settleTray { s.sys with tray := g s.sys.tray }).tray.cages = _
    rw [hg, settleTray_cages]
    rfl
  · change _ ∈ (settleTray { s.sys with tray := g s.sys.tray }).tray.fc.raised
    rw [hg]
    exact settleTray_raised hraised

theorem cageRead_refused {c : CageId} {m : Cmis} (h : cableAllowed m = false) (t : Tray) : cageRead c (some m) t =
    ({ t with cages := t.cages.set c ⟨some m, true⟩ } : Tray).raise 55 .board := by
  unfold cageRead
  dsimp only
  rw [h, if_neg Bool.false_ne_true]
  rfl

end Modules

/-- Settles O51: a cartridge by its bay, its rails and its cages; a drive by what settling keeps of it and its source; a cage
by what its read makes of it. -/
theorem presenceBuffersAndCagesAct : Obligations.PresenceBuffersAndCagesAct := by
  unfold Obligations.PresenceBuffersAndCagesAct
  refine ⟨fun s n m => ⟨gives_cartridgeInsert, cartridgeInsert_again, gives_cartridgeRemove, gives_powerControllerControl n,
    fun v => rfl, fun v => rfl, attentionButtonPressed_next n, gives_moduleInsert s m, gives_moduleRemove s m,
    gives_driveOutOfRange, driveOutOfRange_same, gives_driveBackInRange s m, fun b => ⟨gives_inletOverTemperature s b,
    gives_flowLow s b⟩⟩, fun s => ⟨fun n => ⟨bufferConnect_joins, bufferConnect_waits⟩, fun c n hc =>
    ⟨cmisRead_dark hc, fun hp hb => ⟨fun m hm => ?_, fun m hm => ?_, ?_⟩⟩⟩⟩
  · rw [cmisRead_becomes hc hp hb, cageRead_allowed hm]
  · rw [cmisRead_becomes hc hp hb]
    exact gives_cageHeld (cageRead_refused hm s.sys.tray)
  · rw [cmisRead_becomes hc hp hb]
    exact gives_cageHeld rfl

end Sys2Proof.Machine
end

section
/-! PROOFS. How the TMC answers a request: the reply, the reply cache, and what they leave as the work made it. -/

namespace Sys2Proof.Machine

section Requests

variable {h : TmpHdr} {s : State} {y z : Sys} {f : TmpWork} {command status : Nat} {payload : List Byte}

/-! Replies. -/

/-- The card once a reply has left: the host's stands in its mailbox. -/
def Card.answered (h : TmpHdr) (frame : List Byte) (c : Card) : Card :=
  match h.inlet with
  | .rack => c
  | .host => { c with mailbox := { c.mailbox with
      rsp := frame
      rspReady := true
      busy := false } }

theorem sendReply_eq (h : TmpHdr) (frame : List Byte) (y : Sys) : ∃ sent, .tmp h.inlet frame ∈ sent ∧
    sendReply h frame y = { y with
      out := y.out ++ sent
      tray := y.tray.onCard (Card.answered h frame) } := by
  unfold sendReply Card.answered
  cases h.inlet with
  | rack => exact ⟨[.tmp .rack frame], by simp, rfl⟩
  | host =>
    dsimp only
    split
    · exact ⟨[.tmp .host frame, .mailboxMsix 0], by simp, by simp [Sys.emit, Sys.onTray]⟩
    · exact ⟨[.tmp .host frame], by simp, rfl⟩

section Answered

variable (h) (frame : List Byte) (c : Card)

@[simp] theorem answered_running : (c.answered h frame).running = c.running := by unfold Card.answered; cases h.inlet <;> rfl
@[simp] theorem answered_notices : (c.answered h frame).notices = c.notices := by unfold Card.answered; cases h.inlet <;> rfl
@[simp] theorem answered_bootCount : (c.answered h frame).bootCount = c.bootCount := by
  unfold Card.answered
  cases h.inlet <;> rfl
@[simp] theorem answered_tail : (c.answered h frame).mailbox.tail = c.mailbox.tail := by
  unfold Card.answered
  cases h.inlet <;> rfl

theorem answered_host (hi : h.inlet = .host) : (c.answered h frame).mailbox.rsp = frame ∧
    (c.answered h frame).mailbox.rspReady = true ∧ (c.answered h frame).mailbox.busy = false := by
  unfold Card.answered
  rw [hi]
  exact ⟨rfl, rfl, rfl⟩

end Answered

/-! The reply cache. -/

theorem requester_putRequester (r : Requester) (t : Tray) : (t.putRequester r).requester r.id = some r := by
  have hnone : (t.requesters.filter fun x => x.id != r.id).find? (fun x => x.id == r.id) = none := by
    rw [List.find?_eq_none]
    intro x hx
    simpa using (List.mem_filter.mp hx).2
  unfold Tray.putRequester Tray.requester
  dsimp only
  rw [List.drop_append_of_le_length (by simp only [List.length_append, List.length_singleton]; omega), List.find?_append,
    List.find?_eq_none.mpr fun x hx => List.find?_eq_none.mp hnone x (List.mem_of_mem_drop hx)]
  simp

/-- What is kept of the requester of an executed request. -/
theorem noteRequest_requester (h : TmpHdr) (frame : List Byte) {t : Tray}
    (hnew : ∀ r, t.requester h.reqId = some r → r.high.toNat < h.seq.toNat) :
    ∃ r, (noteRequest h (some frame) t).requester h.reqId = some r ∧ r.high = h.seq ∧ (h.seq, frame) ∈ r.replies := by
  have hid : ((t.requester h.reqId).getD ⟨h.reqId, h.seq, []⟩).high.toNat < h.seq.toNat ∨
      ((t.requester h.reqId).getD ⟨h.reqId, h.seq, []⟩).high = h.seq := by
    cases hr : t.requester h.reqId with
    | none => exact .inr rfl
    | some r => exact .inl (hnew r hr)
  refine ⟨_, requester_putRequester _ t, ?_, ?_⟩
  · dsimp only
    split
    · rfl
    · next hle => exact hid.resolve_left hle
  · dsimp only
    rw [List.drop_append_of_le_length (by simp only [List.length_append, List.length_singleton]; omega)]
    simp

/-- An executed request is a new one of its requester. -/
theorem executes_iff : executes h y = true ↔ y.tray.card.running = true ∧ h.reqId ≠ 0 ∧
    ∀ r, y.tray.requester h.reqId = some r → r.high.toNat < h.seq.toNat := by
  unfold executes
  cases y.tray.requester h.reqId <;> simp [and_assoc]

theorem tmpCommand_executes (hx : executes h y = true) : tmpCommand h command f y = tmpRun h command true f y := by
  obtain ⟨hrun, hid, hnew⟩ := executes_iff.mp hx
  unfold tmpCommand
  rw [if_neg (by simp [hrun]), if_neg (by simpa using hid)]
  cases hr : y.tray.requester h.reqId with
  | none => rfl
  | some r => exact if_pos (hnew r hr)

theorem tmpCommand_stopped (hrun : y.tray.card.running = false) : tmpCommand h command f y = y :=
  if_pos (by simp [hrun])

theorem tmpRead_runs (hrun : y.tray.card.running = true) (hid : h.reqId ≠ 0) :
    tmpRead h command f y = tmpRun h command false f y := by
  unfold tmpRead
  rw [if_neg (by simp [hrun]), if_neg (by simpa using hid)]

/-! The state after an answered request. -/

/-- After an answered request: the chip and the tray as the work has left them, settled, and the reply on its way. -/
structure Answers (h : TmpHdr) (command status : Nat) (payload : List Byte) (z : Sys) (s u : State) : Prop where
  memory : keepsMemory s u
  replied : Replied h command status payload s u
  chip : u.sys.chip = z.chip
  orders : u.sys.tray.orders = z.tray.orders
  demands : u.sys.tray.demands = z.tray.demands
  log : u.sys.tray.log = z.tray.log
  notices : u.sys.tray.card.notices = z.tray.card.notices
  running : u.sys.tray.card.running = z.tray.card.running
  bootCount : u.sys.tray.card.bootCount = z.tray.card.bootCount
  tail : u.sys.tray.card.mailbox.tail = z.tray.card.mailbox.tail
  latches : SameLatches z.tray.fc u.sys.tray.fc

/-- A reply on a tray whose requesters a note has changed, settled. -/
theorem answers_reply {requesters : List Requester} (ho : ∃ more, z.out = s.sys.out ++ more) : Answers h command status
    payload z s { s with sys := settleTray (sendReply h (replyFrame h command status payload) { z with
      tray := { z.tray with requesters := requesters } }) } := by
  obtain ⟨sent, hsent, heq⟩ := sendReply_eq h (replyFrame h command status payload) { z with
    tray := { z.tray with requesters := requesters } }
  obtain ⟨more, hmore⟩ := ho
  rw [heq]
  constructor
  case replied =>
    refine ⟨⟨more ++ sent, ?_, List.mem_append_right _ hsent⟩, fun hi => ?_⟩
    · simp [hmore]
    · simpa [Tray.onCard] using answered_host h _ z.tray.card hi
  case latches =>
    simp only [settleTray_fc]
    exact errFollowed_latches _
  all_goals simp [Tray.onCard, keepsMemory]

theorem gives_run (cache : Bool) (hz : f s.sys = (z, status, payload)) (ho : ∃ more, z.out = s.sys.out ++ more) :
    Gives (onBoard (tmpRun h command cache f) s) (Answers h command status payload z s) := by
  rw [onBoard_eq]
  unfold tmpRun
  rw [hz]
  exact ⟨_, rfl, answers_reply ho⟩

theorem gives_executed (hx : executes h s.sys = true) (hz : f s.sys = (z, status, payload))
    (ho : ∃ more, z.out = s.sys.out ++ more) (hr : z.tray.requesters = s.sys.tray.requesters) :
    Gives (onBoard (tmpCommand h command f) s) fun u => Answers h command status payload z s u ∧
      Noted h command status payload u := by
  obtain ⟨hrun, hid, hnew⟩ := executes_iff.mp hx
  rw [onBoard_eq, tmpCommand_executes hx]
  unfold tmpRun
  rw [hz]
  refine ⟨_, rfl, answers_reply ho, ?_⟩
  dsimp only
  rw [if_pos rfl]
  obtain ⟨sent, -, heq⟩ := sendReply_eq h (replyFrame h command status payload)
    (z.onTray (noteRequest h (some (replyFrame h command status payload))))
  have hnew' : ∀ r, z.tray.requester h.reqId = some r → r.high.toNat < h.seq.toNat := by
    unfold Tray.requester at hnew ⊢
    rw [hr]
    exact hnew
  obtain ⟨r, hfind, hhigh, hmem⟩ := noteRequest_requester h (replyFrame h command status payload) hnew'
  refine ⟨r, ?_, hhigh, hmem⟩
  rw [heq]
  unfold Tray.requester at hfind ⊢
  simpa [Tray.onCard, Sys.onTray] using hfind

end Requests

end Sys2Proof.Machine
end

section
/-! PROOFS. Power orders, notices and cooling demands (O57): what each work makes, and how its request is answered. -/

namespace Sys2Proof.Machine

section Orders

variable {h : TmpHdr} {s : State} {y z : Sys} {t : Tray} {f : TmpWork} {command status now : Nat} {payload : List Byte}
  {mask : BitVec 16} {o : Order} {b : Byte} {x : Notice}

/-- An executed request whose work leaves the chip, as the obligation asks for it. -/
theorem gives_done {P : Tray → Prop} (hx : executes h s.sys = true) (hz : f s.sys = (z, status, payload))
    (hc : z.chip = s.sys.chip) (ho : ∃ more, z.out = s.sys.out ++ more)
    (hr : z.tray.requesters = s.sys.tray.requesters)
    (hP : ∀ u, Answers h command status payload z s u → P u.sys.tray) :
    Gives (onBoard (tmpCommand h command f) s) fun u => keepsMemory s u ∧ u.sys.chip = s.sys.chip ∧
      Replied h command status payload s u ∧ Noted h command status payload u ∧ P u.sys.tray := by
  obtain ⟨u, hu, ha, hn⟩ := gives_executed hx hz ho hr
  exact ⟨u, hu, ha.memory, ha.chip.trans hc, ha.replied, hn, hP u ha⟩

/-- The same of a work that only changes the tray. -/
theorem gives_done_tray {P : Tray → Prop} {g : Tray → Tray} (hx : executes h s.sys = true)
    (hz : f s.sys = (s.sys.onTray g, status, payload)) (hr : (g s.sys.tray).requesters = s.sys.tray.requesters)
    (hP : ∀ u, Answers h command status payload (s.sys.onTray g) s u → P u.sys.tray) :
    Gives (onBoard (tmpCommand h command f) s) fun u => keepsMemory s u ∧ u.sys.chip = s.sys.chip ∧
      Replied h command status payload s u ∧ Noted h command status payload u ∧ P u.sys.tray :=
  gives_done hx hz rfl ⟨[], (List.append_nil _).symm⟩ hr hP

/-- The same of a refusal, which changes nothing. -/
theorem gives_refused {P : Tray → Prop} (hx : executes h s.sys = true) (hz : f s.sys = (s.sys, status, payload))
    (hP : ∀ u, Answers h command status payload s.sys s u → P u.sys.tray) :
    Gives (onBoard (tmpCommand h command f) s) fun u => keepsMemory s u ∧ u.sys.chip = s.sys.chip ∧
      Replied h command status payload s u ∧ Noted h command status payload u ∧ P u.sys.tray :=
  gives_done hx hz rfl ⟨[], (List.append_nil _).symm⟩ rfl hP

/-! Orders. -/

section Applied

variable (r : Rank) (mask : BitVec 16) (o : Order) (origin status : Nat) (req : Word × Word) (t : Tray)

@[simp] theorem applyOrder_orders : (applyOrder r mask o origin status req now t).orders = (t.setOrder r mask o).orders := by
  obtain ⟨log, h⟩ := applyOrder_eq (now := now) r mask o origin status req t
  rw [h]

@[simp] theorem applyOrder_card : (applyOrder r mask o origin status req now t).card = t.card := by
  obtain ⟨log, h⟩ := applyOrder_eq (now := now) r mask o origin status req t
  obtain ⟨orders, ho⟩ := setOrder_eq r mask o t
  rw [h, ho]

@[simp] theorem applyOrder_requesters : (applyOrder r mask o origin status req now t).requesters = t.requesters := by
  obtain ⟨log, h⟩ := applyOrder_eq (now := now) r mask o origin status req t
  obtain ⟨orders, ho⟩ := setOrder_eq r mask o t
  rw [h, ho]

end Applied

/-- No rank is above the rack's, and an OFF is held by nothing. -/
theorem overridden_rackOff (t : Tray) (mask : BitVec 16) : overridden t .rack mask .off = false := by
  unfold overridden
  rw [List.any_eq_false]
  intro n _
  simp [higherDiffers]

theorem gives_orderNow (hx : executes h s.sys = true) (hf : f s.sys = orderNow h mask o s.sys) :
    Gives (onBoard (tmpCommand h command f) s) fun u => keepsMemory s u ∧ u.sys.chip = s.sys.chip ∧
      Replied h command (if overridden s.sys.tray (rankOf h.inlet) mask o then 1 else 0) [] s u ∧
      Noted h command (if overridden s.sys.tray (rankOf h.inlet) mask o then 1 else 0) [] u ∧
      u.sys.tray.orders = (s.sys.tray.setOrder (rankOf h.inlet) mask o).orders ∧
      u.sys.tray.card.notices = s.sys.tray.card.notices := by
  unfold orderNow at hf
  refine gives_done_tray (P := fun u => u.orders = (s.sys.tray.setOrder (rankOf h.inlet) mask o).orders ∧
    u.card.notices = s.sys.tray.card.notices) hx hf (applyOrder_requesters ..) fun u ha => ⟨?_, ?_⟩
  · rw [ha.orders, Sys.onTray_tray, applyOrder_orders]
  · rw [ha.notices, Sys.onTray_tray, applyOrder_card]

/-! A rack ON or NONE withdraws what it overtakes. -/

theorem foldl_logDropped (l : List (Notice × Notice)) (t : Tray) : ∃ log,
    l.foldl (fun (u : Tray) (x : Notice × Notice) =>
      if x.2.mask == 0 then
        u.logLater 0x03 1 2 x.1.mask.toNat (orderCode .off) 0 (x.1.hdr.src, x.1.hdr.seq) .none now
      else u) t = { t with logPending := log } := by
  induction l generalizing t with
  | nil => exact ⟨t.logPending, rfl⟩
  | cons x l ih =>
    rw [List.foldl_cons]
    split
    · obtain ⟨log, h⟩ := ih (t.logLater 0x03 1 2 x.1.mask.toNat (orderCode .off) 0 (x.1.hdr.src, x.1.hdr.seq) .none now)
      exact ⟨log, h⟩
    · exact ih t

/-- The notices without the slots of a mask. -/
def withoutSlots (mask : BitVec 16) (l : List Notice) : List Notice :=
  (l.map fun (x : Notice) => { x with mask := x.mask &&& ~~~mask }).filter fun x => x.mask != 0

theorem withdraw_eq (mask : BitVec 16) (now : Nat) (t : Tray) : ∃ log, withdraw mask now t = { t with
    logPending := log
    card := { t.card with notices := withoutSlots mask t.card.notices } } := by
  unfold withdraw
  obtain ⟨log, h⟩ := foldl_logDropped (now := now)
    (t.card.notices.zip (t.card.notices.map fun (x : Notice) => { x with mask := x.mask &&& ~~~mask })) t
  dsimp only
  rw [h]
  exact ⟨log, rfl⟩

theorem mask_withoutSlots {l : List Notice} (hx : x ∈ withoutSlots mask l) : x.mask &&& mask = 0 := by
  obtain ⟨w, -, rfl⟩ := List.mem_map.mp (List.mem_filter.mp hx).1
  dsimp only
  ext i hi
  simp

/-! Events and notices. -/

/-- The mailbox with an event in its ring, where the ring has room. -/
def Mailbox.noted (e : Dword) (m : Mailbox) : Mailbox := if m.full then m else m.post e

theorem postEvent_eq (e : Dword) (y : Sys) : ∃ more, postEvent e y = { y with
    out := y.out ++ more
    tray := y.tray.onCard fun c => { c with mailbox := c.mailbox.noted e } } := by
  unfold postEvent Mailbox.noted Sys.onTray Tray.onCard
  cases hf : y.tray.card.mailbox.full with
  | true => exact ⟨[], by simp [hf]⟩
  | false =>
    cases hi : y.tray.card.mailbox.irqEn with
    | true => exact ⟨[.mailboxMsix 1], by simp [hf, hi, Sys.emit]⟩
    | false => exact ⟨[], by simp [hf, hi]⟩

theorem noted_tail {m : Mailbox} (e : Dword) (hf : m.full = false) : (m.noted e).tail = m.tail + 1 := by
  unfold Mailbox.noted
  rw [hf]
  rfl

theorem openNotice_eq (h : TmpHdr) (mask : BitVec 16) (y : Sys) : ∃ more e, openNotice h mask y = { y with
    out := y.out ++ more
    tray := y.tray.onCard fun c => { c with
      mailbox := c.mailbox.noted e
      nextNotice := nextNumber c.nextNotice
      notices := c.notices ++ [⟨c.nextNotice, mask, y.now, false, h⟩] } } := by
  obtain ⟨more, heq⟩ := postEvent_eq (eventWord 1 y.tray.card.nextNotice.toNat mask.toNat 100) y
  unfold openNotice
  dsimp only
  rw [heq]
  exact ⟨more, _, rfl⟩

theorem setOrder_rack (mask : BitVec 16) (o : Order) (t : Tray) : t.setOrder .rack mask o = { t with
    orders := { t.orders with rack := putOrders mask o t.orders.rack } } := rfl

/-- The tray once a notice is closed: its order applied, its number free. -/
theorem closeNotice_eq (x : Notice) (y : Sys) : ∃ more log mailbox, closeNotice x y = { y with
    out := y.out ++ more
    tray := { y.tray with
      orders := { y.tray.orders with rack := putOrders x.mask .off y.tray.orders.rack }
      logPending := log
      card := { y.tray.card with
        notices := y.tray.card.notices.filter fun z => z != x
        mailbox := mailbox } } } := by
  unfold closeNotice
  generalize eventWord 2 x.number.toNat x.mask.toNat 0 = e
  obtain ⟨log, ha⟩ := applyOrder_eq (now := y.now) .rack x.mask .off 1 2 (x.hdr.src, x.hdr.seq)
    (y.tray.onCard fun c => { c with notices := c.notices.filter fun z => z != x })
  rw [setOrder_rack] at ha
  unfold Tray.onCard at ha
  dsimp only at ha
  generalize putOrders x.mask .off y.tray.orders.rack = v at ha ⊢
  unfold Sys.onTray Tray.onCard
  dsimp only
  rw [ha]
  obtain ⟨more, heq⟩ := postEvent_eq e { y with tray := { y.tray with
    orders := { y.tray.orders with rack := v }
    logPending := log
    card := { y.tray.card with notices := y.tray.card.notices.filter fun z => z != x } } }
  rw [heq]
  exact ⟨more, log, y.tray.card.mailbox.noted e, rfl⟩

theorem gives_closed (x : Notice) (due : Nat) :
    Gives (.next { s with sys := settleTray (closeNotice x (s.sys.await due)) }) fun u => keepsMemory s u ∧
      due ≤ u.sys.now ∧ u.sys.tray.card.notices = s.sys.tray.card.notices.filter (fun z => z != x) ∧
      u.sys.tray.orders = { s.sys.tray.orders with rack := putOrders x.mask .off s.sys.tray.orders.rack } := by
  obtain ⟨more, log, mailbox, heq⟩ := closeNotice_eq x (s.sys.await due)
  rw [heq, await_tray]
  refine ⟨_, rfl, ⟨rfl, rfl⟩, ?_, ?_, ?_⟩
  · rw [settleTray_now]
    exact le_await ..
  · rw [settleTray_card]
  · rw [settleTray_orders]

theorem expireNotice_eq {deferred : Bool} (ms : Nat)
    (hx : (y.tray.card.notices.find? fun z => z.deferred == deferred) = some x) :
    expireNotice deferred ms y = closeNotice x (y.await (x.openedAt + Config.ms ms)) := by
  unfold expireNotice
  rw [hx]

theorem gives_expireNotice {deferred : Bool} (ms : Nat)
    (hx : (s.sys.tray.card.notices.find? fun z => z.deferred == deferred) = some x) :
    Gives (onBoard (expireNotice deferred ms) s) fun u => keepsMemory s u ∧ x.openedAt + Config.ms ms ≤ u.sys.now ∧
      u.sys.tray.card.notices = s.sys.tray.card.notices.filter (fun z => z != x) ∧
      u.sys.tray.orders = { s.sys.tray.orders with rack := putOrders x.mask .off s.sys.tray.orders.rack } := by
  rw [onBoard_eq, expireNotice_eq ms hx]
  exact gives_closed x _

/-! SLOT_POWER of the rack. -/

/-- A rack OFF would open a notice on its slots. -/
def noticeOpens (t : Tray) (mask : BitVec 16) : Prop :=
  t.card.mailbox.noticeEn = true ∧ t.card.mailbox.full = false ∧ ∃ n ∈ slotsOf mask, t.resolved n = .on

theorem opens_iff (t : Tray) (mask : BitVec 16) (flag : Bool) :
    (!flag && t.card.mailbox.noticeEn && !t.card.mailbox.full &&
      (slotsOf mask).any fun n => t.resolved n == .on) = true ↔ flag = false ∧ noticeOpens t mask := by
  simp [noticeOpens, and_assoc]

theorem longestLeft_none (t : Tray) : longestLeft now t 0 = 0 := by
  unfold longestLeft
  rw [List.filter_eq_nil_iff.mpr fun x _ => by simp]
  rfl

theorem and_not_zero (mask : BitVec 16) : mask &&& ~~~(0 : BitVec 16) = mask := BitVec.and_allOnes

theorem rackOff_opens (hheld : heldSlots y.tray mask = 0) (ho : noticeOpens y.tray mask) :
    rackOff h mask false y = (openNotice h mask y, 2, leBytes 4 100) := by
  unfold rackOff deferredReply
  dsimp only
  rw [hheld, longestLeft_none, and_not_zero, if_pos ((opens_iff ..).mpr ⟨rfl, ho⟩)]
  rfl

theorem rackOff_applies {flag : Bool} (hheld : heldSlots y.tray mask = 0) (ho : flag = true ∨ ¬noticeOpens y.tray mask) :
    rackOff h mask flag y = orderNow h mask .off y := by
  have hno : ¬(flag = false ∧ noticeOpens y.tray mask) := by
    rintro ⟨hf, hn⟩
    rcases ho with ho | ho
    · rw [hf] at ho
      exact Bool.noConfusion ho
    · exact ho hn
  unfold rackOff
  dsimp only
  rw [hheld, and_not_zero, if_neg (mt (opens_iff ..).mp hno)]
  exact if_pos rfl

end Orders

end Sys2Proof.Machine
end

section
/-! PROOFS. Power orders, notices and cooling demands (O57): every request by its SEQ. -/

namespace Sys2Proof.Machine

section Requested

variable {h : TmpHdr} {s : State} {y : Sys} {mask : BitVec 16} {o : Order} {b : Byte} {x : Notice} {flag : Bool}

/-! SLOT_POWER. -/

theorem slotPower_host (hi : h.inlet = .host) : slotPower h mask o false y = orderNow h mask o y := by
  unfold slotPower
  rw [hi]
  rfl

theorem slotPower_hostFlag (hi : h.inlet = .host) : slotPower h mask o true y = (y, 6, []) := by
  unfold slotPower
  rw [hi]
  rfl

theorem slotPower_rackOff (hi : h.inlet = .rack) : slotPower h mask .off flag y = rackOff h mask flag y := by
  unfold slotPower
  rw [hi]
  rfl

theorem slotPower_rackOther (hi : h.inlet = .rack) (ho : o ≠ .off) :
    slotPower h mask o flag y = orderNow h mask o (y.onTray (withdraw mask y.now)) := by
  unfold slotPower
  rw [hi]
  exact if_neg (by simpa using ho)

/-- A rack ON or NONE: recorded at its rank, with its slots out of every notice. -/
theorem gives_rackOrder (hx : executes h s.sys = true) (hi : h.inlet = .rack) (ho : o ≠ .off) :
    Gives (exec (.slotPower h mask o flag) s) fun u => keepsMemory s u ∧ u.sys.chip = s.sys.chip ∧
      Replied h 0x10 (if overridden s.sys.tray .rack mask o then 1 else 0) [] s u ∧
      Noted h 0x10 (if overridden s.sys.tray .rack mask o then 1 else 0) [] u ∧
      u.sys.tray.orders = { s.sys.tray.orders with rack := putOrders mask o s.sys.tray.orders.rack } ∧
      ∀ x ∈ u.sys.tray.card.notices, x.mask &&& mask = 0 := by
  have hf : slotPower h mask o flag s.sys = (s.sys.onTray fun t => applyOrder .rack mask o (originOf h.inlet)
      (if overridden (withdraw mask s.sys.now s.sys.tray) .rack mask o then 1 else 0) (h.src, h.seq) s.sys.now
      (withdraw mask s.sys.now t), if overridden (withdraw mask s.sys.now s.sys.tray) .rack mask o then 1 else 0, []) := by
    rw [slotPower_rackOther hi ho]
    unfold orderNow
    rw [hi]
    rfl
  obtain ⟨log, hw⟩ := withdraw_eq mask s.sys.now s.sys.tray
  have hover : overridden (withdraw mask s.sys.now s.sys.tray) .rack mask o = overridden s.sys.tray .rack mask o := by
    rw [hw]
    rfl
  rw [exec_slotPower, execSlotPower]
  rw [hover] at hf
  refine gives_done_tray (P := fun u => u.orders = { s.sys.tray.orders with
    rack := putOrders mask o s.sys.tray.orders.rack } ∧ ∀ x ∈ u.card.notices, x.mask &&& mask = 0) hx hf ?_
    fun u ha => ⟨?_, ?_⟩
  · rw [applyOrder_requesters, hw]
  · rw [ha.orders, Sys.onTray_tray, applyOrder_orders, setOrder_rack, hw]
  · rw [ha.notices, Sys.onTray_tray, applyOrder_card, hw]
    exact fun x hx => mask_withoutSlots hx

theorem gives_rackOpens (hx : executes h s.sys = true) (hi : h.inlet = .rack) (hheld : heldSlots s.sys.tray mask = 0)
    (ho : noticeOpens s.sys.tray mask) : Gives (exec (.slotPower h mask .off false) s) fun u => keepsMemory s u ∧
      u.sys.chip = s.sys.chip ∧ Replied h 0x10 2 (leBytes 4 100) s u ∧ Noted h 0x10 2 (leBytes 4 100) u ∧
      u.sys.tray.orders = s.sys.tray.orders ∧ u.sys.tray.card.notices = s.sys.tray.card.notices ++
        [⟨s.sys.tray.card.nextNotice, mask, s.sys.now, false, h⟩] ∧
      u.sys.tray.card.mailbox.tail = s.sys.tray.card.mailbox.tail + 1 := by
  obtain ⟨more, e, heq⟩ := openNotice_eq h mask s.sys
  have hf := (slotPower_rackOff (flag := false) (mask := mask) (y := s.sys) hi).trans (rackOff_opens hheld ho)
  rw [heq] at hf
  rw [exec_slotPower, execSlotPower]
  refine gives_done (P := fun u => u.orders = s.sys.tray.orders ∧ u.card.notices = s.sys.tray.card.notices ++
    [⟨s.sys.tray.card.nextNotice, mask, s.sys.now, false, h⟩] ∧ u.card.mailbox.tail = s.sys.tray.card.mailbox.tail + 1)
    hx hf rfl ⟨more, rfl⟩ rfl fun u ha => ⟨ha.orders, ha.notices, ?_⟩
  rw [ha.tail]
  exact noted_tail e ho.2.1

theorem gives_slotPowerNow (hx : executes h s.sys = true) (hf : slotPower h mask o flag s.sys = orderNow h mask o s.sys) :
    Gives (exec (.slotPower h mask o flag) s) fun u => keepsMemory s u ∧ u.sys.chip = s.sys.chip ∧
      Replied h 0x10 (if overridden s.sys.tray (rankOf h.inlet) mask o then 1 else 0) [] s u ∧
      Noted h 0x10 (if overridden s.sys.tray (rankOf h.inlet) mask o then 1 else 0) [] u ∧
      u.sys.tray.orders = (s.sys.tray.setOrder (rankOf h.inlet) mask o).orders ∧
      u.sys.tray.card.notices = s.sys.tray.card.notices := by
  rw [exec_slotPower, execSlotPower]
  exact gives_orderNow hx hf

/-! DEFER and DEFER_DONE. -/

theorem deferNotice_rack (hi : h.inlet = .rack) : deferNotice h b y = (y, 7, []) := by
  unfold deferNotice
  rw [hi]

theorem deferNotice_none (hi : h.inlet = .host) (hn : noticeNumbered b y.tray = none) : deferNotice h b y = (y, 12, []) := by
  unfold deferNotice
  rw [hi, hn]

/-- DEFER of an open notice, within a time of its opening. -/
theorem deferNotice_some (hi : h.inlet = .host) (hn : noticeNumbered b y.tray = some x) : deferNotice h b y =
    if x.deferred || elapsed y x.openedAt (Config.ms 100) then (y, 12, [])
    else
      (y.onTray fun t => logCommand h 0 x.mask.toNat 0 y.now (t.onCard fun c =>
        { c with notices := c.notices.map fun z => if z.number == b then { z with deferred := true } else z }), 0, []) := by
  unfold deferNotice
  rw [hi, hn]

theorem deferDone_rack (hi : h.inlet = .rack) : deferDone h b y = (y, 7, []) := by
  unfold deferDone
  rw [hi]

theorem deferDone_none (hi : h.inlet = .host) (hn : noticeNumbered b y.tray = none) : deferDone h b y = (y, 12, []) := by
  unfold deferDone
  rw [hi, hn]

theorem deferDone_some (hi : h.inlet = .host) (hn : noticeNumbered b y.tray = some x) : deferDone h b y =
    ((closeNotice x y).onTray (logCommand h 0 x.mask.toNat 0 y.now), 0, []) := by
  unfold deferDone
  rw [hi, hn]

/-- A DEFER or DEFER_DONE that is refused leaves the notices. -/
theorem gives_deferRefused {status : Nat} (hx : executes h s.sys = true) (hf : deferNotice h b s.sys = (s.sys, status, [])) :
    Gives (exec (.defer h b) s) fun u => keepsMemory s u ∧ u.sys.chip = s.sys.chip ∧ Replied h 0x13 status [] s u ∧
      Noted h 0x13 status [] u ∧ u.sys.tray.card.notices = s.sys.tray.card.notices := by
  rw [exec_defer, execDefer]
  exact gives_refused (P := fun u => u.card.notices = s.sys.tray.card.notices) hx hf fun u ha => ha.notices

theorem gives_doneRefused {status : Nat} (hx : executes h s.sys = true) (hf : deferDone h b s.sys = (s.sys, status, [])) :
    Gives (exec (.deferDone h b) s) fun u => keepsMemory s u ∧ u.sys.chip = s.sys.chip ∧ Replied h 0x14 status [] s u ∧
      Noted h 0x14 status [] u ∧ u.sys.tray.card.notices = s.sys.tray.card.notices := by
  rw [exec_deferDone, execDeferDone]
  exact gives_refused (P := fun u => u.card.notices = s.sys.tray.card.notices) hx hf fun u ha => ha.notices

theorem elapsed_iff {from_ d : Nat} : elapsed y from_ d = true ↔ from_ + d ≤ y.now := by
  unfold elapsed
  exact decide_eq_true_iff

theorem gives_defer (hx : executes h s.sys = true) (hi : h.inlet = .host) (hn : noticeNumbered b s.sys.tray = some x)
    (hd : x.deferred = false) (ht : s.sys.now < x.openedAt + Config.ms 100) :
    Gives (exec (.defer h b) s) fun u => keepsMemory s u ∧ u.sys.chip = s.sys.chip ∧ Replied h 0x13 0 [] s u ∧
      Noted h 0x13 0 [] u ∧ u.sys.tray.orders = s.sys.tray.orders ∧ u.sys.tray.card.notices =
        s.sys.tray.card.notices.map fun z => if z.number == b then { z with deferred := true } else z := by
  have hf := deferNotice_some hi hn
  have hno : ¬(x.deferred || elapsed s.sys x.openedAt (Config.ms 100)) = true := by
    rw [hd, Bool.false_or, elapsed_iff]
    exact Nat.not_le_of_lt ht
  rw [if_neg hno] at hf
  rw [exec_defer, execDefer]
  exact gives_done_tray (P := fun u => u.orders = s.sys.tray.orders ∧ u.card.notices =
    s.sys.tray.card.notices.map fun z => if z.number == b then { z with deferred := true } else z) hx hf rfl
    fun u ha => ⟨ha.orders, ha.notices⟩

theorem gives_deferLate (hx : executes h s.sys = true) (hi : h.inlet = .host) (hn : noticeNumbered b s.sys.tray = some x)
    (hl : x.deferred = true ∨ x.openedAt + Config.ms 100 ≤ s.sys.now) :
    Gives (exec (.defer h b) s) fun u => keepsMemory s u ∧ u.sys.chip = s.sys.chip ∧ Replied h 0x13 12 [] s u ∧
      Noted h 0x13 12 [] u ∧ u.sys.tray.card.notices = s.sys.tray.card.notices := by
  have hyes : (x.deferred || elapsed s.sys x.openedAt (Config.ms 100)) = true := by
    rw [Bool.or_eq_true, elapsed_iff]
    exact hl
  exact gives_deferRefused hx ((deferNotice_some hi hn).trans (if_pos hyes))

theorem gives_deferDone (hx : executes h s.sys = true) (hi : h.inlet = .host) (hn : noticeNumbered b s.sys.tray = some x) :
    Gives (exec (.deferDone h b) s) fun u => keepsMemory s u ∧ u.sys.chip = s.sys.chip ∧ Replied h 0x14 0 [] s u ∧
      Noted h 0x14 0 [] u ∧ u.sys.tray.card.notices = s.sys.tray.card.notices.filter (fun z => z != x) ∧
      u.sys.tray.orders = { s.sys.tray.orders with rack := putOrders x.mask .off s.sys.tray.orders.rack } := by
  obtain ⟨more, log, mailbox, heq⟩ := closeNotice_eq x s.sys
  have hf := deferDone_some hi hn
  rw [heq] at hf
  rw [exec_deferDone, execDeferDone]
  refine gives_done (P := fun u => u.card.notices = s.sys.tray.card.notices.filter (fun z => z != x) ∧
    u.orders = { s.sys.tray.orders with rack := putOrders x.mask .off s.sys.tray.orders.rack }) hx hf rfl ⟨more, rfl⟩ rfl
    fun u ha => ⟨ha.notices, ha.orders⟩

/-! COOL_DEMAND. -/

theorem setDemand_eq (r : Rank) (d : Demand) (t : Tray) : ∃ demands, t.setDemand r d = { t with demands := demands } := by
  cases r <;> exact ⟨_, rfl⟩

theorem gives_coolDemand (hx : executes h s.sys = true) {flow : BitVec 16} {fan pump : Byte} (hf : fan.toNat ≤ 100)
    (hp : pump.toNat ≤ 100) : Gives (exec (.coolDemand h flow fan pump) s) fun u => keepsMemory s u ∧
      u.sys.chip = s.sys.chip ∧
      Replied h 0x20 0 (s.sys.tray.setDemand (rankOf h.inlet) ⟨flow, fan.toNat, pump.toNat⟩).resolvedDemand.bytes s u ∧
      Noted h 0x20 0 (s.sys.tray.setDemand (rankOf h.inlet) ⟨flow, fan.toNat, pump.toNat⟩).resolvedDemand.bytes u ∧
      u.sys.tray.demands = (s.sys.tray.setDemand (rankOf h.inlet) ⟨flow, fan.toNat, pump.toNat⟩).demands := by
  have hz : coolDemand h flow fan pump s.sys = (s.sys.onTray fun t =>
      (t.setDemand (rankOf h.inlet) ⟨flow, fan.toNat, pump.toNat⟩).logLater 0x04 (originOf h.inlet) 0 0 0 0 (h.src, h.seq)
        .none s.sys.now, 0,
      (s.sys.tray.setDemand (rankOf h.inlet) ⟨flow, fan.toNat, pump.toNat⟩).resolvedDemand.bytes) :=
    if_neg (by simp; omega)
  obtain ⟨demands, hd⟩ := setDemand_eq (rankOf h.inlet) ⟨flow, fan.toNat, pump.toNat⟩ s.sys.tray
  rw [exec_coolDemand, execCoolDemand]
  refine gives_done_tray (P := fun u => u.demands =
    (s.sys.tray.setDemand (rankOf h.inlet) ⟨flow, fan.toNat, pump.toNat⟩).demands) hx hz ?_ fun u ha => ha.demands
  rw [hd]
  rfl

theorem gives_coolRefused (hx : executes h s.sys = true) {flow : BitVec 16} {fan pump : Byte}
    (hp : 100 < fan.toNat ∨ 100 < pump.toNat) : Gives (exec (.coolDemand h flow fan pump) s) fun u => keepsMemory s u ∧
      u.sys.chip = s.sys.chip ∧ Replied h 0x20 6 [] s u ∧ Noted h 0x20 6 [] u ∧
      u.sys.tray.demands = s.sys.tray.demands := by
  rw [exec_coolDemand, execCoolDemand]
  exact gives_refused (P := fun u => u.demands = s.sys.tray.demands) hx (if_pos (by simpa using hp)) fun u ha => ha.demands

/-! A request that was executed before, and a card that does not run. -/

theorem tmpCommand_seen {f : TmpWork} {command : Nat} {r : Requester} (hrun : y.tray.card.running = true)
    (hid : h.reqId ≠ 0) (hr : y.tray.requester h.reqId = some r) (hle : h.seq.toNat ≤ r.high.toNat) :
    tmpCommand h command f y = sendReply h
      (match r.replies.lookup h.seq with
        | some frame => frame
        | none => replyFrame h command 8 (leBytes 4 r.high.toNat)) (y.onTray (Tray.putRequester r)) := by
  unfold tmpCommand
  rw [if_neg (by simp [hrun]), if_neg (by simpa using hid), hr]
  dsimp only
  rw [if_neg (Nat.not_lt.mpr hle)]
  cases r.replies.lookup h.seq <;> rfl

theorem gives_resent (r : Requester) (frame : List Byte) :
    Gives (.next { s with sys := settleTray (sendReply h frame (s.sys.onTray (Tray.putRequester r))) }) fun u =>
      u.sys.tray.orders = s.sys.tray.orders ∧ u.sys.tray.card.notices = s.sys.tray.card.notices ∧
      ∃ sent, u.sys.out = s.sys.out ++ sent ∧ .tmp h.inlet frame ∈ sent := by
  obtain ⟨sent, hsent, heq⟩ := sendReply_eq h frame (s.sys.onTray (Tray.putRequester r))
  rw [heq]
  refine ⟨_, rfl, ?_, ?_, sent, ?_, hsent⟩
  · rw [settleTray_orders]
    rfl
  · rw [settleTray_card]
    exact answered_notices ..
  · rw [settleTray_out]
    rfl

theorem gives_stale (command : Nat) (payload : List Byte) (status : Nat) (r : Requester) :
    Gives (.next { s with sys := settleTray (sendReply h (replyFrame h command status payload)
      (s.sys.onTray (Tray.putRequester r))) }) (Answers h command status payload s.sys s) :=
  ⟨_, rfl, answers_reply ⟨[], (List.append_nil _).symm⟩⟩

end Requested

/-- Settles O57, request by request, on the equation of an executed request. -/
theorem ordersAndNotices : Obligations.OrdersAndNotices := by
  unfold Obligations.OrdersAndNotices
  intro s h mask o b
  dsimp only
  refine ⟨fun hx => ⟨fun hi => ⟨?_, ?_, ?_, ?_, ?_, ?_⟩, fun hi => ⟨?_, ?_, ?_, ?_, ?_⟩, fun flow fan pump => ⟨?_, ?_⟩⟩,
    ?_, ?_, ?_, ?_⟩
  · have hg := gives_slotPowerNow (flag := false) hx (slotPower_host (mask := mask) (o := o) hi)
    rw [hi] at hg
    obtain ⟨u, hu, hm, hc, hrep, hn, ho, -⟩ := hg
    exact ⟨u, hu, hm, hc, hrep, hn, ho⟩
  · rw [exec_slotPower, execSlotPower]
    exact gives_refused (P := fun u => u.orders = s.sys.tray.orders ∧ u.card.notices = s.sys.tray.card.notices) hx
      (slotPower_hostFlag hi) fun u ha => ⟨ha.orders, ha.notices⟩
  · exact fun x hn hd ht => gives_defer hx hi hn hd ht
  · exact fun x hn hl => gives_deferLate hx hi hn hl
  · exact fun x hn => gives_deferDone hx hi hn
  · exact fun hn => ⟨gives_deferRefused hx (deferNotice_none hi hn), gives_doneRefused hx (deferDone_none hi hn)⟩
  · exact fun ho flag => gives_rackOrder hx hi ho
  · exact fun hheld ho => gives_rackOpens hx hi hheld ho
  · intro hheld flag ho
    have hg := gives_slotPowerNow hx ((slotPower_rackOff hi).trans (rackOff_applies (h := h) (flag := flag) hheld ho))
    rw [hi] at hg
    obtain ⟨u, hu, hm, hc, hrep, hn, hord, hnot⟩ := hg
    rw [show rankOf .rack = Rank.rack from rfl, overridden_rackOff] at hrep hn
    exact ⟨u, hu, hm, hc, hrep, hn, hord, hnot⟩
  · exact gives_deferRefused hx (deferNotice_rack hi)
  · exact gives_doneRefused hx (deferDone_rack hi)
  · exact fun hf hp => gives_coolDemand hx hf hp
  · exact fun hp => gives_coolRefused hx hp
  · intro x hx
    rw [exec_noticeExpiry, execNoticeExpiry]
    exact gives_expireNotice 100 hx
  · intro x hx
    rw [exec_deferTimeout, execDeferTimeout]
    exact gives_expireNotice 30000 hx
  · intro r flag hrun hid hr hle
    have heq (f : TmpWork) := tmpCommand_seen (f := f) (command := 0x10) hrun hid hr hle
    rw [exec_slotPower, execSlotPower, onBoard_eq, heq]
    refine ⟨fun frame hl => ?_, fun hl => ?_⟩
    · rw [hl]
      exact gives_resent r frame
    · rw [hl]
      obtain ⟨u, hu, ha⟩ := gives_stale (s := s) (h := h) 0x10 (leBytes 4 r.high.toNat) 8 r
      exact ⟨u, hu, ha.orders, ha.notices, ha.replied⟩
  · intro hrun flag
    rw [exec_slotPower, execSlotPower, onBoard_eq, tmpCommand_stopped hrun]
    rfl

end Sys2Proof.Machine
end

section
/-! PROOFS. The TMC's read commands (O58): what each work answers, where it is in bounds and where not. -/

namespace Sys2Proof.Machine

section Reads

variable {h : TmpHdr} {s : State} {y z : Sys} {t : Tray} {f : TmpWork} {command status now : Nat} {payload : List Byte}

/-- A read command of a running card whose work keeps the tray, as the obligation asks for it. -/
theorem gives_told (hrun : s.sys.tray.card.running = true) (hid : h.reqId ≠ 0) (hz : f s.sys = (z, status, payload))
    (ht : z.tray = s.sys.tray) (ho : z.out = s.sys.out) :
    Gives (onBoard (tmpRead h command f) s) fun u => keepsMemory s u ∧ Replied h command status payload s u ∧
      u.sys.tray.orders = s.sys.tray.orders ∧ u.sys.tray.log = s.sys.tray.log := by
  have heq : onBoard (tmpRead h command f) s = onBoard (tmpRun h command false f) s := by
    rw [onBoard_eq, onBoard_eq, tmpRead_runs hrun hid]
  obtain ⟨u, hu, ha⟩ := gives_run (s := s) (command := command) false hz ⟨[], by rw [ho, List.append_nil]⟩
  rw [heq]
  exact ⟨u, hu, ha.memory, ha.replied, ha.orders.trans (by rw [ht]), ha.log.trans (by rw [ht])⟩

/-! Sensors. -/

@[simp] theorem length_leBytes (n x : Nat) : (leBytes n x).length = n := by
  simp [leBytes]

theorem length_sensorEntry (t : Tray) (now free p : Nat) : (sensorEntry t now free p).length = 8 := by
  unfold sensorEntry intBytes
  dsimp only
  split <;> simp

theorem sensorEntry_valid {p : Fin 212} (hv : t.sensors[p].valid = true) (hf : sensorFitted t p.val = true)
    (now free : Nat) : (sensorEntry t now free p.val).take 4 = intBytes t.sensors[p].value := by
  have hget : (t.sensors[p.val]?).getD ⟨0, 0, false⟩ = t.sensors[p] := by
    rw [Vector.getElem?_eq_getElem p.isLt]
    rfl
  unfold sensorEntry
  rw [hget]
  dsimp only
  rw [if_pos (by rw [hv, hf]; rfl), List.append_assoc, List.append_assoc]
  exact List.take_left' (length_leBytes ..)

/-- Entries of one length, one behind the other: entry i begins at i times that length. -/
theorem drop_flatMap_range {α : Type} {g : Nat → List α} {n : Nat} (hg : ∀ k, (g k).length = n) {i count : Nat}
    (hi : i < count) : ∃ rest, ((List.range count).flatMap g).drop (n * i) = g i ++ rest := by
  obtain ⟨k, rfl⟩ : ∃ k, count = i + (k + 1) := ⟨count - i - 1, by omega⟩
  have hlen : ((List.range i).flatMap g).length = n * i := by
    simp [List.length_flatMap, hg, Nat.mul_comm]
  rw [List.range_add, List.flatMap_append, List.drop_left' hlen, List.flatMap_map, List.range_succ_eq_map,
    List.flatMap_cons]
  exact ⟨_, rfl⟩

theorem sensorRead_bad {first count : Nat} (hb : count = 0 ∨ 128 < count ∨ 212 < first + count) (y : Sys) :
    sensorRead first count y = (y, 6, []) :=
  if_pos (by simpa [or_assoc] using hb)

theorem sensorRead_ok {first count : Nat} (h1 : 1 ≤ count) (h2 : count ≤ 128) (h3 : first + count ≤ 212) (y : Sys) :
    sensorRead first count y = ({ y with free := y.free + 424 }, 0,
      (List.range count).flatMap fun i => sensorEntry y.tray y.now y.free (first + i)) :=
  if_neg (by simp; omega)

theorem gives_sensorRead (hrun : s.sys.tray.card.running = true) (hid : h.reqId ≠ 0) {first count : Nat}
    (h1 : 1 ≤ count) (h2 : count ≤ 128) (h3 : first + count ≤ 212) : ∃ payload,
    (Gives (exec (.sensorRead h first count) s) fun u => keepsMemory s u ∧ Replied h 0x30 0 payload s u ∧
      u.sys.tray.orders = s.sys.tray.orders ∧ u.sys.tray.log = s.sys.tray.log) ∧
    payload.length = 8 * count ∧ ∀ (i : Nat) (p : Fin 212), i < count → p.val = first + i →
      s.sys.tray.sensors[p].valid = true → sensorFitted s.sys.tray p.val = true →
      (payload.drop (8 * i)).take 4 = intBytes s.sys.tray.sensors[p].value := by
  refine ⟨(List.range count).flatMap fun i => sensorEntry s.sys.tray s.sys.now s.sys.free (first + i), ?_, ?_,
    fun i p hi hp hv hf => ?_⟩
  · rw [exec_sensorRead, execSensorRead]
    exact gives_told hrun hid (sensorRead_ok h1 h2 h3 s.sys) rfl rfl
  · simp [List.length_flatMap, length_sensorEntry, Nat.mul_comm]
  · obtain ⟨rest, hrest⟩ := drop_flatMap_range
      (fun k => length_sensorEntry s.sys.tray s.sys.now s.sys.free (first + k)) hi
    rw [hrest, List.take_append_of_le_length (by rw [length_sensorEntry]; omega), ← hp]
    exact sensorEntry_valid hv hf _ _

/-! The log. -/

theorem logRead_bad {number : Word} {count : Nat} (hb : count = 0 ∨ 16 < count ∨
    ∃ i, i < count ∧ y.tray.record ((number.toNat + i) % 2 ^ 32) = none) : logRead number count y = (y, 6, []) := by
  refine if_pos ?_
  rw [Bool.or_eq_true, Bool.or_eq_true]
  rcases hb with hb | hb | ⟨i, hi, hr⟩
  · exact .inl (.inl (by simpa using hb))
  · exact .inl (.inr (by simpa using hb))
  · refine .inr (List.any_eq_true.mpr ⟨none, List.mem_map.mpr ⟨i, List.mem_range.mpr hi, hr⟩, rfl⟩)

theorem logRead_ok {number : Word} {count : Nat} (h1 : 1 ≤ count) (h2 : count ≤ 16)
    (hr : ∀ i, i < count → y.tray.record ((number.toNat + i) % 2 ^ 32) ≠ none) : logRead number count y = (y, 0,
      (List.range count).flatMap fun i => ((y.tray.record ((number.toNat + i) % 2 ^ 32)).map LogRec.bytes).getD []) := by
  unfold logRead
  dsimp only
  rw [if_neg, List.flatMap_map]
  rw [Bool.or_eq_true, Bool.or_eq_true]
  rintro ((hc | hc) | hc)
  · rw [eq_of_beq hc] at h1
    exact absurd h1 (by omega)
  · exact absurd (of_decide_eq_true hc) (by omega)
  · obtain ⟨r, hm, hnone⟩ := List.any_eq_true.mp hc
    obtain ⟨i, hi, rfl⟩ := List.mem_map.mp hm
    exact hr i (List.mem_range.mp hi) (Option.isNone_iff_eq_none.mp hnone)

/-! The chip's registers. -/

/-- The chip as an address that names it leaves it, awake. -/
def Sys.addressed (y : Sys) : Sys := y.onChip fun c => { c with mgt := { c.mgt with wakeLast := 0 } }

theorem addressChip_awake (hr : y.chip.pwr.retention = false) (hl : y.chip.pwr.lowIdle = false) :
    addressChip y = (true, y.addressed) := by
  unfold addressChip
  dsimp only
  rw [hr, hl]
  rfl

theorem addressTwice_awake (hr : y.chip.pwr.retention = false) (hl : y.chip.pwr.lowIdle = false) :
    addressTwice y = y.addressed := by
  unfold addressTwice
  rw [addressChip_awake hr hl]
  rfl

section ChipRead

variable {n : SlotId} {offset : BitVec 16} {count : Nat}

theorem chipRead_bad (hb : count = 0 ∨ 16 < count ∨ 65536 < offset.toNat + 4 * count) (y : Sys) :
    chipReadWork n offset count y = (y, 6, []) :=
  if_pos (by simpa [or_assoc] using hb)

/-- A read in bounds, by presence and by the bus. -/
theorem chipRead_bounds (h1 : 1 ≤ count) (h2 : count ≤ 16) (h3 : offset.toNat + 4 * count ≤ 65536) (y : Sys) :
    chipReadWork n offset count y =
      if !y.tray.bays[n].present then (y, 9, [])
      else if offset.toNat % 4 != 0 || !onBus y.tray n then (y, 10, [])
      else if n != y.chip.fab.slot then let r := foreignWords count y; (r.2, 0, r.1)
      else let r := targetReads offset.toNat count (addressTwice y); (r.2, 0, r.1) :=
  if_neg (by simp; omega)

theorem onBus_present (h : onBus t n = true) : t.bays[n].present = true := by
  unfold onBus at h
  rw [Bool.and_eq_true, Bool.and_eq_true, Bool.and_eq_true] at h
  obtain ⟨⟨⟨hp, -⟩, -⟩, -⟩ := h
  exact hp

theorem chipRead_off (h1 : 1 ≤ count) (h2 : count ≤ 16) (h3 : offset.toNat + 4 * count ≤ 65536)
    (hp : y.tray.bays[n].present = true) (ho : offset.toNat % 4 ≠ 0 ∨ onBus y.tray n = false) :
    chipReadWork n offset count y = (y, 10, []) := by
  rw [chipRead_bounds h1 h2 h3, if_neg (by simpa using hp), if_pos (by simpa using ho)]

/-- An aligned read on the bus. -/
theorem chipRead_on (h1 : 1 ≤ count) (h2 : count ≤ 16) (h3 : offset.toNat + 4 * count ≤ 65536)
    (ho : offset.toNat % 4 = 0) (hb : onBus y.tray n = true) : chipReadWork n offset count y =
      if n != y.chip.fab.slot then let r := foreignWords count y; (r.2, 0, r.1)
      else let r := targetReads offset.toNat count (addressTwice y); (r.2, 0, r.1) := by
  rw [chipRead_bounds h1 h2 h3, if_neg (by simpa using onBus_present hb), if_neg (by simp [ho, hb])]

theorem length_foreignWords (count : Nat) (y : Sys) : (foreignWords count y).1.length = 4 * count := by
  simp [foreignWords, List.length_flatMap, Nat.mul_comm]

theorem gives_chipRead_own (hrun : s.sys.tray.card.running = true) (hid : h.reqId ≠ 0)
    (h3 : offset.toNat + 4 * 1 ≤ 65536) (ho : offset.toNat % 4 = 0) (hb : onBus s.sys.tray n = true) (hn : n = s.ownSlot)
    (hr : s.sys.chip.pwr.retention = false) (hl : s.sys.chip.pwr.lowIdle = false) :
    Gives (onBoard (tmpRead h 0x70 (chipReadWork n offset 1)) s) fun u => keepsMemory s u ∧
      Replied h 0x70 0 (leBytes 4 (readReg { s.sys.chip with mgt := { s.sys.chip.mgt with wakeLast := 0 } }
        offset.toNat).toNat) s u ∧
      u.sys.tray.orders = s.sys.tray.orders ∧ u.sys.tray.log = s.sys.tray.log := by
  have hown : ¬(n != s.sys.chip.fab.slot) = true := by
    rw [hn]
    simp [State.ownSlot]
  have heq := (chipRead_on (Nat.le_refl 1) (by omega) h3 ho hb).trans (if_neg hown)
  rw [addressTwice_awake hr hl] at heq
  unfold targetReads targetRead at heq
  unfold targetReads at heq
  dsimp only at heq
  rw [List.append_nil] at heq
  exact gives_told hrun hid heq rfl rfl

end ChipRead

/-! The cable modules. -/

section Cages

variable {c : CageId}

theorem cableInfo_none (hm : y.tray.cages[c].module = none) : cableInfo c.val y = (y, 9, []) := by
  unfold cableInfo
  rw [Vector.getElem?_eq_getElem c.isLt]
  dsimp only
  rw [show y.tray.cages[c.val].module = none from hm]

theorem cableInfo_some {m : Cmis} (hm : y.tray.cages[c].module = some m) : cableInfo c.val y = (y, 0,
    leBytes 1 (mediaCode m.media) ++ leBytes 2 m.lengthCm ++ leBytes 1 m.powerClass ++
      leBytes 1 (bit y.tray.cages[c].lowPower 0)) := by
  unfold cableInfo
  rw [Vector.getElem?_eq_getElem c.isLt]
  dsimp only
  rw [show y.tray.cages[c.val].module = some m from hm]
  rfl

theorem cableInfo_bad {cage : Nat} (hc : 64 ≤ cage) : cableInfo cage y = (y, 6, []) := by
  unfold cableInfo
  rw [Vector.getElem?_eq_none hc]
  rfl

end Cages

end Reads

end Sys2Proof.Machine
end

section
/-! PROOFS. The TMC's acknowledgements, chip writes, restarts, address, scans and log records (O58). -/

namespace Sys2Proof.Machine

section Commands

variable {h : TmpHdr} {s : State} {y z : Sys} {t : Tray} {f : TmpWork} {command status now : Nat} {payload : List Byte}

/-! FAULT_ACK. -/

theorem ackSource_acked (x : Source) (hs : (ackSource x).status = true) : (ackSource x).acked = true := by
  unfold ackSource settle at hs ⊢
  split
  · rename_i hx
    rw [if_pos hx] at hs
    split
    · rename_i hc
      rw [if_pos hc] at hs
      exact absurd hs (by simp [clearLatch])
    · rfl
  · rename_i hx
    rw [if_neg hx] at hs
    exact absurd hs hx

/-- Which bit of a FAULT_ACK's mask names a source. -/
theorem faultAck_src (k : Collector) (mask : Dword) (i : SourceId) :
    ((k.ack false (lowWord mask)).ack true (highWord mask)).src[i] =
      if mask.getLsbD i.val = true then ackSource k.src[i] else k.src[i] := by
  rw [Collector.ack_src, Collector.ack_src]
  by_cases hi : 32 ≤ i.val
  · have hbit : (highWord mask).toNat.testBit (i.val % 32) = mask.getLsbD i.val := by
      have hlt := i.isLt
      rw [show i.val % 32 = i.val - 32 by omega, highWord, BitVec.toNat_ofNat, Nat.testBit_mod_two_pow,
        decide_eq_true (by omega), Bool.true_and, Nat.testBit_div_two_pow, show i.val - 32 + 32 = i.val by omega]
      rfl
    simp [hi, hbit]
  · have hbit : (lowWord mask).toNat.testBit (i.val % 32) = mask.getLsbD i.val := by
      rw [show i.val % 32 = i.val by omega, lowWord, BitVec.toNat_ofNat, Nat.mod_mod, Nat.testBit_mod_two_pow,
        decide_eq_true (by omega), Bool.true_and]
      rfl
    simp [hi, hbit]

theorem logCommand_requesters (target arg : Nat) (t : Tray) :
    (logCommand h status target arg now t).requesters = t.requesters := rfl

theorem logCommand_fc (target arg : Nat) (t : Tray) : (logCommand h status target arg now t).fc = t.fc := rfl

theorem gives_faultAck (hx : executes h s.sys = true) (mask : Dword) : Gives (exec (.faultAck h mask) s) fun u =>
    keepsMemory s u ∧ u.sys.chip = s.sys.chip ∧ Replied h 0x51 0 [] s u ∧ Noted h 0x51 0 [] u ∧ ∀ i : SourceId,
      (mask.getLsbD i.val = true → u.sys.tray.fc.src[i].status = true → u.sys.tray.fc.src[i].acked = true) ∧
      (mask.getLsbD i.val = false → u.sys.tray.fc.src[i].status = s.sys.tray.fc.src[i].status ∧
        u.sys.tray.fc.src[i].acked = s.sys.tray.fc.src[i].acked) := by
  have hz : faultAck h mask s.sys = (s.sys.onTray fun t => logCommand h 0 (lowestSource mask) 0 s.sys.now
    { t with fc := (t.fc.ack false (lowWord mask)).ack true (highWord mask) }, 0, []) := rfl
  rw [exec_faultAck, execFaultAck]
  refine gives_done_tray (P := fun u => ∀ i : SourceId,
    (mask.getLsbD i.val = true → u.fc.src[i].status = true → u.fc.src[i].acked = true) ∧
    (mask.getLsbD i.val = false → u.fc.src[i].status = s.sys.tray.fc.src[i].status ∧
      u.fc.src[i].acked = s.sys.tray.fc.src[i].acked)) hx hz ?_ fun u ha i => ?_
  · rw [logCommand_requesters]
  have hl := ha.latches
  rw [Sys.onTray_tray, logCommand_fc] at hl
  dsimp only at hl
  rw [hl.status i, hl.acked i, faultAck_src]
  refine ⟨fun hm => ?_, fun hm => ?_⟩
  · rw [if_pos hm]
    exact ackSource_acked _
  · rw [if_neg (ne_true_of_eq_false hm)]
    exact ⟨rfl, rfl⟩

/-! CHIP_WRITE. -/

theorem sendMsix_tray (v : Fin 33) (y : Sys) : (sendMsix v y).tray = y.tray := by
  obtain ⟨vs, os, h⟩ := sendMsix_eq (y := y) v
  rw [h]

theorem ite_tray {p : Prop} [Decidable p] {a b : Sys} (ha : a.tray = t) (hb : b.tray = t) : (if p then a else b).tray = t := by
  split
  · exact ha
  · exact hb

theorem checkThresh_tray (q : QpId) (y : Sys) : (checkThresh q y).tray = y.tray := by
  unfold checkThresh fireQp
  refine ite_tray ?_ rfl
  cases finOf 33 q.val with
  | none => rfl
  | some v => exact sendMsix_tray ..

theorem writeQp_tray (q : QpId) (r : Nat) (v : Word) (y : Sys) : (writeQp q r v y).tray = y.tray := by
  unfold writeQp
  split
  case h_6 => exact checkThresh_tray ..
  all_goals rfl

theorem writeMsix_tray (i : Fin 33) (r : Nat) (v : Word) (y : Sys) : (writeMsix i r v y).tray = y.tray := by
  unfold writeMsix
  split
  case h_4 => exact ite_tray (sendMsix_tray ..) rfl
  all_goals rfl

theorem writeHif_tray (o : Nat) (v : Word) (y : Sys) : (writeHif o v y).tray = y.tray := by
  unfold writeHif
  refine ite_tray ?_ (ite_tray ?_ rfl)
  · cases finOf 32 ((o - 0x100) / 0x20) with
    | none => rfl
    | some q => exact writeQp_tray ..
  · cases finOf 33 ((o - 0x800) / 16) with
    | none => rfl
    | some i => exact writeMsix_tray ..

theorem writeFab_tray (o : Nat) (v : Word) (y : Sys) : (writeFab o v y).tray = y.tray := by
  unfold writeFab
  cases finOf 8 (o / 0x200) with
  | none => rfl
  | some p =>
    refine ite_tray ?_ (ite_tray (Sys.onChip_tray ..) (Sys.onChip_tray ..))
    rw [Sys.onChip_tray]
    unfold writeTrayIndex
    exact ite_tray rfl (ite_tray (Sys.onChip_tray ..) (Sys.onChip_tray ..))

/-- A register write of the chip leaves the tray. -/
theorem writeReg_tray (o : Nat) (v : Word) (y : Sys) : (writeReg o v y).tray = y.tray := by
  unfold writeReg
  have hchip (f : Chip → Chip) : (y.onChip f).tray = y.tray := Sys.onChip_tray ..
  exact ite_tray (writeHif_tray ..) (ite_tray (hchip _) (ite_tray (hchip _) (ite_tray (hchip _) (ite_tray
    (writeFab_tray ..) (ite_tray (hchip _) (ite_tray (hchip _) (ite_tray (hchip _) (ite_tray (hchip _) rfl))))))))

section ChipWrite

variable {n : SlotId} {offset : BitVec 16} {value : Word}

theorem chipWrite_absent (hp : y.tray.bays[n].present = false) : chipWriteWork h n offset value y = (y, 9, []) :=
  if_pos (by rw [hp]; rfl)

theorem chipWrite_on (ho : offset.toNat % 4 = 0) (hb : onBus y.tray n = true) : chipWriteWork h n offset value y =
    ((if n == y.chip.fab.slot then writeReg offset.toNat value (addressTwice y) else y).onTray
      (logCommand h 0 (2 ^ n.val) 0 (if n == y.chip.fab.slot then writeReg offset.toNat value (addressTwice y) else y).now),
      0, []) := by
  unfold chipWriteWork
  rw [if_neg (by simpa using onBus_present hb), if_neg (by simp [ho, hb])]

theorem gives_chipWrite_absent (hx : executes h s.sys = true) (hp : s.sys.tray.bays[n].present = false) :
    Gives (exec (.chipWrite h n offset value) s) fun u => keepsMemory s u ∧ u.sys.chip = s.sys.chip ∧
      Replied h 0x71 9 [] s u ∧ Noted h 0x71 9 [] u := by
  rw [exec_chipWrite, execChipWrite]
  obtain ⟨u, hu, hm, hc, hr, hn, -⟩ := gives_refused (P := fun _ => True) (command := 0x71) hx
    (chipWrite_absent (h := h) (offset := offset) (value := value) hp) fun _ _ => trivial
  exact ⟨u, hu, hm, hc, hr, hn⟩

theorem gives_chipWrite_other (hx : executes h s.sys = true) (hn : n ≠ s.ownSlot) (hb : onBus s.sys.tray n = true)
    (ho : offset.toNat % 4 = 0) : Gives (exec (.chipWrite h n offset value) s) fun u => keepsMemory s u ∧
      u.sys.chip = s.sys.chip ∧ Replied h 0x71 0 [] s u ∧ Noted h 0x71 0 [] u := by
  have hz := chipWrite_on (h := h) (value := value) ho hb
  rw [if_neg (by simpa [State.ownSlot] using hn)] at hz
  rw [exec_chipWrite, execChipWrite]
  obtain ⟨u, hu, hm, hc, hr, hn, -⟩ := gives_done_tray (P := fun _ => True) (command := 0x71) hx hz rfl fun _ _ => trivial
  exact ⟨u, hu, hm, hc, hr, hn⟩

theorem gives_chipWrite_own (hx : executes h s.sys = true) (hn : n = s.ownSlot) (hb : onBus s.sys.tray n = true)
    (ho : offset.toNat % 4 = 0) (hr : s.sys.chip.pwr.retention = false) (hl : s.sys.chip.pwr.lowIdle = false) :
    Gives (exec (.chipWrite h n offset value) s) fun u => keepsMemory s u ∧ Replied h 0x71 0 [] s u ∧
      Noted h 0x71 0 [] u ∧ u.sys.chip = (writeReg offset.toNat value { s.sys with
        chip := { s.sys.chip with mgt := { s.sys.chip.mgt with wakeLast := 0 } } }).chip := by
  have hz := chipWrite_on (h := h) (value := value) ho hb
  rw [if_pos (by simp [hn, State.ownSlot]), addressTwice_awake hr hl] at hz
  rw [exec_chipWrite, execChipWrite]
  obtain ⟨more, hmore⟩ := (moves_writeReg offset.toNat value s.sys.addressed).out
  have htray : (writeReg offset.toNat value s.sys.addressed).tray.requesters = s.sys.tray.requesters := by
    rw [writeReg_tray]
    rfl
  obtain ⟨u, hu, ha, hnoted⟩ := gives_executed (command := 0x71) hx hz ⟨more, hmore.symm⟩ htray
  exact ⟨u, hu, ha.memory, ha.replied, hnoted, ha.chip⟩

end ChipWrite

/-! TMC_RESTART. -/

theorem resetCard_card (now : Nat) (t : Tray) : (resetCard now t).card = { t.card with
    running := false
    notices := []
    bootCount := t.card.bootCount + 1
    bootAt := now
    servedAt := none
    mailbox := Mailbox.reset } := by
  obtain ⟨orders, log, h⟩ := foldl_applyOff (now := now) t.card.notices t
  unfold resetCard
  rw [h]
  rfl

theorem gives_restartRefused {k : Word} (hx : executes h s.sys = true) (hk : k ≠ s.sys.tray.card.bootCount) :
    Gives (exec (.tmcRestart h k) s) fun u => Replied h 0x04 11 [] s u ∧ u.sys.tray.card.running = true ∧
      u.sys.tray.card.bootCount = s.sys.tray.card.bootCount := by
  have heq : exec (.tmcRestart h k) s = onBoard (tmpCommand h 0x04 (tmcRestart h k)) s := by
    rw [exec_tmcRestart, execTmcRestart, onBoard_eq, onBoard_eq, if_neg (by simp [hk])]
  obtain ⟨u, hu, ha, -⟩ := gives_executed (command := 0x04) (f := tmcRestart h k) hx (if_neg (by simpa using hk))
    ⟨[], (List.append_nil _).symm⟩ rfl
  rw [heq]
  exact ⟨u, hu, ha.replied, ha.running.trans (executes_iff.mp hx).1, ha.bootCount⟩

/-- The tray as the card's restart leaves it, from a card that a reply has passed. -/
theorem cardReset_fields (now : Nat) (t : Tray) (frame : List Byte) (u : Tray) (hu : u.card = t.card.answered h frame) :
    (cardReset now u).card.running = false ∧ (cardReset now u).card.bootCount = t.card.bootCount + 1 ∧
    (cardReset now u).card.notices = [] ∧ (cardReset now u).card.mailbox = Mailbox.reset := by
  unfold cardReset
  rw [Tray.ownerReset_card, resetCard_card, hu]
  exact ⟨rfl, congrArg (· + 1) (answered_bootCount ..), rfl, rfl⟩

theorem gives_restart (hx : executes h s.sys = true) : Gives (exec (.tmcRestart h s.sys.tray.card.bootCount) s) fun u =>
    (∃ sent, u.sys.out = s.sys.out ++ sent ∧ .tmp h.inlet (replyFrame h 0x04 0 []) ∈ sent) ∧
    u.sys.tray.card.running = false ∧ u.sys.tray.card.bootCount = s.sys.tray.card.bootCount + 1 ∧
    u.sys.tray.card.notices = [] ∧ u.sys.tray.card.mailbox = Mailbox.reset := by
  have hwork : tmcRestart h s.sys.tray.card.bootCount s.sys = (s.sys.onTray (logCommand h 0 0 0 s.sys.now), 0, []) :=
    if_pos (by simp)
  have hcmd : tmpCommand h 0x04 (tmcRestart h s.sys.tray.card.bootCount) s.sys = sendReply h (replyFrame h 0x04 0 [])
      ((s.sys.onTray (logCommand h 0 0 0 s.sys.now)).onTray (noteRequest h (some (replyFrame h 0x04 0 [])))) := by
    rw [tmpCommand_executes hx]
    unfold tmpRun
    rw [hwork]
    rfl
  obtain ⟨sent, hsent, heq⟩ := sendReply_eq h (replyFrame h 0x04 0 [])
    ((s.sys.onTray (logCommand h 0 0 0 s.sys.now)).onTray (noteRequest h (some (replyFrame h 0x04 0 []))))
  rw [exec_tmcRestart, execTmcRestart, onBoard_eq]
  dsimp only
  rw [if_pos (by simp [hx]), hcmd, heq]
  obtain ⟨hrun, hboot, hnot, hmb⟩ := cardReset_fields (h := h) s.sys.now s.sys.tray (replyFrame h 0x04 0 [])
    (((s.sys.onTray (logCommand h 0 0 0 s.sys.now)).onTray (noteRequest h (some (replyFrame h 0x04 0 [])))).tray.onCard
      (Card.answered h (replyFrame h 0x04 0 []))) rfl
  refine ⟨_, rfl, ⟨sent, ?_, hsent⟩, ?_, ?_, ?_, ?_⟩
  · rw [settleTray_out]
    rfl
  all_goals rw [settleTray_card]
  · exact hrun
  · exact hboot
  · exact hnot
  · exact hmb

end Commands

end Sys2Proof.Machine
end

section
/-! PROOFS. The TMC's address, its scans and its log records (O58), and the obligation. -/

namespace Sys2Proof.Machine

section Events

variable {h : TmpHdr} {s : State} {y : Sys} {t : Tray} {now : Nat}

/-! The address. -/

theorem gives_dhcpLease (hrun : s.sys.tray.card.running = true) (hd : s.sys.tray.net.dhcp = true) (a : Word) :
    Gives (exec (.dhcpLease a) s) fun u => onlyTray s u ∧ u.sys.tray.net = { s.sys.tray.net with
      lease := true
      linkLocal := false
      address := a } := by
  rw [exec_dhcpLease, execDhcpLease, onTray_becomes (if_pos (by rw [hrun, hd]; rfl))]
  refine ⟨_, rfl, becomes_onlyTray _, ?_⟩
  rw [becomes_tray, settleTray_net]

/-- The link-local address with a free low half. -/
def linkLocal (free : Nat) : Word := BitVec.ofNat 32 (0xA9FE0000 + (Config.freeWord free).toNat % 65536)

theorem linkLocal_high (free : Nat) : (linkLocal free).toNat / 2 ^ 16 = 0xA9FE := by
  rw [linkLocal, BitVec.toNat_ofNat]
  omega

theorem execDhcpTimeout_eq (hrun : s.sys.tray.card.running = true) (hd : s.sys.tray.net.dhcp = true)
    (hl : s.sys.tray.net.lease = false) (hll : s.sys.tray.net.linkLocal = false) : execDhcpTimeout s =
      .next { s with sys := settleTray ((s.sys.await (s.sys.tray.card.bootAt + Config.sec 10)).fresh.2.onTray fun t =>
        { t with net := { t.net with
          linkLocal := true
          address := linkLocal (s.sys.await (s.sys.tray.card.bootAt + Config.sec 10)).fresh.1 } }) } := by
  unfold execDhcpTimeout
  rw [onBoard_eq]
  dsimp only
  rw [if_pos (by rw [hrun, hd, hl, hll]; rfl)]
  rfl

theorem gives_linkLocal (due : Nat) (a : Word) (ha : a.toNat / 2 ^ 16 = 0xA9FE) (hl : s.sys.tray.net.lease = false) :
    Gives (.next { s with sys := settleTray ((s.sys.await due).fresh.2.onTray fun t => { t with net := { t.net with
      linkLocal := true
      address := a } }) }) fun u => keepsMemory s u ∧ due ≤ u.sys.now ∧ u.sys.tray.net.linkLocal = true ∧
        u.sys.tray.net.lease = false ∧ u.sys.tray.net.address.toNat / 2 ^ 16 = 0xA9FE := by
  refine ⟨_, rfl, ⟨rfl, rfl⟩, ?_, ?_⟩
  · rw [settleTray_now]
    exact le_await ..
  · rw [settleTray_net, Sys.onTray_tray]
    refine ⟨rfl, ?_, ha⟩
    change (s.sys.await due).tray.net.lease = false
    rw [await_tray, hl]

theorem gives_dhcpTimeout (hrun : s.sys.tray.card.running = true) (hd : s.sys.tray.net.dhcp = true)
    (hl : s.sys.tray.net.lease = false) (hll : s.sys.tray.net.linkLocal = false) :
    Gives (exec .dhcpTimeout s) fun u => keepsMemory s u ∧ s.sys.tray.card.bootAt + Config.sec 10 ≤ u.sys.now ∧
      u.sys.tray.net.linkLocal = true ∧ u.sys.tray.net.lease = false ∧
      u.sys.tray.net.address.toNat / 2 ^ 16 = 0xA9FE := by
  rw [exec_dhcpTimeout, execDhcpTimeout_eq hrun hd hl hll]
  exact gives_linkLocal _ _ (linkLocal_high _) hl

/-! The scans. -/

theorem noteReading_sensors (p : Nat) (v : Int) (t : Tray) : (noteReading p v t).sensors = t.sensors := by
  unfold noteReading
  split
  · cases finOf 16 (p / 10) <;> rfl
  split
  · cases finOf 8 (p - 176) <;> rfl
  split
  · dsimp only
    split <;> rfl
  split <;> rfl

theorem gives_sensorScan {critical : Bool} {p : Fin 212} (hs : scans s.sys.tray critical p.val = true) (v : Int) :
    Gives (exec (.sensorScan critical [(p, v)]) s) fun u => onlyTray s u ∧
      u.sys.tray.sensors = s.sys.tray.sensors.set p ⟨v, s.sys.now, true⟩ := by
  have htake : takeReading critical s.sys.now s.sys.tray (p, v) =
      noteReading p.val v (putReading p v s.sys.now s.sys.tray) := if_pos hs
  rw [exec_sensorScan, execSensorScan, onTray_becomes htake]
  refine ⟨_, rfl, becomes_onlyTray _, ?_⟩
  rw [becomes_tray, settleTray_sensors, noteReading_sensors]
  unfold putReading
  dsimp only

theorem sensorScan_skips {critical : Bool} {p : Fin 212} (hs : scans s.sys.tray critical p.val = false) (v : Int) :
    exec (.sensorScan critical [(p, v)]) s = .next s.settled := by
  have htake : takeReading critical s.sys.now s.sys.tray (p, v) = s.sys.tray := if_neg (ne_true_of_eq_false hs)
  rw [exec_sensorScan, execSensorScan]
  exact onTray_same htake

/-! The log. -/

theorem appendRec_room {t : Tray} (hlen : t.log.length < 32768) (r : LogRec) : t.appendRec r = { t with
    log := t.log ++ [{ r with number := t.logHead }]
    logHead := (t.logHead + 1) % 2 ^ 32 } := by
  unfold Tray.appendRec
  dsimp only
  rw [List.length_append, List.length_singleton, Nat.sub_eq_zero_of_le (by omega), List.drop_zero]

/-- The tray with the record of a completed action. -/
def recorded (p : LogPending) (t : Tray) : Tray :=
  Tray.appendRec { p.record with after := p.record.points.map t.reading } { t with logPending := t.logPending.erase p }

theorem recorded_log {t : Tray} (hlen : t.log.length < 32768) (p : LogPending) : (recorded p t).log = t.log ++
    [{ p.record with
      number := t.logHead
      after := p.record.points.map t.reading }] := by
  unfold recorded
  rw [appendRec_room (by exact hlen)]

theorem recorded_logHead (p : LogPending) (t : Tray) : (recorded p t).logHead = (t.logHead + 1) % 2 ^ 32 := rfl

theorem gives_record {due : Nat} {p : LogPending} (hlen : s.sys.tray.log.length < 32768) :
    Gives (.next { s with sys := settleTray ((s.sys.await due).onTray (recorded p)) }) fun u =>
      keepsMemory s u ∧ due ≤ u.sys.now ∧ u.sys.tray.logHead = (s.sys.tray.logHead + 1) % 2 ^ 32 ∧
      u.sys.tray.log = s.sys.tray.log ++ [{ p.record with
        number := s.sys.tray.logHead
        after := p.record.points.map s.sys.tray.reading }] := by
  refine ⟨_, rfl, ⟨rfl, rfl⟩, ?_, ?_, ?_⟩
  · rw [settleTray_now, Sys.onTray_now]
    exact le_await ..
  · rw [settleTray_logHead, Sys.onTray_tray, await_tray, recorded_logHead]
  · rw [settleTray_log, Sys.onTray_tray, await_tray, recorded_log hlen]

theorem gives_logRecordWrite {due : Nat} {p : LogPending} (hn : nextRecord s.sys.tray = some (due, p))
    (hrun : s.sys.tray.card.running = true) (hlen : s.sys.tray.log.length < 32768) :
    Gives (exec .logRecordWrite s) fun u => keepsMemory s u ∧ due ≤ u.sys.now ∧
      u.sys.tray.logHead = (s.sys.tray.logHead + 1) % 2 ^ 32 ∧ u.sys.tray.log = s.sys.tray.log ++ [{ p.record with
        number := s.sys.tray.logHead
        after := p.record.points.map s.sys.tray.reading }] := by
  rw [exec_logRecordWrite, execLogRecordWrite, onBoard_eq, hn]
  dsimp only
  rw [if_pos hrun]
  exact gives_record hlen

end Events

/-- Settles O58, command by command. -/
theorem tmcRequestsAct : Obligations.TmcRequestsAct := by
  unfold Obligations.TmcRequestsAct
  dsimp only
  refine ⟨fun s h hrun hid => ⟨fun first count => ⟨fun hb => ?_, fun h1 h2 h3 => ?_⟩, fun number count =>
      ⟨fun hb => ?_, fun h1 h2 hr => ?_⟩, fun n offset count => ⟨fun hb => ?_, fun h1 h2 h3 =>
      ⟨fun hp => ?_, fun hp ho => ?_, fun ho hb => ⟨fun hn => ?_, fun hn h4 hr hl => ?_⟩⟩⟩, fun cage =>
      ⟨fun hc => ?_, fun c hc => ⟨fun hm => ?_, fun m hm => ?_⟩⟩⟩,
    fun s h => ⟨fun hx => ⟨fun mask => gives_faultAck hx mask, fun n offset value => ⟨fun hp => gives_chipWrite_absent hx hp,
      fun hn hb ho hr hl => gives_chipWrite_own hx hn hb ho hr hl, fun hn hb ho => gives_chipWrite_other hx hn hb ho⟩,
      fun k => ⟨fun hk => gives_restartRefused hx hk, fun hk => ?_⟩⟩, fun hrun hd => ⟨fun a => gives_dhcpLease hrun hd a,
      fun hl hll => gives_dhcpTimeout hrun hd hl hll⟩, fun critical p v => ⟨fun hs => gives_sensorScan hs v,
      fun hs => sensorScan_skips hs v⟩, fun due p hn hrun hlen => gives_logRecordWrite hn hrun hlen⟩⟩
  · rw [exec_sensorRead, execSensorRead]
    exact gives_told hrun hid (sensorRead_bad hb s.sys) rfl rfl
  · obtain ⟨payload, hg, hlen, hval⟩ := gives_sensorRead hrun hid h1 h2 h3
    exact ⟨payload, hg, hlen, hval⟩
  · rw [exec_logRead, execLogRead]
    exact gives_told hrun hid (logRead_bad hb) rfl rfl
  · rw [exec_logRead, execLogRead]
    exact gives_told hrun hid (logRead_ok h1 h2 hr) rfl rfl
  · rw [exec_chipRead, execChipRead]
    exact gives_told hrun hid (chipRead_bad hb s.sys) rfl rfl
  · rw [exec_chipRead, execChipRead]
    exact gives_told hrun hid ((chipRead_bounds h1 h2 h3 s.sys).trans (if_pos (by rw [hp]; rfl))) rfl rfl
  · rw [exec_chipRead, execChipRead]
    exact gives_told hrun hid (chipRead_off h1 h2 h3 hp ho) rfl rfl
  · refine ⟨(foreignWords count s.sys).1, length_foreignWords .., ?_⟩
    rw [exec_chipRead, execChipRead]
    exact gives_told hrun hid ((chipRead_on h1 h2 h3 ho hb).trans (if_pos (by simpa [State.ownSlot] using hn))) rfl rfl
  · subst h4
    rw [exec_chipRead, execChipRead]
    exact gives_chipRead_own hrun hid h3 ho hb hn hr hl
  · rw [exec_cableInfo, execCableInfo]
    exact gives_told hrun hid (cableInfo_bad hc) rfl rfl
  · rw [exec_cableInfo, execCableInfo, ← hc]
    exact gives_told hrun hid (cableInfo_none hm) rfl rfl
  · rw [exec_cableInfo, execCableInfo, ← hc]
    exact gives_told hrun hid (cableInfo_some hm) rfl rfl
  · subst hk
    exact gives_restart hx

end Sys2Proof.Machine
end

section
/-! PROOFS. The base board's reset and the first rise of the input (O59), and a recovery of a two-wire bus. -/

namespace Sys2Proof.Machine

section Boot

variable {s : State} {y : Sys} {t : Tray} {now : Nat} {b : BusId}

/-! A recovery. -/

/-- A controller after a recovery, with the free values of its lines. -/
def recovered (b : BusId) (now free : Nat) (x : Twi) : Twi :=
  let scl := x.sclLow && Config.freeBool free
  let sda := x.sdaLow && Config.freeBool (free + 1)
  let x := { x with
    sclLow := scl
    sdaLow := sda
    channels := if b.val == 2 || b.val == 3 then Vector.replicate 4 0 else x.channels }
  if scl || sda then { x with
    result := 5
    retryAt := some now } else { x with retryAt := none }

theorem recoverBus_eq (b : BusId) (y : Sys) : recoverBus b y = { y with
    free := y.free + 2
    tray := y.tray.onTwi b (recovered b y.now y.free) } := rfl

theorem recovered_kept (b : BusId) (now free : Nat) (x : Twi) : (recovered b now free x).busy = x.busy ∧
    (recovered b now free x).speed = x.speed := by
  unfold recovered
  dsimp only
  split <;> exact ⟨rfl, rfl⟩

theorem foldl_recoverBus (l : List BusId) (y : Sys) : ∃ twi free, l.foldl (fun y b => recoverBus b y) y = { y with
    free := free
    tray := { y.tray with twi := twi } } ∧
    ∀ b : BusId, twi[b].busy = y.tray.twi[b].busy ∧ twi[b].speed = y.tray.twi[b].speed := by
  induction l generalizing y with
  | nil => exact ⟨y.tray.twi, y.free, rfl, fun b => ⟨rfl, rfl⟩⟩
  | cons a l ih =>
    obtain ⟨twi, free, heq, hall⟩ := ih (recoverBus a y)
    rw [List.foldl_cons, heq]
    refine ⟨twi, free, rfl, fun b => ?_⟩
    obtain ⟨hbusy, hspeed⟩ := hall b
    rw [hbusy, hspeed, recoverBus_eq]
    by_cases hb : b = a
    · subst hb
      rw [Tray.onTwi_same]
      exact recovered_kept ..
    · rw [Tray.onTwi_other _ hb]
      exact ⟨rfl, rfl⟩

/-! The tray from its reset. -/

/-- What the base board's reset makes of a tray, before a bay's power comes. -/
structure Booted (now : Nat) (t u : Tray) : Prop where
  input : u.input = .unqualified
  inputAt : u.inputAt = now
  bbu : u.bbu = foundBbu t
  orders : u.orders = Tray.reset.orders
  demands : u.demands = Tray.reset.demands
  log : u.log = t.log
  logHead : u.logHead = t.logHead
  autoSlots : u.autoSlots = t.autoSlots
  trayZ : u.trayZ = t.trayZ
  trayW : u.trayW = t.trayW
  trayValid : u.trayValid = t.trayValid
  requesters : u.requesters = t.requesters
  running : u.card.running = false
  present : u.card.present = t.card.present
  bays : ∀ n : SlotId, u.bays[n].present = t.bays[n].present ∧ u.bays[n].leak = t.bays[n].wet
  twi : ∀ b : BusId, u.twi[b].busy = false ∧ u.twi[b].speed = 1
  clear : ∀ i : SourceId, u.fc.src[i].status = false

theorem Booted.settles {u : Sys} (h : Booted now t u.tray) : Booted now t (settleTray u).tray where
  input := by rw [settleTray_input, h.input]
  inputAt := by rw [settleTray_inputAt, h.inputAt]
  bbu := by rw [settleTray_bbu, h.bbu]
  orders := by rw [settleTray_orders, h.orders]
  demands := by rw [settleTray_demands, h.demands]
  log := by rw [settleTray_log, h.log]
  logHead := by rw [settleTray_logHead, h.logHead]
  autoSlots := by rw [settleTray_autoSlots, h.autoSlots]
  trayZ := by rw [settleTray_trayZ, h.trayZ]
  trayW := by rw [settleTray_trayW, h.trayW]
  trayValid := by rw [settleTray_trayValid, h.trayValid]
  requesters := by rw [settleTray_requesters, h.requesters]
  running := by rw [settleTray_card, h.running]
  present := by rw [settleTray_card, h.present]
  bays := fun n => by
    rw [settleTray_bay]
    exact h.bays n
  twi := fun b => by
    rw [settleTray_twi]
    exact h.twi b
  clear := fun i => by
    rw [settleTray_fc, (errFollowed_latches u).status, h.clear i]

theorem bootTray_bay (now : Nat) (t : Tray) (n : SlotId) : (bootTray now t).bays[n] = { t.bays[n] with
    leak := t.bays[n].wet
    buttonTmc := false } := by
  simp [bootTray]

theorem bootTray_twi (now : Nat) (t : Tray) (b : BusId) : (bootTray now t).twi[b].busy = false ∧
    (bootTray now t).twi[b].speed = 1 := by
  simp [bootTray, Twi.reset]

theorem trayDefault_clear (n : Nat) : (Source.trayDefault n).status = false := by
  unfold Source.trayDefault
  repeat' split
  all_goals rfl

theorem bootTray_clear (now : Nat) (t : Tray) (i : SourceId) : (bootTray now t).fc.src[i].status = false := by
  simp [bootTray, Collector.reset, trayDefault_clear]

theorem booted_boardReset (y : Sys) : ∃ fc twi free, boardReset y = { y with
    free := free
    tray := { bootTray y.now y.tray with
      fc := fc
      twi := twi } } ∧ Booted y.now y.tray { bootTray y.now y.tray with
        fc := fc
        twi := twi } := by
  obtain ⟨fc, hfc, hsame, -⟩ := settleLeak_eq y.now (bootTray y.now y.tray)
  obtain ⟨twi, free, heq, htwi⟩ := foldl_recoverBus (List.finRange 6) (y.onTray fun t => settleLeak y.now (bootTray y.now t))
  rw [Sys.onTray_tray, hfc] at htwi
  refine ⟨fc, twi, free, ?_, ?_⟩
  · unfold boardReset
    rw [heq, Sys.onTray_tray, hfc]
    rfl
  · constructor
    case bays =>
      intro n
      have hbay := bootTray_bay y.now y.tray n
      dsimp only
      rw [hbay]
      exact ⟨rfl, rfl⟩
    case twi =>
      intro b
      obtain ⟨hbusy, hspeed⟩ := htwi b
      obtain ⟨hidle, hone⟩ := bootTray_twi y.now y.tray b
      dsimp only at hbusy hspeed ⊢
      rw [hbusy, hspeed, hidle, hone]
      exact ⟨rfl, rfl⟩
    case clear =>
      intro i
      dsimp only
      rw [hsame.status i, bootTray_clear]
    all_goals rfl

/-! VRET over a reset. -/

theorem foundBbu_carries (h : t.bbu = .carrying ∨ t.bbu = .charging ∨ t.bbu = .ready) {u : Tray} (hu : u.bbu = foundBbu t) :
    u.vrbUp = true := by
  unfold Tray.vrbUp
  rw [hu]
  rcases h with h | h | h <;> simp [foundBbu, h]

/-- A reset on the supply: what it makes of the tray, memory kept while the battery feeds it. -/
theorem gives_booted {f : Sys → Sys} {P : Tray → Prop} (hecc : (f s.sys).ecc = s.sys.ecc)
    (hb : Booted s.sys.now s.sys.tray (f s.sys).tray) (hQ : P (f s.sys).tray)
    (hkeeps : ∀ y : Sys, P y.tray → P (settleTray y).tray) :
    Gives (onSupply f s) fun u => (u.pending = s.pending ∧
      (s.sys.tray.bbu = .carrying ∨ s.sys.tray.bbu = .charging ∨ s.sys.tray.bbu = .ready → u.mem = s.mem)) ∧
      Booted s.sys.now s.sys.tray u.sys.tray ∧ (∀ n : SlotId, u.sys.tray.bays[n].cpc.pwrEn = false) ∧ P u.sys.tray := by
  obtain ⟨u, hu, ⟨hpend, hkept, -⟩, hP⟩ := gives_onSupply (f := f)
    (Q := fun u => Booted s.sys.now s.sys.tray u ∧ P u)
    (P := fun u => Booted s.sys.now s.sys.tray u ∧ (∀ n : SlotId, u.bays[n].cpc.pwrEn = false) ∧ P u)
    (kept := ¬vretFalls s.sys (settleTray (f s.sys)) = true) hecc not_not.symm ⟨hb, hQ⟩
    (fun y h => ⟨h.1.settles, hkeeps y h.2⟩) fun y h => ⟨h.1.settles, fun n => by
      rw [settleTray_cpc, setPwrEn_pwrEn]
      exact pwrEn_false (.inl (by simp [h.1.input])), hkeeps y h.2⟩
  refine ⟨u, hu, ⟨hpend, fun hbbu => (hkept ?_).1⟩, hP⟩
  rw [vretFalls_settle, foundBbu_carries hbbu hb.bbu]
  simp

theorem gives_baseBoardReset (s : State) : Gives (exec .baseBoardReset s) fun u => (u.pending = s.pending ∧
    (s.sys.tray.bbu = .carrying ∨ s.sys.tray.bbu = .charging ∨ s.sys.tray.bbu = .ready → u.mem = s.mem)) ∧
    Booted s.sys.now s.sys.tray u.sys.tray ∧ (∀ n : SlotId, u.sys.tray.bays[n].cpc.pwrEn = false) ∧
    ∀ n : SlotId, u.sys.tray.bays[n].cpc.rails = s.sys.tray.bays[n].cpc.rails := by
  obtain ⟨fc, twi, free, heq, hb⟩ := booted_boardReset s.sys
  rw [exec_baseBoardReset, execBaseBoardReset]
  refine gives_booted (P := fun u => ∀ n : SlotId, u.bays[n].cpc.rails = s.sys.tray.bays[n].cpc.rails) ?_ ?_ ?_
    fun y h n => ?_
  · rw [heq]
  · rw [heq]
    exact hb
  · intro n
    rw [heq]
    dsimp only
    rw [bootTray_bay]
  · rw [settleTray_cpc, setPwrEn_rails]
    exact h n

theorem powered_bay (now : Nat) (t : Tray) (n : SlotId) :
    { t with bays := t.bays.map (Bay.powerUp now) }.bays[n] = t.bays[n].powerUp now := by
  simp

/-- A reset's tray with power come to its bays. -/
theorem Booted.powered {u : Tray} (h : Booted now t u) (w : Nat) :
    Booted now t { u with bays := u.bays.map (Bay.powerUp w) } where
  input := h.input
  inputAt := h.inputAt
  bbu := h.bbu
  orders := h.orders
  demands := h.demands
  log := h.log
  logHead := h.logHead
  autoSlots := h.autoSlots
  trayZ := h.trayZ
  trayW := h.trayW
  trayValid := h.trayValid
  requesters := h.requesters
  running := h.running
  present := h.present
  bays := fun n => by
    rw [powered_bay]
    exact h.bays n
  twi := h.twi
  clear := h.clear

theorem gives_trayInputRise (s : State) : Gives (exec .trayInputRise s) fun u => (u.pending = s.pending ∧
    (s.sys.tray.bbu = .carrying ∨ s.sys.tray.bbu = .charging ∨ s.sys.tray.bbu = .ready → u.mem = s.mem)) ∧
    Booted s.sys.now s.sys.tray u.sys.tray ∧ (∀ n : SlotId, u.sys.tray.bays[n].cpc.pwrEn = false) ∧
    ∀ n : SlotId, u.sys.tray.bays[n].cpc.railsOff = true ∧ u.sys.tray.bays[n].cpc.valid = false ∧
      u.sys.tray.bays[n].cpc.seqFault = false := by
  obtain ⟨fc, twi, free, heq, hb⟩ := booted_boardReset s.sys
  rw [exec_trayInputRise, execTrayInputRise]
  refine gives_booted (P := fun u => ∀ n : SlotId, u.bays[n].cpc.railsOff = true ∧ u.bays[n].cpc.valid = false ∧
    u.bays[n].cpc.seqFault = false) ?_ ?_ ?_ fun y h n => ?_
  · rw [heq]
    rfl
  · rw [heq]
    exact hb.powered _
  · intro n
    rw [Sys.onTray_tray, powered_bay]
    refine ⟨?_, rfl, rfl⟩
    simp [Bay.powerUp, Cpc.reset, Cpc.railsOff]
  · obtain ⟨hoff, hvalid, hfault⟩ := h n
    rw [settleTray_cpc, setPwrEn_railsOff, setPwrEn_valid]
    exact ⟨hoff, hvalid, setPwrEn_seqFault_clear _ _ hfault⟩

end Boot

end Sys2Proof.Machine
end

section
/-! PROOFS. The watchdog and the card (O59). -/

namespace Sys2Proof.Machine

section Watchdog

variable {s : State} {y : Sys} {t : Tray} {now : Nat}

/-! A service. -/

theorem awaitReset_high (h : y.tray.card.resetLow = none) : awaitReset y = y := by
  unfold awaitReset settleWdt
  rw [h]
  dsimp only
  exact Sys.onTray_id (by rw [h])

/-- The card with an edge of the watchdog's line. -/
def Card.edge (now : Nat) (c : Card) : Card := { c with
  edgeAt := now
  edgeSince := true
  allowance := none }

theorem watchdogService_off (hr : s.sys.tray.card.resetLow = none)
    (h : s.sys.tray.card.present = false ∨ s.sys.tray.drivesPowered = false) :
    exec .watchdogService s = .next s.settled := by
  rw [exec_watchdogService, execWatchdogService, onBoard_eq, awaitReset_high hr]
  dsimp only
  rw [if_pos (by rcases h with h | h <;> simp [h])]
  rfl

/-- What a service by a powered card out of reset makes of the system. -/
def serviced (y : Sys) : Sys :=
  if y.tray.card.running then (y.onTray (Tray.onCard (Card.edge y.now))).onTray (closeGap y.now)
  else firstService y.tray.card.edgeAt (y.onTray (Tray.onCard (Card.edge y.now)))

theorem watchdogService_on (hp : s.sys.tray.card.present = true) (hr : s.sys.tray.card.resetLow = none)
    (hd : s.sys.tray.drivesPowered = true) :
    exec .watchdogService s = .next { s with sys := settleTray (serviced s.sys) } := by
  rw [exec_watchdogService, execWatchdogService, onBoard_eq, awaitReset_high hr]
  dsimp only
  rw [if_neg (by simp [hp, hr, hd])]
  rfl

theorem serviced_running (h : y.tray.card.running = true) : serviced y =
    (y.onTray (Tray.onCard (Card.edge y.now))).onTray (closeGap y.now) := if_pos h

theorem serviced_first (h : y.tray.card.running = false) : serviced y =
    firstService y.tray.card.edgeAt (y.onTray (Tray.onCard (Card.edge y.now))) := if_neg (ne_true_of_eq_false h)

theorem closeGap_early (h : ∀ e, t.card.servedAt = some e → now < e + Config.sec 10) : closeGap now t = t := by
  unfold closeGap
  cases hs : t.card.servedAt with
  | none => rfl
  | some e => exact if_neg (Nat.not_le_of_lt (h e hs))

theorem closeGap_due {e : Nat} (hs : t.card.servedAt = some e) (he : t.card.edgeSince = true)
    (h : e + Config.sec 10 ≤ now) : closeGap now t = { t with
      card := { t.card with
        expired := false
        servedAt := none }
      fc := t.fc.ack true (word (2 ^ 16)) } := by
  have hc : clearExpired t.card = { t.card with expired := false } := if_pos he
  unfold closeGap
  rw [hs]
  dsimp only
  rw [if_pos h]
  unfold Tray.onCard
  dsimp only
  rw [hc]

theorem ack_source48 (k : Collector) : (k.ack true (word (2 ^ 16))).src[(48 : SourceId)] =
    ackSource k.src[(48 : SourceId)] := by
  rw [Collector.ack_src]
  exact if_pos (by decide)

theorem gives_serviced (hp : s.sys.tray.card.present = true) (hr : s.sys.tray.card.resetLow = none)
    (hd : s.sys.tray.drivesPowered = true) (hrun : s.sys.tray.card.running = true) :
    Gives (exec .watchdogService s) fun u => onlyTray s u ∧
      ((∀ e, s.sys.tray.card.servedAt = some e → s.sys.now < e + Config.sec 10) → u.sys.tray.card = { s.sys.tray.card with
        edgeAt := s.sys.now
        edgeSince := true
        allowance := none }) ∧
      ∀ e, s.sys.tray.card.servedAt = some e → e + Config.sec 10 ≤ s.sys.now →
        u.sys.tray.card = { s.sys.tray.card with
          edgeAt := s.sys.now
          edgeSince := true
          allowance := none
          expired := false
          servedAt := none } ∧
        u.sys.tray.fc.src[(48 : SourceId)].status = (ackSource s.sys.tray.fc.src[(48 : SourceId)]).status ∧
        u.sys.tray.fc.src[(48 : SourceId)].acked = (ackSource s.sys.tray.fc.src[(48 : SourceId)]).acked := by
  rw [watchdogService_on hp hr hd, serviced_running hrun]
  refine ⟨_, rfl, rfl, fun h => ?_, fun e he h => ?_⟩
  · have hearly := closeGap_early (t := s.sys.tray.onCard (Card.edge s.sys.now)) h
    rw [settleTray_card, Sys.onTray_tray, Sys.onTray_tray, hearly]
    rfl
  · have hdue := closeGap_due (t := s.sys.tray.onCard (Card.edge s.sys.now)) he rfl h
    refine ⟨?_, ?_⟩
    · rw [settleTray_card, Sys.onTray_tray, Sys.onTray_tray, hdue]
      rfl
    · rw [settleTray_fc, (errFollowed_latches _).status, (errFollowed_latches _).acked, Sys.onTray_tray, Sys.onTray_tray,
        hdue]
      dsimp only
      rw [ack_source48]
      exact ⟨rfl, rfl⟩

/-! The first service. -/

/-- The tray that the first service of a card makes, before TMC_BACK. -/
def served (lastEdge now : Nat) (t : Tray) : Tray :=
  let t := gapRecord lastEdge now (t.onCard fun c => { c with
    running := true
    servedAt := some now })
  { t with
    orders := { t.orders with auto := autoOrders t.autoSlots }
    demands := { t.demands with auto := ⟨0xFFFF, 100, 100⟩ } }

theorem gapRecord_eq (lastEdge now : Nat) (t : Tray) : ∃ log, gapRecord lastEdge now t = { t with
    log := log
    logHead := (t.logHead + 1) % 2 ^ 32 } := ⟨_, rfl⟩

theorem served_eq (lastEdge now : Nat) (t : Tray) : ∃ log, served lastEdge now t = { t with
    log := log
    logHead := (t.logHead + 1) % 2 ^ 32
    card := { t.card with
      running := true
      servedAt := some now }
    orders := { t.orders with auto := autoOrders t.autoSlots }
    demands := { t.demands with auto := ⟨0xFFFF, 100, 100⟩ } } := by
  obtain ⟨log, h⟩ := gapRecord_eq lastEdge now (t.onCard fun c => { c with
    running := true
    servedAt := some now })
  unfold served
  dsimp only
  rw [h]
  exact ⟨log, rfl⟩

theorem served_fields (lastEdge now : Nat) (t : Tray) : (served lastEdge now t).card = { t.card with
      running := true
      servedAt := some now } ∧
    (served lastEdge now t).orders = { t.orders with auto := autoOrders t.autoSlots } ∧
    (served lastEdge now t).logHead = (t.logHead + 1) % 2 ^ 32 := by
  obtain ⟨log, h⟩ := served_eq lastEdge now t
  rw [h]
  exact ⟨rfl, rfl, rfl⟩

/-- TMC_BACK, whose fields are three free values. -/
def backEvent (a b c : Nat) : Dword := eventWord 3 (1 + Config.freeNat a % 255) (Config.freeNat b) (Config.freeNat c)

/-- An event made of three free values, posted. -/
theorem post_fresh (event : Nat → Nat → Nat → Dword) (y : Sys) : ∃ e free more,
    postEvent (event y.fresh.1 y.fresh.2.fresh.1 y.fresh.2.fresh.2.fresh.1) y.fresh.2.fresh.2.fresh.2 = { y with
      free := free
      out := y.out ++ more
      tray := y.tray.onCard fun c => { c with mailbox := c.mailbox.noted e } } := by
  generalize event y.fresh.1 y.fresh.2.fresh.1 y.fresh.2.fresh.2.fresh.1 = e
  obtain ⟨more, h⟩ := postEvent_eq e y.fresh.2.fresh.2.fresh.2
  rw [h]
  exact ⟨e, y.fresh.2.fresh.2.fresh.2.free, more, rfl⟩

/-- The announcement TMC_BACK. -/
def announce (y : Sys) : Sys :=
  postEvent (backEvent y.fresh.1 y.fresh.2.fresh.1 y.fresh.2.fresh.2.fresh.1) y.fresh.2.fresh.2.fresh.2

theorem firstService_announces (lastEdge : Nat) (y : Sys) :
    firstService lastEdge y = announce (y.onTray (served lastEdge y.now)) := by
  unfold firstService announce backEvent served
  rfl

theorem announce_eq (y : Sys) : ∃ e free more, announce y = { y with
    free := free
    out := y.out ++ more
    tray := y.tray.onCard fun c => { c with mailbox := c.mailbox.noted e } } :=
  post_fresh backEvent y

theorem gives_firstService (hp : s.sys.tray.card.present = true) (hr : s.sys.tray.card.resetLow = none)
    (hd : s.sys.tray.drivesPowered = true) (hrun : s.sys.tray.card.running = false) :
    Gives (exec .watchdogService s) fun u => keepsMemory s u ∧ u.sys.tray.card.running = true ∧
      u.sys.tray.card.edgeAt = s.sys.now ∧ u.sys.tray.card.servedAt = some s.sys.now ∧ u.sys.tray.card.allowance = none ∧
      u.sys.tray.orders.auto = autoOrders s.sys.tray.autoSlots ∧ u.sys.tray.orders.rack = s.sys.tray.orders.rack ∧
      u.sys.tray.orders.host = s.sys.tray.orders.host ∧ u.sys.tray.logHead = (s.sys.tray.logHead + 1) % 2 ^ 32 := by
  rw [watchdogService_on hp hr hd, serviced_first hrun, firstService_announces]
  have hnow : (s.sys.onTray (Tray.onCard (Card.edge s.sys.now))).now = s.sys.now := rfl
  have htray : (s.sys.onTray (Tray.onCard (Card.edge s.sys.now))).tray = s.sys.tray.onCard (Card.edge s.sys.now) := rfl
  generalize s.sys.onTray (Tray.onCard (Card.edge s.sys.now)) = z at hnow htray ⊢
  obtain ⟨e, free, more, heq⟩ := announce_eq (z.onTray (served s.sys.tray.card.edgeAt z.now))
  obtain ⟨hcard, horders, hhead⟩ := served_fields s.sys.tray.card.edgeAt z.now z.tray
  rw [heq, Sys.onTray_tray]
  refine ⟨_, rfl, ⟨rfl, rfl⟩, ?_⟩
  rw [settleTray_card, settleTray_orders, settleTray_logHead, Tray.onCard_orders, Tray.onCard_logHead, Tray.onCard_card,
    hcard, horders, hhead, htray, hnow]
  exact ⟨rfl, rfl, rfl, rfl, rfl, rfl, rfl, rfl⟩

/-! An expiry. -/

/-- A tray whose watchdog has expired, with the reset pulse of the card. -/
structure Expired (now : Nat) (u : Tray) : Prop where
  expired : u.card.expired = true
  running : u.card.running = false
  edgeSince : u.card.edgeSince = false
  resetLow : u.card.resetLow = some (now + Config.ms 10)
  raised : ⟨48, .tmc⟩ ∈ u.fc.raised

theorem raise_mem_tray (t : Tray) (n : Nat) (i : SourceId) (hn : n = i.val) (o : Owner) : ⟨i, o⟩ ∈ (t.raise n o).fc.raised :=
  Collector.raise_mem t.fc i hn o

theorem expire_expired (now : Nat) (t : Tray) : Expired now (expire true now t) where
  expired := rfl
  running := by
    unfold expire
    dsimp only [Tray.onCard]
    split
    · obtain ⟨_, _, _, _, hoff⟩ := resetCard_eq now t
      exact hoff
    · rename_i h
      exact eq_false_of_ne_true h
  edgeSince := rfl
  resetLow := rfl
  raised := raise_mem_tray _ 48 48 rfl .tmc

theorem execWatchdogExpiry_eq (hp : s.sys.tray.card.present = true) (hr : s.sys.tray.card.resetLow = none) :
    execWatchdogExpiry s = .next { s with sys := settleTray ((s.sys.await (wdtDue s.sys.tray.card)).onTray
      (expire true (s.sys.await (wdtDue s.sys.tray.card)).now)) } := by
  unfold execWatchdogExpiry
  rw [onBoard_eq, awaitReset_high hr]
  dsimp only
  rw [if_pos hp]

theorem gives_expired (due : Nat) : Gives (.next { s with sys := settleTray ((s.sys.await due).onTray
      (expire true (s.sys.await due).now)) }) fun u => keepsMemory s u ∧ due ≤ u.sys.now ∧ u.sys.tray.card.expired = true ∧
      u.sys.tray.card.running = false ∧ u.sys.tray.card.edgeSince = false ∧
      u.sys.tray.card.resetLow = some (u.sys.now + Config.ms 10) ∧ ⟨48, .tmc⟩ ∈ u.sys.tray.fc.raised ∧
      u.sys.tray.full = true := by
  have h := expire_expired (s.sys.await due).now (s.sys.await due).tray
  refine ⟨_, rfl, ⟨rfl, rfl⟩, ?_, ?_⟩
  · rw [settleTray_now, Sys.onTray_now]
    exact le_await ..
  · rw [settleTray_card, settleTray_now, Sys.onTray_now, Sys.onTray_tray, settleTray_full, Sys.onTray_tray]
    refine ⟨h.expired, h.running, h.edgeSince, h.resetLow, settleTray_raised h.raised, ?_⟩
    unfold Tray.fullWanted Tray.fullCause
    dsimp only
    rw [h.expired]
    rfl

theorem gives_watchdogExpiry (hp : s.sys.tray.card.present = true) (hr : s.sys.tray.card.resetLow = none) :
    Gives (exec .watchdogExpiry s) fun u => keepsMemory s u ∧ wdtDue s.sys.tray.card ≤ u.sys.now ∧
      u.sys.tray.card.expired = true ∧ u.sys.tray.card.running = false ∧ u.sys.tray.card.edgeSince = false ∧
      u.sys.tray.card.resetLow = some (u.sys.now + Config.ms 10) ∧ ⟨48, .tmc⟩ ∈ u.sys.tray.fc.raised ∧
      u.sys.tray.full = true := by
  rw [exec_watchdogExpiry, execWatchdogExpiry_eq hp hr]
  exact gives_expired _

theorem gives_expiredClear (h : s.sys.tray.card.edgeSince = true) : Gives (exec .expiredClear s) fun u =>
    onlyTray s u ∧ u.sys.tray.card = { s.sys.tray.card with expired := false } := by
  have hf : s.sys.tray.onCard clearExpired = { s.sys.tray with card := { s.sys.tray.card with expired := false } } := by
    unfold Tray.onCard clearExpired
    rw [if_pos h]
  rw [exec_expiredClear, execExpiredClear, onTray_becomes hf]
  refine ⟨_, rfl, becomes_onlyTray _, ?_⟩
  rw [becomes_tray, settleTray_card]

theorem expiredClear_early (h : s.sys.tray.card.edgeSince = false) : exec .expiredClear s = .next s.settled := by
  have hf : s.sys.tray.onCard clearExpired = s.sys.tray := by
    unfold Tray.onCard clearExpired
    rw [if_neg (ne_true_of_eq_false h)]
  rw [exec_expiredClear, execExpiredClear]
  exact onTray_same hf

/-! The card's reset and its insertion. -/

theorem putOrders_get (mask : BitVec 16) (o : Order) (v : Vector Order 16) (n : SlotId) :
    (putOrders mask o v)[n] = if mask.toNat.testBit n.val then o else v[n] := by
  simp [putOrders]

theorem foldl_applyOff_rack (n : SlotId) (l : List Notice) (t : Tray) : (l.foldl (fun (u : Tray) x =>
    applyOrder .rack x.mask .off 1 2 (x.hdr.src, x.hdr.seq) now u) t).orders.rack[n] =
      if l.any (fun x => x.mask.toNat.testBit n.val) then .off else t.orders.rack[n] := by
  induction l generalizing t with
  | nil => rfl
  | cons x l ih =>
    rw [List.foldl_cons, ih, applyOrder_orders, setOrder_rack]
    dsimp only
    rw [putOrders_get, List.any_cons]
    cases x.mask.toNat.testBit n.val <;> cases l.any (fun x => x.mask.toNat.testBit n.val) <;> rfl

theorem resetCard_rack (n : SlotId) (t : Tray) : (resetCard now t).orders.rack[n] =
    if t.underNotice n then .off else t.orders.rack[n] := foldl_applyOff_rack n t.card.notices t

theorem gives_cardReset (h : s.sys.tray.card.present = true) : Gives (exec .cardReset s) fun u => onlyTray s u ∧
    u.sys.tray.card.running = false ∧ u.sys.tray.card.bootCount = s.sys.tray.card.bootCount + 1 ∧
    u.sys.tray.card.notices = [] ∧ u.sys.tray.card.mailbox = Mailbox.reset ∧
    (∀ n : SlotId, s.sys.tray.underNotice n = true → u.sys.tray.orders.rack[n] = .off) ∧
    ∀ n : SlotId, s.sys.tray.underNotice n = false → u.sys.tray.orders.rack[n] = s.sys.tray.orders.rack[n] := by
  rw [exec_cardReset, execCardReset, onTray_becomes (if_pos h)]
  refine ⟨_, rfl, becomes_onlyTray _, ?_⟩
  rw [becomes_tray, settleTray_card, settleTray_orders]
  unfold cardReset
  rw [Tray.ownerReset_card, resetCard_card, Tray.ownerReset_orders]
  refine ⟨rfl, rfl, rfl, rfl, fun n hn => ?_, fun n hn => ?_⟩
  · rw [resetCard_rack, if_pos hn]
  · rw [resetCard_rack, if_neg (ne_true_of_eq_false hn)]

theorem cardReset_absent (h : s.sys.tray.card.present = false) : exec .cardReset s = .next s.settled := by
  rw [exec_cardReset, execCardReset]
  exact onTray_same (if_neg (ne_true_of_eq_false h))

theorem insertCard_card (h : t.card.present = false) : (insertCard now t).card = { (cardReset now t).card with
    present := true
    allowance := some (now + Config.sec 60)
    resetLow := none
    eeprom := fittedRecord 25 now } := by
  unfold insertCard
  dsimp only
  rw [if_neg (ne_true_of_eq_false h)]
  rfl

theorem gives_tmcCardInsert (h : s.sys.tray.card.present = false) : Gives (exec .tmcCardInsert s) fun u =>
    onlyTray s u ∧ u.sys.tray.card.present = true ∧ u.sys.tray.card.eeprom = fittedRecord 25 s.sys.now ∧
    u.sys.tray.card.running = false ∧ u.sys.tray.card.allowance = some (s.sys.now + Config.sec 60) := by
  rw [exec_tmcCardInsert, execTmcCardInsert, onTray_becomes rfl]
  refine ⟨_, rfl, becomes_onlyTray _, ?_⟩
  rw [becomes_tray, settleTray_card, insertCard_card h]
  refine ⟨rfl, rfl, ?_, rfl⟩
  dsimp only
  unfold cardReset
  rw [Tray.ownerReset_card, resetCard_card]

end Watchdog

/-- Settles O59: the watchdog and the card by command, the resets by what they make of the tray. -/
theorem watchdogAndResetsAct : Obligations.WatchdogAndResetsAct := by
  unfold Obligations.WatchdogAndResetsAct
  dsimp only
  refine ⟨fun s => ⟨fun hp hr hd => ⟨fun hrun => gives_serviced hp hr hd hrun, fun hrun => gives_firstService hp hr hd hrun⟩,
    fun h hr => watchdogService_off hr h, fun hp hr => gives_watchdogExpiry hp hr, fun h => gives_expiredClear h,
    fun h => expiredClear_early h, fun h => gives_cardReset h, fun h => ⟨cardReset_absent h, gives_tmcCardInsert h⟩⟩,
    fun s => ⟨?_, ?_⟩⟩
  · obtain ⟨u, hu, ⟨hpend, hmem⟩, hb, hpwr, hrails⟩ := gives_baseBoardReset s
    exact ⟨u, hu, ⟨hpend, hmem, hb.input, hb.inputAt, hb.bbu, hb.orders, hb.demands, hb.log, hb.logHead, hb.autoSlots,
      hb.trayZ, hb.trayW, hb.trayValid, hb.requesters, hb.running, hb.present,
      fun n => ⟨(hb.bays n).1, (hb.bays n).2, hpwr n⟩, hb.twi, hb.clear⟩, hrails⟩
  · obtain ⟨u, hu, ⟨hpend, hmem⟩, hb, hpwr, hrails⟩ := gives_trayInputRise s
    exact ⟨u, hu, ⟨hpend, hmem, hb.input, hb.inputAt, hb.bbu, hb.orders, hb.demands, hb.log, hb.logHead, hb.autoSlots,
      hb.trayZ, hb.trayW, hb.trayValid, hb.requesters, hb.running, hb.present,
      fun n => ⟨(hb.bays n).1, (hb.bays n).2, hpwr n⟩, hb.twi, hb.clear⟩, hrails⟩

end Sys2Proof.Machine
end

section
/-! PROOFS. Accesses over BUS0 and BUS1 (O60): at the CPC, at the chip's own target, awake and in RETENTION-ONLY. -/

namespace Sys2Proof.Machine

section Targets

variable {s : State} {n : SlotId}

theorem twoWireWrite_off (dev : TwoWireDev) (bytes : List Byte) (h : onBus s.sys.tray n = false) :
    exec (.twoWireRegisterWrite n dev bytes) s = .next s.settled := by
  rw [exec_twoWireRegisterWrite, execTwoWireRegisterWrite, onBoard_eq]
  dsimp only
  rw [if_pos (by rw [h]; rfl)]
  rfl

theorem twoWireRead_off (dev : TwoWireDev) (o0 o1 : Byte) (k : Nat) (h : onBus s.sys.tray n = false) :
    exec (.twoWireRegisterRead n dev o0 o1 k) s = .next s.settled := by
  rw [exec_twoWireRegisterRead, execTwoWireRegisterRead, onBoard_eq]
  dsimp only
  rw [if_pos (by rw [h]; rfl)]
  rfl

/-! At the CPC, whose offsets are one byte. -/

theorem leNat_low (o : Byte) : leNat [o, 0] = o.toNat := by
  simp [leNat]

theorem cpcWrite_next (h : onBus s.sys.tray n = true) {o : BitVec 8} (b0 b1 b2 b3 : Byte) (ho : o.toNat % 4 = 0) :
    exec (.twoWireRegisterWrite n .cpc [o, 0, b0, b1, b2, b3]) s = .next (s.withTray (Tray.onCpc n
      (writeCpc o.toNat (BitVec.ofNat 32 (leNat [b0, b1, b2, b3]))))).settled := by
  have hlt := o.isLt
  rw [exec_twoWireRegisterWrite, execTwoWireRegisterWrite, onBoard_eq]
  dsimp only
  rw [if_neg (by simp [h]), show List.take 2 [o, 0, b0, b1, b2, b3] = [o, 0] from rfl, leNat_low, if_pos (by simp [ho, hlt])]
  rfl

theorem cpcRead_next (h : onBus s.sys.tray n = true) {o : BitVec 8} (k : Nat) (ho : o.toNat % 4 = 0) :
    exec (.twoWireRegisterRead n .cpc o 0 k) s =
      .next (s.puts (.readData ((leBytes 4 (readCpc s.sys.tray n o.toNat).toNat).take k))).settled := by
  have hlt := o.isLt
  rw [exec_twoWireRegisterRead, execTwoWireRegisterRead, onBoard_eq]
  dsimp only
  rw [if_neg (by simp [h]), leNat_low, if_pos (by simp [ho, hlt])]
  rfl

/-! At the chip's target. -/

/-- A write to the own slot's chip while it is awake. -/
theorem sk2Write_gives (h : onBus s.sys.tray n = true) (hn : n = s.ownSlot) (hr : s.sys.chip.pwr.retention = false)
    (hl : s.sys.chip.pwr.lowIdle = false) (o0 o1 b0 : Byte) (data : List Byte) :
    exec (.twoWireRegisterWrite n .sk2 (o0 :: o1 :: b0 :: data)) s =
      .next { s with sys := settleTray (sk2Write n (leNat [o0, o1]) [o0, o1] (b0 :: data) s.sys.addressed) } := by
  rw [exec_twoWireRegisterWrite, execTwoWireRegisterWrite, onBoard_eq]
  dsimp only
  rw [if_neg (by simp [h]), if_neg (by simp [hn, State.ownSlot]), addressChip_awake hr hl, if_pos rfl]
  rfl

theorem sk2Write_plain {y : Sys} {off : Nat} {head : List Byte} (b0 b1 b2 b3 : Byte) (ho : off % 4 = 0)
    (hp : y.chip.mgt.pecEn = false) : sk2Write n off head [b0, b1, b2, b3] y =
      writeReg off (BitVec.ofNat 32 (leNat [b0, b1, b2, b3])) y := by
  unfold sk2Write
  rw [if_neg (by simp [ho]), if_pos (by simp [hp])]
  rfl

theorem sk2Write_pec {y : Sys} {off : Nat} (o0 o1 b0 b1 b2 b3 p : Byte) (ho : off % 4 = 0)
    (hp : y.chip.mgt.pecEn = true) : sk2Write n off [o0, o1] [b0, b1, b2, b3, p] y =
      if p.toNat = crc8 [sk2Addr n false, o0, o1, b0, b1, b2, b3] then
        writeReg off (BitVec.ofNat 32 (leNat [b0, b1, b2, b3])) y
      else y.onChip fun c => { c with mgt := { c.mgt with pecErrors := satInc c.mgt.pecErrors } } := by
  unfold sk2Write
  rw [if_neg (by simp [ho]), if_neg (by simp [hp])]
  dsimp only
  by_cases hc : p.toNat = crc8 [sk2Addr n false, o0, o1, b0, b1, b2, b3]
  · rw [if_pos hc, if_pos (by simpa using hc)]
    rfl
  · rw [if_neg hc, if_neg (by simpa using hc)]
    rfl

/-- A read of the own slot's chip while it is awake. -/
theorem gives_sk2Read (h : onBus s.sys.tray n = true) (hn : n = s.ownSlot) (hr : s.sys.chip.pwr.retention = false)
    (hl : s.sys.chip.pwr.lowIdle = false) {o0 o1 : Byte} (k : Nat) (ho : leNat [o0, o1] % 4 = 0) :
    Gives (exec (.twoWireRegisterRead n .sk2 o0 o1 k) s) fun u => keepsMemory s u ∧
      u.sys.out = s.sys.out ++ [.readData (readBytes n o0 o1 k (readReg { s.sys.chip with
        mgt := { s.sys.chip.mgt with wakeLast := 0 } } (leNat [o0, o1])))] ∧
      u.sys.chip = readEffect (leNat [o0, o1]) { s.sys.chip with mgt := { s.sys.chip.mgt with wakeLast := 0 } } := by
  rw [exec_twoWireRegisterRead, execTwoWireRegisterRead, onBoard_eq]
  dsimp only
  rw [if_neg (by simp [h]), if_neg (by simp [hn, State.ownSlot]), addressChip_awake hr hl, if_neg (by simpa using ho)]
  exact ⟨_, rfl, ⟨rfl, rfl⟩, rfl, rfl⟩

/-- RETENTION-ONLY refuses the first address and starts a wake. -/
theorem addressChip_asleep {y : Sys} (hr : y.chip.pwr.retention = true) (ha : y.chip.mgt.awake = none)
    (hw : y.chip.mgt.wakeAt = none) : addressChip y = (false, y.onChip fun c => { c with mgt := { c.mgt with
      wakeLast := 2
      wakeAt := some y.now
      wakes := satInc c.mgt.wakes } }) := by
  unfold addressChip
  dsimp only
  rw [hr, ha, hw]
  rfl

theorem sk2Read_asleep (h : onBus s.sys.tray n = true) (hn : n = s.ownSlot) (hr : s.sys.chip.pwr.retention = true)
    (ha : s.sys.chip.mgt.awake = none) (hw : s.sys.chip.mgt.wakeAt = none) (o0 o1 : Byte) (k : Nat) :
    exec (.twoWireRegisterRead n .sk2 o0 o1 k) s = .next (s.withChip fun c => { c with mgt := { c.mgt with
      wakeLast := 2
      wakeAt := some s.sys.now
      wakes := satInc c.mgt.wakes } }).settled := by
  rw [exec_twoWireRegisterRead, execTwoWireRegisterRead, onBoard_eq]
  dsimp only
  rw [if_neg (by simp [h]), if_neg (by simp [hn, State.ownSlot]), addressChip_asleep hr ha hw]
  rfl

/-! Sleep. -/

theorem managementWakeEnd_ends (h : s.sys.chip.mgt.wakeAt ≠ none) : exec .managementWakeEnd s = .next (s.withChip fun c =>
    { c with mgt := { c.mgt with
      wakeAt := none
      awake := some s.sys.now } }).settled := by
  have he : endWake s.sys.now s.sys.chip = { s.sys.chip with mgt := { s.sys.chip.mgt with
      wakeAt := none
      awake := some s.sys.now } } := if_pos (Option.isSome_iff_ne_none.mpr h)
  rw [exec_managementWakeEnd, execManagementWakeEnd, onBoard_eq]
  unfold Sys.onChip
  rw [he]
  rfl

theorem managementWakeEnd_none (h : s.sys.chip.mgt.wakeAt = none) : exec .managementWakeEnd s = .next s.settled := by
  have he : endWake s.sys.now s.sys.chip = s.sys.chip := if_neg (by simp [h])
  rw [exec_managementWakeEnd, execManagementWakeEnd, onBoard_eq]
  unfold Sys.onChip
  rw [he]
  rfl

theorem gives_slept (due : Nat) : Gives (.next { s with sys := settleTray ((s.sys.await due).onChip fun c =>
      { c with mgt := { c.mgt with awake := none } }) }) fun u => keepsMemory s u ∧ due ≤ u.sys.now ∧
      u.sys.chip.mgt = { s.sys.chip.mgt with awake := none } := by
  refine ⟨_, rfl, ⟨rfl, rfl⟩, ?_, ?_⟩
  · rw [settleTray_now, Sys.onChip_now]
    exact le_await ..
  · rw [settleTray_chip, Sys.onChip_chip]
    dsimp only
    rw [await_mgt]

theorem execKeepAliveReturn_eq {w : Nat} (h : s.sys.chip.mgt.awake = some w) : execKeepAliveReturn s =
    .next { s with sys := settleTray ((s.sys.await (w + Config.ms 100)).onChip fun c =>
      { c with mgt := { c.mgt with awake := none } }) } := by
  unfold execKeepAliveReturn
  rw [onBoard_eq, h]

theorem gives_keepAliveReturn {w : Nat} (h : s.sys.chip.mgt.awake = some w) : Gives (exec .keepAliveReturn s) fun u =>
    keepsMemory s u ∧ w + Config.ms 100 ≤ u.sys.now ∧ u.sys.chip.mgt = { s.sys.chip.mgt with awake := none } := by
  rw [exec_keepAliveReturn, execKeepAliveReturn_eq h]
  exact gives_slept _

theorem twoWireTimeout_counts (h : s.sys.chip.mgt.twiTimeoutEn = true) : exec .twoWireTimeout s =
    .next (s.withChip fun c => { c with mgt := { c.mgt with twiTimeouts := satInc c.mgt.twiTimeouts } }).settled := by
  rw [exec_twoWireTimeout, execTwoWireTimeout, onBoard_eq]
  unfold Sys.onChip
  dsimp only
  rw [if_pos h]
  rfl

theorem twoWireTimeout_off (h : s.sys.chip.mgt.twiTimeoutEn = false) : exec .twoWireTimeout s = .next s.settled := by
  rw [exec_twoWireTimeout, execTwoWireTimeout, onBoard_eq]
  unfold Sys.onChip
  dsimp only
  rw [if_neg (ne_true_of_eq_false h)]
  rfl

end Targets

end Sys2Proof.Machine
end

section
/-! PROOFS. The two-wire controllers (O60): transactions, stuck buses and recoveries; and the obligation. -/

namespace Sys2Proof.Machine

section Controllers

variable {s : State} {y : Sys} {t : Tray} {b : BusId} {x : Twi} {now free : Nat}

/-- A step that changes one controller: the chip, memory and the other controllers stay. -/
theorem gives_twi {P : State → Twi → Prop} (y : Sys) (f : Twi → Twi) (hc : y.chip = s.sys.chip)
    (ht : y.tray.twi = (s.sys.tray.onTwi b f).twi) (hP : P { s with sys := settleTray y } (f s.sys.tray.twi[b])) :
    Gives (.next { s with sys := settleTray y }) fun u => keepsMemory s u ∧ u.sys.chip = s.sys.chip ∧
      (∀ d : BusId, d ≠ b → u.sys.tray.twi[d] = s.sys.tray.twi[d]) ∧ P u u.sys.tray.twi[b] := by
  refine ⟨_, rfl, ⟨rfl, rfl⟩, hc, fun d hd => ?_, ?_⟩
  · dsimp only
    rw [settleTray_twi, ht, Tray.onTwi_other _ hd]
  · dsimp only
    rw [settleTray_twi, ht, Tray.onTwi_same]
    exact hP

/-! Transactions. -/

theorem startTransaction_busy (h : s.sys.tray.twi[b].busy = true) : exec (.startTransaction b) s = .next s.settled := by
  rw [exec_startTransaction, execStartTransaction, onBoard_eq]
  unfold startTwi
  dsimp only
  rw [if_pos h]
  rfl

/-- A controller whose transaction has started. -/
def started (x : Twi) : Twi := { x with
  busy := true
  done := false }

theorem gives_startTransaction (h : s.sys.tray.twi[b].busy = false) : Gives (exec (.startTransaction b) s) fun u =>
    keepsMemory s u ∧ u.sys.chip = s.sys.chip ∧ (∀ d : BusId, d ≠ b → u.sys.tray.twi[d] = s.sys.tray.twi[d]) ∧
    u.sys.tray.twi[b] = started s.sys.tray.twi[b] ∧
    u.sys.out = s.sys.out ++ [.twi b (twiBytes s.sys.tray.twi[b])] := by
  have hstart : startTwi b s.sys = (s.sys.onTray (Tray.onTwi b started)).emit (.twi b (twiBytes s.sys.tray.twi[b])) :=
    if_neg (ne_true_of_eq_false h)
  rw [exec_startTransaction, execStartTransaction, onBoard_eq, hstart]
  refine gives_twi (P := fun u x => x = started s.sys.tray.twi[b] ∧
    u.sys.out = s.sys.out ++ [.twi b (twiBytes s.sys.tray.twi[b])])
    ((s.sys.onTray (Tray.onTwi b started)).emit (.twi b (twiBytes s.sys.tray.twi[b]))) started rfl rfl ⟨rfl, ?_⟩
  dsimp only
  rw [settleTray_out]
  rfl

theorem transactionDone_idle (h : s.sys.tray.twi[b].busy = false) (result : TwiResult) (bytes : List Byte) :
    exec (.twoWireTransactionDone b result bytes) s = .next s.settled := by
  rw [exec_twoWireTransactionDone, execTwoWireTransactionDone, onBoard_eq]
  dsimp only
  rw [if_pos (by rw [h]; rfl)]
  rfl

/-- The end of a transaction that was not stuck. -/
def ended (b : BusId) (result : TwiResult) (bytes : List Byte) (y : Sys) : Sys :=
  y.fresh.2.onTray fun t => t.onTwi b (endTwi b result (twiData t b bytes) y.fresh.1)

theorem ended_twi (b : BusId) (result : TwiResult) (bytes : List Byte) (y : Sys) : (ended b result bytes y).tray.twi =
    (y.tray.onTwi b (endTwi b result (twiData y.tray b bytes) y.free)).twi := rfl

theorem transactionDone_next (h : s.sys.tray.twi[b].busy = true) {result : TwiResult} (hr : result ≠ .stuck)
    (bytes : List Byte) : exec (.twoWireTransactionDone b result bytes) s = .next { s with
      sys := settleTray (ended b result bytes s.sys) } := by
  rw [exec_twoWireTransactionDone, execTwoWireTransactionDone, onBoard_eq]
  dsimp only
  rw [if_neg (by simp only [h]; decide), if_neg (by simpa using hr)]
  unfold ended
  dsimp only

theorem setChannels_eq (b : BusId) (x : Twi) : ∃ channels, setChannels b x = { x with channels := channels } := by
  unfold setChannels
  split
  · cases finOf 4 (x.addr.toNat - 0x70) with
    | none => exact ⟨x.channels, rfl⟩
    | some m => exact ⟨_, rfl⟩
  · exact ⟨x.channels, rfl⟩

theorem endTwi_ok (h : x.busy = true) (bytes : List Byte) : (endTwi b .ok bytes free x).busy = false ∧
    (endTwi b .ok bytes free x).done = true ∧ (endTwi b .ok bytes free x).result = 0 ∧
    (endTwi b .ok bytes free x).bytes = BitVec.ofNat 6 (len32 x.wlen + len32 x.rlen) ∧
    ∀ i : Fin 32, (endTwi b .ok bytes free x).data[i] =
      if i.val < len32 x.rlen then bytes.getD i.val 0 else x.data[i] := by
  obtain ⟨channels, hch⟩ := setChannels_eq b { x with
    busy := false
    done := true
    result := 0 }
  unfold endTwi
  rw [if_neg (by rw [h]; decide)]
  dsimp only
  rw [if_pos (beq_self_eq_true _), show twiResultCode .ok = 0 from rfl, hch]
  exact ⟨rfl, rfl, rfl, rfl, fun i => by simp⟩

theorem endTwi_failed (h : x.busy = true) {result : TwiResult} (hr : result ≠ .ok) (bytes : List Byte) :
    (endTwi b result bytes free x).busy = false ∧ (endTwi b result bytes free x).done = true ∧
    (endTwi b result bytes free x).result = twiResultCode result ∧ (endTwi b result bytes free x).data = x.data := by
  unfold endTwi
  rw [if_neg (by rw [h]; decide)]
  dsimp only
  rw [if_neg (by simpa using hr)]
  exact ⟨rfl, rfl, rfl, rfl⟩

/-- A read of no identity EEPROM, or of one whose address was not written, brings the command's bytes. -/
theorem twiData_other (bytes : List Byte) (h : eepromAt t b t.twi[b].addr.toNat = none ∨ len32 t.twi[b].wlen = 0) :
    twiData t b bytes = bytes := by
  unfold twiData
  dsimp only
  cases he : eepromAt t b t.twi[b].addr.toNat with
  | none => rfl
  | some r => exact if_pos (by simpa using h.resolve_left (by rw [he]; exact Option.some_ne_none r))

theorem twiData_eeprom (bytes : List Byte) {r : List Byte} (he : eepromAt t b t.twi[b].addr.toNat = some r)
    (hw : len32 t.twi[b].wlen ≠ 0) : twiData t b bytes =
      eepromRead r t.twi[b].data[0].toNat (len32 t.twi[b].rlen) := by
  unfold twiData
  dsimp only
  rw [he]
  exact if_neg (by simpa using hw)

theorem eepromRead_getD (r : List Byte) (start : Nat) {n i : Nat} (hi : i < n) :
    (eepromRead r start n).getD i 0 = r.getD ((start + i) % 256) 0 := by
  simp [eepromRead, List.getD, hi]

theorem gives_transactionOk (h : s.sys.tray.twi[b].busy = true) (bytes : List Byte) :
    Gives (exec (.twoWireTransactionDone b .ok bytes) s) fun u => keepsMemory s u ∧ u.sys.chip = s.sys.chip ∧
      (∀ d : BusId, d ≠ b → u.sys.tray.twi[d] = s.sys.tray.twi[d]) ∧ u.sys.tray.twi[b].busy = false ∧
      u.sys.tray.twi[b].done = true ∧ u.sys.tray.twi[b].result = 0 ∧
      u.sys.tray.twi[b].bytes = BitVec.ofNat 6 (len32 s.sys.tray.twi[b].wlen + len32 s.sys.tray.twi[b].rlen) ∧
      (eepromAt s.sys.tray b s.sys.tray.twi[b].addr.toNat = none ∨ len32 s.sys.tray.twi[b].wlen = 0 →
        ∀ i : Fin 32, u.sys.tray.twi[b].data[i] =
          if i.val < len32 s.sys.tray.twi[b].rlen then bytes.getD i.val 0 else s.sys.tray.twi[b].data[i]) ∧
      ∀ r, eepromAt s.sys.tray b s.sys.tray.twi[b].addr.toNat = some r → len32 s.sys.tray.twi[b].wlen ≠ 0 →
        ∀ i : Fin 32, u.sys.tray.twi[b].data[i] = if i.val < len32 s.sys.tray.twi[b].rlen then
          r.getD ((s.sys.tray.twi[b].data[0].toNat + i.val) % 256) 0 else s.sys.tray.twi[b].data[i] := by
  obtain ⟨hbusy, hdone, hresult, hbytes, hdata⟩ := endTwi_ok (b := b) (free := s.sys.free) h (twiData s.sys.tray b bytes)
  rw [transactionDone_next h (by simp)]
  refine gives_twi (P := fun _ y => y.busy = false ∧ y.done = true ∧ y.result = 0 ∧
    y.bytes = BitVec.ofNat 6 (len32 s.sys.tray.twi[b].wlen + len32 s.sys.tray.twi[b].rlen) ∧
    (eepromAt s.sys.tray b s.sys.tray.twi[b].addr.toNat = none ∨ len32 s.sys.tray.twi[b].wlen = 0 →
      ∀ i : Fin 32, y.data[i] =
        if i.val < len32 s.sys.tray.twi[b].rlen then bytes.getD i.val 0 else s.sys.tray.twi[b].data[i]) ∧
    ∀ r, eepromAt s.sys.tray b s.sys.tray.twi[b].addr.toNat = some r → len32 s.sys.tray.twi[b].wlen ≠ 0 →
      ∀ i : Fin 32, y.data[i] = if i.val < len32 s.sys.tray.twi[b].rlen then
        r.getD ((s.sys.tray.twi[b].data[0].toNat + i.val) % 256) 0 else s.sys.tray.twi[b].data[i])
    (ended b .ok bytes s.sys)
    (endTwi b .ok (twiData s.sys.tray b bytes) s.sys.free) rfl (ended_twi ..)
    ⟨hbusy, hdone, hresult, hbytes, fun he i => ?_, fun r he hw i => ?_⟩
  · rw [hdata i, twiData_other bytes he]
  · rw [hdata i, twiData_eeprom bytes he hw]
    by_cases hi : i.val < len32 s.sys.tray.twi[b].rlen
    · rw [if_pos hi, if_pos hi, eepromRead_getD _ _ hi]
    · rw [if_neg hi, if_neg hi]

theorem gives_transactionFailed (h : s.sys.tray.twi[b].busy = true) {result : TwiResult} (hok : result ≠ .ok)
    (hst : result ≠ .stuck) : Gives (exec (.twoWireTransactionDone b result []) s) fun u => keepsMemory s u ∧
      u.sys.chip = s.sys.chip ∧ (∀ d : BusId, d ≠ b → u.sys.tray.twi[d] = s.sys.tray.twi[d]) ∧
      u.sys.tray.twi[b].busy = false ∧ u.sys.tray.twi[b].done = true ∧
      u.sys.tray.twi[b].result = twiResultCode result ∧ u.sys.tray.twi[b].data = s.sys.tray.twi[b].data := by
  rw [transactionDone_next h hst]
  exact gives_twi (P := fun _ y => y.busy = false ∧ y.done = true ∧ y.result = twiResultCode result ∧
    y.data = s.sys.tray.twi[b].data) (ended b result [] s.sys)
    (endTwi b result (twiData s.sys.tray b []) s.sys.free) rfl (ended_twi ..)
    (endTwi_failed h hok _)

/-! A stuck bus. -/

/-- A controller whose bus is stuck, with the free values of its lines. -/
def stuck (free : Nat) (x : Twi) : Twi := { x with
  sclLow := Config.freeBool free
  sdaLow := !Config.freeBool free || Config.freeBool (free + 1)
  done := x.done || x.busy
  busy := false
  result := 5 }

theorem stuck_low (free : Nat) (x : Twi) : (stuck free x).sclLow = true ∨ (stuck free x).sdaLow = true := by
  unfold stuck
  cases Config.freeBool free <;> simp

/-- What a bus found stuck makes of its controller, and the raise of its source. -/
theorem gives_foundStuck (b : BusId) (s : State) : Gives (.next { s with sys := settleTray (busStuck b s.sys) }) fun u =>
    keepsMemory s u ∧ u.sys.chip = s.sys.chip ∧ (∀ d : BusId, d ≠ b → u.sys.tray.twi[d] = s.sys.tray.twi[d]) ∧
    u.sys.tray.twi[b].busy = false ∧ u.sys.tray.twi[b].done = (s.sys.tray.twi[b].done || s.sys.tray.twi[b].busy) ∧
    u.sys.tray.twi[b].result = 5 ∧ (u.sys.tray.twi[b].sclLow = true ∨ u.sys.tray.twi[b].sdaLow = true) ∧
    ⟨⟨49 + b.val, by omega⟩, .bus b⟩ ∈ u.sys.tray.fc.raised := by
  refine gives_twi (P := fun u y => y.busy = false ∧ y.done = (s.sys.tray.twi[b].done || s.sys.tray.twi[b].busy) ∧
    y.result = 5 ∧ (y.sclLow = true ∨ y.sdaLow = true) ∧ ⟨⟨49 + b.val, by omega⟩, .bus b⟩ ∈ u.sys.tray.fc.raised)
    (busStuck b s.sys) (stuck s.sys.free) rfl rfl ⟨rfl, rfl, rfl, stuck_low _ _, settleTray_raised ?_⟩
  exact raise_mem_tray _ (stuckSource b) ⟨49 + b.val, by omega⟩ rfl (.bus b)

theorem transactionDone_stuck (h : s.sys.tray.twi[b].busy = true) (bytes : List Byte) :
    exec (.twoWireTransactionDone b .stuck bytes) s = .next { s with sys := settleTray (busStuck b s.sys) } := by
  rw [exec_twoWireTransactionDone, execTwoWireTransactionDone, onBoard_eq]
  dsimp only
  rw [if_neg (by simp only [h]; decide), if_pos (beq_self_eq_true _)]

/-! A recovery. -/

/-- What a recovery may leave of a controller. -/
def recoveredFrom (b : BusId) (now : Nat) (x y : Twi) : Prop :=
  (x.sclLow = false → y.sclLow = false) ∧ (x.sdaLow = false → y.sdaLow = false) ∧
  (b.val = 2 ∨ b.val = 3 → y.channels = Vector.replicate 4 0) ∧
  (y.sclLow = false → y.sdaLow = false → y.retryAt = none) ∧
  (y.sclLow = true ∨ y.sdaLow = true → y.result = 5 ∧ y.retryAt = some now)

theorem recovered_from (b : BusId) (now free : Nat) (x : Twi) : recoveredFrom b now x (recovered b now free x) := by
  have hch : b.val = 2 ∨ b.val = 3 →
      (if b.val == 2 || b.val == 3 then Vector.replicate 4 0 else x.channels) = Vector.replicate 4 0 :=
    fun hb => if_pos (by simpa using hb)
  unfold recovered
  dsimp only
  by_cases hlow : (x.sclLow && Config.freeBool free || x.sdaLow && Config.freeBool (free + 1)) = true
  · rw [if_pos hlow]
    refine ⟨fun h => by simp [h], fun h => by simp [h], hch, fun h1 h2 => ?_, fun _ => ⟨rfl, rfl⟩⟩
    dsimp only at h1 h2
    rw [h1, h2] at hlow
    exact Bool.noConfusion hlow
  · rw [if_neg hlow]
    refine ⟨fun h => by simp [h], fun h => by simp [h], hch, fun _ _ => rfl, fun h => ?_⟩
    exact absurd ((Bool.or_eq_true _ _).mpr h) hlow

theorem gives_recover (b : BusId) (s : State) : Gives (exec (.recover b) s) fun u => keepsMemory s u ∧
    u.sys.chip = s.sys.chip ∧ (∀ d : BusId, d ≠ b → u.sys.tray.twi[d] = s.sys.tray.twi[d]) ∧
    recoveredFrom b s.sys.now s.sys.tray.twi[b] u.sys.tray.twi[b] := by
  rw [exec_recover, execRecover, onBoard_eq]
  exact gives_twi (P := fun _ y => recoveredFrom b s.sys.now s.sys.tray.twi[b] y) (recoverBus b s.sys)
    (recovered b s.sys.now s.sys.free) rfl rfl (recovered_from ..)

theorem recoveryRetry_none (h : s.sys.tray.twi[b].retryAt = none) : exec (.recoveryRetry b) s = .next s.settled := by
  rw [exec_recoveryRetry, execRecoveryRetry, onBoard_eq]
  unfold retryBus
  rw [h]
  rfl

theorem gives_retried (b : BusId) (due : Nat) : Gives (.next { s with sys := settleTray (recoverBus b
      ((s.sys.await due).onTray fun t => t.raise (stuckSource b) (.bus b))) }) fun u => keepsMemory s u ∧
      due ≤ u.sys.now ∧ ⟨⟨49 + b.val, by omega⟩, .bus b⟩ ∈ u.sys.tray.fc.raised := by
  rw [recoverBus_eq]
  refine ⟨_, rfl, ⟨rfl, rfl⟩, ?_, settleTray_raised ?_⟩
  · rw [settleTray_now, Sys.onTray_now]
    exact le_await ..
  · exact raise_mem_tray _ (stuckSource b) ⟨49 + b.val, by omega⟩ rfl (.bus b)

theorem retryBus_eq {w : Nat} (h : y.tray.twi[b].retryAt = some w) : retryBus b y =
    recoverBus b ((y.await (w + Config.sec 1)).onTray fun t => t.raise (stuckSource b) (.bus b)) := by
  unfold retryBus
  rw [h]

theorem gives_recoveryRetry {w : Nat} (h : s.sys.tray.twi[b].retryAt = some w) :
    Gives (exec (.recoveryRetry b) s) fun u => keepsMemory s u ∧ w + Config.sec 1 ≤ u.sys.now ∧
      ⟨⟨49 + b.val, by omega⟩, .bus b⟩ ∈ u.sys.tray.fc.raised := by
  rw [exec_recoveryRetry, execRecoveryRetry, onBoard_eq, retryBus_eq h]
  exact gives_retried b _

end Controllers

/-- Settles O60: the targets' accesses, sleep, and each command of a controller. -/
theorem twoWireBusesAct : Obligations.TwoWireBusesAct := by
  unfold Obligations.TwoWireBusesAct
  dsimp only
  refine ⟨fun s n => ⟨fun dev bytes o0 o1 k h => ⟨twoWireWrite_off dev bytes h, twoWireRead_off dev o0 o1 k h⟩,
    fun h => ⟨fun o b0 b1 b2 b3 ho => cpcWrite_next h b0 b1 b2 b3 ho, fun o k ho => cpcRead_next h k ho,
      fun hn hr hl o0 o1 b0 b1 b2 b3 ho => ⟨fun hp => ?_, fun hp => ⟨fun p hpec => ?_, fun p hpec => ?_⟩,
        fun k => gives_sk2Read h hn hr hl k ho⟩,
      fun hn hr ha hw o0 o1 k => sk2Read_asleep h hn hr ha hw o0 o1 k⟩⟩,
    fun s => ⟨managementWakeEnd_ends, managementWakeEnd_none, fun w h => gives_keepAliveReturn h, twoWireTimeout_counts,
      twoWireTimeout_off⟩,
    fun s b => ⟨fun h => ⟨startTransaction_busy h, ?_, gives_transactionOk h, fun result hok hst =>
      gives_transactionFailed h hok hst⟩, fun h => ⟨gives_startTransaction h, transactionDone_idle h⟩, ?_,
      gives_recover b s, recoveryRetry_none, fun w h => gives_recoveryRetry h⟩⟩
  · have hpec : s.sys.addressed.chip.mgt.pecEn = false := hp
    rw [sk2Write_gives h hn hr hl, sk2Write_plain b0 b1 b2 b3 ho hpec]
    exact ⟨_, rfl, ⟨rfl, rfl⟩, rfl⟩
  · have hen : s.sys.addressed.chip.mgt.pecEn = true := hp
    rw [sk2Write_gives h hn hr hl, sk2Write_pec o0 o1 b0 b1 b2 b3 p ho hen, if_pos hpec]
    exact ⟨_, rfl, ⟨rfl, rfl⟩, rfl⟩
  · have hen : s.sys.addressed.chip.mgt.pecEn = true := hp
    rw [sk2Write_gives h hn hr hl, sk2Write_pec o0 o1 b0 b1 b2 b3 p ho hen, if_neg hpec]
    exact ⟨_, rfl, ⟨rfl, rfl⟩, rfl⟩
  · rw [transactionDone_stuck h]
    obtain ⟨u, hu, hm, hc, hd, hbusy, hdone, hrest⟩ := gives_foundStuck b s
    exact ⟨u, hu, hm, hc, hd, hbusy, hdone.trans (by rw [h, Bool.or_true]), hrest⟩
  · rw [exec_busStuck, execBusStuck, onBoard_eq]
    exact gives_foundStuck b s

end Sys2Proof.Machine
end

section
/-! PROOFS. The search unit (O37), first part: a request's service and its answer. -/

namespace Sys2Proof.Machine

section Service

variable {s : State} {c : Chip} {y : Sys}

/-! The mesh brings nothing. -/

theorem byArrival_nil (c : Chip) : byArrival c [] = [] := rfl

theorem takeSearchLines_quiet (hq : ∀ q, (c.tile q).sendq = []) (hl : c.cmp.mesh.lines = []) :
    QuietMesh c (takeSearchLines c) := by
  have hm := meshAdvance_quiet hq hl
  have hlines : (meshAdvance c).cmp.mesh.lines = [] := hm.lines
  unfold takeSearchLines
  dsimp only
  generalize meshAdvance c = d at hm hlines ⊢
  simp only [hlines, List.filter_nil, byArrival_nil, List.foldl_nil]
  split
  · exact ⟨by rw [hm.eq], rfl⟩
  · exact ⟨by rw [hm.eq], rfl⟩

theorem QuietMesh.srch {d : Chip} (h : QuietMesh c d) : d.srch = c.srch := by rw [h.eq]

theorem QuietMesh.domOn {d : Chip} (h : QuietMesh c d) (bit : Nat) : d.domOn bit = c.domOn bit :=
  domOn_of_pwr (by rw [h.eq]) bit

/-! The front request begins. -/

theorem awaitEnd_idle (h : y.chip.srch.active = none) : awaitEnd y = y := by
  unfold awaitEnd
  rw [h]

theorem retire_idle (m : List Host.Cell) (h : y.chip.srch.active = none) : retire m y = (m, y) := by
  unfold retire
  rw [h]

/-- The request at the front is taken by an idle unit. -/
theorem serveKind_takes {is : Nat → Bool} {r : SearchReq} {rest : List SearchReq}
    (hactive : (takeSearchLines s.sys.chip).srch.active = none) (hqueue : (takeSearchLines s.sys.chip).srch.queue = r :: rest)
    (his : is (reqKind r.line) = true) (hon : (takeSearchLines s.sys.chip).domOn bitSrch = true) :
    serveKind is s = .next { s with sys := beginSearch s.mem { s.sys with chip := takeSearchLines s.sys.chip } } := by
  have hy : (s.sys.onChip takeSearchLines).chip.srch.active = none := hactive
  unfold serveKind onMemSys
  dsimp only
  rw [awaitEnd_idle hy, retire_idle _ hy]
  dsimp only
  rw [Sys.onChip_chip, hqueue]
  dsimp only
  rw [if_pos (by rw [his, hon]; rfl)]
  rfl

/-- The unit with its front request in service. -/
def SearchUnit.serving (r : SearchReq) (rest : List SearchReq) (a : SearchAnswer) (u : SearchUnit) : SearchUnit := { u with
  queue := rest
  active := some ⟨r, max u.freeAt r.at_, a⟩ }

theorem beginSearch_takes (m : List Host.Cell) {r : SearchReq} {rest : List SearchReq} (hactive : y.chip.srch.active = none)
    (hqueue : y.chip.srch.queue = r :: rest) : beginSearch m y = { y with
      free := y.free + 1
      chip := { y.chip with srch := y.chip.srch.serving r rest (answerOf y.free r.line (r.e - r.r)
        (y.chip.srch.clearDue || decide (8191 ≤ y.chip.srch.sinceClear))
        (if (y.chip.srch.clearDue || decide (8191 ≤ y.chip.srch.sinceClear)) = true then 1
          else y.chip.srch.generation.toNat + 1) m y.ecc) } } := by
  unfold beginSearch
  dsimp only
  rw [hactive, hqueue]
  rfl

theorem gives_served {is : Nat → Bool} {r : SearchReq} {rest : List SearchReq} (hq : ∀ q, (s.sys.chip.tile q).sendq = [])
    (hl : s.sys.chip.cmp.mesh.lines = []) (hon : s.sys.chip.domOn bitSrch = true) (hactive : s.sys.chip.srch.active = none)
    (hqueue : s.sys.chip.srch.queue = r :: rest) (his : is (reqKind r.line) = true) : Gives (serveKind is s) fun t =>
      t.mem = s.mem ∧ t.pending = s.pending ∧ t.sys.tray = s.sys.tray ∧ t.sys.chip.cmp.tiles = s.sys.chip.cmp.tiles ∧
      t.sys.chip.srch = s.sys.chip.srch.serving r rest (answerOf s.sys.free r.line (r.e - r.r)
        (s.sys.chip.srch.clearDue || decide (8191 ≤ s.sys.chip.srch.sinceClear))
        (if (s.sys.chip.srch.clearDue || decide (8191 ≤ s.sys.chip.srch.sinceClear)) = true then 1
          else s.sys.chip.srch.generation.toNat + 1) s.mem s.sys.ecc) := by
  have hquiet := takeSearchLines_quiet hq hl
  have hactive' := (congrArg SearchUnit.active hquiet.srch).trans hactive
  have hqueue' := (congrArg SearchUnit.queue hquiet.srch).trans hqueue
  have htiles : (takeSearchLines s.sys.chip).cmp.tiles = s.sys.chip.cmp.tiles := by rw [hquiet.eq]
  have hsrch := hquiet.srch
  rw [serveKind_takes hactive' hqueue' his ((hquiet.domOn _).trans hon)]
  generalize takeSearchLines s.sys.chip = d at *
  have hbegin := beginSearch_takes (y := { s.sys with chip := d }) s.mem hactive' hqueue'
  rw [hbegin]
  dsimp only
  rw [hsrch]
  exact ⟨_, rfl, rfl, rfl, rfl, htiles, rfl⟩

/-! The answers of MEMREAD and MEMWRITE. -/

theorem noteRead_clean {e : SearchEcc} (off n : Nat) (he : e.bad = none) : (noteRead [] off n e).bad = none := by
  unfold noteRead noteWords
  rw [he]
  rfl

theorem readLines_clean (m : List Host.Cell) (n : Nat) : ∀ (off : Nat) (e : SearchEcc), e.bad = none →
    (readLines m [] off n e).2.bad = none ∧ (readLines m [] off n e).1.length = n ∧
    ∀ i, i < n → (readLines m [] off n e).1[i]? = some (Memory.line m (searchBase + off + 256 * i)) := by
  induction n with
  | zero => exact fun off e he => ⟨he, rfl, fun i hi => absurd hi (Nat.not_lt_zero i)⟩
  | succ n ih =>
    intro off e he
    have hclean := noteRead_clean off 256 he
    obtain ⟨hbad, hlen, hget⟩ := ih (off + 256) (noteRead [] off 256 e) hclean
    unfold readLines
    dsimp only
    rw [if_neg (by rw [hclean]; exact Bool.false_ne_true)]
    refine ⟨hbad, congrArg (· + 1) hlen, fun i hi => ?_⟩
    cases i with
    | zero => rfl
    | succ i =>
      rw [List.getElem?_cons_succ, hget i (by omega), ← Nat.add_assoc, Nat.mul_succ, Nat.add_assoc (searchBase + off),
        Nat.add_comm 256]

theorem padLines_full {n : Nat} {ls : List Line} (h : ls.length = n) : padLines n ls = ls := by
  unfold padLines
  exact List.take_left' h

theorem reqLines_pos (l : Line) : 1 ≤ reqLines l := by
  unfold reqLines
  dsimp only
  split
  · rename_i h
    rw [Bool.and_eq_true] at h
    exact of_decide_eq_true h.1
  · exact Nat.le_refl 1

section Answers

variable {l : Line} {budget gen draw : Nat} {clear : Bool} {m : List Host.Cell}

/-- A good request with budget for its entry is answered by its kind. -/
theorem answerOf_memread (hok : requestOk l = true) (hk : reqKind l = 3) (hb : 48 ≤ budget) :
    answerOf draw l budget clear gen m [] = memReadAnswer draw l budget m [] := by
  unfold answerOf
  dsimp only
  rw [if_neg (by omega), if_neg (by rw [hok]; decide), hk]
  rfl

theorem answerOf_memwrite (hok : requestOk l = true) (hk : reqKind l = 2) (hb : 48 ≤ budget) :
    answerOf draw l budget clear gen m [] = memWriteAnswer draw l budget := by
  unfold answerOf
  dsimp only
  rw [if_neg (by omega), if_neg (by rw [hok]; decide), hk]
  rfl

theorem memReadAnswer_reads (hb : 48 + reqLines l ≤ budget) : (memReadAnswer draw l budget m []).status = 0 ∧
    (memReadAnswer draw l budget m []).work = 48 + reqLines l ∧ (memReadAnswer draw l budget m []).writes = [] ∧
    (memReadAnswer draw l budget m []).lines.length = reqLines l ∧ ∀ i, i + 1 < reqLines l →
      (memReadAnswer draw l budget m []).lines[i + 1]? =
        some (Memory.line m (searchBase + l.leNat 4 4 + 256 * i)) := by
  obtain ⟨hbad, hlen, hget⟩ := readLines_clean m (reqLines l - 1) (l.leNat 4 4) SearchEcc.none rfl
  have hpos := reqLines_pos l
  have hfull (h : Line) : (h :: (readLines m [] (l.leNat 4 4) (reqLines l - 1) SearchEcc.none).1).length = reqLines l := by
    rw [List.length_cons, hlen]
    omega
  unfold memReadAnswer
  dsimp only
  rw [if_neg (by omega), hbad]
  dsimp only [Option.isSome_none]
  rw [if_neg Bool.false_ne_true, padLines_full (hfull _)]
  refine ⟨rfl, rfl, rfl, hfull _, fun i hi => ?_⟩
  rw [List.getElem?_cons_succ]
  exact hget i (by omega)

theorem memWriteAnswer_writes (hb : 48 + l.leNat 8 2 / 8 ≤ budget) : (memWriteAnswer draw l budget).status = 0 ∧
    (memWriteAnswer draw l budget).work = 48 + l.leNat 8 2 / 8 ∧
    (memWriteAnswer draw l budget).writes = [(l.leNat 4 4, (l.bytes.drop 32).take (l.leNat 8 2))] := by
  unfold memWriteAnswer
  dsimp only
  rw [if_neg (by omega)]
  exact ⟨rfl, rfl, rfl⟩

end Answers

end Service

end Sys2Proof.Machine
end

section
/-! PROOFS. The search unit (O37), second part: the end of a request's work, and the lines of its answer. -/

namespace Sys2Proof.Machine

section Delivery

variable {s : State} {c : Chip} {y : Sys} {a : SearchAnswer} {o : SearchOut} {q : QpId} {e : QEntry}

/-! The end of the work. -/

/-- A count of the work counter that has been reached, or run state, is not waited for. -/
theorem awaitWork_same {n : Nat} (h : y.chip.map.run = true ∨ n ≤ y.chip.srch.work.toNat) : y.awaitWork n = y := by
  unfold Sys.awaitWork
  by_cases hr : y.chip.map.run = true
  · rw [if_pos (by rw [hr]; rfl)]
  · split
    · rfl
    · rw [Nat.sub_eq_zero_of_le (h.resolve_left hr)]
      simp [Sys.awaitCores, Sys.awaitIf]

theorem applyWrites_chip (ws : List (Nat × List Byte)) (m : List Host.Cell) (y : Sys) :
    (applyWrites ws m y).2.chip = y.chip := by
  unfold applyWrites
  induction ws generalizing m y with
  | nil => rfl
  | cons w ws ih =>
    rw [List.foldl_cons]
    exact (ih ..).trans rfl

/-- What an answer of a request that its budget has cut leaves of the unit. -/
def SearchUnit.cut (a : SearchAnswer) (offset : BitVec 23) (valid : Bool) (u : SearchUnit) : SearchUnit := { u with
  served := satInc u.served
  eccCount := satAdd u.eccCount a.corrected
  partialCount := satInc u.partialCount
  eccOffset := offset
  eccValid := valid
  clearDue := if a.ordered && a.cleared then false else u.clearDue
  generation := if a.ordered then (if a.cleared then 1 else u.generation + 1) else u.generation
  sinceClear := if a.ordered then (if a.cleared then 1 else u.sinceClear + 1) else u.sinceClear }

/-- The capture of an uncorrectable word: the first one's place stays. -/
def SearchUnit.captured (bad : Option Nat) (u : SearchUnit) : BitVec 23 × Bool :=
  match bad with
  | some off => if u.eccValid then (u.eccOffset, true) else (BitVec.ofNat 23 off, true)
  | none => (u.eccOffset, u.eccValid)

theorem countAnswer_eq (h : a.status = 1) (c : Chip) : countAnswer a c =
    (if a.bad.isSome then ({ c with srch := c.srch.cut a (c.srch.captured a.bad).1 (c.srch.captured a.bad).2 }.raise 39
        .srch).raise 37 .srch
      else { c with srch := c.srch.cut a (c.srch.captured a.bad).1 (c.srch.captured a.bad).2 }.raise 39 .srch) := by
  unfold countAnswer SearchUnit.cut SearchUnit.captured
  rw [h]
  dsimp only
  cases a.bad with
  | none => cases a.ordered <;> cases a.cleared <;> rfl
  | some off => cases hv : c.srch.eccValid <;> cases a.ordered <;> cases a.cleared <;> simp [hv]

theorem countAnswer_cut (h : a.status = 1) (c : Chip) : ∃ offset valid, (countAnswer a c).srch = c.srch.cut a offset valid ∧
    (countAnswer a c).fc.raised = c.fc.raised ++ ⟨39, .srch⟩ :: (if a.bad.isSome then [⟨37, .srch⟩] else []) ∧
    (countAnswer a c).time = c.time := by
  refine ⟨(c.srch.captured a.bad).1, (c.srch.captured a.bad).2, ?_⟩
  rw [countAnswer_eq h]
  generalize c.srch.cut a (c.srch.captured a.bad).1 (c.srch.captured a.bad).2 = u
  split
  · exact ⟨rfl, List.append_assoc c.fc.raised [⟨39, .srch⟩] [⟨37, .srch⟩], rfl⟩
  · exact ⟨rfl, rfl, rfl⟩

/-- The chip once the request in service has ended. -/
def Chip.searchEnded (w : SearchRun) (c : Chip) : Chip :=
  let d := countAnswer w.answer c
  { d with srch := { d.srch with
    active := none
    freeAt := w.began + w.answer.work
    outs := d.srch.outs ++
      [⟨w.req.origin, outDue d w.req.origin w.req.e (w.began + w.answer.work), w.answer, 0⟩] } }

theorem retire_ends {w : SearchRun} (m : List Host.Cell) (hw : y.chip.srch.active = some w)
    (hend : w.began + w.answer.work ≤ y.chip.srch.work.toNat) : (retire m y).2.chip = y.chip.searchEnded w ∧
      (w.answer.writes = [] → w.answer.cleared = false → (retire m y).1 = m) := by
  have hchip (m : List Host.Cell) (z : Sys) (hz : z.chip = y.chip) :
      ((applyWrites w.answer.writes m z).2.onChip (Chip.searchEnded w)).chip = y.chip.searchEnded w := by
    rw [Sys.onChip_chip, applyWrites_chip, hz]
  unfold retire
  rw [hw]
  dsimp only
  rw [if_neg (Nat.not_lt.mpr hend)]
  refine ⟨?_, fun hnone hkept => ?_⟩
  · refine hchip _ _ ?_
    split <;> rfl
  · dsimp only
    rw [hnone, if_neg (ne_true_of_eq_false hkept)]
    rfl

theorem outDue_congr {c d : Chip} (h : d.time = c.time) (origin : SearchOrigin) (deadline due : Nat) :
    outDue d origin deadline due = outDue c origin deadline due := by
  unfold outDue
  rw [h]

theorem gives_searchBudgetEnd {w : SearchRun} (hw : s.sys.chip.srch.active = some w) (hcut : w.answer.status = 1)
    (hend : w.began + w.answer.work ≤ s.sys.chip.srch.work.toNat) : Gives (exec .searchBudgetEnd s) fun t =>
      t.pending = s.pending ∧ (w.answer.writes = [] → w.answer.cleared = false → t.mem = s.mem) ∧
      t.sys.chip = s.sys.chip.searchEnded w := by
  have hawait : awaitEnd s.sys = s.sys := by
    unfold awaitEnd
    rw [hw]
    exact awaitWork_same (.inr hend)
  have hany : s.sys.chip.srch.active.any (fun a => a.answer.status == 1) = true := by
    rw [hw]
    exact beq_iff_eq.mpr hcut
  obtain ⟨hchip, hmem⟩ := retire_ends s.mem hw hend
  rw [exec_searchBudgetEnd, execSearchBudgetEnd]
  unfold onMemSys
  dsimp only
  rw [if_pos hany, hawait]
  exact ⟨_, rfl, rfl, hmem, hchip⟩

/-! The lines of an answer to a tile. -/

/-- A line of the mesh, by where it goes and what it holds. -/
def MeshLine.payload (l : MeshLine) : MeshDst × Line := (l.dst, l.line)

theorem foldl_edgeSend (fabric : Bool) (v : Nat) (rch : Chan) (wait : Nat → Nat) (ls : List (Line × Nat)) :
    ∀ c : Chip, c.map.vc ≠ 0 →
      (ls.foldl (fun c l => edgeSend fabric false 8 (c.map.vc - 1) v rch l.1 (wait l.2) c) c).srch = c.srch ∧
      (ls.foldl (fun c l => edgeSend fabric false 8 (c.map.vc - 1) v rch l.1 (wait l.2) c) c).cmp.mesh.lines.map
        MeshLine.payload = c.cmp.mesh.lines.map MeshLine.payload ++ ls.map fun l => (MeshDst.tile v rch, l.1) := by
  induction ls with
  | nil => exact fun c _ => ⟨rfl, by simp⟩
  | cons l ls ih =>
    intro c hc
    have hsend : ∃ x : MeshLine, edgeSend fabric false 8 (c.map.vc - 1) v rch l.1 (wait l.2) c = { c with
        cmp := { c.cmp with mesh := { c.cmp.mesh with lines := c.cmp.mesh.lines ++ [x] } } } ∧
        x.payload = (MeshDst.tile v rch, l.1) := by
      unfold edgeSend
      rw [if_neg (by simpa using hc)]
      exact ⟨_, rfl, rfl⟩
    obtain ⟨x, hx, hpay⟩ := hsend
    rw [List.foldl_cons, hx]
    obtain ⟨hsrch, hlines⟩ := ih { c with
      cmp := { c.cmp with mesh := { c.cmp.mesh with lines := c.cmp.mesh.lines ++ [x] } } } hc
    rw [hsrch, hlines]
    refine ⟨rfl, ?_⟩
    simp [hpay]

theorem deliverToTile_lines {v : Nat} {rch : Chan} (due : Nat) (a : SearchAnswer) (hvc : c.map.vc ≠ 0)
    (hl : c.cmp.mesh.lines = []) : (deliverToTile v rch due a c).srch = c.srch ∧
      (deliverToTile v rch due a c).cmp.mesh.lines.map MeshLine.payload =
        a.lines.map fun l => (MeshDst.tile v rch, l) := by
  obtain ⟨hsrch, hlines⟩ := foldl_edgeSend (!c.time.strict) v rch
    (fun i => due + 4 + i - (if c.time.strict then c.cmp.pcc else c.srch.work.toNat)) a.lines.zipIdx c hvc
  unfold deliverToTile
  refine ⟨hsrch, hlines.trans ?_⟩
  conv_rhs => rw [← List.zipIdx_map_fst 0 a.lines, List.map_map]
  rw [hl, List.map_nil, List.nil_append]
  rfl

end Delivery

end Sys2Proof.Machine
end

section
/-! PROOFS. The search unit (O37), third part: results delivered to a tile and to a host, the idle scrubber; the obligation. -/

namespace Sys2Proof.Machine

section Results

variable {s : State} {c : Chip} {y : Sys} {o : SearchOut} {q : QpId} {e : QEntry}

/-! SEARCH_RESULT of a unit with one answer. -/

theorem awaitAnswer_same (ho : y.chip.srch.outs = [o]) (h : y.chip.map.run = true ∨ hostDue o ≤ y.chip.srch.work.toNat) :
    awaitAnswer y = y := by
  unfold awaitAnswer
  rw [ho]
  exact awaitWork_same h

/-- With no work under way and no line on the mesh, the answer that waits is delivered if it is due. -/
theorem searchResult_next (ho : s.sys.chip.srch.outs = [o]) (hactive : s.sys.chip.srch.active = none)
    (hq : ∀ q, (s.sys.chip.tile q).sendq = []) (hl : s.sys.chip.cmp.mesh.lines = [])
    (h : s.sys.chip.map.run = true ∨ hostDue o ≤ s.sys.chip.srch.work.toNat) : exec .searchResult s =
      .next (s.withChip fun c => sendHostLines (deliverReady (takeSearchLines c))) := by
  have hquiet := takeSearchLines_quiet hq hl
  have ho' : (s.sys.onChip takeSearchLines).chip.srch.outs = [o] := (congrArg SearchUnit.outs hquiet.srch).trans ho
  have hactive' : (s.sys.onChip takeSearchLines).chip.srch.active = none :=
    (congrArg SearchUnit.active hquiet.srch).trans hactive
  have hrun : (takeSearchLines s.sys.chip).map = s.sys.chip.map := by rw [hquiet.eq]
  have h' : (s.sys.onChip takeSearchLines).chip.map.run = true ∨
      hostDue o ≤ (s.sys.onChip takeSearchLines).chip.srch.work.toNat := by
    rw [Sys.onChip_chip, hrun, hquiet.srch]
    exact h
  rw [exec_searchResult, execSearchResult]
  unfold onMemSys
  dsimp only
  rw [awaitAnswer_same ho' h', retire_idle _ hactive']
  rfl

/-! To a tile. -/

/-- The chip whose answers have left the list. -/
def Chip.noOuts (c : Chip) : Chip := { c with srch := { c.srch with outs := [] } }

theorem deliverReady_ready (ho : c.srch.outs = [o]) (h : outReady c o = true) :
    deliverReady c = deliverOut c.noOuts o := by
  unfold deliverReady Chip.noOuts
  dsimp only
  rw [ho]
  simp [h]

theorem sendHostLines_none (h : c.srch.outs = []) : sendHostLines c = c.noOuts := by
  unfold sendHostLines Chip.noOuts
  rw [h]
  rfl

theorem gives_tileResult {v : Nat} {rch : Chan} (ho : s.sys.chip.srch.outs = [o]) (hactive : s.sys.chip.srch.active = none)
    (hq : ∀ q, (s.sys.chip.tile q).sendq = []) (hl : s.sys.chip.cmp.mesh.lines = []) (horigin : o.origin = .tile v rch)
    (hrun : s.sys.chip.map.run = true) (hvc : s.sys.chip.map.vc ≠ 0)
    (hdue : o.due ≤ (if s.sys.chip.time.strict then s.sys.chip.cmp.pcc else s.sys.chip.srch.work.toNat)) :
    Gives (exec .searchResult s) fun t => keepsMemory s t ∧ t.sys.chip.srch.outs = [] ∧
      t.sys.chip.cmp.mesh.lines.map MeshLine.payload = o.answer.lines.map fun l => (MeshDst.tile v rch, l) := by
  have hquiet := takeSearchLines_quiet hq hl
  rw [searchResult_next ho hactive hq hl (.inl hrun)]
  refine ⟨_, rfl, ⟨rfl, rfl⟩, ?_⟩
  have ho' : (takeSearchLines s.sys.chip).srch.outs = [o] := (congrArg SearchUnit.outs hquiet.srch).trans ho
  have hmap : (takeSearchLines s.sys.chip).map = s.sys.chip.map := by rw [hquiet.eq]
  have htime : (takeSearchLines s.sys.chip).time = s.sys.chip.time := by rw [hquiet.eq]
  have hpcc : (takeSearchLines s.sys.chip).cmp.pcc = s.sys.chip.cmp.pcc := by rw [hquiet.eq]
  have hready : outReady (takeSearchLines s.sys.chip) o = true := by
    unfold outReady SearchOut.forHost
    rw [horigin, htime, hpcc, hquiet.srch]
    exact decide_eq_true hdue
  have hlines := hquiet.lines
  dsimp only [State.withChip]
  generalize takeSearchLines s.sys.chip = d at *
  obtain ⟨hsrch, hpay⟩ := deliverToTile_lines (c := d.noOuts) (v := v) (rch := rch) o.due o.answer
    (by rw [show d.noOuts.map = d.map from rfl, hmap]; exact hvc) hlines
  have hdeliver : deliverOut d.noOuts o = deliverToTile v rch o.due o.answer d.noOuts := by
    unfold deliverOut
    rw [horigin]
  rw [deliverReady_ready ho' hready, hdeliver, sendHostLines_none (congrArg SearchUnit.outs hsrch)]
  exact ⟨rfl, hpay⟩

/-! To a host. -/

theorem insertWrite_last (w : HostWrite) (ws : List HostWrite) (h : ∀ x ∈ ws, leavesBefore w x = false) :
    insertWrite w ws = ws ++ [w] := by
  induction ws with
  | nil => rfl
  | cons x xs ih =>
    unfold insertWrite
    rw [if_neg (ne_true_of_eq_false (h x List.mem_cons_self)), ih fun z hz => h z (List.mem_cons_of_mem _ hz)]
    rfl

/-- When line i of an answer enters the host write path. -/
def lineIssued (c : Chip) (o : SearchOut) (i : Nat) : Nat := c.cmp.cycles - (c.srch.work.toNat - (o.due + 4 + i))

/-- Line i of an answer, as it stands in the host write path. -/
def resultWrite (e : QEntry) (q : QpId) (o : SearchOut) (c : Chip) (i : Nat) : HostWrite where
  addr := BitVec.ofNat 64 (descTaddr e.bytes + 256 * i)
  bytes := (o.answer.lines.getD i Line.zero).bytes
  handle := none
  due := lineIssued c o i + exitCycles c 256
  issued := lineIssued c o i
  src := 512
  ends := if i + 1 == o.answer.lines.length then
      some (q, e.index, (o.answer.lines.headD Line.zero).leNat 0 8, (o.answer.lines.headD Line.zero).leNat 8 8)
    else none

/-- The chip with writes in its host write path. -/
def Chip.writing (ws : List HostWrite) (c : Chip) : Chip := { c with hif := { c.hif with writes := ws } }

theorem putResult_writing (hup : c.hif.linkUp = true) (ws : List HostWrite) (i : Nat) : putResult q e o (c.writing ws) i =
    c.writing (insertWrite (resultWrite e q o c i) ws) := by
  unfold putResult
  dsimp only
  rw [if_pos (show (c.writing ws).hif.linkUp = true from hup)]
  rfl

theorem leavesBefore_later (e : QEntry) (q : QpId) (o : SearchOut) (c : Chip) {i j : Nat} (h : i ≤ j) :
    leavesBefore (resultWrite e q o c j) (resultWrite e q o c i) = false := by
  have hle : lineIssued c o i ≤ lineIssued c o j := by
    unfold lineIssued
    omega
  unfold leavesBefore
  rw [Bool.or_eq_false_iff, Bool.and_eq_false_iff]
  exact ⟨decide_eq_false (Nat.not_lt.mpr hle), .inr (decide_eq_false (Nat.lt_irrefl 512))⟩

theorem foldl_putResult (hup : c.hif.linkUp = true) (n : Nat) : (List.range n).foldl (putResult q e o) (c.writing []) =
    c.writing ((List.range n).map (resultWrite e q o c)) := by
  induction n with
  | zero => rfl
  | succ n ih =>
    rw [List.range_succ, List.foldl_append, ih, List.map_append]
    refine (putResult_writing hup _ n).trans (congrArg (fun ws => c.writing ws) (insertWrite_last _ _ fun x hx => ?_))
    obtain ⟨i, hi, rfl⟩ := List.mem_map.mp hx
    exact leavesBefore_later e q o c (Nat.le_of_lt (List.mem_range.mp hi))

/-- An answer whose lines are all out and find room enters the host write path whole. -/
theorem sendHostOut_whole (hup : c.hif.linkUp = true) (hw : c.hif.writes = []) (hsent : o.sent = 0)
    (hlen : o.answer.lines.length ≤ 16) (hdue : hostDue o ≤ c.srch.work.toNat) : sendHostOut q e o c =
      c.writing ((List.range o.answer.lines.length).map (resultWrite e q o c)) := by
  have hout : linesOut c o = o.answer.lines.length := by
    unfold linesOut
    unfold hostDue at hdue
    omega
  have hself : c.writing [] = c := by
    unfold Chip.writing
    rw [← hw]
  unfold sendHostOut
  dsimp only
  rw [if_pos hup, hout, hsent, hw, List.length_nil, Nat.min_eq_left (by omega), if_neg (Nat.lt_irrefl _), List.drop_zero]
  conv_lhs => rw [← hself]
  exact foldl_putResult hup _

theorem deliverReady_host (ho : c.srch.outs = [o]) {i : Nat} (horigin : o.origin = .host q i) : deliverReady c = c := by
  have hno : outReady c o = false := by
    unfold outReady SearchOut.forHost
    rw [horigin]
    rfl
  unfold deliverReady
  dsimp only
  rw [ho]
  simp only [hno, List.filter_cons, List.filter_nil, Bool.not_false, Bool.false_eq_true, if_false, if_true, List.foldl_nil]
  rw [← ho]

theorem sendHostLines_one (ho : c.srch.outs = [o]) {i : Nat} (horigin : o.origin = .host q i)
    (he : findEntry (c.qp q) i = some e) : sendHostLines c = sendHostOut q e o c.noOuts := by
  unfold sendHostLines
  rw [ho, List.foldl_cons, List.foldl_nil, horigin]
  dsimp only
  rw [show findEntry (Chip.qp { c with srch := { c.srch with outs := [] } } q) i = some e from he]
  rfl

theorem resultWrites_zipIdx (e : QEntry) (q : QpId) (o : SearchOut) (c : Chip) :
    ((List.range o.answer.lines.length).map (resultWrite e q o c)).map (fun w => (w.addr, w.bytes, w.ends)) =
      o.answer.lines.zipIdx.map fun l => (BitVec.ofNat 64 (descTaddr e.bytes + 256 * l.2), l.1.bytes,
        if l.2 + 1 = o.answer.lines.length then some (q, e.index, (o.answer.lines.headD Line.zero).leNat 0 8,
          (o.answer.lines.headD Line.zero).leNat 8 8) else none) := by
  refine List.ext_getElem (by simp) fun i h1 h2 => ?_
  have hi : i < o.answer.lines.length := by simpa using h1
  simp [resultWrite, hi]

theorem gives_hostResult {i : Nat} (ho : s.sys.chip.srch.outs = [o]) (hactive : s.sys.chip.srch.active = none)
    (hq : ∀ q, (s.sys.chip.tile q).sendq = []) (hl : s.sys.chip.cmp.mesh.lines = []) (horigin : o.origin = .host q i)
    (hdue : hostDue o ≤ s.sys.chip.srch.work.toNat) (hup : s.sys.chip.hif.linkUp = true) (hsent : o.sent = 0)
    (hlen : o.answer.lines.length ≤ 16) (hw : s.sys.chip.hif.writes = [])
    (he : findEntry (s.sys.chip.qp q) i = some e) : Gives (exec .searchResult s) fun t => keepsMemory s t ∧
      t.sys.chip.srch.outs = [] ∧ (t.sys.chip.qp q).entries = (s.sys.chip.qp q).entries ∧
      t.sys.chip.hif.writes.map (fun w => (w.addr, w.bytes, w.ends)) = o.answer.lines.zipIdx.map fun l =>
        (BitVec.ofNat 64 (descTaddr e.bytes + 256 * l.2), l.1.bytes,
          if l.2 + 1 = o.answer.lines.length then some (q, i, (o.answer.lines.headD Line.zero).leNat 0 8,
            (o.answer.lines.headD Line.zero).leNat 8 8) else none) := by
  have hquiet := takeSearchLines_quiet hq hl
  rw [searchResult_next ho hactive hq hl (.inr hdue)]
  refine ⟨_, rfl, ⟨rfl, rfl⟩, ?_⟩
  have hsrch := hquiet.srch
  have hhif : (takeSearchLines s.sys.chip).hif = s.sys.chip.hif := by rw [hquiet.eq]
  dsimp only [State.withChip]
  generalize takeSearchLines s.sys.chip = d at hsrch hhif ⊢
  have ho' : d.srch.outs = [o] := (congrArg SearchUnit.outs hsrch).trans ho
  have he' : findEntry (d.qp q) i = some e := by
    unfold Chip.qp at he ⊢
    rw [hhif]
    exact he
  have hwhole := sendHostOut_whole (q := q) (e := e) (c := d.noOuts) (o := o) ((congrArg HostIf.linkUp hhif).trans hup)
    ((congrArg HostIf.writes hhif).trans hw) hsent hlen (by
      rw [show d.noOuts.srch.work = d.srch.work from rfl, hsrch]
      exact hdue)
  rw [deliverReady_host ho' horigin, sendHostLines_one ho' horigin he', hwhole]
  refine ⟨rfl, ?_, ?_⟩
  · change d.hif.qps[q].entries = s.sys.chip.hif.qps[q].entries
    rw [hhif]
  · rw [← findEntry_index he]
    exact resultWrites_zipIdx e q o d.noOuts

/-! The idle scrubber. -/

theorem satAdd_zero {w : Nat} (x : BitVec w) : satAdd x 0 = x := by
  unfold satAdd
  rw [Nat.add_zero, Nat.min_eq_left (by have := x.isLt; omega), BitVec.ofNat_toNat, BitVec.setWidth_eq]

theorem searchScrub_next (hen : s.sys.chip.srch.scrubEnable = true) (hon : s.sys.chip.domOn bitSrch = true)
    (hactive : s.sys.chip.srch.active = none) (hqueue : s.sys.chip.srch.queue = []) (hecc : s.sys.ecc = [])
    (hdue : ∀ a, s.sys.chip.srch.scrubAt = some a → a + max 1 s.sys.chip.srch.gap.toNat ≤ s.sys.chip.cmp.cycles) :
    exec .searchScrub s = .next (s.withChip fun c => { c with srch := { c.srch with
      scrubPtr := c.srch.scrubPtr + 1
      scrubAt := some c.cmp.cycles } }) := by
  have hcheck (w : Nat) : Ecc.check s.sys.ecc w 32 = (0, 0) := by
    rw [hecc]
    rfl
  rw [exec_searchScrub, execSearchScrub, onSys_eq]
  cases ha : s.sys.chip.srch.scrubAt with
  | none =>
    dsimp only
    rw [if_pos (by rw [hen, hon, hactive, hqueue, ha]; rfl), hcheck]
    dsimp only
    rw [satAdd_zero]
    rfl
  | some a =>
    dsimp only
    rw [awaitCycle_of_le _ _ (hdue a ha), ite_self,
      if_pos (by rw [hen, hon, hactive, hqueue, ha]; exact decide_eq_true (hdue a ha)), hcheck]
    dsimp only
    rw [satAdd_zero]
    rfl

end Results

/-- Settles O37: a request's service by its kind, its answer, the end of its work, its result, and the idle scrubber. -/
theorem searchUnitServes : Obligations.SearchUnitServes := by
  unfold Obligations.SearchUnitServes
  dsimp only
  refine ⟨fun s r rest k hk hq hl hon hactive hqueue => ?_, fun draw budget gen l clear m hok => ⟨fun hkind hb => ?_,
    fun hkind hb hb' => ?_⟩, fun s => ⟨fun w hw hcut hend => ?_, fun o ho hactive hq hl => ⟨fun v rch horigin hrun hvc hdue =>
      gives_tileResult ho hactive hq hl horigin hrun hvc hdue, fun q i e horigin hrun hdue hup hsent hlen hw he =>
      gives_hostResult ho hactive hq hl horigin hdue hup hsent hlen hw he⟩,
    fun hen hon hactive hqueue hecc hdue => searchScrub_next hen hon hactive hqueue hecc hdue⟩⟩
  · rcases hk with ⟨rfl, hkind⟩ | ⟨rfl, hkind⟩ | ⟨rfl, hkind⟩ | ⟨rfl, hkind⟩
    · rw [exec_broad, execBroad]
      exact gives_served hq hl hon hactive hqueue (by simpa using hkind)
    · rw [exec_ordered, execOrdered]
      exact gives_served hq hl hon hactive hqueue (by simpa using hkind)
    · rw [exec_memwrite, execMemwrite]
      exact gives_served hq hl hon hactive hqueue (by simpa using hkind)
    · rw [exec_memread, execMemread]
      exact gives_served hq hl hon hactive hqueue (by simpa using hkind)
  · rw [answerOf_memread hok hkind (by omega)]
    exact memReadAnswer_reads hb
  · rw [answerOf_memwrite hok hkind hb]
    exact memWriteAnswer_writes hb'
  · obtain ⟨t, ht, hpend, hmem, hchip⟩ := gives_searchBudgetEnd hw hcut hend
    obtain ⟨offset, valid, hsrch, hraised, htime⟩ := countAnswer_cut hcut s.sys.chip
    refine ⟨t, ht, hpend, hmem, ?_⟩
    rw [hchip]
    unfold Chip.searchEnded
    dsimp only
    rw [hsrch, outDue_congr htime, hraised]
    unfold SearchUnit.cut
    refine ⟨rfl, rfl, rfl, rfl, rfl, rfl, rfl, fun ho => ?_, rfl⟩
    dsimp only
    rw [ho]
    exact ⟨rfl, rfl⟩

end Sys2Proof.Machine
end

section
/-! PROOFS. The link frame's codes (O29): arithmetic in GF(2⁸), the parity of a codeword, and the CRC's width. -/

namespace Sys2Proof.Machine

section Field

/-! Multiplication by x. -/

/-- For a byte, the product by x: its double, reduced where bit 7 was set. -/
theorem gfX_eq {a : Nat} (h : a < 256) : gfX a = (a * 2 % 256) ^^^ (if a.testBit 7 then 0x1D else 0) := by
  have hbit : a.testBit 7 = decide (a / 128 % 2 = 1) := Nat.testBit_eq_decide_div_mod_eq
  unfold gfX
  split
  · rfl
  · rename_i hno
    rw [hbit, decide_eq_true_eq] at hno
    rw [Nat.xor_zero, Nat.mod_eq_of_lt (by omega)]

theorem gfX_lt {a : Nat} (h : a < 256) : gfX a < 256 := by
  rw [gfX_eq h]
  refine Nat.xor_lt_two_pow (n := 8) (Nat.mod_lt _ (by decide)) ?_
  split <;> decide

theorem double_xor (a b : Nat) : (a ^^^ b) * 2 % 256 = (a * 2 % 256) ^^^ (b * 2 % 256) := by
  have h := congrArg (· % 2 ^ 8) (Nat.shiftLeft_xor_distrib (a := a) (b := b) (i := 1))
  simp only [Nat.xor_mod_two_pow, Nat.shiftLeft_eq] at h
  exact h

/-- Multiplication by x is linear. -/
theorem gfX_xor {a b : Nat} (ha : a < 256) (hb : b < 256) : gfX (a ^^^ b) = gfX a ^^^ gfX b := by
  rw [gfX_eq (Nat.xor_lt_two_pow (n := 8) ha hb), gfX_eq ha, gfX_eq hb, double_xor, Nat.testBit_xor]
  generalize a * 2 % 256 = x
  generalize b * 2 % 256 = y
  cases a.testBit 7 <;> cases b.testBit 7
  · simp
  · simp [Nat.xor_assoc]
  · change (x ^^^ y) ^^^ 0x1D = (x ^^^ 0x1D) ^^^ (y ^^^ 0)
    rw [Nat.xor_zero]
    ac_rfl
  · calc (x ^^^ y) ^^^ 0
        = (x ^^^ y) ^^^ (0x1D ^^^ 0x1D) := by rw [Nat.xor_self]
      _ = (x ^^^ 0x1D) ^^^ (y ^^^ 0x1D) := by ac_rfl

/-- α²³⁰ is the inverse of 1 + α. -/
theorem gfMul_inverse : ∀ z : Fin 256, gfMul z.val (gfPow 230) < 256 ∧
    gfX (gfMul z.val (gfPow 230)) ^^^ gfMul z.val (gfPow 230) = z.val := by
  decide +kernel

/-! The syndromes of a codeword. -/

theorem rsStep_lt {s : Nat × Nat} {c : Nat} (h : s.1 < 256 ∧ s.2 < 256) (hc : c < 256) :
    s.1 ^^^ c < 256 ∧ gfX s.2 ^^^ c < 256 :=
  ⟨Nat.xor_lt_two_pow (n := 8) h.1 hc, Nat.xor_lt_two_pow (n := 8) (gfX_lt h.2) hc⟩

theorem foldl_syndromes_lt (d : List Nat) (hd : ∀ x ∈ d, x < 256) : ∀ s : Nat × Nat, s.1 < 256 ∧ s.2 < 256 →
    (d.foldl (fun s c => (s.1 ^^^ c, gfX s.2 ^^^ c)) s).1 < 256 ∧
    (d.foldl (fun s c => (s.1 ^^^ c, gfX s.2 ^^^ c)) s).2 < 256 := by
  induction d with
  | nil => exact fun s h => h
  | cons x d ih =>
    intro s h
    rw [List.foldl_cons]
    exact ih (fun z hz => hd z (List.mem_cons_of_mem _ hz)) _ (rsStep_lt h (hd x List.mem_cons_self))

theorem rsSyndromes_lt {d : List Nat} (hd : ∀ x ∈ d, x < 256) : (rsSyndromes d).1 < 256 ∧ (rsSyndromes d).2 < 256 :=
  foldl_syndromes_lt d hd (0, 0) ⟨by decide, by decide⟩

theorem rsSyndromes_two (d : List Nat) (a b : Nat) : rsSyndromes (d ++ [a, b]) =
    (((rsSyndromes d).1 ^^^ a) ^^^ b, gfX (gfX (rsSyndromes d).2 ^^^ a) ^^^ b) := by
  unfold rsSyndromes
  rw [List.foldl_append]
  rfl

/-- The two parity bytes of data bytes, and the codeword they make. -/
theorem rsParity_syndromes {d : List Nat} (hd : ∀ x ∈ d, x < 256) : (rsParity d).1 < 256 ∧ (rsParity d).2 < 256 ∧
    rsSyndromes (d ++ [(rsParity d).1, (rsParity d).2]) = (0, 0) := by
  obtain ⟨h1, h2⟩ := rsSyndromes_lt hd
  have hzero : rsSyndromes (d ++ [0, 0]) = ((rsSyndromes d).1, gfX (gfX (rsSyndromes d).2)) := by
    rw [rsSyndromes_two]
    simp only [Nat.xor_zero]
  have hpar : rsParity d = (gfMul ((rsSyndromes d).1 ^^^ gfX (gfX (rsSyndromes d).2)) (gfPow 230),
      (rsSyndromes d).1 ^^^ gfMul ((rsSyndromes d).1 ^^^ gfX (gfX (rsSyndromes d).2)) (gfPow 230)) := by
    unfold rsParity
    rw [hzero]
  have hz : (rsSyndromes d).1 ^^^ gfX (gfX (rsSyndromes d).2) < 256 :=
    Nat.xor_lt_two_pow (n := 8) h1 (gfX_lt (gfX_lt h2))
  obtain ⟨hlt, hinv⟩ := gfMul_inverse ⟨_, hz⟩
  dsimp only at hlt hinv
  rw [rsSyndromes_two, hpar]
  dsimp only
  generalize gfMul ((rsSyndromes d).1 ^^^ gfX (gfX (rsSyndromes d).2)) (gfPow 230) = p at hlt hinv ⊢
  refine ⟨hlt, Nat.xor_lt_two_pow (n := 8) h1 hlt, ?_⟩
  rw [gfX_xor (gfX_lt h2) hlt]
  have hfirst : ((rsSyndromes d).1 ^^^ p) ^^^ ((rsSyndromes d).1 ^^^ p) = 0 := Nat.xor_self _
  have hsecond : (gfX (gfX (rsSyndromes d).2) ^^^ gfX p) ^^^ ((rsSyndromes d).1 ^^^ p) = 0 := by
    calc (gfX (gfX (rsSyndromes d).2) ^^^ gfX p) ^^^ ((rsSyndromes d).1 ^^^ p)
        = ((rsSyndromes d).1 ^^^ gfX (gfX (rsSyndromes d).2)) ^^^ (gfX p ^^^ p) := by
          ac_rfl
      _ = 0 := by rw [hinv, Nat.xor_self]
  rw [hfirst, hsecond]

theorem rsDecode_clean {cw : List Nat} (h : rsSyndromes cw = (0, 0)) : rsDecode cw = some (cw, none) := by
  unfold rsDecode
  rw [h]
  rfl

/-! The CRC. -/

theorem crcBit_lt (crc : Nat) (bit : Bool) : crcBit crc bit < 2 ^ 16 := by
  unfold crcBit
  dsimp only
  split
  · exact Nat.xor_lt_two_pow (Nat.mod_lt _ (by decide)) (by decide)
  · exact Nat.mod_lt _ (by decide)

theorem crc16_lt (bs : List Byte) : crc16 bs < 2 ^ 16 := by
  unfold crc16
  have h : ∀ (bs : List Byte) (crc : Nat), crc < 2 ^ 16 → bs.foldl crcByte crc < 2 ^ 16 := by
    intro bs
    induction bs with
    | nil => exact fun crc h => h
    | cons b bs ih => exact fun crc _ => ih _ (crcBit_lt _ _)
  exact h bs _ (by decide)

end Field

end Sys2Proof.Machine
end

section
/-! PROOFS. A frame as sent passes the receiver's checks (O29): its bytes, its two codewords, its CRC and its fields. -/

namespace Sys2Proof.Machine

section Frames

variable {seq : BitVec 10} {l : Lctl} {payload : Line} {msg : Dword}

/-! Numbers as bytes. -/

theorem leNat_leBytes (n x : Nat) : leNat (leBytes n x) = x % 2 ^ (8 * n) := by
  induction n generalizing x with
  | zero => simp [leBytes, leNat, Nat.mod_one]
  | succ n ih =>
    have htail : leBytes (n + 1) x = BitVec.ofNat 8 x :: leBytes n (x / 256) := by
      unfold leBytes
      rw [List.range_succ_eq_map, List.map_cons, List.map_map]
      refine congrArg₂ List.cons (by simp) (List.map_congr_left fun k _ => congrArg (BitVec.ofNat 8) ?_)
      rw [Nat.shiftRight_eq_div_pow, Nat.shiftRight_eq_div_pow, Nat.div_div_eq_div_mul, Nat.mul_succ, Nat.add_comm,
        Nat.pow_add]
    rw [htail, leNat, ih, BitVec.toNat_ofNat, Nat.mul_succ, Nat.add_comm (8 * n), Nat.pow_add, Nat.mod_mul]

theorem Lctl.toNat_lt (l : Lctl) : l.toNat < 2 ^ 16 := by
  have ha := l.ackSeq.isLt
  have ht := l.typ.isLt
  unfold Lctl.toNat
  split <;> split <;> split <;> omega

theorem Lctl.ofNat_toNat (l : Lctl) : Lctl.ofNat l.toNat = l := by
  obtain ⟨ack, nak, xoff, typ, rpl⟩ := l
  have ha := ack.isLt
  have ht := typ.isLt
  unfold Lctl.ofNat Lctl.toNat
  simp only [Nat.testBit_eq_decide_div_mod_eq, Lctl.mk.injEq]
  refine ⟨BitVec.eq_of_toNat_eq ?_, ?_, ?_, BitVec.eq_of_toNat_eq ?_, ?_⟩
  · rw [BitVec.toNat_ofNat]
    split <;> split <;> split <;> omega
  · cases nak <;> cases xoff <;> cases rpl <;> simp <;> omega
  · cases nak <;> cases xoff <;> cases rpl <;> simp <;> omega
  · rw [BitVec.toNat_ofNat]
    split <;> split <;> split <;> omega
  · cases nak <;> cases xoff <;> cases rpl <;> simp <;> omega

/-! The parts of a frame. -/

/-- Frame bytes 0 to 265. -/
def frameBody (l : Lctl) (payload : Line) (msg : Dword) : List Byte :=
  payload.bytes ++ leBytes 8 msg.toNat ++ leBytes 2 l.toNat

/-- Frame bytes 0 to 267: the body and its CRC. -/
def frameData (seq : BitVec 10) (l : Lctl) (payload : Line) (msg : Dword) : List Byte :=
  frameBody l payload msg ++ leBytes 2 (crc16 (crcInput seq (frameBody l payload msg)))

/-- The data bytes of codeword j. -/
def dataWord (d : List Byte) (j : Nat) : List Nat := (List.range 134).map fun k => (d.getD (2 * k + j) 0).toNat

/-- The four parity bytes of two codewords. -/
def parityBytes (d : List Byte) : List Byte :=
  [(rsParity (dataWord d 0)).1, (rsParity (dataWord d 1)).1, (rsParity (dataWord d 0)).2, (rsParity (dataWord d 1)).2].map
    fun x => BitVec.ofNat 8 x

theorem encodeFrame_eq : encodeFrame seq l payload msg =
    frameData seq l payload msg ++ parityBytes (frameData seq l payload msg) := rfl

theorem length_frameBody : (frameBody l payload msg).length = 266 := by
  simp [frameBody, Line.bytes]

theorem length_frameData : (frameData seq l payload msg).length = 268 := by
  simp [frameData, length_frameBody]

/-! The codewords. -/

theorem dataWord_lt (d : List Byte) (j : Nat) : ∀ x ∈ dataWord d j, x < 256 := by
  intro x hx
  obtain ⟨k, -, rfl⟩ := List.mem_map.mp hx
  exact BitVec.isLt _

/-- A codeword of data bytes with parity bytes behind them. -/
theorem codeword_append {d p : List Byte} (hd : d.length = 268) {j : Nat} (hj : j < 2) : codeword (d ++ p) j =
    dataWord d j ++ [(p.getD j 0).toNat, (p.getD (2 + j) 0).toNat] := by
  have hlow : ∀ k ∈ List.range 134, ((d ++ p).getD (2 * k + j) 0).toNat = (d.getD (2 * k + j) 0).toNat := by
    intro k hk
    have := List.mem_range.mp hk
    rw [List.getD_append _ _ _ _ (by omega)]
  have hhigh (i : Nat) : (d ++ p).getD (268 + i) 0 = p.getD i 0 := by
    rw [List.getD_append_right _ _ _ _ (by omega), hd, Nat.add_sub_cancel_left]
  unfold codeword dataWord
  rw [show 136 = 134 + 2 from rfl, List.range_add, List.map_append, List.map_congr_left hlow]
  refine congrArg _ ?_
  have h0 := hhigh j
  have h1 := hhigh (2 + j)
  rw [← Nat.add_assoc] at h1
  simp only [List.range_succ, List.range_zero, List.nil_append, List.map_cons, List.map_nil,
    List.cons_append]
  rw [show 2 * (134 + 0) + j = 268 + j by omega, show 2 * (134 + 1) + j = 268 + 2 + j by omega, h0, h1]

theorem codeword_clean {d : List Byte} (hd : d.length = 268) {j : Nat} (hj : j < 2) :
    rsSyndromes (codeword (d ++ parityBytes d) j) = (0, 0) := by
  obtain ⟨h1, h2, hsyn⟩ := rsParity_syndromes (dataWord_lt d j)
  have hp1 : ((parityBytes d).getD j 0).toNat = (rsParity (dataWord d j)).1 := by
    rcases (by omega : j = 0 ∨ j = 1) with rfl | rfl <;> exact Nat.mod_eq_of_lt h1
  have hp2 : ((parityBytes d).getD (2 + j) 0).toNat = (rsParity (dataWord d j)).2 := by
    rcases (by omega : j = 0 ∨ j = 1) with rfl | rfl <;> exact Nat.mod_eq_of_lt h2
  rw [codeword_append hd hj, hp1, hp2]
  exact hsyn

/-- Bytes taken in pairs are the bytes. -/
theorem flatMap_pairs (n : Nat) : ∀ f : List Byte, f.length = 2 * n →
    ((List.range n).flatMap fun k => [f.getD (2 * k) 0, f.getD (2 * k + 1) 0]) = f := by
  induction n with
  | zero =>
    intro f hf
    rw [List.length_eq_zero_iff.mp hf]
    rfl
  | succ n ih =>
    intro f hf
    match f, hf with
    | a :: b :: f, hf =>
      rw [List.range_succ_eq_map, List.flatMap_cons, List.flatMap_map]
      exact congrArg (fun r => a :: b :: r) (ih f (by simp at hf; omega))
    | [a], hf => simp at hf; omega
    | [], hf => simp at hf

theorem codeword_getD (f : List Byte) (j : Nat) {k : Nat} (hk : k < 136) :
    BitVec.ofNat 8 ((codeword f j).getD k 0) = f.getD (2 * k + j) 0 := by
  unfold codeword
  rw [List.getD_eq_getElem _ _ (by simpa using hk), List.getElem_map, List.getElem_range, BitVec.ofNat_toNat,
    BitVec.setWidth_eq]

/-- Two codewords without error are left as received. -/
theorem fecDecode_clean {f : List Byte} (hf : f.length = 272) (h0 : rsSyndromes (codeword f 0) = (0, 0))
    (h1 : rsSyndromes (codeword f 1) = (0, 0)) : fecDecode f = ⟨f, [], true⟩ := by
  have hbytes : ((List.range 136).flatMap fun k =>
      [BitVec.ofNat 8 ((codeword f 0).getD k 0), BitVec.ofNat 8 ((codeword f 1).getD k 0)]) = f := by
    refine Eq.trans ?_ (flatMap_pairs 136 f hf)
    refine List.flatMap_congr fun k hk => ?_
    rw [codeword_getD f 0 (List.mem_range.mp hk), codeword_getD f 1 (List.mem_range.mp hk)]
    rfl
  unfold fecDecode
  dsimp only
  rw [rsDecode_clean h0, rsDecode_clean h1]
  exact congrArg (fun bytes => FecResult.mk bytes [] true) hbytes

/-! The fields of a frame. -/

theorem crcPasses_body {body rest : List Byte} (hb : body.length = 266) :
    crcPasses seq (body ++ (leBytes 2 (crc16 (crcInput seq body)) ++ rest)) = true := by
  have hinput : crcInput seq (body ++ (leBytes 2 (crc16 (crcInput seq body)) ++ rest)) = crcInput seq body := by
    unfold crcInput
    rw [List.take_left' hb, List.take_of_length_le (by omega)]
  unfold crcPasses
  rw [hinput, List.drop_left' hb, List.take_left' (length_leBytes ..), leNat_leBytes, Nat.mod_eq_of_lt (crc16_lt _)]
  exact beq_self_eq_true _

theorem frameLctl_behind {head rest : List Byte} (hh : head.length = 264) :
    frameLctl (head ++ (leBytes 2 l.toNat ++ rest)) = l := by
  unfold frameLctl
  rw [List.drop_left' hh, List.take_left' (length_leBytes ..), leNat_leBytes, Nat.mod_eq_of_lt l.toNat_lt,
    Lctl.ofNat_toNat]

theorem ofBytes_bytes (x : Line) : Line.ofBytes x.bytes = x := by
  refine Vector.ext fun i hi => ?_
  simp [Line.ofBytes, Line.bytes, hi]

theorem frameOf_parts (rest : List Byte) :
    frameOf (payload.bytes ++ (leBytes 8 msg.toNat ++ (leBytes 2 l.toNat ++ rest))) = ⟨l.typ, payload, msg⟩ := by
  have hp : payload.bytes.length = 256 := Vector.length_toList
  have hl : frameLctl (payload.bytes ++ (leBytes 8 msg.toNat ++ (leBytes 2 l.toNat ++ rest))) = l := by
    rw [← List.append_assoc]
    exact frameLctl_behind (by rw [List.length_append, hp, length_leBytes])
  unfold frameOf
  rw [hl, List.take_left' hp, List.drop_left' hp, List.take_left' (length_leBytes ..), ofBytes_bytes, leNat_leBytes,
    Nat.mod_eq_of_lt msg.isLt, BitVec.ofNat_toNat, BitVec.setWidth_eq]

end Frames

/-- Settles O29: both codewords have the syndromes 0, and each field stands where the receiver reads it. -/
theorem sentFramePassesChecks : Obligations.SentFramePassesChecks := by
  unfold Obligations.SentFramePassesChecks
  intro seq l payload msg
  dsimp only
  rw [encodeFrame_eq]
  have hlen := length_frameData (seq := seq) (l := l) (payload := payload) (msg := msg)
  have hbody : (payload.bytes ++ leBytes 8 msg.toNat).length = 264 := by
    rw [List.length_append, length_leBytes]
    exact congrArg (· + 8) Vector.length_toList
  refine ⟨fecDecode_clean ?_ (codeword_clean hlen (by decide)) (codeword_clean hlen (by decide)), ?_, ?_, ?_⟩
  · rw [List.length_append, hlen]
    rfl
  · unfold frameData
    rw [List.append_assoc]
    exact crcPasses_body length_frameBody
  · unfold frameData frameBody
    rw [List.append_assoc, List.append_assoc]
    exact frameLctl_behind hbody
  · unfold frameData frameBody
    rw [List.append_assoc, List.append_assoc, List.append_assoc]
    exact frameOf_parts _

end Sys2Proof.Machine
end
